-- ==== Sys2Proof/Word.lean ====
section
/-! DEFINITION. Word.lean: the word types of the manual (R2, R4). -/
namespace Sys2Proof

/-- One byte (R2). -/
abbrev Byte := BitVec 8
/-- A 32-bit register or instruction word (R5, R322). -/
abbrev Word := BitVec 32
/-- A 64-bit quantity: a last record, a long-term time field (R4, R115). -/
abbrev Dword := BitVec 64

end Sys2Proof
end

