-- ==== Sys2Proof/Syntax.lean ====
section
/-! DEFINITION. Syntax.lean: the commands of the block, one constructor per row of the table of operations and events, and the types of
their operands. A command's operands are what the outside (or the unit that acts) gives: which unit, which value, which bytes. `dt` is the
DRIVE ticks that pass between the command before and this one. -/
namespace Sys2Proof

/-- A boundary that an ENACT names (R18). -/
inductive Boundary where
  | frame (n : Fin 8) | row (n : Fin 8) | sequence | idle | gap | now
  deriving DecidableEq, Repr

/-- A reader with a holding register of its own, and a sender of register writes (R9). -/
inductive Reader where
  | core (k : Fin 4) | link (l : Fin 2) | sps | debug
  deriving DecidableEq, Repr

/-- The unit sets that have a shadow copy and a generation of their own (R7, R18). -/
inductive SetId where
  /-- Unit u of the timebase (R13, R40). -/
  | wp (u : Fin 20)
  /-- Head port n (R56). -/
  | hp (n : Fin 8)
  /-- Pipeline p (R81). -/
  | pl (p : Fin 2)
  | lt | wm | bv
  /-- Bank n (R219). -/
  | vb (n : Fin 8)
  | spare
  /-- Bank link n (R270). -/
  | bl (n : Fin 8)
  /-- The shared analogue set (R283). -/
  | ana
  /-- Converter x (R283). -/
  | anc (x : Fin 4)
  /-- Serial master n (R317). -/
  | spm (n : Fin 4)
  | sps | gpio | tk
  /-- Generation of the admission unit, which swaps with tk (R380, R381). -/
  | am
  | fb | hx | gl | sv | tr | db
  deriving DecidableEq, Repr

/-- What a cold reset finds (R430): the unit serial number and its check byte in the fuses (R437); fuse areas that fail their check, by bit
(R441: 0 identity beyond the serial number, 1 trims, 2 repair maps, 3 Vendor ID); the rows that the factory repair maps map, and those that the
self-test finds failing, of banks of the last store or of frame memory. -/
structure ColdReport where
  serial : Dword
  check : Byte
  fuseBad : BitVec 4
  factory : List (Bool × Fin 16 × Fin 256)
  failed : List (Bool × Fin 16 × Fin 256)
  deriving DecidableEq, Repr

/-- A CSI-2 packet header as its ECC finds it (R54, R68): right, corrected, or beyond correction. -/
inductive Hdr where
  | ok | fixed | lost
  deriving DecidableEq, Repr

/-- A packet that the port does not take (R54, R68): its data type, and whether the CRC of a long packet is right. -/
structure StrayPacket where
  dtype : BitVec 6
  crcOk : Bool
  deriving DecidableEq, Repr

/-- A transaction of the slave port that does not act (R312): in a byte, short, or unknown, and its whole bytes. -/
structure SpsCut where
  kind : Fin 3
  bytes : Nat
  deriving DecidableEq, Repr

/-- A start-of-transmission error (R68): the lane, and whether the packet that it loses is an image line. -/
structure SotError where
  lane : Fin 4
  line : Bool
  deriving DecidableEq, Repr

/-- The source of a converter's trigger (R279): an event, or a lace event of a bank and channel, the start of a fire (0) or the entry into
phase kind 1 to 5. -/
inductive AdcSource where
  | event (n : Fin 256)
  | lace (b : Fin 8) (c : Fin 16) (what : Fin 6)
  deriving DecidableEq, Repr

/-- A trigger tick (R279): the delay unit that it reaches, a converter's or (4) the common one, and its source. -/
structure AdcTick where
  who : Fin 5
  src : AdcSource
  deriving DecidableEq, Repr

/-- What the host gives a DMA transfer from or to its memory (R350): the bytes, none where the link or the host fails, and the error completion
of a host that refuses (R423). -/
structure DmaHost where
  bytes : Option (List Byte)
  err : Option (Fin 3)
  deriving DecidableEq, Repr

/-- A last set as host memory gives it to a build (R119): the directory entry and its records; none where the read fails. -/
structure SetRead where
  entry : Fin 256
  recs : Option (List Dword)
  /-- The error completion of a read that fails: unsupported request, completer abort, poisoned (R423). -/
  err : Option (Fin 3)
  deriving DecidableEq, Repr

/-- A memory read that finds an error (R387): frame memory or last store, bank, byte offset in the bank or record index, uncorrectable or
corrected, and the requester (R390). -/
structure ReadError where
  last : Bool
  bank : Fin 16
  off : BitVec 22
  ue : Bool
  who : Fin 15
  deriving DecidableEq, Repr

/-- A beat presented at a target of the crossbar (R391): requester and which of its units presents it (R390: a head port, an engine, a core or
its DMA, a link), a write, an emergency, and whether the requester presents it again, having presented it before without a grant (R392, R394). -/
structure BeatReq where
  who : Fin 15
  unit : Fin 16
  write : Bool
  emergency : Bool
  again : Bool
  deriving DecidableEq, Repr

/-- What a CORE cycle brings to a target of the crossbar (R391, R394): the beats presented, and the requesters that take a response. -/
structure BeatCycle where
  reqs : List BeatReq
  answered : List (Fin 15)
  deriving DecidableEq, Repr

/-- A host's write of an entry of an MSI-X table (R407, R416): vector, message address and data, and its mask bit. -/
structure MsixWrite where
  v : Fin 64
  addr : BitVec 64
  data : Word
  masked : Bool
  deriving DecidableEq, Repr

/-- The completion of the zero-length read of a ring (R418): an error completion confirms nothing (R423). -/
structure ReadBack where
  ring : Fin 32
  err : Option (Fin 3)
  deriving DecidableEq, Repr

/-- The commands (spec/opcode_table.json). -/
inductive Instr where
  /-- ADD (R330). -/
  | add (k : Fin 4) (rd ra rb : Fin 16)
  /-- SUB (R330). -/
  | sub (k : Fin 4) (rd ra rb : Fin 16)
  /-- ADC (R330). -/
  | adc (k : Fin 4) (rd ra rb : Fin 16)
  /-- SBC (R330). -/
  | sbc (k : Fin 4) (rd ra rb : Fin 16)
  /-- AND (R330). -/
  | and (k : Fin 4) (rd ra rb : Fin 16)
  /-- OR (R330). -/
  | or (k : Fin 4) (rd ra rb : Fin 16)
  /-- XOR (R330). -/
  | xor (k : Fin 4) (rd ra rb : Fin 16)
  /-- SHL (R330). -/
  | shl (k : Fin 4) (rd ra rb : Fin 16) (sh : BitVec 5)
  /-- SHR (R330). -/
  | shr (k : Fin 4) (rd ra rb : Fin 16) (sh : BitVec 5)
  /-- SAR (R330). -/
  | sar (k : Fin 4) (rd ra rb : Fin 16) (sh : BitVec 5)
  /-- MUL (R330). -/
  | mul (k : Fin 4) (rd ra rb : Fin 16)
  /-- MULH (R330). -/
  | mulh (k : Fin 4) (rd ra rb : Fin 16)
  /-- MULHU (R330). -/
  | mulhu (k : Fin 4) (rd ra rb : Fin 16)
  /-- DIV (R332). -/
  | div (k : Fin 4) (rd ra rb : Fin 16)
  /-- DIVU (R332). -/
  | divu (k : Fin 4) (rd ra rb : Fin 16)
  /-- MIN (R330). -/
  | min (k : Fin 4) (rd ra rb : Fin 16)
  /-- MAX (R330). -/
  | max (k : Fin 4) (rd ra rb : Fin 16)
  /-- MINU (R330). -/
  | minu (k : Fin 4) (rd ra rb : Fin 16)
  /-- MAXU (R330). -/
  | maxu (k : Fin 4) (rd ra rb : Fin 16)
  /-- ADDS (R330). -/
  | adds (k : Fin 4) (rd ra rb : Fin 16)
  /-- SUBS (R330). -/
  | subs (k : Fin 4) (rd ra rb : Fin 16)
  /-- SATS (R330). -/
  | sats (k : Fin 4) (rd ra : Fin 16) (sh : BitVec 5)
  /-- SATU (R330). -/
  | satu (k : Fin 4) (rd ra : Fin 16) (sh : BitVec 5)
  /-- QMUL (R331). -/
  | qmul (k : Fin 4) (rd ra rb : Fin 16) (sh : BitVec 5)
  /-- QMULU (R331). -/
  | qmulu (k : Fin 4) (rd ra rb : Fin 16) (sh : BitVec 5)
  /-- CLZ (R330). -/
  | clz (k : Fin 4) (rd ra : Fin 16)
  /-- ADDI (R329). -/
  | addi (k : Fin 4) (rd ra : Fin 16) (imm : BitVec 18)
  /-- ANDI (R329). -/
  | andi (k : Fin 4) (rd ra : Fin 16) (imm : BitVec 18)
  /-- ORI (R329). -/
  | ori (k : Fin 4) (rd ra : Fin 16) (imm : BitVec 18)
  /-- XORI (R329). -/
  | xori (k : Fin 4) (rd ra : Fin 16) (imm : BitVec 18)
  /-- LUI (R329). -/
  | lui (k : Fin 4) (rd : Fin 16) (imm : BitVec 22)
  /-- MFS (R323). -/
  | mfs (k : Fin 4) (rd : Fin 16) (sr : Fin 32)
  /-- MTS (R323). -/
  | mts (k : Fin 4) (sr : Fin 32) (ra : Fin 16)
  /-- LDW (R334). -/
  | ldw (k : Fin 4) (rd ra : Fin 16) (imm : BitVec 18) (bad : Bool)
  /-- LDH (R334). -/
  | ldh (k : Fin 4) (rd ra : Fin 16) (imm : BitVec 18) (bad : Bool)
  /-- LDHU (R334). -/
  | ldhu (k : Fin 4) (rd ra : Fin 16) (imm : BitVec 18) (bad : Bool)
  /-- LDB (R334). -/
  | ldb (k : Fin 4) (rd ra : Fin 16) (imm : BitVec 18) (bad : Bool)
  /-- LDBU (R334). -/
  | ldbu (k : Fin 4) (rd ra : Fin 16) (imm : BitVec 18) (bad : Bool)
  /-- STW (R334). -/
  | stw (k : Fin 4) (rs ra : Fin 16) (imm : BitVec 18)
  /-- STH (R334). -/
  | sth (k : Fin 4) (rs ra : Fin 16) (imm : BitVec 18)
  /-- STB (R334). -/
  | stb (k : Fin 4) (rs ra : Fin 16) (imm : BitVec 18)
  /-- DLD (R335). -/
  | dld (k : Fin 4) (rd ra : Fin 16) (imm : BitVec 18)
  /-- DST (R335). -/
  | dst (k : Fin 4) (rs ra : Fin 16) (imm : BitVec 18)
  /-- BR (R333). -/
  | br (k : Fin 4) (cond : Fin 16) (off : BitVec 22)
  /-- BL (R329). -/
  | bl (k : Fin 4) (off : BitVec 26)
  /-- JALR (R329). -/
  | jalr (k : Fin 4) (rd ra : Fin 16) (imm : BitVec 18)
  /-- QPUT (R337). -/
  | qput (k : Fin 4) (rs ra : Fin 16) (qi : Byte) (blk : Bool)
  /-- QGET (R337). -/
  | qget (k : Fin 4) (rd ra : Fin 16) (qi : Byte) (blk : Bool)
  /-- WAIT (R339). -/
  | wait (k : Fin 4) (rd ra : Fin 16)
  /-- POST (R340). -/
  | post (k : Fin 4) (ra : Fin 16) (n : Fin 32)
  /-- LOCK (R341). -/
  | lock (k : Fin 4) (rd ra : Fin 16) (rank : Fin 16)
  /-- UNLOCK (R343). -/
  | unlock (k : Fin 4) (rd : Fin 16)
  /-- ENACT (R345). -/
  | enact (k : Fin 4) (rd ra : Fin 16) (kind n : Fin 8)
  /-- ENACT_CANCEL (R346). -/
  | enactCancel (k : Fin 4) (rd ra : Fin 16)
  /-- ADMIT_SUBMIT (R348). -/
  | admitSubmit (k : Fin 4) (rd ra : Fin 16)
  /-- ADMIT_RELEASE (R368). -/
  | admitRelease (k : Fin 4) (rd ra : Fin 16)
  /-- DMA (R349). -/
  | dma (k : Fin 4) (rd ra : Fin 16)
  /-- NOP (R351). -/
  | nop (k : Fin 4)
  /-- YIELD (R351). -/
  | yield (k : Fin 4)
  /-- HALT (R351). -/
  | halt (k : Fin 4)
  /-- SYNC (R351). -/
  | sync (k : Fin 4)
  /-- TRAP (R352). -/
  | trap (k : Fin 4) (code : BitVec 16)
  /-- ILLEGAL_INSTRUCTION (R328). -/
  | illegalInstruction (k : Fin 4) (opcode : BitVec 6)
  /-- CONTEXT_SETUP (R357). -/
  | contextSetup (who : Reader) (c : Fin 1024) (core : Fin 4) (auto : Bool)
  /-- CONTEXT_RELEASE (R357). -/
  | contextRelease (who : Reader) (c : Fin 1024)
  /-- CONTEXT_STOP (R357). -/
  | contextStop (who : Reader) (c : Fin 1024)
  /-- CONTEXT_RESTART (R357). -/
  | contextRestart (who : Reader) (c : Fin 1024)
  /-- CORE_RETURN_TO_SERVICE (R363). -/
  | coreReturnToService (who : Reader) (k : Fin 4)
  /-- HOST_WRITE_REJECT (R17). -/
  | hostWriteReject (l : Fin 2) (bar2 : Bool) (off : BitVec 20) (v : Word)
  /-- HOST_BAR0_READ (R407). -/
  | hostBar0Read (l : Fin 2) (off : BitVec 20)
  /-- LOADER_WRITE (R409). -/
  | loaderWrite (l : Fin 2) (off : BitVec 20) (bytes : List Byte)
  /-- LOADER_CLOSE (R409). -/
  | loaderClose (l : Fin 2) (v : Word)
  /-- RING_DOORBELL (R411). -/
  | ringDoorbell (l : Fin 2) (r : Fin 32) (v : Word)
  /-- RING_CFG_WRITE (R412). -/
  | ringCfgWrite (l : Fin 2) (r : Fin 32) (f : Fin 7) (v : Word)
  /-- FEAT_ACCEPT_WRITE (R420). -/
  | featAcceptWrite (who : Reader) (w : Fin 7) (v : Word)
  /-- FEATURE_COMMIT (R421). -/
  | featureCommit (who : Reader) (v : Word)
  /-- OTHER_REGISTER_WRITE (R5). -/
  | otherRegisterWrite (who : Reader) (a : BitVec 20) (v : Word)
  /-- POWER_ON (R428). -/
  | powerOn
  /-- SUPPLY_OUT_OF_RANGE (R426). -/
  | supplyOutOfRange
  /-- RST_N_ASSERT (R427). -/
  | rstNAssert (ns : Nat)
  /-- COLD_RESET (R430). -/
  | coldReset (strap : Bool) (rep : ColdReport)
  /-- PLL_LOCK (R430). -/
  | pllLock (p : Fin 3)
  /-- PLL_LOCK_RETRY (R430). -/
  | pllLockRetry (p : Fin 3)
  /-- DRIVE_PLL_LOCK_LOSS (R428). -/
  | drivePllLockLoss
  /-- CORE_PERI_PLL_LOCK_LOSS (R428). -/
  | corePeriPllLockLoss (peri : Bool)
  /-- WARM_RESET (R431). -/
  | warmReset
  /-- GL_RST_WRITE (R428). -/
  | glRstWrite (who : Reader) (v : Word)
  /-- GL_RST_PAIR_EXPIRE (R428). -/
  | glRstPairExpire
  /-- WATCHDOG_WRITE (R444). -/
  | watchdogWrite (v : Word)
  /-- WATCHDOG_KICK (R443). -/
  | watchdogKick (v : Word)
  /-- WATCHDOG_EXPIRY (R444). -/
  | watchdogExpiry
  /-- FUNCTION_LEVEL_RESET (R428). -/
  | functionLevelReset (l : Fin 2)
  /-- UNIT_RESET_REQUEST (R434). -/
  | unitResetRequest (v : Word)
  /-- UNIT_RESET_DONE (R434). -/
  | unitResetDone
  /-- PIN_RELEASE (R436). -/
  | pinRelease (reg1 : Bool) (v : Word)
  /-- PIN_HOLD (R436). -/
  | pinHold (reg1 : Bool) (v : Word)
  /-- BOOT_HEADER_READ (R440). -/
  | bootHeaderRead (bytes : List Byte)
  /-- SHADOW_SWAP (R19). -/
  | shadowSwap (set : SetId)
  /-- ENC_EDGE (R33). -/
  | encEdge (dt : Nat) (n : Fin 4) (a b : Bool) (stable : Nat)
  /-- SPEED_STOP_TIMEOUT (R36). -/
  | speedStopTimeout
  /-- ROW_EMIT (R42). -/
  | rowEmit (n : Fin 8)
  /-- TRG_EDGE (R44). -/
  | trgEdge (dt : Nat) (n : Fin 4) (level : Bool) (stable : Nat)
  /-- GAP_PLAN_DUE (R45). -/
  | gapPlanDue
  /-- GAP_LENGTH_REACHED (R45). -/
  | gapLengthReached
  /-- GAP_FORCED_CLOSE (R46). -/
  | gapForcedClose
  /-- GAP_SOFTWARE_OPEN (R45). -/
  | gapSoftwareOpen (dt : Nat)
  /-- GAP_SOFTWARE_CLOSE (R45). -/
  | gapSoftwareClose (dt : Nat)
  /-- GAP_PLAN_DISARM (R52). -/
  | gapPlanDisarm
  /-- GAP_PLAN_LO_WRITE (R52). -/
  | gapPlanLoWrite (v : Word)
  /-- GAP_PLAN_HI_WRITE (R52). -/
  | gapPlanHiWrite (v : Word)
  /-- EVT_PULSE_END (R47). -/
  | evtPulseEnd (n : Fin 4)
  /-- HSY_PULSE_END (R48). -/
  | hsyPulseEnd (n : Fin 8)
  /-- TIMER_ARM (R49). -/
  | timerArm (n : Fin 128) (v : Word)
  /-- TIMER_MATCH (R49). -/
  | timerMatch (n : Fin 128)
  /-- TIMER_TARGET_WRITE (R50). -/
  | timerTargetWrite (n : Fin 128) (hi : Bool) (v : Word)
  /-- HP_FRAME_START (R66). -/
  | hpFrameStart (dt : Nat) (n : Fin 8) (hdr : Hdr)
  /-- HP_IMAGE_LINE (R68). -/
  | hpImageLine (n : Fin 8) (hdr : Hdr) (raw12 : Bool) (crcOk : Bool) (px : List (BitVec 14))
  /-- HP_TELEMETRY_PACKET (R59). -/
  | hpTelemetryPacket (n : Fin 8) (hdr : Hdr) (crcOk : Bool) (bytes : List Byte)
  /-- HP_FRAME_END (R66). -/
  | hpFrameEnd (dt : Nat) (n : Fin 8) (hdr : Hdr)
  /-- HP_PACKET_DISCARD (R68). -/
  | hpPacketDiscard (n : Fin 8) (hdr : Hdr) (vc : Fin 16) (pkt : StrayPacket)
  /-- HP_LANE_SOT_ERROR (R68). -/
  | hpLaneSotError (n : Fin 8) (err : SotError)
  /-- HP_FRAME_TIMEOUT (R68). -/
  | hpFrameTimeout (n : Fin 8)
  /-- HP_ABSENT_TIMEOUT (R71). -/
  | hpAbsentTimeout (n : Fin 8)
  /-- HP_CTL_DATA_WRITE (R64). -/
  | hpCtlDataWrite (n : Fin 8) (v : Word)
  /-- HP_CTL_SUBMIT (R64). -/
  | hpCtlSubmit (n : Fin 8) (v : Word)
  /-- HP_CTL_RX_READ (R76). -/
  | hpCtlRxRead (n : Fin 8)
  /-- HP_CTL_COMPLETE (R62). -/
  | hpCtlComplete (dt : Nat) (n : Fin 8) (ok : Bool) (reply : List Byte)
  /-- HP_SERIAL_READ_DONE (R72). -/
  | hpSerialReadDone (n : Fin 8) (ok : Bool) (serial : Dword)
  /-- HP_WORKING_SET_REPORT (R72). -/
  | hpWorkingSetReport (n : Fin 8)
  /-- PL_LINE_BOUNDARY (R104). -/
  | plLineBoundary (p : Fin 2)
  /-- PL_FRAME_LATCH (R82). -/
  | plFrameLatch (p : Fin 2)
  /-- PL_TABLE_LOAD_DONE (R85). -/
  | plTableLoadDone (p : Fin 2) (ok : Bool)
  /-- PL_LINE_PROCESS (R78). -/
  | plLineProcess (p : Fin 2)
  /-- PL_FRAME_COMPLETE (R96). -/
  | plFrameComplete (p : Fin 2)
  /-- PL_FAULT (R110). -/
  | plFault (p : Fin 2) (code : Fin 7) (stage : Fin 10) (arg : Fin 32)
  /-- PL_NO_PROGRESS (R112). -/
  | plNoProgress (p : Fin 2)
  /-- PL_STANDBY_TAKEOVER (R110). -/
  | plStandbyTakeover (p : Fin 2)
  /-- PL_HANDOVER (R111). -/
  | plHandover (p : Fin 2) (v : Word)
  /-- PL_HANDOVER_DONE (R111). -/
  | plHandoverDone (p : Fin 2)
  /-- PL_REPLAY_SUBMIT (R108). -/
  | plReplaySubmit (p : Fin 2) (v : Word)
  /-- LT_FULL_BUILD_CMD (R123). -/
  | ltFullBuildCmd (h : Fin 8)
  /-- LT_RESCAN_CMD (R119). -/
  | ltRescanCmd
  /-- LT_BALANCE_RESET_CMD (R145). -/
  | ltBalanceResetCmd
  /-- LT_SHUTTER_GAP_CMD (R137). -/
  | ltShutterGapCmd (h : Fin 8)
  /-- LT_SHUTTER_FORCED_CMD (R137). -/
  | ltShutterForcedCmd (h : Fin 8)
  /-- LT_BUILD_START (R123). -/
  | ltBuildStart
  /-- LT_BUILD_DONE (R128). -/
  | ltBuildDone (sets : List SetRead)
  /-- LT_PROBE_EXPIRE (R135). -/
  | ltProbeExpire (p : Fin 16)
  /-- LT_SHUTTER_DUE (R137). -/
  | ltShutterDue (h : Fin 8)
  /-- LT_SHUTTER_OVERDUE (R137). -/
  | ltShutterOverdue (h : Fin 8)
  /-- LT_SHUTTER_RETRY (R138). -/
  | ltShutterRetry (h : Fin 8)
  /-- LT_BALANCE_WINDOW_END (R145). -/
  | ltBalanceWindowEnd
  /-- WM_GEOMETRY_LOAD_DONE (R153). -/
  | wmGeometryLoadDone (h : Fin 8) (ok : Bool)
  /-- WM_FRAME_FIRST_LINE (R154). -/
  | wmFrameFirstLine (p : Fin 2)
  /-- WM_SAMPLE_BEAT (R156). -/
  | wmSampleBeat (p : Fin 2)
  /-- WM_ROW_FINALISE (R160). -/
  | wmRowFinalise (l : Fin 4)
  /-- WM_STATS_RECORD (R172). -/
  | wmStatsRecord (p : Fin 2)
  /-- BV_FIRE_RECORD (R179). -/
  | bvFireRecord (b : Fin 8)
  /-- BV_BASELINE_ROW (R182). -/
  | bvBaselineRow
  /-- BV_VERIFICATION_ROW (R184). -/
  | bvVerificationRow
  /-- BV_RESET_JET (R195). -/
  | bvResetJet (j : Fin 128)
  /-- BV_RESET_ALL (R195). -/
  | bvResetAll
  /-- BV_END_FILL (R195). -/
  | bvEndFill (j : Fin 128)
  /-- VB_RING_FETCH (R202). -/
  | vbRingFetch (b : Fin 8)
  /-- VB_RING_REFETCH (R202). -/
  | vbRingRefetch (b : Fin 8) (e : Fin 64)
  /-- LACE_FRAME (R225). -/
  | laceFrame (b : Fin 8)
  /-- FIRE_DURATION_LIMIT (R236). -/
  | fireDurationLimit (b : Fin 8) (c : Fin 16)
  /-- QUENCH_END (R236). -/
  | quenchEnd (b : Fin 8) (c : Fin 16)
  /-- BOOST_CUT (R230). -/
  | boostCut (b : Fin 8)
  /-- COIL_TICK (R241). -/
  | coilTick (b : Fin 8)
  /-- LC_CLEAR_TRIP (R243). -/
  | lcClearTrip (b : Fin 8) (c : Fin 16)
  /-- LACE_CODE_LOAD_DONE (R248). -/
  | laceCodeLoadDone (b : Fin 8)
  /-- LACE_END (R232). -/
  | laceEnd (b : Fin 8) (th : Fin 17)
  /-- LACE_PHASE (R229). -/
  | lacePhase (b : Fin 8) (th : Fin 17) (kind : Fin 8) (target : BitVec 12) (band : BitVec 8) (watch par : Bool)
  /-- LACE_WAIT (R233). -/
  | laceWait (b : Fin 8) (th : Fin 17) (cond : Fin 8) (trim : Bool) (arg : BitVec 24)
  /-- LACE_BR (R232). -/
  | laceBr (b : Fin 8) (th : Fin 17) (cond : Fin 16) (address : BitVec 12)
  /-- LACE_LDI (R232). -/
  | laceLdi (b : Fin 8) (th : Fin 17) (rd : Fin 4) (imm : BitVec 24)
  /-- LACE_LDM (R232). -/
  | laceLdm (b : Fin 8) (th : Fin 17) (rd : Fin 4) (src : Fin 16) (channel : Fin 32)
  /-- LACE_ALU_ADD (R232). -/
  | laceAluAdd (b : Fin 8) (th : Fin 17) (rd rs : Fin 4)
  /-- LACE_ALU_SUB (R232). -/
  | laceAluSub (b : Fin 8) (th : Fin 17) (rd rs : Fin 4)
  /-- LACE_ALU_MUL (R232). -/
  | laceAluMul (b : Fin 8) (th : Fin 17) (rd rs : Fin 4)
  /-- LACE_ALU_MIN (R232). -/
  | laceAluMin (b : Fin 8) (th : Fin 17) (rd rs : Fin 4)
  /-- LACE_ALU_MAX (R232). -/
  | laceAluMax (b : Fin 8) (th : Fin 17) (rd rs : Fin 4)
  /-- LACE_ALU_COMPARE (R232). -/
  | laceAluCompare (b : Fin 8) (th : Fin 17) (rd rs : Fin 4)
  /-- LACE_ALU_MOVE (R232). -/
  | laceAluMove (b : Fin 8) (th : Fin 17) (rd rs : Fin 4)
  /-- LACE_STP (R234). -/
  | laceStp (b : Fin 8) (th : Fin 17) (rs n : Fin 4) (channel : Fin 32)
  /-- LACE_SIG (R232). -/
  | laceSig (b : Fin 8) (th : Fin 17) (channel : Fin 32)
  /-- LACE_ENGINE_FAULT (R236). -/
  | laceEngineFault (b : Fin 8) (address : Fin 4096)
  /-- VB_BANK_FAULT (R215). -/
  | vbBankFault (b : Fin 8) (cause : Fin 4)
  /-- VB_CLEAR_FAULT (R215). -/
  | vbClearFault (b : Fin 8)
  /-- VB_PAIR_CLOSE (R213). -/
  | vbPairClose (b : Fin 8) (mask : Byte)
  /-- VB_PAIR_RELEASE (R213). -/
  | vbPairRelease (b : Fin 8) (mask : Byte)
  /-- SPARE_TAKEOVER (R217). -/
  | spareTakeover (b : Fin 8)
  /-- SPARE_LOAD_DONE (R217). -/
  | spareLoadDone (ok : Bool)
  /-- SPARE_HANDOVER (R218). -/
  | spareHandover (b : Fin 8)
  /-- SPARE_RETURN (R218). -/
  | spareReturn
  /-- BL_TRAINING (R266): `dt` after the scan, the tick at which the measured downlink K28.5 was sent and that of the matching uplink one. -/
  | blTraining (dt : Nat) (b : Fin 8) (sent arrived : Nat)
  /-- BL_TRAINING_RETRY (R266). -/
  | blTrainingRetry (b : Fin 8)
  /-- BL_UPLINK_FRAME (R255, R261): the code group of the marker and the three of the payload as they came on each lane, the first bit leading. -/
  | blUplinkFrame (b : Fin 8) (mark0 : BitVec 10) (data0 : BitVec 30) (mark1 : BitVec 10) (data1 : BitVec 30)
  /-- BL_STATUS_MESSAGE (R263): the message at the front of those that the uplink frames brought. -/
  | blStatusMessage (dt : Nat) (b : Fin 8)
  /-- BL_DESC_MESSAGE (R266): the same. -/
  | blDescMessage (dt : Nat) (b : Fin 8)
  /-- BL_SLOW_MESSAGE_DISCARD (R262). -/
  | blSlowMessageDiscard (b : Fin 8)
  /-- BL_COMMAND_ACK_TIMEOUT (R264). -/
  | blCommandAckTimeout (b : Fin 8)
  /-- BL_STAGE_SILENT (R267). -/
  | blStageSilent (b : Fin 8)
  /-- BL_RETRAIN (R268). -/
  | blRetrain (b : Fin 8)
  /-- BL_DISARM (R271). -/
  | blDisarm (b : Fin 8)
  /-- BL_PHASE_TRIM (R268). -/
  | blPhaseTrim (b : Fin 8) (lat : Fin 8)
  /-- ADC_SELF_CALIBRATE (R290). -/
  | adcSelfCalibrate (mask : BitVec 4)
  /-- ADC_SOFTWARE_TRIGGER (R279). -/
  | adcSoftwareTrigger (mask : BitVec 4)
  /-- ADC_TRIGGER_TICK (R279). -/
  | adcTriggerTick (tick : AdcTick)
  /-- ADC_DELAY_EMIT (R279). -/
  | adcDelayEmit (who : Fin 5)
  /-- ADC_TRIGGER_SEEN (R280). -/
  | adcTriggerSeen (dt : Nat) (x : Fin 4)
  /-- ADC_CONVERSION_DONE (R276). -/
  | adcConversionDone (dt : Nat) (x : Fin 4) (c : BitVec 24) (overload : Bool)
  /-- ADC_RESULT_WRITE (R286). -/
  | adcResultWrite (x : Fin 4)
  /-- ADC_SEQUENCE_END (R281). -/
  | adcSequenceEnd (x : Fin 4)
  /-- ADC_CALIBRATION_DONE (R290). -/
  | adcCalibrationDone (x : Fin 4) (meas : List (BitVec 24 × BitVec 24))
  /-- ADC_REFERENCE_READY (R287). -/
  | adcReferenceReady (ext : Bool)
  /-- ADC_CONVERTER_FAULT (R294). -/
  | adcConverterFault (x : Fin 4) (cause : Fin 3)
  /-- SP_START (R302). -/
  | spStart (n : Fin 4) (v : Word)
  /-- SP_ABORT (R306). -/
  | spAbort (n : Fin 4)
  /-- SP_TX_WRITE (R301). -/
  | spTxWrite (n : Fin 4) (v : Word)
  /-- SP_RX_READ (R301). -/
  | spRxRead (n : Fin 4)
  /-- SP_TRANSFER_COMPLETE (R302). -/
  | spTransferComplete (n : Fin 4) (rx : List Byte)
  /-- SP_BYTE_RESUME (R302). -/
  | spByteResume (n : Fin 4)
  /-- SP_GUARD_STOP (R303). -/
  | spGuardStop (n : Fin 4) (bits : Nat)
  /-- SP_READY_CHANGE (R304). -/
  | spReadyChange (n : Fin 4) (level : Bool)
  /-- SP_READY_TIMEOUT (R304). -/
  | spReadyTimeout (n : Fin 4)
  /-- SP_STATUS_FIRST_RETRY (R305). -/
  | spStatusFirstRetry (n : Fin 4)
  /-- XIP_FETCH (R309). -/
  | xipFetch (k : Fin 4) (offset : BitVec 26)
  /-- XIP_LINE_FILL_DONE (R309). -/
  | xipLineFillDone (bytes : List Byte)
  /-- XIP_INVALIDATE (R309). -/
  | xipInvalidate
  /-- SPS_SELECT_FALL (R311). -/
  | spsSelectFall
  /-- SPS_STATUS (R313). -/
  | spsStatus (extra : Nat)
  /-- SPS_FAULT (R313). -/
  | spsFault (extra : Nat)
  /-- SPS_IDENT (R313). -/
  | spsIdent (extra : Nat)
  /-- SPS_ARM (R314). -/
  | spsArm (extra : Nat) (key : BitVec 16)
  /-- SPS_STOP (R314). -/
  | spsStop (extra : Nat) (key : BitVec 16)
  /-- SPS_MALFORMED (R312). -/
  | spsMalformed (cut : SpsCut) (cmd : Byte)
  /-- SPS_ARM_EXPIRE (R314). -/
  | spsArmExpire
  /-- SAFE_STOP_CLEAR (R314). -/
  | safeStopClear
  /-- GP_SET (R315). -/
  | gpSet (v : Word)
  /-- GP_CLR (R315). -/
  | gpClr (v : Word)
  /-- GP_INPUT_EDGE (R315). -/
  | gpInputEdge (p : Fin 20) (level : Bool) (stable : Nat)
  /-- DST_REFUSED (R335). -/
  | dstRefused (c : Fin 1024)
  /-- QUEUE_RESUME (R337). -/
  | queueResume (c : Fin 1024)
  /-- QUEUE_TIMEOUT (R337). -/
  | queueTimeout (c : Fin 1024)
  /-- EVENT_LATCH (R338). -/
  | eventLatch
  /-- WAIT_DELIVER (R339). -/
  | waitDeliver (c : Fin 1024)
  /-- WAIT_TIMEOUT (R339). -/
  | waitTimeout (c : Fin 1024)
  /-- LOCK_GRANT (R397). -/
  | lockGrant (k : Fin 4)
  /-- LOCK_LIMIT_BREAK (R342). -/
  | lockLimitBreak (k : Fin 4)
  /-- LOCK_PREEMPT (R399). -/
  | lockPreempt (b : Fin 16) (debug : Bool)
  /-- ADMISSION_ANSWER (R369). -/
  | admissionAnswer
  /-- DMA_TRANSFER_DONE (R350). -/
  | dmaTransferDone (k : Fin 4) (host : DmaHost) (bad : Bool)
  /-- TASK_RELEASE_PERIODIC (R358). -/
  | taskReleasePeriodic (c : Fin 1024)
  /-- TASK_RELEASE_EVENT (R358). -/
  | taskReleaseEvent (c : Fin 1024)
  /-- BUDGET_EXHAUSTED (R362). -/
  | budgetExhausted (c : Fin 1024)
  /-- DEADLINE_REACHED (R362). -/
  | deadlineReached (c : Fin 1024)
  /-- GRACE_EXPIRED (R362). -/
  | graceExpired (c : Fin 1024)
  /-- SLICE_EXPIRED (R361). -/
  | sliceExpired (k : Fin 4)
  /-- CORE_FAULT (R363). -/
  | coreFault (k : Fin 4) (saving : Bool)
  /-- CORE_NO_PROGRESS (R363). -/
  | coreNoProgress (k : Fin 4)
  /-- QUEUE_BIND (R364). -/
  | queueBind (q : Fin 256) (producer consumer : Fin 1024) (depth : Fin 256)
  /-- QUEUE_UNBIND (R364). -/
  | queueUnbind (q : Fin 256)
  /-- QBASE_WRITE (R364). -/
  | qbaseWrite (v : Word)
  /-- FABRIC_BEAT_GRANT (R391). -/
  | fabricBeatGrant (target : Fin 17) (gap : Nat) (cycle : BeatCycle) (err : Option ReadError)
  /-- SCRUB_PATROL (R388). -/
  | scrubPatrol (finds : List ReadError)
  /-- ROW_REPAIR (R389). -/
  | rowRepair (last : Bool) (bank : Fin 16) (row : BitVec 12)
  /-- RING_RECORD_WRITE (R413). -/
  | ringRecordWrite (r : Fin 32)
  /-- RING_ENTRY_COPY (R414). -/
  | ringEntryCopy (r : Fin 32) (entry : Option (List Byte)) (cause : Fin 3)
  /-- WRITEBACK_CONFIRM (R418). -/
  | writebackConfirm (r : ReadBack)
  /-- LINK_FAIL (R417). -/
  | linkFail (l : Fin 2) (cause : Fin 3)
  /-- LINK_TRAINED (R419). -/
  | linkTrained (l : Fin 2) (rate : Fin 6) (repaired : Fin 16)
  /-- D3HOT_CHANGE (R406). -/
  | d3hotChange (l : Fin 2) (on : Bool)
  /-- MSIX_UNMASK (R416). -/
  | msixUnmask (l : Fin 2) (w : MsixWrite)
  /-- FEATURE_WINDOW_TIMEOUT (R420). -/
  | featureWindowTimeout
  /-- ACTIVITY_REQUEST (R446). -/
  | activityRequest (a : Fin 32)
  /-- ACTIVITY_END (R449). -/
  | activityEnd (a : Fin 32)
  /-- ACTIVITY_ABORT (R449). -/
  | activityAbort (a : Fin 32)
  /-- ACTIVITY_FREE (R467). -/
  | activityFree (a : Fin 32)
  /-- ACTIVITY_START (R448). -/
  | activityStart (a : Fin 32)
  /-- ACTIVITY_SELF_END (R445). -/
  | activitySelfEnd (a : Fin 32)
  /-- ACTIVITY_FAIL (R449). -/
  | activityFail (a : Fin 32)
  /-- FM_RETIRE_COPY_LINE (R454). -/
  | fmRetireCopyLine
  /-- FM_RETIRE_SWITCH (R454). -/
  | fmRetireSwitch
  /-- TRIM_TICK (R457). -/
  | trimTick (bg sens : List (BitVec 16)) (dev : List (Fin 2 × BitVec 16)) (term : List (Fin 8 × Fin 5 × Fin 32)) (phase : List (Fin 8 × Fin 2 × Fin 8)) (lanes : List (Fin 64))
  /-- FAULT_RECORD_ENTER (R461). -/
  | faultRecordEnter
  /-- FLT_SET (R463). -/
  | fltSet
  /-- FLT_CLEAR (R463). -/
  | fltClear
  /-- TAP_DEVICE_READ (R466). -/
  | tapDeviceRead (addr : Word)
  /-- TAP_DEVICE_WRITE (R466). -/
  | tapDeviceWrite (addr data : Word)
  /-- TAP_FORCED_WRITE (R466). -/
  | tapForcedWrite (addr data : Word)
  /-- TAP_RESET_UPDATE (R465). -/
  | tapResetUpdate (v : BitVec 16)
  /-- PLL_LOCK_LOST (R441). -/
  | pllLockLost (p : Fin 3)
  /-- LINK_LEAVES_ACTIVE (R417). -/
  | linkLeavesActive (l : Fin 2)
  /-- FETCH_FAULT (R326). -/
  | fetchFault (k : Fin 4) (bad : Bool)
  /-- EXTERNAL_REFERENCE_LOW (R287). -/
  | externalReferenceLow (low : Bool)
  /-- EXCITATION_AT_COMPLIANCE (R288). -/
  | excitationAtCompliance (n : Fin 2) (at_ : Bool)
  /-- TAP_INSTRUCTION_UPDATE (R465). -/
  | tapInstructionUpdate (ir : BitVec 5)
  deriving DecidableEq, Repr

end Sys2Proof
end

