-- ==== Sys2Proof/Decode.lean ====
section
/-! DEFINITION. Decode.lean: the Ercel commands that instruction words spell (R328 to R352). No other row of the table of operations and
events has bits: those rows are named by their unit and operands. -/
namespace Sys2Proof

/-- Bits [hi:lo] of an instruction word. -/
def ercelFld (w hi lo : Nat) : Nat := w / 2 ^ lo % 2 ^ (hi + 1 - lo)

/-- The fields of the R format (R328): rd, ra, rb, fn, sh, and whether its zero field is zero. -/
structure ErcelR where
  rd : Fin 16
  ra : Fin 16
  rb : Fin 16
  fn : Nat
  sh : BitVec 5
  zero : Bool
  deriving DecidableEq, Repr

def ercelR (w : Nat) : ErcelR :=
  ⟨Fin.ofNat 16 (ercelFld w 25 22), Fin.ofNat 16 (ercelFld w 21 18), Fin.ofNat 16 (ercelFld w 17 14), ercelFld w 13 8, BitVec.ofNat 5 (ercelFld w 7 3),
    decide (ercelFld w 2 0 = 0)⟩

/-- An ALU word (R330): functions that do not use sh, or rb, want it 0. -/
def decodeAlu (k : Fin 4) (r : ErcelR) : Option Instr :=
  let plain := fun (i : Instr) => if r.sh = 0 then some i else none
  let unary := fun (i : Instr) => if r.rb = 0 then some i else none
  if r.zero = false then none
  else match r.fn with
  | 0x00 => plain (.add k r.rd r.ra r.rb)
  | 0x01 => plain (.sub k r.rd r.ra r.rb)
  | 0x02 => plain (.adc k r.rd r.ra r.rb)
  | 0x03 => plain (.sbc k r.rd r.ra r.rb)
  | 0x04 => plain (.and k r.rd r.ra r.rb)
  | 0x05 => plain (.or k r.rd r.ra r.rb)
  | 0x06 => plain (.xor k r.rd r.ra r.rb)
  | 0x07 => some (.shl k r.rd r.ra r.rb r.sh)
  | 0x08 => some (.shr k r.rd r.ra r.rb r.sh)
  | 0x09 => some (.sar k r.rd r.ra r.rb r.sh)
  | 0x0A => plain (.mul k r.rd r.ra r.rb)
  | 0x0B => plain (.mulh k r.rd r.ra r.rb)
  | 0x0C => plain (.mulhu k r.rd r.ra r.rb)
  | 0x0D => plain (.div k r.rd r.ra r.rb)
  | 0x0E => plain (.divu k r.rd r.ra r.rb)
  | 0x0F => plain (.min k r.rd r.ra r.rb)
  | 0x10 => plain (.max k r.rd r.ra r.rb)
  | 0x11 => plain (.minu k r.rd r.ra r.rb)
  | 0x12 => plain (.maxu k r.rd r.ra r.rb)
  | 0x13 => plain (.adds k r.rd r.ra r.rb)
  | 0x14 => plain (.subs k r.rd r.ra r.rb)
  | 0x15 => unary (.sats k r.rd r.ra r.sh)
  | 0x16 => unary (.satu k r.rd r.ra r.sh)
  | 0x17 => some (.qmul k r.rd r.ra r.rb r.sh)
  | 0x18 => some (.qmulu k r.rd r.ra r.rb r.sh)
  | 0x19 => if r.sh = 0 then unary (.clz k r.rd r.ra) else none
  | _ => none

/-- A SYS word (R351). -/
def decodeSys (k : Fin 4) (w : Nat) : Option Instr :=
  if ercelFld w 25 6 ≠ 0 then none
  else match ercelFld w 5 0 with
  | 0 => some (.nop k)
  | 1 => some (.yield k)
  | 2 => some (.halt k)
  | 3 => some (.sync k)
  | _ => none

/-- The instruction of a word whose other fields are as its row says; none where they are not. -/
def fits (p : Prop) [Decidable p] (i : Instr) : Option Instr := if p then some i else none

/-- A word that is an instruction (R329 to R352); none for an illegal one. -/
def decodeWord (k : Fin 4) (w : Nat) : Option Instr :=
  let rd := Fin.ofNat 16 (ercelFld w 25 22)
  let ra := Fin.ofNat 16 (ercelFld w 21 18)
  let imm := BitVec.ofNat 18 (ercelFld w 17 0)
  match ercelFld w 31 26 with
  | 0x01 => decodeAlu k (ercelR w)
  | 0x02 => some (.addi k rd ra imm)
  | 0x03 => some (.andi k rd ra imm)
  | 0x04 => some (.ori k rd ra imm)
  | 0x05 => some (.xori k rd ra imm)
  | 0x06 => some (.lui k rd (BitVec.ofNat 22 (ercelFld w 21 0)))
  | 0x07 => fits (ercelFld w 21 5 = 0) (.mfs k rd (Fin.ofNat 32 (ercelFld w 4 0)))
  | 0x08 => fits (ercelFld w 25 22 = 0 ∧ ercelFld w 17 5 = 0) (.mts k (Fin.ofNat 32 (ercelFld w 4 0)) ra)
  | 0x09 => some (.ldw k rd ra imm false)
  | 0x0A => some (.ldh k rd ra imm false)
  | 0x0B => some (.ldhu k rd ra imm false)
  | 0x0C => some (.ldb k rd ra imm false)
  | 0x0D => some (.ldbu k rd ra imm false)
  | 0x0E => some (.stw k rd ra imm)
  | 0x0F => some (.sth k rd ra imm)
  | 0x10 => some (.stb k rd ra imm)
  | 0x11 => some (.dld k rd ra imm)
  | 0x12 => some (.dst k rd ra imm)
  | 0x13 => fits (ercelFld w 25 22 ≠ 8) (.br k rd (BitVec.ofNat 22 (ercelFld w 21 0)))
  | 0x14 => some (.bl k (BitVec.ofNat 26 (ercelFld w 25 0)))
  | 0x15 => some (.jalr k rd ra imm)
  | 0x16 => fits (ercelFld w 8 0 = 0) (.qput k rd ra (BitVec.ofNat 8 (ercelFld w 17 10)) (decide (ercelFld w 9 9 = 1)))
  | 0x17 => fits (ercelFld w 8 0 = 0) (.qget k rd ra (BitVec.ofNat 8 (ercelFld w 17 10)) (decide (ercelFld w 9 9 = 1)))
  | 0x18 => fits (ercelFld w 17 0 = 0) (.wait k rd ra)
  | 0x19 => fits (ercelFld w 25 22 = 0 ∧ ercelFld w 17 5 = 0) (.post k ra (Fin.ofNat 32 (ercelFld w 4 0)))
  | 0x1A => fits (ercelFld w 17 4 = 0) (.lock k rd ra (Fin.ofNat 16 (ercelFld w 3 0)))
  | 0x1B => fits (ercelFld w 21 0 = 0) (.unlock k rd)
  | 0x1C =>
    if ercelFld w 10 0 ≠ 0 then none
    else if ercelFld w 11 11 = 1 then some (.enactCancel k rd ra)
    else fits (ercelFld w 17 15 < 6) (.enact k rd ra (Fin.ofNat 8 (ercelFld w 17 15)) (Fin.ofNat 8 (ercelFld w 14 12)))
  | 0x1D =>
    if ercelFld w 15 0 ≠ 0 then none
    else if ercelFld w 17 16 = 0 then some (.admitSubmit k rd ra)
    else fits (ercelFld w 17 16 = 1) (.admitRelease k rd ra)
  | 0x1E => fits (ercelFld w 17 0 = 0) (.dma k rd ra)
  | 0x1F => decodeSys k w
  | 0x20 => fits (ercelFld w 25 16 = 0) (.trap k (BitVec.ofNat 16 (ercelFld w 15 0)))
  | _ => none

/-- The command of an instruction word on core k: an illegal word is ILLEGAL_INSTRUCTION with its opcode (R328, R354). -/
def decodeErcel (k : Fin 4) (w : Nat) : Instr :=
  (decodeWord k w).getD (.illegalInstruction k (BitVec.ofNat 6 (ercelFld w 31 26)))

/-- The command that a word spells: a word of 32 bits is an Ercel instruction, here of core 0 (log 146). No row gives bits of its own. -/
def decodeTableWord (nbits w : Nat) : Option Instr := if nbits = 32 then some (decodeErcel 0 w) else none

end Sys2Proof
end

