-- ==== Sys2Proof/Config.lean ====
section
/-! DEFINITION. Config.lean: what one part fixes for life (its fuses) and the values the manual leaves open. -/
namespace Sys2Proof.Config

/-- Free values: the n-th value that the manual leaves open (assumption 1). Nothing constrains it. -/
opaque freeValue : Nat → Nat

/-- The unit serial number read from fuses (R437). -/
opaque fuseSerial : Dword
/-- The check byte beside it in the fuses (R437). -/
opaque fuseCheck : Byte
/-- The Vendor ID in the fuses (R406, R442). -/
opaque fuseVendor : BitVec 16
/-- The device stepping (R443: 1 in GL_ID's reset value). -/
def stepping : BitVec 8 := 1
/-- The manufacturer code of the TAP's IDCODE, from fuses (R465). -/
opaque fuseManufacturer : BitVec 11
/-- Word w of trim set k in the fuses (R459, R468). -/
opaque fuseTrim : Nat → Nat → Word
/-- The nominal codes a trim set takes when its fuse area fails its check (R442). -/
opaque nominalTrim : Nat → Nat → Word
/-- The high-water mark of a map layer's host ring of so many bytes: bytes in use (R165 names it, and gives no value). -/
opaque mapHighWater : Nat → Nat

end Sys2Proof.Config
end

