-- ==== Sys2Proof/Machine/Regs.lean ====
section
/-! DEFINITION. Machine/Regs.lean: the register maps of the manual: each register's device address, and a table of its
access code, reset value and the bits a write stores (R5, R6, R14 onward; one map per chapter, R52, R76, R113, R149, R175,
R197, R222, R250, R270, R298, R320, R380, R403, R424, R443, R467 to R469). The low register of an RWS pair is the live copy; the shadow copy
lies 0x800 above it (R5). A reserved bit is not stored (R6). -/
namespace Sys2Proof.Machine

/-- Access codes (R5). -/
inductive Access where
  | ro | rw | rws | wo | w1c | rc
  deriving DecidableEq, Repr

/-- A row of a register map: first address, (stride, count) of each index, widest first; access; reset value; bits a write stores. -/
structure RegRow where
  base : Nat
  dims : List (Nat × Nat)
  acc : Access
  rst : Nat
  mask : Nat
  deriving DecidableEq, Repr

namespace Reg

/-! WP block -/
def WP_DTIME_LO : Nat := 0xA0000
def WP_DTIME_HI : Nat := 0xA0004
def WP_WPOS_LO : Nat := 0xA0008
def WP_WPOS_HI : Nat := 0xA000C
def WP_SPEED : Nat := 0xA0010
def WP_STATUS : Nat := 0xA0014
def WP_FAULT : Nat := 0xA0018
def WP_CFG : Nat := 0xA001C
def WP_SLIP_WIN : Nat := 0xA0020
def WP_SLIP_LIM : Nat := 0xA0024
def WP_TAKE_DIST : Nat := 0xA0028
def WP_SLIP_RATIO : Nat := 0xA002C
def WP_GAP_CFG : Nat := 0xA0030
def WP_GAP_LEN : Nat := 0xA0034
def WP_GAP_MAX : Nat := 0xA0038
def WP_GAP_CMD : Nat := 0xA003C
def WP_GEN_u (u : Nat) : Nat := 0xA0040 + 0x4 * u
def WP_GAP_PLAN_LO : Nat := 0xA0090
def WP_GAP_PLAN_HI : Nat := 0xA0094
def WP_GAP_T0_LO : Nat := 0xA0098
def WP_GAP_T0_HI : Nat := 0xA009C
def WP_GAP_P0_LO : Nat := 0xA00A0
def WP_GAP_P0_HI : Nat := 0xA00A4
def WP_GAP_T1_LO : Nat := 0xA00A8
def WP_GAP_T1_HI : Nat := 0xA00AC
def WP_GAP_REJECT : Nat := 0xA00B0
def WP_ENCn_CFG (n : Nat) : Nat := 0xA0100 + 0x20 * n
def WP_ENCn_SCALE (n : Nat) : Nat := 0xA0104 + 0x20 * n
def WP_ENCn_COUNT (n : Nat) : Nat := 0xA0108 + 0x20 * n
def WP_ENCn_ILLEGAL (n : Nat) : Nat := 0xA010C + 0x20 * n
def WP_ENCn_EDGE_LO (n : Nat) : Nat := 0xA0110 + 0x20 * n
def WP_ENCn_EDGE_HI (n : Nat) : Nat := 0xA0114 + 0x20 * n
def WP_RGn_CFG (n : Nat) : Nat := 0xA0200 + 0x20 * n
def WP_RGn_PITCH (n : Nat) : Nat := 0xA0204 + 0x20 * n
def WP_RGn_ORIGIN_LO (n : Nat) : Nat := 0xA0208 + 0x20 * n
def WP_RGn_ORIGIN_HI (n : Nat) : Nat := 0xA020C + 0x20 * n
def WP_RGn_ROWNUM (n : Nat) : Nat := 0xA0210 + 0x20 * n
def WP_RGn_CATCH (n : Nat) : Nat := 0xA0214 + 0x20 * n
def WP_TRGn_CFG (n : Nat) : Nat := 0xA0300 + 0x10 * n
def WP_TRGn_GLITCH (n : Nat) : Nat := 0xA0304 + 0x10 * n
def WP_TRGn_EDGE_LO (n : Nat) : Nat := 0xA0308 + 0x10 * n
def WP_TRGn_EDGE_HI (n : Nat) : Nat := 0xA030C + 0x10 * n
def WP_EVTn_CFG (n : Nat) : Nat := 0xA0400 + 0x10 * n
def WP_EVTn_OVL (n : Nat) : Nat := 0xA0404 + 0x10 * n
def WP_HSYn_CFG (n : Nat) : Nat := 0xA0480 + 0x10 * n
def WP_HSYn_LAST_LO (n : Nat) : Nat := 0xA0484 + 0x10 * n
def WP_HSYn_LAST_HI (n : Nat) : Nat := 0xA0488 + 0x10 * n
def WP_HSYn_OVL (n : Nat) : Nat := 0xA048C + 0x10 * n
def WP_TMn_TGT_LO (n : Nat) : Nat := 0xA1000 + 0x10 * n
def WP_TMn_TGT_HI (n : Nat) : Nat := 0xA1004 + 0x10 * n
def WP_TMn_PERIOD (n : Nat) : Nat := 0xA1008 + 0x10 * n
def WP_TMn_CTL (n : Nat) : Nat := 0xA100C + 0x10 * n

/-! HP block -/
def HP_STATUS (u : Nat) : Nat := 0x40000 + 0x1000 * u
def HP_FAULT (u : Nat) : Nat := 0x40004 + 0x1000 * u
def HP_GEN (u : Nat) : Nat := 0x40008 + 0x1000 * u
def HP_SEQ (u : Nat) : Nat := 0x4000C + 0x1000 * u
def HP_CFG (u : Nat) : Nat := 0x40010 + 0x1000 * u
def HP_GEOM (u : Nat) : Nat := 0x40014 + 0x1000 * u
def HP_BLIND (u : Nat) : Nat := 0x40018 + 0x1000 * u
def HP_RIND (u : Nat) : Nat := 0x4001C + 0x1000 * u
def HP_FILL (u : Nat) : Nat := 0x40020 + 0x1000 * u
def HP_TF_SUB (u : Nat) : Nat := 0x40024 + 0x1000 * u
def HP_TF_INT (u : Nat) : Nat := 0x40028 + 0x1000 * u
def HP_TF_CNT (u : Nat) : Nat := 0x4002C + 0x1000 * u
def HP_TF_ECHO (u : Nat) : Nat := 0x40030 + 0x1000 * u
def HP_SUB_SLOPE (u : Nat) : Nat := 0x40034 + 0x1000 * u
def HP_SUB_OFFSET (u : Nat) : Nat := 0x40038 + 0x1000 * u
def HP_EXPO (u : Nat) : Nat := 0x4003C + 0x1000 * u
def HP_LATENCY (u : Nat) : Nat := 0x40040 + 0x1000 * u
def HP_CTRL_CFG (u : Nat) : Nat := 0x40044 + 0x1000 * u
def HP_SN_CMD (u : Nat) : Nat := 0x40048 + 0x1000 * u
def HP_SYNC_WIN (u : Nat) : Nat := 0x4004C + 0x1000 * u
def HP_FRAME_TO (u : Nat) : Nat := 0x40050 + 0x1000 * u
def HP_SERIAL_LO (u : Nat) : Nat := 0x40060 + 0x1000 * u
def HP_SERIAL_HI (u : Nat) : Nat := 0x40064 + 0x1000 * u
def HP_CTL_DATA (u : Nat) : Nat := 0x40068 + 0x1000 * u
def HP_CTL_CMD (u : Nat) : Nat := 0x4006C + 0x1000 * u
def HP_CTL_STAT (u : Nat) : Nat := 0x40070 + 0x1000 * u
def HP_CTL_RX (u : Nat) : Nat := 0x40074 + 0x1000 * u
def HP_CNT_DROP (u : Nat) : Nat := 0x40080 + 0x1000 * u
def HP_CNT_PAD (u : Nat) : Nat := 0x40084 + 0x1000 * u
def HP_CNT_CUT (u : Nat) : Nat := 0x40088 + 0x1000 * u
def HP_CNT_CRC (u : Nat) : Nat := 0x4008C + 0x1000 * u
def HP_CNT_ECC (u : Nat) : Nat := 0x40090 + 0x1000 * u
def HP_CNT_HDR (u : Nat) : Nat := 0x40094 + 0x1000 * u
def HP_CNT_DT (u : Nat) : Nat := 0x40098 + 0x1000 * u
def HP_CNT_LANE (u : Nat) : Nat := 0x4009C + 0x1000 * u
def HP_CNT_SYNC (u : Nat) : Nat := 0x400A0 + 0x1000 * u
def HP_TAGw (u w : Nat) : Nat := 0x400C0 + 0x1000 * u + 0x4 * w

/-! PL block -/
def PL_STATUS (u : Nat) : Nat := 0x50000 + 0x8000 * u
def PL_FAULT (u : Nat) : Nat := 0x50004 + 0x8000 * u
def PL_GEN (u : Nat) : Nat := 0x50008 + 0x8000 * u
def PL_CFG (u : Nat) : Nat := 0x5000C + 0x8000 * u
def PL_HANDOVER (u : Nat) : Nat := 0x50010 + 0x8000 * u
def PL_REPLAY (u : Nat) : Nat := 0x50014 + 0x8000 * u
def PL_REPLAY_ADDR (u : Nat) : Nat := 0x50018 + 0x8000 * u
def PL_CNT_FRAMES (u : Nat) : Nat := 0x50020 + 0x8000 * u
def PL_CNT_UNPAIRED (u : Nat) : Nat := 0x50024 + 0x8000 * u
def PL_CNT_UNMERGED (u : Nat) : Nat := 0x50028 + 0x8000 * u
def PL_CNT_LAGOFF (u : Nat) : Nat := 0x5002C + 0x8000 * u
def PL_CNT_SAT (u : Nat) : Nat := 0x50030 + 0x8000 * u
def PL_CNT_NOREPL (u : Nat) : Nat := 0x50034 + 0x8000 * u
def PL_CNT_PROMOTE (u : Nat) : Nat := 0x50038 + 0x8000 * u
def PL_CNT_LATE (u : Nat) : Nat := 0x5003C + 0x8000 * u
def PL_CNT_LOST (u : Nat) : Nat := 0x50040 + 0x8000 * u
def PL_CNT_EPS0 (u : Nat) : Nat := 0x50044 + 0x8000 * u
def PL_Sx_SEQ (u s : Nat) : Nat := 0x50200 + 0x8000 * u + 0x10 * s
def PL_Sx_STAT (u s : Nat) : Nat := 0x50204 + 0x8000 * u + 0x10 * s
def PL_Sx_G (u s : Nat) : Nat := 0x50208 + 0x8000 * u + 0x10 * s
def PL_Sx_HOLDSEQ (u s : Nat) : Nat := 0x5020C + 0x8000 * u + 0x10 * s
def PL_TAPt_CFG (u t : Nat) : Nat := 0x50400 + 0x8000 * u + 0x20 * t
def PL_TAPt_BASE (u t : Nat) : Nat := 0x50404 + 0x8000 * u + 0x20 * t
def PL_TAPt_WR (u t : Nat) : Nat := 0x50408 + 0x8000 * u + 0x20 * t
def PL_TAPt_RD (u t : Nat) : Nat := 0x5040C + 0x8000 * u + 0x20 * t
def PL_TAPt_DROP (u t : Nat) : Nat := 0x50410 + 0x8000 * u + 0x20 * t
def PL_Sx_CFG (u s : Nat) : Nat := 0x51000 + 0x8000 * u + 0x40 * s
def PL_Sx_TABLE (u s : Nat) : Nat := 0x51004 + 0x8000 * u + 0x40 * s
def PL_Sx_STATE (u s : Nat) : Nat := 0x51008 + 0x8000 * u + 0x40 * s
def PL_Sx_HIST (u s : Nat) : Nat := 0x5100C + 0x8000 * u + 0x40 * s
def PL_Sx_HOLD (u s : Nat) : Nat := 0x51010 + 0x8000 * u + 0x40 * s
def PL_Sx_SLOT (u s : Nat) : Nat := 0x51014 + 0x8000 * u + 0x40 * s
def PL_Sx_MERGE (u s : Nat) : Nat := 0x51018 + 0x8000 * u + 0x40 * s
def PL_Sx_KNEE (u s : Nat) : Nat := 0x5101C + 0x8000 * u + 0x40 * s
def PL_Sx_PITCH (u s : Nat) : Nat := 0x51020 + 0x8000 * u + 0x40 * s
def PL_Sx_ANCH (u s : Nat) : Nat := 0x51024 + 0x8000 * u + 0x40 * s
def PL_Sx_LAG (u s : Nat) : Nat := 0x51028 + 0x8000 * u + 0x40 * s
def PL_Sx_NOISE (u s : Nat) : Nat := 0x5102C + 0x8000 * u + 0x40 * s
def PL_Sx_C2T (u s : Nat) : Nat := 0x51030 + 0x8000 * u + 0x40 * s
def PL_Sx_INV (u s : Nat) : Nat := 0x51034 + 0x8000 * u + 0x40 * s
def PL_Sx_LATE (u s : Nat) : Nat := 0x51038 + 0x8000 * u + 0x40 * s

/-! LT block -/
def LT_STATUS : Nat := 0x60000
def LT_FAULT : Nat := 0x60004
def LT_GEN : Nat := 0x60008
def LT_CFG : Nat := 0x6000C
def LT_DIR_BASE : Nat := 0x60010
def LT_DIR_COUNT : Nat := 0x60014
def LT_PROBE_BASE : Nat := 0x60018
def LT_CMD : Nat := 0x6001C
def LT_BUILD : Nat := 0x60020
def LT_POOL : Nat := 0x60024
def LT_BAL_CFG : Nat := 0x60030
def LT_BAL_ORDER : Nat := 0x60034
def LT_BAL_STEP : Nat := 0x60038
def LT_BAL_MAX : Nat := 0x6003C
def LT_BAL_SPAN : Nat := 0x60040
def LT_DIR_BAD (i : Nat) : Nat := 0x60060 + 0x4 * i
def LT_CNT_REBASE : Nat := 0x60080
def LT_CNT_SHUTTER : Nat := 0x60084
def LT_CNT_DEFER : Nat := 0x60088
def LT_CNT_PROBE_REJ : Nat := 0x6008C
def LT_CNT_SHUT_SUSPECT : Nat := 0x60090
def LT_CNT_CLAMP : Nat := 0x60094
def LT_CNT_EXTRA : Nat := 0x60098
def LT_CNT_NOCARRY : Nat := 0x6009C
def LT_PRp_CFG (p : Nat) : Nat := 0x60100 + 0x10 * p
def LT_PRp_LIM (p : Nat) : Nat := 0x60104 + 0x10 * p
def LT_PRp_VAL (p : Nat) : Nat := 0x60108 + 0x10 * p
def LT_PRp_TIME (p : Nat) : Nat := 0x6010C + 0x10 * p
def LT_HDh_CFG (h : Nat) : Nat := 0x60400 + 0x80 * h
def LT_HDh_BAND (h : Nat) : Nat := 0x60404 + 0x80 * h
def LT_HDh_IMG (h : Nat) : Nat := 0x60408 + 0x80 * h
def LT_HDh_ACC (h : Nat) : Nat := 0x6040C + 0x80 * h
def LT_HDh_PROBE (h : Nat) : Nat := 0x60410 + 0x80 * h
def LT_HDh_RTRIM (h : Nat) : Nat := 0x60414 + 0x80 * h
def LT_HDh_SHDUE (h : Nat) : Nat := 0x60418 + 0x80 * h
def LT_HDh_SHMAX (h : Nat) : Nat := 0x6041C + 0x80 * h
def LT_HDh_SHSEQ (h : Nat) : Nat := 0x60420 + 0x80 * h
def LT_HDh_SHLIM (h : Nat) : Nat := 0x60424 + 0x80 * h
def LT_HDh_SHUT (h : Nat) : Nat := 0x60428 + 0x80 * h
def LT_HDh_KSLOPE (h : Nat) : Nat := 0x6042C + 0x80 * h
def LT_HDh_PIVOT (h : Nat) : Nat := 0x60430 + 0x80 * h
def LT_HDh_STATUS (h : Nat) : Nat := 0x60434 + 0x80 * h
def LT_HDh_BASE (h : Nat) : Nat := 0x60438 + 0x80 * h
def LT_HDh_REF (h : Nat) : Nat := 0x6043C + 0x80 * h
def LT_HDh_BALG (h : Nat) : Nat := 0x60440 + 0x80 * h
def LT_HDh_BALO (h : Nat) : Nat := 0x60444 + 0x80 * h
def LT_HDh_CORR (h : Nat) : Nat := 0x60448 + 0x80 * h
def LT_HDh_HELD_FIRST (h : Nat) : Nat := 0x6044C + 0x80 * h
def LT_HDh_HELD_LAST (h : Nat) : Nat := 0x60450 + 0x80 * h
def LT_HDh_COMMIT_LO (h : Nat) : Nat := 0x60454 + 0x80 * h
def LT_HDh_COMMIT_HI (h : Nat) : Nat := 0x60458 + 0x80 * h

/-! WM block -/
def WM_STATUS : Nat := 0x70000
def WM_FAULT : Nat := 0x70004
def WM_GEN : Nat := 0x70008
def WM_CFG : Nat := 0x7000C
def WM_CNT_ROWS : Nat := 0x70040
def WM_CNT_FORCED : Nat := 0x70044
def WM_CNT_BEHIND : Nat := 0x70048
def WM_CNT_AHEAD : Nat := 0x7004C
def WM_CNT_SPAN : Nat := 0x70050
def WM_CNT_SATCELL : Nat := 0x70054
def WM_CNT_NOSPEED : Nat := 0x70058
def WM_CNT_STATS : Nat := 0x7005C
def WM_Ll_CFG (l : Nat) : Nat := 0x70100 + 0x40 * l
def WM_Ll_X0 (l : Nat) : Nat := 0x70104 + 0x40 * l
def WM_Ll_XPITCH (l : Nat) : Nat := 0x70108 + 0x40 * l
def WM_Ll_WORK (l : Nat) : Nat := 0x7010C + 0x40 * l
def WM_Ll_OPEN (l : Nat) : Nat := 0x70110 + 0x40 * l
def WM_Ll_FLUSH (l : Nat) : Nat := 0x70114 + 0x40 * l
def WM_Ll_NEXT_LO (l : Nat) : Nat := 0x70118 + 0x40 * l
def WM_Ll_NEXT_HI (l : Nat) : Nat := 0x7011C + 0x40 * l
def WM_Ll_WELT (l : Nat) : Nat := 0x70120 + 0x40 * l
def WM_Hh_CFG (h : Nat) : Nat := 0x70200 + 0x40 * h
def WM_Hh_GEOM (h : Nat) : Nat := 0x70204 + 0x40 * h
def WM_Hh_SPAN (h : Nat) : Nat := 0x70208 + 0x40 * h
def WM_Hh_SWEET (h : Nat) : Nat := 0x7020C + 0x40 * h
def WM_Hh_Y0 (h : Nat) : Nat := 0x70210 + 0x40 * h
def WM_Hh_YPITCH (h : Nat) : Nat := 0x70214 + 0x40 * h
def WM_Hh_T0 (h : Nat) : Nat := 0x70218 + 0x40 * h
def WM_Hh_DT (h : Nat) : Nat := 0x7021C + 0x40 * h
def WM_Hh_FRONT_LO (h : Nat) : Nat := 0x70220 + 0x40 * h
def WM_Hh_FRONT_HI (h : Nat) : Nat := 0x70224 + 0x40 * h
def WM_Hh_SPEED (h : Nat) : Nat := 0x70228 + 0x40 * h
def WM_Hh_SEQ (h : Nat) : Nat := 0x7022C + 0x40 * h
def WM_SRp_CFG (p : Nat) : Nat := 0x70400 + 0x20 * p
def WM_SRp_BASE (p : Nat) : Nat := 0x70404 + 0x20 * p
def WM_SRp_WR (p : Nat) : Nat := 0x70408 + 0x20 * p
def WM_SRp_RD (p : Nat) : Nat := 0x7040C + 0x20 * p
def WM_SRp_STALL (p : Nat) : Nat := 0x70410 + 0x20 * p
def WM_EZz_VAL (z : Nat) : Nat := 0x71000 + 0x8 * z
def WM_EZz_SPAN (z : Nat) : Nat := 0x71004 + 0x8 * z
def WM_STh_CFG (h : Nat) : Nat := 0x71200 + 0x10 * h
def WM_STh_HBASE (h : Nat) : Nat := 0x71204 + 0x10 * h
def WM_STh_ROWS (h : Nat) : Nat := 0x71208 + 0x10 * h
def WM_STh_COLS (h : Nat) : Nat := 0x7120C + 0x10 * h

/-! BV block -/
def BV_STATUS : Nat := 0x80000
def BV_FAULT : Nat := 0x80004
def BV_GEN : Nat := 0x80008
def BV_CFG : Nat := 0x8000C
def BV_JET_BASE : Nat := 0x80010
def BV_STORE : Nat := 0x80014
def BV_DEPTH : Nat := 0x80018
def BV_WIN : Nat := 0x8001C
def BV_GRADE : Nat := 0x80020
def BV_OVER : Nat := 0x80024
def BV_TRIM : Nat := 0x80028
def BV_DIST : Nat := 0x8002C
def BV_SEG : Nat := 0x80030
def BV_RING : Nat := 0x80034
def BV_RING_BASE : Nat := 0x80038
def BV_RING_WR : Nat := 0x8003C
def BV_RING_RD : Nat := 0x80040
def BV_CMD : Nat := 0x80044
def BV_BIAS : Nat := 0x80048
def BV_NEXT : Nat := 0x8004C
def BV_CNT_ROWS : Nat := 0x80080
def BV_CNT_NOBASE : Nat := 0x80084
def BV_CNT_BIASHELD : Nat := 0x80088
def BV_CNT_LATE : Nat := 0x8008C
def BV_CNT_AHEAD : Nat := 0x80090
def BV_CNT_INVALID : Nat := 0x80094
def BV_Jj_STAT (j : Nat) : Nat := 0x81000 + 0x10 * j
def BV_Jj_RHO (j : Nat) : Nat := 0x81004 + 0x10 * j
def BV_Jj_COMP (j : Nat) : Nat := 0x81008 + 0x10 * j
def BV_Jj_WINNO (j : Nat) : Nat := 0x8100C + 0x10 * j

/-! VB block -/
def VB_STATUS (u : Nat) : Nat := 0x90000 + 0x1000 * u
def VB_FAULT (u : Nat) : Nat := 0x90004 + 0x1000 * u
def VB_GEN (u : Nat) : Nat := 0x90008 + 0x1000 * u
def VB_CFG (u : Nat) : Nat := 0x9000C + 0x1000 * u
def VB_RING_BASE (u : Nat) : Nat := 0x90010 + 0x1000 * u
def VB_RING (u : Nat) : Nat := 0x90014 + 0x1000 * u
def VB_VMAX (u : Nat) : Nat := 0x90018 + 0x1000 * u
def VB_SLOT (u : Nat) : Nat := 0x9001C + 0x1000 * u
def VB_ILIM (u : Nat) : Nat := 0x90020 + 0x1000 * u
def VB_ODMAX (u : Nat) : Nat := 0x90024 + 0x1000 * u
def VB_TAKEN (u : Nat) : Nat := 0x90028 + 0x1000 * u
def VB_CMD (u : Nat) : Nat := 0x9002C + 0x1000 * u
def VB_CNT_UNDER (u : Nat) : Nat := 0x90030 + 0x1000 * u
def VB_CNT_COLL (u : Nat) : Nat := 0x90034 + 0x1000 * u
def VB_CNT_DROP (u : Nat) : Nat := 0x90038 + 0x1000 * u
def VB_CNT_FILL (u : Nat) : Nat := 0x9003C + 0x1000 * u
def VB_CNT_FILLLOST (u : Nat) : Nat := 0x90040 + 0x1000 * u
def VB_CNT_FAULTROWS (u : Nat) : Nat := 0x90044 + 0x1000 * u
def VB_PAIR_CMD (u : Nat) : Nat := 0x90048 + 0x1000 * u
def VB_PAIR_STAT (u : Nat) : Nat := 0x9004C + 0x1000 * u
def VB_WAITMAX (u : Nat) : Nat := 0x90050 + 0x1000 * u
def VB_CHc_CFG (u c : Nat) : Nat := 0x90100 + 0x1000 * u + 0x10 * c
def VB_CHc_OFF (u c : Nat) : Nat := 0x90104 + 0x1000 * u + 0x10 * c
def VB_CHc_ODN (u c : Nat) : Nat := 0x90108 + 0x1000 * u + 0x10 * c
def VB_CHc_OD (u c : Nat) : Nat := 0x9010C + 0x1000 * u + 0x10 * c
def VB_SP_STATUS : Nat := 0x98000
def VB_SP_FAULT : Nat := 0x98004
def VB_SP_GEN : Nat := 0x98008
def VB_SP_CFG : Nat := 0x9800C
def VB_SP_CMD : Nat := 0x98010
def LC_STATUS (u : Nat) : Nat := 0x90200 + 0x1000 * u
def LC_FAULT (u : Nat) : Nat := 0x90204 + 0x1000 * u
def LC_CFG (u : Nat) : Nat := 0x90208 + 0x1000 * u
def LC_SAVE_BASE (u : Nat) : Nat := 0x9020C + 0x1000 * u
def LC_BANKPC (u : Nat) : Nat := 0x90210 + 0x1000 * u
def LC_AMB (u : Nat) : Nat := 0x90214 + 0x1000 * u
def LC_RCHK (u : Nat) : Nat := 0x90218 + 0x1000 * u
def LC_CMD (u : Nat) : Nat := 0x9021C + 0x1000 * u
def LC_CNT_DEFER (u : Nat) : Nat := 0x90220 + 0x1000 * u
def LC_CNT_CUT (u : Nat) : Nat := 0x90224 + 0x1000 * u
def LC_CNT_NODIP (u : Nat) : Nat := 0x90228 + 0x1000 * u
def LC_CNT_ODREJ (u : Nat) : Nat := 0x9022C + 0x1000 * u
def LC_CNT_RMIS (u : Nat) : Nat := 0x90230 + 0x1000 * u
def LC_CNT_CLAMP (u : Nat) : Nat := 0x90234 + 0x1000 * u
def LC_ERRPC (u : Nat) : Nat := 0x90238 + 0x1000 * u
def LC_PGp_ENTRY (u p : Nat) : Nat := 0x90300 + 0x1000 * u + 0x20 * p
def LC_PGp_IMAX (u p : Nat) : Nat := 0x90304 + 0x1000 * u + 0x20 * p
def LC_PGp_DUR (u p : Nat) : Nat := 0x90308 + 0x1000 * u + 0x20 * p
def LC_PGp_QFIX (u p : Nat) : Nat := 0x9030C + 0x1000 * u + 0x20 * p
def LC_PGp_QHOLD (u p : Nat) : Nat := 0x90310 + 0x1000 * u + 0x20 * p
def LC_PGp_DIP (u p : Nat) : Nat := 0x90314 + 0x1000 * u + 0x20 * p
def LC_CHc_CFG (u c : Nat) : Nat := 0x90500 + 0x1000 * u + 0x20 * c
def LC_CHc_RES20 (u c : Nat) : Nat := 0x90504 + 0x1000 * u + 0x20 * c
def LC_CHc_HC (u c : Nat) : Nat := 0x90508 + 0x1000 * u + 0x20 * c
def LC_CHc_ACB (u c : Nat) : Nat := 0x9050C + 0x1000 * u + 0x20 * c
def LC_CHc_ABC (u c : Nat) : Nat := 0x90510 + 0x1000 * u + 0x20 * c
def LC_CHc_ABA (u c : Nat) : Nat := 0x90514 + 0x1000 * u + 0x20 * c
def LC_CHc_LIM1 (u c : Nat) : Nat := 0x90518 + 0x1000 * u + 0x20 * c
def LC_CHc_LIM2 (u c : Nat) : Nat := 0x9051C + 0x1000 * u + 0x20 * c
def LC_CHc_TEMP (u c : Nat) : Nat := 0x90700 + 0x1000 * u + 0x10 * c
def LC_CHc_REST (u c : Nat) : Nat := 0x90704 + 0x1000 * u + 0x10 * c
def LC_CHc_PAR01 (u c : Nat) : Nat := 0x90708 + 0x1000 * u + 0x10 * c
def LC_CHc_PAR23 (u c : Nat) : Nat := 0x9070C + 0x1000 * u + 0x10 * c
def BL_STATUS (u : Nat) : Nat := 0x90060 + 0x1000 * u
def BL_FAULT (u : Nat) : Nat := 0x90064 + 0x1000 * u
def BL_GEN (u : Nat) : Nat := 0x90068 + 0x1000 * u
def BL_CFG (u : Nat) : Nat := 0x9006C + 0x1000 * u
def BL_PHASE (u : Nat) : Nat := 0x90070 + 0x1000 * u
def BL_DESCw (u w : Nat) : Nat := 0x90074 + 0x1000 * u + 0x4 * w
def BL_STAGE (u : Nat) : Nat := 0x90090 + 0x1000 * u
def BL_CHAL (u : Nat) : Nat := 0x90094 + 0x1000 * u
def BL_CMD (u : Nat) : Nat := 0x90098 + 0x1000 * u
def BL_CNT_UPERR (u : Nat) : Nat := 0x900A0 + 0x1000 * u
def BL_CNT_CRC (u : Nat) : Nat := 0x900A4 + 0x1000 * u
def BL_CNT_RETX (u : Nat) : Nat := 0x900A8 + 0x1000 * u
def BL_CNT_DNERR (u : Nat) : Nat := 0x900AC + 0x1000 * u

/-! AN block -/
def AN_FAULT : Nat := 0xB0000
def AN_GEN : Nat := 0xB0004
def AN_REF_CFG : Nat := 0xB0008
def AN_REF_STATUS : Nat := 0xB000C
def AN_IEXn_CFG (n : Nat) : Nat := 0xB0010 + 0x4 * n
def AN_TDAC_CFG : Nat := 0xB0018
def AN_COMMON : Nat := 0xB001C
def AN_COMMON_DELAY : Nat := 0xB0020
def AN_CMD : Nat := 0xB0024
def AN_CNT_DESYNC : Nat := 0xB0028
def AN_Cx_STATUS (x : Nat) : Nat := 0xB0100 + 0x40 * x
def AN_Cx_FAULT (x : Nat) : Nat := 0xB0104 + 0x40 * x
def AN_Cx_GEN (x : Nat) : Nat := 0xB0108 + 0x40 * x
def AN_Cx_CFG (x : Nat) : Nat := 0xB010C + 0x40 * x
def AN_Cx_TRIG (x : Nat) : Nat := 0xB0110 + 0x40 * x
def AN_Cx_DELAY (x : Nat) : Nat := 0xB0114 + 0x40 * x
def AN_Cx_BUF (x : Nat) : Nat := 0xB0118 + 0x40 * x
def AN_Cx_HW (x : Nat) : Nat := 0xB011C + 0x40 * x
def AN_Cx_WR (x : Nat) : Nat := 0xB0120 + 0x40 * x
def AN_Cx_RD (x : Nat) : Nat := 0xB0124 + 0x40 * x
def AN_Cx_START (x : Nat) : Nat := 0xB0128 + 0x40 * x
def AN_Cx_OVR (x : Nat) : Nat := 0xB012C + 0x40 * x
def AN_Cx_DROP (x : Nat) : Nat := 0xB0130 + 0x40 * x
def AN_Cx_LOST (x : Nat) : Nat := 0xB0134 + 0x40 * x
def AN_Cx_SKIP (x : Nat) : Nat := 0xB0138 + 0x40 * x
def AN_Cx_OFFg (x g : Nat) : Nat := 0xB0200 + 0x40 * x + 0x8 * g
def AN_Cx_FSg (x g : Nat) : Nat := 0xB0204 + 0x40 * x + 0x8 * g
def AN_Cx_Ee_IN (x e : Nat) : Nat := 0xB0400 + 0x100 * x + 0x10 * e
def AN_Cx_Ee_FLT (x e : Nat) : Nat := 0xB0404 + 0x100 * x + 0x10 * e
def AN_Cx_Ee_EXC (x e : Nat) : Nat := 0xB0408 + 0x100 * x + 0x10 * e
def AN_Cx_Ee_TD (x e : Nat) : Nat := 0xB040C + 0x100 * x + 0x10 * e

/-! SP block -/
def SP_Mn_STATUS (n : Nat) : Nat := 0xC0000 + 0x80 * n
def SP_Mn_FAULT (n : Nat) : Nat := 0xC0004 + 0x80 * n
def SP_Mn_GEN (n : Nat) : Nat := 0xC0008 + 0x80 * n
def SP_Mn_CFG (n : Nat) : Nat := 0xC000C + 0x80 * n
def SP_Mn_SEL (n : Nat) : Nat := 0xC0010 + 0x80 * n
def SP_Mn_SF (n : Nat) : Nat := 0xC0014 + 0x80 * n
def SP_Mn_TIMES (n : Nat) : Nat := 0xC0018 + 0x80 * n
def SP_Mn_LEN (n : Nat) : Nat := 0xC001C + 0x80 * n
def SP_Mn_CMD (n : Nat) : Nat := 0xC0020 + 0x80 * n
def SP_Mn_TX (n : Nat) : Nat := 0xC0024 + 0x80 * n
def SP_Mn_RX (n : Nat) : Nat := 0xC0028 + 0x80 * n
def SP_Mn_FIFO (n : Nat) : Nat := 0xC002C + 0x80 * n
def SP_Mn_CNT_ABORT (n : Nat) : Nat := 0xC0030 + 0x80 * n
def SP_Mn_CNT_RETRY (n : Nat) : Nat := 0xC0034 + 0x80 * n
def SP_XIP_CFG : Nat := 0xC0200
def SP_XIP_MODE : Nat := 0xC0204
def SP_XIP_OFF : Nat := 0xC0208
def SP_XIP_CMD : Nat := 0xC020C
def SP_XIP_CNT_MISS : Nat := 0xC0210
def SP_XIP_CNT_EXIT : Nat := 0xC0214
def SP_SPS_STATUS : Nat := 0xC0300
def SP_SPS_FAULT : Nat := 0xC0304
def SP_SPS_GEN : Nat := 0xC0308
def SP_SPS_CFG : Nat := 0xC030C
def SP_SPS_KEY : Nat := 0xC0310
def SP_SPS_CMD : Nat := 0xC0314
def SP_SPS_CNT_PART : Nat := 0xC0318
def SP_SPS_CNT_SHORT : Nat := 0xC031C
def SP_SPS_CNT_LONG : Nat := 0xC0320
def SP_SPS_CNT_BADCMD : Nat := 0xC0324
def SP_SPS_CNT_KEY : Nat := 0xC0328
def GP_IN : Nat := 0xC0400
def GP_OUT : Nat := 0xC0404
def GP_SET : Nat := 0xC0408
def GP_CLR : Nat := 0xC040C
def GP_EDGE : Nat := 0xC0410
def GP_GEN : Nat := 0xC0414
def GP_CNT_DENY : Nat := 0xC0418
def GP_Pp_CFG (p : Nat) : Nat := 0xC0500 + 0x4 * p

/-! TK block -/
def TK_STATUS : Nat := 0x10000
def TK_FAULT : Nat := 0x10004
def TK_GEN : Nat := 0x10008
def TK_CFG : Nat := 0x1000C
def TK_CMD : Nat := 0x10010
def TK_ENTRY : Nat := 0x10014
def TK_CMDRES : Nat := 0x10018
def TK_QBASE : Nat := 0x1001C
def TK_CNT_FLAG : Nat := 0x10020
def TK_CNT_ABORT : Nat := 0x10024
def TK_CNT_MISS : Nat := 0x10028
def TK_CNT_BUDGET : Nat := 0x1002C
def TK_CNT_RESTART : Nat := 0x10030
def TK_CNT_SWITCH : Nat := 0x10034
def TK_COREk_STATUS (k : Nat) : Nat := 0x10100 + 0x10 * k
def TK_COREk_BUSY (k : Nat) : Nat := 0x10104 + 0x10 * k
def AM_STATUS : Nat := 0x10400
def AM_FAULT : Nat := 0x10404
def AM_GEN : Nat := 0x10408
def AM_LAST : Nat := 0x10410
def AM_LAST_UNIT : Nat := 0x10414
def AM_CNT_ACCEPT : Nat := 0x10418
def AM_CNT_REFUSE : Nat := 0x1041C
def AM_UCOREk (k : Nat) : Nat := 0x10420 + 0x4 * k
def AM_UPIPEp (p : Nat) : Nat := 0x10430 + 0x4 * p
def AM_FABb (b : Nat) : Nat := 0x10440 + 0x4 * b
def AM_LINKl_IN (l : Nat) : Nat := 0x10480 + 0x8 * l
def AM_LINKl_OUT (l : Nat) : Nat := 0x10484 + 0x8 * l
def AM_GRAN : Nat := 0x10490
def AM_HANDLEh (h : Nat) : Nat := 0x10500 + 0x4 * h
def TK_CTXc_STATE (c : Nat) : Nat := 0x11000 + 0x4 * c
def TK_Qq_CFG (q : Nat) : Nat := 0x12000 + 0x8 * q
def TK_Qq_STAT (q : Nat) : Nat := 0x12004 + 0x8 * q

/-! FB block -/
def FB_STATUS : Nat := 0x20000
def FB_FAULT : Nat := 0x20004
def FB_GEN : Nat := 0x20008
def FB_CFG : Nat := 0x2000C
def FB_RANK0 : Nat := 0x20010
def FB_RANK1 : Nat := 0x20014
def FB_LKRANK0 : Nat := 0x20018
def FB_LKRANK1 : Nat := 0x2001C
def FB_GUARD : Nat := 0x20020
def FB_ERR : Nat := 0x20024
def FB_CNT_CE : Nat := 0x20028
def FB_CNT_UE : Nat := 0x2002C
def FB_CNT_REPAIR : Nat := 0x20030
def FB_CNT_LOCK : Nat := 0x20034
def FB_CNT_BREAK : Nat := 0x20038
def FB_CNT_ABANDON : Nat := 0x2003C
def FB_CNT_GUARD : Nat := 0x20040
def FB_SCRUB_PASS : Nat := 0x20044
def FB_FMb_STATUS (b : Nat) : Nat := 0x20100 + 0x8 * b
def FB_FMb_CE (b : Nat) : Nat := 0x20104 + 0x8 * b
def FB_LSb_STATUS (b : Nat) : Nat := 0x20200 + 0x8 * b
def FB_LSb_CE (b : Nat) : Nat := 0x20204 + 0x8 * b

/-! HX block -/
def HX_STATUS : Nat := 0x30000
def HX_FAULT : Nat := 0x30004
def HX_GEN : Nat := 0x30008
def HX_CFG : Nat := 0x3000C
def HX_ID : Nat := 0x30010
def HX_WR_REJECT : Nat := 0x30014
def HX_DST_REJECT : Nat := 0x30018
def HX_Ll_STATUS (l : Nat) : Nat := 0x30020 + 0x10 * l
def HX_Ll_CNT_RETRAIN (l : Nat) : Nat := 0x30024 + 0x10 * l
def HX_Ll_CNT_REPLAY (l : Nat) : Nat := 0x30028 + 0x10 * l
def HX_TKDB_ENTRY : Nat := 0x30060
def HX_TKDB : Nat := 0x30064
def HX_LOADER : Nat := 0x30068
def HX_FEAT_OFFERw (w : Nat) : Nat := 0x30080 + 0x4 * w
def HX_FEAT_ACCEPTw (w : Nat) : Nat := 0x300A0 + 0x4 * w
def HX_FEAT_ACTIVEw (w : Nat) : Nat := 0x300C0 + 0x4 * w
def HX_FEAT_UNKNOWNw (w : Nat) : Nat := 0x300E0 + 0x4 * w
def HX_FEAT_DROPPEDw (w : Nat) : Nat := 0x30100 + 0x4 * w
def HX_EVMAPi (i : Nat) : Nat := 0x30140 + 0x4 * i
def HX_Rr_CFG (r : Nat) : Nat := 0x31000 + 0x40 * r
def HX_Rr_BASE_LO (r : Nat) : Nat := 0x31004 + 0x40 * r
def HX_Rr_BASE_HI (r : Nat) : Nat := 0x31008 + 0x40 * r
def HX_Rr_WB_LO (r : Nat) : Nat := 0x3100C + 0x40 * r
def HX_Rr_WB_HI (r : Nat) : Nat := 0x31010 + 0x40 * r
def HX_Rr_TGT (r : Nat) : Nat := 0x31014 + 0x40 * r
def HX_Rr_TGTSZ (r : Nat) : Nat := 0x31018 + 0x40 * r
def HX_Rr_DB (r : Nat) : Nat := 0x3101C + 0x40 * r
def HX_Rr_WR (r : Nat) : Nat := 0x31020 + 0x40 * r
def HX_Rr_SEQ (r : Nat) : Nat := 0x31024 + 0x40 * r
def HX_Rr_CNT_WAIT (r : Nat) : Nat := 0x31028 + 0x40 * r
def HX_Rr_CNT_BIG (r : Nat) : Nat := 0x3102C + 0x40 * r

/-! GL block -/
def GL_STATUS : Nat := 0x0
def GL_FAULT : Nat := 0x4
def GL_GEN : Nat := 0x8
def GL_CFG : Nat := 0xC
def GL_ID : Nat := 0x10
def GL_SERIAL_LO : Nat := 0x14
def GL_SERIAL_HI : Nat := 0x18
def GL_SERIAL_CHK : Nat := 0x1C
def GL_RSTCAUSE : Nat := 0x20
def GL_RST : Nat := 0x24
def GL_URST : Nat := 0x28
def GL_URST_STAT : Nat := 0x2C
def GL_WDOG : Nat := 0x30
def GL_WDOG_KICK : Nat := 0x34
def GL_PIN_REL0 : Nat := 0x40
def GL_PIN_REL1 : Nat := 0x44
def GL_PIN_HOLD0 : Nat := 0x48
def GL_PIN_HOLD1 : Nat := 0x4C
def GL_PIN_STATE0 : Nat := 0x50
def GL_PIN_STATE1 : Nat := 0x54
def GL_BOOT : Nat := 0x60

/-! SV block -/
def SV_STATUS : Nat := 0xD0000
def SV_FAULT : Nat := 0xD0004
def SV_GEN : Nat := 0xD0008
def SV_CFG : Nat := 0xD000C
def SV_FLT : Nat := 0xD0010
def SV_FLT_CMD : Nat := 0xD0014
def SV_LOG_WR : Nat := 0xD0018
def SV_LOG_IDX : Nat := 0xD001C
def SV_LOG_Ww (w : Nat) : Nat := 0xD0020 + 0x4 * w
def SV_LOG_LOST : Nat := 0xD0030
def SV_CNT_UNMIRROR : Nat := 0xD0034
def SV_ESCe (e : Nat) : Nat := 0xD0040 + 0x4 * e
def SV_Aa_CFG (a : Nat) : Nat := 0xD0100 + 0x10 * a
def SV_Aa_TGT (a : Nat) : Nat := 0xD0104 + 0x10 * a
def SV_Aa_CMD (a : Nat) : Nat := 0xD0108 + 0x10 * a
def SV_Aa_STAT (a : Nat) : Nat := 0xD010C + 0x10 * a

/-! TR block -/
def TR_STATUS : Nat := 0xE0000
def TR_FAULT : Nat := 0xE0004
def TR_GEN : Nat := 0xE0008
def TR_CFG : Nat := 0xE000C
def TR_DIE : Nat := 0xE0010
def TR_BG : Nat := 0xE0014
def TR_IEX : Nat := 0xE0018
def TR_SENSs (s : Nat) : Nat := 0xE0020 + 0x4 * s
def TR_CNT_SWAP : Nat := 0xE0040
def TR_SETk_Ww (k w : Nat) : Nat := 0xE0100 + 0x10 * k + 0x4 * w

/-! DB block -/
def DB_STATUS : Nat := 0xF0000
def DB_CFG : Nat := 0xF0004
def DB_GEN : Nat := 0xF0008
def DB_CNT_OP : Nat := 0xF000C
def DB_CNT_DENY : Nat := 0xF0010

end Reg

/-- Part 0 of the map of block GL. -/
def rowsGL0 : List RegRow := [
  ⟨0x0, [], .ro, 0x0, 0x0⟩,
  ⟨0x4, [], .w1c, 0x0, 0x7f⟩,
  ⟨0x8, [], .ro, 0x0, 0x0⟩,
  ⟨0xC, [], .rws, 0x1, 0x1⟩,
  ⟨0x10, [], .ro, 0x81280001, 0x0⟩,
  ⟨0x14, [], .ro, 0, 0x0⟩,
  ⟨0x18, [], .ro, 0, 0x0⟩,
  ⟨0x1C, [], .ro, 0, 0x0⟩,
  ⟨0x20, [], .ro, 0, 0x0⟩,
  ⟨0x24, [], .wo, 0x0, 0x0⟩,
  ⟨0x28, [], .wo, 0x0, 0x0⟩,
  ⟨0x2C, [], .ro, 0x0, 0x0⟩,
  ⟨0x30, [], .rw, 0x0, 0x80ffffff⟩,
  ⟨0x34, [], .wo, 0x0, 0x0⟩,
  ⟨0x40, [], .wo, 0x0, 0x0⟩,
  ⟨0x44, [], .wo, 0x0, 0x0⟩,
  ⟨0x48, [], .wo, 0x0, 0x0⟩,
  ⟨0x4C, [], .wo, 0x0, 0x0⟩,
  ⟨0x50, [], .ro, 0x0, 0x0⟩,
  ⟨0x54, [], .ro, 0x0, 0x0⟩,
  ⟨0x60, [], .ro, 0x0, 0x0⟩]

/-- Part 0 of the map of block TK. -/
def rowsTK0 : List RegRow := [
  ⟨0x10000, [], .ro, 0xf, 0x0⟩,
  ⟨0x10004, [], .w1c, 0x0, 0x7ff⟩,
  ⟨0x10008, [], .ro, 0x0, 0x0⟩,
  ⟨0x1000C, [], .rws, 0x400010, 0xffffffff⟩,
  ⟨0x10010, [], .wo, 0x0, 0x0⟩,
  ⟨0x10014, [], .rw, 0x0, 0xffffffff⟩,
  ⟨0x10018, [], .ro, 0x0, 0x0⟩,
  ⟨0x1001C, [], .rw, 0x0, 0xffffffff⟩,
  ⟨0x10020, [], .rc, 0x0, 0x0⟩,
  ⟨0x10024, [], .rc, 0x0, 0x0⟩,
  ⟨0x10028, [], .rc, 0x0, 0x0⟩,
  ⟨0x1002C, [], .rc, 0x0, 0x0⟩,
  ⟨0x10030, [], .rc, 0x0, 0x0⟩,
  ⟨0x10034, [], .rc, 0x0, 0x0⟩,
  ⟨0x10100, [(0x10, 4)], .ro, 0x0, 0x0⟩,
  ⟨0x10104, [(0x10, 4)], .rc, 0x0, 0x0⟩,
  ⟨0x10400, [], .ro, 0x0, 0x0⟩,
  ⟨0x10404, [], .w1c, 0x0, 0x1⟩,
  ⟨0x10408, [], .ro, 0x0, 0x0⟩,
  ⟨0x10410, [], .ro, 0x0, 0x0⟩,
  ⟨0x10414, [], .ro, 0x0, 0x0⟩,
  ⟨0x10418, [], .rc, 0x0, 0x0⟩,
  ⟨0x1041C, [], .rc, 0x0, 0x0⟩,
  ⟨0x10420, [(0x4, 4)], .ro, 0x0, 0x0⟩]

/-- Part 1 of the map of block TK. -/
def rowsTK1 : List RegRow := [
  ⟨0x10430, [(0x4, 2)], .ro, 0x0, 0x0⟩,
  ⟨0x10440, [(0x4, 16)], .ro, 0x0, 0x0⟩,
  ⟨0x10480, [(0x8, 2)], .ro, 0x0, 0x0⟩,
  ⟨0x10484, [(0x8, 2)], .ro, 0x0, 0x0⟩,
  ⟨0x10490, [], .ro, 0x0, 0x0⟩,
  ⟨0x10500, [(0x4, 64)], .ro, 0x0, 0x0⟩,
  ⟨0x11000, [(0x4, 1024)], .ro, 0x0, 0x0⟩,
  ⟨0x12000, [(0x8, 256)], .rw, 0x0, 0x8fffffff⟩,
  ⟨0x12004, [(0x8, 256)], .ro, 0x0, 0x0⟩]

/-- Part 0 of the map of block FB. -/
def rowsFB0 : List RegRow := [
  ⟨0x20000, [], .ro, 0x0, 0x0⟩,
  ⟨0x20004, [], .w1c, 0x0, 0x7f⟩,
  ⟨0x20008, [], .ro, 0x0, 0x0⟩,
  ⟨0x2000C, [], .rws, 0x100401, 0xffff0f01⟩,
  ⟨0x20010, [], .rws, 0xacbb4444, 0xffffffff⟩,
  ⟨0x20014, [], .rws, 0x216da88, 0xfffffff⟩,
  ⟨0x20018, [], .rws, 0x76543210, 0xffffffff⟩,
  ⟨0x2001C, [], .rws, 0xfedcba98, 0xffffffff⟩,
  ⟨0x20020, [], .rws, 0x10, 0x1f⟩,
  ⟨0x20024, [], .ro, 0x0, 0x0⟩,
  ⟨0x20028, [], .rc, 0x0, 0x0⟩,
  ⟨0x2002C, [], .rc, 0x0, 0x0⟩,
  ⟨0x20030, [], .rc, 0x0, 0x0⟩,
  ⟨0x20034, [], .rc, 0x0, 0x0⟩,
  ⟨0x20038, [], .rc, 0x0, 0x0⟩,
  ⟨0x2003C, [], .rc, 0x0, 0x0⟩,
  ⟨0x20040, [], .rc, 0x0, 0x0⟩,
  ⟨0x20044, [], .ro, 0x0, 0x0⟩,
  ⟨0x20100, [(0x8, 16)], .ro, 0x0, 0x0⟩,
  ⟨0x20104, [(0x8, 16)], .rc, 0x0, 0x0⟩,
  ⟨0x20200, [(0x8, 16)], .ro, 0xf00000, 0x0⟩,
  ⟨0x20204, [(0x8, 16)], .rc, 0x0, 0x0⟩]

/-- Part 0 of the map of block HX. -/
def rowsHX0 : List RegRow := [
  ⟨0x30000, [], .ro, 0x0, 0x0⟩,
  ⟨0x30004, [], .w1c, 0x0, 0x1ff⟩,
  ⟨0x30008, [], .ro, 0x0, 0x0⟩,
  ⟨0x3000C, [], .rws, 0x3200, 0x7fffff01⟩,
  ⟨0x30010, [], .ro, 0, 0x0⟩,
  ⟨0x30014, [], .rc, 0x0, 0x0⟩,
  ⟨0x30018, [], .rc, 0x0, 0x0⟩,
  ⟨0x30020, [(0x10, 2)], .ro, 0x0, 0x0⟩,
  ⟨0x30024, [(0x10, 2)], .rc, 0x0, 0x0⟩,
  ⟨0x30028, [(0x10, 2)], .rc, 0x0, 0x0⟩,
  ⟨0x30060, [], .rw, 0x0, 0xffffffff⟩,
  ⟨0x30064, [], .wo, 0x0, 0x0⟩,
  ⟨0x30068, [], .wo, 0x0, 0x0⟩,
  ⟨0x30080, [(0x4, 8)], .ro, 0, 0x0⟩,
  ⟨0x300A0, [(0x4, 8)], .wo, 0x0, 0x0⟩,
  ⟨0x300C0, [(0x4, 8)], .ro, 0, 0x0⟩,
  ⟨0x300E0, [(0x4, 8)], .ro, 0x0, 0x0⟩,
  ⟨0x30100, [(0x4, 8)], .ro, 0x0, 0x0⟩,
  ⟨0x30140, [(0x4, 16)], .rws, 0x0, 0xbfff⟩,
  ⟨0x31000, [(0x40, 32)], .rw, 0xc00, 0x7f1f0f⟩,
  ⟨0x31004, [(0x40, 32)], .rw, 0x0, 0xffffffff⟩,
  ⟨0x31008, [(0x40, 32)], .rw, 0x0, 0xffffffff⟩,
  ⟨0x3100C, [(0x40, 32)], .rw, 0x0, 0xffffffff⟩,
  ⟨0x31010, [(0x40, 32)], .rw, 0x0, 0xffffffff⟩]

/-- Part 1 of the map of block HX. -/
def rowsHX1 : List RegRow := [
  ⟨0x31014, [(0x40, 32)], .rw, 0x0, 0xffffffff⟩,
  ⟨0x31018, [(0x40, 32)], .rw, 0x7, 0x1f⟩,
  ⟨0x3101C, [(0x40, 32)], .rw, 0x0, 0xffffffff⟩,
  ⟨0x31020, [(0x40, 32)], .ro, 0x0, 0x0⟩,
  ⟨0x31024, [(0x40, 32)], .ro, 0x0, 0x0⟩,
  ⟨0x31028, [(0x40, 32)], .rc, 0x0, 0x0⟩,
  ⟨0x3102C, [(0x40, 32)], .rc, 0x0, 0x0⟩]

/-- Part 0 of the map of block HP. -/
def rowsHP0 : List RegRow := [
  ⟨0x40000, [(0x1000, 8)], .ro, 0x0, 0x0⟩,
  ⟨0x40004, [(0x1000, 8)], .w1c, 0x0, 0xfff⟩,
  ⟨0x40008, [(0x1000, 8)], .ro, 0x0, 0x0⟩,
  ⟨0x4000C, [(0x1000, 8)], .ro, 0x0, 0x0⟩,
  ⟨0x40010, [(0x1000, 8)], .rws, 0x10, 0x1ff7⟩,
  ⟨0x40014, [(0x1000, 8)], .rws, 0x7800a0, 0xfff0fff⟩,
  ⟨0x40018, [(0x1000, 8)], .rws, 0x0, 0x11f⟩,
  ⟨0x4001C, [(0x1000, 8)], .rws, 0x0, 0x7f0fff⟩,
  ⟨0x40020, [(0x1000, 8)], .rws, 0x0, 0x3fff⟩,
  ⟨0x40024, [(0x1000, 8)], .rws, 0x0, 0x8000ffff⟩,
  ⟨0x40028, [(0x1000, 8)], .rws, 0x0, 0x8000ffff⟩,
  ⟨0x4002C, [(0x1000, 8)], .rws, 0x0, 0x8000ffff⟩,
  ⟨0x40030, [(0x1000, 8)], .rws, 0x0, 0x8000ffff⟩,
  ⟨0x40034, [(0x1000, 8)], .rws, 0x10000, 0xffffffff⟩,
  ⟨0x40038, [(0x1000, 8)], .rws, 0x0, 0xffffffff⟩,
  ⟨0x4003C, [(0x1000, 8)], .rws, 0x0, 0xffffffff⟩,
  ⟨0x40040, [(0x1000, 8)], .rws, 0x1, 0xf⟩,
  ⟨0x40044, [(0x1000, 8)], .rws, 0x0, 0x3f03⟩,
  ⟨0x40048, [(0x1000, 8)], .rws, 0x8000, 0xffff⟩,
  ⟨0x4004C, [(0x1000, 8)], .rws, 0x0, 0xffffffff⟩,
  ⟨0x40050, [(0x1000, 8)], .rws, 0x3d093d09, 0xffffffff⟩,
  ⟨0x40060, [(0x1000, 8)], .ro, 0x0, 0x0⟩,
  ⟨0x40064, [(0x1000, 8)], .ro, 0x0, 0x0⟩,
  ⟨0x40068, [(0x1000, 8)], .wo, 0x0, 0x0⟩]

/-- Part 1 of the map of block HP. -/
def rowsHP1 : List RegRow := [
  ⟨0x4006C, [(0x1000, 8)], .wo, 0x0, 0x0⟩,
  ⟨0x40070, [(0x1000, 8)], .ro, 0x0, 0x0⟩,
  ⟨0x40074, [(0x1000, 8)], .rc, 0x0, 0x0⟩,
  ⟨0x40080, [(0x1000, 8)], .rc, 0x0, 0x0⟩,
  ⟨0x40084, [(0x1000, 8)], .rc, 0x0, 0x0⟩,
  ⟨0x40088, [(0x1000, 8)], .rc, 0x0, 0x0⟩,
  ⟨0x4008C, [(0x1000, 8)], .rc, 0x0, 0x0⟩,
  ⟨0x40090, [(0x1000, 8)], .rc, 0x0, 0x0⟩,
  ⟨0x40094, [(0x1000, 8)], .rc, 0x0, 0x0⟩,
  ⟨0x40098, [(0x1000, 8)], .rc, 0x0, 0x0⟩,
  ⟨0x4009C, [(0x1000, 8)], .rc, 0x0, 0x0⟩,
  ⟨0x400A0, [(0x1000, 8)], .rc, 0x0, 0x0⟩,
  ⟨0x400C0, [(0x1000, 8), (0x4, 8)], .ro, 0x0, 0x0⟩]

/-- Part 0 of the map of block PL. -/
def rowsPL0 : List RegRow := [
  ⟨0x50000, [(0x8000, 2)], .ro, 0x0, 0x0⟩,
  ⟨0x50004, [(0x8000, 2)], .w1c, 0x0, 0x1ff⟩,
  ⟨0x50008, [(0x8000, 2)], .ro, 0x0, 0x0⟩,
  ⟨0x5000C, [(0x8000, 2)], .rws, 0x0, 0x3⟩,
  ⟨0x50010, [(0x8000, 2)], .wo, 0x0, 0x0⟩,
  ⟨0x50014, [(0x8000, 2)], .wo, 0x0, 0x0⟩,
  ⟨0x50018, [(0x8000, 2)], .rw, 0x0, 0xffffffff⟩,
  ⟨0x50020, [(0x8000, 2)], .rc, 0x0, 0x0⟩,
  ⟨0x50024, [(0x8000, 2)], .rc, 0x0, 0x0⟩,
  ⟨0x50028, [(0x8000, 2)], .rc, 0x0, 0x0⟩,
  ⟨0x5002C, [(0x8000, 2)], .rc, 0x0, 0x0⟩,
  ⟨0x50030, [(0x8000, 2)], .rc, 0x0, 0x0⟩,
  ⟨0x50034, [(0x8000, 2)], .rc, 0x0, 0x0⟩,
  ⟨0x50038, [(0x8000, 2)], .rc, 0x0, 0x0⟩,
  ⟨0x5003C, [(0x8000, 2)], .rc, 0x0, 0x0⟩,
  ⟨0x50040, [(0x8000, 2)], .rc, 0x0, 0x0⟩,
  ⟨0x50044, [(0x8000, 2)], .rc, 0x0, 0x0⟩,
  ⟨0x50200, [(0x8000, 2), (0x10, 32)], .ro, 0x0, 0x0⟩,
  ⟨0x50204, [(0x8000, 2), (0x10, 32)], .ro, 0x0, 0x0⟩,
  ⟨0x50208, [(0x8000, 2), (0x10, 32)], .ro, 0x0, 0x0⟩,
  ⟨0x5020C, [(0x8000, 2), (0x10, 32)], .ro, 0x0, 0x0⟩,
  ⟨0x50400, [(0x8000, 2), (0x20, 5)], .rws, 0x0, 0xf7f⟩,
  ⟨0x50404, [(0x8000, 2), (0x20, 5)], .rws, 0x0, 0xffffffff⟩,
  ⟨0x50408, [(0x8000, 2), (0x20, 5)], .ro, 0x0, 0x0⟩]

/-- Part 1 of the map of block PL. -/
def rowsPL1 : List RegRow := [
  ⟨0x5040C, [(0x8000, 2), (0x20, 5)], .rw, 0x0, 0xffffffff⟩,
  ⟨0x50410, [(0x8000, 2), (0x20, 5)], .rc, 0x0, 0x0⟩,
  ⟨0x51000, [(0x8000, 2), (0x40, 32)], .rws, 0x0, 0x1fffff⟩,
  ⟨0x51004, [(0x8000, 2), (0x40, 32)], .rws, 0x0, 0xffffffff⟩,
  ⟨0x51008, [(0x8000, 2), (0x40, 32)], .rws, 0x0, 0xffffffff⟩,
  ⟨0x5100C, [(0x8000, 2), (0x40, 32)], .rws, 0x0, 0xffffffff⟩,
  ⟨0x51010, [(0x8000, 2), (0x40, 32)], .rws, 0x0, 0xffffffff⟩,
  ⟨0x51014, [(0x8000, 2), (0x40, 32)], .rws, 0x0, 0xffffffff⟩,
  ⟨0x51018, [(0x8000, 2), (0x40, 32)], .rws, 0x1000, 0xffff⟩,
  ⟨0x5101C, [(0x8000, 2), (0x40, 32)], .rws, 0xfffff000, 0xffffffff⟩,
  ⟨0x51020, [(0x8000, 2), (0x40, 32)], .rws, 0x1000, 0xffffff⟩,
  ⟨0x51024, [(0x8000, 2), (0x40, 32)], .rws, 0x40004, 0xffffffff⟩,
  ⟨0x51028, [(0x8000, 2), (0x40, 32)], .rws, 0x80, 0x1ff⟩,
  ⟨0x5102C, [(0x8000, 2), (0x40, 32)], .rws, 0xc40400, 0xffffffff⟩,
  ⟨0x51030, [(0x8000, 2), (0x40, 32)], .rws, 0xa000000, 0x1fffffff⟩,
  ⟨0x51034, [(0x8000, 2), (0x40, 32)], .rws, 0xd000000, 0x1fffffff⟩,
  ⟨0x51038, [(0x8000, 2), (0x40, 32)], .rws, 0x0, 0xffff⟩]

/-- Part 0 of the map of block LT. -/
def rowsLT0 : List RegRow := [
  ⟨0x60000, [], .ro, 0x0, 0x0⟩,
  ⟨0x60004, [], .w1c, 0x0, 0x3ff⟩,
  ⟨0x60008, [], .ro, 0x0, 0x0⟩,
  ⟨0x6000C, [], .rws, 0x2, 0x3f⟩,
  ⟨0x60010, [], .rws, 0x0, 0xffffffff⟩,
  ⟨0x60014, [], .rws, 0x1, 0x1ff⟩,
  ⟨0x60018, [], .rws, 0x0, 0xffffffff⟩,
  ⟨0x6001C, [], .wo, 0x0, 0x0⟩,
  ⟨0x60020, [], .ro, 0x0, 0x0⟩,
  ⟨0x60024, [], .ro, 0xf00, 0x0⟩,
  ⟨0x60030, [], .rws, 0x4001000, 0xffffff1f⟩,
  ⟨0x60034, [], .rws, 0xffffffff, 0xffffffff⟩,
  ⟨0x60038, [], .rws, 0x100010, 0xffffffff⟩,
  ⟨0x6003C, [], .rws, 0x1480140, 0xffffffff⟩,
  ⟨0x60040, [], .rws, 0x80, 0xffff⟩,
  ⟨0x60060, [(0x4, 8)], .ro, 0x0, 0x0⟩,
  ⟨0x60080, [], .rc, 0x0, 0x0⟩,
  ⟨0x60084, [], .rc, 0x0, 0x0⟩,
  ⟨0x60088, [], .rc, 0x0, 0x0⟩,
  ⟨0x6008C, [], .rc, 0x0, 0x0⟩,
  ⟨0x60090, [], .rc, 0x0, 0x0⟩,
  ⟨0x60094, [], .rc, 0x0, 0x0⟩,
  ⟨0x60098, [], .rc, 0x0, 0x0⟩,
  ⟨0x6009C, [], .rc, 0x0, 0x0⟩]

/-- Part 1 of the map of block LT. -/
def rowsLT1 : List RegRow := [
  ⟨0x60100, [(0x10, 16)], .rws, 0x0, 0x7f⟩,
  ⟨0x60104, [(0x10, 16)], .rws, 0x401800, 0xffff7fff⟩,
  ⟨0x60108, [(0x10, 16)], .ro, 0x0, 0x0⟩,
  ⟨0x6010C, [(0x10, 16)], .ro, 0x0, 0x0⟩,
  ⟨0x60400, [(0x80, 8)], .rws, 0x0, 0x3f⟩,
  ⟨0x60404, [(0x80, 8)], .rws, 0x40060, 0xfffff⟩,
  ⟨0x60408, [(0x80, 8)], .rws, 0x0, 0xffffffff⟩,
  ⟨0x6040C, [(0x80, 8)], .rws, 0x0, 0xffffffff⟩,
  ⟨0x60410, [(0x80, 8)], .rws, 0x0, 0xfff⟩,
  ⟨0x60414, [(0x80, 8)], .rws, 0x0, 0xffffff⟩,
  ⟨0x60418, [(0x80, 8)], .rws, 0x0, 0xffff⟩,
  ⟨0x6041C, [(0x80, 8)], .rws, 0x0, 0xffff⟩,
  ⟨0x60420, [(0x80, 8)], .rws, 0x210214, 0xf3ffff⟩,
  ⟨0x60424, [(0x80, 8)], .rws, 0x800800, 0xffffffff⟩,
  ⟨0x60428, [(0x80, 8)], .rws, 0x0, 0x3f⟩,
  ⟨0x6042C, [(0x80, 8)], .rws, 0x100, 0xffff⟩,
  ⟨0x60430, [(0x80, 8)], .rws, 0x0, 0xffffff⟩,
  ⟨0x60434, [(0x80, 8)], .ro, 0x0, 0x0⟩,
  ⟨0x60438, [(0x80, 8)], .ro, 0x0, 0x0⟩,
  ⟨0x6043C, [(0x80, 8)], .ro, 0x0, 0x0⟩,
  ⟨0x60440, [(0x80, 8)], .ro, 0x4000, 0x0⟩,
  ⟨0x60444, [(0x80, 8)], .ro, 0x0, 0x0⟩,
  ⟨0x60448, [(0x80, 8)], .ro, 0x0, 0x0⟩,
  ⟨0x6044C, [(0x80, 8)], .ro, 0x0, 0x0⟩]

/-- Part 2 of the map of block LT. -/
def rowsLT2 : List RegRow := [
  ⟨0x60450, [(0x80, 8)], .ro, 0x0, 0x0⟩,
  ⟨0x60454, [(0x80, 8)], .ro, 0x0, 0x0⟩,
  ⟨0x60458, [(0x80, 8)], .ro, 0x0, 0x0⟩]

/-- Part 0 of the map of block WM. -/
def rowsWM0 : List RegRow := [
  ⟨0x70000, [], .ro, 0x0, 0x0⟩,
  ⟨0x70004, [], .w1c, 0x0, 0x1f⟩,
  ⟨0x70008, [], .ro, 0x0, 0x0⟩,
  ⟨0x7000C, [], .rws, 0x0, 0x1⟩,
  ⟨0x70040, [], .rc, 0x0, 0x0⟩,
  ⟨0x70044, [], .rc, 0x0, 0x0⟩,
  ⟨0x70048, [], .rc, 0x0, 0x0⟩,
  ⟨0x7004C, [], .rc, 0x0, 0x0⟩,
  ⟨0x70050, [], .rc, 0x0, 0x0⟩,
  ⟨0x70054, [], .rc, 0x0, 0x0⟩,
  ⟨0x70058, [], .rc, 0x0, 0x0⟩,
  ⟨0x7005C, [], .rc, 0x0, 0x0⟩,
  ⟨0x70100, [(0x40, 4)], .rws, 0x0, 0x3fff07ff⟩,
  ⟨0x70104, [(0x40, 4)], .rws, 0x0, 0xffffffff⟩,
  ⟨0x70108, [(0x40, 4)], .rws, 0x3e80, 0x3ffff⟩,
  ⟨0x7010C, [(0x40, 4)], .rws, 0x0, 0xffffffff⟩,
  ⟨0x70110, [(0x40, 4)], .rws, 0x100, 0x7ff⟩,
  ⟨0x70114, [(0x40, 4)], .rws, 0x7a1200, 0xffffffff⟩,
  ⟨0x70118, [(0x40, 4)], .ro, 0x0, 0x0⟩,
  ⟨0x7011C, [(0x40, 4)], .ro, 0x0, 0x0⟩,
  ⟨0x70120, [(0x40, 4)], .ro, 0x0, 0x0⟩,
  ⟨0x70200, [(0x40, 8)], .rws, 0x0, 0xf⟩,
  ⟨0x70204, [(0x40, 8)], .rws, 0x0, 0xffffffff⟩,
  ⟨0x70208, [(0x40, 8)], .rws, 0x0, 0x1fff1fff⟩]

/-- Part 1 of the map of block WM. -/
def rowsWM1 : List RegRow := [
  ⟨0x7020C, [(0x40, 8)], .rws, 0x0, 0x7ff07ff⟩,
  ⟨0x70210, [(0x40, 8)], .rws, 0x0, 0xffffffff⟩,
  ⟨0x70214, [(0x40, 8)], .rws, 0x1000, 0xffffff⟩,
  ⟨0x70218, [(0x40, 8)], .rws, 0x0, 0xffffffff⟩,
  ⟨0x7021C, [(0x40, 8)], .rws, 0x0, 0xffffff⟩,
  ⟨0x70220, [(0x40, 8)], .ro, 0x0, 0x0⟩,
  ⟨0x70224, [(0x40, 8)], .ro, 0x0, 0x0⟩,
  ⟨0x70228, [(0x40, 8)], .ro, 0x0, 0x0⟩,
  ⟨0x7022C, [(0x40, 8)], .ro, 0x0, 0x0⟩,
  ⟨0x70400, [(0x20, 2)], .rws, 0x0, 0xf7f⟩,
  ⟨0x70404, [(0x20, 2)], .rws, 0x0, 0xffffffff⟩,
  ⟨0x70408, [(0x20, 2)], .ro, 0x0, 0x0⟩,
  ⟨0x7040C, [(0x20, 2)], .rw, 0x0, 0xffffffff⟩,
  ⟨0x70410, [(0x20, 2)], .rc, 0x0, 0x0⟩,
  ⟨0x71000, [(0x8, 64)], .rws, 0x8000, 0xffffffff⟩,
  ⟨0x71004, [(0x8, 64)], .rws, 0x0, 0xffff1fff⟩,
  ⟨0x71200, [(0x10, 8)], .rws, 0x0, 0x1f1f1f⟩,
  ⟨0x71204, [(0x10, 8)], .rws, 0x0, 0xffff⟩,
  ⟨0x71208, [(0x10, 8)], .rws, 0x0, 0x7ff07ff⟩,
  ⟨0x7120C, [(0x10, 8)], .rws, 0x0, 0x7ff07ff⟩]

/-- Part 0 of the map of block BV. -/
def rowsBV0 : List RegRow := [
  ⟨0x80000, [], .ro, 0x0, 0x0⟩,
  ⟨0x80004, [], .w1c, 0x0, 0x1ff⟩,
  ⟨0x80008, [], .ro, 0x0, 0x0⟩,
  ⟨0x8000C, [], .rws, 0x0, 0x1ff⟩,
  ⟨0x80010, [], .rws, 0x0, 0xffffffff⟩,
  ⟨0x80014, [], .rws, 0x0, 0xffffffff⟩,
  ⟨0x80018, [], .rws, 0x200400, 0xff0fff⟩,
  ⟨0x8001C, [], .rws, 0x203100, 0xffff77ff⟩,
  ⟨0x80020, [], .rws, 0x8000ccd, 0xffffffff⟩,
  ⟨0x80024, [], .rws, 0x14cd, 0xffff⟩,
  ⟨0x80028, [], .rws, 0x3308, 0xffff⟩,
  ⟨0x8002C, [], .rws, 0x3d0900, 0xffffffff⟩,
  ⟨0x80030, [], .rws, 0x405, 0xff0f⟩,
  ⟨0x80034, [], .rws, 0x0, 0xf7f⟩,
  ⟨0x80038, [], .rws, 0x0, 0xffffffff⟩,
  ⟨0x8003C, [], .ro, 0x0, 0x0⟩,
  ⟨0x80040, [], .rw, 0x0, 0xffffffff⟩,
  ⟨0x80044, [], .wo, 0x0, 0x0⟩,
  ⟨0x80048, [], .ro, 0x0, 0x0⟩,
  ⟨0x8004C, [], .ro, 0x0, 0x0⟩,
  ⟨0x80080, [], .rc, 0x0, 0x0⟩,
  ⟨0x80084, [], .rc, 0x0, 0x0⟩,
  ⟨0x80088, [], .rc, 0x0, 0x0⟩,
  ⟨0x8008C, [], .rc, 0x0, 0x0⟩]

/-- Part 1 of the map of block BV. -/
def rowsBV1 : List RegRow := [
  ⟨0x80090, [], .rc, 0x0, 0x0⟩,
  ⟨0x80094, [], .rc, 0x0, 0x0⟩,
  ⟨0x81000, [(0x10, 128)], .ro, 0x0, 0x0⟩,
  ⟨0x81004, [(0x10, 128)], .ro, 0x0, 0x0⟩,
  ⟨0x81008, [(0x10, 128)], .ro, 0x0, 0x0⟩,
  ⟨0x8100C, [(0x10, 128)], .ro, 0x0, 0x0⟩]

/-- Part 0 of the map of block VB. -/
def rowsVB0 : List RegRow := [
  ⟨0x90000, [(0x1000, 8)], .ro, 0x0, 0x0⟩,
  ⟨0x90004, [(0x1000, 8)], .w1c, 0x0, 0x1ff⟩,
  ⟨0x90008, [(0x1000, 8)], .ro, 0x0, 0x0⟩,
  ⟨0x9000C, [(0x1000, 8)], .rws, 0x0, 0x3⟩,
  ⟨0x90010, [(0x1000, 8)], .rws, 0x0, 0xffffffff⟩,
  ⟨0x90014, [(0x1000, 8)], .rws, 0x7, 0x3f7f⟩,
  ⟨0x90018, [(0x1000, 8)], .rws, 0x0, 0xffffffff⟩,
  ⟨0x9001C, [(0x1000, 8)], .rws, 0x9602ee0, 0xffffffff⟩,
  ⟨0x90020, [(0x1000, 8)], .rws, 0x0, 0xffff⟩,
  ⟨0x90024, [(0x1000, 8)], .rws, 0xfa00, 0xfffff⟩,
  ⟨0x90028, [(0x1000, 8)], .ro, 0x0, 0x0⟩,
  ⟨0x9002C, [(0x1000, 8)], .wo, 0x0, 0x0⟩,
  ⟨0x90030, [(0x1000, 8)], .rc, 0x0, 0x0⟩,
  ⟨0x90034, [(0x1000, 8)], .rc, 0x0, 0x0⟩,
  ⟨0x90038, [(0x1000, 8)], .rc, 0x0, 0x0⟩,
  ⟨0x9003C, [(0x1000, 8)], .rc, 0x0, 0x0⟩,
  ⟨0x90040, [(0x1000, 8)], .rc, 0x0, 0x0⟩,
  ⟨0x90044, [(0x1000, 8)], .rc, 0x0, 0x0⟩,
  ⟨0x90048, [(0x1000, 8)], .wo, 0x0, 0x0⟩,
  ⟨0x9004C, [(0x1000, 8)], .ro, 0x0, 0x0⟩,
  ⟨0x90050, [(0x1000, 8)], .rc, 0x0, 0x0⟩,
  ⟨0x90100, [(0x1000, 8), (0x10, 16)], .rws, 0x320, 0xfff3⟩,
  ⟨0x90104, [(0x1000, 8), (0x10, 16)], .rws, 0x0, 0xffffffff⟩,
  ⟨0x90108, [(0x1000, 8), (0x10, 16)], .rws, 0xbb80, 0xfffff⟩]

/-- Part 1 of the map of block VB. -/
def rowsVB1 : List RegRow := [
  ⟨0x9010C, [(0x1000, 8), (0x10, 16)], .ro, 0xbb80, 0x0⟩,
  ⟨0x98000, [], .ro, 0x0, 0x0⟩,
  ⟨0x98004, [], .w1c, 0x0, 0x7⟩,
  ⟨0x98008, [], .ro, 0x0, 0x0⟩,
  ⟨0x9800C, [], .rws, 0x0, 0xff⟩,
  ⟨0x98010, [], .wo, 0x0, 0x0⟩,
  ⟨0x90200, [(0x1000, 8)], .ro, 0x0, 0x0⟩,
  ⟨0x90204, [(0x1000, 8)], .w1c, 0x0, 0x7f⟩,
  ⟨0x90208, [(0x1000, 8)], .rws, 0x403a23, 0x1fffff7⟩,
  ⟨0x9020C, [(0x1000, 8)], .rws, 0x0, 0xffffffff⟩,
  ⟨0x90210, [(0x1000, 8)], .rws, 0x0, 0xfff⟩,
  ⟨0x90214, [(0x1000, 8)], .rws, 0x4f8a0000, 0xffff001f⟩,
  ⟨0x90218, [(0x1000, 8)], .rws, 0x400420, 0xfff0fff⟩,
  ⟨0x9021C, [(0x1000, 8)], .wo, 0x0, 0x0⟩,
  ⟨0x90220, [(0x1000, 8)], .rc, 0x0, 0x0⟩,
  ⟨0x90224, [(0x1000, 8)], .rc, 0x0, 0x0⟩,
  ⟨0x90228, [(0x1000, 8)], .rc, 0x0, 0x0⟩,
  ⟨0x9022C, [(0x1000, 8)], .rc, 0x0, 0x0⟩,
  ⟨0x90230, [(0x1000, 8)], .rc, 0x0, 0x0⟩,
  ⟨0x90234, [(0x1000, 8)], .rc, 0x0, 0x0⟩,
  ⟨0x90238, [(0x1000, 8)], .ro, 0x0, 0x0⟩,
  ⟨0x90300, [(0x1000, 8), (0x20, 16)], .rws, 0x0, 0xfff⟩,
  ⟨0x90304, [(0x1000, 8), (0x20, 16)], .rws, 0x0, 0xfff⟩,
  ⟨0x90308, [(0x1000, 8), (0x20, 16)], .rws, 0x1068, 0xfffff⟩]

/-- Part 2 of the map of block VB. -/
def rowsVB2 : List RegRow := [
  ⟨0x9030C, [(0x1000, 8), (0x20, 16)], .rws, 0x0, 0xffffffff⟩,
  ⟨0x90310, [(0x1000, 8), (0x20, 16)], .rws, 0x0, 0xffffffff⟩,
  ⟨0x90314, [(0x1000, 8), (0x20, 16)], .rws, 0x40, 0xfff⟩,
  ⟨0x90500, [(0x1000, 8), (0x20, 16)], .rws, 0x0, 0x7f⟩,
  ⟨0x90504, [(0x1000, 8), (0x20, 16)], .rws, 0x0, 0xfffff⟩,
  ⟨0x90508, [(0x1000, 8), (0x20, 16)], .rws, 0x0, 0xffffff⟩,
  ⟨0x9050C, [(0x1000, 8), (0x20, 16)], .rws, 0x0, 0xffffff⟩,
  ⟨0x90510, [(0x1000, 8), (0x20, 16)], .rws, 0x0, 0xffffff⟩,
  ⟨0x90514, [(0x1000, 8), (0x20, 16)], .rws, 0x0, 0xffffff⟩,
  ⟨0x90518, [(0x1000, 8), (0x20, 16)], .rws, 0x64ca624a, 0xffffffff⟩,
  ⟨0x9051C, [(0x1000, 8), (0x20, 16)], .rws, 0x674a, 0xfffffff⟩,
  ⟨0x90700, [(0x1000, 8), (0x10, 16)], .ro, 0x0, 0x0⟩,
  ⟨0x90704, [(0x1000, 8), (0x10, 16)], .ro, 0x0, 0x0⟩,
  ⟨0x90708, [(0x1000, 8), (0x10, 16)], .rws, 0x0, 0xffffffff⟩,
  ⟨0x9070C, [(0x1000, 8), (0x10, 16)], .rws, 0x0, 0xffffffff⟩,
  ⟨0x90060, [(0x1000, 8)], .ro, 0x0, 0x0⟩,
  ⟨0x90064, [(0x1000, 8)], .w1c, 0x0, 0x7f⟩,
  ⟨0x90068, [(0x1000, 8)], .ro, 0x0, 0x0⟩,
  ⟨0x9006C, [(0x1000, 8)], .rws, 0x0, 0xff⟩,
  ⟨0x90070, [(0x1000, 8)], .ro, 0x0, 0x0⟩,
  ⟨0x90074, [(0x1000, 8), (0x4, 6)], .ro, 0x0, 0x0⟩,
  ⟨0x90090, [(0x1000, 8)], .ro, 0x0, 0x0⟩,
  ⟨0x90094, [(0x1000, 8)], .ro, 0x0, 0x0⟩,
  ⟨0x90098, [(0x1000, 8)], .wo, 0x0, 0x0⟩]

/-- Part 3 of the map of block VB. -/
def rowsVB3 : List RegRow := [
  ⟨0x900A0, [(0x1000, 8)], .rc, 0x0, 0x0⟩,
  ⟨0x900A4, [(0x1000, 8)], .rc, 0x0, 0x0⟩,
  ⟨0x900A8, [(0x1000, 8)], .rc, 0x0, 0x0⟩,
  ⟨0x900AC, [(0x1000, 8)], .rc, 0x0, 0x0⟩]

/-- Part 0 of the map of block WP. -/
def rowsWP0 : List RegRow := [
  ⟨0xA0000, [], .ro, 0x0, 0x0⟩,
  ⟨0xA0004, [], .ro, 0x0, 0x0⟩,
  ⟨0xA0008, [], .ro, 0x0, 0x0⟩,
  ⟨0xA000C, [], .ro, 0x0, 0x0⟩,
  ⟨0xA0010, [], .ro, 0x0, 0x0⟩,
  ⟨0xA0014, [], .ro, 0x8, 0x0⟩,
  ⟨0xA0018, [], .w1c, 0x0, 0x3f⟩,
  ⟨0xA001C, [], .rws, 0x4, 0x7f⟩,
  ⟨0xA0020, [], .rws, 0x2710, 0xffffffff⟩,
  ⟨0xA0024, [], .rws, 0x148, 0xffffffff⟩,
  ⟨0xA0028, [], .rws, 0xc8, 0xffffffff⟩,
  ⟨0xA002C, [], .ro, 0x0, 0x0⟩,
  ⟨0xA0030, [], .rws, 0x0, 0x3ff⟩,
  ⟨0xA0034, [], .rws, 0x0, 0xffffffff⟩,
  ⟨0xA0038, [], .rws, 0x0, 0xffffffff⟩,
  ⟨0xA003C, [], .wo, 0x0, 0x0⟩,
  ⟨0xA0040, [(0x4, 20)], .ro, 0x0, 0x0⟩,
  ⟨0xA0090, [], .rw, 0x0, 0xffffffff⟩,
  ⟨0xA0094, [], .rw, 0x0, 0xffffffff⟩,
  ⟨0xA0098, [], .ro, 0x0, 0x0⟩,
  ⟨0xA009C, [], .ro, 0x0, 0x0⟩,
  ⟨0xA00A0, [], .ro, 0x0, 0x0⟩,
  ⟨0xA00A4, [], .ro, 0x0, 0x0⟩,
  ⟨0xA00A8, [], .ro, 0x0, 0x0⟩]

/-- Part 1 of the map of block WP. -/
def rowsWP1 : List RegRow := [
  ⟨0xA00AC, [], .ro, 0x0, 0x0⟩,
  ⟨0xA00B0, [], .rc, 0x0, 0x0⟩,
  ⟨0xA0100, [(0x20, 4)], .rws, 0x402, 0xff07⟩,
  ⟨0xA0104, [(0x20, 4)], .rws, 0x0, 0xffffffff⟩,
  ⟨0xA0108, [(0x20, 4)], .ro, 0x0, 0x0⟩,
  ⟨0xA010C, [(0x20, 4)], .rc, 0x0, 0x0⟩,
  ⟨0xA0110, [(0x20, 4)], .ro, 0x0, 0x0⟩,
  ⟨0xA0114, [(0x20, 4)], .ro, 0x0, 0x0⟩,
  ⟨0xA0200, [(0x20, 8)], .rws, 0x0, 0x3⟩,
  ⟨0xA0204, [(0x20, 8)], .rws, 0x3e80, 0xffffffff⟩,
  ⟨0xA0208, [(0x20, 8)], .rws, 0x0, 0xffffffff⟩,
  ⟨0xA020C, [(0x20, 8)], .rws, 0x0, 0xffffffff⟩,
  ⟨0xA0210, [(0x20, 8)], .ro, 0x0, 0x0⟩,
  ⟨0xA0214, [(0x20, 8)], .rc, 0x0, 0x0⟩,
  ⟨0xA0300, [(0x10, 4)], .rws, 0x400, 0xff03⟩,
  ⟨0xA0304, [(0x10, 4)], .rc, 0x0, 0x0⟩,
  ⟨0xA0308, [(0x10, 4)], .ro, 0x0, 0x0⟩,
  ⟨0xA030C, [(0x10, 4)], .ro, 0x0, 0x0⟩,
  ⟨0xA0400, [(0x10, 4)], .rws, 0x0, 0xffff07ff⟩,
  ⟨0xA0404, [(0x10, 4)], .rc, 0x0, 0x0⟩,
  ⟨0xA0480, [(0x10, 8)], .rws, 0x1000, 0xffffff03⟩,
  ⟨0xA0484, [(0x10, 8)], .ro, 0x0, 0x0⟩,
  ⟨0xA0488, [(0x10, 8)], .ro, 0x0, 0x0⟩,
  ⟨0xA048C, [(0x10, 8)], .rc, 0x0, 0x0⟩]

/-- Part 2 of the map of block WP. -/
def rowsWP2 : List RegRow := [
  ⟨0xA1000, [(0x10, 128)], .rw, 0x0, 0xffffffff⟩,
  ⟨0xA1004, [(0x10, 128)], .rw, 0x0, 0xffffffff⟩,
  ⟨0xA1008, [(0x10, 128)], .rw, 0x0, 0xffffffff⟩,
  ⟨0xA100C, [(0x10, 128)], .rw, 0x0, 0x1f⟩]

/-- Part 0 of the map of block AN. -/
def rowsAN0 : List RegRow := [
  ⟨0xB0000, [], .w1c, 0x0, 0x3⟩,
  ⟨0xB0004, [], .ro, 0x0, 0x0⟩,
  ⟨0xB0008, [], .rws, 0x0, 0x3⟩,
  ⟨0xB000C, [], .ro, 0x30, 0x0⟩,
  ⟨0xB0010, [(0x4, 2)], .rws, 0x0, 0x7ff⟩,
  ⟨0xB0018, [], .rws, 0x0, 0x7⟩,
  ⟨0xB001C, [], .rws, 0x0, 0xf0fffff⟩,
  ⟨0xB0020, [], .rws, 0x0, 0x1ffffff⟩,
  ⟨0xB0024, [], .wo, 0x0, 0x0⟩,
  ⟨0xB0028, [], .rc, 0x0, 0x0⟩,
  ⟨0xB0100, [(0x40, 4)], .ro, 0x0, 0x0⟩,
  ⟨0xB0104, [(0x40, 4)], .w1c, 0x0, 0x7f⟩,
  ⟨0xB0108, [(0x40, 4)], .ro, 0x0, 0x0⟩,
  ⟨0xB010C, [(0x40, 4)], .rws, 0x0, 0xf7f⟩,
  ⟨0xB0110, [(0x40, 4)], .rws, 0x0, 0xfffff⟩,
  ⟨0xB0114, [(0x40, 4)], .rws, 0x0, 0x1ffffff⟩,
  ⟨0xB0118, [(0x40, 4)], .rws, 0x0, 0xffffffff⟩,
  ⟨0xB011C, [(0x40, 4)], .rws, 0x0, 0xffffff⟩,
  ⟨0xB0120, [(0x40, 4)], .ro, 0x0, 0x0⟩,
  ⟨0xB0124, [(0x40, 4)], .rw, 0x0, 0xffffffff⟩,
  ⟨0xB0128, [(0x40, 4)], .ro, 0x0, 0x0⟩,
  ⟨0xB012C, [(0x40, 4)], .rc, 0x0, 0x0⟩,
  ⟨0xB0130, [(0x40, 4)], .rc, 0x0, 0x0⟩,
  ⟨0xB0134, [(0x40, 4)], .rc, 0x0, 0x0⟩]

/-- Part 1 of the map of block AN. -/
def rowsAN1 : List RegRow := [
  ⟨0xB0138, [(0x40, 4)], .rc, 0x0, 0x0⟩,
  ⟨0xB0200, [(0x40, 4), (0x8, 8)], .ro, 0x0, 0x0⟩,
  ⟨0xB0204, [(0x40, 4), (0x8, 8)], .ro, 0x400000, 0x0⟩,
  ⟨0xB0400, [(0x100, 4), (0x10, 16)], .rws, 0x0, 0x3ffff⟩,
  ⟨0xB0404, [(0x100, 4), (0x10, 16)], .rws, 0xc0, 0xffff7fff⟩,
  ⟨0xB0408, [(0x100, 4), (0x10, 16)], .rws, 0x0, 0xffff⟩,
  ⟨0xB040C, [(0x100, 4), (0x10, 16)], .rws, 0x0, 0x3fff⟩]

/-- Part 0 of the map of block SP. -/
def rowsSP0 : List RegRow := [
  ⟨0xC0000, [(0x80, 4)], .ro, 0x0, 0x0⟩,
  ⟨0xC0004, [(0x80, 4)], .w1c, 0x0, 0x7f⟩,
  ⟨0xC0008, [(0x80, 4)], .ro, 0x0, 0x0⟩,
  ⟨0xC000C, [(0x80, 4)], .rws, 0x1f300, 0x1ff3f⟩,
  ⟨0xC0010, [(0x80, 4)], .rws, 0x0, 0xffff7fff⟩,
  ⟨0xC0014, [(0x80, 4)], .rws, 0x0, 0xfffff01⟩,
  ⟨0xC0018, [(0x80, 4)], .rws, 0x0, 0xffffffff⟩,
  ⟨0xC001C, [(0x80, 4)], .rw, 0x8, 0x1fff⟩,
  ⟨0xC0020, [(0x80, 4)], .wo, 0x0, 0x0⟩,
  ⟨0xC0024, [(0x80, 4)], .wo, 0x0, 0x0⟩,
  ⟨0xC0028, [(0x80, 4)], .rc, 0x0, 0x0⟩,
  ⟨0xC002C, [(0x80, 4)], .ro, 0x200, 0x0⟩,
  ⟨0xC0030, [(0x80, 4)], .rc, 0x0, 0x0⟩,
  ⟨0xC0034, [(0x80, 4)], .rc, 0x0, 0x0⟩,
  ⟨0xC0200, [], .rws, 0x1a030000, 0x1fff0f7f⟩,
  ⟨0xC0204, [], .rws, 0xffa0, 0xffff⟩,
  ⟨0xC0208, [], .rws, 0x0, 0x3ffffff⟩,
  ⟨0xC020C, [], .wo, 0x0, 0x0⟩,
  ⟨0xC0210, [], .rc, 0x0, 0x0⟩,
  ⟨0xC0214, [], .rc, 0x0, 0x0⟩,
  ⟨0xC0300, [], .ro, 0x0, 0x0⟩,
  ⟨0xC0304, [], .w1c, 0x0, 0x3⟩,
  ⟨0xC0308, [], .ro, 0x0, 0x0⟩,
  ⟨0xC030C, [], .rws, 0x0, 0x3⟩]

/-- Part 1 of the map of block SP. -/
def rowsSP1 : List RegRow := [
  ⟨0xC0310, [], .rws, 0x0, 0xffff⟩,
  ⟨0xC0314, [], .wo, 0x0, 0x0⟩,
  ⟨0xC0318, [], .rc, 0x0, 0x0⟩,
  ⟨0xC031C, [], .rc, 0x0, 0x0⟩,
  ⟨0xC0320, [], .rc, 0x0, 0x0⟩,
  ⟨0xC0324, [], .rc, 0x0, 0x0⟩,
  ⟨0xC0328, [], .rc, 0x0, 0x0⟩,
  ⟨0xC0400, [], .ro, 0x0, 0x0⟩,
  ⟨0xC0404, [], .ro, 0x0, 0x0⟩,
  ⟨0xC0408, [], .wo, 0x0, 0x0⟩,
  ⟨0xC040C, [], .wo, 0x0, 0x0⟩,
  ⟨0xC0410, [], .w1c, 0x0, 0xfffff⟩,
  ⟨0xC0414, [], .ro, 0x0, 0x0⟩,
  ⟨0xC0418, [], .rc, 0x0, 0x0⟩,
  ⟨0xC0500, [(0x4, 20)], .rws, 0x1000, 0xff3ff⟩]

/-- Part 0 of the map of block SV. -/
def rowsSV0 : List RegRow := [
  ⟨0xD0000, [], .ro, 0x0, 0x0⟩,
  ⟨0xD0004, [], .w1c, 0x0, 0xff⟩,
  ⟨0xD0008, [], .ro, 0x0, 0x0⟩,
  ⟨0xD000C, [], .rws, 0x0, 0x7f⟩,
  ⟨0xD0010, [], .ro, 0x0, 0x0⟩,
  ⟨0xD0014, [], .wo, 0x0, 0x0⟩,
  ⟨0xD0018, [], .ro, 0x0, 0x0⟩,
  ⟨0xD001C, [], .rw, 0x0, 0xffffffff⟩,
  ⟨0xD0020, [(0x4, 4)], .ro, 0x0, 0x0⟩,
  ⟨0xD0030, [], .rc, 0x0, 0x0⟩,
  ⟨0xD0034, [], .rc, 0x0, 0x0⟩,
  ⟨0xD0040, [(0x4, 32)], .rws, 0x0, 0x807fffff⟩,
  ⟨0xD0100, [(0x10, 32)], .rw, 0x0, 0x7ff⟩,
  ⟨0xD0104, [(0x10, 32)], .rw, 0x0, 0xffffffff⟩,
  ⟨0xD0108, [(0x10, 32)], .wo, 0x0, 0x0⟩,
  ⟨0xD010C, [(0x10, 32)], .ro, 0x0, 0x0⟩]

/-- Part 0 of the map of block TR. -/
def rowsTR0 : List RegRow := [
  ⟨0xE0000, [], .ro, 0x0, 0x0⟩,
  ⟨0xE0004, [], .w1c, 0x0, 0x3⟩,
  ⟨0xE0008, [], .ro, 0x0, 0x0⟩,
  ⟨0xE000C, [], .rws, 0x30082001, 0xffffff01⟩,
  ⟨0xE0010, [], .ro, 0x0, 0x0⟩,
  ⟨0xE0014, [], .ro, 0x3, 0x0⟩,
  ⟨0xE0018, [], .ro, 0x44, 0x0⟩,
  ⟨0xE0020, [(0x4, 6)], .ro, 0x0, 0x0⟩,
  ⟨0xE0040, [], .rc, 0x0, 0x0⟩,
  ⟨0xE0100, [(0x10, 5)], .rw, 0, 0xffffffff⟩,
  ⟨0xE0104, [(0x10, 5)], .rw, 0, 0xffffff⟩,
  ⟨0xE0108, [(0x10, 5)], .rw, 0, 0xffffffff⟩,
  ⟨0xE010C, [(0x10, 5)], .rw, 0, 0xffff⟩]

/-- Part 0 of the map of block DB. -/
def rowsDB0 : List RegRow := [
  ⟨0xF0000, [], .ro, 0x0, 0x0⟩,
  ⟨0xF0004, [], .rws, 0x2, 0x3⟩,
  ⟨0xF0008, [], .ro, 0x0, 0x0⟩,
  ⟨0xF000C, [], .rc, 0x0, 0x0⟩,
  ⟨0xF0010, [], .rc, 0x0, 0x0⟩]

/-- The rows of the block that an address lies in: address bits [31:16]. -/
def regRows (a : Nat) : List RegRow :=
  match a / 0x10000 with
  | 0 => rowsGL0
  | 1 => rowsTK0 ++ rowsTK1
  | 2 => rowsFB0
  | 3 => rowsHX0 ++ rowsHX1
  | 4 => rowsHP0 ++ rowsHP1
  | 5 => rowsPL0 ++ rowsPL1
  | 6 => rowsLT0 ++ rowsLT1 ++ rowsLT2
  | 7 => rowsWM0 ++ rowsWM1
  | 8 => rowsBV0 ++ rowsBV1
  | 9 => rowsVB0 ++ rowsVB1 ++ rowsVB2 ++ rowsVB3
  | 10 => rowsWP0 ++ rowsWP1 ++ rowsWP2
  | 11 => rowsAN0 ++ rowsAN1
  | 12 => rowsSP0 ++ rowsSP1
  | 13 => rowsSV0
  | 14 => rowsTR0
  | 15 => rowsDB0
  | _ => []

/-- The indices of an address within a row, or none if the row does not hold it. -/
def indicesOf : List (Nat × Nat) → Nat → Option (List Nat)
  | [], o => if o = 0 then some [] else none
  | (s, c) :: ds, o =>
    if o / s < c then (indicesOf ds (o % s)).map (fun l => (o / s) :: l) else none

/-- Whether a row holds an address. -/
def RegRow.hits (r : RegRow) (a : Nat) : Bool := decide (r.base ≤ a) && (indicesOf r.dims (a - r.base)).isSome

/-- The row of an address, if some register lies there; reserved addresses have none (R6). -/
def regRow (a : Nat) : Option RegRow := (regRows a).find? (fun r => r.hits a)

/-- The index `i` (0 the widest stride) of an address within its row. -/
def RegRow.idx (r : RegRow) (a i : Nat) : Nat := ((indicesOf r.dims (a - r.base)).getD []).getD i 0

/-- The reset value of a register (its Reset column): a feature word by R421, a trim set word from the fuses (R459). -/
def regReset (a : Nat) : Word :=
  if a = Reg.HX_FEAT_ACTIVEw 0 then 1
  else if a = Reg.HX_FEAT_OFFERw 0 then 0x3FFF
  else if Reg.TR_SETk_Ww 0 0 ≤ a ∧ a < Reg.TR_SETk_Ww 5 0 then
    let mask := match regRow a with
      | some r => r.mask
      | none => 0
    Config.fuseTrim ((a - Reg.TR_SETk_Ww 0 0) / 16) ((a - Reg.TR_SETk_Ww 0 0) / 4 % 4) &&& BitVec.ofNat 32 mask
  else
  match regRow a with
  | some r => BitVec.ofNat 32 r.rst
  | none => 0

end Sys2Proof.Machine
end

