-- ==== Sys2Proof/Machine/SparseMap.lean ====
section
/-! DEFINITION. Machine/SparseMap.lean: finite maps from numbers to values as lists of pairs in one canonical form:
keys strictly rising, and no pair whose value is what an unlisted key reads as. -/
namespace Sys2Proof.Machine

/-- A map from numbers; what an unlisted key reads as is named at each use. -/
abbrev SMap (β : Type) := List (Nat × β)

/-- The listed value of a key. -/
def SMap.find {β : Type} : SMap β → Nat → Option β
  | [], _ => none
  | (j, v) :: m, k => if j = k then some v else SMap.find m k

/-- The value of a key; `d` is what an unlisted key reads as. -/
def SMap.get {β : Type} (d : β) (m : SMap β) (k : Nat) : β := (SMap.find m k).getD d

/-- List a value under a key, keeping the keys strictly rising. -/
def SMap.put {β : Type} : SMap β → Nat → β → SMap β
  | [], k, v => [(k, v)]
  | (j, w) :: m, k, v =>
    if k < j then (k, v) :: (j, w) :: m
    else if k = j then (k, v) :: m
    else (j, w) :: SMap.put m k v

/-- Unlist a key, wherever it stands. -/
def SMap.del {β : Type} : SMap β → Nat → SMap β
  | [], _ => []
  | (j, w) :: m, k => if j = k then SMap.del m k else (j, w) :: SMap.del m k

/-- Give a key a value, keeping the canonical form: writing what an unlisted key reads as unlists it. -/
def SMap.set {β : Type} [DecidableEq β] (d : β) (m : SMap β) (k : Nat) (v : β) : SMap β :=
  if v = d then SMap.del m k else SMap.put m k v

/-- Change the value of a key by a function. -/
def SMap.upd {β : Type} [DecidableEq β] (d : β) (m : SMap β) (k : Nat) (f : β → β) : SMap β :=
  SMap.set d m k (f (SMap.get d m k))

/-- The canonical form, where `d k` is what the unlisted key `k` reads as. -/
abbrev SMap.wf {β : Type} [DecidableEq β] (d : Nat → β) (m : SMap β) : Prop :=
  m.Pairwise (fun a b => a.1 < b.1) ∧ ∀ p ∈ m, p.2 ≠ d p.1

end Sys2Proof.Machine
end

