-- ==== Sys2Proof/Machine/State.lean ====
section
/-! DEFINITION. Machine/State.lean: the state of the MZ-S8128 as plain data: the waiting commands, the clock and web position, the
memories, and every unit's registers and internal state; its value at reset; the reasons a step can stop. -/
namespace Sys2Proof.Machine

/-- Reasons the machine stops with a fault. No command raises one: the manual gives every command its effect, and a fault of the
manual (R353, R460) is an effect on the state. -/
inductive Fault where
  deriving DecidableEq, Repr

/-- Reasons a command is refused. -/
inductive Refusal where
  /-- No meaning yet; raised by the dispatch table only. Safe: nothing is claimed of the command. -/
  | notModelled (mnemonic : String)
  deriving DecidableEq, Repr

/-! ## Clock and web position (02) -/

/-- The position half of the DTIME unit: DTIME (R31), whether its PLL runs, WPOS (R35) and the fraction accumulator (R34). -/
structure Clock where
  /-- DTIME in DRIVE ticks (R31); it does not wrap within the service life of a device. -/
  dtime : Nat
  /-- The DRIVE PLL is locked, so DTIME counts (R31, R430). -/
  drive : Bool
  /-- WPOS, 1/16 µm (R35). -/
  wpos : Int
  /-- The 12-bit fraction accumulator (R34). -/
  frac : Nat
  deriving DecidableEq, Repr

/-- What a unit sees of the clock: the copies of DTIME and WPOS (R27). -/
structure Now where
  dtime : Nat
  wpos : Int
  /-- The fraction accumulator (R34), which the banks read for their extrapolation (R205). -/
  frac : Nat
  deriving DecidableEq, Repr

/-! ## Memories (13, 15, 05) -/

/-- Frame memory, the local memory of each task core, and the last store's records by record number. -/
structure Mem where
  /-- Frame memory, 48 MiB of bytes (R382). -/
  frame : SMap Byte
  /-- Local memory of core k at 0x40000 × k, 256 KiB each (R325). -/
  loc : SMap Byte
  /-- Last records (R115, R121). -/
  last : SMap Dword
  deriving DecidableEq, Repr

/-- One write to a memory. -/
inductive MemWrite where
  | frame (a : Nat) (b : Byte)
  | loc (a : Nat) (b : Byte)
  | last (r : Nat) (v : Dword)
  deriving DecidableEq, Repr

/-! ## Shadow sets (01) -/

/-- A swap that waits for its boundary (R19, R20). -/
structure Swap where
  set : SetId
  at_ : Boundary
  /-- DTIME at which the unit accepted it (R19). -/
  since : Nat
  deriving DecidableEq, Repr

/-- The register file: live copies, shadow copies, generations, pending swaps, and each reader's holding register (R5, R7, R9, R19). -/
structure Regs where
  live : SMap Word
  shadow : SMap Word
  gens : List (SetId × Nat)
  swaps : List Swap
  /-- The high word in each reader's holding register, until it is read (R9). -/
  held : List (Reader × Option Word)
  deriving DecidableEq, Repr

/-! ## Events and faults (01, 13, 18) -/

/-- An occurrence of an event on its way to the scheduler (R30, R338, R489). -/
structure EventOcc where
  num : Nat
  word : Word
  dtime : Nat
  deriving DecidableEq, Repr

/-- A fault record (R460). -/
structure FaultRec where
  dtime : Nat
  unit : Nat
  code : Nat
  detail : Word
  deriving DecidableEq, Repr

/-- The fault log: records queued, records lost since the last one entered, the log (newest first), the count of records logged,
and SV_FLT.active (R461, R463). -/
structure FaultLog where
  queue : List FaultRec
  lost : Nat
  log : List FaultRec
  count : Nat
  active : Bool
  /-- DTIME at which SV_FLT.active was last set (R463). -/
  setAt : Option Nat
  deriving DecidableEq, Repr

/-- What the device sends to the outside: a host-memory write, an MSI-X message, a read completion, an SPS reply, a TAP capture. -/
inductive Sent where
  | hostWrite (link : Nat) (addr : Nat) (words : List Word)
  | msix (link vector addr : Nat) (data : Word)
  | completion (link : Nat) (value : Word)
  | sps (bytes : List Byte)
  | tap (data : Word) (error : Bool)
  deriving DecidableEq, Repr

/-! ## Timebase (02) -/

/-- The accepted levels of an encoder's pins (R33). -/
structure EncPins where
  a : Bool
  b : Bool
  deriving DecidableEq, Repr

/-- Slip check and takeover of the DTIME unit (R36 to R39). Travels are exact, in 1/65,536 µm. -/
structure Slip where
  /-- Count edges of the source since it became the source, newest first: DTIME and WPOS (R36). -/
  edges : List (Nat × Int)
  /-- DTIME of the source's last count; 0 before any (R36). -/
  lastCount : Nat
  stopped : Bool
  reverse : Bool
  /-- The secondary feeds WPOS (R38). -/
  takeover : Bool
  /-- Travel of the primary and of the secondary in the window (R37). -/
  d0 : Int
  d1 : Int
  /-- Illegal transitions of the primary in the window (R38). -/
  illegal : Nat
  /-- Secondary travel since the primary's last count (R38). -/
  secSince : Int
  /-- Primary travel since the secondary's last count (R39). -/
  primSince : Int
  /-- The check and the takeover are suspended until the secondary counts (R39). -/
  suspended : Bool
  deriving DecidableEq, Repr

/-- A row generator (R41, R42): the next row position while enabled, and the rows emitted since the last WPOS update. -/
structure RowGen where
  next : Option Int
  /-- Position of the last row emitted (R41). -/
  pos : Int
  /-- Rows emitted since the enable (R41). -/
  rows : Nat
  /-- Rows emitted since the last update of its base. -/
  since : Nat
  /-- A takeover made that update, or came while its burst ran, and the burst's record is still to come (R42). -/
  jump : Bool
  /-- DTIME of the last emission. -/
  last : Nat
  deriving DecidableEq, Repr

def RowGen.reset : RowGen := ⟨none, 0, 0, 0, false, 0⟩

/-- An EVT or HSY output (R47, R48, R53): the level it drives, end of the running pulse. -/
structure OutPin where
  level : Bool
  pulseEnd : Option Nat
  deriving DecidableEq, Repr

def OutPin.reset : OutPin := ⟨false, none⟩

/-- A timer's arm tick, and whether its base was already beyond the target there (R49). -/
structure TimerArm where
  at_ : Nat
  late : Bool
  deriving DecidableEq, Repr

def TimerArm.reset : TimerArm := ⟨0, false⟩

/-- The timebase beyond its registers. -/
structure Web where
  enc : SMap EncPins
  slip : Slip
  rg : SMap RowGen
  /-- Accepted level of each trigger pin (R44). -/
  trg : SMap Bool
  gapOpen : Bool
  /-- DRIVE tick of the last transition of the gap window, and whether it opened (R45). -/
  gapLast : Option (Nat × Bool)
  /-- The plan is armed, since this DRIVE tick (R45). -/
  planArmed : Option Nat
  evt : SMap OutPin
  hsy : SMap OutPin
  tm : SMap TimerArm
  deriving DecidableEq, Repr

def EncPins.reset : EncPins := ⟨false, false⟩
def Slip.reset : Slip := ⟨[], 0, true, false, false, 0, 0, 0, 0, 0, false⟩
def Web.reset : Web := ⟨[], Slip.reset, [], [], false, none, none, [], [], []⟩

/-! ## Head ports (03) -/

/-- Presence of a head (R71). -/
inductive Presence where
  | disabled | absent | ident | provisional | present
  deriving DecidableEq, Repr

/-- A line as the port delivers it: raw containers, and the column from which they are fill (R68, R87). -/
structure HLine where
  px : List Nat
  fillFrom : Nat
  deriving DecidableEq, Repr

/-- A frame from its frame start until its pipeline has completed it (R66 to R69). -/
structure HFrame where
  seq : Nat
  dtime : Nat
  wpos : Int
  /-- Settings generation by the latency rule (R62), and the port's generation. -/
  latGen : Nat
  unitGen : Nat
  /-- Columns, blind rows, array rows, blind rows at the bottom, first rind row, rind rows (R57). -/
  cols : Nat
  blind : Nat
  rows : Nat
  blindBottom : Bool
  rindFirst : Nat
  rindCount : Nat
  inline : Bool
  /-- The frame slot it occupies (R24), and the frame-memory address of that slot as it was at the frame's start (R81, R107). -/
  slot : Option Nat
  slotAt : Nat
  /-- Its pipeline lost it while it was still arriving (R110): the port goes on to its close, and no stream takes it. -/
  gone : Bool
  lines : List HLine
  /-- Lost lines of an in-line head whose fill has not left yet (R69). -/
  lost : Nat
  /-- Lines the pipeline has freed. -/
  freed : Nat
  /-- Bits of tag word 7 gathered so far (R67). -/
  flags : Nat
  closed : Bool
  /-- The 8 words of its tag, once closed. -/
  tag : List Nat
  deriving DecidableEq, Repr

/-- A control transaction that waits (R64); `serial` marks the serial read of R71; its place in the order of submission among the heads that
share its serial port (R65). -/
structure CtlTrans where
  tx : List Byte
  rxLen : Nat
  settings : Bool
  echo : Nat
  serial : Bool
  order : Nat
  deriving DecidableEq, Repr

/-- Head port n beyond its registers. -/
structure HeadPort where
  state : Presence
  /-- In ABSENT by the timeout without head hot replacement (R73). -/
  held : Bool
  /-- The serial matched: PRESENT at the next frame start (R72). -/
  matched : Bool
  /-- The last store has a working set for the new serial (R72). -/
  reported : Bool
  /-- HEAD_OUT runs: frames are discarded (R445). -/
  out : Bool
  seq : Nat
  /-- DTIME of the last frame start, or of the enable (R71). -/
  lastStart : Nat
  /-- VC0 packets are ignored until the next frame start (R68). -/
  ignoring : Bool
  /-- Frames in order: not yet completed by their pipeline; the last is open if not closed. -/
  frames : List HFrame
  telem : List Byte
  /-- Last valid value of the substrate, integration, counter and echo fields (R61). -/
  lastField : List Nat
  /-- Substrate temperature of the previous frame's telemetry (R61). -/
  prevSub : Nat
  settingsGen : Nat
  /-- The generation in force by the latency rule, and completions after it: generation, DTIME, frame starts since (newest first). -/
  baseGen : Nat
  completions : List (Nat × Nat × Nat)
  /-- Echo value and generation of the last 16 settings transactions, newest first (R62). -/
  echoes : List (Nat × Nat)
  staged : List Byte
  ctl : List CtlTrans
  ctlStopped : Bool
  ctlFailed : Bool
  reply : List Byte
  retries : Nat
  /-- Sequence number of the last record of codes 0x0001 to 0x0003 (R75). -/
  lastRec : SMap (Option Nat)
  /-- Start-of-transmission errors of each lane since its last record (R75). -/
  sot : SMap Nat
  /-- The HSY stamp that a frame start has used (R70). -/
  hsyUsed : Option Nat
  deriving DecidableEq, Repr

def HeadPort.reset : HeadPort :=
  { state := .disabled, held := false, matched := false, reported := false, out := false, seq := 0, lastStart := 0, ignoring := false,
    frames := [], telem := [], lastField := [0, 0, 0, 0], prevSub := 0, settingsGen := 0, baseGen := 0, completions := [], echoes := [],
    staged := [], ctl := [], ctlStopped := false, ctlFailed := false, reply := [], retries := 0, lastRec := [], sot := [], hsyUsed := none }

/-! ## Last store and calibration (05) -/

/-- Builds of the interpolation engine (R123), numbered as in fault 0x0005. -/
inductive BuildKind where
  | full | rebase | shutter | provisional | copy
  deriving DecidableEq, Repr

/-- A region: one working set of a head (R121, R124): its granules in order, geometry, base temperature, and the set entries it came from. -/
structure Region where
  kind : BuildKind
  cols : Nat
  blind : Nat
  rows : Nat
  granules : List Nat
  /-- Base temperature T, base temperatures and directory indices of lo and hi, and the weight w (R124). -/
  base : Nat
  tl : Nat
  th : Nat
  lo : Nat
  hi : Nat
  w : Nat
  /-- It holds unity records at its root: built as PROVISIONAL (R123, R125). -/
  unity : Bool
  /-- The anchor reset of a SHUTTER region: the target of each column, none where the old one is kept (R141, R142). -/
  targets : Option (List (Option Int))
  /-- The head serial of the sets that it was built from, or for a PROVISIONAL one the serial then (R97, R132). -/
  serial : Nat
  deriving DecidableEq, Repr

/-- A build request (R123): head, kind, target temperature, and once it has started the head serial that it looked for (R132). -/
structure Build where
  head : Nat
  kind : BuildKind
  temp : Nat
  serial : Nat
  deriving DecidableEq, Repr

/-- A shutter event of a head (R139): counts are of output frames. -/
structure ShutEvent where
  /-- Maintenance slot of its activity (R138). -/
  slot : Nat
  forced : Bool
  /-- Step 2, 3, 4, 6 or 7 of R139. -/
  step : Nat
  closeAt : Nat
  openAt : Nat
  /-- Output frames of the step so far, and frames accumulated. -/
  frames : Nat
  accum : Nat
  /-- ΔT and blade value of each accumulated frame (R140). -/
  samples : List (Int × Nat)
  /-- A held frame has been seen. -/
  any : Bool
  deriving DecidableEq, Repr

/-- The calibration of a head (R123 to R146). -/
structure LtHead where
  on : Bool
  /-- The words LT_HDh_CFG to LT_HDh_PIVOT that the head goes by until its next output frame, where a swap has changed them (R147); none where
  it goes by the live ones. -/
  cfg : List Nat
  region : Option Region
  ready : Option Region
  old : List Region
  /-- Noise promotions to carry into the build in progress: record, flag (R127). -/
  promoted : List (Nat × Nat)
  wsGen : Nat
  rebaseCount : Nat
  /-- A re-base is deferred and has been counted (R130). -/
  deferred : Bool
  /-- Fault 0x0006 has been written for this working set (R131). -/
  farSeen : Bool
  /-- The new serial for which a working set is to be reported (R132). -/
  report : Option Nat
  /-- A serial was reported while the head's calibration was not on: the search is still to be made (R132, log 199). -/
  search : Bool
  /-- The roller reference last formed (R136). -/
  ref : Option Int
  /-- SHUTTER regions that have come into force, and the targets of the last, for the anchor reset of each stream (R142). -/
  shutCount : Nat
  shutTargets : Option (List (Option Int))
  /-- DTIME from which the time to the next shutter event counts: the last commit, or the enable (R137). -/
  since : Nat
  /-- Housing probe at the last commit (R137). -/
  house : Option Nat
  due : Bool
  overdue : Bool
  shut : Option ShutEvent
  /-- Balance: corr and g (R145). -/
  corr : Int
  g : Nat
  /-- Window number of the last balance-limit record (R146). -/
  limitAt : Option Nat
  deriving DecidableEq, Repr

def LtHead.reset : LtHead := {
  on := false, cfg := [], region := none, ready := none, old := [], promoted := [], wsGen := 0, rebaseCount := 0, deferred := false, farSeen := false,
  report := none, search := false, ref := none, shutCount := 0, shutTargets := none, since := 0, house := none, due := false, overdue := false, shut := none, corr := 0, g := 16384, limitAt := none }

/-- A probe (R134, R135): newest accepted value, its paired DTIME [31:0], rejections in a row, whether its invalidity was reported, and the
max_age that the value is held to, in DRIVE ticks (R147). -/
structure Probe where
  value : Option Nat
  time : Nat
  rejects : Nat
  reported : Bool
  maxAge : Nat
  deriving DecidableEq, Repr

def Probe.reset : Probe := ⟨none, 0, 0, false, 0⟩

/-- Sums of a welt (R144): n, ΣL, ΣR, ΣL², ΣR², ΣLR. -/
structure WeltSums where
  n : Nat
  l : Nat
  r : Nat
  ll : Nat
  rr : Nat
  lr : Nat
  deriving DecidableEq, Repr

def WeltSums.reset : WeltSums := ⟨0, 0, 0, 0, 0, 0⟩

/-- The last-store subsystem beyond its registers. -/
structure LastStore where
  heads : SMap LtHead
  queue : List Build
  /-- The build in progress and the region it fills (R123). -/
  cur : Option (Build × Region)
  /-- Next bank of the allocation rotation (R384). -/
  rot : Nat
  /-- Banks that LS_RETIRE empties (R455). -/
  retiring : List Nat
  /-- The pool rule is broken (R122). -/
  poolLow : Bool
  probes : SMap Probe
  /-- Forced shutter events waiting: head, and the DTIME before which it is not tried again (R137, R138). -/
  forced : List (Nat × Nat)
  welts : SMap WeltSums
  /-- The words LT_BAL_CFG to LT_BAL_SPAN that head balance goes by until its next window, where a swap has changed them (R147); none where it
  goes by the live ones. -/
  bal : List Nat
  /-- Map rows of the balance window, windows so far, heads that spoil it (R144). -/
  winRows : Nat
  winNo : Nat
  spoiled : List Nat
  deriving DecidableEq, Repr

def LastStore.reset : LastStore := ⟨[], [], none, 0, [], false, [], [], [], [], 0, 0, []⟩

/-! ## Pixel pipelines (04) -/

/-- What identifies a frame in output headers (R67, R83, R103). -/
structure FrameId where
  seq : Nat
  settingsGen : Nat
  unitGen : Nat
  dtime : Nat
  wpos : Int
  sub : Nat
  /-- Bits [15:0] of tag word 7. -/
  flags : Nat
  identity : Nat
  unknown : Bool
  deriving DecidableEq, Repr

/-- The first frame of a pair, held (R89): its identity, table base, whether its hold is complete, the column of each line from which it
is fill, and the settings in force for its header. -/
structure Held where
  id : FrameId
  table : Nat
  complete : Bool
  fills : List Nat
  plGen : Nat
  cols : Nat
  deriving DecidableEq, Repr

/-- A pixel between stages 6 and 8 (R97 to R102): stage 6 output, record flags and pip rule, and its marks. -/
structure Px where
  y : Int
  flag : Nat
  pip : Nat
  fill : Bool
  single : Bool
  sat : Bool
  nolag : Bool
  rind : Bool
  deriving DecidableEq, Repr

/-- What a frame in progress is: held for a merge, output single, or merged with its held partner (R89). -/
inductive WorkKind where
  | hold | single | merged (e : Held)
  deriving DecidableEq, Repr

/-- Statistics of a frame in progress (R168 to R170): settings, block generation, and the sums. -/
structure StatSums where
  cfg : Nat
  base : Nat
  rows : Nat
  cols : Nat
  gen : Nat
  /-- WM_SRp_CFG and _BASE as they were at the frame's first line (R15). -/
  ring : Nat × Nat
  held : Bool
  selected : Nat
  under : Nat
  overFull : Nat
  bins : SMap Nat
  /-- Zone: count, sum, maximum. -/
  zones : SMap (Nat × Nat × Nat)
  deriving DecidableEq, Repr

/-- A tap of a frame in progress (R109): tap, whether it goes to a host ring, reserved bytes, the words so far, and PL_TAPt_CFG and _BASE as
they were at the frame's first line (R81). -/
structure TapRec where
  tap : Nat
  host : Bool
  bytes : Nat
  words : List Word
  cfg : Nat
  base : Nat
  deriving DecidableEq, Repr

/-- A frame in progress in a stream, with all that it latched (R82, R105). -/
structure Work where
  id : FrameId
  kind : WorkKind
  /-- Its own lines, for a replay frame (R108); none for a frame of the head port. -/
  own : Option (List HLine)
  cols : Nat
  blind : Nat
  rows : Nat
  blindBottom : Bool
  rindFirst : Nat
  rindCount : Nat
  /-- The 15 live words of the context. -/
  cfg : List Nat
  plGen : Nat
  wsGen : Nat
  region : Option Region
  /-- Provisional by geometry or for want of a region (R133). -/
  unity : Bool
  dT : Int
  ref : Option Int
  /-- The bytes of the table image, by address (R82, R84); nothing until the image has been loaded. -/
  image : SMap Byte
  /-- The blind targets of the state block (R82, R94). -/
  targets : List Int
  ks : List Int
  g : Int
  balG : Nat
  balO : Int
  /-- ε and reflected temperature of each column. -/
  zones : List (Nat × Nat)
  histOk : Bool
  takeover : Bool
  /-- Next line for stages 1 to 6, next line to leave. -/
  nextIn : Nat
  nextOut : Nat
  /-- Rows between stages 6 and 7. -/
  buf : List (Nat × List Px)
  /-- Sums of usable blind pixels by column, and of usable rind pixels (R94). -/
  blindSum : List (Int × Nat)
  rindSum : Int × Nat
  gHeld : Bool
  kHeld : Bool
  gLimited : Bool
  anySat : Bool
  /-- Noise promotions: record index, flag (R100). -/
  promo : List (Nat × Nat)
  /-- It is to be accumulated for a shutter event: blade value, array rows' scene counts, blind rows' corrected counts (R139, R140). -/
  blade : Option Nat
  accScene : List (Nat × List (Option Nat))
  accBlind : List (List (Option Int))
  taps : List TapRec
  stats : Option StatSums
  deriving DecidableEq, Repr

/-- A stream context beyond its registers (R80, R89, R97, R110, R111). -/
structure Ctx where
  /-- It carries its head; an enabled context that does not is standby or replay. -/
  active : Bool
  /-- It has taken over and its fault record is still to come (R110). -/
  arm : Bool
  /-- A handover is pending (R111). -/
  handover : Bool
  held : Option Held
  work : Option Work
  /-- The history is valid for the next frame (R97). -/
  hist : Bool
  /-- The next output frame sets takeover in its header (R110, R111). -/
  takeover : Bool
  /-- Sequence number of the last record of code 0x0007 (R106). -/
  lastLate : Option Nat
  /-- Head serial of the working set of the last output frame (R97). -/
  serial : Nat
  /-- LtHead.shutCount at the last output frame (R142). -/
  shutSeen : Nat
  deriving DecidableEq, Repr

def Ctx.reset : Ctx := ⟨false, false, false, none, none, false, false, none, 0, 0⟩

/-- A pipeline beyond its registers and contexts (R85, R104, R108, R109). -/
structure Pipe where
  faulted : Bool
  /-- Context whose line is next. -/
  cur : Option Nat
  /-- The stripe in progress: context, lines left. -/
  stripe : Option (Nat × Nat)
  /-- Contexts whose table images load, in the order of their latches. -/
  loading : List Nat
  /-- The table cache: by head, the base and the bytes of its image. -/
  cache : List (Nat × Nat × SMap Byte)
  /-- Replay frames submitted: context, address. -/
  replays : List (Nat × Nat)
  /-- Bytes reserved by frames in progress, by tap. -/
  reserved : SMap Nat
  /-- DTIME of its last progress (R112). -/
  last : Nat
  deriving DecidableEq, Repr

def Pipe.reset : Pipe := ⟨false, none, none, [], [], [], [], 0⟩

/-! ## Web map and statistics (06) -/

/-- What a pipeline sends to the map engine (R103, R24): a header with its line count, or what is left of a line of output words of an
array row, from column x. -/
inductive MapItem where
  | header (head : Nat) (words : List Nat)
  | line (head row x : Nat) (words : List Nat)
  deriving DecidableEq, Repr

/-- A statistics record that waits for its ring (R171, R172). -/
structure StatRec where
  head : Nat
  zone : Bool
  words : List Word
  /-- It has been counted in WM_SRp_STALL. -/
  waited : Bool
  /-- The settings of its ring that its frame took: WM_SRp_CFG and _BASE (R15). -/
  ring : Nat × Nat
  deriving DecidableEq, Repr

/-- A head at the map engine: frame stamps of its last header, the frame latched, and its front (R154, R159). -/
structure MapHead where
  prev : Option (Nat × Int)
  seq : Nat
  v : Int
  held : Bool
  prov : Bool
  wpos : Int
  /-- The live words of the head latched for the frame: CFG, GEOM, SPAN, SWEET, Y0, YPITCH, T0, DT (R173); and of its layer WM_CFG, CFG, X0,
  XPITCH (R15). -/
  cfg : List Nat
  /-- The loaded geometry table, none where an entry read uncorrectable (R174), and its base (R153). -/
  table : List (Option Int)
  loaded : Option Nat
  front : Option Int
  /-- Frame numbers of the last records of codes 0x0002 and 0x0005 (R174). -/
  aheadAt : Option Nat
  speedAt : Option Nat
  frames : Nat
  deriving DecidableEq, Repr

def MapHead.reset : MapHead := ⟨none, 0, 0, false, false, 0, [], [], none, none, none, none, 0⟩

/-- Samples of one head in one cell (R156): usable count, sum, excluded count, held and provisional marks. -/
structure CellHead where
  n : Nat
  sum : Nat
  ex : Nat
  held : Bool
  prov : Bool
  deriving DecidableEq, Repr

def CellHead.reset : CellHead := ⟨0, 0, 0, false, false⟩

/-- A layer of the map: rows open from k_first, their cells by (row, column, head), newest frame of each head per row, carried values
(R158 to R161). -/
structure Layer where
  on : Bool
  kFirst : Int
  cells : List ((Int × Nat × Nat) × CellHead)
  newest : List ((Int × Nat) × Nat)
  carried : SMap (Nat × Nat)
  /-- Position of the last row event of its generator (R160). -/
  event : Option Int
  /-- Origin and pitch that its grid follows. -/
  origin : Int
  pitch : Nat
  /-- The grid has restarted: rows up to this k are still to be finalised as forced, and the k_first, origin and pitch that follow (R160). -/
  drain : Option (Int × Int × Int × Nat)
  /-- Rows finalised, and their number at the last record of code 0x0001 (R160, R174). -/
  done : Nat
  forcedAt : Option Nat
  deriving DecidableEq, Repr

def Layer.reset : Layer := ⟨false, 0, [], [], [], none, 0, 0, none, 0, none⟩

/-- A map row on its way to bloom (R164, R165). -/
structure MapRow where
  layer : Nat
  k : Int
  words : List Nat
  deriving DecidableEq, Repr

/-- The map engine and the statistics units. -/
structure WebMap where
  queues : SMap (List MapItem)
  heads : SMap MapHead
  layers : SMap Layer
  /-- Zone of each array column of each head, 64 for none (R167). -/
  zoneList : SMap (List Nat)
  /-- Pipelines whose queue R158 stops. -/
  ahead : List Nat
  /-- Layers that wait for destination credit. -/
  wait : List Nat
  stats : SMap (List StatRec)
  /-- Beats in the tap queue of each pipeline, which fills while a record waits (R24, R172). -/
  tapQ : SMap Nat
  /-- The verification-row queue (R24). -/
  rows : List MapRow
  /-- WPOS at the swap that last changed each generator's origin or pitch (R160). -/
  gridAt : SMap Int
  deriving DecidableEq, Repr

def WebMap.reset : WebMap := ⟨[], [], [], [], [], [], [], [], [], []⟩

/-! ## Bloom (07) -/

/-- A window of a jet (R184, R185): its number, fires, dips, sums, and whether something made it invalid. -/
structure BvWindow where
  no : Nat
  fires : Nat
  dips : Nat
  s : Int
  se : Nat
  sx : Nat
  invalid : Bool
  deriving DecidableEq, Repr

/-- A fire whose rows are still to be scored: jet, centre row, the window it counts in, and whether it was entered in the expectation
store, or only counts in its window as late or ahead (R179, R184). -/
structure BvFire where
  jet : Nat
  kc : Int
  win : Option Nat
  entered : Bool
  deriving DecidableEq, Repr

/-- A jet (R186 to R190): grade, low, cause, fill, limit, whether the last window was invalid, trim, windows in progress oldest first, the
number of the last window begun, good probe windows in a row, and whether its missing fault has been written. -/
structure BvJet where
  grade : Nat
  low : Bool
  blocked : Bool
  fill : Bool
  limit : Bool
  invalid : Bool
  trim : Int
  wins : List BvWindow
  winNo : Nat
  goodProbes : Nat
  reported : Bool
  /-- The tick of the last change of trim or fill, with both as they were before that tick (R191). -/
  pub : Option (Nat × Int × Bool)
  deriving DecidableEq, Repr

def BvJet.reset : BvJet := ⟨0, false, false, false, false, false, 0, [], 0, 0, false, none⟩

/-- A window record that waits for its ring (R192): words, jet, grade, and whether HX_Rr_CNT_WAIT has counted its wait (R413). -/
structure BvRecord where
  words : List Word
  jet : Nat
  grade : Nat
  waited : Bool
  deriving DecidableEq, Repr

/-- A baseline row (R182): its start position and cells. -/
structure BaseRow where
  pos : Int
  cells : List Nat
  deriving DecidableEq, Repr

/-- The bloom unit beyond its registers. -/
structure Bloom where
  kNext : Int
  fires : List BvFire
  base : List BaseRow
  bias : Int
  segs : List (Option Int)
  jets : SMap BvJet
  out : List BvRecord
  /-- Verification rows scored, and verification rows taken. -/
  scored : Nat
  rows : Nat
  /-- Rows taken at the last record of code 0x0005, and rows scored at the last records of codes 0x0003 and 0x0004 by bank (R179, R196). -/
  nobaseAt : Option Nat
  lateAt : SMap (Option Nat)
  aheadAt : SMap (Option Nat)
  /-- The jet table that the published words read, and its last change: the tick, and what it was before (R191, log 72). -/
  tableAt : Option Nat
  tableWas : Option (Nat × Option Nat)
  deriving DecidableEq, Repr

def Bloom.reset : Bloom := ⟨0, [], [], 0, [], [], [], 0, 0, none, [], [], none, none⟩

/-! ## Valve banks, lace engines and bank links (08, 09, 10) -/

/-- A fire of a taken row (R203, R205, R210, R211), with the settings latched at the take event. -/
structure Fire where
  row : Nat
  ch : Nat
  /-- 0 normal, 1 probe, 2 fill. -/
  kind : Nat
  /-- Fills: the missing jet. -/
  missing : Nat
  pos : Int
  off : Int
  tol : Nat
  trim : Int
  gen : Nat
  entry : Nat
  imax : Nat
  dur : Nat
  thr : Nat
  /-- The boundary at which it was first due. -/
  due : Option Nat
  /-- What it waits for: 0 nothing yet, 1 the token, 2 the budget. -/
  cause : Nat
  deriving DecidableEq, Repr

/-- A made fire (R226, R238, R240): its start, WPOS, WP_SPEED and tracked delay there, and its record's marks. -/
structure Run where
  fire : Fire
  start : Nat
  wpos : Int
  v : Int
  od : Nat
  boostCut : Bool
  derated : Bool
  lateQuench : Bool
  hiFine : Nat
  /-- Deposit position and measured opening delay, formed when the dip is confirmed (R238). -/
  deposit : Option (Int × Nat)
  deriving DecidableEq, Repr

/-- Dip detector of a channel (R237): window open, armed, p and m with their sample times, the dip confirmed, whether the fire's first dip
is taken. -/
structure DipState where
  open_ : Bool
  armed : Bool
  p : Nat
  tp : Nat
  m : Nat
  tm : Nat
  /-- Depth and minimum time. -/
  found : Option (Nat × Nat)
  deriving DecidableEq, Repr

def DipState.reset : DipState := ⟨false, false, 0, 0, 0, 0, none⟩

/-- Coil model of a channel (R241 to R244). -/
structure Coil where
  on : Bool
  first : Bool
  tc : Int
  tb : Int
  res : Int
  q : Nat
  warn : Bool
  derate : Bool
  trip : Bool
  /-- Resistance check over a HOLD: frames since it began, n, on, Σv, Σi; mismatches in a row; reported. -/
  age : Nat
  n : Nat
  onCount : Nat
  sumV : Nat
  sumI : Nat
  mism : Nat
  mismSeen : Bool
  deriving DecidableEq, Repr

def Coil.reset : Coil := ⟨false, false, 0, 0, 1, 0, false, false, false, 0, 0, 0, 0, 0, 0, false⟩

/-- A channel (R227 to R236): phase kind (0 idle), target, band, watch; its switch; stream bits newest first; the boundary at which QUENCH
began to drive; the fire it makes; signals for its thread. -/
structure Chan where
  kind : Nat
  target : Nat
  band : Nat
  watch : Bool
  sw : Bool
  bits : List Bool
  quenchAt : Option Nat
  boostFrom : Option Nat
  run : Option Run
  /-- It runs in command form (R235), a release has come, a SIG has come. -/
  command : Bool
  released : Bool
  signal : Bool
  dip : DipState
  /-- A window has been open in this fire. -/
  watched : Bool
  /-- The fire's record is written with no dip while a window is still open: LC_CNT_NODIP waits for its close (R237). -/
  noDip : Bool
  odRej : Nat
  coil : Coil
  deriving DecidableEq, Repr

def Chan.reset : Chan := ⟨0, 0, 0, false, false, [], none, none, none, false, false, false, DipState.reset, false, false, 0, Coil.reset⟩

/-- What a lace thread does (R225, R233): a WAIT keeps its condition, level, time or limit boundary (0 for none), and the boundary of the
frame in which it was executed. -/
inductive LaceRun where
  | stopped | ready
  | wait (cond level until_ limit from_ : Nat)
  deriving DecidableEq, Repr

/-- A lace thread (R224). -/
structure LaceThread where
  pc : Nat
  a : List Int
  t : Bool
  z : Bool
  n : Bool
  run : LaceRun
  carried : Bool
  /-- Instructions since the last WAIT. -/
  since : Nat
  deriving DecidableEq, Repr

def LaceThread.reset : LaceThread := ⟨0, [0, 0, 0, 0], false, false, false, .stopped, false, 0⟩

/-- A pair in independent mode (R213): on, a close waits for budget, a close is held during a quench. -/
structure PairState where
  on : Bool
  close : Bool
  held : Bool
  deriving DecidableEq, Repr

def PairState.reset : PairState := ⟨false, false, false⟩

/-- A bank with the engine that serves it. -/
structure Bank where
  /-- 0 DISABLED, 1 ARMING, 2 READY, 3 FAULTED. -/
  state : Nat
  /-- The link is armed: READY at the next take event (R266). -/
  armed : Bool
  /-- Valid entries of the look-ahead: row, the 128 bits; and rows whose fetch found none: row, DTIME, uncorrectable (R202). -/
  look : List (Nat × Nat)
  missed : List (Nat × Nat × Bool)
  taken : Option Nat
  waiting : List Fire
  /-- The boost token: its channel, and the end of the guard once boost has ended (R207). -/
  token : Option (Nat × Option Nat)
  /-- Fill state of the bank's jets: channel to (count, turn is right); fill bits of the last words taken (R211). -/
  fillCount : SMap (Nat × Bool)
  fillOn : List Nat
  overflow : Bool
  /-- Fire records lost at a full queue (R24). -/
  lost : Nat
  under : Bool
  /-- Rows taken, and how many had been at the last record of each rate-limited code (R210, R212, R249). -/
  rowsTaken : Nat
  faultRows : SMap (Option Nat)
  records : List (List Nat)
  pairs : SMap PairState
  /-- Code memory, loaded, load under way, engine fault. -/
  code : SMap Word
  loaded : Bool
  engineFault : Bool
  threads : SMap LaceThread
  heldStart : Bool
  chans : SMap Chan
  supply : List Bool
  raised : List Bool
  /-- WPOS at the last 64 boundaries, newest first (R238). -/
  positions : List (Nat × Int)
  lastFrame : Nat
  lastTick : Nat
  ambSeen : Bool
  /-- All-off frames are sent while the spare loads (R217). -/
  allOff : Bool
  served : Bool
  /-- Gates of the next frame: bits [17:0]; whether it is a quench frame; a quench frame is due (R256, R259). -/
  gates : Nat
  quench : Bool
  quenchDue : Bool
  /-- A clear command waits until the link and the stage allow it (R215, R267). -/
  clearing : Bool
  /-- The tick of the last change of the bank's part in R188 (not independent, not faulted), with what it was before that tick (R191). -/
  okAt : Option (Nat × Bool)
  deriving DecidableEq, Repr

def Bank.reset : Bank := {
  state := 0, armed := false, look := [], missed := [], taken := none, waiting := [], token := none, fillCount := [], fillOn := [],
  overflow := false, lost := 0, under := false, rowsTaken := 0, faultRows := [], records := [], pairs := [], code := [], loaded := false, engineFault := false, threads := [],
  heldStart := false, chans := [], supply := [], raised := [], positions := [], lastFrame := 0, lastTick := 0, ambSeen := false, allOff := false,
  served := false, gates := 0, quench := false, quenchDue := false, clearing := false, okAt := none }

/-- The spare lace engine (R216 to R218). -/
structure Spare where
  /-- 0 idle, 1 loading, 2 serving, 3 faulted. -/
  state : Nat
  bank : Nat
  healthy : Bool
  rowsLost : Nat
  handover : Bool
  /-- Loaded and waiting for a quiet take event, or returning at one. -/
  ready : Bool
  returning : Bool
  /-- The code image loaded, and by channel tc, tb, tracked delay and limits as the save area gave them (R216, R247). -/
  code : SMap Word
  chans : List (Int × Int × Nat × Nat)
  deriving DecidableEq, Repr

/-- The spare passed its self-test in the cold reset (R223, R430). -/
def Spare.reset : Spare := ⟨0, 0, true, 0, false, false, false, [], []⟩

/-- A downlink command that waits for its acknowledgement (R264): type, sequence, payload bytes, DTIME of the first sending if it has begun. -/
structure LinkCmd where
  type : Nat
  seq : Nat
  payload : List Byte
  since : Option Nat
  deriving DecidableEq, Repr

/-- A receiver of an uplink lane (R255, R262, R266): running disparity (positive), the superframe position of the last frame, valid frames by
sampling phase in training, and the slow bits of the superframe in progress with whether one of its frames was invalid. -/
structure UpLane where
  rd : Bool
  pos : Option Nat
  clean : List Nat
  slow : List Bool
  spoiled : Bool
  deriving DecidableEq, Repr

def UpLane.reset : UpLane := ⟨false, none, List.replicate 8 0, [], false⟩

/-- An uplink frame of both lanes that waits for its boundary (R261): the stream bits of each lane, none for an invalid one. -/
structure UpFrame where
  boundary : Nat
  lane0 : Option Nat
  lane1 : Option Nat
  deriving DecidableEq, Repr

/-- A downlink frame (R254 to R256): the marker K28.y, the payload, and the 40 bits on the line, the first sent leading. -/
structure DownFrame where
  marker : Nat
  payload : Nat
  line : Nat
  deriving DecidableEq, Repr

/-- A bank link (R252 to R271). -/
structure BankLink where
  /-- The link is on, BL_CFG as a superframe start took it, and the swap that the next one brings into effect (R270). -/
  on : Bool
  cfg : Nat
  swapAt : Option Nat
  /-- As BL_STATUS: 0 off, 1 waiting, 2 training, 3 descriptor, 4 arming, 5 armed, 6 lost. -/
  state : Nat
  /-- DTIME at which this training began, and at which one that failed restarts. -/
  since : Nat
  retryAt : Option Nat
  phase0 : Nat
  phase1 : Nat
  run0 : Nat
  run1 : Nat
  lat : Nat
  r : Nat
  /-- Sampling phases from the trim engine that wait for the next uplink superframe start (R268). -/
  trimNext : Option (Nat × Nat)
  /-- Invalid frames in a row on each lane. -/
  bad0 : Nat
  bad1 : Nat
  /-- Descriptor bytes received by page, and the accepted descriptor. -/
  pages : SMap (List Byte)
  desc : Option (List Byte)
  stage : Nat
  temp : Nat
  flags : Nat
  chal : Nat
  acked : Nat
  seq : Nat
  cmds : List LinkCmd
  /-- DTIME of the last valid message. -/
  lastMsg : Nat
  /-- The receivers, frames that wait for their boundary, and messages received (none for a discarded one), oldest first (R261, R262). -/
  lane0 : UpLane
  lane1 : UpLane
  inbox : List UpFrame
  msgs : List (Option (List Byte))
  /-- The message of the superframe that goes down, the transmitter's running disparity, the frame in progress, and whether it is a quench
  frame (R254 to R259, R262). -/
  out : List Byte
  txRd : Bool
  down : Option DownFrame
  quenchSent : Bool
  deriving DecidableEq, Repr

def BankLink.reset : BankLink := {
  on := false, cfg := 0, swapAt := none, state := 0, since := 0, retryAt := none, phase0 := 0, phase1 := 0, run0 := 0, run1 := 0, lat := 0, r := 0, trimNext := none, bad0 := 0, bad1 := 0,
  pages := [], desc := none, stage := 0, temp := 0, flags := 0, chal := 0, acked := 0, seq := 0, cmds := [], lastMsg := 0,
  lane0 := UpLane.reset, lane1 := UpLane.reset, inbox := [], msgs := [], out := [], txRd := false, down := none, quenchSent := false }

/-! ## Precision analogue inputs (11) -/

/-- What a converter's result queue holds (R285, R286): a pair for an origin's buffer, or the end of a sequence. -/
inductive AdcOut where
  | pair (origin word stamp : Nat) (result : Bool)
  | seqEnd
  deriving DecidableEq, Repr

/-- A converter (R275 to R296). -/
structure Adc where
  running : Bool
  /-- Entries still to run, the current one first: origin and entry. -/
  items : List (Nat × Nat)
  /-- Conversions done in this pass, the sum of the averaged ones, the first pass's value, and the marks so far. -/
  count : Nat
  sum : Int
  first : Option Int
  overMark : Bool
  settling : Bool
  /-- The next result carries the sequence start bit. -/
  start : Bool
  pending : Bool
  /-- The delay unit times a trigger until this tick. -/
  delay : Option Nat
  /-- Emitted triggers that it has not seen, oldest first; true for a common one (R26). -/
  sent : List Bool
  /-- A calibration waits; one runs since; those completed since reset. -/
  calWanted : Bool
  rolling : Bool
  calFrom : Option Nat
  cals : Nat
  faulted : Bool
  /-- It has faulted and had its unit reset: it stays out until a self-calibration (R294). -/
  needCal : Bool
  out : Bool
  /-- Its calibration is over, and its entries return at the partner's next boundary. -/
  back : Bool
  /-- Entries that the partner runs, and the converter it hosts. -/
  moved : List Nat
  guest : Option Nat
  /-- Markers of type 0x00 and 0x02 that wait for the next result: the DTIME of the change. -/
  genMark : Option Nat
  moveMark : Option (Nat × Nat)
  queue : List AdcOut
  /-- Pairs in the buffer since AN_Cx_WR was 0. -/
  held : Nat
  /-- Sequences run, the sequence of the last record by code, and cases since the last record of codes 0x0001 and 0x0007. -/
  seqs : Nat
  recAt : SMap (Option Nat)
  overruns : Nat
  laps : Nat
  /-- The mask of the two bandgap cells that its reference uses (R287). -/
  pair : Nat
  /-- The codes of the bandgap cells in force in it; none before the first tick (R457, R459). -/
  cells : List Int
  deriving DecidableEq, Repr

def Adc.reset : Adc := {
  running := false, items := [], count := 0, sum := 0, first := none, overMark := false, settling := false, start := false, pending := false,
  delay := none, sent := [], calWanted := false, rolling := false, calFrom := none, cals := 0, faulted := false, needCal := false, out := false, back := false,
  moved := [], guest := none, genMark := none, moveMark := none, queue := [], held := 0, seqs := 0, recAt := [], overruns := 0, laps := 0, pair := 3, cells := [] }

/-- The shared analogue units (R282, R287, R288): when each reference is ready, whether no pair of bandgap cells agrees, the common delay unit,
sources at compliance, and whether this run's record has been written. -/
structure Analogue where
  intAt : Option Nat
  extAt : Option Nat
  noPair : Bool
  delay : Option Nat
  comply : List Bool
  told : List Bool
  deriving DecidableEq, Repr

def Analogue.reset : Analogue := ⟨none, none, false, none, [false, false], [false, false]⟩

/-! ## Serial ports and general-purpose pins (12) -/

/-- A transfer of a master port (R301, R302): bits, form, keep the select, four lines, bytes shifted, retries made, last status byte. -/
structure SpTransfer where
  bits : Nat
  dir : Nat
  hold : Bool
  quad : Bool
  pos : Nat
  retries : Nat
  status : Nat
  /-- Bits sent when it last paused, and the DTIME from which it shifts on. -/
  bit0 : Nat
  from_ : Nat
  deriving DecidableEq, Repr

/-- Why a transfer does not shift (R302, R304, R305). -/
inductive SpPause where
  | none
  /-- A TX byte or RX room is missing. -/
  | fifo
  /-- Ready is inactive since this DTIME. -/
  | ready (since : Nat)
  /-- The transfer runs again at this DTIME. -/
  | retry (at_ : Nat)
  deriving DecidableEq, Repr

/-- A master port beyond its registers (R300 to R310). -/
structure SerialPort where
  tx : List Byte
  rx : List Byte
  cur : Option SpTransfer
  next : Option SpTransfer
  pause : SpPause
  /-- A bound select is asserted. -/
  select : Bool
  /-- The level of its ready input behind the synchroniser. -/
  ready : Bool
  /-- Transfers run; the transfer at the last record of each code. -/
  done : Nat
  recAt : SMap (Option Nat)
  deriving DecidableEq, Repr

def SerialPort.reset : SerialPort := ⟨[], [], none, none, .none, false, false, 0, []⟩

/-- Execute-in-place on SP0 (R308 to R310): prefetch lines, most recently used first; the line being read and whether it is a prefetch;
continuous mode. -/
structure Xip where
  lines : List (Nat × List Byte)
  cur : Option (Nat × Bool)
  cont : Bool
  /-- The lines of misses that wait for the port, oldest first, and whether the queued direct transfer was asked for before them (R310). -/
  wait : List (Nat × Bool)
  deriving DecidableEq, Repr

def Xip.reset : Xip := ⟨[], none, false, []⟩

/-- The slave port (R311 to R314). -/
structure SpsPort where
  /-- The select is active. -/
  select : Bool
  status : Nat
  /-- The data that STATUS and FAULT would return, as they stood at the select's fall. -/
  mirror : List Byte
  error : Bool
  armed : Option Nat
  transactions : Nat
  recAt : Option Nat
  deriving DecidableEq, Repr

def SpsPort.reset : SpsPort := ⟨false, 0, [], false, none, 0, none⟩

/-! ## Tasks, Ercel and admission (13, 14) -/

/-- The flags of a task and its saturation count (R322, R355). -/
structure Flags where
  n : Bool
  z : Bool
  c : Bool
  v : Bool
  satn : BitVec 16
  deriving DecidableEq, Repr

/-- States of a context (R356). -/
inductive TaskState where
  | free | idle | ready | running | suspended | faulted
  deriving DecidableEq, Repr

/-- What a suspended task waits for, and the DTIME of its timeout (R337, R339, R341, R348). -/
inductive TaskWait where
  | none
  | put (q : Nat) (w : Word) (until_ : Option Nat)
  | get (q rd : Nat) (until_ : Option Nat)
  | event (rd : Nat) (until_ : Option Nat)
  | admission (rd : Nat)
  | lock (rd bank rank : Nat)
  deriving DecidableEq, Repr

/-- A TASK item (R366): context, core, alternate core, event of an event release, T, D, C, phase. -/
structure TaskItem where
  ctx : Nat
  core : Nat
  alt : Nat
  event : Option Nat
  t : Nat
  d : Nat
  c : Nat
  phase : Nat
  deriving DecidableEq, Repr

/-- A lock held (R341, R342): bank, rank, DTIME of its grant, accesses made, buffered writes (address, bytes, value) oldest first, and
its break: 0 whole, 1 preempted, 2 limit. -/
structure Lock where
  bank : Nat
  rank : Nat
  since : Nat
  accesses : Nat
  writes : List (Nat × Nat × Nat)
  broken : Nat
  deriving DecidableEq, Repr

/-- A task context (R355), and what the scheduler keeps beside it. -/
structure TaskCtx where
  /-- g1 to g15; g0 has no storage (R322). -/
  g : SMap Word
  pc : Word
  flg : Flags
  tmo : Word
  evg : Nat
  evm : Word
  evp : Word
  evrec : Word
  evtime : Word
  evcnt : Word
  /-- The holding register of R9, while the task is switched out (R324). -/
  hold : Option Word
  /-- Last-delivered event of the rotation (R339). -/
  last : Nat
  state : TaskState
  core : Nat
  alt : Nat
  admitted : Bool
  autoRestart : Bool
  flagged : Bool
  demoted : Bool
  /-- CYC up to the last switch (R323). -/
  cyc : Nat
  dln : Nat
  fpc : Word
  faddr : Word
  entry : Word
  releases : Nat
  wait : TaskWait
  /-- The item that governs its releases; kept to the end of the release in progress when its contract ends (R368). -/
  item : Option TaskItem
  /-- Next periodic release (R358). -/
  nextRel : Nat
  /-- Release time of the last release that fell due (R358). -/
  lastRel : Option Nat
  /-- Occurrences whose event releases have not fallen due (R358). -/
  evDue : List Nat
  /-- Release time of the pending release (R359). -/
  pendAt : Option Nat
  /-- DTIME at which the flagged release is aborted (R362, R380). -/
  graceAt : Option Nat
  /-- Releases at the last record of each code 0x0002 to 0x0005 (R362). -/
  recAt : List (Nat × Nat)
  /-- A refused DST on its way: its address, and whether it has reached the core (R335). -/
  refused : Option (Nat × Bool)
  /-- Its broken locks while it is switched out, newest first (R342 to R344). -/
  locks : List Lock
  deriving DecidableEq, Repr

def Flags.reset : Flags := ⟨false, false, false, false, 0⟩

def TaskCtx.reset : TaskCtx := {
  g := [], pc := 0, flg := Flags.reset, tmo := 0, evg := 0, evm := 0, evp := 0, evrec := 0, evtime := 0, evcnt := 0, hold := none,
  last := 0, state := .free, core := 0, alt := 0, admitted := false, autoRestart := false, flagged := false, demoted := false, cyc := 0,
  dln := 0, fpc := 0, faddr := 0, entry := 0, releases := 0, wait := .none, item := none, nextRel := 0, lastRel := none, evDue := [],
  pendAt := none, graceAt := none, recAt := [], refused := none, locks := [] }

/-- A DMA descriptor (R349); a post is its n. -/
structure DmaDesc where
  src : Nat
  dst : Nat
  len : Nat
  srcSpace : Nat
  dstSpace : Nat
  srcCore : Nat
  dstCore : Nat
  post : Option Nat
  done : Nat
  tag : Nat
  deriving DecidableEq, Repr

/-- A task core (R360 to R363, R380). -/
structure Core where
  /-- The context it holds. -/
  ctx : Option Nat
  /-- DTIME since which it holds it, and since which TK_COREk_BUSY has not counted (R380). -/
  since : Nat
  busyFrom : Nat
  /-- Its slice in CORE cycles (R361, R380). -/
  slice : Nat
  /-- DTIME of the last instruction it retired (R363). -/
  retired : Nat
  service : Bool
  faulted : Bool
  /-- g1 to g15 of its context as last saved (R363). -/
  saved : SMap Word
  /-- CORE_OUT holds the core, for this test context alone (R445). -/
  out : Option Nat
  /-- Locks held, newest first (R341). -/
  locks : List Lock
  dma : List DmaDesc
  deriving DecidableEq, Repr

def Core.reset : Core := ⟨none, 0, 0, 0, 0, true, false, [], none, [], []⟩

/-- The scheduler's record of an event (R338). -/
structure EventRec where
  word : Word
  dtime : Nat
  count : Nat
  deriving DecidableEq, Repr

def EventRec.reset : EventRec := ⟨0, 0, 0⟩

/-- A task queue (R364): words appended and removed since it was bound. -/
structure TaskQueue where
  bound : Bool
  producer : Nat
  consumer : Nat
  depth : Nat
  put : Nat
  got : Nat
  deriving DecidableEq, Repr

def TaskQueue.reset : TaskQueue := ⟨false, 0, 0, 0, 0, 0⟩

/-- An item of a contract (R366). -/
inductive Item where
  | task (i : TaskItem)
  /-- Head, stream context, pipeline, standby context on the other pipeline, minimum spacing. -/
  | head (h sc p : Nat) (standby : Option Nat) (spacing : Nat)
  | layer (l : Nat)
  | bloom
  | bank (b : Nat)
  /-- Converter, or 4 for the common source; trigger period. -/
  | converter (x period : Nat)
  | fabric (b rate : Nat)
  | link (l inb outb : Nat)
  deriving DecidableEq, Repr

/-- A contract held: handle, items, and the snapshot of contract-bound fields: register, mask, value (R365, R367). -/
structure Contract where
  handle : Nat
  items : List Item
  snap : List (Nat × Nat × Nat)
  deriving DecidableEq, Repr

/-- A request at the admission unit (R348, R369): a task's, with its core, whether it submits a contract, and its operand; or the
maintenance ledger's for an activity slot. -/
inductive AdmRequest where
  | task (c k : Nat) (submit : Bool) (arg : Word)
  | ledger (slot : Nat)
  deriving DecidableEq, Repr

/-- Tasks, contracts and admission. -/
structure Tasks where
  ctxs : SMap TaskCtx
  cores : SMap Core
  /-- The best-effort context that last had a core (R361). -/
  rot : Nat
  evTab : SMap EventRec
  queues : SMap TaskQueue
  requests : List AdmRequest
  /-- By slot: AM_HANDLEh shows slot h (R380). -/
  contracts : List (Nat × Contract)
  nextHandle : Nat
  /-- TK_CMDRES of each reader (R357). -/
  cmdRes : List (Reader × Nat)
  deriving DecidableEq, Repr

def Tasks.reset : Tasks := ⟨[], [], 0, [], [], [], [], 1, []⟩
/-! ## The fabric (15) -/

/-- A requester at a target of the crossbar (R392, R393): its loss count, the first CORE cycle of the target at which it may present
again, losses in a row. -/
structure Loss where
  k : Nat
  from_ : Nat
  row : Nat
  deriving DecidableEq, Repr

def Loss.reset : Loss := ⟨0, 0, 0⟩

/-- The credits of a requester at a target (R394): write beats it has presented that the target has not written, and reads presented
and not granted. -/
structure Credit where
  writes : Nat
  reads : Nat
  deriving DecidableEq, Repr

def Credit.reset : Credit := ⟨0, 0⟩

/-- A target of the crossbar (R391): CORE cycles counted by its grants, requester last granted at each rank, and guarded. -/
structure Target where
  cycle : Nat
  last : SMap Nat
  guarded : Nat
  deriving DecidableEq, Repr

def Target.reset : Target := ⟨0, [], 14⟩

/-- A row of a memory bank as the scrubber sees it: bank 0 to 15 of frame memory, 16 to 31 of the last store (R387, R389). -/
structure RowErr where
  bank : Nat
  row : Nat
  ce : Nat
  ue : Bool
  deriving DecidableEq, Repr

/-- The fabric beyond its registers. -/
structure Fabric where
  /-- Frame-memory words of 8 bytes, by address, and last records that read uncorrectable (R386, R387). -/
  poisonFrame : List Nat
  poisonLast : List Nat
  /-- Cores whose LOCK waits, in order of arrival (R397). -/
  waiters : List Nat
  /-- Banks with the abandoned flag (R400). -/
  abandoned : List Nat
  /-- Write beats held back by a lock, oldest first, with their requester; a DMA engine is 16 + core (R394, R395). -/
  held : List (Nat × List MemWrite)
  /-- By 17 × requester + target (R392). -/
  loss : SMap Loss
  targets : SMap Target
  /-- The unit of a requester last granted a beat, by 17 × requester + target (R390). -/
  turns : SMap Nat
  /-- Credits taken, by 17 × requester + target, and slots reserved for responses by each requester (R394). -/
  credits : SMap Credit
  slots : SMap Nat
  rows : List RowErr
  /-- Spare rows used of each bank (R389). -/
  spares : SMap Nat
  /-- Of these, the ones that the factory repair maps use (R430, R442). -/
  factory : SMap Nat
  /-- DTIME of the next patrol line, and lines read (R388). -/
  patrol : Nat
  lines : Nat
  /-- DTIME of the last record, by unit × 16 + code (R402). -/
  recAt : SMap (Option Nat)
  /-- Frame-memory banks retired, with the bank to which their addresses decode (R454). -/
  retired : List (Nat × Nat)
  /-- The bank being retired and its destination, while writes are mirrored (R454). -/
  mirror : Option (Nat × Nat)
  deriving DecidableEq, Repr

def Fabric.reset : Fabric := ⟨[], [], [], [], [], [], [], [], [], [], [], [], [], 0, 0, [], [], none⟩

/-! ## Host attachment (16) -/

/-- An entry of an MSI-X table (R407, R416): message address and data, and its mask bit. -/
structure MsixEntry where
  addr : Nat
  data : Word
  masked : Bool
  deriving DecidableEq, Repr

def MsixEntry.reset : MsixEntry := ⟨0, 0, true⟩

/-- A host link: state as HX_Ll_STATUS codes it, rate code, D3hot, lanes repaired, DTIME at which it left active (R405, R406, R417). -/
structure HostLink where
  state : Nat
  rate : Nat
  d3hot : Bool
  repaired : Nat
  left : Option Nat
  /-- The MSI-X table, and the vectors of the pending bit array (R407, R416). -/
  msix : SMap MsixEntry
  pend : List Nat
  /-- Messages of unmasked vectors that wait while the link carries no requests, oldest first (R406, R416). -/
  later : List Nat
  deriving DecidableEq, Repr

def HostLink.reset : HostLink := ⟨0, 0, false, 0, none, [], [], []⟩

/-- A host ring beyond its registers (R411 to R419). -/
structure HostRing where
  /-- The link it uses. -/
  link : Nat
  stopped : Bool
  /-- Records and write-backs not yet confirmed, oldest first: offset and words (empty for a write-back alone), write-back words (R418). -/
  unconf : List (Nat × List Word × List Word)
  /-- The zero-length read outstanding confirms this many of them. -/
  reading : Option Nat
  /-- Fault 0x0009 has been written since the enable (R413). -/
  bigSeen : Bool
  /-- DTIME of its last record of code 0x0004 (R423). -/
  lastFault : Option Nat
  /-- The failed link whose unconfirmed writes are repeated once the new link carries requests (R406, R418). -/
  repeat_ : Option Nat
  deriving DecidableEq, Repr

def HostRing.reset : HostRing := ⟨0, false, [], none, false, none, none⟩

/-- A record on its way to a host ring (R413): ring, words, and what its unit does once it has been written: events raised, with their
arguments, and a counter (R172, R192). -/
structure RingRec where
  ring : Nat
  words : List Word
  events : List (Nat × Nat)
  count : Option Nat
  deriving DecidableEq, Repr

/-- Host attachment beyond its registers. -/
structure HostUnit where
  links : SMap HostLink
  rings : SMap HostRing
  /-- Records on their way to a ring, oldest first. -/
  recs : List RingRec
  /-- The loader window is open (R409). -/
  loader : Bool
  /-- Feature window: 0 open, 1 committed, 2 timed out, 3 closed by a task start (R420). -/
  window : Nat
  openAt : Nat
  firstActive : Option Nat
  xipStart : Option Nat
  accept : SMap Word
  /-- Memory requests of the hosts that wait for the end of a warm reset, oldest first (R432). -/
  waiting : List Instr
  deriving DecidableEq, Repr

def HostUnit.reset : HostUnit := ⟨[], [], [], true, 0, 0, none, none, [], []⟩

/-! ## Power, clocks, resets and pins (17) -/

/-- Where the device stands between supplies and reset complete (R426 to R432). -/
inductive Phase where
  /-- A supply is out of range. -/
  | off
  /-- A cold reset runs. -/
  | cold
  /-- A warm reset runs, with its cause (R428). -/
  | warm (cause : Nat)
  /-- Reset complete (R430 step 7). -/
  | running
  deriving DecidableEq, Repr

/-- A unit reset that runs: the unit identifier with its element cleared (R434). -/
structure UnitReset where
  unit : Nat
  deriving DecidableEq, Repr

/-- What the causes of a warm reset look at, as the reset found it: other causes of its CORE cycle still count (R429). -/
structure WarmFrom where
  key : Option (Reader × Nat)
  wdog : Word
  wdogFrom : Nat
  flrWarm : Bool
  deriving DecidableEq, Repr

/-- Global control: subsystem 0 and the pins' release (R426 to R444). -/
structure Power where
  phase : Phase
  /-- CORE, PERI and DRIVE PLLs locked (R444). -/
  core : Bool
  peri : Bool
  drive : Bool
  /-- Lock attempts of each PLL (R430, R441). -/
  attempts : List Nat
  fuseErr : Bool
  /-- Bit i: fuse area i failed its check (R441, R442). -/
  fuseBad : BitVec 4
  /-- The unit serial number and its check byte as the last cold reset read them from the fuses (R437). -/
  serial : Dword
  check : Byte
  selftest : Bool
  /-- Boot source of the last cold reset: GP19 (R438). -/
  strap : Bool
  bootValid : Bool
  bootFallback : Bool
  cause : Nat
  warmCount : Nat
  /-- DTIME of the cause of the last warm reset: causes of one CORE cycle make one warm reset (R429). -/
  warmAt : Nat
  warmFrom : Option WarmFrom
  /-- First key of GL_RST: the writer and its DTIME (R428). -/
  firstKey : Option (Reader × Nat)
  /-- DTIME at which the watchdog's count started (R444). -/
  wdogFrom : Nat
  urst : Option UnitReset
  /-- GL_URST_STAT: code and unit (R443). -/
  urstStat : Nat
  urstUnit : Nat
  /-- Pin releases as GL_PIN_STATE0 and GL_PIN_STATE1 show them (R436). -/
  rel0 : Word
  rel1 : Word
  /-- DTIME of the last write to a hold register, and the pins held in its CORE cycle, by register (R436). -/
  holdAt : Nat
  hold0 : Word
  hold1 : Word
  deriving DecidableEq, Repr

/-- At reset complete after power-on under host boot (R430, R438). -/
def Power.reset : Power :=
  ⟨.running, true, true, true, [1, 1, 1], false, 0, Config.fuseSerial, Config.fuseCheck, true, false, false, false, 1, 0, 0, none, none, 0, none, 0, 0, 0, 0, 0, 0, 0⟩

/-! ## Service, trim and test access (18) -/

/-- A slot of the maintenance ledger (R445 to R449): state and cause as SV_Aa_STAT codes them, step and answer; the gap it waited for has
come; kind, target and second target of its activity; the next line of an FM_RETIRE copy; whether the shutter planner requested it. -/
structure Slot where
  state : Nat
  cause : Nat
  step : Nat
  code : Nat
  gapDone : Bool
  kind : Nat
  target : Nat
  second : Nat
  line : Nat
  planner : Bool
  deriving DecidableEq, Repr

def Slot.reset : Slot := ⟨0, 0, 0, 0, false, 0, 0, 0, 0, false⟩

/-- The trim engine (R457, R459): the newest code of every element in the order of a set's bytes (none before the first tick), and the DTIME of
the last tick. -/
structure Trim where
  codes : List Int
  /-- Bandgap pair chosen, waiting for SEQUENCE of each converter (R287). -/
  pair : Nat × Nat
  last : Nat
  /-- Sensors excluded. -/
  out : List Nat
  /-- Termination code of each lane as chosen, by 5 × head + lane (0 to 3 data, 4 clock), and in force since its head's last frame blanking;
  0 before the first tick (R457). -/
  terms : SMap Nat
  termIn : SMap Nat
  /-- Level code of each excitation source in force, and its cells replaced by spares, chosen and in force (R457, R459). -/
  levels : SMap Int
  cellWait : SMap Nat
  cellIn : SMap Nat
  deriving DecidableEq, Repr

def Trim.reset : Trim := ⟨[], (0, 1), 0, [], [], [], [], [], []⟩

/-- The TAP (R465): instruction, and whether the first RESET key has come. -/
structure Tap where
  ir : Nat
  key : Bool
  deriving DecidableEq, Repr

def Tap.reset : Tap := ⟨1, false⟩
/-! ## The device -/

def Regs.reset : Regs := ⟨[], [], [], [], []⟩
def FaultLog.reset : FaultLog := ⟨[], 0, [], 0, false, none⟩

/-- Everything but the queue, the clock and the memories. -/
structure Dev where
  regs : Regs
  /-- MODEL ONLY: how many free values have been taken (log 1). -/
  free : Nat
  /-- Occurrences raised and not yet at the scheduler (R338). -/
  ev : List EventOcc
  flt : FaultLog
  /-- MODEL ONLY: what was sent to the outside, newest first (log 2). -/
  sent : List Sent
  pw : Power
  web : Web
  hp : SMap HeadPort
  pl : SMap Ctx
  pipes : SMap Pipe
  wm : WebMap
  bv : Bloom
  vb : SMap Bank
  spare : Spare
  bl : SMap BankLink
  /-- Safe-stop is active (R314). -/
  safe : Bool
  an : SMap Adc
  ana : Analogue
  sp : SMap SerialPort
  xip : Xip
  sps : SpsPort
  lt : LastStore
  tk : Tasks
  fab : Fabric
  hx : HostUnit
  slots : SMap Slot
  trim : Trim
  tap : Tap
  deriving DecidableEq, Repr

def Dev.reset : Dev := {
  regs := Regs.reset, free := 0, ev := [], flt := FaultLog.reset, sent := [], pw := Power.reset, web := Web.reset, hp := [], pl := [], pipes := [], wm := WebMap.reset, bv := Bloom.reset, vb := [], spare := Spare.reset, bl := [], safe := false, an := [], ana := Analogue.reset, sp := [], xip := Xip.reset, sps := SpsPort.reset, lt := LastStore.reset, tk := Tasks.reset,
  fab := Fabric.reset, hx := HostUnit.reset, slots := [],
  trim := Trim.reset, tap := Tap.reset }

/-- The state of the block: the commands that wait, first in first out, the clock, the memories and the device. -/
structure State where
  pending : List Instr
  clock : Clock
  mem : Mem
  dev : Dev
  deriving DecidableEq, Repr

def Clock.reset : Clock := ⟨0, true, 0, 0⟩
def Mem.reset : Mem := ⟨[], [], []⟩

/-- The machine right after reset: reset complete after power-on (R430 step 7), under host boot, nothing waiting. -/
def State.reset : State := { pending := [], clock := Clock.reset, mem := Mem.reset, dev := Dev.reset }

end Sys2Proof.Machine
end

