-- ==== Sys2Proof/Machine/Ops.lean ====
section
/-! DEFINITION. Machine/Ops.lean: the shared operations: how a command acts on the state, numbers and fields, registers, counters,
free values, memories, fault records (R460, R461), events with the outputs that mirror them (R30, R47, R48, R489). -/
namespace Sys2Proof.Machine

/-- What a meaning answers. -/
abbrev Result := Host.Outcome State Fault Refusal

/-! ## How a command acts on the state -/

/-- The copies of DTIME and WPOS that a unit sees (R27). -/
def State.now (s : State) : Now := ⟨s.clock.dtime, s.clock.wpos, s.clock.frac⟩

/-- Reset is complete: every unit works (R430 step 7). -/
def State.running (s : State) : Bool := decide (s.dev.pw.phase = .running)

/-- DTIME has come to `t` (a row that is due at a time happens then; log 3). It never goes back, and stands while the DRIVE PLL is out. -/
def Clock.reach (c : Clock) (t : Nat) : Clock := if c.drive then { c with dtime := max c.dtime t } else c

/-- `dt` DRIVE ticks pass (R31). -/
def Clock.pass (c : Clock) (dt : Nat) : Clock := if c.drive then { c with dtime := c.dtime + dt } else c

def State.reach (s : State) (t : Nat) : State := { s with clock := s.clock.reach t }
def State.pass (s : State) (dt : Nat) : State := { s with clock := s.clock.pass dt }

/-- A command that acts on the device alone, while it runs. -/
def State.act (s : State) (f : Now → Dev → Dev) : Result :=
  .next (if s.running then { s with dev := f s.now s.dev } else s)

/-- A command that acts on the device and reads the memories. -/
def State.actMem (s : State) (f : Now → Mem → Dev → Dev) : Result :=
  .next (if s.running then { s with dev := f s.now s.mem s.dev } else s)

/-- A row that is due at a time: DTIME comes to that time, and the row happens (log 3); where none is due, nothing changes. -/
def State.actDue (s : State) (due : Now → Dev → Option Nat) (f : Now → Dev → Dev) : Result :=
  .next (if s.running then
    match due s.now s.dev with
    | some t => { s.reach t with dev := f (s.reach t).now s.dev }
    | none => s
  else s)

/-- A memory request of a host (R432): in a warm reset it waits for its end. -/
def State.fromHost (s : State) (i : Instr) (r : Result) : Result :=
  match s.dev.pw.phase with
  | .warm _ => .next { s with dev := { s.dev with hx := { s.dev.hx with waiting := s.dev.hx.waiting ++ [i] } } }
  | _ => r

/-- A request of any sender: one of a host may have to wait. -/
def State.fromSender (s : State) (who : Reader) (i : Instr) (r : Result) : Result :=
  match who with
  | .link _ => s.fromHost i r
  | _ => r

/-! ## Numbers and fields -/

/-- Bits [hi:lo] of a number (R2). -/
def nfld (v hi lo : Nat) : Nat := v / 2 ^ lo % 2 ^ (hi + 1 - lo)

/-- Bit i of a number. -/
def nbit (v i : Nat) : Bool := v.testBit i

/-- A w-bit two's complement number. -/
def sgn (w v : Nat) : Int := (BitVec.ofNat w v).toInt

/-- The w low bits of an integer, two's complement. -/
def unsgn (w : Nat) (v : Int) : Nat := (BitVec.ofInt w v).toNat

/-- Clamp to a range. -/
def clampI (lo hi v : Int) : Int := max lo (min hi v)

/-- A Bool as a number. -/
def b2n (b : Bool) : Nat := if b then 1 else 0

/-- Arithmetic shift right of an integer: division rounded down. -/
def sar (v : Int) (n : Nat) : Int := v / (2 ^ n : Nat)

/-- A unit identifier (R12). -/
def uid (sub unit el : Nat) : Nat := 2048 * sub + 32 * unit + el

/-- The bytes of a word, least significant first (R2). -/
def leBytes (n v : Nat) : List Byte := (List.range n).map (fun i => BitVec.ofNat 8 (v / 2 ^ (8 * i)))

/-- A number from bytes, least significant first (R2). -/
def leNat : List Byte → Nat
  | [] => 0
  | b :: bs => b.toNat + 256 * leNat bs

/-! ## Memories -/

/-- What an unlisted byte reads as: memory is zero after the self-test of a cold reset (R430, R433). -/
def memDefault : Byte := 0
/-- What an unlisted last record reads as (R430, R433). -/
def lastDefault : Dword := 0

def Mem.frameByte (m : Mem) (a : Nat) : Byte := SMap.get memDefault m.frame a
def Mem.locByte (m : Mem) (a : Nat) : Byte := SMap.get memDefault m.loc a
def Mem.lastRec (m : Mem) (r : Nat) : Dword := SMap.get lastDefault m.last r

/-- The number held in n bytes of frame memory at a. -/
def Mem.frameNat (m : Mem) (a n : Nat) : Nat := leNat ((List.range n).map (fun i => m.frameByte (a + i)))
/-- The number held in n bytes of local memory at a. -/
def Mem.locNat (m : Mem) (a n : Nat) : Nat := leNat ((List.range n).map (fun i => m.locByte (a + i)))

/-- Bytes of frame memory, 48 MiB (R325, R382). -/
def frameBytes : Nat := 48 * 2 ^ 20

/-- Write one byte or record, keeping the canonical form; a write outside the memory changes nothing (log 95). -/
def Mem.write (m : Mem) : MemWrite → Mem
  | .frame a b => if a < frameBytes then { m with frame := SMap.set memDefault m.frame a b } else m
  | .loc a b => if a < 2 ^ 20 then { m with loc := SMap.set memDefault m.loc a b } else m
  | .last r v => if r < 16 * 983040 then { m with last := SMap.set lastDefault m.last r v } else m

/-- Writes in order. -/
def Mem.writes (m : Mem) (l : List MemWrite) : Mem := l.foldl Mem.write m

/-- The writes that put the n low bytes of a number into frame memory at a. -/
def frameWrites (a n v : Nat) : List MemWrite :=
  (List.range n).map (fun i => .frame (a + i) (BitVec.ofNat 8 (v / 2 ^ (8 * i))))
/-- The writes that put the n low bytes of a number into local memory at a. -/
def locWrites (a n v : Nat) : List MemWrite :=
  (List.range n).map (fun i => .loc (a + i) (BitVec.ofNat 8 (v / 2 ^ (8 * i))))
/-- The writes that put words into frame memory at a. -/
def frameWords (a : Nat) (ws : List Nat) : List MemWrite :=
  ((List.range ws.length).map (fun i => frameWrites (a + 4 * i) 4 (ws.getD i 0))).flatten

/-- The canonical form of the memories. -/
abbrev Mem.wf (m : Mem) : Prop :=
  SMap.wf (fun _ => memDefault) m.frame ∧ SMap.wf (fun _ => memDefault) m.loc ∧ SMap.wf (fun _ => lastDefault) m.last

/-! ## Registers (R5, R6) -/

/-- The bits of a register that can hold something other than zero (R6). -/
def regMask (a : Nat) : Nat := match regRow a with
  | some r => r.mask
  | none => 0

/-- The live copy of a register. -/
def Dev.rd (d : Dev) (a : Nat) : Word := SMap.get (regReset a) d.regs.live a
/-- The live copy as a number. -/
def Dev.rdN (d : Dev) (a : Nat) : Nat := (d.rd a).toNat
/-- Field [hi:lo] of a live register. -/
def Dev.fld (d : Dev) (a hi lo : Nat) : Nat := nfld (d.rdN a) hi lo
/-- Bit i of a live register. -/
def Dev.bit (d : Dev) (a i : Nat) : Bool := (d.rdN a).testBit i
/-- A live register as a two's complement number. -/
def Dev.rdI (d : Dev) (a : Nat) : Int := (d.rd a).toInt
/-- The shadow copy of a register, under the live copy's address. -/
def Dev.srd (d : Dev) (a : Nat) : Word := SMap.get (regReset a) d.regs.shadow a
def Dev.srdN (d : Dev) (a : Nat) : Nat := (d.srd a).toNat

/-- Write the live copy of a register. -/
def Dev.wr (d : Dev) (a : Nat) (v : Word) : Dev :=
  { d with regs := { d.regs with live := SMap.set (regReset a) d.regs.live a v } }
def Dev.wrN (d : Dev) (a v : Nat) : Dev := d.wr a (BitVec.ofNat 32 v)
def Dev.wrI (d : Dev) (a : Nat) (v : Int) : Dev := d.wr a (BitVec.ofInt 32 v)
/-- Write a 64-bit pair of live registers, low word at a. -/
def Dev.wr64 (d : Dev) (a v : Nat) : Dev := (d.wrN a v).wrN (a + 4) (v / 2 ^ 32)
/-- A 64-bit pair of live registers, low word at a. -/
def Dev.rd64 (d : Dev) (a : Nat) : Nat := d.rdN a + 2 ^ 32 * d.rdN (a + 4)
/-- Write the shadow copy of a register, under the live copy's address. -/
def Dev.swr (d : Dev) (a : Nat) (v : Word) : Dev :=
  { d with regs := { d.regs with shadow := SMap.set (regReset a) d.regs.shadow a v } }

/-- Set bits of a live register. -/
def Dev.setBits (d : Dev) (a m : Nat) : Dev := d.wrN a (d.rdN a ||| m)
/-- Set bit i of a live register, as the setting event of a W1C flag does (R5). -/
def Dev.flag (d : Dev) (a i : Nat) : Dev := d.setBits a (2 ^ i)
/-- Clear bits of a live register. -/
def Dev.clrBits (d : Dev) (a m : Nat) : Dev := d.wrN a (d.rdN a - (d.rdN a &&& m))
/-- Replace field [hi:lo] of a live register. -/
def Dev.putFld (d : Dev) (a hi lo v : Nat) : Dev :=
  d.wrN a (d.rdN a - nfld (d.rdN a) hi lo * 2 ^ lo + v % 2 ^ (hi + 1 - lo) * 2 ^ lo)

/-! ## Free values -/

/-- Take a free value (log 1). -/
def Dev.fresh (d : Dev) : Nat × Dev := (Config.freeValue d.free, { d with free := d.free + 1 })

/-! ## Counters -/

/-- Count n cases in an RC counter; what the counter does at its top is not stated (log 4). -/
def Dev.bumpBy (d : Dev) (a n : Nat) : Dev :=
  if d.rdN a + n < 2 ^ 32 then d.wrN a (d.rdN a + n) else let r := d.fresh; r.2.wrN a r.1
/-- Count one case. -/
def Dev.bump (d : Dev) (a : Nat) : Dev := d.bumpBy a 1
/-- Count n cases in a counter that saturates. -/
def Dev.bumpSat (d : Dev) (a n : Nat) : Dev := d.wrN a (min (2 ^ 32 - 1) (d.rdN a + n))
/-- Count one in field [hi:lo] of a register, saturating. -/
def Dev.bumpFld (d : Dev) (a hi lo : Nat) : Dev :=
  d.putFld a hi lo (min (2 ^ (hi + 1 - lo) - 1) (d.fld a hi lo + 1))

/-! ## Generations and pending swaps (R7, R19, R20) -/

/-- A value by key from a list of pairs. -/
def lookupD {α β : Type} [DecidableEq α] (d : β) : List (α × β) → α → β
  | [], _ => d
  | (k, v) :: l, a => if k = a then v else lookupD d l a

/-- Replace or add a pair. -/
def assign {α β : Type} [DecidableEq α] : List (α × β) → α → β → List (α × β)
  | [], a, b => [(a, b)]
  | (k, v) :: l, a, b => if k = a then (k, b) :: l else (k, v) :: assign l a b

/-- The generation of a set (R7). -/
def Dev.gen (d : Dev) (x : SetId) : Nat := lookupD 0 d.regs.gens x
def Dev.setGen (d : Dev) (x : SetId) (g : Nat) : Dev := { d with regs := { d.regs with gens := assign d.regs.gens x (g % 65536) } }
/-- The pending swap of a set. -/
def Dev.swapOf (d : Dev) (x : SetId) : Option Boundary := (d.regs.swaps.find? (fun w => decide (w.set = x))).map Swap.at_
/-- Discard the pending swap of a set. -/
def Dev.dropSwap (d : Dev) (x : SetId) : Dev :=
  { d with regs := { d.regs with swaps := d.regs.swaps.filter (fun w => decide (w.set ≠ x)) } }

/-- Whether a feature is active (R421). -/
def Dev.feature (d : Dev) (b : Nat) : Bool := d.bit (Reg.HX_FEAT_ACTIVEw (b / 32)) (b % 32)

/-! ## What is sent to the outside -/

def Dev.send (d : Dev) (x : Sent) : Dev := { d with sent := x :: d.sent }

/-! ## Fault records (R460, R461) -/

/-- Write a fault record: it joins the queue of 64, or is lost (R461). -/
def Dev.fault (d : Dev) (t unit code detail : Nat) : Dev :=
  if d.flt.queue.length < 64 then
    { d with flt := { d.flt with queue := d.flt.queue ++ [⟨t, unit, code, BitVec.ofNat 32 detail⟩] } }
  else ({ d with flt := { d.flt with lost := d.flt.lost + 1 } } : Dev).bump Reg.SV_LOG_LOST

/-- Write a fault record and set its W1C flag. -/
def Dev.faultFlag (d : Dev) (t unit code detail reg i : Nat) : Dev := (d.flag reg i).fault t unit code detail

/-! ## Writes reach the memories (R383, R387, R395, R454) -/

/-- The frame-memory bank of a byte address (R325). -/
def bankOf (a : Nat) : Nat := a / 0x300000

def Dev.core (d : Dev) (k : Nat) : Core := SMap.get Core.reset d.tk.cores k
def Dev.setCore (d : Dev) (k : Nat) (x : Core) : Dev := { d with tk := { d.tk with cores := SMap.set Core.reset d.tk.cores k x } }
def Dev.updFab (d : Dev) (f : Fabric → Fabric) : Dev := { d with fab := f d.fab }

/-- The core whose whole sequence holds a bank (R341, R342). -/
def Dev.lockOwner (d : Dev) (b : Nat) : Option Nat :=
  (List.range 4).find? (fun k => (d.core k).locks.any (fun l => decide (l.bank = b ∧ l.broken = 0)))

/-- A fabric fault and its flag: codes 0x0002 and 0x0004 to 0x0007 at most once per unit in 2^20 CORE cycles (R402). -/
def Dev.fbFault (d : Dev) (t unit code detail : Nat) : Dev :=
  let d := d.flag Reg.FB_FAULT (code - 1)
  let key := unit * 16 + code
  let soon := match SMap.get none d.fab.recAt key with
    | some l => decide ((t - l) * 15 < 2 ^ 20 * 4)
    | none => false
  if (code = 2 ∨ 4 ≤ code) ∧ soon = true then d
  else (d.fault t (uid 3 unit 0) code detail).updFab (fun f => { f with recAt := SMap.set none f.recAt key (some t) })

/-- Bytes of frame memory read uncorrectable: a word of 8 bytes holds the poison code (R387), or the range is retired (R454). -/
def Dev.poisoned (d : Dev) (a n : Nat) : Bool :=
  d.fab.poisonFrame.any (fun p => decide (p < a + n) && decide (a < p + 8)) ||
    d.fab.retired.any (fun x => decide (bankOf a ≤ x.2) && decide (x.2 ≤ bankOf (a + n - 1)))

/-- Mark a row for the scrubber (R387, R389); bank 16 + b is bank b of the last store. -/
def Dev.markRow (d : Dev) (bank row : Nat) (ue : Bool) : Dev := d.updFab (fun f => { f with
  rows := if f.rows.any (fun r => decide (r.bank = bank ∧ r.row = row)) then
      f.rows.map (fun r => if r.bank = bank ∧ r.row = row then (if ue then { r with ue := true } else { r with ce := r.ce + 1 }) else r)
    else ⟨bank, row, if ue then 0 else 1, ue⟩ :: f.rows })

/-- A read of frame memory that finds an uncorrectable error (R387): the word is poisoned, counted, recorded, and its row is marked. -/
def Dev.readUE (d : Dev) (t req a : Nat) : Dev :=
  let w := a / 8 * 8
  let b := bankOf a
  let off := w % 0x300000
  let d := if d.fab.retired.any (fun x => decide (x.2 = b)) then d else
    (d.updFab (fun f => { f with poisonFrame := if f.poisonFrame.contains w then f.poisonFrame else w :: f.poisonFrame })).markRow b (off / 1024) true
  ((d.bump Reg.FB_CNT_UE).wrN Reg.FB_ERR (off + 2 ^ 27 * b + 2 ^ 31)).fbFault t b 2 (off + 2 ^ 26 * req)

/-- A read of n bytes at a by a requester: each word of them that is poisoned, and each retired range among them, is an uncorrectable error
found (R387, R454). -/
def Dev.readPoison (d : Dev) (t req a n : Nat) : Dev :=
  let d := (d.fab.poisonFrame.filter (fun p => decide (p < a + n) && decide (a < p + 8))).foldl (fun (d : Dev) p => d.readUE t req p) d
  match d.fab.retired.find? (fun x => decide (bankOf a ≤ x.2) && decide (x.2 ≤ bankOf (a + n - 1))) with
  | some x => d.readUE t req (max a (x.2 * 0x300000))
  | none => d

/-- A read of a last record that finds an uncorrectable error (R387). -/
def Dev.readLastUE (d : Dev) (t req r : Nat) : Dev :=
  let b := r / 983040
  let off := r % 983040
  let d := (d.updFab (fun f => { f with poisonLast := if f.poisonLast.contains r then f.poisonLast else r :: f.poisonLast })).markRow (16 + b) (off / 512) true
  ((d.bump Reg.FB_CNT_UE).wrN Reg.FB_ERR (off + 2 ^ 26 + 2 ^ 27 * b + 2 ^ 31)).fbFault t (18 + b) 2 (off + 2 ^ 26 * req)

/-- n bytes of frame memory at a as a unit reads them whose chapter names no effect of an uncorrectable word, or of a retired range (R387, R454):
the bytes of such a word are free (log 189). -/
def Dev.unitView (d : Dev) (m : Mem) (a n : Nat) : Mem :=
  if d.poisoned a n then
    (((List.range (n / 8 + 2)).map (fun i => a / 8 * 8 + 8 * i)).filter (fun w => decide (w < a + n) && d.poisoned w 8)).foldl
      (fun (m : Mem) w => m.writes (frameWrites w 8 (Config.freeValue (d.free + 2 ^ 32 + w)))) m
  else m

/-- Such a unit's read of n bytes at a: what the fabric tells of the errors, and the memory as the unit sees it. -/
def Dev.unitRead (d : Dev) (m : Mem) (t req a n : Nat) : Dev × Mem := (d.readPoison t req a n, d.unitView m a n)

/-- The 8-byte words of frame memory that writes touch, with the bytes of each they write. -/
def touched : List MemWrite → List (Nat × Nat)
  | [] => []
  | .frame a _ :: l => (a / 8 * 8, a % 8) :: touched l
  | _ :: l => touched l

/-- What a write does to poisoned words (R383): a word written whole is poisoned no more; one written in part stays so, and the read that the
merge makes of it names the writer in its record. -/
def Dev.repoison (d : Dev) (t req : Nat) (ws : List MemWrite) : Dev :=
  let ts := touched ws
  d.fab.poisonFrame.foldl (fun (d : Dev) p =>
    let bytes := (List.range 8).filter (fun i => ts.contains (p, i))
    if bytes.length = 8 then d.updFab (fun f => { f with poisonFrame := f.poisonFrame.erase p })
    else if bytes.length = 0 then d
    else d.readUE t req p) d

/-- The address of a frame-memory write. -/
def MemWrite.frameAt : MemWrite → Option Nat
  | .frame a _ => some a
  | _ => none

/-- The write goes to one of the banks. -/
def MemWrite.inBank (w : MemWrite) (p : Nat → Bool) : Bool := match w.frameAt with
  | some a => p (bankOf a)
  | none => false

/-- The copies that mirroring of a retiring bank adds (R454). -/
def mirrored (b : Option (Nat × Nat)) : List MemWrite → List MemWrite
  | [] => []
  | .frame a v :: l => match b with
    | some (x, y) => if bankOf a = x then .frame a v :: .frame (a - x * 0x300000 + y * 0x300000) v :: mirrored b l else .frame a v :: mirrored b l
    | none => .frame a v :: mirrored b l
  | w :: l => w :: mirrored b l

/-- The memory and the aligned block of `grain` bytes that a write falls in: 0 frame memory, 1 local memory, 2 the last store. -/
def MemWrite.block (grain : Nat) : MemWrite → Nat × Nat
  | .frame a _ => (0, a / grain)
  | .loc a _ => (1, a / grain)
  | .last r _ => (2, r)

/-- The beats of some writes (R382): bytes of one aligned block together. A task core writes at most a word at a time (R334, R398). -/
def beats (grain : Nat) : List MemWrite → List (List MemWrite)
  | [] => []
  | w :: l => match beats grain l with
    | [] => [[w]]
    | b :: r => if b.head?.map (MemWrite.block grain) = some (w.block grain) then (w :: b) :: r else [w] :: b :: r

/-- The bytes that one beat of a requester writes at most (R327, R382). -/
def grainOf (req : Nat) : Nat := if req < 4 then 4 else 32

/-- A beat goes to one of the banks. -/
def beatIn (p : Nat → Bool) (beat : List MemWrite) : Bool := beat.any (fun w => w.inBank p)

/-- Which beats go and which stay: those to a locked bank stay, and so do those of a task core behind one of its own that stays, since a
core's stores land in program order (R327). `stuck` are the cores that have one waiting. -/
def splitWrites (locked : List MemWrite → Bool) :
    List Nat → List (Nat × List MemWrite) → List (Nat × List MemWrite) × List (Nat × List MemWrite)
  | _, [] => ([], [])
  | stuck, x :: l =>
    if locked x.2 || (decide (x.1 < 4) && stuck.contains x.1) then
      let q := splitWrites locked (x.1 :: stuck) l
      (q.1, x :: q.2)
    else
      let q := splitWrites locked stuck l
      (x :: q.1, q.2)

/-! ### Who goes first at a target (R390, R391, R393) -/

def Dev.lossOf (d : Dev) (who target : Nat) : Loss := SMap.get Loss.reset d.fab.loss (17 * who + target)
def Dev.setLoss (d : Dev) (who target : Nat) (x : Loss) : Dev :=
  d.updFab (fun f => { f with loss := SMap.set Loss.reset f.loss (17 * who + target) x })
def Dev.target (d : Dev) (t : Nat) : Target := SMap.get Target.reset d.fab.targets t
def Dev.setTarget (d : Dev) (t : Nat) (x : Target) : Dev := d.updFab (fun f => { f with targets := SMap.set Target.reset f.targets t x })

/-- The grant rank of a requester (R390, R404). -/
def Dev.grantRank (d : Dev) (who : Nat) : Nat :=
  if who < 8 then d.fld Reg.FB_RANK0 (4 * who + 3) (4 * who) else d.fld Reg.FB_RANK1 (4 * (who - 8) + 3) (4 * (who - 8))

/-- The first of some numbers below n in rotation, starting after the one last granted (R391). -/
def rotateAfter (n last : Nat) (l : List Nat) : Option Nat :=
  ((List.range n).map (fun i => (last + 1 + i) % n)).find? (fun w => l.contains w)

/-- Of the requesters at a target, the one that is granted, and how: 1 guarded, 2 by its rank (R391, R393). -/
def Dev.choose (d : Dev) (target : Nat) (all : List Nat) : Option (Nat × Nat) :=
  let x := d.target target
  let limit := d.fld Reg.FB_GUARD 4 0
  match rotateAfter 15 x.guarded (all.filter (fun w => decide (limit ≤ (d.lossOf w target).row))) with
  | some w => some (w, 1)
  | none =>
    let top := (all.map d.grantRank).foldl max 0
    (rotateAfter 15 (SMap.get 14 x.last top) (all.filter (fun w => decide (d.grantRank w = top)))).map (fun w => (w, 2))

/-- The target remembers whom it granted, and how; a grant ends the requester's losses (R391, R392). -/
def Dev.granted (d : Dev) (target w how : Nat) : Dev :=
  let x := d.target target
  (d.setTarget target { x with
    guarded := if how = 1 then w else x.guarded, last := if how = 2 then SMap.set 14 x.last (d.grantRank w) w else x.last }).setLoss w target Loss.reset

/-- Of the units of requester w that present a beat, the one whose turn it is (R390). -/
def Dev.turn (d : Dev) (target w : Nat) (units : List Nat) : Option Nat := rotateAfter 16 (SMap.get 15 d.fab.turns (17 * w + target)) units
def Dev.setTurn (d : Dev) (target w u : Nat) : Dev := d.updFab (fun f => { f with turns := SMap.set 15 f.turns (17 * w + target) u })

/-- The bank of a beat that goes to frame memory. -/
def beatBank (beat : List MemWrite) : Option Nat := (beat.head?.bind MemWrite.frameAt).map bankOf

/-- The unit of its requester that a beat held back comes from: a task core, or its DMA engine (R390). -/
def heldUnit (req : Nat) : Nat := if req < 16 then 0 else 1

/-- The next of the beats that waited for a lock (R395): of the oldest of each writer, one that is not for a bank at once, and of those for
the bank of the first the one that R391 grants there. -/
def Dev.nextHeld (d : Dev) (l : List (Nat × List MemWrite)) : Option ((Nat × List MemWrite) × Dev) :=
  let heads := (l.map Prod.fst).eraseDups.filterMap (fun w => l.find? (fun x => decide (x.1 = w)))
  match heads.find? (fun x => (beatBank x.2).isNone) with
  | some x => some (x, d)
  | none => match heads.head?.bind (fun x => beatBank x.2) with
    | none => none
    | some b =>
      let here := heads.filter (fun x => decide (beatBank x.2 = some b))
      match d.choose b (here.map (fun x => x.1 % 16)) with
      | none => none
      | some (w, how) =>
        let mine := here.filter (fun x => decide (x.1 % 16 = w))
        match d.turn b w (mine.map (fun x => heldUnit x.1)) with
        | none => none
        | some u => (mine.find? (fun x => decide (heldUnit x.1 = u))).map (fun x => (x, (d.granted b w how).setTurn b w u))

/-- The order in which the beats that waited for locks are granted (R391, R395), and what the fabric remembers of it. -/
def Dev.drain : Nat → Dev → List (Nat × List MemWrite) → Dev × List (Nat × List MemWrite)
  | 0, d, l => (d, l)
  | n + 1, d, l => match d.nextHeld l with
    | none => (d, l)
    | some (x, e) =>
      let r := Dev.drain n e (l.erase x)
      (r.1, x :: r.2)

/-- Writes reach the memories: those to a bank whose lock another holds wait, and those that waited for a lock that has ended land
after the writes that ended it, in the order of R391 (R395), but before later stores of their own core (R327); a retired range discards them
(R454). The device given is the one after the command. -/
def Dev.land (d : Dev) (t req : Nat) (ws : List MemWrite) : Dev × List MemWrite :=
  if ws = [] ∧ d.fab.held = [] then (d, [])
  else
    let gone := fun (b : Nat) => d.fab.retired.any (fun x => decide (x.2 = b))
    let d := match ws.find? (fun w => w.inBank gone) with
      | some (.frame a _) => d.fbFault t (bankOf a) 2 (a % 0x300000 + 2 ^ 26 * (req % 16))
      | _ => d
    let ws := ws.filter (fun w => !w.inBank gone)
    let locked := beatIn (fun b => (d.lockOwner b).isSome)
    let old := splitWrites locked [] d.fab.held
    let new := splitWrites locked (old.2.map Prod.fst) ((beats (grainOf req) ws).map (fun w => (req, w)))
    let own := old.1.filter (fun x => decide (x.1 = req))
    let others := old.1.filter (fun x => decide (x.1 ≠ req))
    let r := d.drain others.length others
    let all := (own ++ new.1 ++ r.2).map (fun x => (x.1, mirrored d.fab.mirror x.2))
    let d := r.1.updFab (fun f => { f with held := old.2 ++ new.2 })
    (all.foldl (fun (d : Dev) x => d.repoison t (x.1 % 16) x.2) d, (all.map Prod.snd).flatten)

/-- Write beats of a requester that wait at a bank; a task core shares its credits with its DMA engine (R390, R394). -/
def Dev.waitingBeats (d : Dev) (req b : Nat) : Nat :=
  (d.fab.held.filter (fun h => decide (h.1 % 16 = req % 16) && beatIn (fun x => decide (x = b)) h.2)).length

/-- The requester cannot take these writes: a task core's store buffer of 8 entries is full (R327), or another requester has no write
credit left for a locked bank that it writes to (R394). Head ports take what comes, and the scrubber and the debug unit keep credits of
their own. -/
def Dev.noCredit (d : Dev) (req : Nat) (ws : List MemWrite) : Bool :=
  if req < 4 then decide (ws ≠ [] ∧ 8 ≤ (d.fab.held.filter (fun h => decide (h.1 = req))).length)
  else decide (req % 16 ∉ [6, 13, 14]) && (List.range 16).any (fun b =>
    (d.lockOwner b).isSome && decide (4 ≤ d.waitingBeats req b) && beatIn (fun x => decide (x = b)) ws)

/-- The state after a device and its requester's writes. -/
def State.write (s : State) (t req : Nat) (r : Dev × List MemWrite) : State :=
  let l := r.1.land t req r.2
  { s with dev := l.1, mem := s.mem.writes l.2 }

/-- The state after a requester's work, or as it was while the requester stalls for want of a write credit (R24, R394). -/
def State.writeOrStall (s : State) (t req : Nat) (r : Dev × List MemWrite) : State :=
  if s.dev.fab.held ≠ [] ∧ r.1.noCredit req r.2 = true then s else s.write t req r

/-- A command of requester `req` (R390) that acts on the device and writes the memories. -/
def State.actWr (s : State) (req : Nat) (f : Now → Mem → Dev → Dev × List MemWrite) : Result :=
  .next (if s.running then s.writeOrStall s.clock.dtime req (f s.now s.mem s.dev) else s)

/-- A row that is due at a time and writes the memories. -/
def State.actDueWr (s : State) (req : Nat) (due : Now → Dev → Option Nat) (f : Now → Mem → Dev → Dev × List MemWrite) : Result :=
  .next (if s.running then
    match due s.now s.dev with
    | some t => (s.reach t).writeOrStall (s.reach t).clock.dtime req (f (s.reach t).now s.mem s.dev)
    | none => s
  else s)

/-! ## Events and the outputs that mirror them (R30, R47, R48, R489) -/

/-- Whether a pulse runs at time t. -/
def OutPin.busy (p : OutPin) (t : Nat) : Bool :=
  match p.pulseEnd with
  | some e => decide (t < e)
  | none => false

/-- The width of a pulse: 0 acts as 1 (R53). -/
def pulseWidth (w : Nat) : Nat := max 1 w

def Dev.evtPin (d : Dev) (n : Nat) : OutPin := SMap.get OutPin.reset d.web.evt n
def Dev.hsyPin (d : Dev) (n : Nat) : OutPin := SMap.get OutPin.reset d.web.hsy n
def Dev.setEvt (d : Dev) (n : Nat) (p : OutPin) : Dev := { d with web := { d.web with evt := SMap.set OutPin.reset d.web.evt n p } }
def Dev.setHsy (d : Dev) (n : Nat) (p : OutPin) : Dev := { d with web := { d.web with hsy := SMap.set OutPin.reset d.web.hsy n p } }

/-- The inactive level of EVTn and of HSYn: high where the output is active low (R53). -/
def Dev.evtIdle (d : Dev) (n : Nat) : Bool := d.bit (Reg.WP_EVTn_CFG n) 10
def Dev.hsyIdle (d : Dev) (n : Nat) : Bool := d.bit (Reg.WP_HSYn_CFG n) 1

/-- EVTn while no pulse runs: its inactive level, or in gap-level mode the level that the gap state gives (R47). -/
def Dev.evtRest (d : Dev) (n : Nat) : OutPin :=
  ⟨xor (d.evtIdle n) (decide (d.fld (Reg.WP_EVTn_CFG n) 9 8 = 3) && d.web.gapOpen), none⟩

/-- The outputs in gap-level mode follow the gap window (R47). -/
def Dev.gapLevels (d : Dev) : Dev :=
  (List.range 4).foldl (fun (d : Dev) n => if d.fld (Reg.WP_EVTn_CFG n) 9 8 = 3 then d.setEvt n (d.evtRest n) else d) d

/-- What an occurrence of event `num` does to EVTn (R47): the output edge follows by 2 DRIVE ticks. An event in those 2 ticks counts as during
the pulse (log 154). -/
def Dev.mirrorEvt (d : Dev) (t num n : Nat) : Dev :=
  let c := Reg.WP_EVTn_CFG n
  if d.fld c 7 0 = num then
    match d.fld c 9 8 with
    | 1 =>
      let d := if (d.evtPin n).busy t then d.bump (Reg.WP_EVTn_OVL n) else d
      d.setEvt n ⟨!d.evtIdle n, some (t + 2 + pulseWidth (d.fld c 31 16))⟩
    | 2 => d.setEvt n ⟨!(d.evtPin n).level, none⟩
    | _ => d
  else d

/-- What an occurrence of event `num` does to HSYn (R48). Its leading edge is in the tick of the event (log 153). -/
def Dev.mirrorHsy (d : Dev) (t num n : Nat) : Dev :=
  let c := Reg.WP_HSYn_CFG n
  if d.bit c 0 ∧ d.fld c 15 8 = num then
    if (d.hsyPin n).busy t then d.bump (Reg.WP_HSYn_OVL n)
    else (d.setHsy n ⟨!d.hsyIdle n, some (t + pulseWidth (d.fld c 31 16))⟩).wr64 (Reg.WP_HSYn_LAST_LO n) t
  else d

/-- An event occurs: it goes to the scheduler with its record word (R489), and the outputs that mirror it act. -/
def Dev.raise (d : Dev) (t num word : Nat) : Dev :=
  let d := { d with ev := d.ev ++ [⟨num, BitVec.ofNat 32 word, t⟩] }
  let d := (List.range 4).foldl (fun d n => d.mirrorEvt t num n) d
  (List.range 8).foldl (fun d n => d.mirrorHsy t num n) d

end Sys2Proof.Machine
end

