-- ==== Sys2Proof/Machine/Operands.lean ====
section
/-! DEFINITION. Machine/Operands.lean: a task's registers, immediates and special registers as operands of Ercel instructions (R322,
R323, R328). -/
namespace Sys2Proof.Machine

/-- A general register: g0 reads as zero (R322). -/
def TaskCtx.reg (x : TaskCtx) (r : Nat) : Word := if r = 0 then 0 else SMap.get 0 x.g r
/-- Write a general register: writes to g0 are discarded (R322). -/
def TaskCtx.setReg (x : TaskCtx) (r : Nat) (v : Word) : TaskCtx := if r = 0 then x else { x with g := SMap.set 0 x.g r v }
/-- The program counter moves to the next instruction. -/
def TaskCtx.next (x : TaskCtx) : TaskCtx := { x with pc := x.pc + 4 }
/-- Set Z. -/
def TaskCtx.setZ (x : TaskCtx) (z : Bool) : TaskCtx := { x with flg := { x.flg with z := z } }

/-- The address that an I-format instruction names: ra + imm18, signed (R328, R329). -/
def TaskCtx.addr (x : TaskCtx) (ra : Nat) (imm : BitVec 18) : Nat := (x.reg ra + imm.signExtend 32).toNat

/-- A zero-extended imm18 (R329). -/
def zimm (imm : BitVec 18) : Word := imm.zeroExtend 32
/-- A signed imm18 (R328). -/
def simm (imm : BitVec 18) : Word := imm.signExtend 32

/-- The FLG register: [0] N, [1] Z, [2] C, [3] V, [31:16] SATN (R323). -/
def Flags.word (f : Flags) : Word :=
  f.satn.zeroExtend 32 <<< 16 ||| BitVec.ofNat 32 (b2n f.n + 2 * b2n f.z + 4 * b2n f.c + 8 * b2n f.v)
/-- The flags from a FLG word. -/
def Flags.ofWord (w : Word) : Flags := ⟨w.getLsbD 0, w.getLsbD 1, w.getLsbD 2, w.getLsbD 3, (w >>> 16).truncate 16⟩

/-- CORE cycles that have passed at a DTIME: 15/4 for each DRIVE tick (R355). -/
def coreCycles (t : Nat) : Nat := t * 15 / 4
/-- DRIVE ticks from DTIME t to the first at which n CORE cycles have passed since t. -/
def afterCycles (t n : Nat) : Nat := ((coreCycles t + n) * 4 + 14) / 15

end Sys2Proof.Machine
end

