-- ==== Sys2Proof/Machine/Flags.lean ====
section
/-! DEFINITION. Machine/Flags.lean: the results and flags of the Ercel ALU (R329 to R332): each function gives the word that rd takes and
the flags after it. -/
namespace Sys2Proof.Machine

/-- N and Z from the result; C, V and SATN stand (R330). -/
def Flags.nz (f : Flags) (r : Word) : Flags := { f with n := r.msb, z := decide (r = 0) }
/-- V says whether a result was clamped; SATN counts it and stops at 0xFFFF (R322, R330). -/
def Flags.clamped (f : Flags) (sat : Bool) : Flags :=
  { f with v := sat, satn := if sat = true ∧ f.satn ≠ 0xFFFF then f.satn + 1 else f.satn }

/-- What an ALU function gives. -/
abbrev AluOut := Word × Flags

/-- A result that sets N and Z alone. -/
def aluPlain (f : Flags) (r : Word) : AluOut := (r, f.nz r)

/-- A + B + carry: C is the carry out, V signed overflow (R330). -/
def aluAdd (f : Flags) (a b : Word) (cin : Bool) : AluOut :=
  let r := a + b + BitVec.ofNat 32 (b2n cin)
  let s := a.toInt + b.toInt + b2n cin
  (r, { f.nz r with c := decide (2 ^ 32 ≤ a.toNat + b.toNat + b2n cin), v := decide (r.toInt ≠ s) })

/-- A − B − borrow: C is the borrow, V signed overflow (R330). -/
def aluSub (f : Flags) (a b : Word) (bin : Bool) : AluOut :=
  let r := a - b - BitVec.ofNat 32 (b2n bin)
  let s := a.toInt - b.toInt - b2n bin
  (r, { f.nz r with c := decide (a.toNat < b.toNat + b2n bin), v := decide (r.toInt ≠ s) })

/-- The distance of a shift: (B + sh) mod 32 (R330). -/
def shiftBy (b : Word) (sh : BitVec 5) : Nat := (b.toNat + sh.toNat) % 32

def aluShl (f : Flags) (a b : Word) (sh : BitVec 5) : AluOut := aluPlain f (a <<< shiftBy b sh)
def aluShr (f : Flags) (a b : Word) (sh : BitVec 5) : AluOut := aluPlain f (a >>> shiftBy b sh)
def aluSar (f : Flags) (a b : Word) (sh : BitVec 5) : AluOut := aluPlain f (a.sshiftRight (shiftBy b sh))

def aluMul (f : Flags) (a b : Word) : AluOut := aluPlain f (a * b)
def aluMulh (f : Flags) (a b : Word) : AluOut := aluPlain f (BitVec.ofInt 32 (a.toInt * b.toInt / 2 ^ 32))
def aluMulhu (f : Flags) (a b : Word) : AluOut := aluPlain f (BitVec.ofNat 32 (a.toNat * b.toNat / 2 ^ 32))

/-- Signed quotient, truncated toward zero, with the results of R332 where it has none. -/
def aluDiv (f : Flags) (a b : Word) : AluOut :=
  let bad := decide (b = 0) || (decide (a = 0x80000000) && decide (b = 0xFFFFFFFF))
  let r : Word := if b = 0 then (if 0 ≤ a.toInt then 0x7FFFFFFF else 0x80000000)
    else if bad then 0x7FFFFFFF else BitVec.ofInt 32 (Int.tdiv a.toInt b.toInt)
  (r, (f.nz r).clamped bad)

/-- Unsigned quotient (R332). -/
def aluDivu (f : Flags) (a b : Word) : AluOut :=
  let bad := decide (b = 0)
  let r : Word := if bad then 0xFFFFFFFF else BitVec.ofNat 32 (a.toNat / b.toNat)
  (r, (f.nz r).clamped bad)

def aluMin (f : Flags) (a b : Word) : AluOut := aluPlain f (if a.toInt ≤ b.toInt then a else b)
def aluMax (f : Flags) (a b : Word) : AluOut := aluPlain f (if a.toInt ≤ b.toInt then b else a)
def aluMinu (f : Flags) (a b : Word) : AluOut := aluPlain f (if a.toNat ≤ b.toNat then a else b)
def aluMaxu (f : Flags) (a b : Word) : AluOut := aluPlain f (if a.toNat ≤ b.toNat then b else a)

/-- An exact result clamped to a range: N and Z from the clamped word, V and SATN from the clamp (R322, R330). -/
def aluClamp (f : Flags) (lo hi v : Int) : AluOut :=
  let r := BitVec.ofInt 32 (clampI lo hi v)
  (r, (f.nz r).clamped (decide (clampI lo hi v ≠ v)))

def aluAdds (f : Flags) (a b : Word) : AluOut := aluClamp f (-2 ^ 31) (2 ^ 31 - 1) (a.toInt + b.toInt)
def aluSubs (f : Flags) (a b : Word) : AluOut := aluClamp f (-2 ^ 31) (2 ^ 31 - 1) (a.toInt - b.toInt)
/-- Clamp to sh + 1 bits, signed (R330). -/
def aluSats (f : Flags) (a : Word) (sh : BitVec 5) : AluOut := aluClamp f (-2 ^ sh.toNat) (2 ^ sh.toNat - 1) a.toInt
/-- Clamp to sh + 1 bits, unsigned (R330). -/
def aluSatu (f : Flags) (a : Word) (sh : BitVec 5) : AluOut := aluClamp f 0 (2 ^ (sh.toNat + 1) - 1) a.toInt

/-- The rounded shift of a Q-format product (R331). -/
def qround (p : Int) (sh : BitVec 5) : Int := if sh.toNat = 0 then p else sar (p + 2 ^ (sh.toNat - 1)) sh.toNat
def aluQmul (f : Flags) (a b : Word) (sh : BitVec 5) : AluOut := aluClamp f (-2 ^ 31) (2 ^ 31 - 1) (qround (a.toInt * b.toInt) sh)
def aluQmulu (f : Flags) (a b : Word) (sh : BitVec 5) : AluOut := aluClamp f 0 (2 ^ 32 - 1) (qround (a.toNat * b.toNat : Nat) sh)

/-- Zeros above the highest set bit, of n bits. -/
def leadZeros (v : Nat) : Nat → Nat
  | 0 => 0
  | n + 1 => if v.testBit n then 0 else leadZeros v n + 1

def aluClz (f : Flags) (a : Word) : AluOut := aluPlain f (BitVec.ofNat 32 (leadZeros a.toNat 32))

/-- The test of a branch condition; bit 3 inverts it (R333). Code 8 never reaches it. -/
def Flags.cond (f : Flags) (cond : Nat) : Bool :=
  let t := match cond % 8 with
    | 0 => true
    | 1 => f.z
    | 2 => f.c
    | 3 => f.n
    | 4 => f.v
    | 5 => !f.c && !f.z
    | 6 => f.n != f.v
    | _ => f.z || (f.n != f.v)
  if 8 ≤ cond then !t else t

end Sys2Proof.Machine
end

