-- ==== Sys2Proof/Machine/HostLink.lean ====
section
/-! DEFINITION. Machine/HostLink.lean: the host links, host rings, MSI-X and feature negotiation (16), and the record rings in frame
memory that several units share. -/
namespace Sys2Proof.Machine

/-! ## Record rings in frame memory (R109, R172, R192, R461) -/

/-- Words padded with zeros to a multiple of 16, that is 64 bytes. -/
def pad16 (ws : List Word) : List Word := ws ++ List.replicate ((16 - ws.length % 16) % 16) 0

/-- The free bytes of a frame-memory ring: one 64-byte unit always stays free. -/
def frameRoom (bytes wr rd : Nat) : Nat := bytes - (wr + bytes - rd % bytes) % bytes - 64

/-- The writes of padded words into a frame-memory ring from offset wr, going on at the base. -/
def frameRingWrites (base bytes wr : Nat) (ws : List Word) : List MemWrite :=
  ((List.range ws.length).map (fun i => frameWrites (base + (wr + 4 * i) % bytes) 4 (ws.getD i 0).toNat)).flatten

/-! ## Access -/

def Dev.link (d : Dev) (l : Nat) : HostLink := SMap.get HostLink.reset d.hx.links l
def Dev.updHx (d : Dev) (f : HostUnit → HostUnit) : Dev := { d with hx := f d.hx }
def Dev.setLink (d : Dev) (l : Nat) (x : HostLink) : Dev := d.updHx (fun h => { h with links := SMap.set HostLink.reset h.links l x })
def Dev.updLink (d : Dev) (l : Nat) (f : HostLink → HostLink) : Dev := d.setLink l (f (d.link l))
def Dev.ring (d : Dev) (r : Nat) : HostRing := SMap.get HostRing.reset d.hx.rings r
def Dev.setRing (d : Dev) (r : Nat) (x : HostRing) : Dev := d.updHx (fun h => { h with rings := SMap.set HostRing.reset h.rings r x })
def Dev.updRing (d : Dev) (r : Nat) (f : HostRing → HostRing) : Dev := d.setRing r (f (d.ring r))

/-- The link is active (R425). -/
def HostLink.active (x : HostLink) : Bool := decide (x.state = 2)
/-- The link carries requests: active and not in D3hot (R406). -/
def HostLink.carries (x : HostLink) : Bool := x.active && !x.d3hot

/-- A fault of the host attachment and its flag (R423, R424). -/
def Dev.hxFault (d : Dev) (t link code detail : Nat) : Dev := d.faultFlag t (uid 1 link 0) code detail Reg.HX_FAULT (code - 1)

/-- A host write that R16 does not permit (R17). -/
def Dev.hostReject (d : Dev) : Dev := d.bumpSat Reg.HX_WR_REJECT 1
/-- A program's write to a register marked "host" (R408). -/
def Dev.dstReject (d : Dev) : Dev := d.bump Reg.HX_DST_REJECT

/-- The link of direct requests and of event and fault vectors (R415, R416). -/
def Dev.directLink (d : Dev) : Nat :=
  let l := b2n (d.bit Reg.HX_CFG 0)
  if (d.link l).state = 4 ∧ d.feature 7 = true ∧ (d.link (1 - l)).active = true then 1 - l else l

/-- An error completion on a direct request: its fault record names no ring (R423). -/
def Dev.directError (d : Dev) (t : Nat) : Option (Fin 3) → Dev
  | some c => d.hxFault t d.directLink 0x0003 (c.val + 1 + 256 * 31)
  | none => d

/-- The entry of a vector in a link's MSI-X table (R407). -/
def HostLink.entry (x : HostLink) (v : Nat) : MsixEntry := SMap.get MsixEntry.reset x.msix v

/-- Send the message of a vector, as its table entry states it (R416). -/
def Dev.sendMsix (d : Dev) (l v : Nat) : Dev :=
  let e := (d.link l).entry v
  d.send (.msix l v e.addr e.data)

/-- Raise an MSI-X vector on a link (R416): a masked one sets its pending bit; an unmasked one sends its message, which waits while the link
carries no requests (R406). -/
def Dev.msixRaise (d : Dev) (l v : Nat) : Dev :=
  let x := d.link l
  if (x.entry v).masked then d.setLink l { x with pend := if x.pend.contains v then x.pend else v :: x.pend }
  else if x.carries then d.sendMsix l v
  else d.setLink l { x with later := x.later ++ [v] }

/-! ## Host rings (R411 to R414) -/

def Dev.ringEn (d : Dev) (r : Nat) : Bool := d.bit (Reg.HX_Rr_CFG r) 0
/-- dir: the ring runs to the device. -/
def Dev.ringIn (d : Dev) (r : Nat) : Bool := d.bit (Reg.HX_Rr_CFG r) 1
def Dev.ringSize (d : Dev) (r : Nat) : Nat := 2 ^ d.fld (Reg.HX_Rr_CFG r) 12 8

/-- A record's slot can never fit (R413). -/
def Dev.ringTooBig (d : Dev) (r slot : Nat) : Bool := decide (d.ringSize r < slot + 64)

/-- Bytes of the records already on their way to ring r. -/
def Dev.ringQueued (d : Dev) (r : Nat) : Nat := ((d.hx.recs.filter (fun x => decide (x.ring = r))).map (fun x => 4 * x.words.length)).sum

/-- Room for a slot beyond `queued` bytes (R413, R417). -/
def Dev.ringRoom (d : Dev) (r slot queued : Nat) : Bool :=
  d.ringEn r && !d.ringIn r && !(d.ring r).stopped && !(d.link (d.ring r).link).d3hot &&
    decide (slot + queued + 64 + (d.rdN (Reg.HX_Rr_WR r) + 2 ^ 32 - d.rdN (Reg.HX_Rr_DB r)) % 2 ^ 32 ≤ d.ringSize r)

/-- A record that can never fit (R413): counted, fault 0x0009 once for each enable. -/
def Dev.ringBig (d : Dev) (t r bytes : Nat) : Dev :=
  let d := d.bump (Reg.HX_Rr_CNT_BIG r)
  if (d.ring r).bigSeen then d
  else (d.hxFault t (d.ring r).link 0x0009 (r + 256 * min (2 ^ 24 - 1) bytes)).updRing r (fun x => { x with bigSeen := true })

/-- What the unit of a record does once it has been written. -/
def Dev.recordDone (d : Dev) (t : Nat) (x : RingRec) : Dev :=
  let d := match x.count with
    | some c => d.bump c
    | none => d
  x.events.foldl (fun (d : Dev) e => d.raise t e.1 e.2) d

/-- Offer a record to a ring (R413): taken, or too long and reported as written; none where it must wait for room. -/
def Dev.ringOfferRec (d : Dev) (t : Nat) (x : RingRec) : Option Dev :=
  let p := pad16 x.words
  if d.ringEn x.ring = true ∧ d.ringTooBig x.ring (4 * p.length) = true then some ((d.ringBig t x.ring (4 * x.words.length)).recordDone t x)
  else if d.ringRoom x.ring (4 * p.length) (d.ringQueued x.ring) then some (d.updHx (fun h => { h with recs := h.recs ++ [{ x with words := p }] }))
  else none

/-- The same for a record whose unit does nothing more. -/
def Dev.ringOffer (d : Dev) (t r : Nat) (ws : List Word) : Option Dev := d.ringOfferRec t ⟨r, ws, [], none⟩

/-- The 16 bytes of a write-back (R413). -/
def writeBack (offset seq t : Nat) : List Word := [BitVec.ofNat 32 offset, BitVec.ofNat 32 seq, BitVec.ofNat 32 t, BitVec.ofNat 32 (t / 2 ^ 32)]

/-- Send the words of a slot at an offset of ring r, going on at the base at its end (R413). -/
def Dev.sendSlot (d : Dev) (r l offset : Nat) (ws : List Word) : Dev :=
  let size := d.ringSize r
  let base := d.rd64 (Reg.HX_Rr_BASE_LO r)
  let at_ := offset % size
  let n := (size - at_) / 4
  if ws.length ≤ n then d.send (.hostWrite l (base + at_) ws)
  else (d.send (.hostWrite l (base + at_) (ws.take n))).send (.hostWrite l base (ws.drop n))

/-- The write-back of ring r, its vector, and the zero-length read that confirms it unless one is outstanding (R413, R418). -/
def Dev.ringWriteBack (d : Dev) (t r offset : Nat) (ws : List Word) : Dev :=
  let x := d.ring r
  let wb := writeBack (d.rdN (Reg.HX_Rr_WR r)) (d.rdN (Reg.HX_Rr_SEQ r)) t
  let d := d.send (.hostWrite x.link (d.rd64 (Reg.HX_Rr_WB_LO r)) wb)
  let un := x.unconf ++ [(offset, ws, wb)]
  let d := d.setRing r { x with unconf := un, reading := some (x.reading.getD un.length) }
  if d.bit (Reg.HX_Rr_CFG r) 22 then d.msixRaise x.link (d.fld (Reg.HX_Rr_CFG r) 21 16) else d

/-- RING_RECORD_WRITE (R413): the first record that waits for ring r. -/
def Dev.ringRecordWrite (d : Dev) (t r : Nat) : Dev :=
  match d.hx.recs.find? (fun x => decide (x.ring = r)) with
  | none => d
  | some x =>
    let ws := x.words
    let d' := d.updHx (fun h => { h with recs := h.recs.eraseP (fun x => decide (x.ring = r)) })
    if d.ringEn r = true ∧ d.ringTooBig r (4 * ws.length) = true then (d'.ringBig t r (4 * ws.length)).recordDone t x
    else if d.ringRoom r (4 * ws.length) 0 = true ∧ (d.link (d.ring r).link).active = true then
      let offset := d.rdN (Reg.HX_Rr_WR r)
      let d := d'.sendSlot r (d.ring r).link offset ws
      let d := (d.wrN (Reg.HX_Rr_WR r) (offset + 4 * ws.length)).wrN (Reg.HX_Rr_SEQ r) (d.rdN (Reg.HX_Rr_SEQ r) + 1)
      (d.ringWriteBack t r offset ws).recordDone t x
    else d

/-- RING_ENTRY_COPY (R414): the next 32-byte entry of a ring to the device, as host memory gives it; none where its read fails (R423). -/
def Dev.ringEntryCopy (d : Dev) (t r : Nat) (entry : Option (List Byte)) (cause : Nat) : Dev × List MemWrite :=
  let wr := d.rdN (Reg.HX_Rr_WR r)
  if d.ringEn r = true ∧ d.ringIn r = true ∧ (d.ring r).stopped = false ∧ (d.link (d.ring r).link).carries = true ∧ wr ≠ d.rdN (Reg.HX_Rr_DB r) then
    match entry with
    | none => (d.hxFault t (d.ring r).link 0x0003 (cause + 1 + 256 * r), [])
    | some bs =>
      let a := d.rdN (Reg.HX_Rr_TGT r) + wr / 32 % 2 ^ d.fld (Reg.HX_Rr_TGTSZ r) 4 0 * 32
      let d := (d.wrN (Reg.HX_Rr_WR r) (wr + 32)).wrN (Reg.HX_Rr_SEQ r) (d.rdN (Reg.HX_Rr_SEQ r) + 1)
      (d.ringWriteBack t r wr [], frameWrites a 32 (leNat (bs.take 32)))
  else (d, [])

/-- WRITEBACK_CONFIRM (R418): the zero-length read completes; an error completion confirms nothing, and is recorded (R423). -/
def Dev.writebackConfirm (d : Dev) (t r : Nat) (err : Option (Fin 3)) : Dev :=
  match (d.ring r).reading, err with
  | none, _ => d
  | some n, none => d.updRing r (fun x => { x with unconf := x.unconf.drop n, reading := none })
  | some _, some c => (d.updRing r (fun x => { x with reading := none })).hxFault t (d.ring r).link 0x0003 (c.val + 1 + 256 * r)

/-! ## Host writes of ring registers (R411, R412, R425) -/

/-- A rejected doorbell or descriptor write (R411, R412): fault 0x0004 at most once per ring in 2^20 CORE cycles (R423). -/
def Dev.ringReject (d : Dev) (t r cause : Nat) : Dev :=
  let d := d.hostReject
  let soon := match (d.ring r).lastFault with
    | some l => decide ((t - l) * 15 < 2 ^ 20 * 4)
    | none => false
  let d := d.flag Reg.HX_FAULT 3
  if soon then d
  else (d.fault t (uid 1 (d.ring r).link 0) 0x0004 (r + 256 * cause)).updRing r (fun x => { x with lastFault := some t })

/-- RING_DOORBELL (R411). -/
def Dev.ringDoorbell (d : Dev) (t r : Nat) (v : Word) : Dev :=
  let n := v.toNat
  let wr := d.rdN (Reg.HX_Rr_WR r)
  let db := d.rdN (Reg.HX_Rr_DB r)
  let bad := if d.ringIn r then decide (n % 32 ≠ 0) || decide (d.ringSize r < (n + 2 ^ 32 - wr) % 2 ^ 32)
    else decide (n % 64 ≠ 0) || decide ((wr + 2 ^ 32 - db) % 2 ^ 32 < (n + 2 ^ 32 - db) % 2 ^ 32)
  if bad then d.ringReject t r 1 else d.wr (Reg.HX_Rr_DB r) v

/-- The register that field index i of a ring's descriptor is: CFG, BASE_LO, BASE_HI, WB_LO, WB_HI, TGT, TGTSZ (R424). -/
def ringReg (r : Nat) : Nat → Nat
  | 0 => Reg.HX_Rr_CFG r
  | 1 => Reg.HX_Rr_BASE_LO r
  | 2 => Reg.HX_Rr_BASE_HI r
  | 3 => Reg.HX_Rr_WB_LO r
  | 4 => Reg.HX_Rr_WB_HI r
  | 5 => Reg.HX_Rr_TGT r
  | _ => Reg.HX_Rr_TGTSZ r

/-- A value that R425 refuses for descriptor register i. -/
def ringBadValue (i v : Nat) : Bool :=
  match i with
  | 0 => decide (nfld v 12 8 < 12) || decide (30 < nfld v 12 8)
  | 1 => decide (v % 4096 ≠ 0)
  | 3 => decide (v % 16 ≠ 0)
  | 5 => decide (v % 64 ≠ 0)
  | 6 => decide (nfld v 4 0 < 7) || decide (16 < nfld v 4 0)
  | _ => false

/-- The bits of HX_Rr_CFG that the host may change while the ring is enabled: en, link, vector, vec_en (R412). -/
def ringFree (v : Nat) : Nat := v - (v &&& 0x7F0005)

/-- RING_CFG_WRITE (R412, R419, R425): register i of ring r's descriptor. -/
def Dev.ringCfgWrite (d : Dev) (t r i : Nat) (v : Word) : Dev :=
  let n := v.toNat &&& regMask (ringReg r i)
  let on := d.ringEn r
  if on = true ∧ (i ≠ 0 ∨ ringFree n ≠ ringFree (d.rdN (Reg.HX_Rr_CFG r))) then d.ringReject t r 2
  else if ringBadValue i n then d.ringReject t r 3
  else if i = 0 ∧ on = false ∧ nbit n 0 = true ∧ nbit n 1 = true
      ∧ frameBytes < d.rdN (Reg.HX_Rr_TGT r) + 32 * 2 ^ d.fld (Reg.HX_Rr_TGTSZ r) 4 0 then d.ringReject t r 3
  else
    let d := d.wrN (ringReg r i) n
    if i = 0 then
      let d := if on = false ∨ (d.ring r).link ≠ b2n (nbit n 2) then
          d.updRing r (fun x => { x with link := b2n (nbit n 2), stopped := false }) else d
      if on = false ∧ nbit n 0 = true then
        let d := ((d.wrN (Reg.HX_Rr_WR r) 0).wrN (Reg.HX_Rr_DB r) 0).wrN (Reg.HX_Rr_SEQ r) 0
        d.updRing r (fun x => { x with stopped := false, unconf := [], reading := none, bigSeen := false })
      else d
    else d

/-! ## Links (R405, R406, R417 to R419) -/

/-- Repeat on link `dest` what no completion has confirmed (R418); in D3hot it waits until the link carries requests (R406). -/
def Dev.ringReplay (d : Dev) (r failed dest : Nat) : Dev :=
  if (d.link dest).carries = false then d.updRing r (fun x => { x with link := dest, reading := none, repeat_ := some failed })
  else
  let x := d.ring r
  let d := x.unconf.foldl (fun (d : Dev) u =>
    let d := if u.2.1.isEmpty then d else (d.sendSlot r dest u.1 u.2.1).bump (Reg.HX_Ll_CNT_REPLAY failed)
    let d := d.send (.hostWrite dest (d.rd64 (Reg.HX_Rr_WB_LO r)) u.2.2)
    if d.bit (Reg.HX_Rr_CFG r) 22 then d.msixRaise dest (d.fld (Reg.HX_Rr_CFG r) 21 16) else d) d
  d.updRing r (fun x => { x with link := dest, reading := if x.unconf.isEmpty then none else some x.unconf.length, repeat_ := none })

/-- A link carries requests again (R406): messages that waited are sent, but for vectors masked meanwhile, and repeats that waited are made. -/
def Dev.linkCarries (d : Dev) (l : Nat) : Dev :=
  if (d.link l).carries = false then d
  else
    let wait := (d.link l).later
    let d := d.updLink l (fun x => { x with later := [] })
    let d := wait.foldl (fun (d : Dev) v => d.msixRaise l v) d
    (List.range 32).foldl (fun (d : Dev) r => match (d.ring r).repeat_ with
      | some f => if (d.ring r).link = l then d.ringReplay r f l else d
      | none => d) d

/-- The mask of a list of rings. -/
def maskOf (l : List Nat) : Nat := l.foldl (fun m r => m ||| 2 ^ r) 0

/-- A link fails (R417): its rings move or stop. -/
def Dev.linkFail (d : Dev) (t l cause : Nat) : Dev :=
  let d := (d.updLink l (fun x => { x with state := 4, left := none })).hxFault t l 0x0001 (cause + 1)
  let bound := (List.range 32).filter (fun r => d.ringEn r && decide ((d.ring r).link = l) && !(d.ring r).stopped)
  let failover := d.feature 7 && (d.link (1 - l)).active
  let moves := bound.filter (fun r => failover && d.bit (Reg.HX_Rr_CFG r) 3)
  let stops := bound.filter (fun r => !(failover && d.bit (Reg.HX_Rr_CFG r) 3))
  let d := moves.foldl (fun d r => d.ringReplay r l (1 - l)) d
  let d := if moves.isEmpty then d else d.hxFault t l 0x0002 (maskOf moves)
  let d := stops.foldl (fun d r => d.updRing r (fun x => { x with stopped := true })) d
  if stops.isEmpty then d else d.hxFault t l 0x0008 (maskOf stops)

/-- When a link that left active fails (R417): cto is in µs, 400 DRIVE ticks each. -/
def Dev.linkFailDue (d : Dev) (now : Now) (l cause : Nat) : Option Nat :=
  if (d.link l).state = 4 ∨ (d.link l).state < 2 then none
  else if cause = 0 then (d.link l).left.map (fun t => t + 400 * d.fld Reg.HX_CFG 23 8)
  else some now.dtime

/-- LINK_LEAVES_ACTIVE (R417). -/
def Dev.linkLeaves (d : Dev) (t l : Nat) : Dev :=
  d.updLink l (fun x => if x.active then { x with state := 3, left := some t } else x)

/-- A unit reset of a link retrains it (R422): one that is active leaves that state, a failed one trains again, and one that is down trains. -/
def Dev.linkRetrain (d : Dev) (t l : Nat) : Dev :=
  (d.linkLeaves t l).updLink l (fun x => if x.state = 4 then { x with state := 3 } else if x.state = 0 then { x with state := 1 } else x)

/-- Training of the links begins when the CORE PLL locks (R425, R430). -/
def Dev.linksTrain (d : Dev) : Dev :=
  (List.range 2).foldl (fun (d : Dev) l => d.updLink l (fun x => if x.state = 0 then { x with state := 1 } else x)) d

/-- A link trains active (R405, R419, R420); its stopped rings run again. -/
def Dev.linkTrained (d : Dev) (t l rate repaired : Nat) : Dev :=
  let x := d.link l
  let d := if x.state = 3 ∨ x.state = 4 then d.bump (Reg.HX_Ll_CNT_RETRAIN l) else d
  let d := d.setLink l { x with state := 2, rate := rate, repaired := repaired, left := none }
  let d := (List.range 32).foldl (fun d r => if (d.ring r).link = l then d.updRing r (fun x => { x with stopped := false }) else d) d
  (d.updHx (fun h => { h with firstActive := some (h.firstActive.getD t) })).linkCarries l

/-- D3HOT_CHANGE (R406). -/
def Dev.d3hot (d : Dev) (l : Nat) (on : Bool) : Dev := (d.updLink l (fun x => { x with d3hot := on })).linkCarries l

/-- MSIX_UNMASK (R407, R416): the host writes a table entry; one that leaves the vector unmasked sends the message that is pending. -/
def Dev.msixUnmask (d : Dev) (l : Nat) (w : MsixWrite) : Dev :=
  let v := w.v.val
  let d := d.updLink l (fun x => { x with msix := SMap.set MsixEntry.reset x.msix v ⟨w.addr.toNat, w.data, w.masked⟩ })
  if w.masked = false ∧ (d.link l).pend.contains v = true then
    (d.updLink l (fun x => { x with pend := x.pend.filter (fun u => decide (u ≠ v)) })).msixRaise l v
  else d

/-- The configuration space of an endpoint (R406): Vendor ID, Device ID, class code, the 64-bit number of its Device Serial Number capability,
and its power state. -/
structure ConfigSpace where
  vendor : Nat
  device : Nat
  classCode : Nat
  serial : Dword
  d3hot : Bool
  deriving DecidableEq, Repr

def Dev.configSpace (d : Dev) (l : Nat) : ConfigSpace :=
  ⟨if d.pw.fuseBad.toNat.testBit 3 then 0xFFFF else Config.fuseVendor.toNat, 0x8128, 0x118000, d.pw.serial, (d.link l).d3hot⟩

/-- The pending bit array of a link (R407). -/
def Dev.pendingBits (d : Dev) (l : Nat) : Nat := maskOf (d.link l).pend

/-! ## The loader window (R409) and features (R420, R421) -/

/-- LOADER_WRITE (R409): a host write to BAR2. -/
def Dev.loaderWrite (d : Dev) (off : Nat) (bytes : List Byte) : Dev × List MemWrite :=
  if d.hx.loader then
    (d, ((List.range bytes.length).filter (fun i => decide (off + i < 2 ^ 20))).map (fun i => .loc (off + i) (bytes.getD i 0)))
  else (d.hostReject, [])

/-- HX_LOADER.close (R409). -/
def Dev.loaderClose (d : Dev) (v : Word) : Dev := if v.toNat.testBit 0 then d.updHx (fun h => { h with loader := false }) else d

def Dev.offer (d : Dev) (w : Nat) : Nat := d.rdN (Reg.HX_FEAT_OFFERw w)
/-- Boot source flash: the XIP boot feature is fixed on (R421, R438). -/
def Dev.xipBoot (d : Dev) : Bool := d.pw.strap

/-- Close the feature window with state `kind` and `acc w` as accepted words (R421). -/
def Dev.featForm (d : Dev) (t kind : Nat) (acc : Nat → Nat) : Dev :=
  let a0 := acc 0 &&& d.offer 0
  let drop := if nbit a0 5 = true ∧ nbit a0 4 = false then 32 else 0
  let a0 := a0 - drop
  let a0 := (a0 - (a0 &&& 0x101)) + 1 + 256 * b2n d.xipBoot
  let unknown := fun w => acc w - (acc w &&& d.offer w)
  let bits := fun n => ((List.range 32).filter (fun i => nbit n i)).length
  let nu := ((List.range 8).map (fun w => bits (unknown w))).sum
  let d' := (List.range 8).foldl (fun d w =>
    ((d.wrN (Reg.HX_FEAT_ACTIVEw w) (if w = 0 then a0 else acc w &&& d.offer w)).wrN (Reg.HX_FEAT_UNKNOWNw w) (unknown w)).wrN
      (Reg.HX_FEAT_DROPPEDw w) (if w = 0 then drop else 0)) d
  let d' := d'.updHx (fun h => { h with window := kind })
  if nu = 0 ∧ drop = 0 then d' else d'.hxFault t 0 0x0006 (nu + 256 * b2n (decide (drop ≠ 0)))

/-- The base set: bits 0, 6 and 11 (R421). -/
def baseSet (w : Nat) : Nat := if w = 0 then 0x841 else 0

/-- Close the window without a commit (R420). -/
def Dev.featBase (d : Dev) (t kind : Nat) : Dev :=
  if d.hx.window = 0 then (d.featForm t kind baseSet).hxFault t 0 0x0007 0 else d

/-- A writer that may write the acceptance words: the host, or the boot program, which is context 0 under XIP boot (R408, R420, R440). -/
def Dev.featWriter (d : Dev) : Reader → Bool
  | .link _ => true
  | .core k => d.xipBoot && decide ((d.core k).ctx = some 0)
  | _ => false

/-- A write to a "host" register that the writer may not make (R17, R408). -/
def Dev.rejectOf (d : Dev) : Reader → Dev
  | .link _ => d.hostReject
  | _ => d.dstReject

def Dev.featAcceptWrite (d : Dev) (who : Reader) (w : Nat) (v : Word) : Dev :=
  if d.featWriter who = false then d.dstReject
  else if d.hx.window ≠ 0 then d.hostReject
  else d.updHx (fun h => { h with accept := SMap.set 0 h.accept w v })

/-- FEATURE_COMMIT (R420, R421): a write to word 7. -/
def Dev.featureCommit (d : Dev) (t : Nat) (who : Reader) (v : Word) : Dev :=
  if d.featWriter who = false then d.dstReject
  else if d.hx.window ≠ 0 then d.hostReject
  else
    let d := d.updHx (fun h => { h with accept := SMap.set 0 h.accept 7 v })
    d.featForm t 1 (fun w => (SMap.get (0 : Word) d.hx.accept w).toNat)

/-- When the window times out (R420). -/
def Dev.featDue (d : Dev) : Option Nat :=
  if d.hx.window ≠ 0 then none
  else
    let a := d.hx.firstActive.map (fun f => max f d.hx.openAt + 2000000000)
    let b := d.hx.xipStart.map (fun f => f + 2000000000)
    match a, b with
    | some x, some y => some (min x y)
    | some x, none => some x
    | none, y => y

/-! ## Which host writes R16 permits -/

/-- A register that the host may write now (R16, R409, R420). -/
def Dev.hostMayWrite (d : Dev) (a : Nat) : Bool :=
  decide (a = Reg.HX_TKDB) || decide (a = Reg.HX_TKDB_ENTRY) || decide (a = Reg.HX_LOADER)
    || (decide (Reg.HX_FEAT_ACCEPTw 0 ≤ a) && decide (a ≤ Reg.HX_FEAT_ACCEPTw 7) && decide (d.hx.window = 0))
    || (decide (Reg.HX_Rr_CFG 0 ≤ a) && decide (a < Reg.HX_Rr_CFG 32) && decide ((a - 0x31000) % 64 < 32))

/-! ## Commands -/

/-- A command of an endpoint, which trains once the CORE PLL has locked and stays through a warm reset (R430, R432). -/
def State.actLink (s : State) (f : Now → Dev → Dev) : Result :=
  .next (if s.dev.pw.phase ≠ .off ∧ s.dev.pw.core = true then { s with dev := f s.now s.dev } else s)

def execHostWriteReject (l : Fin 2) (bar2 : Bool) (off : BitVec 20) (v : Word) (s : State) : Result :=
  s.fromHost (.hostWriteReject l bar2 off v)
    (s.act (fun _ d => if (if bar2 then d.hx.loader else d.hostMayWrite off.toNat) then d else d.hostReject))
def execLoaderWrite (l : Fin 2) (off : BitVec 20) (bytes : List Byte) (s : State) : Result :=
  s.fromHost (.loaderWrite l off bytes) (s.actWr 12 (fun _ _ d => d.loaderWrite off.toNat bytes))
def execLoaderClose (l : Fin 2) (v : Word) (s : State) : Result := s.fromHost (.loaderClose l v) (s.act (fun _ d => d.loaderClose v))
def execRingDoorbell (l : Fin 2) (r : Fin 32) (v : Word) (s : State) : Result :=
  s.fromHost (.ringDoorbell l r v) (s.act (fun now d => d.ringDoorbell now.dtime r v))
def execRingCfgWrite (l : Fin 2) (r : Fin 32) (i : Fin 7) (v : Word) (s : State) : Result :=
  s.fromHost (.ringCfgWrite l r i v) (s.act (fun now d => d.ringCfgWrite now.dtime r i v))
def execRingRecordWrite (r : Fin 32) (s : State) : Result := s.act (fun now d => d.ringRecordWrite now.dtime r)
def execRingEntryCopy (r : Fin 32) (entry : Option (List Byte)) (cause : Fin 3) (s : State) : Result :=
  s.actWr 12 (fun now _ d => d.ringEntryCopy now.dtime r entry cause)
def execWritebackConfirm (r : ReadBack) (s : State) : Result := s.act (fun now d => d.writebackConfirm now.dtime r.ring r.err)
def execLinkFail (l : Fin 2) (cause : Fin 3) (s : State) : Result :=
  s.actDue (fun now d => d.linkFailDue now l cause) (fun now d => d.linkFail now.dtime l cause)
def execLinkLeavesActive (l : Fin 2) (s : State) : Result := s.actLink (fun now d => d.linkLeaves now.dtime l)
def execD3hotChange (l : Fin 2) (on : Bool) (s : State) : Result := s.actLink (fun _ d => d.d3hot l on)
def execMsixUnmask (l : Fin 2) (w : MsixWrite) (s : State) : Result := s.actLink (fun _ d => d.msixUnmask l w)
def execFeatAcceptWrite (who : Reader) (w : Fin 7) (v : Word) (s : State) : Result :=
  s.fromSender who (.featAcceptWrite who w v) (s.act (fun _ d => d.featAcceptWrite who w v))
def execFeatureCommit (who : Reader) (v : Word) (s : State) : Result :=
  s.fromSender who (.featureCommit who v) (s.act (fun now d => d.featureCommit now.dtime who v))
def execFeatureWindowTimeout (s : State) : Result := s.actDue (fun _ d => d.featDue) (fun now d => d.featBase now.dtime 2)

end Sys2Proof.Machine
end

