-- ==== Sys2Proof/Machine/HeadPort.lean ====
section
/-! DEFINITION. Machine/HeadPort.lean: the head ports (03): frames, their tags and malformed input (R54 to R70), telemetry and settings
generations (R59 to R63), the control path (R64), presence (R71 to R73) and unit reset (R74). -/
namespace Sys2Proof.Machine

def Dev.hpOf (d : Dev) (n : Nat) : HeadPort := SMap.get HeadPort.reset d.hp n
def Dev.setHp (d : Dev) (n : Nat) (h : HeadPort) : Dev := { d with hp := SMap.set HeadPort.reset d.hp n h }
def Dev.updHp (d : Dev) (n : Nat) (f : HeadPort → HeadPort) : Dev := d.setHp n (f (d.hpOf n))

/-! ## The active context of a head (R80) -/

/-- Context s of pipeline p is enabled in the live set. -/
def Dev.ctxOn (d : Dev) (p s : Nat) : Bool := d.bit (Reg.PL_CFG p) 0 && d.bit (Reg.PL_Sx_CFG p s) 0
def Dev.ctx (d : Dev) (p s : Nat) : Ctx := SMap.get Ctx.reset d.pl (32 * p + s)
/-- PL_Sx_CFG as the frame in progress of a context latched it, or else the live word (R81). -/
def Dev.ctxCfg (d : Dev) (p s : Nat) : Nat :=
  match (d.ctx p s).work with
  | some w => w.cfg.getD 0 0
  | none => d.rdN (Reg.PL_Sx_CFG p s)
/-- The head of a context (R114): that of its frame in progress, or else the live one. -/
def Dev.ctxHead (d : Dev) (p s : Nat) : Nat := nfld (d.ctxCfg p s) 3 1
def Dev.setCtx (d : Dev) (p s : Nat) (c : Ctx) : Dev := { d with pl := SMap.set Ctx.reset d.pl (32 * p + s) c }
def Dev.updCtx (d : Dev) (p s : Nat) (f : Ctx → Ctx) : Dev := d.setCtx p s (f (d.ctx p s))

/-- All contexts: pipeline and stream. -/
def allCtx : List (Nat × Nat) := (List.range 64).map (fun i => (i / 32, i % 32))

/-- The context that carries head n by the live settings, if one does (R80). -/
def Dev.carrier (d : Dev) (n : Nat) : Option (Nat × Nat) :=
  allCtx.find? (fun c => d.ctxOn c.1 c.2 && (d.ctx c.1 c.2).active && decide (d.fld (Reg.PL_Sx_CFG c.1 c.2) 3 1 = n) &&
    !d.bit (Reg.PL_Sx_CFG c.1 c.2) 6)

/-- Head h is provisional or in a shutter event within the present balance window, which its welts cannot use (R144). -/
def Dev.spoil (d : Dev) (h : Nat) : Dev :=
  if d.lt.spoiled.contains h then d else { d with lt := { d.lt with spoiled := h :: d.lt.spoiled } }

/-! ## Telemetry (R59 to R61) -/

/-- The raw value of a telemetry field, if its bytes were all received (R59). -/
def telemField (cfg : Nat) (buf : List Byte) : Option Int :=
  let off := nfld cfg 11 0
  let w := nfld cfg 13 12 + 1
  if off + w ≤ buf.length then
    let bs := (buf.drop off).take w
    let v := leNat (if nbit cfg 14 then bs.reverse else bs)
    some (if nbit cfg 15 then sgn (8 * w) v else v)
  else none

/-- The substrate temperature of a raw field (R60). -/
def substrateOf (slope offset s : Int) : Nat := (clampI 0 65535 (offset + sar (s * slope + 0x8000) 16)).toNat

/-- The four fields of a frame's telemetry: none where the field is present in the profile and missing from the frame; a field that the
profile does not hold reads 0 and is not missing. Substrate is converted by R60. -/
def Dev.telemFields (d : Dev) (n : Nat) (buf : List Byte) : List (Option Nat) :=
  let f := fun r => let c := d.rdN (r n); if nbit c 31 then telemField c buf else some 0
  [if nbit (d.rdN (Reg.HP_TF_SUB n)) 31 then
      (f Reg.HP_TF_SUB).map (substrateOf (d.rdI (Reg.HP_SUB_SLOPE n)) (d.rdI (Reg.HP_SUB_OFFSET n)))
    else some 0,
   (f Reg.HP_TF_INT).map (unsgn 32), (f Reg.HP_TF_CNT).map (unsgn 32), (f Reg.HP_TF_ECHO).map (unsgn 32)]

/-! ## Settings generations (R62) -/

/-- A settings generation begins: at the completion of a settings transaction. -/
def HeadPort.nextSettings (h : HeadPort) (t : Nat) (echo : Nat) : HeadPort :=
  let g := (h.settingsGen + 1) % 65536
  { h with settingsGen := g, completions := (g, t, 0) :: h.completions, echoes := ((echo, g) :: h.echoes).take 16 }

/-- A frame start at t counts for every completion stamped before it (R62). -/
def HeadPort.countStart (h : HeadPort) (t latency : Nat) : HeadPort :=
  let cs := h.completions.map (fun c => if c.2.1 < t then (c.1, c.2.1, c.2.2 + 1) else c)
  match cs.find? (fun c => decide (latency ≤ c.2.2)) with
  | some c => { h with baseGen := c.1, completions := cs.filter (fun x => decide (x.2.2 < latency)) }
  | none => { h with completions := cs }

/-- The settings generation of a frame at its close, and whether it was guessed (R62). -/
def frameGen (byEcho : Bool) (h : HeadPort) (f : HFrame) (echo : Option Nat) : Nat × Bool :=
  if byEcho then
    match echo with
    | some e =>
      match h.echoes.find? (fun p => decide (p.1 = e)) with
      | some p => (p.2, false)
      | none => (f.latGen, true)
    | none => (f.latGen, true)
  else (f.latGen, false)

/-! ## Frames -/

/-- Lines that a frame holds: blind rows and array rows (R58). -/
def HFrame.total (f : HFrame) : Nat := f.blind + f.rows

/-- The open frame of a port. -/
def HeadPort.openFrame (h : HeadPort) : Option HFrame :=
  match h.frames.getLast? with
  | some f => if f.closed then none else some f
  | none => none

/-- Replace the open frame. -/
def HeadPort.putOpen (h : HeadPort) (f : HFrame) : HeadPort := { h with frames := h.frames.dropLast ++ [f] }

/-- Frames that occupy a slot or credit: not dropped. -/
def HFrame.dropped (f : HFrame) : Bool := f.flags.testBit 2

/-- Frame slots occupied (R77). -/
def HeadPort.slots (h : HeadPort) : Nat := (h.frames.filter (fun f => f.slot.isSome)).length

/-- Lines in the line queue of an in-line head (R24). -/
def HeadPort.lineQueue (h : HeadPort) : Nat :=
  ((h.frames.filter (fun f => f.inline && !f.dropped && !f.gone)).map (fun f => f.lines.length - f.freed)).sum

/-- Set flag bits of a frame. -/
def HFrame.mark (f : HFrame) (i : Nat) : HFrame := { f with flags := f.flags ||| 2 ^ i }

/-- Write a record of code 1 to 3, at most one per code in any 64 sequence numbers (R75). -/
def Dev.hpRecord (d : Dev) (t n code seq : Nat) : Dev :=
  let d := d.flag (Reg.HP_FAULT n) (code - 1)
  match SMap.get none (d.hpOf n).lastRec code with
  | some l => if (seq + 2 ^ 32 - l) % 2 ^ 32 < 64 then d
    else (d.fault t (uid 4 n 0) code seq).updHp n (fun h => { h with lastRec := SMap.set none h.lastRec code (some seq) })
  | none => (d.fault t (uid 4 n 0) code seq).updHp n (fun h => { h with lastRec := SMap.set none h.lastRec code (some seq) })

/-- A line of fill (R68). -/
def Dev.fillLine (d : Dev) (n : Nat) (f : HFrame) : HLine := ⟨List.replicate f.cols (d.fld (Reg.HP_FILL n) 13 0), 0⟩

/-- What a frame's telemetry and the transactions before it tell of it (R61, R62, R63): the four fields with missing ones at their last
valid value, whether one is missing, the substrate temperature, the settings generation and the exposure identity (with guessed, unknown). -/
structure FrameFacts where
  last : List Nat
  missing : Bool
  sub : Nat
  gen : Nat × Bool
  ident : Nat × Bool
  deriving DecidableEq, Repr

def Dev.frameFacts (d : Dev) (n : Nat) (h : HeadPort) (f : HFrame) : FrameFacts :=
  let fields := d.telemFields n h.telem
  let last := (List.range 4).map (fun i => ((fields.getD i none).getD (h.lastField.getD i 0)))
  let intField := if d.bit (Reg.HP_TF_INT n) 31 then fields.getD 1 none else none
  let expoA := d.fld (Reg.HP_EXPO n) 15 0
  let expoB := d.fld (Reg.HP_EXPO n) 31 16
  { last := last, missing := fields.any Option.isNone, sub := if d.bit (Reg.HP_CFG n) 9 then last.getD 0 0 else h.prevSub,
    gen := frameGen (d.bit (Reg.HP_CFG n) 11) h f (if d.bit (Reg.HP_TF_ECHO n) 31 then fields.getD 3 none else none),
    ident := if d.bit (Reg.HP_TF_INT n) 31 then
        match intField with
        | some v => if v = expoA then (0, false) else if v = expoB then (1, false) else (0, true)
        | none => (0, true)
      else ((f.seq + b2n (d.bit (Reg.HP_CFG n) 12)) % 2, false) }

/-- A context has begun this frame of head n: the one that carries it, or one that did when the frame began (R81). -/
def Dev.begun (d : Dev) (n : Nat) (f : HFrame) : Bool :=
  allCtx.any (fun c => match (d.ctx c.1 c.2).work with
    | some w => w.own.isNone && decide (w.id.seq = f.seq) && decide (d.ctxHead c.1 c.2 = n)
    | none => false)

/-- Close the open frame (R66, R67, R68): fill missing lines, form the tag and copy it to HP_TAG, raise EV_HPn_EOF. `extra` marks the tag. -/
def Dev.closeFrame (d : Dev) (t n : Nat) (extra : List Nat) : Dev :=
  let h := d.hpOf n
  match h.openFrame with
  | none => d
  | some f =>
    let f := extra.foldl HFrame.mark f
    let short := f.total - f.lines.length
    let fill := d.fillLine n f
    let f := if short = 0 ∨ f.dropped = true then f
      else { f with lines := f.lines ++ List.replicate short fill }.mark 3
    let q := d.frameFacts n h f
    let last := q.last
    let missing := q.missing
    let top := d.bit (Reg.HP_CFG n) 9
    let sub := q.sub
    let g := q.gen
    let ident := q.ident
    let f := if ident.1 = 1 then f.mark 0 else f
    let f := if ident.2 then f.mark 1 else f
    let f := if missing then f.mark 6 else f
    let f := if top then f else f.mark 7
    let f := if g.2 then f.mark 8 else f
    let dur := min 65535 ((t - f.dtime) / 1024)
    let tag := [f.seq, g.1 + 65536 * f.unitGen, f.dtime % 2 ^ 32, f.dtime / 2 ^ 32 % 2 ^ 32, unsgn 64 f.wpos % 2 ^ 32, unsgn 64 f.wpos / 2 ^ 32,
      sub + 65536 * (last.getD 2 0 % 65536), f.flags % 65536 + 65536 * dur]
    let f := { f with closed := true, tag := tag }
    let h := { h.putOpen f with lastField := last, prevSub := last.getD 0 0 }
    -- a dropped frame with no consumer leaves no trace behind but its tag, nor does one that its pipeline has lost
    let h := if f.gone = true ∨ (f.dropped = true ∧ (d.carrier n).isNone ∧ d.begun n f = false) then { h with frames := h.frames.dropLast } else h
    let d := d.setHp n h
    let d := if ident.2 then d.flag (Reg.HP_FAULT n) 10 else d
    let d := if missing then d.flag (Reg.HP_FAULT n) 8 else d
    let d := if g.2 then d.flag (Reg.HP_FAULT n) 9 else d
    let d := (List.range 8).foldl (fun d w => d.wrN (Reg.HP_TAGw n w) (tag.getD w 0)) d
    d.raise t (8 + n) f.seq

/-- Drop the open frame in strict mode (R68): it closes as dropped, and VC0 packets are ignored until the next frame start. One that is
dropped already stays as it is. -/
def Dev.strictDrop (d : Dev) (t n : Nat) : Dev :=
  match (d.hpOf n).openFrame with
  | none => d
  | some f => if f.dropped then d else
      ((d.closeFrame t n [2]).updHp n (fun h => { h with ignoring := true })).hpRecord t n 2 f.seq

def Dev.hpStrict (d : Dev) (n : Nat) : Bool := d.bit (Reg.HP_CFG n) 1

/-- Close the open frame at its frame end (R68). -/
def Dev.closeShort (d : Dev) (t n : Nat) : Dev :=
  match (d.hpOf n).openFrame with
  | none => d
  | some f =>
    let d := if f.dropped = true ∨ f.lines.length = f.total then d else d.bump (Reg.HP_CNT_PAD n)
    d.closeFrame t n []

/-- The window check of a frame start against the head sync pulse (R70): true where sync is lost. Before the first pulse the stamp is 0
(log 160). -/
def Dev.syncLost (d : Dev) (t n : Nat) : Bool :=
  let last := d.rd64 (Reg.WP_HSYn_LAST_LO n)
  let h := d.hpOf n
  decide (t < last + 16 * d.fld (Reg.HP_SYNC_WIN n) 15 0) || decide (last + 16 * d.fld (Reg.HP_SYNC_WIN n) 31 16 < t)
    || decide (h.hsyUsed = some last)

/-- The serial master port of a head's control path (R77). -/
def Dev.ctlPort (d : Dev) (n : Nat) : Nat := d.fld (Reg.HP_CTRL_CFG n) 1 0

/-- The transactions that wait at the heads of a serial port: head and transaction (R65). -/
def Dev.ctlWaiting (d : Dev) (port : Nat) : List (Nat × CtlTrans) :=
  ((List.range 8).filter (fun m => decide (d.ctlPort m = port))).flatMap (fun m => (d.hpOf m).ctl.map (fun c => (m, c)))

/-- The next place in the order of submission at head n's serial port (R65). -/
def Dev.ctlNext (d : Dev) (n : Nat) : Nat := ((d.ctlWaiting (d.ctlPort n)).map (fun x => x.2.order + 1)).foldl max 0

/-- It is the turn of the front transaction of head n: no other head of its serial port, whose queue is not stopped, has one that was submitted
before it (R65). -/
def Dev.ctlTurn (d : Dev) (n : Nat) : Bool :=
  match (d.hpOf n).ctl with
  | [] => false
  | c :: _ => (d.ctlWaiting (d.ctlPort n)).all (fun x => decide (x.1 = n) || (d.hpOf x.1).ctlStopped || decide (c.order ≤ x.2.order))

/-- Put a serial read at the head of the control queue (R71), built from HP_SN_CMD (log 159). -/
def Dev.queueSerial (d : Dev) (n : Nat) : Dev :=
  let c := d.rdN (Reg.HP_SN_CMD n)
  let order := match (d.hpOf n).ctl with
    | [] => d.ctlNext n
    | x :: _ => x.order
  let tr : CtlTrans := ⟨BitVec.ofNat 8 (nfld c 7 0) :: List.replicate (nfld c 11 8) 0, nfld c 15 12, false, 0, true, order⟩
  d.updHp n (fun h => { h with ctl := tr :: h.ctl, ctlStopped := false })

/-- What a frame start does to the port's presence (R71, R72, R73). -/
def Dev.presenceStart (d : Dev) (n : Nat) : Dev :=
  let h := d.hpOf n
  match h.state with
  | .absent =>
    let g := (h.settingsGen + 1) % 65536
    ((d.setHp n { h with state := .ident, matched := false, reported := false, retries := 0, settingsGen := g, baseGen := g, completions := [] }).spoil n).queueSerial n
  | .ident => if h.matched then d.setHp n { h with state := .present, matched := false } else d
  | .provisional => if h.reported then d.setHp n { h with state := .present, reported := false } else d
  | _ => d

/-- The slot a new frame takes: the first of the two that is free (R24). -/
def HeadPort.freeSlot (h : HeadPort) : Option Nat :=
  if (h.frames.any (fun f => f.slot = some 0)) = false then some 0
  else if (h.frames.any (fun f => f.slot = some 1)) = false then some 1 else none

/-- An accepted frame start (R66): number, stamp, take it or drop it, check head sync, raise EV_HPn_SOF. -/
def Dev.openNew (d : Dev) (now : Now) (n : Nat) : Dev :=
  let t := now.dtime
  let d := d.presenceStart n
  let h := (d.hpOf n).countStart t (d.fld (Reg.HP_LATENCY n) 3 0)
  let seq := (h.seq + 1) % 2 ^ 32
  let h := { h with seq := seq, lastStart := t, telem := [], ignoring := false }
  let inline := match d.carrier n with
    | some c => d.bit (Reg.PL_Sx_CFG c.1 c.2) 4
    | none => false
  let slot := if inline then none else h.freeSlot
  let room := (d.carrier n).isSome && (if inline then decide (h.lineQueue < 4) else slot.isSome)
  let geom := d.rdN (Reg.HP_GEOM n)
  let bl := d.rdN (Reg.HP_BLIND n)
  let rind := d.rdN (Reg.HP_RIND n)
  let size := ((nfld bl 4 0 + nfld geom 27 16) * nfld geom 11 0 * 2 + 63) / 64 * 64
  let slotAt := match d.carrier n, slot with
    | some c, some k => d.rdN (Reg.PL_Sx_SLOT c.1 c.2) + k * size
    | _, _ => 0
  let f : HFrame := {
    seq := seq, dtime := t, wpos := now.wpos, latGen := h.baseGen, unitGen := d.gen (.hp (Fin.ofNat 8 n)), cols := nfld geom 11 0,
    blind := nfld bl 4 0, rows := nfld geom 27 16, blindBottom := nbit bl 8, rindFirst := nfld rind 11 0, rindCount := nfld rind 22 16, inline := inline,
    slot := if room then slot else none, slotAt := slotAt, gone := false, lines := [], lost := 0, freed := 0, flags := 0, closed := false, tag := [] }
  let f := if h.state = .ident ∨ h.state = .provisional then f.mark 9 else f
  let lost := d.bit (Reg.HP_CFG n) 10 && d.syncLost t n
  let f := if lost then f.mark 10 else f
  let f := if room then f else f.mark 2
  let h := { h with frames := h.frames ++ [f], hsyUsed := some (d.rd64 (Reg.WP_HSYn_LAST_LO n)) }
  let d := d.setHp n h
  let d := if lost then (d.bump (Reg.HP_CNT_SYNC n)).flag (Reg.HP_FAULT n) 7 else d
  let d := if room then d else (d.bump (Reg.HP_CNT_DROP n)).hpRecord t n 1 seq
  d.raise t n seq

/-- The port accepts a frame-start packet (R66, R71, R73): a held or absent-by-timeout port, and one that is out of service, discards it. -/
def Dev.acceptsStart (d : Dev) (n : Nat) : Bool :=
  let h := d.hpOf n
  decide (h.state ≠ .disabled) && !h.out && !(decide (h.state = .absent) && h.held)

/-- What a frame-start packet does to a frame still open, which counts in HP_CNT_PAD (R68). -/
def Dev.startCloses (d : Dev) (t n : Nat) : Dev :=
  match (d.hpOf n).openFrame with
  | none => d
  | some f =>
    let d := d.bump (Reg.HP_CNT_PAD n)
    if d.hpStrict n = true ∧ f.dropped = false then d.strictDrop t n else d.closeFrame t n []

/-- The port takes packets of virtual channel vc: after a drop in strict mode it ignores those of VC0 until the next frame start (R68); a port
out of service, or held by R73, discards what comes. -/
def Dev.receiving (d : Dev) (n vc : Nat) : Bool :=
  let h := d.hpOf n
  decide (h.state ≠ .disabled) && !(h.ignoring && decide (vc = 0)) && !h.out && !(decide (h.state = .absent) && h.held)

/-- Count a packet header by its ECC (R68); an uncorrectable one loses the packet. -/
def Dev.header (d : Dev) (n : Nat) (hdr : Hdr) : Dev :=
  match hdr with
  | .ok => d
  | .fixed => d.bump (Reg.HP_CNT_ECC n)
  | .lost => d.bump (Reg.HP_CNT_HDR n)

/-- A packet of the open frame is lost, an image line if `line` says so (R68): crc in service, a drop in strict mode. The fill of a lost line of
an in-line head is then due after the next line (R69, log 161). -/
def Dev.packetLost (d : Dev) (t n : Nat) (line : Bool) : Dev :=
  match (d.hpOf n).openFrame with
  | none => d
  | some f =>
    if f.dropped then d
    else if d.hpStrict n then d.strictDrop t n
    else d.updHp n (fun h => h.putOpen { f.mark 5 with lost := f.lost + b2n (line && f.inline) })

/-- The frame-memory writes of line i of a through-memory frame's slot (R107). -/
def slotWrites (f : HFrame) (i : Nat) (l : HLine) : List MemWrite :=
  match f.slot with
  | some _ => ((List.range f.cols).map (fun x => frameWrites (f.slotAt + i * f.cols * 2 + 2 * x) 2 (l.px.getD x 0))).flatten
  | none => []

/-- A line joins the open frame: an in-line head whose line queue is full cuts the frame there (R24). -/
def Dev.joinLine (d : Dev) (t n : Nat) (f : HFrame) (l : HLine) : Dev × List MemWrite :=
  if f.inline = true ∧ 4 ≤ (d.hpOf n).lineQueue then
    (((d.updHp n (fun h => h.putOpen (f.mark 2))).bump (Reg.HP_CNT_DROP n)).hpRecord t n 1 f.seq, [])
  else (d.updHp n (fun h => h.putOpen { f with lines := f.lines ++ [l] }), slotWrites f f.lines.length l)

/-- The fill of a lost line leaves an in-line head's port (R69). -/
def Dev.lostFill (d : Dev) (t n : Nat) : Dev :=
  match (d.hpOf n).openFrame with
  | none => d
  | some f =>
    if f.lost = 0 ∨ f.dropped = true ∨ f.total ≤ f.lines.length then d
    else (d.joinLine t n { f with lost := f.lost - 1 } (d.fillLine n f)).1

/-- A received line joins the open frame, and the fill of the lines lost before it follows (R69). -/
def Dev.addLine (d : Dev) (t n : Nat) (f : HFrame) (l : HLine) : Dev × List MemWrite :=
  let r := d.joinLine t n f l
  ((List.range f.lost).foldl (fun (d : Dev) _ => d.lostFill t n) r.1, r.2)

/-- The CRC of a long packet is checked (R54, R68). -/
def Dev.crcCount (d : Dev) (n : Nat) (crcOk : Bool) : Dev := if crcOk then d else d.bump (Reg.HP_CNT_CRC n)

/-- A VC0 image packet (R55, R68). -/
def Dev.imageLine (d : Dev) (t n : Nat) (hdr : Hdr) (raw12 crcOk : Bool) (px : List (BitVec 14)) : Dev × List MemWrite :=
  if d.receiving n 0 = false then (d, [])
  else
    let d := d.header n hdr
    if hdr = .lost then (d.packetLost t n true, [])
    else
      match (d.hpOf n).openFrame with
      | none => ((d.crcCount n crcOk).bump (Reg.HP_CNT_DT n), [])
      | some f =>
        if f.dropped then (d.crcCount n crcOk, [])
        else if raw12 ≠ d.bit (Reg.HP_CFG n) 2 then
          let d := (d.crcCount n crcOk).bump (Reg.HP_CNT_DT n)
          (if d.hpStrict n then d.strictDrop t n else d, [])
        else if f.total ≤ f.lines.length then
          let d := (d.crcCount n crcOk).bump (Reg.HP_CNT_CUT n)
          (if d.hpStrict n then d.strictDrop t n else d.updHp n (fun h => h.putOpen (f.mark 4)), [])
        else if crcOk = false then
          let d := d.bump (Reg.HP_CNT_CRC n)
          if d.hpStrict n then (d.strictDrop t n, []) else d.addLine t n (f.mark 5) (d.fillLine n f)
        else
          let raw := px.map (fun v => if raw12 then v.toNat % 4096 * 4 else v.toNat)
          if f.cols < raw.length then
            let d := d.bump (Reg.HP_CNT_CUT n)
            if d.hpStrict n then (d.strictDrop t n, []) else d.addLine t n (f.mark 4) ⟨raw.take f.cols, f.cols⟩
          else if raw.length < f.cols then
            let d := d.bump (Reg.HP_CNT_PAD n)
            d.addLine t n (f.mark 3) ⟨raw ++ List.replicate (f.cols - raw.length) (d.fld (Reg.HP_FILL n) 13 0), raw.length⟩
          else d.addLine t n f ⟨raw, f.cols⟩

/-- A VC1 embedded-data packet (R59). One with a CRC error leaves its bytes out (log 10). -/
def Dev.telemetry (d : Dev) (t n : Nat) (hdr : Hdr) (crcOk : Bool) (bytes : List Byte) : Dev :=
  if d.receiving n 1 = false then d
  else
    let d := d.header n hdr
    if hdr = .lost then d.packetLost t n false
    else if crcOk then d.updHp n (fun h => { h with telem := (h.telem ++ bytes).take 4096 })
    else
      let d := d.bump (Reg.HP_CNT_CRC n)
      if d.hpStrict n then d.strictDrop t n else d

/-- A frame-end packet (R66, R68). -/
def Dev.frameEnd (d : Dev) (t n : Nat) (hdr : Hdr) : Dev :=
  if d.receiving n 0 = false then d
  else
    let d := d.header n hdr
    if hdr = .lost then d.packetLost t n false
    else
      match (d.hpOf n).openFrame with
      | none => d.bump (Reg.HP_CNT_DT n)
      | some _ => d.closeShort t n

/-- The data types of long packets; those below are short packets (R54). -/
def longPacket (dtype : BitVec 6) : Bool := decide (0x10 ≤ dtype.toNat)

/-- A packet that the port does not take (R55, R68): a long one is checked all the same, and line start and line end are ignored (R54). In
strict mode a wrong CRC drops the frame where the packet is one of the two supported channels (log 192). -/
def Dev.packetDiscard (d : Dev) (t n : Nat) (hdr : Hdr) (vc : Nat) (pkt : StrayPacket) : Dev :=
  if d.receiving n vc = false then d
  else
    let d := d.header n hdr
    if hdr = .lost then d.packetLost t n false
    else if vc ≤ 1 ∧ (pkt.dtype = 2 ∨ pkt.dtype = 3) then d
    else
      let bad := longPacket pkt.dtype && !pkt.crcOk
      let d := (d.crcCount n (!bad)).bump (Reg.HP_CNT_DT n)
      if (vc = 0 ∨ (vc = 1 ∧ bad = true)) ∧ d.hpStrict n = true then d.strictDrop t n else d

/-- A start-of-transmission error on a lane (R68, R75): the packet is lost; a record every 256 errors of the lane. -/
def Dev.sotError (d : Dev) (t n : Nat) (err : SotError) : Dev :=
  if (d.hpOf n).state = .disabled then d
  else
    let lane := err.lane.val
    let d := d.bumpFld (Reg.HP_CNT_LANE n) (8 * lane + 7) (8 * lane)
    let k := SMap.get 0 (d.hpOf n).sot lane + 1
    let d := d.updHp n (fun h => { h with sot := SMap.set 0 h.sot lane (if k = 256 then 0 else k) })
    let d := if k = 256 then d.fault t (uid 4 n (lane + 1)) 0x0008 lane else d
    d.packetLost t n err.line

/-- HP_FRAME_TO passes after the frame start (R68). -/
def Dev.frameTimeout (d : Dev) (t n : Nat) : Dev :=
  match (d.hpOf n).openFrame with
  | none => d
  | some f =>
    let d := d.bump (Reg.HP_CNT_PAD n)
    let d := if d.hpStrict n = true ∧ f.dropped = false then (d.closeFrame t n [2, 11]).hpRecord t n 2 f.seq else d.closeFrame t n [11]
    d.hpRecord t n 3 f.seq

/-- When the open frame times out (R68, R76). -/
def Dev.frameTimeoutDue (d : Dev) (n : Nat) : Option Nat :=
  (d.hpOf n).openFrame.map (fun f => f.dtime + 1024 * d.fld (Reg.HP_FRAME_TO n) 15 0)

/-- When an enabled port enters ABSENT for want of frame starts (R71, R76). -/
def Dev.absentDue (d : Dev) (n : Nat) : Option Nat :=
  let h := d.hpOf n
  match h.state with
  | .disabled => none
  | .absent => none
  | _ => some (h.lastStart + 65536 * d.fld (Reg.HP_FRAME_TO n) 31 16)

/-- The port enters ABSENT by its timeout (R71, R73). -/
def Dev.absentTimeout (d : Dev) (t n : Nat) : Dev :=
  let d := match (d.hpOf n).openFrame with
    | some f => (d.closeFrame t n [11]).hpRecord t n 3 f.seq
    | none => d
  let held := !d.feature 12
  let d := d.updHp n (fun h => { h with
    state := .absent, held := held, ctlStopped := true, matched := false, reported := false,
    frames := h.frames.map (fun f => { f with slot := none }) })
  d.faultFlag t (uid 4 n 0) 0x0004 (d.hpOf n).seq (Reg.HP_FAULT n) 3

/-! ## Control path (R62, R64, R71, R72) -/

/-- Four transaction bytes (R64, R76). -/
def Dev.ctlData (d : Dev) (n : Nat) (v : Word) : Dev := d.updHp n (fun h => { h with staged := h.staged ++ leBytes 4 v.toNat })

/-- Submit a transaction of the staged bytes (R64): a queue of 4 transactions and 256 bytes. A length beyond what has been staged takes what
there is (log 157). -/
def Dev.ctlSubmit (d : Dev) (n : Nat) (v : Word) : Dev :=
  let h := d.hpOf n
  let txLen := nfld v.toNat 8 0
  let used := (h.ctl.map (fun c => c.tx.length)).sum
  if txLen = 0 ∨ 256 < txLen ∨ 256 < nfld v.toNat 17 9 ∨ 4 ≤ h.ctl.length ∨ 256 < used + txLen then
    (d.setHp n { h with staged := [] }).flag (Reg.HP_FAULT n) 11
  else
    d.setHp n { h with staged := [], ctl := h.ctl ++ [⟨h.staged.take txLen, nfld v.toNat 17 9, v.toNat.testBit 18, nfld v.toNat 31 24, false, d.ctlNext n⟩] }

/-- The next four reply bytes (R76); where fewer wait, the rest read as zero (log 11). -/
def Dev.ctlRx (d : Dev) (n : Nat) : Word × Dev :=
  let h := d.hpOf n
  (BitVec.ofNat 32 (leNat (h.reply.take 4)), d.setHp n { h with reply := h.reply.drop 4 })

/-- The transaction at the head of the queue completes: the select is released at t (R62, R64). A failed settings transaction still
advances the settings generation. -/
def Dev.ctlComplete (d : Dev) (t n : Nat) (ok : Bool) (reply : List Byte) : Dev :=
  let h := d.hpOf n
  if h.ctlStopped = true ∨ d.ctlTurn n = false then d
  else
    match h.ctl with
    | [] => d
    | c :: rest =>
      if c.serial then d
      else
        let h := { h with ctl := rest, ctlFailed := !ok }
        let h := if c.settings then h.nextSettings t c.echo else h
        let h := if ok then { h with reply := h.reply ++ reply.take c.rxLen } else h
        let d := d.setHp n h
        let d := if ok then d else d.faultFlag t (uid 4 n 6) 0x0007 h.settingsGen (Reg.HP_FAULT n) 6
        d.raise t (56 + d.ctlPort n) (if ok then 0 else 2)

/-- The serial read ends, as a transaction of the queue (R64, R71, R72); a retry is part of it. Answers whether the last store is told of a
changed or unread serial (R132). -/
def Dev.serialDone (d : Dev) (t n : Nat) (ok : Bool) (serial : Nat) : Dev × Bool :=
  let h := d.hpOf n
  match h.ctl with
  | [] => (d, false)
  | c :: rest =>
    if c.serial = false ∨ h.ctlStopped = true ∨ d.ctlTurn n = false then (d, false)
    else if ok then
      let d := (d.setHp n { h with ctl := rest, ctlFailed := false }).raise t (56 + d.ctlPort n) 0
      if serial = d.rd64 (Reg.HP_SERIAL_LO n) then (d.updHp n (fun h => { h with matched := true }), false)
      else
        let d := d.wr64 (Reg.HP_SERIAL_LO n) serial
        let d := d.faultFlag t (uid 4 n 0) 0x0005 (serial % 2 ^ 32) (Reg.HP_FAULT n) 4
        (d.updHp n (fun h => { h with state := if h.state = .ident then .provisional else h.state, reported := false }), true)
    else if h.retries < 3 then (d.setHp n { h with retries := h.retries + 1 }, false)
    else
      let d := (d.setHp n { h with ctl := rest, ctlFailed := true, state := if h.state = .ident then .provisional else h.state }).raise t (56 + d.ctlPort n) 2
      (d.faultFlag t (uid 4 n 0) 0x0006 3 (Reg.HP_FAULT n) 5, true)

/-! ## Presence by the live enable, and unit reset (R71, R74) -/

/-- The live enable has changed (R71): an enable enters ABSENT, not held, with the control queue running. -/
def Dev.hpEnable (d : Dev) (t n : Nat) (was : Bool) : Dev :=
  let on := d.bit (Reg.HP_CFG n) 0
  if on = was then d
  else if on then d.updHp n (fun h => { h with state := .absent, held := false, ctlStopped := false, lastStart := t, matched := false, reported := false })
  else d.updHp n (fun h => { h with state := .disabled, frames := h.frames.filter (fun f => f.closed) })

/-- A unit reset of a head port (R74). Of the frames that its slots and line queue held, the open one, and the one that a pipeline has begun,
are left as dropped tags, by which the pipeline discards them (R87). -/
def Dev.hpUnitReset (d : Dev) (t n : Nat) : Dev :=
  let was := (d.hpOf n).openFrame.map HFrame.seq
  let d := d.closeFrame t n [2]
  d.updHp n (fun h => { h with
    frames := (h.frames.filter (fun f => decide (was = some f.seq) || d.begun n f)).map (fun f => { f.mark 2 with slot := none, lines := [], closed := true })
    ctl := [], staged := [], ctlStopped := false, held := false, matched := false, reported := false,
    ignoring := false, lastStart := t, state := if h.state = .disabled then .disabled else .absent })

/-! ## Commands -/

def execHpCtlDataWrite (n : Fin 8) (v : Word) (s : State) : Result := s.act (fun _ d => d.ctlData n v)
def execHpCtlSubmit (n : Fin 8) (v : Word) (s : State) : Result := s.act (fun _ d => d.ctlSubmit n v)
def execHpCtlRxRead (n : Fin 8) (s : State) : Result := s.act (fun _ d => (d.ctlRx n).2)
def execHpCtlComplete (dt : Nat) (n : Fin 8) (ok : Bool) (reply : List Byte) (s : State) : Result :=
  (s.pass dt).act (fun now d => d.ctlComplete now.dtime n ok reply)

/-- HP_WORKING_SET_REPORT (R72): the last store reports a working set; the port leaves PROVISIONAL at its next frame start. -/
def execHpWorkingSetReport (n : Fin 8) (s : State) : Result :=
  s.act (fun _ d => d.updHp n (fun h => if h.state = .provisional then { h with reported := true } else h))

end Sys2Proof.Machine
end

