-- ==== Sys2Proof/Machine/LastStore.lean ====
section
/-! DEFINITION. Machine/LastStore.lean: lasts, sets, regions, builds, re-bases, probes, the roller anchor, the offsets of shutter events and
head balance (05). Starting a shutter event is in Shutter.lean. -/
namespace Sys2Proof.Machine

/-! ## The interpolated table (R86) and means (R94) -/

/-- The rule of R86: table E of N entries with shift sh at x, clamped to [lo, hi]; the second part tells whether anything was clamped. -/
def interp86 (E : Nat → Int) (N sh : Nat) (lo hi x : Int) : Int × Bool :=
  let neg := decide (x < 0)
  let x := max 0 x
  let i := min (x / (2 ^ sh : Nat)).toNat (N - 1)
  let f := x - i * (2 ^ sh : Nat)
  let nxt := if i + 1 < N then E (i + 1) else 2 * E (N - 1) - E (N - 2)
  let y := E i + sar ((nxt - E i) * f + (2 ^ (sh - 1) : Nat)) sh
  (clampI lo hi y, neg || decide (y < lo) || decide (hi < y))

/-- The mean of a sum over n values: floor((2 × S + n) / (2 × n)) (R94). -/
def meanOf (sum : Int) (n : Nat) : Int := (2 * sum + n) / (2 * n)

/-- The mean of a list by the rule of R94. -/
def meanList (l : List Int) : Int := meanOf l.sum l.length

/-! ## The last record (R115) -/

/-- A last record's fields. -/
structure Rec where
  offset : Int
  gain : Nat
  drift : Int
  tau : Nat
  pip : Nat
  flags : Nat
  deriving DecidableEq, Repr

/-- The unity record (R123). -/
def Rec.unity : Rec := ⟨0, 16384, 0, 0, 0, 0⟩
/-- What a record that reads uncorrectable is taken as (R386). -/
def Rec.dead : Rec := ⟨0, 16384, 0, 0, 0, 3⟩

/-- Read a record's fields (R115). -/
def Rec.ofBits (v : Dword) : Rec :=
  let n := v.toNat
  ⟨sgn 18 (nfld n 63 46), nfld n 45 30, sgn 12 (nfld n 29 18), nfld n 17 10, nfld n 9 2, nfld n 1 0⟩

/-- Pack a record (R115). -/
def Rec.toBits (r : Rec) : Dword :=
  BitVec.ofNat 64 (unsgn 18 r.offset * 2 ^ 46 + r.gain % 65536 * 2 ^ 30 + unsgn 12 r.drift * 2 ^ 18 + r.tau % 256 * 2 ^ 10
    + r.pip % 256 * 4 + r.flags % 4)

/-- Clamp to the offset range, and count the clamp (R115, R124). -/
def clampCount (lo hi v : Int) : Int × Nat := (clampI lo hi v, b2n (decide (v < lo) || decide (hi < v)))

/-- Interpolate one field (R124): `w` in 1/65,536. -/
def lerp16 (lo hi : Int) (w : Nat) : Int := lo + sar ((hi - lo) * w + 32768) 16

/-- The weight of hi at temperature t (R124). -/
def lerpWeight (same : Bool) (t tl th : Nat) : Nat :=
  if same then 0 else (clampI 0 65536 (Int.tdiv (((t : Int) - tl) * 65536) ((th : Int) - tl))).toNat

/-- A record interpolated between two sets (R124), and the clamps made. -/
def Rec.between (lo hi : Rec) (w : Nat) : Rec × Nat :=
  let o := clampCount (-131072) 131071 (lerp16 lo.offset hi.offset w)
  let g := clampCount 0 65535 (lerp16 lo.gain hi.gain w)
  let dr := clampCount (-2048) 2047 (lerp16 lo.drift hi.drift w)
  (⟨o.1, g.1.toNat, dr.1, if w < 32768 then lo.tau else hi.tau, if w < 32768 then lo.pip else hi.pip, max lo.flags hi.flags⟩, o.2 + g.2 + dr.2)

/-- A REBASE record (R125): `carry` false gives delta 0. -/
def Rec.rebased (new old iold : Rec) (carry : Bool) : Rec × Nat :=
  let delta := if carry then old.offset - iold.offset else 0
  let o := clampCount (-131072) 131071 (new.offset + delta)
  ({ new with offset := o.1, flags := max new.flags old.flags }, o.2)

/-- A SHUTTER record (R141): sum and count of the pixel, N, mean ΔT, the blade's count e, shut_lim. Answers whether a flag was raised. -/
def Rec.shuttered (r : Rec) (sum n N : Nat) (dtm e : Int) (lim : Nat) : Rec × Bool × Nat :=
  if n * 2 < N ∨ r.flags = 3 ∨ r.gain = 0 then (r, false, 0)
  else
    let s4 : Int := (8 * sum + n) / (2 * n)
    let dr := sar (r.drift * dtm + 128) 8
    let u : Int := (2 * e * 16384 + r.gain) / (2 * r.gain)
    let o := clampCount (-131072) 131071 (s4 - dr - u)
    let far := decide ((lim : Int) < (o.1 - r.offset).natAbs)
    ({ r with offset := o.1, flags := if far then max r.flags 2 else r.flags }, far && decide (r.flags < 2), o.2)

/-! ## CRC-32 (R117) -/

def crc32Bits : Nat → Nat → Nat
  | 0, c => c
  | k + 1, c => crc32Bits k (if c % 2 = 1 then (c / 2) ^^^ 0xEDB88320 else c / 2)

/-- The CRC-32 of a list of bytes: reflected, initial value and final XOR 0xFFFF_FFFF (R117). -/
def crc32 (bs : List Byte) : Nat := (bs.foldl (fun c b => crc32Bits 8 (c ^^^ b.toNat)) 0xFFFFFFFF) ^^^ 0xFFFFFFFF

/-! ## Access -/

def Dev.lth (d : Dev) (h : Nat) : LtHead := SMap.get LtHead.reset d.lt.heads h
def Dev.setLth (d : Dev) (h : Nat) (x : LtHead) : Dev := { d with lt := { d.lt with heads := SMap.set LtHead.reset d.lt.heads h x } }
def Dev.updLth (d : Dev) (h : Nat) (f : LtHead → LtHead) : Dev := d.setLth h (f (d.lth h))
def Dev.updLt (d : Dev) (f : LastStore → LastStore) : Dev := { d with lt := f d.lt }

/-- The live words LT_HDh_CFG to LT_HDh_PIVOT of head h. -/
def Dev.ltWords (d : Dev) (h : Nat) : List Nat := (List.range 13).map (fun i => d.rdN (Reg.LT_HDh_CFG h + 4 * i))
/-- A word of head h's part of the live set, as it is in effect for the head (R147). -/
def Dev.ltWord (d : Dev) (h r : Nat) : Nat := match (d.lth h).cfg with
  | [] => d.rdN r
  | c => c.getD ((r - Reg.LT_HDh_CFG h) / 4) 0
def Dev.ltFld (d : Dev) (h r hi lo : Nat) : Nat := nfld (d.ltWord h r) hi lo
def Dev.ltBit (d : Dev) (h r i : Nat) : Bool := nbit (d.ltWord h r) i
/-- The live words LT_BAL_CFG to LT_BAL_SPAN. -/
def Dev.balWords (d : Dev) : List Nat := (List.range 5).map (fun i => d.rdN (Reg.LT_BAL_CFG + 4 * i))
/-- A balance setting as it is in effect (R147). -/
def Dev.balWord (d : Dev) (r : Nat) : Nat := match d.lt.bal with
  | [] => d.rdN r
  | c => c.getD ((r - Reg.LT_BAL_CFG) / 4) 0
def Dev.balFld (d : Dev) (r hi lo : Nat) : Nat := nfld (d.balWord r) hi lo
def Dev.balBit (d : Dev) (r i : Nat) : Bool := nbit (d.balWord r) i

/-- The words to go by once a swap has changed the live ones: the old ones where they are in use and differ (R147). -/
def keepWords (used : Bool) (old new : List Nat) : List Nat := if used = true ∧ old ≠ new then old else []

/-- The subsystem and a head's calibration are on (R150). -/
def Dev.ltOn (d : Dev) (h : Nat) : Bool := d.bit Reg.LT_CFG 0 && d.ltBit h (Reg.LT_HDh_CFG h) 0
/-- The geometry of head h's profile: columns, blind rows, array rows (R57). -/
def Dev.headGeom (d : Dev) (h : Nat) : Nat × Nat × Nat :=
  (d.fld (Reg.HP_GEOM h) 11 0, d.fld (Reg.HP_BLIND h) 4 0, d.fld (Reg.HP_GEOM h) 27 16)
/-- Records that head h needs (R116). -/
def Dev.headRecords (d : Dev) (h : Nat) : Nat := let g := d.headGeom h; (g.2.1 + g.2.2) * g.1
/-- Granules of a number of records (R121). -/
def granulesOf (r : Nat) : Nat := (r + 4095) / 4096
/-- The substrate temperature of head h's last closed frame tag (R67, R123). -/
def Dev.lastSubstrate (d : Dev) (h : Nat) : Nat := d.fld (Reg.HP_TAGw h 6) 15 0
/-- The head port shows head h provisional (R71). -/
def Dev.headProvisional (d : Dev) (h : Nat) : Bool := decide ((d.hpOf h).state = .ident ∨ (d.hpOf h).state = .provisional)

/-! ## Granules and the pool (R121, R122, R384) -/

/-- Healthy granules of a last-store bank: none once retired, or while LS_RETIRE empties it (R384, R455). -/
def Dev.bankHealthy (d : Dev) (b : Nat) : Nat :=
  if d.lt.retiring.contains b then 0 else d.fld (Reg.FB_LSb_STATUS b) 23 16
/-- All granules that some region holds. -/
def Dev.heldGranules (d : Dev) : List Nat :=
  let rs := (d.lt.heads.map (fun p => p.2.region.toList ++ p.2.ready.toList ++ p.2.old)).flatten
  (rs.map Region.granules).flatten ++ (match d.lt.cur with | some c => c.2.granules | none => [])
/-- Healthy granules of the store. -/
def Dev.healthyGranules (d : Dev) : Nat := ((List.range 16).map d.bankHealthy).sum
/-- Free healthy granules: the spare pool (R122). -/
def Dev.poolFree (d : Dev) : Nat :=
  d.healthyGranules - ((d.heldGranules).filter (fun g => decide (d.bankHealthy (g / 240) ≠ 0))).length
/-- Granules of the enabled heads, and of the largest (R122). -/
def Dev.poolNeeds (d : Dev) : Nat × Nat :=
  let l := ((List.range 8).filter (fun h => d.ltOn h)).map (fun h => granulesOf (d.headRecords h))
  (l.sum, l.foldl max 0)
/-- The pool rule holds (R122). -/
def Dev.poolRule (d : Dev) : Bool := decide ((d.poolNeeds).1 + (d.poolNeeds).2 ≤ d.healthyGranules)

/-- The lowest free granule of bank b, given those in use. -/
def lowestFree (b : Nat) (used : List Nat) : Option Nat :=
  (List.range 240).findSome? (fun i => if used.contains (240 * b + i) then none else some (240 * b + i))

/-- Allocate n granules in rotation over the healthy banks (R384); none if the pool is too small. `tries` bounds the banks passed over. -/
def allocGranules (healthy : Nat → Bool) : (fuel n rot : Nat) → (used got : List Nat) → Option (List Nat × Nat)
  | _, 0, rot, _, got => some (got.reverse, rot)
  | 0, _ + 1, _, _, _ => none
  | fuel + 1, n + 1, rot, used, got =>
    let b := rot % 16
    if healthy b then
      match lowestFree b used with
      | some g => allocGranules healthy fuel n (rot + 1) (g :: used) (g :: got)
      | none => allocGranules healthy fuel (n + 1) (rot + 1) used got
    else allocGranules healthy fuel (n + 1) (rot + 1) used got

/-! ## Records of a region -/

/-- The physical record number of record i of a region (R121). -/
def Region.place (r : Region) (i : Nat) : Nat := r.granules.getD (i / 4096) 0 * 4096 + i % 4096
/-- The region fits a frame's geometry (R133). -/
def Region.fits (r : Region) (cols blind rows : Nat) : Bool := decide (r.cols = cols ∧ r.blind = blind ∧ r.rows = rows)
def Region.count (r : Region) : Nat := (r.blind + r.rows) * r.cols
/-- Record i of a region; one that reads uncorrectable is dead unity (R386). -/
def Dev.recordAt (_d : Dev) (poisoned : List Nat) (m : Mem) (r : Region) (i : Nat) : Rec :=
  if poisoned.contains (r.place i) then Rec.dead else Rec.ofBits (m.lastRec (r.place i))

/-! ## Requests (R123) -/

/-- The T of a request becomes the queued build's; one of the same kind that waits takes it in (R123). DESIGN CHOICE: one that runs does not, for
it has its sets and its temperature already (log 200). -/
def Dev.requestBuild (d : Dev) (h : Nat) (k : BuildKind) (t : Nat) : Dev :=
  if d.lt.queue.any (fun b => decide (b.head = h ∧ b.kind = k)) then d
  else d.updLt (fun x => { x with queue := x.queue ++ [⟨h, k, t, 0⟩] })

/-- A build of head h waits or runs. -/
def Dev.buildPending (d : Dev) (h : Nat) : Bool :=
  d.lt.queue.any (fun b => decide (b.head = h)) || (match d.lt.cur with | some c => decide (c.1.head = h) | none => false)

/-! ## The set directory (R117, R118) -/

/-- A directory entry (R117). -/
structure DirEntry where
  idx : Nat
  serial : Nat
  addr : Nat
  base : Nat
  kind : Nat
  count : Nat
  check : Nat
  deriving DecidableEq, Repr

/-- Entry i of the directory, by the memory as the last store read it. -/
def Dev.dirEntry (d : Dev) (m : Mem) (i : Nat) : DirEntry :=
  let a := d.rdN Reg.LT_DIR_BASE + 32 * i
  ⟨i, m.frameNat a 8, m.frameNat (a + 8) 8, m.frameNat (a + 16) 2, m.frameNat (a + 18) 1, m.frameNat (a + 20) 4, m.frameNat (a + 24) 4⟩

/-- An entry is marked bad (R119). -/
def Dev.dirBad (d : Dev) (i : Nat) : Bool := d.bit (Reg.LT_DIR_BAD (i / 32)) (i % 32)
def Dev.markBad (d : Dev) (i : Nat) : Dev := d.flag (Reg.LT_DIR_BAD (i / 32)) (i % 32)

/-- The entries of a serial. -/
def Dev.dirOf (d : Dev) (m : Mem) (serial : Nat) : List DirEntry :=
  ((List.range (d.fld Reg.LT_DIR_COUNT 8 0)).map (d.dirEntry m)).filter (fun e => decide (e.serial = serial) && (decide (e.kind = 1) || decide (e.kind = 2)))

/-- Of two candidates with one base, the one that wins (R118). -/
def DirEntry.wins (a b : DirEntry) : Bool := decide (b.kind < a.kind) || (decide (a.kind = b.kind) && decide (b.idx < a.idx))

/-- A better candidate for lo: greater base, or the winner of equals. -/
def bestLo (l : List DirEntry) (t : Nat) : Option DirEntry :=
  (l.filter (fun e => decide (e.base ≤ t))).foldl (fun o e => match o with
    | none => some e
    | some b => if b.base < e.base ∨ (b.base = e.base ∧ e.wins b = true) then some e else some b) none
def bestHi (l : List DirEntry) (t : Nat) : Option DirEntry :=
  (l.filter (fun e => decide (t < e.base))).foldl (fun o e => match o with
    | none => some e
    | some b => if e.base < b.base ∨ (b.base = e.base ∧ e.wins b = true) then some e else some b) none

/-- The sets lo and hi for temperature t (R118). -/
def pickSets (l : List DirEntry) (t : Nat) : Option (DirEntry × DirEntry) :=
  match bestLo l t, bestHi l t with
  | some a, some b => some (a, b)
  | some a, none => some (a, a)
  | none, some b => some (b, b)
  | none, none => none

/-- The last store reads the whole directory (R118, R387). -/
def Dev.readDir (d : Dev) (m : Mem) (t : Nat) : Dev × Mem := d.unitRead m t 9 (d.rdN Reg.LT_DIR_BASE) (32 * d.fld Reg.LT_DIR_COUNT 8 0)

/-- Scan the directory for a head's serial (R118): the candidates, with what the scan counts and reports. -/
def Dev.scanDir (d : Dev) (m : Mem) (t h : Nat) : List DirEntry × Dev :=
  let r := d.readDir m t
  let d := r.1
  let m := r.2
  let serial := d.rd64 (Reg.HP_SERIAL_LO h)
  let n := d.headRecords h
  let all := d.dirOf m serial
  let d := (all.filter (fun e => decide (e.count ≠ n))).foldl
    (fun d e => d.faultFlag t (uid 6 0 0) 0x0003 (e.idx + 256 * h) Reg.LT_FAULT 2) d
  let ok := all.filter (fun e => decide (e.count = n) && !d.dirBad e.idx)
  let d := if 8 < ok.length then d.bump Reg.LT_CNT_EXTRA else d
  let d := if ok.isEmpty then (d.faultFlag t (uid 6 0 0) 0x0001 (serial % 2 ^ 32) Reg.LT_FAULT 0).raise t 66 h else d
  (ok.take 8, d)

/-- A new or unread serial of head h (R132): FULL if sets exist, otherwise PROVISIONAL; answers whether a shutter event is wanted at once. For a
head whose calibration is not on the search waits until it is (log 199). -/
def Dev.newSerial (d : Dev) (m : Mem) (t h : Nat) : Dev × Bool :=
  if d.ltOn h then
    let r := d.scanDir m t h
    let d := r.2.updLth h (fun x => { x with search := false, report := if r.1.isEmpty then none else some (d.rd64 (Reg.HP_SERIAL_LO h)) })
    if r.1.isEmpty then (d.requestBuild h .provisional (d.lastSubstrate h), true)
    else (d.requestBuild h .full (d.lastSubstrate h), false)
  else (d.updLth h (fun x => { x with search := true, report := none }), false)

/-! ## Builds (R123 to R128) -/

/-- The pool shown and its rule checked (R122, R149). -/
def Dev.poolCheck (d : Dev) (t : Nat) : Dev :=
  let low := !d.poolRule
  let d := if low = true ∧ d.lt.poolLow = false then d.faultFlag t (uid 6 0 0) 0x0004 d.poolFree Reg.LT_FAULT 3 else d
  d.updLt (fun x => { x with poolLow := low })

/-- LT_BUILD_START (R123): take the first request, in order. While the head's second map still names a ready region, or an old one that a frame
uses, it waits, and the queue with it (R121, log 168). A build for a head that is off is discarded (R126); a REBASE of a provisional region is
FULL (R125); FULL and REBASE scan the directory (R118). DESIGN CHOICE: the base temperature of a PROVISIONAL region, for which R123 gives no T, is
the substrate temperature of the request (log 201). -/
def Dev.buildStart (d : Dev) (m : Mem) (t : Nat) : Dev :=
  match d.lt.cur, d.lt.queue with
  | none, b :: rest =>
    if d.ltOn b.head = false then d.updLt (fun x => { x with queue := rest })
    else if d.poolRule = false ∨ (d.lth b.head).ready.isSome = true ∨ (d.lth b.head).old.isEmpty = false then d
    else
      let x := d.lth b.head
      let kind := if b.kind = .rebase ∧ (match x.region with | some r => r.unity | none => true) = true then BuildKind.full else b.kind
      let needsOld := decide (kind = .shutter ∨ kind = .copy)
      let g := d.headGeom b.head
      match (if needsOld then x.region else some ⟨kind, g.1, g.2.1, g.2.2, [], b.temp, 0, 0, 0, 0, 0, true, none, 0⟩) with
      | none => d.updLt (fun x => { x with queue := rest })
      | some base =>
        let scan := if kind = .full ∨ kind = .rebase then d.scanDir m t b.head else ([], d)
        let d := scan.2
        let picked := pickSets scan.1 b.temp
        if (kind = .full ∨ kind = .rebase) ∧ picked.isNone = true then d.updLt (fun x => { x with queue := rest })
        else
          match allocGranules (fun k => decide (d.bankHealthy k ≠ 0)) 8000 (granulesOf base.count) d.lt.rot d.heldGranules [] with
          | none => d
          | some a =>
            let serial := d.rd64 (Reg.HP_SERIAL_LO b.head)
            let r := { base with kind := kind, granules := a.1, targets := none, serial := if needsOld then base.serial else serial }
            let r := match picked with
              | some p => { r with
                  base := b.temp, tl := p.1.base, th := p.2.base, lo := p.1.idx, hi := p.2.idx,
                                   w := lerpWeight (decide (p.1.idx = p.2.idx)) b.temp p.1.base p.2.base, unity := false }
              | none => r
            (d.updLth b.head (fun x => { x with promoted := [] })).updLt
              (fun x => { x with queue := rest, cur := some ({ b with kind := kind, serial := serial }, r), rot := a.2 % 16 })
  | _, _ => d

/-- The records of a set as read, if its read and its check are right (R119). -/
def setRecords (sets : List SetRead) (i : Nat) : Option (List Dword) :=
  match sets.find? (fun s => decide (s.entry.val = i)) with
  | some s => s.recs
  | none => none

/-- The entry passes its check (R117, R119). -/
def Dev.setGood (d : Dev) (m : Mem) (sets : List SetRead) (i : Nat) : Bool :=
  match setRecords sets i with
  | some rs => decide (crc32 (rs.map (fun v => leBytes 8 v.toNat)).flatten = (d.dirEntry m i).check) && decide (rs.length = (d.dirEntry m i).count)
  | none => false

/-- The error completion with which the read of a set failed. -/
def setError (sets : List SetRead) (i : Nat) : Option (Fin 3) := (sets.find? (fun s => decide (s.entry.val = i) && s.recs.isNone)).bind (fun s => s.err)

/-- Record k of a set as read. -/
def setRec (sets : List SetRead) (i k : Nat) : Rec := Rec.ofBits (((setRecords sets i).getD []).getD k 0)

/-- The accumulator of head h (R140), by the memory as it was read: sum and count of array pixel i; sum and count of the blind pixels of
column x. -/
def Dev.accPixel (d : Dev) (m : Mem) (h i : Nat) : Nat × Nat :=
  let v := m.frameNat (d.ltWord h (Reg.LT_HDh_ACC h) + 4 * i) 4
  (nfld v 24 0, nfld v 30 25)
def accColumns (base rows cols : Nat) : Nat := base + (4 * rows * cols + 63) / 64 * 64
def Dev.accColumn (d : Dev) (m : Mem) (h rows cols x : Nat) : Int × Nat :=
  let v := m.frameNat (accColumns (d.ltWord h (Reg.LT_HDh_ACC h)) rows cols + 8 * x) 8
  (sgn 40 (nfld v 39 0), nfld v 49 40)
/-- The accumulator of head h for a frame of `rows` × `cols` is read (R387). -/
def Dev.readAcc (d : Dev) (m : Mem) (t h rows cols : Nat) : Dev × Mem :=
  let base := d.ltWord h (Reg.LT_HDh_ACC h)
  d.unitRead m t 9 base (accColumns base rows cols + 8 * cols - base)

/-- A finished region becomes ready, and a FULL one for the serial that is wanted is reported (R128, R132). -/
def Dev.buildReady (d : Dev) (b : Build) (r : Region) : Dev :=
  let h := b.head
  let x := d.lth h
  let told := decide (x.report = some b.serial) && decide (r.kind = .full)
  let d := d.setLth h { x with ready := some r, report := if told then none else x.report, promoted := [] }
  let d := if told then d.updHp h (fun p => if p.state = .provisional then { p with reported := true } else p) else d
  d.updLt (fun l => { l with cur := none })

/-- A build is given up: its granules return to the pool (R126). -/
def Dev.buildAbandon (d : Dev) : Dev := d.updLt (fun l => { l with cur := none })

/-- Record k of a FULL or REBASE build and the clamps made (R124, R125). -/
def Dev.newRecord (d : Dev) (m : Mem) (poisoned : List Nat) (sets : List SetRead) (r : Region) (old : Option Region) (carry : Bool) (k : Nat) : Rec × Nat :=
  let a := Rec.between (setRec sets r.lo k) (setRec sets r.hi k) r.w
  match old with
  | none => a
  | some o =>
    let i := Rec.between (setRec sets o.lo k) (setRec sets o.hi k) (lerpWeight (decide (o.lo = o.hi)) o.base o.tl o.th)
    let b := Rec.rebased a.1 (d.recordAt poisoned m o k) i.1 carry
    (b.1, a.2 + b.2)

/-- Apply carried noise promotions to a record (R127). -/
def promoteRec (l : List (Nat × Nat)) (k : Nat) (r : Rec) : Rec :=
  (l.filter (fun p => decide (p.1 = k))).foldl (fun r p => { r with flags := max r.flags p.2 }) r

/-- The writes of a region's records. -/
def Region.writes (r : Region) (f : Nat → Rec) : List MemWrite :=
  (List.range r.count).map (fun k => .last (r.place k) (f k).toBits)

/-- LT_BUILD_DONE (R119, R124 to R128, R141): `sets` holds the set records as host memory gave them; `poisoned` the last records that read
uncorrectable. -/
def Dev.buildDone (d : Dev) (m : Mem) (t : Nat) (poisoned : List Nat) (sets : List SetRead) : Dev × List MemWrite :=
  match d.lt.cur with
  | none => (d, [])
  | some (b, r) =>
    let h := b.head
    let x := d.lth h
    let n := r.count
    if d.ltOn h = false then (d.buildAbandon, [])
    else
      let old := match x.region with
        | some o => if o.fits r.cols r.blind r.rows then some o else none
        | none => none
      let unread := match old with
        | some o => (List.range n).any (fun k => poisoned.contains (o.place k))
        | none => false
      let d := match old, b.kind with
        | none, _ | _, .full | _, .provisional => d
        | some o, _ => ((List.range n).map o.place).foldl (fun (d : Dev) x => if poisoned.contains x then d.readLastUE t 9 x else d) d
      let oldSets := match old with
        | some o => if o.unity then [] else [o.lo, o.hi]
        | none => []
      let oldBad := oldSets.any d.dirBad
      let wants := match b.kind with
        | .full => [r.lo, r.hi]
        | .rebase => [r.lo, r.hi] ++ (if oldBad then [] else oldSets)
        | .copy => if unread then oldSets else []
        | _ => []
      let dir := wants.foldl (fun (q : Dev × Mem) i => q.1.unitRead q.2 t 9 (q.1.rdN Reg.LT_DIR_BASE + 32 * i) 32) (d, m)
      let d := dir.1
      let m := dir.2
      match wants.find? (fun i => !d.setGood m sets i) with
      | some i =>
        ((((d.directError t (setError sets i)).markBad i).faultFlag t (uid 6 0 0) 0x0002 (i + 256 * h) Reg.LT_FAULT 1).buildAbandon, [])
      | none =>
        let fin := fun (d : Dev) (f : Nat → Rec) => (d.buildReady b r, r.writes (fun k => promoteRec x.promoted k (f k)))
        match b.kind with
        | .full =>
          let f := d.newRecord m poisoned sets r none false
          fin (d.bumpBy Reg.LT_CNT_CLAMP ((List.range n).map (fun k => (f k).2)).sum) (fun k => (f k).1)
        | .rebase =>
          let f := d.newRecord m poisoned sets r old (!oldBad)
          let d := if oldBad then d.bump Reg.LT_CNT_NOCARRY else d
          fin (d.bumpBy Reg.LT_CNT_CLAMP ((List.range n).map (fun k => (f k).2)).sum) (fun k => (f k).1)
        | .provisional => fin d (fun _ => Rec.unity)
        | .copy =>
          match old with
          | none => (d.buildAbandon, [])
          | some o => fin d (fun k =>
              if poisoned.contains (o.place k) then
                (if o.unity then Rec.unity else (Rec.between (setRec sets o.lo k) (setRec sets o.hi k) (lerpWeight (decide (o.lo = o.hi)) o.base o.tl o.th)).1)
              else d.recordAt poisoned m o k)
        | .shutter =>
          match old, x.shut with
          | some o, some ev =>
            if unread then
              ((d.faultFlag t (uid 6 0 0) 0x0005 (h + 16 * 2) Reg.LT_FAULT 4).buildAbandon, [])
            else
              let N := d.ltFld h (Reg.LT_HDh_SHSEQ h) 17 12
              let dtm := meanList (ev.samples.map Prod.fst)
              let tb := meanList (ev.samples.map (fun p => (p.2 : Int)))
              let img := d.ltWord h (Reg.LT_HDh_IMG h)
              let v := d.unitRead m t 9 img 4096
              let e := (interp86 (fun i => sgn 32 (v.2.frameNat (img + 4 * i) 4)) 1024 6 (-(2 ^ 31)) (2 ^ 31 - 1) tb).1
              let acc := v.1.readAcc v.2 t h r.rows r.cols
              let d := acc.1
              let m := acc.2
              let lim := d.ltFld h (Reg.LT_HDh_SHLIM h) 15 0
              -- array pixels in index order; blind lines at the top or at the bottom keep their records
              let first := if d.bit (Reg.HP_BLIND h) 8 then 0 else r.blind * r.cols
              let f := fun k =>
                let q := d.recordAt poisoned m o k
                if k < first ∨ first + r.rows * r.cols ≤ k then (q, false, 0)
                else let a := d.accPixel m h (k - first); q.shuttered a.1 a.2 N dtm e lim
              let d' := d.bumpBy Reg.LT_CNT_SHUT_SUSPECT ((List.range n).filter (fun k => (f k).2.1)).length
              let d' := d'.bumpBy Reg.LT_CNT_CLAMP ((List.range n).map (fun k => (f k).2.2)).sum
              let tg := (List.range r.cols).map (fun c =>
                let a := d.accColumn m h r.rows r.cols c
                if a.2 = 0 then none else some (meanOf a.1 a.2))
              let at_ := accColumns (d.ltWord h (Reg.LT_HDh_ACC h)) r.rows r.cols + 16384
              let tw := ((List.range r.cols).map (fun c => match tg.getD c none with
                | some v => frameWrites (at_ + 4 * c) 4 (unsgn 32 v)
                | none => [])).flatten
              ((d'.buildReady b { r with targets := some tg }), r.writes (fun k => promoteRec x.promoted k (f k).1) ++ tw)
          | _, _ => (d.buildAbandon, [])

/-- A stream latches the ready region at an output frame (R128, R129): answers the head's new state, and whether a shutter build came
into force. The old region is kept until no frame uses it. -/
def Dev.latchReady (d : Dev) (t h : Nat) : Dev × Option Region :=
  let x := d.lth h
  match x.ready with
  | none => (d, none)
  | some r =>
    let d := d.setLth h { x with
      region := some r, ready := none, old := x.old ++ x.region.toList, wsGen := (x.wsGen + 1) % 65536, farSeen := false,
      shutCount := x.shutCount + b2n (decide (r.kind = .shutter)), shutTargets := if r.kind = .shutter then r.targets else x.shutTargets }
    let d := match r.kind with
      | .full => d.raise t 64 h
      | .rebase => (d.bump Reg.LT_CNT_REBASE).raise t 64 h
      | .shutter => (d.bump Reg.LT_CNT_SHUTTER).raise t 65 h
      | _ => d
    let d := d.wrN (Reg.LT_HDh_BASE h) (r.base % 65536 + 65536 * (r.lo % 256) + 2 ^ 24 * (r.hi % 256))
    (d, some r)

/-! ## Re-base (R130, R131) -/

/-- A shutter event of head h runs. -/
def Dev.shutRunning (d : Dev) (h : Nat) : Bool := (d.lth h).shut.isSome

/-- LT_REBASE_CHECK at a closed frame tag (R130). -/
def Dev.rebaseCheck (d : Dev) (h : Nat) : Dev :=
  let x := d.lth h
  if d.ltOn h = false ∨ d.ltBit h (Reg.LT_HDh_CFG h) 4 = false then d
  else
    match x.region with
    | none => d
    | some r =>
      if d.bit (Reg.HP_TAGw h 7) 6 then d
      else
        let sub := d.lastSubstrate h
        let far := decide (d.ltFld h (Reg.LT_HDh_BAND h) 15 0 < ((sub : Int) - r.base).natAbs)
        let c := if far then x.rebaseCount + 1 else 0
        if c < d.ltFld h (Reg.LT_HDh_BAND h) 19 16 then d.setLth h { x with rebaseCount := c, deferred := x.deferred && far }
        else if d.headProvisional h = true ∨ d.buildPending h = true ∨ x.shut.isSome = true then
          let d := if x.deferred then d else d.bump Reg.LT_CNT_DEFER
          d.setLth h { x with rebaseCount := c, deferred := true }
        else (d.setLth h { x with rebaseCount := 0, deferred := false }).requestBuild h .rebase sub

/-- A frame latches with ΔT far out of band (R131). -/
def Dev.farBand (d : Dev) (t h : Nat) (dT : Int) : Dev :=
  if (d.lth h).farSeen = false ∧ 4 * d.ltFld h (Reg.LT_HDh_BAND h) 15 0 < dT.natAbs ∧ (d.lth h).region.isSome = true then
    (d.faultFlag t (uid 6 0 0) 0x0006 (h + 65536 * unsgn 16 dT) Reg.LT_FAULT 5).updLth h (fun x => { x with farSeen := true })
  else d

/-! ## Probes (R134, R135) and the roller reference (R136) -/

def Dev.probe (d : Dev) (p : Nat) : Probe := SMap.get Probe.reset d.lt.probes p
def Dev.setProbe (d : Dev) (p : Nat) (x : Probe) : Dev := d.updLt (fun l => { l with probes := SMap.set Probe.reset l.probes p x })
/-- A probe value's age at time t, in DRIVE ticks modulo 2^32 (R135). -/
def Probe.age (x : Probe) (t : Nat) : Nat := (t % 2 ^ 32 + 2 ^ 32 - x.time % 2 ^ 32) % 2 ^ 32
/-- The limit of a probe's age (R135, R147). -/
def Dev.probeMaxAge (d : Dev) (p : Nat) : Nat := (d.probe p).maxAge
/-- A probe's value, if it is valid at time t (R135). -/
def Dev.probeValue (d : Dev) (t p : Nat) : Option Nat :=
  let x := d.probe p
  if x.age t ≤ d.probeMaxAge p then x.value else none

/-- The heads that use a probe: their blade, roller or housing (R135, R148). -/
def Dev.probeUsers (d : Dev) (p : Nat) : List Nat :=
  (List.range 8).filter (fun h => d.ltOn h && (decide (d.ltFld h (Reg.LT_HDh_PROBE h) 3 0 = p) || decide (d.ltFld h (Reg.LT_HDh_PROBE h) 7 4 = p)
    || decide (d.ltFld h (Reg.LT_HDh_PROBE h) 11 8 = p)))

/-- The probe of head h's roller. -/
def Dev.rollerProbe (d : Dev) (h : Nat) : Nat := d.ltFld h (Reg.LT_HDh_PROBE h) 7 4

/-- The roller reference that a stream of head h latches at time t, where it is valid (R136). -/
def Dev.rollerRef (d : Dev) (t h : Nat) : Option Int :=
  if d.ltBit h (Reg.LT_HDh_CFG h) 1 = true ∧ d.fld (Reg.HP_RIND h) 22 16 ≠ 0 ∧ (d.probeValue t (d.rollerProbe h)).isSome = true then (d.lth h).ref
  else none

/-- What LT_HDh_REF shows: the last reference, and whether it is valid (R136, R149). -/
def Dev.refWord (d : Dev) (h : Nat) : Nat :=
  d.fld (Reg.LT_HDh_REF h) 23 0 + 2 ^ 31 * b2n (d.ltBit h (Reg.LT_HDh_CFG h) 1 && decide (d.fld (Reg.HP_RIND h) 22 16 ≠ 0) &&
    d.bit (Reg.LT_PRp_VAL (d.rollerProbe h)) 16 && (d.lth h).ref.isSome)

/-- The anchor unit forms and shows the roller reference of head h (R136). -/
def Dev.showRef (d : Dev) (m : Mem) (t h : Nat) : Dev :=
  match (if d.ltBit h (Reg.LT_HDh_CFG h) 1 then d.probeValue t (d.rollerProbe h) else none) with
  | some v =>
    let img := d.ltWord h (Reg.LT_HDh_IMG h) + 0x1000
    let r := d.unitRead m t 9 img 4096
    let d := r.1
    let ref := (interp86 (fun i => sgn 32 (r.2.frameNat (img + 4 * i) 4)) 1024 6 (-8388608) 8388607 v).1 + sgn 24 (d.ltFld h (Reg.LT_HDh_RTRIM h) 23 0)
    (d.updLth h (fun x => { x with ref := some ref })).wrN (Reg.LT_HDh_REF h) (unsgn 24 ref)
  | none => d

/-- A probe takes a converter result x with its paired DTIME (R134, R135); `x` has passed the conditions of R134 but for being newer. -/
def Dev.probeResult (d : Dev) (m : Mem) (t p : Nat) (x : Int) (time : Nat) : Dev :=
  let b := d.rdN Reg.LT_PROBE_BASE + 512 * p
  let r := d.unitRead m t 9 b 512
  let d := r.1
  let v := ((interp86 (fun i => r.2.frameNat (b + 2 * i) 2) 256 16 0 65535 (x + 8388608)).1).toNat
  let q := d.probe p
  let jump := d.fld (Reg.LT_PRp_LIM p) 31 16
  let wild := match q.value with
    | some o => decide (jump < ((v : Int) - o).natAbs)
    | none => false
  if wild = true ∧ q.rejects < 2 then
    (d.bump Reg.LT_CNT_PROBE_REJ).setProbe p { q with rejects := q.rejects + 1 }
  else
    let d := if wild then d.bump Reg.LT_CNT_PROBE_REJ else d
    let d := d.setProbe p ⟨some v, time % 2 ^ 32, 0, false, 65536 * d.fld (Reg.LT_PRp_LIM p) 14 0⟩
    let d := (d.wrN (Reg.LT_PRp_VAL p) (v + 65536)).wrN (Reg.LT_PRp_TIME p) time
    ((List.range 8).filter (fun h => decide (d.ltFld h (Reg.LT_HDh_PROBE h) 7 4 = p) && d.ltBit h (Reg.LT_HDh_CFG h) 1)).foldl (fun d h => d.showRef m t h) d

/-- When a probe's value outlives max_age (R135). -/
def Dev.probeDue (d : Dev) (now : Now) (p : Nat) : Option Nat :=
  let x := d.probe p
  if x.value.isSome = true ∧ x.reported = false then
    some (now.dtime + (d.probeMaxAge p + 1 - x.age now.dtime))
  else none

/-- A probe turns invalid: fault 0x0009 once (R135), with the element of a head that uses it, or 0 where none does (R148). DESIGN CHOICE: of several
heads the lowest (log 202). -/
def Dev.probeExpire (d : Dev) (t p : Nat) : Dev :=
  let d := d.setProbe p { d.probe p with reported := true }
  let d := d.clrBits (Reg.LT_PRp_VAL p) 65536
  d.faultFlag t (uid 6 2 (match d.probeUsers p with | h :: _ => h + 1 | [] => 0)) 0x0009 p Reg.LT_FAULT 8

/-! ## Head balance (R144 to R146) -/

/-- The head at position w of the order; 8 and above end it (R149). -/
def Dev.balHead (d : Dev) (w : Nat) : Nat := d.balFld Reg.LT_BAL_ORDER (4 * w + 3) (4 * w)
/-- The heads in order. -/
def Dev.balOrder (d : Dev) : List Nat := ((List.range 8).map d.balHead).takeWhile (fun h => decide (h < 8))
def Dev.welt (d : Dev) (w : Nat) : WeltSums := SMap.get WeltSums.reset d.lt.welts w

/-- Division rounded half away from zero (R146). -/
def roundDiv (a : Int) (b : Nat) : Int :=
  if 0 ≤ a then (2 * a + b) / (2 * b) else -((2 * (-a) + b) / (2 * b))

/-- dm and k of a usable welt, `far` being the right head if `fr` (R145). -/
def weltFit (s : WeltSums) (fr gainEn : Bool) (span : Nat) : Int × Nat :=
  let near := if fr then s.l else s.r
  let far := if fr then s.r else s.l
  let ff := if fr then s.rr else s.ll
  let n := s.n
  let dm := (2 * ((far : Int) - near) + n) / (2 * n)
  let vf : Int := (n * ff : Nat) - (far * far : Nat)
  let cv : Int := (n * s.lr : Nat) - (near * far : Nat)
  let k : Nat := if gainEn = true ∧ ((n * n * span * span : Nat) : Int) ≤ vf ∧ 0 < vf then
      (clampI 0 65535 (Int.tdiv (cv * 16384 + Int.tdiv vf 2) vf)).toNat else 16384
  (dm, k)

/-- A welt can be used (R144). -/
def Dev.weltUsable (d : Dev) (w : Nat) : Bool :=
  decide (16 * d.balFld Reg.LT_BAL_CFG 15 8 ≤ (d.welt w).n) && decide (0 < (d.welt w).n) && !d.lt.spoiled.contains (d.balHead w) && !d.lt.spoiled.contains (d.balHead (w + 1))

/-- The welts between the reference (position r) and position p, from the reference outward, each with whether its far head is the right one. -/
def pathOf (r p : Nat) : List (Nat × Bool) :=
  if r < p then (List.range (p - r)).map (fun i => (r + i, true)) else (List.range (r - p)).map (fun i => (r - 1 - i, false))

/-- gain_b and offset_b of a head from corr and g (R146). -/
def Dev.publishBalance (d : Dev) (h : Nat) : Dev :=
  let x := d.lth h
  let slope := d.ltFld h (Reg.LT_HDh_KSLOPE h) 15 0
  let pivot := sgn 24 (d.ltFld h (Reg.LT_HDh_PIVOT h) 23 0)
  let off := roundDiv (pivot * (16384 - (x.g : Int))) 16384 + roundDiv (x.corr * slope) 256
  ((d.wrN (Reg.LT_HDh_BALG h) (x.g % 65536)).wrN (Reg.LT_HDh_BALO h) (unsgn 24 off)).wrN (Reg.LT_HDh_CORR h) (unsgn 16 x.corr)

/-- The new corr and g of the head at position p (R145), and whether each stands at its limit (R146). -/
def Dev.balanceHead (d : Dev) (t r p : Nat) : Dev :=
  let h := d.balHead p
  let path := pathOf r p
  if path.any (fun w => !d.weltUsable w.1) then d
  else
    let gainEn := d.balBit Reg.LT_BAL_CFG 4
    let span := d.balFld Reg.LT_BAL_SPAN 15 0
    let fits := path.map (fun w => weltFit (d.welt w.1) w.2 gainEn span)
    let e := -((fits.map Prod.fst).sum)
    let mfac : Nat := fits.foldl (fun (m : Nat) (f : Int × Nat) => (m * f.2 + 8192) / 16384) 16384
    let ostep : Int := d.balFld Reg.LT_BAL_STEP 15 0
    let gstep : Int := d.balFld Reg.LT_BAL_STEP 31 16
    let omax : Int := d.balFld Reg.LT_BAL_MAX 15 0
    let gmax : Int := d.balFld Reg.LT_BAL_MAX 31 16
    let x := d.lth h
    let corr := clampI (-omax) omax (x.corr + clampI (-ostep) ostep e)
    let g1 : Int := (x.g * mfac + 8192) / 16384
    let g2 := (x.g : Int) + clampI (-gstep) gstep (g1 - x.g)
    let g := clampI (16384 - gmax) (16384 + gmax) g2
    let atO := decide (corr = omax ∨ corr = -omax)
    let atG := decide (g = 16384 + gmax ∨ g = 16384 - gmax)
    let d := d.setLth h { x with corr := corr, g := g.toNat }
    let again := match x.limitAt with
      | some w => decide (64 ≤ d.lt.winNo - w)
      | none => true
    let d := if (atO || atG) = true ∧ again = true then
        (d.faultFlag t (uid 6 3 0) 0x000A (h + 16 * b2n atO + 32 * b2n atG) Reg.LT_FAULT 9).updLth h (fun x => { x with limitAt := some d.lt.winNo })
      else d
    d.publishBalance h

/-- A balance window begins: the heads that are provisional or in a shutter event spoil it from the start (R144). -/
def Dev.balanceWindow (d : Dev) : Dev :=
  d.updLt (fun l => { l with welts := [], winRows := 0, spoiled := (List.range 8).filter (fun h => d.shutRunning h || d.headProvisional h) })

/-- LT_BALANCE_WINDOW_END (R144 to R146): the window's rows are in. -/
def Dev.balanceWindowEnd (d : Dev) (t : Nat) : Dev :=
  if d.bit Reg.LT_CFG 0 = true ∧ d.balBit Reg.LT_BAL_CFG 0 = true ∧ d.balFld Reg.LT_BAL_CFG 31 16 ≤ d.lt.winRows then
    -- changed settings take effect at the next window (R147)
    let order := d.balOrder
    let ref := d.balFld Reg.LT_BAL_CFG 3 1
    let d := match order.findIdx? (fun h => decide (h = ref)) with
      | some r => ((List.range order.length).filter (fun p => decide (p ≠ r))).foldl (fun (d : Dev) p => d.balanceHead t r p) d
      | none => d
    let d := (d.updLth ref (fun x => { x with corr := 0, g := 16384 })).publishBalance ref
    ((d.updLt (fun l => { l with winNo := l.winNo + 1, bal := [] })).balanceWindow).raise t 68 0
  else d

/-- Balance starts again from its starting values (R145). -/
def Dev.balanceReset (d : Dev) : Dev :=
  (List.range 8).foldl (fun d h => (d.updLth h (fun x => { x with corr := 0, g := 16384 })).publishBalance h) d

/-! ## Commands -/

def execLtFullBuildCmd (h : Fin 8) (s : State) : Result :=
  s.act (fun _ d => if d.ltOn h then d.requestBuild h .full (d.lastSubstrate h) else d)
def execLtBalanceResetCmd (s : State) : Result := s.act (fun _ d => d.balanceReset)

def execLtProbeExpire (p : Fin 16) (s : State) : Result :=
  s.actDue (fun now d => d.probeDue now p) (fun now d => d.probeExpire now.dtime p)
def execLtBalanceWindowEnd (s : State) : Result := s.act (fun now d => d.balanceWindowEnd now.dtime)

end Sys2Proof.Machine
end

