-- ==== Sys2Proof/Machine/PixelMath.lean ====
section
/-! DEFINITION. Machine/PixelMath.lean: the arithmetic of the pixel correction pipeline, stages 2 to 8 (R86 to R102), on the items that a
frame latched (R82). -/
namespace Sys2Proof.Machine

/-! ## The latched words of a context (R113, R114) -/

/-- Latched word i of the context: 0 CFG, 1 TABLE, 2 STATE, 3 HIST, 4 HOLD, 5 SLOT, 6 MERGE, 7 KNEE, 8 PITCH, 9 ANCH, 10 LAG, 11 NOISE,
12 C2T, 13 INV, 14 LATE. -/
def Work.word (w : Work) (i : Nat) : Nat := w.cfg.getD i 0
/-- Bit i of the latched PL_Sx_CFG. -/
def Work.cfgBit (w : Work) (i : Nat) : Bool := (w.word 0).testBit i
def Work.table (w : Work) : Nat := w.word 1
/-- Memory as the table readers see it: the latched image (R82). -/
def Work.tables (w : Work) (m : Mem) : Mem := { m with frame := w.image }
def Work.total (w : Work) : Nat := w.blind + w.rows
/-- The first received line that is an array row. -/
def Work.firstArray (w : Work) : Nat := if w.blindBottom then 0 else w.blind
/-- Received line i is an array row; its index. -/
def Work.rowOf (w : Work) (i : Nat) : Option Nat :=
  if w.firstArray ≤ i ∧ i < w.firstArray + w.rows then some (i - w.firstArray) else none
/-- Array row y is a rind row. -/
def Work.isRind (w : Work) (y : Nat) : Bool := decide (w.rindFirst ≤ y) && decide (y < w.rindFirst + w.rindCount)

/-! ## Stages 1 and 2 (R87, R88) -/

/-- A linear count with its marks. -/
structure P2 where
  lin : Nat
  fill : Bool
  sat : Bool
  deriving DecidableEq, Repr

/-- The linear count of a raw value (R88). -/
def linCount (m : Mem) (table r : Nat) : Int × Bool := interp86 (fun i => m.frameNat (table + 2 * i) 2) 4096 2 0 65535 r

/-- A line after stages 1 and 2. -/
def stage2 (m : Mem) (table cols : Nat) (l : HLine) : List P2 :=
  (List.range cols).map (fun x => let v := linCount m table (l.px.getD x 0); ⟨v.1.toNat, decide (l.fillFrom ≤ x), v.2⟩)

/-! ## Stage 3 (R90 to R92) -/

/-- A scene count with its marks. -/
structure P3 where
  scene : Int
  single : Bool
  fill : Bool
  sat : Bool
  deriving DecidableEq, Repr

/-- scene_hi of R91. -/
def sceneHi (hi ratio : Nat) : Nat := (hi * 65536 + ratio / 2) / ratio
/-- The scene count of one contribution (R92). -/
def sceneOne (identity ratio lin : Nat) : Int := if identity = 1 then sceneHi lin ratio else lin * 16

/-- The merged scene count of R91, and whether it was clamped. -/
def sceneMerge (ratio kneeLo kneeHi lo hi : Nat) : Int × Bool :=
  let w := clampI 0 256 (Int.tdiv (((kneeHi : Int) - hi) * 256 + ((kneeHi : Int) - kneeLo) / 2) ((kneeHi : Int) - kneeLo))
  let v := sar (w * sceneHi hi ratio + (256 - w) * (lo * 16 : Nat) + 128) 8
  (clampI 0 1048575 v, decide (v < 0) || decide (1048575 < v))

/-- A pixel of merge(e, f) (R91): `e` is the resampled contribution with its fill mark, none outside the array (R90); `fid` is the identity
of f, and e's is the other. -/
def mergePixel (ratio kneeLo kneeHi fid : Nat) (e : Option (Nat × Bool)) (f : P2) : P3 :=
  match e with
  | none => ⟨sceneOne fid ratio f.lin, true, f.fill, f.sat⟩
  | some (ev, efill) =>
    if efill then ⟨sceneOne fid ratio f.lin, true, f.fill, f.sat⟩
    else if f.fill then ⟨sceneOne (1 - fid) ratio ev, true, false, f.sat⟩
    else
      let s := if fid = 1 then sceneMerge ratio kneeLo kneeHi ev f.lin else sceneMerge ratio kneeLo kneeHi f.lin ev
      ⟨s.1, false, false, f.sat || s.2⟩

/-- The shift of R90 in rows, Q.8. DESIGN CHOICE: a product that leaves 64 bits, which R79 gives no result, is computed exactly (log 196). -/
def mergeShift (dw : Int) (pitch : Nat) : Int := roundDiv (dw * 256) pitch

/-- The linear count and fill mark of the held frame at received line i, column x (R88, R107). -/
def holdAt (m : Mem) (hold cols : Nat) (fills : List Nat) (i x : Nat) : Nat × Bool :=
  (m.frameNat (hold + 2 * (i * cols + x)) 2, decide (fills.getD i 0 ≤ x))

/-- The contribution of the held frame to received line i, column x (R90). -/
def Work.heldAt (w : Work) (m : Mem) (e : Held) (i x : Nat) : Option (Nat × Bool) :=
  let at_ := fun j => holdAt m (w.word 4) w.cols e.fills j x
  match w.rowOf i with
  | none => some (at_ i)
  | some y =>
    let s := mergeShift (w.id.wpos - e.id.wpos) (nfld (w.word 8) 23 0)
    let p := if w.cfgBit 15 then (y : Int) * 256 + s else (y : Int) * 256 - s
    if 0 ≤ p ∧ p ≤ ((w.rows : Int) - 1) * 256 then
      let j := w.firstArray + (p / 256).toNat
      let g := (p % 256).toNat
      let a := at_ j
      if g = 0 then some a
      else let b := at_ (j + 1); some ((a.1 * (256 - g) + b.1 * g + 128) / 256, a.2 || b.2)
    else none

/-- A line after stage 3. -/
def Work.stage3 (w : Work) (m : Mem) (i : Nat) (l : List P2) : List P3 :=
  let ratio := nfld (w.word 6) 15 0
  match w.kind with
  | .merged e =>
    (List.range w.cols).map (fun x =>
      mergePixel ratio (nfld (w.word 7) 15 0) (nfld (w.word 7) 31 16) w.id.identity (w.heldAt m e i x) (l.getD x ⟨0, true, false⟩))
  | _ => l.map (fun p => ⟨if w.cfgBit 7 then sceneOne w.id.identity ratio p.lin else p.lin * 16, true, p.fill, p.sat⟩)

/-! ## Stage 4 (R93) -/

/-- A corrected count with its record and marks. -/
structure P4 where
  scene : Int
  c : Int
  record : Rec
  single : Bool
  fill : Bool
  sat : Bool
  deriving DecidableEq, Repr

/-- Clamp to the signed 24-bit counts. -/
def clamp24 (v : Int) : Int × Bool := (clampI (-8388608) 8388607 v, decide (v < -8388608) || decide (8388607 < v))

/-- The corrected count of R93. -/
def stage4Value (r : Rec) (scene dT : Int) : Int × Bool :=
  let d := sar (r.drift * dT + 128) 8
  clamp24 (sar ((4 * scene - r.offset - d) * r.gain + 8192) 14)

/-- The record of received line i, column x: of the latched region, or unity (R133); dead where it reads uncorrectable (R386). -/
def Work.record (w : Work) (d : Dev) (m : Mem) (i x : Nat) : Rec :=
  if w.unity then Rec.unity
  else match w.region with
    | some r => d.recordAt d.fab.poisonLast m r (i * w.cols + x)
    | none => Rec.unity

def Work.stage4 (w : Work) (d : Dev) (m : Mem) (i : Nat) (l : List P3) : List P4 :=
  (List.range l.length).map (fun x =>
    let p := l.getD x ⟨0, true, true, false⟩
    let r := w.record d m i x
    let c := stage4Value r p.scene w.dT
    ⟨p.scene, c.1, r, p.single, p.fill, p.sat || c.2⟩)

/-- The effective flag (R100). -/
def P4.flag (p : P4) : Nat := if p.fill then 3 else p.record.flags
/-- Usable for an anchor: good or watched, and not fill. -/
def P4.usable (p : P4) : Bool := !p.fill && decide (p.record.flags < 2)

/-! ## Stage 5 (R94 to R96) -/

/-- The new K of a column (R94): the target, the sum and count of usable blind pixels, the limit. -/
def newK (k target sum : Int) (n lim : Nat) : Int :=
  if n = 0 then k else clampI (-32768) 32767 (k + clampI (-(lim : Int)) lim (target - meanOf sum n - k))

/-- The new G (R94), and whether the residual passed the limit. -/
def newG (g ref mg : Int) (lim : Nat) : Int × Bool :=
  let rg := ref - mg
  (g + clampI (-(lim : Int)) lim (rg - g), decide (lim < (rg - g).natAbs))

/-- The anchored and balanced value (R94, R96). -/
def Work.stage5 (w : Work) (x : Nat) (c : Int) : Int × Bool :=
  let a := c + (if w.cfgBit 9 then w.ks.getD x 0 else 0) + (if w.cfgBit 10 then w.g else 0)
  clamp24 (if w.cfgBit 11 then sar (a * w.balG + 8192) 14 + w.balO else a)

/-! ## Stage 6 (R97, R98) -/

/-- The lag inverse of R97: history h, factor k (Q4.12), beta. -/
def lagInverse (a : Int) (h k beta : Nat) : Int × Bool :=
  clamp24 (a + sar ((a - 4 * h) * k * beta + 524288) 20)

/-- The history word of R98. -/
def historyWord (a : Int) (strike : Nat) : Nat := (clampI 0 1048575 (sar (a + 2) 2)).toNat + strike % 16 * 2 ^ 20

/-- The strike count after a look at one pixel (R100). -/
def strikeStep (e thr strike : Nat) : Nat := if thr < e then min (strike + 2) 15 else strike - 1

/-- The flag that a pixel is promoted to, if any (R100). -/
def promotion (strike watch suspect flag : Nat) : Option Nat :=
  if suspect ≤ strike ∧ flag < 2 then some 2 else if watch ≤ strike ∧ flag = 0 then some 1 else none

/-! ## Stage 7 (R99) -/

/-- A neighbour word's dx, dy (none for a reserved code), enable and weight (R99). -/
def neighbour (v : Nat) : Int × Option Int × Bool × Nat :=
  let dy := sgn 3 (nfld v 6 4)
  (sgn 4 (nfld v 3 0), if -2 ≤ dy ∧ dy ≤ 2 then some dy else none, nbit v 7, nfld v 15 8)

/-- A pixel of the rows between stages 6 and 7. -/
def bufAt (buf : List (Nat × List Px)) (cols : Nat) (y x : Int) : Option Px :=
  if 0 ≤ y ∧ 0 ≤ x ∧ x < cols then ((lookupD [] buf y.toNat)[x.toNat]?) else none

/-- The rule that replaces a pixel: its own, or the default rule where it is dead or fill; 0 for none (R99). -/
def ruleOf (pipEn : Bool) (dflt : Nat) (p : Px) : Nat :=
  if p.pip ≠ 0 ∧ pipEn = true then p.pip
  else if p.flag = 3 ∨ p.fill = true then dflt else 0

/-- What stage 7 makes of a pixel: value, effective flag, replaced, no usable neighbour. -/
structure P7 where
  v : Int
  flag : Nat
  replaced : Bool
  noNeighbour : Bool
  deriving DecidableEq, Repr

/-- Stage 7 at row y, column x (R99). -/
def stage7 (m : Mem) (table : Nat) (pipEn : Bool) (dflt cols : Nat) (buf : List (Nat × List Px)) (y x : Nat) (p : Px) : P7 :=
  let rule := ruleOf pipEn dflt p
  if rule = 0 then ⟨p.y, p.flag, false, false⟩
  else
    let ns := (List.range 8).filterMap (fun k =>
      let q := neighbour (m.frameNat (table + 0x2200 + 16 * rule + 2 * k) 2)
      match q.2.1 with
      | none => none
      | some dy =>
        if q.2.2.1 = false then none
        else match bufAt buf cols ((y : Int) + dy) ((x : Int) + q.1) with
          | some o => if 2 ≤ o.flag ∨ o.fill = true ∨ o.pip ≠ 0 then none else some (q.2.2.2, o.y)
          | none => none)
    let W := (ns.map Prod.fst).sum
    if 0 < W then ⟨meanOf ((ns.map (fun q => (q.1 : Int) * q.2)).sum) W, p.flag, true, false⟩
    else ⟨p.y, 3, false, true⟩

/-! ## Stage 8 (R101, R102) -/

/-- Radiance of a temperature code (R84, R101). -/
def radiance (m : Mem) (table : Nat) (t : Int) : Int × Bool :=
  interp86 (fun i => m.frameNat (table + 0x5200 + 4 * i) 4 % 2 ^ 24) 1024 6 0 16777215 t

/-- The temperature of a corrected count (R101), and whether any step clamped. -/
def stage8 (m : Mem) (table c2t inv eps tr : Nat) (y : Int) : Nat × Bool :=
  let tapp := interp86 (fun i => m.frameNat (table + 0x3200 + 2 * i) 2) 4096 (nfld c2t 28 24) 0 65535 (y - sgn 24 (nfld c2t 23 0))
  if eps = 0x8000 ∨ eps = 0 then (tapp.1.toNat, tapp.2)
  else
    let la := radiance m table tapp.1
    let lr := radiance m table tr
    let q := Int.tdiv ((la.1 - lr.1) * 32768 + (if 0 ≤ la.1 - lr.1 then 1 else -1) * (eps / 2 : Nat)) eps
    let lo := clampI 0 16777215 (lr.1 + q)
    let t := interp86 (fun i => m.frameNat (table + 0x6200 + 2 * i) 2) 2048 (nfld inv 28 24) 0 65535 (lo - nfld inv 23 0)
    (t.1.toNat, tapp.2 || la.2 || lr.2 || decide (lo ≠ lr.1 + q) || t.2)

/-- The output word of R102. -/
def outputWord (t flag : Nat) (replaced single nolag sat fill rind : Bool) : Nat :=
  t * 65536 + flag % 4 * 16384 + b2n replaced * 8192 + b2n single * 4096 + b2n nolag * 2048 + b2n sat * 1024 + b2n fill * 512 + b2n rind * 256

end Sys2Proof.Machine
end

