-- ==== Sys2Proof/Machine/Pipeline.lean ====
section
/-! DEFINITION. Machine/Pipeline.lean: the pixel pipelines (04): output headers, taps and statistics of a frame, pairing and latching
(R82, R89), the choice of work (R104), lines through the stages (R78), faults, takeover and handover (R110, R111) and replay (R108). -/
namespace Sys2Proof.Machine

/-! ## Access -/

def Dev.pipe (d : Dev) (p : Nat) : Pipe := SMap.get Pipe.reset d.pipes p
def Dev.setPipe (d : Dev) (p : Nat) (x : Pipe) : Dev := { d with pipes := SMap.set Pipe.reset d.pipes p x }
def Dev.updPipe (d : Dev) (p : Nat) (f : Pipe → Pipe) : Dev := d.setPipe p (f (d.pipe p))
def Dev.updWm (d : Dev) (f : WebMap → WebMap) : Dev := { d with wm := f d.wm }
def Dev.plGen (d : Dev) (p : Nat) : Nat := d.gen (.pl (Fin.ofNat 2 p))

/-- The frame at the head of a port's frames, which its stream takes next (R15). -/
def Dev.nextFrame (d : Dev) (n : Nat) : Option HFrame := (d.hpOf n).frames.head?.filter (fun f => !f.gone)

/-- The first frame of a list, as it has gone through: away with it, or marked while it still arrives. -/
def popFirst : List HFrame → List HFrame
  | [] => []
  | f :: l => if f.closed then l else { f with gone := true } :: l

/-- The frame has gone through: it leaves the port and frees its slot. One that still arrives leaves at its close. -/
def Dev.popFrame (d : Dev) (n : Nat) : Dev := d.updHp n (fun h => { h with frames := popFirst h.frames })

/-- The context is a replay context (R114). -/
def Dev.isReplay (d : Dev) (p s : Nat) : Bool := nbit (d.ctxCfg p s) 6
/-- The context is in-line. -/
def Dev.isInline (d : Dev) (p s : Nat) : Bool := nbit (d.ctxCfg p s) 4 && !d.isReplay p s

/-- The frame of a context has begun to be processed and is not complete. -/
def Ctx.busy (c : Ctx) : Bool := c.work.isSome

/-- Some context has head n's next frame in progress. -/
def Dev.taken (d : Dev) (n : Nat) : Bool :=
  allCtx.any (fun c => match (d.ctx c.1 c.2).work with
    | some w => w.own.isNone && decide (d.ctxHead c.1 c.2 = n)
    | none => false)

/-! ## Identity of a frame (R67, R83) -/

/-- The words of a tag as identity. -/
def idOfTag (tag : List Nat) : FrameId :=
  let w := fun i => tag.getD i 0
  {
    seq := w 0, settingsGen := nfld (w 1) 15 0, unitGen := nfld (w 1) 31 16, dtime := w 2 + 2 ^ 32 * w 3,
    wpos := sgn 64 (w 4 + 2 ^ 32 * w 5), sub := nfld (w 6) 15 0, flags := nfld (w 7) 15 0, identity := nfld (w 7) 0 0, unknown := nbit (w 7) 1 }

/-- The identity of a frame of port n: its tag's, or what is known of it before its close. -/
def Dev.frameId (d : Dev) (n : Nat) (f : HFrame) : FrameId :=
  if f.closed then idOfTag f.tag
  else
    let q := d.frameFacts n (d.hpOf n) f
    {
      seq := f.seq, settingsGen := q.gen.1, unitGen := f.unitGen, dtime := f.dtime, wpos := f.wpos, sub := q.sub,
      flags := f.flags ||| q.ident.1 ||| 2 * b2n q.ident.2, identity := q.ident.1, unknown := q.ident.2 }

/-! ## Output headers (R103) -/

/-- Word 9's marks, bits 0 to 11. -/
structure HeaderMarks where
  merged : Bool := false
  unpaired : Bool := false
  lost : Bool := false
  dropped : Bool := false
  lagOff : Bool := false
  gHeld : Bool := false
  kHeld : Bool := false
  gLimited : Bool := false
  late : Bool := false
  provisional : Bool := false
  unmerged : Bool := false
  takeover : Bool := false
  deriving DecidableEq, Repr

def HeaderMarks.bits (m : HeaderMarks) : Nat :=
  b2n m.merged + 2 * b2n m.unpaired + 4 * b2n m.lost + 8 * b2n m.dropped + 16 * b2n m.lagOff + 32 * b2n m.gHeld + 64 * b2n m.kHeld
    + 128 * b2n m.gLimited + 256 * b2n m.late + 512 * b2n m.provisional + 1024 * b2n m.unmerged + 2048 * b2n m.takeover

/-- The 12 words of a header. -/
def headerWords (id : FrameId) (plGen wsGen : Nat) (dT : Int) (partner : Nat) (m : HeaderMarks) (p s head : Nat) (g : Int)
    (lines cols : Nat) : List Nat :=
  [id.seq, id.settingsGen + 65536 * id.unitGen, plGen + 65536 * wsGen, id.dtime % 2 ^ 32, id.dtime / 2 ^ 32 % 2 ^ 32,
   unsgn 64 id.wpos % 2 ^ 32, unsgn 64 id.wpos / 2 ^ 32, id.sub + 65536 * unsgn 16 dT, id.flags % 65536 + 65536 * (partner % 65536),
   m.bits + 4096 * p + 8192 * head + 65536 * s, unsgn 32 g, lines + 65536 * cols]

/-- The partner of a merged frame. -/
def Work.partner (w : Work) : Option Held := match w.kind with
  | .merged e => some e
  | _ => none

/-- The frame carries provisional (R93, R133): that of a held frame is its tag's alone, for it does not reach stage 4. -/
def Work.provisional (w : Work) : Bool := w.id.flags.testBit 9 || (w.unity && decide (w.kind ≠ .hold))

/-- The header of a frame in progress, as far as it has come. -/
def Work.header (w : Work) (p s head : Nat) (late : Bool) : List Nat :=
  headerWords w.id w.plGen w.wsGen w.dT ((w.partner.map (fun e => e.id.seq)).getD 0)
    {
      merged := w.partner.isSome, lagOff := !w.histOk, gHeld := w.gHeld, kHeld := w.kHeld, gLimited := w.gLimited, late := late,
      provisional := w.provisional, unmerged := w.cfgBit 7 && w.partner.isNone && decide (w.kind ≠ .hold), takeover := w.takeover }
    p s head w.g w.rows w.cols

/-! ## Taps (R109) -/

/-- Bytes per line of tap t for a frame of `cols` columns: 16-bit containers at T0, 32-bit words elsewhere. -/
def tapBytes (t cols : Nat) : Nat := if t = 0 then 2 * cols else 4 * cols
/-- The whole record's bytes. -/
def tapRecord (t cols lines : Nat) : Nat := 64 + lines * ((tapBytes t cols + 63) / 64 * 64)

/-- The bytes of a tap's frame-memory ring, by its PL_TAPt_CFG (R114). -/
def tapRingSize (cfg : Nat) : Nat := 2 ^ (nfld cfg 11 8 + 16)
def Dev.tapSize (d : Dev) (p t : Nat) : Nat := tapRingSize (d.rdN (Reg.PL_TAPt_CFG p t))
def Dev.tapHost (d : Dev) (p t : Nat) : Bool := d.bit (Reg.PL_TAPt_CFG p t) 1
def Dev.tapRing (d : Dev) (p t : Nat) : Nat := d.fld (Reg.PL_TAPt_CFG p t) 6 2

/-- Reserve a whole record at tap t of pipeline p, or count the drop (R109). -/
def Dev.tapReserve (d : Dev) (now : Nat) (p t bytes : Nat) : Dev × Option TapRec :=
  if d.bit (Reg.PL_TAPt_CFG p t) 0 = false then (d, none)
  else
    let res := SMap.get 0 (d.pipe p).reserved t
    let taken : TapRec := ⟨t, d.tapHost p t, bytes, [], d.rdN (Reg.PL_TAPt_CFG p t), d.rdN (Reg.PL_TAPt_BASE p t)⟩
    if d.tapHost p t then
      let r := d.tapRing p t
      if d.ringEn r = true ∧ d.ringTooBig r bytes = true then (d.ringBig now r bytes, none)
      else if d.ringRoom r bytes (d.ringQueued r + res) then
        (d.updPipe p (fun x => { x with reserved := SMap.set 0 x.reserved t (res + bytes) }), some taken)
      else (d.bump (Reg.PL_TAPt_DROP p t), none)
    else if bytes + res ≤ frameRoom (d.tapSize p t) (d.rdN (Reg.PL_TAPt_WR p t)) (d.rdN (Reg.PL_TAPt_RD p t)) then
      (d.updPipe p (fun x => { x with reserved := SMap.set 0 x.reserved t (res + bytes) }), some taken)
    else (d.bump (Reg.PL_TAPt_DROP p t), none)

/-- Give back a tap's reservation. -/
def Dev.tapRelease (d : Dev) (p : Nat) (r : TapRec) : Dev :=
  d.updPipe p (fun x => { x with reserved := SMap.set 0 x.reserved r.tap (SMap.get 0 x.reserved r.tap - r.bytes) })

/-- Write a tap's record (R109): header, tap word, lines, to the ring as the frame's first line found it (R81). -/
def Dev.tapWrite (d : Dev) (p s : Nat) (r : TapRec) (header : List Nat) (cols lines : Nat) : Dev × List MemWrite :=
  let tw := [r.tap + 16 * s + 65536 * tapBytes r.tap cols, lines, 0, 0]
  let ws := (header ++ tw).map (BitVec.ofNat 32) ++ r.words
  let d := d.tapRelease p r
  if r.host then (d.updHx (fun h => { h with recs := h.recs ++ [⟨nfld r.cfg 6 2, ws, [], none⟩] }), [])
  else
    let wr := d.rdN (Reg.PL_TAPt_WR p r.tap)
    (d.wrN (Reg.PL_TAPt_WR p r.tap) ((wr + 4 * ws.length) % tapRingSize r.cfg), frameRingWrites r.base (tapRingSize r.cfg) wr ws)

/-- Two 16-bit containers to a word. -/
def packHalves : List Nat → List Word
  | [] => []
  | [a] => [BitVec.ofNat 32 (a % 65536)]
  | a :: b :: l => BitVec.ofNat 32 (a % 65536 + 65536 * (b % 65536)) :: packHalves l

/-- Add a line to a tap of a frame in progress, padded to 64 bytes. -/
def Work.tapLine (w : Work) (t : Nat) (ws : List Word) : Work :=
  { w with taps := w.taps.map (fun r => if r.tap = t then { r with words := r.words ++ pad16 ws } else r) }

/-- Reserve the taps `ts` of a frame. -/
def Dev.reserveAll (d : Dev) (now p mask cols total rows : Nat) (ts : List Nat) : Dev × List TapRec :=
  ts.foldl (fun (q : Dev × List TapRec) t =>
    if nbit mask t then
      let r := q.1.tapReserve now p t (tapRecord t cols (if t < 3 then total else rows))
      (r.1, q.2 ++ r.2.toList)
    else q) (d, [])

/-- Send a header without pixels to the web map and to the taps of the frame (R103). -/
def Dev.emitBare (d : Dev) (now p s mask head : Nat) (map : Bool) (hw : List Nat) : Dev × List MemWrite :=
  let d := if map then d.updWm (fun w => { w with queues := SMap.upd [] w.queues p (fun q => q ++ [.header head hw]) }) else d
  ((List.range 5).filter (fun t => nbit mask t)).foldl (fun (q : Dev × List MemWrite) t =>
    let r := q.1.tapReserve now p t 64
    match r.2 with
    | some tr => let x := r.1.tapWrite p s tr hw 0 0; (x.1, q.2 ++ x.2)
    | none => (r.1, q.2)) (d, [])

/-! ## Held frames of a shutter event (R157) -/

/-- a ≤ b modulo 2^32 (R157). -/
def seqLe (a b : Nat) : Bool := decide ((b + 2 ^ 32 - a) % 2 ^ 32 < 2 ^ 31)

/-- Frame s of head h is held (R157): an event is in progress until its region is in force (log 165). -/
def Dev.frameHeld (d : Dev) (h s : Nat) : Bool :=
  let first := d.rdN (Reg.LT_HDh_HELD_FIRST h)
  seqLe first s && ((d.lth h).shut.isSome || seqLe s (d.rdN (Reg.LT_HDh_HELD_LAST h)))

/-! ## Statistics of a frame (R168 to R171) -/

/-- The statistics settings of head h, latched when a frame's first line arrives at the unit of pipeline p (R15, R168, R173). -/
def Dev.statStart (d : Dev) (p h seq : Nat) : Option StatSums :=
  let c := d.rdN (Reg.WM_STh_CFG h)
  if nbit c 0 || nbit c 1 then
    some {
      cfg := c, base := d.fld (Reg.WM_STh_HBASE h) 15 0, rows := d.rdN (Reg.WM_STh_ROWS h), cols := d.rdN (Reg.WM_STh_COLS h),
      gen := d.gen .wm, ring := (d.rdN (Reg.WM_SRp_CFG p), d.rdN (Reg.WM_SRp_BASE p)), held := d.frameHeld h seq, selected := 0, under := 0, overFull := 0, bins := [], zones := [] }
  else none

def sat32 (n : Nat) : Nat := min (2 ^ 32 - 1) n

/-- A stage 8 word at row y, column x of a frame of `rows` × `cols` (R168 to R170); a region that exceeds the frame is cut to it. -/
def StatSums.pixel (z : StatSums) (rows cols y x word : Nat) : StatSums :=
  let r0 := nfld z.rows 10 0
  let r1 := min (nfld z.rows 26 16) (rows - 1)
  let c0 := nfld z.cols 10 0
  let c1 := min (nfld z.cols 26 16) (cols - 1)
  if y < r0 ∨ r1 < y ∨ x < c0 ∨ c1 < x ∨ nbit word 8 = true ∨ nbit word 9 = true ∨ 2 ≤ nfld word 15 14 then z
  else
    let t := word / 65536
    let z := { z with selected := z.selected + 1 }
    let z := if nbit z.cfg 0 then
        if t < z.base then { z with under := sat32 (z.under + 1) }
        else
          let b := (t - z.base) / 2 ^ nfld z.cfg 4 2
          if 1023 < b then { z with overFull := sat32 (z.overFull + 1) } else { z with bins := SMap.upd 0 z.bins b (fun k => sat32 (k + 1)) }
      else z
    if nbit z.cfg 1 then
      let zx := nfld z.cfg 12 8 + 1
      let zy := nfld z.cfg 20 16 + 1
      let k := (y - r0) * zy / (r1 - r0 + 1) * zx + (x - c0) * zx / (c1 - c0 + 1)
      { z with zones := SMap.upd (0, 0, 0) z.zones k (fun q => (q.1 + 1, q.2.1 + t, max q.2.2 t)) }
    else z

/-- The exposure code of R171. -/
def Work.exposure (w : Work) : Nat := if w.partner.isSome then 2 else if w.id.unknown then 3 else w.id.identity

/-- The 16 header words of a statistics record (R171). -/
def Work.statHeader (w : Work) (z : StatSums) (p head : Nat) (late zone : Bool) : List Nat :=
  [w.id.seq, w.id.settingsGen + 65536 * w.id.unitGen, w.plGen + 65536 * w.wsGen, w.id.dtime % 2 ^ 32, w.id.dtime / 2 ^ 32 % 2 ^ 32,
   unsgn 64 w.id.wpos % 2 ^ 32, unsgn 64 w.id.wpos / 2 ^ 32,
   z.gen + 65536 * w.exposure + 2 ^ 18 * head + 2 ^ 21 * b2n zone + 2 ^ 22 * b2n z.held + 2 ^ 23 * b2n w.provisional + 2 ^ 24 * b2n late
     + 2 ^ 25 * b2n w.takeover + 2 ^ 26 * p,
   (w.partner.map (fun e => e.id.seq % 65536)).getD 0, z.selected,
   if zone then nfld z.cfg 12 8 + 256 * nfld z.cfg 20 16 else z.under, if zone then 0 else z.overFull,
   if zone then 0 else z.base + 65536 * nfld z.cfg 4 2, 0, 0, 0]

/-- The records of a frame's statistics (R171). -/
def Work.statRecords (w : Work) (p head : Nat) (late : Bool) : List StatRec :=
  match w.stats with
  | none => []
  | some z =>
    let hist := if nbit z.cfg 0 then
        [⟨head, false, (w.statHeader z p head late false ++ (List.range 1024).map (fun b => SMap.get 0 z.bins b)).map (BitVec.ofNat 32), false, z.ring⟩]
      else []
    let n := (nfld z.cfg 12 8 + 1) * (nfld z.cfg 20 16 + 1)
    let body := ((List.range n).map (fun k =>
      let q := SMap.get (0, 0, 0) z.zones k
      [if q.1 = 0 then 0 else (meanOf q.2.1 q.1).toNat + 65536 * q.2.2, q.1])).flatten
    let zone := if nbit z.cfg 1 then [⟨head, true, pad16 ((w.statHeader z p head late true ++ body).map (BitVec.ofNat 32)), false, z.ring⟩] else []
    hist ++ zone

/-! ## Faults of a pipeline (R110, R112) -/

def Dev.plFault (d : Dev) (t p el code detail : Nat) : Dev :=
  -- PL_FAULT has one bit for each code, in the order of R114
  d.faultFlag t (uid 5 p el) code detail (Reg.PL_FAULT p)
    (match code with | 1 => 0 | 2 => 1 | 3 => 2 | 4 => 3 | 5 => 4 | 6 => 5 | 7 => 6 | _ => 7)

/-! ## Unpaired frames (R89) -/

/-- Emit a header for a held frame of a context, whose PL_Sx_CFG is `cfg`, that finds no partner. DESIGN CHOICE: ΔT and G, which a frame that
was never latched for output does not have, are 0 (log 197). -/
def Dev.emitUnpaired (d : Dev) (now p s cfg : Nat) : Dev × List MemWrite :=
  match (d.ctx p s).held with
  | none => (d, [])
  | some e =>
    let h := nfld cfg 3 1
    let hw := headerWords e.id e.plGen (d.lth h).wsGen 0 0 { unpaired := true, provisional := e.id.flags.testBit 9 } p s h 0 0 e.cols
    let d := (d.updCtx p s (fun c => { c with held := none, hist := false })).bump (Reg.PL_CNT_UNPAIRED p)
    d.emitBare now p s (nfld cfg 20 16 / 2 * 2) h (!nbit cfg 6) hw

/-! ## The frame that a stream takes next -/

/-- The lines of a replay frame in memory, in the geometry of the head's profile (R108). -/
def replayFrame (m : Mem) (addr cols total : Nat) : List Nat × List HLine :=
  ((List.range 8).map (fun i => m.frameNat (addr + 4 * i) 4),
   (List.range total).map (fun i => ⟨(List.range cols).map (fun x => m.frameNat (addr + 32 + 2 * (i * cols + x)) 2), cols⟩))

/-- The frame of a context: of its head, or the first replay frame submitted to it. -/
def Dev.sourceFrame (d : Dev) (m : Mem) (p s : Nat) : Option (HFrame × Option (List HLine)) :=
  let n := d.ctxHead p s
  if d.isReplay p s then
    ((d.pipe p).replays.find? (fun r => decide (r.1 = s))).map (fun r =>
      let g := d.headGeom n
      let q := replayFrame (d.unitView m r.2 (32 + 2 * g.1 * (g.2.1 + g.2.2))) r.2 g.1 (g.2.1 + g.2.2)
      let id := idOfTag q.1
      ({
         seq := id.seq, dtime := id.dtime, wpos := id.wpos, latGen := id.settingsGen, unitGen := id.unitGen, cols := g.1, blind := g.2.1,
         rows := g.2.2, blindBottom := d.bit (Reg.HP_BLIND n) 8, rindFirst := d.fld (Reg.HP_RIND n) 11 0, rindCount := d.fld (Reg.HP_RIND n) 22 16,
         inline := false, slot := none, slotAt := 0, gone := false, lines := q.2, lost := 0, freed := 0, flags := id.flags, closed := true, tag := q.1 }, some q.2))
  else if (d.ctx p s).busy = false ∧ d.taken n = true then none
  else (d.nextFrame n).map (fun f => (f, none))

/-- The lines that a frame in progress reads. -/
def Dev.workLines (d : Dev) (p s : Nat) (w : Work) : List HLine :=
  match w.own with
  | some l => l
  | none => match d.nextFrame (d.ctxHead p s) with
    | some f => f.lines
    | none => []

/-- An in-line stream's line (or its frame's header) can be processed: the two lines after it have arrived, or the frame has closed (R104). -/
def Dev.inlineReady (d : Dev) (p s : Nat) : Bool :=
  match d.nextFrame (d.ctxHead p s) with
  | none => false
  | some f => f.closed || (!f.dropped && decide ((match (d.ctx p s).work with | some w => w.nextOut | none => 0) + 3 ≤ f.lines.length))

/-! ## Faults and takeover (R110) -/

/-- The regions that frames in progress have latched. -/
def Dev.regionsInUse (d : Dev) (h : Nat) : List (List Nat) :=
  allCtx.filterMap (fun c => if d.ctxHead c.1 c.2 = h then ((d.ctx c.1 c.2).work.bind Work.region).map Region.granules else none)

/-- Old regions that no frame uses any more return to the pool (R128). -/
def Dev.releaseOld (d : Dev) (h : Nat) : Dev :=
  let used := d.regionsInUse h
  d.updLth h (fun x => { x with old := x.old.filter (fun r => used.contains r.granules) })

/-- The standby context of the same head on the other pipeline. -/
def Dev.standbyOf (d : Dev) (p s : Nat) : Option Nat :=
  let h := d.ctxHead p s
  (List.range 32).find? (fun k => d.ctxOn (1 - p) k && !d.isReplay (1 - p) k && decide (d.ctxHead (1 - p) k = h) && !(d.ctx (1 - p) k).active)

/-- The pair state once a frame in progress is given up (R89, R110): a hold that is not complete is gone; the partner of a merge is still held. -/
def Work.heldAfter (w : Work) (held : Option Held) : Option Held := match w.kind with
  | .hold => none
  | .merged e => some e
  | .single => held

/-- A frame that a stopped pipeline had started is lost (R110). -/
def Dev.loseFrame (d : Dev) (t p s : Nat) : Dev × List MemWrite :=
  match (d.ctx p s).work with
  | none => (d, [])
  | some w =>
    let h := d.ctxHead p s
    let hw := headerWords w.id w.plGen w.wsGen w.dT 0 { lost := true, provisional := w.provisional, takeover := w.takeover } (1 - p) s h w.g 0 w.cols
    let d := w.taps.foldl (fun d r => d.tapRelease p r) d
    let d := (d.bump (Reg.PL_CNT_LOST p)).plFault t p 0 0x0005 w.id.seq
    let d := if w.own.isSome then d.updPipe p (fun x => { x with replays := x.replays.eraseP (fun r => decide (r.1 = s)) }) else d.popFrame h
    let d := d.updCtx p s (fun c => { c with work := none, hist := false, held := w.heldAfter c.held })
    let b := d.emitBare t (1 - p) s (nfld (w.word 0) 20 16) h w.own.isNone hw
    (b.1.releaseOld h, b.2)

/-- Move what a takeover or a handover carries to the partner (R110, R111). -/
def Dev.moveStream (d : Dev) (p s k : Nat) (fault : Bool) : Dev :=
  let c := d.ctx p s
  let d := d.updCtx (1 - p) k (fun x => { x with
    active := true, arm := fault, takeover := true, handover := false, hist := if fault then false else c.hist, serial := c.serial, shutSeen := c.shutSeen,
    held := c.held.filter (fun e => e.complete) })
  d.updCtx p s (fun x => { x with active := false, handover := false, held := none, hist := false })

/-- Frames of an in-line head that its stream had not latched when the pipeline stopped are lost too: their lines went to the pipeline that
stopped, and the partner takes the head from its next frame start (R110). -/
def Dev.loseQueued (d : Dev) (t p s : Nat) : Dev × List MemWrite :=
  if d.ctxOn p s = false ∨ (d.ctx p s).active = false ∨ (d.ctx p s).arm = true ∨ d.isInline p s = false then (d, [])
  else
    let h := d.ctxHead p s
    let cfg := d.ctxCfg p s
    let l := (d.hpOf h).frames.filter (fun f => !f.gone && !f.dropped)
    let d := d.updHp h (fun x => { x with
      frames := x.frames.filterMap (fun f => if f.gone || f.dropped then some f else if f.closed then none else some { f with gone := true }) })
    l.foldl (fun (q : Dev × List MemWrite) f =>
      let id := d.frameId h f
      let hw := headerWords id (d.plGen p) (d.lth h).wsGen 0 0 { lost := true, provisional := id.flags.testBit 9 } (1 - p) s h 0 0 f.cols
      let b := ((q.1.bump (Reg.PL_CNT_LOST p)).plFault t p 0 0x0005 f.seq).emitBare t (1 - p) s (nfld cfg 20 16) h true hw
      (b.1, q.2 ++ b.2)) (d, [])

/-- The pipeline stops on a fault (R110). -/
def Dev.stopPipe (d : Dev) (t p : Nat) : Dev × List MemWrite :=
  let r := (List.range 32).foldl (fun (q : Dev × List MemWrite) s =>
    let x := q.1.loseFrame t p s
    let y := x.1.loseQueued t p s
    (y.1, q.2 ++ x.2 ++ y.2)) (d, [])
  let d := r.1.updPipe p (fun x => { x with faulted := true, cur := none, stripe := none, loading := [] })
  let d := (List.range 32).foldl (fun (d : Dev) s =>
    if d.ctxOn p s = true ∧ (d.ctx p s).active = true ∧ d.isReplay p s = false then
      match (if d.bit (Reg.PL_CFG p) 1 then d.standbyOf p s else none) with
      | some k => d.moveStream p s k true
      | none => d.updCtx p s (fun x => { x with active := false })
    else d) d
  (d, r.2)

/-- PL_FAULT (R110, R112): `code` 1 residue, 2 parity in the table cache, 6 memory, in `stage`, detail `arg`. -/
def Dev.plFaultEvent (d : Dev) (t p code stage arg : Nat) : Dev × List MemWrite :=
  if (d.pipe p).faulted = true ∨ (code ≠ 1 ∧ code ≠ 2 ∧ code ≠ 6) then (d, [])
  else (d.plFault t p (if code = 2 then 0 else stage) code arg).stopPipe t p

/-! ## Stages 1 to 6 of one line -/

/-- Sums of usable pixels by column (R94). -/
def addUsable (s : List (Int × Nat)) (l : List P4) : List (Int × Nat) :=
  (List.range l.length).map (fun x =>
    let q := s.getD x (0, 0)
    match l[x]? with
    | some p => if p.usable then (q.1 + p.c, q.2 + 1) else q
    | none => q)

/-- Add a rind row: the sum of c + K over its usable pixels (R94). -/
def Work.addRind (w : Work) (l : List P4) : Int × Nat :=
  (List.range l.length).foldl (fun q x =>
    match l[x]? with
    | some p => if p.usable then (q.1 + p.c + w.ks.getD x 0, q.2 + 1) else q
    | none => q) w.rindSum

/-- After the last blind row: the new K (R94, R95). k_held does not depend on anchor_k_en. -/
def Work.closeBlind (w : Work) : Work :=
  let lim := nfld (w.word 9) 31 16
  let ks := if w.cfgBit 9 then
      (List.range w.cols).map (fun x => let q := w.blindSum.getD x (0, 0); newK (w.ks.getD x 0) (w.targets.getD x 0) q.1 q.2 lim)
    else w.ks
  { w with ks := ks, kHeld := w.blindSum.all (fun q => decide (q.2 = 0)) }

/-- After the last rind row: the new G (R94, R95). g_held does not depend on anchor_g_en. A G beyond 24 bits is a free value (log 1). -/
def Dev.closeRind (d : Dev) (t head : Nat) (w : Work) : Dev × Work :=
  match w.ref, w.rindSum.2 with
  | some ref, n + 1 =>
    if w.cfgBit 10 = false then (d, w)
    else
      let r := newG w.g ref (meanOf w.rindSum.1 (n + 1)) (nfld (w.word 9) 15 0)
      let d := if r.2 then d.raise t 67 head else d
      if (clamp24 r.1).2 then let q := d.fresh; (q.2, { w with g := sgn 24 q.1, gLimited := r.2 })
      else (d, { w with g := r.1, gLimited := r.2 })
  | _, _ => (d, { w with gHeld := true })

/-- The anchors take in received line i after stage 4 (R94, R95). -/
def Dev.anchorLine (d : Dev) (t head i : Nat) (l : List P4) (w : Work) : Dev × Work :=
  match w.rowOf i with
  | none =>
    let w := { w with blindSum := addUsable w.blindSum l }
    let last := if w.blindBottom then w.total - 1 else w.blind - 1
    (d, if i = last then w.closeBlind else w)
  | some y =>
    if w.isRind y then
      let w := { w with rindSum := w.addRind l }
      if y + 1 = w.rindFirst + w.rindCount ∨ y + 1 = w.rows then d.closeRind t head w else (d, w)
    else (d, w)

/-- What stage 6 does with array row y (R97, R98, R100): the pixels, noise promotions, history writes; `strike0` is what a pixel's strike
count reads without valid history. -/
def Work.stage6 (w : Work) (m : Mem) (i y : Nat) (l : List (P4 × Int × Bool)) (strike0 : Nat → Nat) :
    List Px × List (Nat × Nat) × List MemWrite :=
  let on := w.cfgBit 12 || w.cfgBit 14
  let hAt := fun x => m.frameNat (w.word 3 + 3 * (y * w.cols + x)) 3
  let tAt := fun x => match l[x]? with
    | some q => q.2.1 - 4 * (nfld (hAt x) 19 0 : Nat)
    | none => 0
  let usable := fun x => match l[x]? with
    | some q => q.1.usable
    | none => false
  let noise := w.word 11
  let row := (List.range l.length).map (fun x =>
    match l[x]? with
    | none => ((⟨0, 3, 0, true, true, false, false, false⟩ : Px), none, 0)
    | some (p, a, sat) =>
      let tau := p.record.tau
      let lag := w.cfgBit 12 && decide (tau ≠ 0)
      let k := (w.tables m).frameNat (w.table + 0x2000 + 2 * tau) 2
      let y6 := if lag && w.histOk then lagInverse a (nfld (hAt x) 19 0) k (nfld (w.word 10) 8 0) else (a, false)
      let seen := w.cfgBit 14 && w.histOk && p.usable && decide (0 < x) && decide (x + 1 < l.length) && usable (x - 1) && usable (x + 1)
      let e := (tAt x - sar (tAt (x - 1) + tAt (x + 1)) 1).natAbs
      let old := if w.histOk then nfld (hAt x) 23 20 else strike0 x
      let strike := if seen then strikeStep e (nfld noise 15 0) old else old
      let pr := if seen then promotion strike (nfld noise 19 16) (nfld noise 23 20) p.record.flags else none
      (⟨y6.1, p.flag, p.record.pip, p.fill, p.single, p.sat || sat || y6.2, lag && !w.histOk, w.isRind y⟩,
       pr.map (fun f => (i * w.cols + x, f)), historyWord a strike))
  (row.map (fun q => q.1), row.filterMap (fun q => q.2.1),
   if on then ((List.range row.length).map (fun x => frameWrites (w.word 3 + 3 * (y * w.cols + x)) 3 ((row[x]?.map (fun q => q.2.2)).getD 0))).flatten
   else [])

/-- T1, T2 words of a line (R109). -/
def tapT1 (l : List P3) : List Word := l.map (fun p => BitVec.ofNat 32 (p.scene.toNat % 2 ^ 20 + 2 ^ 31 * b2n p.single))
def tapT2 (l : List (P4 × Int × Bool)) : List Word := l.map (fun q => BitVec.ofInt 32 q.2.1)

/-- Bring received line i through stages 1 to 6 (R78): `pre` says that the anchors took it in before (R105). -/
def Dev.lineIn (d : Dev) (m : Mem) (t head i : Nat) (pre : Bool) (l : HLine) (w : Work) : Dev × Work × List MemWrite :=
  let p2 := stage2 (w.tables m) w.table w.cols l
  let p3 := w.stage3 m i p2
  let p4 := w.stage4 d m i p3
  let w := (w.tapLine 0 (packHalves l.px)).tapLine 1 (tapT1 p3)
  -- rows up to the last blind or rind row use the values before (R95)
  let p5 := (List.range p4.length).filterMap (fun x => (p4[x]?).map (fun q => let a := w.stage5 x q.c; (q, a.1, a.2)))
  let w := w.tapLine 2 (tapT2 p5)
  let w := { w with anySat := w.anySat || p5.any (fun q => q.1.sat || q.2.2), nextIn := i + 1 }

  match w.rowOf i with
  | none =>
    let w := if w.blade.isSome then { w with accBlind := w.accBlind ++ [p4.map (fun q => if q.fill then none else some q.c)] } else w
    let a := if pre then (d, w) else d.anchorLine t head i p4 w
    (a.1, a.2, [])
  | some y =>
    let s := w.stage6 m i y p5 (fun x => Config.freeValue (d.free + x) % 16)
    let d := if w.histOk = false ∧ (w.cfgBit 12 || w.cfgBit 14) = true then { d with free := d.free + w.cols } else d
    let w := { w with
      buf := w.buf ++ [(y, s.1)], promo := w.promo ++ s.2.1, anySat := w.anySat || s.1.any (fun q => q.sat),
      accScene := if w.blade.isSome then w.accScene ++ [(y, p4.map (fun q => if q.fill then none else some q.scene.toNat))] else w.accScene }
    let a := if pre then (d, w) else d.anchorLine t head i p4 w
    (a.1, a.2, s.2.2)

/-! ## Latching (R82, R85) -/

/-- ε and reflected temperature of each column of head h (R167). -/
def Dev.zonesOf (d : Dev) (h cols : Nat) : List (Nat × Nat) :=
  let l := SMap.get [] d.wm.zoneList h
  (List.range cols).map (fun x =>
    let z := l.getD x 64
    if z < 64 then (d.fld (Reg.WM_EZz_VAL z) 15 0, d.fld (Reg.WM_EZz_VAL z) 31 16) else (0x8000, 0))

/-- The pre-pass of a through-memory frame (R105): its blind and rind rows through stages 1 to 5, which form K and G. -/
def Dev.prePass (d : Dev) (m : Mem) (t head : Nat) (lines : List HLine) (w : Work) : Dev × Work :=
  let at4 := fun (w : Work) i => w.stage4 d m i (w.stage3 m i (stage2 (w.tables m) w.table w.cols (lines.getD i ⟨[], 0⟩)))
  let blind := (List.range w.total).filter (fun i => (w.rowOf i).isNone)
  let w := ({ w with blindSum := blind.foldl (fun s i => addUsable s (at4 w i)) w.blindSum }).closeBlind
  let rind := (List.range w.rows).filter w.isRind
  let w := { w with rindSum := rind.foldl (fun s y => ({ w with rindSum := s }).addRind (at4 w (w.firstArray + y))) w.rindSum }
  d.closeRind t head w

/-- The image in the table cache for head h, where its base is b (R85). -/
def Dev.cachedImage (d : Dev) (p h b : Nat) : Option (SMap Byte) :=
  ((d.pipe p).cache.find? (fun q => decide (q.1 = h ∧ q.2.1 = b))).map (fun q => q.2.2)

/-- Latch the items of an output frame (R82, R128 to R133, R136, R142, R146). An uncorrectable word of its state block faults the pipeline
in stage 5 (R112). -/
def Dev.latchOutput (d : Dev) (m : Mem) (now : Now) (p s : Nat) (f : HFrame) (own : Option (List HLine)) (id : FrameId) (kind : WorkKind) :
    Dev × List MemWrite :=
  let t := now.dtime
  let h := d.ctxHead p s
  let c := d.ctx p s
  let live := own.isNone
  let r := if d.ltOn h then d.latchReady t h else (d, none)
  let d := r.1
  let cfg := (List.range 15).map (fun i => d.rdN (Reg.PL_Sx_CFG p s + 4 * i))
  let state := cfg.getD 2 0
  -- the anchor reset of a SHUTTER region, which each stream makes at its own first frame with it (R142)
  let reset := if d.ltOn h = true ∧ c.shutSeen ≠ (d.lth h).shutCount then (d.lth h).shutTargets else none
  let tw := match reset with
    | some tg => ((List.range tg.length).map (fun x => match tg.getD x none with
        | some v => frameWrites (state + 0x1040 + 4 * x) 4 (unsgn 32 v)
        | none => [])).flatten
    | none => []
  let m' := m.writes tw
  let k0 := if reset.isSome then List.replicate f.cols 0 else (List.range f.cols).map (fun x => sgn 16 (m'.frameNat (state + 0x40 + 2 * x) 2))
  let g0 := if reset.isSome then 0 else sgn 24 (m'.frameNat state 4)
  let bad := reset.isNone && (d.poisoned state 4 || d.poisoned (state + 0x40) (2 * f.cols) || d.poisoned (state + 0x1040) (4 * f.cols))
  let region := (d.lth h).region
  let unity := match region with
    | some q => !q.fits f.cols f.blind f.rows
    | none => true
  let base := region.map Region.base
  let dq : Int × Dev := match base with
    | some b => (clampI (-32768) 32767 ((id.sub : Int) - b), d)
    | none => let q := d.fresh; (sgn 16 q.1, q.2)
  let d := if base.isSome then dq.2.farBand t h dq.1 else dq.2
  let serial := (region.map Region.serial).getD 0
  let histOk := c.hist && decide (c.serial = serial)
  let mask := nfld (cfg.getD 0 0) 20 16
  let blade := match (d.lth h).shut with
    | some ev => if ev.step = 4 ∧ live = true ∧ unity = false then d.probeValue t (d.ltFld h (Reg.LT_HDh_PROBE h) 3 0) else none
    | none => none
  let tp := d.reserveAll t p mask f.cols (f.blind + f.rows) f.rows [0, 1, 2, 3, 4]
  let d := tp.1
  let w : Work := {
    id := id, kind := kind, own := own, cols := f.cols, blind := f.blind, rows := f.rows, blindBottom := f.blindBottom, rindFirst := f.rindFirst,
    rindCount := f.rindCount, cfg := cfg, plGen := d.plGen p, wsGen := (d.lth h).wsGen, region := region, unity := unity, dT := dq.1,
    ref := d.rollerRef t h, image := (d.cachedImage p h (cfg.getD 1 0)).getD [],
    targets := (List.range f.cols).map (fun x => sgn 32 (m'.frameNat (state + 0x1040 + 4 * x) 4)), ks := k0, g := g0, balG := d.fld (Reg.LT_HDh_BALG h) 15 0, balO := sgn 24 (d.fld (Reg.LT_HDh_BALO h) 23 0),
    zones := d.zonesOf h f.cols, histOk := histOk, takeover := c.takeover, nextIn := 0, nextOut := 0, buf := [], blindSum := [], rindSum := (0, 0),
    gHeld := false, kHeld := false, gLimited := false, anySat := false, promo := [], blade := blade, accScene := [], accBlind := [], taps := tp.2,
    stats := none }
  let d := if w.provisional = true ∧ live = true then d.spoil h else d
  let d := d.setCtx p s { c with
    work := some w, takeover := false, serial := serial, shutSeen := (d.lth h).shutCount,
    held := if w.partner.isSome then none else (d.ctx p s).held }
  let d := d.releaseOld h
  if bad then
    let d := [(state, 4), (state + 0x40, 2 * f.cols), (state + 0x1040, 4 * f.cols)].foldl (fun (d : Dev) r => d.readPoison t (4 + p) r.1 r.2) d
    let r := d.plFaultEvent t p 6 5 s
    (r.1, tw ++ r.2)
  else (d, tw)

/-- Latch the items of a frame that is held (R82, R89): stage 1 and 2 items only. -/
def Dev.latchHold (d : Dev) (t p s : Nat) (f : HFrame) (own : Option (List HLine)) (id : FrameId) : Dev :=
  let h := d.ctxHead p s
  let cfg := (List.range 15).map (fun i => d.rdN (Reg.PL_Sx_CFG p s + 4 * i))
  let tp := d.reserveAll t p (nfld (cfg.getD 0 0) 20 16) f.cols (f.blind + f.rows) f.rows [0]
  let w : Work := {
    id := id, kind := .hold, own := own, cols := f.cols, blind := f.blind, rows := f.rows, blindBottom := f.blindBottom, rindFirst := f.rindFirst,
    rindCount := f.rindCount, cfg := cfg, plGen := d.plGen p, wsGen := (d.lth h).wsGen, region := none, unity := true, dT := 0, ref := none,
    image := (d.cachedImage p h (cfg.getD 1 0)).getD [], targets := [], ks := [], g := 0, balG := 16384, balO := 0, zones := [], histOk := true, takeover := false, nextIn := 0, nextOut := 0, buf := [], blindSum := [],
    rindSum := (0, 0), gHeld := false, kHeld := false, gLimited := false, anySat := false, promo := [], blade := none, accScene := [],
    accBlind := [], taps := tp.2, stats := none }
  let held : Held := ⟨id, cfg.getD 1 0, false, f.lines.map HLine.fillFrom, d.plGen p, f.cols⟩
  (tp.1.updCtx p s (fun c => { c with work := some w, held := some held })).wrN (Reg.PL_Sx_HOLDSEQ p s) id.seq

/-- A table image base that the cache does not hold is loaded before the first pixel (R85). -/
def Dev.tableLatch (d : Dev) (p s : Nat) : Dev :=
  let h := d.ctxHead p s
  if (d.cachedImage p h (d.rdN (Reg.PL_Sx_TABLE p s))).isSome = true ∨ (d.pipe p).loading.contains s = true then d
  else d.updPipe p (fun x => { x with loading := x.loading ++ [s] })

/-- The frame of a context can be latched (R82, R104): an in-line frame once a line of it has reached the pipeline, another once it has
closed, and a dropped one when it has closed (R87). -/
def Dev.latchable (d : Dev) (p s : Nat) (f : HFrame) : Bool := f.closed || (d.isInline p s && !f.dropped && !f.lines.isEmpty)

/-- The pairing conditions of R89 for frame f of context s: it can open a pair, and it closes the pair that the held frame e opened. -/
def Dev.opensPair (d : Dev) (p s : Nat) (id : FrameId) : Bool :=
  let cfg := d.rdN (Reg.PL_Sx_CFG p s)
  nbit cfg 7 && decide (id.identity = nfld cfg 8 8) && !id.unknown
def Dev.closesPair (d : Dev) (p s : Nat) (id : FrameId) (e : Held) : Bool :=
  let cfg := d.rdN (Reg.PL_Sx_CFG p s)
  nbit cfg 7 && decide (id.seq = (e.id.seq + 1) % 2 ^ 32) && decide (id.identity ≠ nfld cfg 8 8) && !id.unknown
    && decide (id.settingsGen = e.id.settingsGen) && decide (d.rdN (Reg.PL_Sx_TABLE p s) = e.table) && e.complete

/-- The next frame of a context's head will be an output frame (R82, R89). -/
def Dev.makesOutput (d : Dev) (p s : Nat) (f : HFrame) : Bool :=
  let id := d.frameId (d.ctxHead p s) f
  !f.dropped && (!d.opensPair p s id || (match (d.ctx p s).held with
    | some e => d.closesPair p s id e
    | none => false))

/-- A context that carries its head, whose next frame no other context still has in progress; a frame in progress goes on whatever has been
swapped (R81). -/
def Dev.carries (d : Dev) (p s : Nat) : Bool :=
  (d.ctx p s).busy || (d.ctxOn p s && (d.ctx p s).active && !(d.ctx p s).arm && !d.taken (d.ctxHead p s))

/-- The context has a live frame that it can latch. -/
def Dev.waitsForLatch (d : Dev) (p s : Nat) : Bool :=
  d.carries p s && !(d.ctx p s).busy && !d.isReplay p s && (match d.nextFrame (d.ctxHead p s) with
    | some f => d.latchable p s f
    | none => false)

/-- The context whose frame reaches pipeline p now, with the frame and, for a replay frame, its lines: the in-line one, whose frame comes with
its first line (R82), or else the one chosen at the line boundary (R104). -/
def Dev.latchNext (d : Dev) (m : Mem) (p : Nat) : Option (Nat × HFrame × Option (List HLine)) :=
  if (d.pipe p).faulted then none
  else
    let s := match (List.range 32).find? (fun s => d.isInline p s && d.waitsForLatch p s) with
      | some s => some s
      | none => (d.pipe p).cur
    s.bind (fun s =>
      if (d.ctx p s).busy = true ∨ (d.carries p s || (d.ctxOn p s && d.isReplay p s)) = false then none
      else (d.sourceFrame m p s).bind (fun q => if d.latchable p s q.1 then some (s, q.1, q.2) else none))

/-- PL_FRAME_LATCH (R82, R87, R89): a context that has no frame in progress takes its next one. -/
def Dev.frameLatch (d : Dev) (m : Mem) (now : Now) (p : Nat) : Dev × List MemWrite :=
  match d.latchNext m p with
  | none => (d, [])
  | some (s, f, own) =>
    let c := d.ctx p s
    let t := now.dtime
    let h := d.ctxHead p s
    let d := d.updPipe p (fun x => { x with last := t })
    let d := match (if own.isSome then (d.pipe p).replays.find? (fun r => decide (r.1 = s)) else none) with
      | some r => d.readPoison t (4 + p) r.2 (32 + 2 * f.cols * (f.blind + f.rows))
      | none => d
    let id := d.frameId h f
    if f.dropped then
      let hw := headerWords id (d.plGen p) (d.lth h).wsGen 0 0
        { dropped := true, provisional := id.flags.testBit 9, takeover := c.takeover } p s h 0 0 f.cols
      let u := d.emitUnpaired t p s (d.ctxCfg p s)
      let b := u.1.emitBare t p s (u.1.fld (Reg.PL_Sx_CFG p s) 20 16) h own.isNone hw
      let d := b.1.updCtx p s (fun c => { c with hist := false, takeover := false })
      let d := if own.isSome then d.updPipe p (fun x => { x with replays := x.replays.eraseP (fun r => decide (r.1 = s)) }) else d.popFrame h
      (d, u.2 ++ b.2)
    else
      let cfg := d.rdN (Reg.PL_Sx_CFG p s)
      let opens := d.opensPair p s id
      let pairs := match c.held with
        | some e => d.closesPair p s id e
        | none => false
      match c.held, pairs with
      | some e, true => let d := d.tableLatch p s; d.latchOutput m now p s f own id (.merged e)
      | some _, false =>
        let u := d.emitUnpaired t p s cfg
        let d := u.1.tableLatch p s
        if opens then (d.latchHold t p s f own id, u.2)
        else let o := d.latchOutput (m.writes u.2) now p s f own id .single; (o.1, u.2 ++ o.2)
      | none, _ =>
        let d := d.tableLatch p s
        if opens then (d.latchHold t p s f own id, []) else d.latchOutput m now p s f own id .single

/-! ## The choice of work (R104) -/

/-- Contexts of pipeline p that carry their head and have something to do, in-line or not. A stream whose table image loads is left out: the
pipeline processes others meanwhile (R85). -/
def Dev.candidates (d : Dev) (p : Nat) (inline : Bool) : List Nat :=
  (List.range 32).filter (fun s => d.carries p s && !d.isReplay p s && (d.isInline p s == inline) && !(d.pipe p).loading.contains s
    && (if inline then d.inlineReady p s
        else match d.nextFrame (d.ctxHead p s) with | some f => f.closed | none => false))

/-- The context whose frame started first, ties to the lower (R104). -/
def Dev.oldest (d : Dev) (p : Nat) (l : List Nat) : Option Nat :=
  let start := fun s => match d.nextFrame (d.ctxHead p s) with
    | some f => f.dtime
    | none => 0
  l.foldl (fun o s => match o with
    | none => some s
    | some b => if start s < start b then some s else some b) none

/-- PL_LINE_BOUNDARY (R104). -/
def Dev.lineBoundary (d : Dev) (p : Nat) : Dev :=
  let x := d.pipe p
  if x.faulted then d
  else
    match (d.candidates p true).head? with
    | some s => d.setPipe p { x with cur := some s }
    | none =>
      let going := match x.stripe with
        | some (s, n) => decide (0 < n) && (d.ctx p s).busy && !x.loading.contains s
        | none => false
      if going then d.setPipe p { x with cur := x.stripe.map Prod.fst }
      else
        match d.oldest p (d.candidates p false) with
        | some s => d.setPipe p { x with cur := some s, stripe := some (s, 64) }
        | none =>
          match x.replays.find? (fun r => ((d.ctx p r.1).busy || d.ctxOn p r.1) && d.isReplay p r.1 && !x.loading.contains r.1) with
          | some r => d.setPipe p { x with cur := some r.1, stripe := some (r.1, 64) }
          | none => d.setPipe p { x with cur := none, stripe := none }

/-! ## A line leaves (R78, R99 to R102) -/

/-- The output words of array row y and what it counts: words, T3 words, pixels without neighbours, pixels with ε code 0, any clamp. -/
structure RowOut where
  words : List Nat
  t3 : List Word
  noNeighbour : Nat
  eps0 : Nat
  sat : Bool
  deriving DecidableEq, Repr

def Work.rowOut (w : Work) (m : Mem) (y : Nat) : RowOut :=
  let row := lookupD [] w.buf y
  let px := (List.range row.length).filterMap (fun x => (row[x]?).map (fun p =>
    let q := stage7 (w.tables m) w.table (w.cfgBit 13) (nfld (w.word 11) 31 24) w.cols w.buf y x p
    let z := w.zones.getD x (0x8000, 0)
    let t := stage8 (w.tables m) w.table (w.word 12) (w.word 13) z.1 z.2 q.v
    (p, q, t, decide (z.1 = 0))))
  {
    words := px.map (fun e => outputWord e.2.2.1.1 e.2.1.flag e.2.1.replaced e.1.single e.1.nolag (e.1.sat || e.2.2.1.2) e.1.fill e.1.rind),
    t3 := px.map (fun e => BitVec.ofNat 32 (unsgn 24 e.2.1.v + 2 ^ 24 * e.2.1.flag + 2 ^ 26 * b2n e.2.1.replaced)),
    noNeighbour := (px.filter (fun e => e.2.1.noNeighbour)).length, eps0 := (px.filter (fun e => e.2.2.2)).length,
    sat := px.any (fun e => e.2.2.1.2) }

/-- The corrected-pixel queue has room for a line (R24): 256 beats of 16 pixels. -/
def queueBeats (q : List MapItem) : Nat := (q.map (fun i => match i with
  | .line _ _ _ ws => (ws.length + 15) / 16
  | .header _ _ => 0)).sum

/-- The beats that the next line to leave sends on (R24): none for a blind row (R79) or a replay frame (R108). -/
def Work.beats (w : Work) : Nat := if w.own.isSome ∨ (w.rowOf w.nextOut).isNone = true then 0 else (w.cols + 15) / 16

/-- The queues of a stream have credit for a line (R24, R172): the corrected-pixel queue, and the tap queue while a record waits. -/
def Dev.lineCredit (d : Dev) (p : Nat) (w : Work) : Bool :=
  decide (w.beats = 0) || (decide (queueBeats (SMap.get [] d.wm.queues p) + w.beats ≤ 256)
    && ((SMap.get [] d.wm.stats p).isEmpty || decide (SMap.get 0 d.wm.tapQ p + w.beats ≤ 64)))

/-- The frame in progress of a context has its next line (R104), or none left to come, or has been cut. -/
def Dev.lineArrived (d : Dev) (p s : Nat) (w : Work) : Bool :=
  match (if w.own.isSome then none else d.nextFrame (d.ctxHead p s)) with
  | some f => f.closed || decide (w.total ≤ w.nextOut) || decide (w.nextOut + 3 ≤ f.lines.length)
  | none => true

/-- Rows of the merge hold that received line i reads (R90). -/
def Work.holdRows (w : Work) (i : Nat) : List Nat :=
  match w.kind with
  | .merged e =>
    (match w.rowOf i with
    | none => [i]
    | some y =>
      let s := mergeShift (w.id.wpos - e.id.wpos) (nfld (w.word 8) 23 0)
      let p := if w.cfgBit 15 then (y : Int) * 256 + s else (y : Int) * 256 - s
      if 0 ≤ p ∧ p ≤ ((w.rows : Int) - 1) * 256 then
        let j := w.firstArray + (p / 256).toNat
        if p % 256 = 0 then [j] else [j, j + 1]
      else [])
  | _ => []

/-- The stage in which received line i finds an uncorrectable word of the hold or the history (R112), if it does, and the bytes read. -/
def Dev.lineUE (d : Dev) (w : Work) (i : Nat) : Option (Nat × Nat × Nat) :=
  let hold := fun (j : Nat) => w.word 4 + 2 * (j * w.cols)
  match (w.holdRows i).find? (fun j => d.poisoned (hold j) (2 * w.cols)) with
  | some j => some (3, hold j, 2 * w.cols)
  | none => match w.rowOf i with
    | some y =>
      let a := w.word 3 + 3 * (y * w.cols)
      if (w.cfgBit 12 || w.cfgBit 14) && w.histOk && d.poisoned a (3 * w.cols) then some (6, a, 3 * w.cols) else none
    | none => none

/-- The last records of n received lines from i on that read uncorrectable (R386). -/
def Dev.badRecords (d : Dev) (w : Work) (i n : Nat) : List Nat :=
  match w.region with
  | some r => if w.unity then [] else
    ((List.range (n * w.cols)).map (fun k => r.place (i * w.cols + k))).filter (fun x => d.fab.poisonLast.contains x)
  | none => []

/-- Before a frame's first line leaves (R103, R105): the pre-pass of a through-memory frame, and the header, which goes to the map. The marks of an
in-line frame are those known by then (log 42). -/
def Dev.workBegin (d : Dev) (m : Mem) (t p s head : Nat) (lines : List HLine) (w : Work) : Dev × Work :=
  if w.nextIn ≠ 0 then (d, w)
  else
    let q := if d.isInline p s then
        (d, { w with kHeld := decide (w.blind = 0), gHeld := w.ref.isNone || !(List.range w.rows).any w.isRind })
      else d.prePass m t head lines w
    (if w.own.isSome then q.1
     else q.1.updWm (fun x => { x with queues := SMap.upd [] x.queues p (fun y => y ++ [.header head (q.2.header p s head false)]) }), q.2)

/-- The header of a frame still in its map queue carries what has become known of G and K since it was written (R95, R103). -/
def Dev.refreshHeader (d : Dev) (p s head : Nat) (w : Work) : Dev :=
  if w.own.isSome then d
  else d.updWm (fun x => { x with queues := SMap.upd [] x.queues p (fun q => q.map (fun i => match i with
    | .header h hw => if h = head ∧ hw.head? = some w.id.seq ∧ hw.getD 11 0 % 65536 ≠ 0 then .header h (w.header p s head false) else i
    | .line a b c l => .line a b c l)) })

/-- Stages 1 to 6 up to received line `upto`. -/
def Dev.linesIn (d : Dev) (m : Mem) (t head : Nat) (pre : Bool) (lines : List HLine) : Nat → Work → Dev × Work × List MemWrite
  | 0, w => (d, w, [])
  | k + 1, w =>
    let r := d.linesIn m t head pre lines k w
    let i := r.2.1.nextIn
    if i < r.2.1.total then
      let q := r.1.lineIn m t head i pre (lines.getD i ⟨[], 0⟩) r.2.1
      (q.1, q.2.1, r.2.2 ++ q.2.2)
    else r

/-- A line of a held frame (R88, R89): stage 2 and the merge hold. -/
def Dev.holdLine (d : Dev) (m : Mem) (p s : Nat) (w : Work) (l : HLine) : Dev × List MemWrite :=
  let i := w.nextOut
  let p2 := stage2 (w.tables m) w.table w.cols l
  let w := { w.tapLine 0 (packHalves l.px) with nextIn := i + 1, nextOut := i + 1, anySat := w.anySat || p2.any (fun q => q.sat) }
  let c := d.ctx p s
  let held := c.held.map (fun e => { e with fills := e.fills.take i ++ [l.fillFrom] ++ e.fills.drop (i + 1) })
  (d.setCtx p s { c with work := some w, held := held },
   ((List.range w.cols).map (fun x => frameWrites (w.word 4 + 2 * (i * w.cols + x)) 2 ((p2[x]?.map P2.lin).getD 0))).flatten)

/-- PL_LINE_PROCESS (R78): the next line of the frame in progress in the chosen context. -/
def Dev.lineProcess (d : Dev) (m : Mem) (t p : Nat) : Dev × List MemWrite :=
  match (d.pipe p).cur with
  | none => (d, [])
  | some s =>
    match (d.ctx p s).work with
    | none => (d, [])
    | some w =>
      let h := d.ctxHead p s
      let lines := d.workLines p s w
      let frame := if w.own.isSome then none else d.nextFrame h
      let cut := match frame with
        | some f => f.dropped
        | none => false
      let i := w.nextOut
      let count := min (i + 3) w.total - w.nextIn
      let reads := (if w.nextIn = 0 ∧ d.isInline p s = false then
          (List.range w.total).filter (fun j => match w.rowOf j with | none => true | some y => w.isRind y) else [])
        ++ (List.range count).map (fun k => w.nextIn + k)
      if (d.pipe p).faulted = true ∨ (d.pipe p).loading.contains s = true ∨ cut = true ∨ d.lineArrived p s w = false ∨ w.total ≤ w.nextOut ∨
          d.lineCredit p w = false then
        (d, [])
      else match (if w.kind = .hold then none else (reads.filterMap (d.lineUE w)).head?) with
      | some (stage, a, n) => (d.readPoison t (4 + p) a n).plFaultEvent t p 6 stage s
      | none =>
        let d := d.updPipe p (fun x => { x with last := t, stripe := x.stripe.map (fun q => if q.1 = s then (q.1, q.2 - 1) else q) })
        let d := if w.own.isSome then d else d.updHp h (fun x => { x with
          frames := match x.frames with
            | f :: fs => { f with freed := i + 1 } :: fs
            | [] => [] })
        if w.kind = .hold then d.holdLine m p s w (lines.getD i ⟨[], 0⟩)
        else
          let beats := w.beats
          -- each uncorrectable last record is told, and asks for a COPY build (R386)
          let d := (d.badRecords w w.nextIn count).foldl (fun (d : Dev) r => (d.readLastUE t (4 + p) r).requestBuild h .copy 0) d
          let b := d.workBegin m t p s h lines w
          let r := b.1.linesIn m t h (!d.isInline p s) lines count b.2
          let w := { r.2.1 with nextOut := i + 1 }
          let d := r.1.refreshHeader p s h w
          match w.rowOf i with
          | none => (d.updCtx p s (fun c => { c with work := some w }), r.2.2)
          | some y =>
            let o := w.rowOut m y
            let d := (d.bumpBy (Reg.PL_CNT_NOREPL p) o.noNeighbour).bumpBy (Reg.PL_CNT_EPS0 p) o.eps0
            let w := (w.tapLine 3 o.t3).tapLine 4 (o.words.map (BitVec.ofNat 32))
            let stats := if y = 0 ∧ w.own.isNone = true then d.statStart p h w.id.seq else w.stats
            let w := { w with
              anySat := w.anySat || o.sat, buf := w.buf.filter (fun q => decide (y < q.1 + 2)),
              stats := stats.map (fun z => (List.range o.words.length).foldl (fun z x => z.pixel w.rows w.cols y x (o.words.getD x 0)) z) }
            let d := if w.own.isSome then d else d.updWm (fun x => { x with
              queues := SMap.upd [] x.queues p (fun q => q ++ [.line h y 0 o.words]),
              tapQ := if (SMap.get [] x.stats p).isEmpty then x.tapQ else SMap.upd 0 x.tapQ p (fun n => n + beats) })
            (d.updCtx p s (fun c => { c with work := some w }), r.2.2)

/-! ## A frame completes (R89, R96, R100, R106, R109) -/

/-- Write noise promotions to the working region (R100), and to the build in progress or the region that is ready (R127). -/
def Dev.promote (d : Dev) (m : Mem) (p h : Nat) (w : Work) : Dev × List MemWrite :=
  match (d.lth h).region with
  | none => (d, [])
  | some r =>
    if w.unity then (d, [])
    else
      let raised := fun (r : Region) => w.promo.map (fun q =>
        let old := Rec.ofBits (m.lastRec (r.place q.1))
        MemWrite.last (r.place q.1) ({ old with flags := max old.flags q.2 } : Rec).toBits)
      let ws := raised r ++ (match (d.lth h).ready with
        | some q => if q.fits r.cols r.blind r.rows then raised q else []
        | none => [])
      let building := match d.lt.cur with
        | some c => decide (c.1.head = h)
        | none => false
      let d := if building then d.updLth h (fun x => { x with promoted := x.promoted ++ w.promo }) else d
      (d.bumpBy (Reg.PL_CNT_PROMOTE p) w.promo.length, ws)

/-- Write the tap records of a frame. -/
def Dev.tapsEnd (d : Dev) (p s h : Nat) (late : Bool) (w : Work) : Dev × List MemWrite :=
  w.taps.foldl (fun (q : Dev × List MemWrite) r =>
    let x := q.1.tapWrite p s r (w.header p s h late) w.cols (if r.tap < 3 then w.total else w.rows)
    (x.1, q.2 ++ x.2)) (d, [])

/-- Add a frame to the accumulator of head h (R140). -/
def Dev.accumulate (d : Dev) (m : Mem) (t h : Nat) (w : Work) : Dev × List MemWrite :=
  let r := d.readAcc m t h w.rows w.cols
  let m := r.2
  let base := d.ltWord h (Reg.LT_HDh_ACC h)
  let px := (w.accScene.map (fun q => (List.range q.2.length).map (fun x => match q.2.getD x none with
    | none => []
    | some v =>
      let a := base + 4 * (q.1 * w.cols + x)
      let o := m.frameNat a 4
      frameWrites a 4 (nfld (nfld o 24 0 + v) 24 0 + 2 ^ 25 * nfld (nfld o 30 25 + 1) 5 0)))).flatten.flatten
  let cols := (List.range w.cols).map (fun x =>
    let vs := w.accBlind.filterMap (fun l => l.getD x none)
    let a := accColumns base w.rows w.cols + 8 * x
    let o := m.frameNat a 8
    if vs.isEmpty then [] else frameWrites a 8 (unsgn 40 (sgn 40 (nfld o 39 0) + vs.sum) + 2 ^ 40 * nfld (nfld o 49 40 + vs.length) 9 0))
  (r.1, px ++ cols.flatten)

/-- The late check (R106). -/
def Dev.lateCheck (d : Dev) (t p s : Nat) (w : Work) : Bool × Dev :=
  let lim := nfld (w.word 14) 15 0
  if lim = 0 ∨ t ≤ w.id.dtime + 65536 * lim then (false, d)
  else
    let d := (d.bump (Reg.PL_CNT_LATE p)).flag (Reg.PL_FAULT p) 6
    let again := match (d.ctx p s).lastLate with
      | some l => decide (64 ≤ (w.id.seq + 2 ^ 32 - l) % 2 ^ 32)
      | none => true
    (true, if again then (d.fault t (uid 5 p 0) 0x0007 w.id.seq).updCtx p s (fun c => { c with lastLate := some w.id.seq }) else d)

/-- The pair state of a stream that merges stands beside G in its state block (R107). Its layout is not given: its bytes are free values
(log 41). -/
def Dev.pairBlock (d : Dev) (w : Work) : Dev × List MemWrite :=
  if w.cfgBit 7 then
    ({ d with free := d.free + 60 },
     ((List.range 60).map (fun i => frameWrites (w.word 2 + 4 + i) 1 (Config.freeValue (d.free + i) % 256))).flatten)
  else (d, [])

/-- A frame in progress that its head port has closed: an in-line one now has its tag, whose flags word 8 of its headers carries (R103). -/
def Dev.tagged (d : Dev) (h : Nat) (w : Work) : Work :=
  match (if w.own.isSome then none else d.nextFrame h) with
  | some f => if f.closed = true then { w with id := { w.id with flags := (idOfTag f.tag).flags } } else w
  | none => w

/-- What completing an output frame does, but for shutter events: answers whether the frame was late. -/
def Dev.completeOutput (d : Dev) (m : Mem) (t p s : Nat) (w : Work) : (Dev × List MemWrite) × Bool :=
  let h := d.ctxHead p s
  let w := d.tagged h w
  let l := d.lateCheck t p s w
  let pair := l.2.pairBlock w
  let d := pair.1.updPipe p (fun x => { x with last := t })
  let d := d.bump (Reg.PL_CNT_FRAMES p)
  let d := if w.cfgBit 7 ∧ w.partner.isNone = true then d.bump (Reg.PL_CNT_UNMERGED p) else d
  let d := if w.histOk then d else d.bump (Reg.PL_CNT_LAGOFF p)
  let d := if w.anySat then d.bump (Reg.PL_CNT_SAT p) else d
  let d := (d.wrN (Reg.PL_Sx_SEQ p s) w.id.seq).wrI (Reg.PL_Sx_G p s) w.g
  let pr := d.promote m p h w
  let taps := pr.1.tapsEnd p s h l.1 w
  let d := taps.1
  let d := if w.own.isSome then d.updPipe p (fun x => { x with replays := x.replays.eraseP (fun r => decide (r.1 = s)) }) else d.popFrame h
  let d := d.updWm (fun x => { x with stats := SMap.upd [] x.stats p (fun q => q ++ w.statRecords p h l.1) })
  -- a context whose role or head has been swapped meanwhile starts anew (R97)
  let same := d.bit (Reg.PL_CFG p) 0 && decide (d.rdN (Reg.PL_Sx_CFG p s) &&& 0x6F = w.word 0 &&& 0x6F)
  let d := d.updCtx p s (fun c => { c with work := none, hist := same && (w.cfgBit 12 || w.cfgBit 14) })
  let kg := frameWrites (w.word 2) 4 (unsgn 32 w.g) ++ ((List.range w.cols).map (fun x =>
    frameWrites (w.word 2 + 0x40 + 2 * x) 2 (unsgn 16 (w.ks.getD x 0)))).flatten
  ((d.releaseOld h, pr.2 ++ taps.2 ++ kg ++ pair.2), l.1)

/-- Completing a held frame (R89). -/
def Dev.completeHold (d : Dev) (t p s : Nat) (w : Work) : Dev × List MemWrite :=
  let h := d.ctxHead p s
  let w := d.tagged h w
  let pair := d.pairBlock w
  let d := pair.1.updPipe p (fun x => { x with last := t })
  let d := if w.anySat then d.bump (Reg.PL_CNT_SAT p) else d
  let taps := d.tapsEnd p s h false w
  let d := taps.1
  let d := if w.own.isSome then d.updPipe p (fun x => { x with replays := x.replays.eraseP (fun r => decide (r.1 = s)) }) else d.popFrame h
  (d.updCtx p s (fun c => { c with work := none, held := c.held.map (fun e => { e with id := w.id, complete := true }) }), taps.2 ++ pair.2)

/-- A frame in progress is given up because its head port cut it (R87). -/
def Dev.abandon (d : Dev) (t p s : Nat) (w : Work) (f : HFrame) : Dev × List MemWrite :=
  let h := d.ctxHead p s
  let d := w.taps.foldl (fun d r => d.tapRelease p r) d
  let hw := headerWords (d.frameId h f) w.plGen w.wsGen w.dT 0 { dropped := true, provisional := w.provisional, takeover := w.takeover } p s h w.g 0 w.cols
  let d := d.updCtx p s (fun c => { c with work := none, hist := false, held := w.heldAfter c.held })
  let u := d.emitUnpaired t p s (w.word 0)
  let b := u.1.emitBare t p s (nfld (w.word 0) 20 16) h true hw
  ((b.1.popFrame h).releaseOld h, u.2 ++ b.2)

/-! ## Table images and progress (R85, R112) -/

/-- The bytes of the table image at base b (R84). -/
def Mem.tableImage (m : Mem) (b : Nat) : SMap Byte := m.frame.filter (fun q => decide (b ≤ q.1) && decide (q.1 < b + 29184))

/-- PL_TABLE_LOAD_DONE (R85): the image of the first stream that waits is in the cache. One that reads uncorrectable faults the pipeline
in stage 2 (log 164). -/
def Dev.tableLoadDone (d : Dev) (m : Mem) (t p : Nat) (ok : Bool) : Dev × List MemWrite :=
  match (d.pipe p).loading with
  | [] => (d, [])
  | s :: rest =>
    let b := match (d.ctx p s).work with
      | some w => w.table
      | none => d.rdN (Reg.PL_Sx_TABLE p s)
    if ok = false ∨ d.poisoned b 29184 = true then ((d.readPoison t (4 + p) b 29184).plFault t p 2 0x0006 s).stopPipe t p
    else
      let image := m.tableImage b
      let d := d.updCtx p s (fun c => { c with work := c.work.map (fun w => { w with image := image }) })
      (d.updPipe p (fun x => { x with loading := rest, last := t, cache := assign x.cache (d.ctxHead p s) (b, image) }), [])

/-- Context s has work, and credit for it (R112): a frame in progress whose next line is there, or a frame that it can latch. -/
def Dev.hasWork (d : Dev) (p s : Nat) : Bool :=
  match (d.ctx p s).work with
  | some w => d.lineArrived p s w && d.lineCredit p w && (match (if w.own.isSome then none else d.nextFrame (d.ctxHead p s)) with
    | some f => f.closed || !f.dropped
    | none => true)
  | none => d.waitsForLatch p s || (d.ctxOn p s && d.isReplay p s && (d.pipe p).replays.any (fun r => decide (r.1 = s)))

/-- The streams of a pipeline that has not stopped which have work. -/
def Dev.withWork (d : Dev) (p : Nat) : List Nat := if (d.pipe p).faulted then [] else (List.range 32).filter (d.hasWork p)

/-- When a pipeline that has work and credit has made no progress for 1,048,576 CORE cycles (R112). -/
def Dev.noProgressDue (d : Dev) (p : Nat) : Option Nat :=
  if (d.withWork p).isEmpty then none else some ((d.pipe p).last + 279621)

/-- Pipelines that had no work with credit, and now do, count the time without progress from now (R112). -/
def Dev.workFrom (d old : Dev) (t : Nat) : Dev :=
  (List.range 2).foldl (fun (d : Dev) p =>
    if (old.noProgressDue p).isNone && (d.noProgressDue p).isSome then d.updPipe p (fun x => { x with last := t }) else d) d

/-- The stream named is the one chosen at the line boundary, if it has work, or else the first that has. -/
def Dev.noProgress (d : Dev) (t p : Nat) : Dev × List MemWrite :=
  let l := d.withWork p
  let s := match (d.pipe p).cur with
    | some s => if l.contains s then s else l.headD 0
    | none => l.headD 0
  (d.plFault t p 0 0x0003 s).stopPipe t p

/-- PL_STANDBY_TAKEOVER (R110): the armed contexts whose head's next frame is there. -/
def Dev.standbyTakeover (d : Dev) (t p : Nat) : Dev :=
  let l := (List.range 32).filter (fun s => (d.ctx p s).arm && (d.nextFrame (d.ctxHead p s)).isSome)
  if l.isEmpty then d
  else (l.foldl (fun d s => d.updCtx p s (fun c => { c with arm := false })) d).plFault t p 0 0x0004 (maskOf l)

/-! ## Handover (R111) and replay (R108) -/

/-- A write to PL_HANDOVER. -/
def Dev.handoverCmd (d : Dev) (p : Nat) (v : Word) : Dev :=
  let s := nfld v.toNat 4 0
  if v.toNat.testBit 8 = false then d
  else if d.ctxOn p s = true ∧ (d.ctx p s).active = true ∧ (d.ctx p s).handover = false ∧ d.isReplay p s = false ∧ (d.standbyOf p s).isSome = true then
    d.updCtx p s (fun c => { c with handover := true })
  else d.flag (Reg.PL_FAULT p) 8

/-- PL_HANDOVER_DONE: streams whose frame in progress is complete and whose head's next frame is there. -/
def Dev.handoverDone (d : Dev) (t p : Nat) : Dev :=
  let l := (List.range 32).filter (fun s => (d.ctx p s).handover && !(d.ctx p s).busy && (d.nextFrame (d.ctxHead p s)).isSome && (d.standbyOf p s).isSome)
  if l.isEmpty then d
  else (l.foldl (fun (d : Dev) s => match d.standbyOf p s with
    | some k => d.moveStream p s k false
    | none => d) d).plFault t p 0 0x0008 (maskOf l)

/-- A write to PL_REPLAY. -/
def Dev.replaySubmit (d : Dev) (t p : Nat) (v : Word) : Dev :=
  let s := nfld v.toNat 4 0
  if d.ctxOn p s = true ∧ d.isReplay p s = true ∧ ((d.pipe p).replays.any (fun r => decide (r.1 = s))) = false then
    (d.updPipe p (fun x => { x with replays := x.replays ++ [(s, d.rdN (Reg.PL_REPLAY_ADDR p))] })).workFrom d t
  else d.flag (Reg.PL_FAULT p) 8

/-! ## What a swap does (R80, R81, R97) -/

/-- The live set of pipeline p has changed; `old` gives the words of PL_Sx_CFG before, and `was` whether the pipeline was enabled. A context
newly on, or with another role or head, starts anew; one that goes off stops. DESIGN CHOICE: one that comes on after a SHUTTER region was
latched makes no anchor reset for it (log 198). -/
def Dev.plSwap (d : Dev) (p : Nat) (was : Bool) (old : Nat → Nat) : Dev :=
  let on := d.bit (Reg.PL_CFG p) 0
  let role := fun (e : Bool) v => if e && nbit v 0 then v &&& 0x6F else 0
  (List.range 32).foldl (fun d s =>
    let new := d.rdN (Reg.PL_Sx_CFG p s)
    if role on new = role was (old s) then d
    else if on && nbit new 0 then
      d.setCtx p s { Ctx.reset with active := !nbit new 5 && !nbit new 6, work := (d.ctx p s).work, shutSeen := (d.lth (nfld new 3 1)).shutCount }
    else d.updCtx p s (fun c => { Ctx.reset with work := c.work })) d

/-! ## Unit reset -/

/-- The other pipeline has an active context of head h (R80). -/
def Dev.carriedByOther (d : Dev) (p h : Nat) : Bool :=
  (List.range 32).any (fun k => d.ctxOn (1 - p) k && (d.ctx (1 - p) k).active && !d.isReplay (1 - p) k && decide (d.ctxHead (1 - p) k = h))

/-- A unit reset of a pipeline: its contexts, cache and work. A context comes back active where it carried its head, or does by its standby
bit, unless the other pipeline carries the head by then (R80, log 50). -/
def Dev.plUnitReset (d : Dev) (p : Nat) : Dev :=
  let d := (List.range 32).foldl (fun d s => d.setCtx p s { Ctx.reset with
    active := d.ctxOn p s && !d.bit (Reg.PL_Sx_CFG p s) 6 && ((d.ctx p s).active || !d.bit (Reg.PL_Sx_CFG p s) 5)
      && !d.carriedByOther p (d.fld (Reg.PL_Sx_CFG p s) 3 1), shutSeen := (d.ctx p s).shutSeen }) d
  d.setPipe p Pipe.reset

/-! ## Commands -/

def execPlLineBoundary (p : Fin 2) (s : State) : Result := s.act (fun now d => (d.lineBoundary p).workFrom d now.dtime)
def execPlLineProcess (p : Fin 2) (s : State) : Result := s.actWr (4 + p) (fun now m d => d.lineProcess m now.dtime p)
def execPlTableLoadDone (p : Fin 2) (ok : Bool) (s : State) : Result := s.actWr (4 + p) (fun now m d => d.tableLoadDone m now.dtime p ok)
def execPlFault (p : Fin 2) (code : Fin 7) (stage : Fin 10) (arg : Fin 32) (s : State) : Result :=
  s.actWr (4 + p) (fun now _ d => d.plFaultEvent now.dtime p code stage arg)
def execPlNoProgress (p : Fin 2) (s : State) : Result :=
  s.actDueWr (4 + p) (fun _ d => d.noProgressDue p) (fun now _ d => d.noProgress now.dtime p)
def execPlStandbyTakeover (p : Fin 2) (s : State) : Result := s.act (fun now d => d.standbyTakeover now.dtime p)
def execPlHandover (p : Fin 2) (v : Word) (s : State) : Result := s.act (fun _ d => d.handoverCmd p v)
def execPlHandoverDone (p : Fin 2) (s : State) : Result := s.act (fun now d => d.handoverDone now.dtime p)
def execPlReplaySubmit (p : Fin 2) (v : Word) (s : State) : Result := s.act (fun now d => d.replaySubmit now.dtime p v)

end Sys2Proof.Machine
end

