-- ==== Sys2Proof/Machine/Timebase.lean ====
section
/-! DEFINITION. Machine/Timebase.lean: the timebase (02): encoders, WPOS, speed, slip check and takeover (R33 to R39), row generators
(R41, R42), the gap window (R45, R46), the outputs' pulses (R47, R48), timers (R49, R50) and its unit resets (R488). -/
namespace Sys2Proof.Machine

/-! ## Encoders and web position (R33 to R36) -/

def Dev.encPins (d : Dev) (n : Nat) : EncPins := SMap.get EncPins.reset d.web.enc n
def Dev.setEncPins (d : Dev) (n : Nat) (p : EncPins) : Dev :=
  { d with web := { d.web with enc := SMap.set EncPins.reset d.web.enc n p } }
def Dev.setSlip (d : Dev) (f : Slip → Slip) : Dev := { d with web := { d.web with slip := f d.web.slip } }

/-- The primary and the secondary encoder of WP_CFG (R53). -/
def Dev.primary (d : Dev) : Nat := d.fld Reg.WP_CFG 1 0
def Dev.secondary (d : Dev) : Nat := d.fld Reg.WP_CFG 3 2
/-- The encoder that feeds WPOS (R38, R53). -/
def Dev.source (d : Dev) : Nat := if d.web.slip.takeover then d.secondary else d.primary
/-- wpos_en, check_en and take_en (R53). -/
def Dev.wposEn (d : Dev) : Bool := d.bit Reg.WP_CFG 6
def Dev.checkEn (d : Dev) : Bool := d.bit Reg.WP_CFG 4
def Dev.takeEn (d : Dev) : Bool := d.bit Reg.WP_CFG 5

/-- What an accepted change of levels of an encoder is (R33). -/
inductive EncCount where
  | none | illegal | count (forward : Bool)
  deriving DecidableEq, Repr

/-- Decode an accepted change of levels (R33): `decode` 0 ×1, 1 ×2, 2 ×4; code 3 is reserved and counts nothing. -/
def decodeEdge (decode : Nat) (invert : Bool) (old new : EncPins) : EncCount :=
  if old.a ≠ new.a ∧ old.b ≠ new.b then .illegal
  else if old.a ≠ new.a then
    if decode = 2 ∨ decode = 1 ∨ (decode = 0 ∧ new.a = true) then .count (xor (decide (new.a ≠ new.b)) invert)
    else .none
  else if old.b ≠ new.b then
    if decode = 2 then .count (xor (decide (new.b = new.a)) invert) else .none
  else .none

/-- A WPOS value in 64-bit signed arithmetic (R4). -/
def wrap64 (v : Int) : Int := Int.bmod v (2 ^ 64)

/-- Move WPOS by a travel in scale units through the fraction accumulator (R34). -/
def Clock.move (c : Clock) (travel : Int) : Clock :=
  let sum := (c.frac : Int) + travel
  { c with wpos := wrap64 (c.wpos + sum / 4096), frac := (sum % 4096).toNat }

/-- The edges that a later count may still look back to (R36): all younger than 65,536 ticks and the first that is not. -/
def keepEdges (t : Nat) : List (Nat × Int) → List (Nat × Int)
  | [] => []
  | e :: es => if e.1 + 65536 ≤ t then [e] else e :: keepEdges t es

/-- The earlier edge of the speed computation (R36): the latest at least 65,536 ticks before t, or the previous edge. -/
def refEdge (t : Nat) (es : List (Nat × Int)) : Option (Nat × Int) :=
  match es.find? (fun e => decide (e.1 + 65536 ≤ t)) with
  | some e => some e
  | none => es.head?

/-- The speed between two edges: signed Q16.16, truncated toward zero (R36). -/
def speedOf (a b : Nat × Int) : Int := Int.tdiv ((b.2 - a.2) * 65536) ((b.1 : Int) - a.1)

/-- A count of the source encoder updates WP_SPEED and the stop watch (R36). A speed beyond 32 bits is a free value (log 1). -/
def Dev.speedCount (d : Dev) (t : Nat) (wpos : Int) (reverse : Bool) : Dev :=
  let es := d.web.slip.edges
  let d := d.setSlip (fun x => { x with edges := (t, wpos) :: keepEdges t es, lastCount := t, stopped := false, reverse := reverse })
  match refEdge t es with
  | none => d
  | some e =>
    if t ≤ e.1 then d
    else
      let v := speedOf e (t, wpos)
      if -(2 ^ 31) ≤ v ∧ v < 2 ^ 31 then d.wrI Reg.WP_SPEED v
      else let r := d.fresh; r.2.wrN Reg.WP_SPEED r.1

/-- A row generator whose base moves from `old` (R42): a new update begins, or, while rows of an update before are still to come, its burst
goes on (log 155). -/
def RowGen.moved (g : RowGen) (old : Int) (jump : Bool) : RowGen :=
  match g.next with
  | some p => if p ≤ old ∧ g.since ≠ 0 then { g with jump := g.jump || jump } else { g with since := 0, jump := jump }
  | none => { g with since := 0, jump := jump }

/-- WPOS has changed from `old` (R42). -/
def Dev.webMoved (d : Dev) (old : Int) (jump : Bool) : Dev :=
  { d with web := { d.web with rg := d.web.rg.map (fun p => (p.1, p.2.moved old jump)) } }

/-- The secondary takes over (R38): WPOS jumps by the secondary's travel since the primary's last count. -/
def takeover (cd : Clock × Dev) : Clock × Dev :=
  let c := cd.1
  let d := cd.2
  let c' := if d.wposEn then { c with wpos := wrap64 (c.wpos + (c.frac + d.web.slip.secSince) / 4096), frac := 0 } else { c with frac := 0 }
  let d := d.setSlip (fun x => { x with takeover := true, edges := [] })
  let d := d.faultFlag c.dtime (uid 11 0 0) 0x0002 (unsgn 32 (c'.wpos - c.wpos)) Reg.WP_FAULT 1
  (c', if c'.wpos = c.wpos then d else d.webMoved c.wpos true)

/-- A takeover is allowed: take_en, the primary feeds WPOS, and R39 has not suspended it. -/
def Dev.mayTake (d : Dev) : Bool := d.takeEn && !d.web.slip.takeover && !d.web.slip.suspended

/-- An illegal transition of encoder n (R33, R38). -/
def illegalEdge (n : Nat) (cd : Clock × Dev) : Clock × Dev :=
  let c := cd.1
  let d := cd.2.bump (Reg.WP_ENCn_ILLEGAL n)
  if n = d.primary ∧ d.wposEn = true ∧ d.web.slip.takeover = false then
    let k := d.web.slip.illegal + 1
    let d := d.setSlip (fun x => { x with illegal := k })
    if k = 4 then
      let d := d.faultFlag c.dtime (uid 11 (1 + n) 0) 0x0003 k Reg.WP_FAULT 2
      if d.mayTake then takeover (c, d) else (c, d)
    else (c, d)
  else (c, d)

/-- The ratio of R37; where the primary's travel is 0 the rule states none, and it is a free value (log 152). -/
def Dev.slipRatio (d : Dev) : Int × Dev :=
  let x := d.web.slip
  if x.d0 = 0 then (sgn 32 d.fresh.1, d.fresh.2)
  else (clampI (-(2 ^ 31)) (2 ^ 31 - 1) (Int.tdiv ((x.d1 - x.d0) * 65536) x.d0), d)

/-- The end of a slip window (R37). -/
def Dev.slipWindowEnd (d : Dev) (t : Nat) : Dev :=
  let d := if d.checkEn = true ∧ d.web.slip.suspended = false then
      let ratio := d.slipRatio.1
      let d := d.slipRatio.2
      let d := d.wrI Reg.WP_SLIP_RATIO ratio
      if (d.rdN Reg.WP_SLIP_LIM : Int) < ratio.natAbs then
        d.faultFlag t (uid 11 0 0) 0x0001 (unsgn 32 ratio) Reg.WP_FAULT 0
      else d
    else d
  d.setSlip (fun x => { x with d0 := 0, d1 := 0, illegal := 0 })

/-- The watch on the secondary at a count of the primary (R39), whichever of them feeds WPOS. -/
def Dev.secondaryWatch (d : Dev) (t : Nat) (travel : Int) : Dev :=
  let watched := d.checkEn || d.takeEn
  let since := if watched then d.web.slip.primSince + travel else 0
  let d := d.setSlip (fun x => { x with primSince := since })
  if watched = true ∧ d.web.slip.suspended = false ∧ d.rdN Reg.WP_TAKE_DIST * 65536 ≤ since.natAbs then
    (d.faultFlag t (uid 11 0 0) 0x0004 (since.natAbs / 65536) Reg.WP_FAULT 3).setSlip (fun x => { x with suspended := true })
  else d

/-- A count of the primary (R37, R38, R39): the slip window runs while it feeds WPOS. -/
def Dev.primaryCount (d : Dev) (t : Nat) (travel : Int) : Dev :=
  let d := (d.setSlip (fun x => { x with secSince := 0 })).secondaryWatch t travel
  if d.wposEn = true ∧ d.web.slip.takeover = false then
    let d := d.setSlip (fun x => { x with d0 := x.d0 + travel })
    if (d.rdN Reg.WP_SLIP_WIN * 65536 : Int) ≤ d.web.slip.d0 then d.slipWindowEnd t else d
  else d

/-- A count of the secondary (R37, R38, R39); the travels it adds to are of use while the primary feeds WPOS. -/
def secondaryCount (travel : Int) (cd : Clock × Dev) : Clock × Dev :=
  let c := cd.1
  let d := cd.2.setSlip (fun x => { x with suspended := false, primSince := 0, d1 := x.d1 + travel, secSince := x.secSince + travel })
  if d.mayTake = true ∧ d.rdN Reg.WP_TAKE_DIST * 65536 ≤ d.web.slip.secSince.natAbs then takeover (c, d) else (c, d)

/-- A count of encoder n (R33 to R39). -/
def encCount (n : Nat) (fwd : Bool) (cd : Clock × Dev) : Clock × Dev :=
  let c := cd.1
  let d := cd.2
  let one : Int := if fwd then 1 else -1
  let travel : Int := one * d.rdN (Reg.WP_ENCn_SCALE n)
  let d := (d.wrI (Reg.WP_ENCn_COUNT n) (d.rdI (Reg.WP_ENCn_COUNT n) + one)).wr64 (Reg.WP_ENCn_EDGE_LO n) c.dtime
  let r : Clock × Dev := if n = d.source then
      let c' := if d.wposEn then c.move travel else c
      let d := d.speedCount c.dtime c'.wpos (!fwd)
      (c', if c'.wpos = c.wpos then d else d.webMoved c.wpos false)
    else (c, d)
  let r := if n = d.primary then (r.1, r.2.primaryCount c.dtime travel) else r
  if n = d.secondary then secondaryCount travel r else r

/-- New levels at encoder n's pins, stable for `stable` DRIVE ticks (R33). -/
def encEdge (n : Nat) (new : EncPins) (stable : Nat) (cd : Clock × Dev) : Clock × Dev :=
  let d := cd.2
  if stable < d.fld (Reg.WP_ENCn_CFG n) 15 8 then cd
  else
    let old := d.encPins n
    let d := d.setEncPins n new
    match decodeEdge (d.fld (Reg.WP_ENCn_CFG n) 1 0) (d.bit (Reg.WP_ENCn_CFG n) 2) old new with
    | .none => (cd.1, d)
    | .illegal => illegalEdge n (cd.1, d)
    | .count fwd => encCount n fwd (cd.1, d)

/-- ENC_EDGE (R33): encoders run on through a warm reset (R433). -/
def execEncEdge (dt : Nat) (n : Fin 4) (a b : Bool) (stable : Nat) (s : State) : Result :=
  let s := s.pass dt
  match s.dev.pw.phase with
  | .off => .next s
  | .cold => .next s
  | _ =>
    let r := encEdge n ⟨a, b⟩ stable (s.clock, s.dev)
    .next { s with clock := r.1, dev := r.2 }

/-- SPEED_STOP_TIMEOUT (R36): 4,194,304 ticks without a count. -/
def execSpeedStopTimeout (s : State) : Result :=
  s.actDue (fun _ d => if d.web.slip.stopped then none else some (d.web.slip.lastCount + 4194304))
    (fun _ d => (d.setSlip (fun x => { x with stopped := true })).wrN Reg.WP_SPEED 0)

/-! ## Row generators (R41, R42) -/

def Dev.rowGen (d : Dev) (n : Nat) : RowGen := SMap.get RowGen.reset d.web.rg n
def Dev.setRowGen (d : Dev) (n : Nat) (g : RowGen) : Dev := { d with web := { d.web with rg := SMap.set RowGen.reset d.web.rg n g } }
/-- Time mode: origin and pitch are in DRIVE ticks and DTIME replaces WPOS (R41). -/
def Dev.rgTime (d : Dev) (n : Nat) : Bool := d.bit (Reg.WP_RGn_CFG n) 1
def Dev.rgPitch (d : Dev) (n : Nat) : Nat := d.rdN (Reg.WP_RGn_PITCH n)

/-- The first value origin + k × pitch strictly beyond a reference (R41). -/
def firstBeyond (origin : Int) (pitch : Nat) (ref : Int) : Int :=
  if ref < origin then origin else origin + ((ref - origin) / pitch + 1) * pitch

/-- The base a generator follows. -/
def Dev.rgBase (d : Dev) (now : Now) (n : Nat) : Int := if d.rgTime n then now.dtime else now.wpos

/-- The DRIVE tick of a generator's next row, if one is due (R42): in time mode the tick of its position, and one row a tick where a swap has
left that behind (log 195); in position mode the tick of the update for the first row, then one tick after the row before. -/
def Dev.rowDue (d : Dev) (now : Now) (n : Nat) : Option Nat :=
  let g := d.rowGen n
  match g.next with
  | none => none
  | some p =>
    if d.rgTime n then some (max p.toNat (g.last + 1))
    else if p ≤ now.wpos then some (if g.since = 0 then now.dtime else g.last + 1) else none

/-- Emit generator n's next row at DTIME t (R42). -/
def Dev.emitRow (d : Dev) (now : Now) (n : Nat) : Dev :=
  let g := d.rowGen n
  match g.next with
  | none => d
  | some p =>
    let q := d.rgPitch n
    let burst := decide (g.since ≠ 0) && !d.rgTime n
    let d := if burst then d.bump (Reg.WP_RGn_CATCH n) else d
    let told := burst && g.jump
    let d := if told then
        d.faultFlag now.dtime (uid 11 (5 + n) 0) 0x0006 (((now.wpos - p) / q).toNat + g.since + 1) Reg.WP_FAULT 5 else d
    let d := d.setRowGen n { g with next := some (p + q), pos := p, rows := g.rows + 1, since := g.since + 1, jump := g.jump && !told, last := now.dtime }
    let d := d.wrN (Reg.WP_RGn_ROWNUM n) (g.rows + 1)
    d.raise now.dtime (16 + n) g.rows

/-! ## The gap window (R45, R46) -/

/-- The plan's position (R52). -/
def Dev.planPos (d : Dev) : Int := sgn 64 (d.rd64 Reg.WP_GAP_PLAN_LO)
/-- The tick in which a plan is due: it is armed, and WPOS at or beyond it, from the first tick after the arming write (R45). -/
def Dev.planAt (d : Dev) (now : Now) : Option Nat :=
  if d.planPos ≤ now.wpos then d.web.planArmed.map (fun t => max now.dtime (t + 1)) else none
/-- A plan is due in this tick (R45). -/
def Dev.planDue (d : Dev) (now : Now) : Bool := decide (d.planAt now = some now.dtime)
def Dev.setPlan (d : Dev) (armed : Option Nat) : Dev := { d with web := { d.web with planArmed := armed } }
/-- Ignored gap causes (R45). -/
def Dev.gapReject (d : Dev) (n : Nat) : Dev := if n = 0 then d else d.bumpBy Reg.WP_GAP_REJECT n

/-- Open the window (R45). A plan due in this tick has fired. -/
def Dev.gapOpen (d : Dev) (now : Now) : Dev :=
  let d := if d.planDue now then d.setPlan none else d
  let d := ({ d with web := { d.web with gapOpen := true, gapLast := some (now.dtime, true) } } : Dev).gapLevels
  let d := (d.wr64 Reg.WP_GAP_T0_LO now.dtime).wr64 Reg.WP_GAP_P0_LO (unsgn 64 now.wpos)
  d.raise now.dtime 28 0

/-- Close the window (R45). -/
def Dev.gapClose (d : Dev) (now : Now) : Dev :=
  let d := ({ d with web := { d.web with gapOpen := false, gapLast := some (now.dtime, false) } } : Dev).gapLevels
  (d.wr64 Reg.WP_GAP_T1_LO now.dtime).raise now.dtime 29 0

/-- What gap causes do that arrive together (R45): `same` says that they fall in the DRIVE tick of the command before. Answers whether the
window opened. -/
def Dev.gapCauses (d : Dev) (now : Now) (same : Bool) (opens closes : Nat) : Dev × Bool :=
  match (if same then d.web.gapLast.filter (fun p => p.1 = now.dtime) else none) with
  | some (_, true) => (d.gapReject closes, false)
  | some (_, false) => (d.gapReject opens, false)
  | none =>
    if d.web.gapOpen then (if closes = 0 then d.gapReject opens else (d.gapReject opens).gapClose now, false)
    else if opens = 0 then (d.gapReject closes, false)
    else ((d.gapReject closes).gapOpen now, true)

/-- The gap window's length so far, in the base that len_base selects (R45, R46). -/
def Dev.gapLength (d : Dev) (now : Now) : Int :=
  if d.bit Reg.WP_GAP_CFG 9 then (now.dtime : Int) - d.rd64 Reg.WP_GAP_T0_LO
  else now.wpos - sgn 64 (d.rd64 Reg.WP_GAP_P0_LO)

/-- When an open window reaches a length: at its tick in the DTIME base, now in the WPOS base; never in the opening tick (R45). -/
def Dev.gapReaches (d : Dev) (now : Now) (len : Nat) : Option Nat :=
  let t0 := d.rd64 Reg.WP_GAP_T0_LO
  if d.bit Reg.WP_GAP_CFG 9 then some (t0 + max 1 len)
  else if (len : Int) ≤ d.gapLength now then some (t0 + 1) else none

/-- A due plan opens the window, or is discarded and counted while it is open; it disarms (R45). -/
def Dev.gapPlanFires (d : Dev) (now : Now) : Dev × Bool :=
  if d.planDue now then (d.setPlan none).gapCauses now true 1 0 else (d, false)

/-- GAP_LENGTH_REACHED (R45): len_en, and the open window reaches WP_GAP_LEN. -/
def execGapLengthReached (s : State) : Result :=
  s.actDue (fun now d => if d.web.gapOpen = true ∧ d.bit Reg.WP_GAP_CFG 8 = true then d.gapReaches now (d.rdN Reg.WP_GAP_LEN) else none)
    (fun now d => (d.gapCauses now true 0 1).1)

/-- GAP_FORCED_CLOSE (R46): the open window reaches WP_GAP_MAX; where the length cause closes it in the same tick, it is not forced. -/
def execGapForcedClose (s : State) : Result :=
  s.actDue (fun now d => if d.web.gapOpen = true ∧ d.rdN Reg.WP_GAP_MAX ≠ 0 then d.gapReaches now (d.rdN Reg.WP_GAP_MAX) else none)
    (fun now d =>
      let len := d.gapLength now
      let d' := (d.gapCauses now true 0 1).1
      if d.bit Reg.WP_GAP_CFG 8 = true ∧ (d.rdN Reg.WP_GAP_LEN : Int) ≤ len then d'
      else d'.faultFlag now.dtime (uid 11 0 0) 0x0005 (unsgn 32 len) Reg.WP_FAULT 4)

/-- A software close (R45). -/
def execGapSoftwareClose (dt : Nat) (s : State) : Result :=
  (s.pass dt).act (fun now d => (d.gapCauses now (decide (dt = 0)) 0 1).1)

/-- GAP_PLAN_DISARM (R52). -/
def execGapPlanDisarm (s : State) : Result := s.act (fun _ d => d.setPlan none)

/-- Write the low half of the plan position: the write disarms the plan (R52). -/
def Dev.planLoWrite (d : Dev) (v : Word) : Dev := (d.wr Reg.WP_GAP_PLAN_LO v).setPlan none
/-- Write the high half: the write, which reaches DRIVE at t, arms the plan (R45, R52). -/
def Dev.planHiWrite (d : Dev) (t : Nat) (v : Word) : Dev := (d.wr Reg.WP_GAP_PLAN_HI v).setPlan (some t)

def execGapPlanLoWrite (v : Word) (s : State) : Result := s.act (fun _ d => d.planLoWrite v)
def execGapPlanHiWrite (v : Word) (s : State) : Result := s.act (fun now d => d.planHiWrite now.dtime v)

/-! ## Triggers (R44) -/

def Dev.trgLevel (d : Dev) (n : Nat) : Bool := SMap.get false d.web.trg n
def Dev.setTrg (d : Dev) (n : Nat) (l : Bool) : Dev := { d with web := { d.web with trg := SMap.set false d.web.trg n l } }

/-- A filtered edge of TRGn raises its event and is stamped if its polarity is selected (R44, R489). -/
def Dev.trgEvent (d : Dev) (now : Now) (n : Nat) (rising : Bool) : Dev :=
  let e := d.fld (Reg.WP_TRGn_CFG n) 1 0
  if e = 3 ∨ e = (if rising then 1 else 2) then
    (d.wr64 (Reg.WP_TRGn_EDGE_LO n) now.dtime).raise now.dtime (24 + n) (b2n rising)
  else d

/-- The opening and closing causes that an accepted edge of TRGn is to the gap window (R45). -/
def Dev.trgOpens (d : Dev) (n : Nat) (rising : Bool) : Nat :=
  b2n (decide (d.fld Reg.WP_GAP_CFG 2 0 = n + 1) && decide (d.bit Reg.WP_GAP_CFG 3 = !rising))
def Dev.trgCloses (d : Dev) (n : Nat) (rising : Bool) : Nat :=
  b2n (decide (d.fld Reg.WP_GAP_CFG 6 4 = n + 1) && decide (d.bit Reg.WP_GAP_CFG 7 = !rising))

/-- A new level at TRGn, stable for `stable` ticks (R44): too short a pulse is a glitch. Answers whether the gap window opened. -/
def Dev.trgEdge (d : Dev) (now : Now) (same : Bool) (n : Nat) (level : Bool) (stable : Nat) : Dev × Bool :=
  if level = d.trgLevel n then (d, false)
  else if stable < d.fld (Reg.WP_TRGn_CFG n) 15 8 then (d.bump (Reg.WP_TRGn_GLITCH n), false)
  else ((d.setTrg n level).trgEvent now n level).gapCauses now same (d.trgOpens n level) (d.trgCloses n level)

/-! ## Pulses of the outputs (R47, R48) -/

/-- EVT_PULSE_END (R47). -/
def execEvtPulseEnd (n : Fin 4) (s : State) : Result :=
  s.actDue (fun _ d => (d.evtPin n).pulseEnd) (fun _ d => d.setEvt n (d.evtRest n))

/-- HSY_PULSE_END (R48). -/
def execHsyPulseEnd (n : Fin 8) (s : State) : Result :=
  s.actDue (fun _ d => (d.hsyPin n).pulseEnd) (fun _ d => d.setHsy n ⟨d.hsyIdle n, none⟩)

/-! ## Timers (R49, R50) -/

def Dev.timer (d : Dev) (n : Nat) : TimerArm := SMap.get TimerArm.reset d.web.tm n
def Dev.setTimer (d : Dev) (n : Nat) (x : TimerArm) : Dev := { d with web := { d.web with tm := SMap.set TimerArm.reset d.web.tm n x } }
def Dev.tmArmed (d : Dev) (n : Nat) : Bool := d.bit (Reg.WP_TMn_CTL n) 0
/-- A timer's target and base: DTIME unsigned, or WPOS signed (R49). -/
def Dev.tmTarget (d : Dev) (n : Nat) : Int :=
  if d.bit (Reg.WP_TMn_CTL n) 2 then sgn 64 (d.rd64 (Reg.WP_TMn_TGT_LO n)) else d.rd64 (Reg.WP_TMn_TGT_LO n)
def Dev.tmBase (d : Dev) (now : Now) (n : Nat) : Int := if d.bit (Reg.WP_TMn_CTL n) 2 then now.wpos else now.dtime

/-- A write to WP_TMn_CTL (R49): late and err clear where 1 is written; arm, periodic and base are stored; arming a periodic timer with a
period below 4 sets err and leaves it disarmed. -/
def Dev.timerCtl (d : Dev) (now : Now) (n : Nat) (v : Word) : Dev :=
  let c := Reg.WP_TMn_CTL n
  let keep := d.rdN c - (d.rdN c &&& (v.toNat ||| 7)) % 32
  let d := d.wrN c (keep + v.toNat % 8)
  if v.toNat.testBit 0 then
    if v.toNat.testBit 1 = true ∧ d.rdN (Reg.WP_TMn_PERIOD n) < 4 then (d.clrBits c 1).flag c 4
    else d.setTimer n ⟨now.dtime, decide (d.tmTarget n < d.tmBase now n)⟩
  else d

/-- A write to a half of a timer's target: while armed it disarms the timer and sets err (R50). -/
def Dev.timerTarget (d : Dev) (n : Nat) (hi : Bool) (v : Word) : Dev :=
  let d := d.wr (if hi then Reg.WP_TMn_TGT_HI n else Reg.WP_TMn_TGT_LO n) v
  if d.tmArmed n then (d.clrBits (Reg.WP_TMn_CTL n) 1).flag (Reg.WP_TMn_CTL n) 4 else d

/-- The tick at which an armed timer fires, if it does (R49). A periodic timer whose new target its base has passed too fires again (log 156).
A position timer that was armed late and whose base falls back below its target fires all the same: DESIGN CHOICE (log 205). -/
def Dev.tmDue (d : Dev) (now : Now) (n : Nat) : Option Nat :=
  if d.tmArmed n then
    if (d.timer n).late then some ((d.timer n).at_ + 1)
    else if d.bit (Reg.WP_TMn_CTL n) 2 then (if d.tmTarget n ≤ now.wpos then some now.dtime else none)
    else some (d.rd64 (Reg.WP_TMn_TGT_LO n))
  else none

/-- A timer fires (R49). -/
def Dev.tmFire (d : Dev) (now : Now) (n : Nat) : Dev :=
  let c := Reg.WP_TMn_CTL n
  let d := if (d.timer n).late then (d.flag c 3).setTimer n ⟨(d.timer n).at_, false⟩ else d
  let d := if d.bit c 1 then d.wr64 (Reg.WP_TMn_TGT_LO n) (d.rd64 (Reg.WP_TMn_TGT_LO n) + d.rdN (Reg.WP_TMn_PERIOD n))
    else d.clrBits c 1
  d.raise now.dtime (128 + n) 0

def execTimerArm (n : Fin 128) (v : Word) (s : State) : Result := s.act (fun now d => d.timerCtl now n v)
def execTimerMatch (n : Fin 128) (s : State) : Result := s.actDue (fun now d => d.tmDue now n) (fun now d => d.tmFire now n)
def execTimerTargetWrite (n : Fin 128) (hi : Bool) (v : Word) (s : State) : Result := s.act (fun _ d => d.timerTarget n hi v)

/-! ## What a swap does in the timebase (R34, R36, R38, R40, R41, R47, R48) -/

/-- WP_CFG comes into force; `old` is the value it replaces. A change of the secondary during a takeover changes the source at once (log 151). -/
def wpCfgSwap (old : Nat) (cd : Clock × Dev) : Clock × Dev :=
  let d := cd.2
  let new := d.rdN Reg.WP_CFG
  let oldSource := if d.web.slip.takeover then nfld old 3 2 else nfld old 1 0
  let primaryChanged := decide (nfld new 1 0 ≠ nfld old 1 0)
  let enabled := nfld new 6 6 = 1 ∧ nfld old 6 6 = 0
  let d := if primaryChanged then d.setSlip (fun x => { x with takeover := false }) else d
  let sourceChanged := decide (d.source ≠ oldSource)
  let c := if sourceChanged = true ∨ enabled then { cd.1 with frac := 0 } else cd.1
  let d := if sourceChanged = true ∨ primaryChanged = true ∨ enabled then d.setSlip (fun x => { x with edges := [] }) else d
  let d := if enabled ∨ primaryChanged = true then
      d.setSlip (fun x => { x with d0 := 0, d1 := 0, illegal := 0, secSince := 0, primSince := 0 }) else d
  let d := if nfld new 3 2 ≠ nfld old 3 2 then d.setSlip (fun x => { x with secSince := 0, primSince := 0, d1 := 0, d0 := 0, illegal := 0, suspended := false }) else d
  (c, d)

/-- A row generator's settings come into force: the next row is computed again; an enable starts the row count (R41). -/
def Dev.rgSwap (d : Dev) (now : Now) (n : Nat) (wasOn : Bool) : Dev :=
  let g := d.rowGen n
  let origin := sgn 64 (d.rd64 (Reg.WP_RGn_ORIGIN_LO n))
  if d.bit (Reg.WP_RGn_CFG n) 0 then
    if wasOn then d.setRowGen n { g with next := some (firstBeyond origin (d.rgPitch n) g.pos) }
    else (d.setRowGen n { RowGen.reset with next := some (firstBeyond origin (d.rgPitch n) (d.rgBase now n)) }).wrN (Reg.WP_RGn_ROWNUM n) 0
  else d.setRowGen n { g with next := none }

/-- An output takes the inactive level of its new settings, or in gap-level mode what the gap state gives, and a running pulse ends; the
events of this tick, still on their way to the scheduler, act under the new settings (R47, R48). -/
def Dev.outSwap (d : Dev) (t u : Nat) : Dev :=
  let now := d.ev.filter (fun e => decide (e.dtime = t))
  if u = 18 then
    (List.range 4).foldl (fun (d : Dev) n => now.foldl (fun (d : Dev) e => d.mirrorEvt t e.num n) (d.setEvt n (d.evtRest n))) d
  else
    (List.range 8).foldl (fun (d : Dev) n => now.foldl (fun (d : Dev) e => d.mirrorHsy t e.num n) (d.setHsy n ⟨d.hsyIdle n, none⟩)) d

/-! ## Unit resets of the timebase (R488) -/

/-- Return a register to its reset value. -/
def Dev.regToReset (d : Dev) (a : Nat) : Dev := d.wr a (regReset a)

/-- A unit reset of unit u of the timebase; the pending swap and the generation are handled for every unit alike (R21). -/
def Dev.wpUnitReset (d : Dev) (t u : Nat) : Dev :=
  if 1 ≤ u ∧ u ≤ 4 then
    [Reg.WP_ENCn_COUNT (u - 1), Reg.WP_ENCn_ILLEGAL (u - 1), Reg.WP_ENCn_EDGE_LO (u - 1), Reg.WP_ENCn_EDGE_HI (u - 1)].foldl Dev.regToReset d
  else if 5 ≤ u ∧ u ≤ 12 then
    let n := u - 5
    let d := [Reg.WP_RGn_CFG n, Reg.WP_RGn_PITCH n, Reg.WP_RGn_ORIGIN_LO n, Reg.WP_RGn_ORIGIN_HI n, Reg.WP_RGn_ROWNUM n,
      Reg.WP_RGn_CATCH n].foldl Dev.regToReset d
    d.setRowGen n RowGen.reset
  else if 13 ≤ u ∧ u ≤ 16 then
    let n := u - 13
    [Reg.WP_TRGn_CFG n, Reg.WP_TRGn_GLITCH n, Reg.WP_TRGn_EDGE_LO n, Reg.WP_TRGn_EDGE_HI n].foldl Dev.regToReset d
  else if u = 17 then
    let d := (List.range 128).foldl (fun d n => [Reg.WP_TMn_TGT_LO n, Reg.WP_TMn_TGT_HI n, Reg.WP_TMn_PERIOD n, Reg.WP_TMn_CTL n].foldl Dev.regToReset d) d
    { d with web := { d.web with tm := [] } }
  else if u = 18 then
    ((List.range 4).foldl (fun d n => [Reg.WP_EVTn_CFG n, Reg.WP_EVTn_OVL n].foldl Dev.regToReset d) d).outSwap t 18
  else if u = 19 then
    ((List.range 8).foldl (fun d n => [Reg.WP_HSYn_CFG n, Reg.WP_HSYn_LAST_LO n, Reg.WP_HSYn_LAST_HI n, Reg.WP_HSYn_OVL n].foldl Dev.regToReset d) d).outSwap t 19
  else d

end Sys2Proof.Machine
end

