-- ==== Sys2Proof/Machine/WebMap.lean ====
section
/-! DEFINITION. Machine/WebMap.lean: the map engine and the statistics units (06): web coordinates of samples, cells, fronts, finalised rows,
emissivity zones and statistics records. -/
namespace Sys2Proof.Machine

/-! ## Access -/

def Dev.mapHead (d : Dev) (h : Nat) : MapHead := SMap.get MapHead.reset d.wm.heads h
def Dev.setMapHead (d : Dev) (h : Nat) (x : MapHead) : Dev := d.updWm (fun w => { w with heads := SMap.set MapHead.reset w.heads h x })
def Dev.layer (d : Dev) (l : Nat) : Layer := SMap.get Layer.reset d.wm.layers l
def Dev.setLayer (d : Dev) (l : Nat) (x : Layer) : Dev := d.updWm (fun w => { w with layers := SMap.set Layer.reset w.layers l x })
def Dev.wmFault (d : Dev) (t code detail : Nat) : Dev := d.faultFlag t (uid 7 0 0) code detail Reg.WM_FAULT (code - 1)
def Dev.wmRecord (d : Dev) (t code detail : Nat) (write : Bool) : Dev :=
  let d := d.flag Reg.WM_FAULT (code - 1)
  if write then d.fault t (uid 7 0 0) code detail else d

/-- Layer settings (R175, R176). -/
def Dev.layerEn (d : Dev) (l : Nat) : Bool := d.bit Reg.WM_CFG 0 && d.bit (Reg.WM_Ll_CFG l) 0
def Dev.layerCols (d : Dev) (l : Nat) : Nat := d.fld (Reg.WM_Ll_CFG l) 29 16
def Dev.layerRg (d : Dev) (l : Nat) : Nat := d.fld (Reg.WM_Ll_CFG l) 3 1
def Dev.layerOpen (d : Dev) (l : Nat) : Nat := d.fld (Reg.WM_Ll_OPEN l) 10 0
/-- A head is mapped, and its layer, by the live set. -/
def Dev.mapEn (d : Dev) (h : Nat) : Bool := d.bit (Reg.WM_Hh_CFG h) 0
def Dev.mapLayer (d : Dev) (h : Nat) : Nat := d.fld (Reg.WM_Hh_CFG h) 2 1
/-- Word i of a head's settings as they are in effect, which are those that its last frame took (R173): 0 CFG, 2 SPAN and the others of
MapHead.cfg. Before its first frame a head is not mapped (log 166). -/
def Dev.headWord (d : Dev) (h i : Nat) : Nat := (d.mapHead h).cfg.getD i 0
/-- The head is mapped, and its layer, by the settings in effect. -/
def Dev.headOn (d : Dev) (h : Nat) : Bool := nbit (d.headWord h 0) 0
def Dev.headLayer (d : Dev) (h : Nat) : Nat := nfld (d.headWord h 0) 2 1
/-- First and last map column of a head's span in effect. -/
def Dev.span (d : Dev) (h : Nat) : Nat × Nat := (nfld (d.headWord h 2) 12 0, nfld (d.headWord h 2) 28 16)
/-- The enabled heads of a layer. -/
def Dev.layerHeads (d : Dev) (l : Nat) : List Nat := (List.range 8).filter (fun h => d.headOn h && decide (d.headLayer h = l))
/-- The heads of a layer whose spans hold column j, lower span first (R152). -/
def Dev.headsAt (d : Dev) (l j : Nat) : List Nat :=
  match (d.layerHeads l).filter (fun h => decide ((d.span h).1 ≤ j) && decide (j ≤ (d.span h).2)) with
  | a :: b :: r => if (d.span b).1 < (d.span a).1 then b :: a :: r else a :: b :: r
  | r => r
/-- Welt columns of layer l among its first n (R152). -/
def Dev.weltsBelow (d : Dev) (l n : Nat) : Nat := ((List.range n).filter (fun j => decide (2 ≤ (d.headsAt l j).length))).length

/-! ## The working store (R158) -/

/-- The bytes of a row in the working store of layer l: 8 for each column, and 8 more for each welt column. -/
def Dev.storeStride (d : Dev) (l : Nat) : Nat := ((d.layerCols l + d.weltsBelow l (d.layerCols l)) * 8 + 63) / 64 * 64
/-- The frame-memory address of the cell of head h in row k, column j. The spec gives the store's extent; the places in it are log 67. -/
def Dev.storeCell (d : Dev) (l : Nat) (k : Int) (j h : Nat) : Nat :=
  let second := match d.headsAt l j with
    | _ :: b :: _ => decide (b = h)
    | _ => false
  d.rdN (Reg.WM_Ll_WORK l) + (k % (d.layerOpen l : Int)).toNat * d.storeStride l + 8 * (if second then d.layerCols l + d.weltsBelow l j else j)

/-! ## Web coordinates (R153 to R155) -/

/-- The map column of a cross-web position (R153). -/
def mapColumn (pos x0 : Int) (xpitch : Nat) : Int := (pos - x0) / xpitch

/-- The web coordinate of array row r (R155). -/
def webCoord (wpos v t0 : Int) (dt : Nat) (y0 : Int) (ypitch : Nat) (dir : Bool) (r : Nat) : Int :=
  let t16 := t0 * 16 + r * dt
  let D := if dir then y0 - r * ypitch else y0 + r * ypitch
  wrap64 (wpos + sar (wrap64 (v * t16 + 524288)) 20 - D)

/-- The same for a head's latched settings. -/
def MapHead.coord (x : MapHead) (r : Nat) : Int :=
  let w := fun i => x.cfg.getD i 0
  webCoord x.wpos x.v (sgn 32 (w 6)) (nfld (w 7) 23 0) (sgn 32 (w 4)) (nfld (w 5) 23 0) (nbit (w 0) 3) r

/-- The row of a web coordinate. -/
def Layer.rowOf (y : Layer) (p : Int) : Int := wrap64 (p - y.origin) / y.pitch

/-- Sweet band of a head's latched settings. -/
def MapHead.sweet (x : MapHead) : Nat × Nat := (nfld (x.cfg.getD 3 0) 10 0, nfld (x.cfg.getD 3 0) 26 16)

/-- The smallest k for which origin + k × pitch exceeds a position (R160). -/
def firstRowBeyond (origin : Int) (pitch : Nat) (pos : Int) : Int := (pos - origin) / pitch + 1

/-! ## Emissivity zones (R167) -/

/-- The zone of a map column of layer l, 64 for none. -/
def Dev.zoneAt (d : Dev) (l : Nat) (j : Int) : Nat :=
  if j < 0 ∨ (d.layerCols l : Int) ≤ j then 64
  else (((List.range 64).find? (fun z =>
    d.bit (Reg.WM_EZz_SPAN z) 31 && decide (d.fld (Reg.WM_EZz_SPAN z) 30 29 = l) && decide ((d.fld (Reg.WM_EZz_SPAN z) 12 0 : Int) ≤ j)
      && decide (j ≤ (d.fld (Reg.WM_EZz_SPAN z) 28 16 : Int)))).getD 64)

/-- Rebuild the zone list of head h from its loaded table. -/
def Dev.zoneListOf (d : Dev) (h : Nat) : List Nat :=
  let x := d.mapHead h
  let l := d.mapLayer h
  (List.range (d.headGeom h).1).map (fun c => match (x.table[c]?).join with
    | some e => d.zoneAt l (mapColumn e (sgn 32 (d.rdN (Reg.WM_Ll_X0 l))) (d.fld (Reg.WM_Ll_XPITCH l) 17 0))
    | none => 64)

/-- The engine rebuilds and publishes all lists at once. -/
def Dev.rebuildZones (d : Dev) : Dev :=
  d.updWm (fun w => { w with zoneList := (List.range 8).foldl (fun z h => SMap.set [] z h (d.zoneListOf h)) w.zoneList })

/-- A frame's head waits for its geometry table (R153). -/
def Dev.geomPending (d : Dev) (h : Nat) : Bool :=
  let x := d.mapHead h
  !x.cfg.isEmpty && decide (x.loaded ≠ some (x.cfg.getD 1 0))

/-- WM_GEOMETRY_LOAD_DONE (R153, R167, R174). Entries that read uncorrectable are those of the marked words; a load that fails where none is
marked spoils every entry (log 167). -/
def Dev.geomLoadDone (d : Dev) (m : Mem) (t h : Nat) (ok : Bool) : Dev :=
  if d.geomPending h = false then d
  else
    let x := d.mapHead h
    let b := x.cfg.getD 1 0
    -- entries beyond the head's columns are not read
    let size := 4 * x.cfg.getD 12 2048
    let marked := d.poisoned b size
    let d := d.setMapHead h { x with
      loaded := some b,
      table := (List.range 2048).map (fun i =>
        if (ok = false ∧ marked = false) ∨ d.poisoned (b + 4 * i) 4 = true then none else some (sgn 32 (m.frameNat (b + 4 * i) 4))) }
    let d := if ok = true ∧ marked = false then d else (d.readPoison t 7 b size).wmFault t 0x0003 (4 * h + 32)
    d.rebuildZones

/-! ## A frame's first line (R154, R157, R173) -/

/-- Take a header from a pipeline's queue: its stamps become the previous ones of its head (R154). -/
def Dev.takeHeader (d : Dev) (h : Nat) (hw : List Nat) : Dev :=
  let w := fun i => hw.getD i 0
  let x := d.mapHead h
  d.setMapHead h { x with prev := some (w 3 + 2 ^ 32 * w 4, sgn 64 (w 5 + 2 ^ 32 * w 6)) }

/-- The DTIME of frame start in a header. -/
def headerTime (hw : List Nat) : Nat := hw.getD 3 0 + 2 ^ 32 * hw.getD 4 0

/-- The other pipeline's queue still holds something of head h that comes before the frame whose header is `hw`: lines of the frame that it has
begun, or an earlier frame. The frames of a head pass in order (R15). -/
def mapWaits (h : Nat) (hw : List Nat) : (other : List MapItem) → Bool
  | [] => false
  | .line g _ _ _ :: q => decide (g = h) || mapWaits h hw q
  | .header g w :: q => if g = h then decide (headerTime w < headerTime hw) else mapWaits h hw q

/-- Headers without pixels at the front of a queue are taken, if nothing on the other queue comes before; answers the queue's rest. -/
def Dev.takeBare (d : Dev) (other : List MapItem) : List MapItem → Dev × List MapItem
  | .header h hw :: q =>
    if (hw.getD 11 0) % 65536 = 0 ∧ mapWaits h hw other = false then (d.takeHeader h hw).takeBare other q else (d, .header h hw :: q)
  | q => (d, q)

/-- A frame with pixels begins (R154, R157). -/
def Dev.mapFrame (d : Dev) (t h : Nat) (hw : List Nat) : Dev :=
  let w := fun i => hw.getD i 0
  let x := d.mapHead h
  let dtime := w 3 + 2 ^ 32 * w 4
  let wpos := sgn 64 (w 5 + 2 ^ 32 * w 6)
  let near := match x.prev with
    | some p => decide (p.1 < dtime) && decide (dtime - p.1 ≤ 2 ^ 26)
    | none => false
  let v := match x.prev, near with
    | some p, true => clampI (-(2 ^ 31)) (2 ^ 31 - 1) (Int.tdiv ((wpos - p.2) * 65536) ((dtime : Int) - p.1))
    | _, _ => d.rdI Reg.WP_SPEED
  let again := match x.speedAt with
    | some k => decide (64 ≤ x.frames - k)
    | none => true
  let d := if near then d else (d.bump Reg.WM_CNT_NOSPEED).wmRecord t 0x0005 h again
  let x := { x with speedAt := if near = true ∨ again = false then x.speedAt else some x.frames }
  let d := d.setMapHead h { x with
    prev := some (dtime, wpos), seq := w 0, v := v, held := d.frameHeld h (w 0), prov := nbit (w 9) 9, wpos := wpos, frames := x.frames + 1,
    cfg := (List.range 8).map (fun i => d.rdN (Reg.WM_Hh_CFG h + 4 * i)) ++
      [d.rdN Reg.WM_CFG, d.rdN (Reg.WM_Ll_CFG (d.mapLayer h)), d.rdN (Reg.WM_Ll_X0 (d.mapLayer h)), d.rdN (Reg.WM_Ll_XPITCH (d.mapLayer h)),
       w 11 / 65536] }
  (d.wrI (Reg.WM_Hh_SPEED h) v).wrN (Reg.WM_Hh_SEQ h) (w 0)

/-- The head of the frame with pixels whose header is next in a queue, after those without, if it need not wait for the other queue. -/
def nextMapHead (other : List MapItem) : List MapItem → Option Nat
  | .header h hw :: q =>
    if mapWaits h hw other then none else if (hw.getD 11 0) % 65536 = 0 then nextMapHead other q else some h
  | _ => none

/-- WM_FRAME_FIRST_LINE (R15, R154): headers are taken, up to and with the next that has pixels. -/
def Dev.firstLine (d : Dev) (t p : Nat) : Dev :=
  let other := SMap.get [] d.wm.queues (1 - p)
  let r := d.takeBare other (SMap.get [] d.wm.queues p)
  match r.2 with
  | .header h hw :: q =>
    if mapWaits h hw other then r.1.updWm (fun w => { w with queues := SMap.set [] w.queues p r.2 })
    else (r.1.mapFrame t h hw).updWm (fun w => { w with queues := SMap.set [] w.queues p q })
  | q => r.1.updWm (fun w => { w with queues := SMap.set [] w.queues p q })

/-! ## Samples (R156, R158) -/

/-- What a pixel is to its cell. -/
inductive Sample where
  | held | excluded | usable (t : Nat)
  deriving DecidableEq, Repr

/-- The sample that an output word gives (R156), none for a rind pixel. -/
def sampleOf (held : Bool) (word : Nat) : Option Sample :=
  if nbit word 8 then none
  else if held then some .held
  else if 2 ≤ nfld word 15 14 ∨ nbit word 9 = true then some .excluded
  else some (.usable (word / 65536))

def cellAt (c : List ((Int × Nat × Nat) × CellHead)) (k : Int) (j h : Nat) : CellHead := lookupD CellHead.reset c (k, j, h)

/-- A cell takes a sample: at most 255 usable and 255 excluded of one head (R156). Answers whether it was beyond. -/
def CellHead.take (x : CellHead) (s : Sample) (prov : Bool) : CellHead × Bool :=
  match s with
  | .held => ({ x with held := true }, false)
  | .excluded => if x.ex < 255 then ({ x with ex := x.ex + 1 }, false) else (x, true)
  | .usable t => if x.n < 255 then ({ x with n := x.n + 1, sum := x.sum + t, prov := x.prov || prov }, false) else (x, true)

/-- The samples of a beat: map column and sample; and how many pixels lie outside their span (R153), by the settings of the frame (R15). -/
def Dev.beatSamples (d : Dev) (h x0 : Nat) (ws : List Nat) : List (Nat × Sample) × Nat :=
  let x := d.mapHead h
  let sp := x.cfg.getD 2 0
  (List.range ws.length).foldl (fun (q : List (Nat × Sample) × Nat) i =>
    match sampleOf x.held (ws.getD i 0), (x.table[x0 + i]?).join with
    | some s, some e =>
      let j := mapColumn e (sgn 32 (x.cfg.getD 10 0)) (nfld (x.cfg.getD 11 0) 17 0)
      if j < 0 ∨ (nfld (x.cfg.getD 9 0) 29 16 : Int) ≤ j then q
      else if j < (nfld sp 12 0 : Int) ∨ (nfld sp 28 16 : Int) < j then (q.1, q.2 + 1)
      else (q.1 ++ [(j.toNat, s)], q.2)
    | _, _ => q) ([], 0)

/-- The front after the last sweet-band line (R159). -/
def Dev.frontUpdate (d : Dev) (h : Nat) : Dev :=
  let x := d.mapHead h
  let f := min (x.coord x.sweet.1) (x.coord x.sweet.2)
  let up := match x.front with
    | some g => decide (g < f)
    | none => true
  if up then (d.setMapHead h { x with front := some f }).wr64 (Reg.WM_Hh_FRONT_LO h) (unsgn 64 f) else d

/-- Drop the first 16 pixels of the line at the front of a queue. -/
def dropBeat : List MapItem → List MapItem
  | .line h y x ws :: q => if ws.length ≤ 16 then q else .line h y (x + 16) (ws.drop 16) :: q
  | q => q

/-- Put the samples of a beat into row k of layer l. What the working store then holds at their cells is a free value (log 67); a cell that
reads uncorrectable takes no sample (R174). -/
def Dev.placeSamples (d : Dev) (t h l : Nat) (k : Int) (ss : List (Nat × Sample)) : Dev × List MemWrite :=
  let x := d.mapHead h
  let bad := ss.filter (fun s => d.poisoned (d.storeCell l k s.1 h) 8)
  let ss := ss.filter (fun s => !d.poisoned (d.storeCell l k s.1 h) 8)
  let ws := ((List.range ss.length).map (fun i =>
    frameWrites (d.storeCell l k ((ss.map Prod.fst).getD i 0) h) 8 (Config.freeValue (d.free + i)))).flatten
  let d := { d with free := d.free + ss.length }
  let d := if bad.isEmpty then d else (bad.foldl (fun (d : Dev) s => d.readPoison t 7 (d.storeCell l k s.1 h) 8) d).wmFault t 0x0003 l
  let y := d.layer l
  let r := ss.foldl (fun (q : List ((Int × Nat × Nat) × CellHead) × Nat) s =>
    let c := (cellAt q.1 k s.1 h).take s.2 x.prov
    (assign q.1 (k, s.1, h) c.1, q.2 + b2n c.2)) (y.cells, 0)
  let gave := ss.any (fun s => decide (s.2 ≠ .held))
  let newest := if gave then assign y.newest (k, h) x.seq else y.newest
  ((d.setLayer l { y with cells := r.1, newest := newest }).bumpBy Reg.WM_CNT_SATCELL r.2, ws)

/-- A sample lies ahead of the open window: the engine stops this queue (R158, R174). -/
def Dev.mapAhead (d : Dev) (t p h : Nat) (beyond : Int) : Dev :=
  if d.wm.ahead.contains p then d
  else
    let x := d.mapHead h
    let again := match x.aheadAt with
      | some k => decide (64 ≤ x.frames - k)
      | none => true
    let d := (d.bump Reg.WM_CNT_AHEAD).wmRecord t 0x0002 (h + 256 * (min (2 ^ 24 - 1) beyond.toNat)) again
    let d := if again then d.setMapHead h { x with aheadAt := some x.frames } else d
    d.updWm (fun w => { w with ahead := p :: w.ahead })

/-- WM_SAMPLE_BEAT (R156, R158, R159): a beat of 16 pixels of pipeline p's queue. -/
def Dev.sampleBeat (d : Dev) (t p : Nat) : Dev × List MemWrite :=
  match SMap.get [] d.wm.queues p with
  | .line h y x0 ws :: q =>
    let x := d.mapHead h
    let l := nfld (x.cfg.getD 0 0) 2 1
    let on := (d.layer l).on && nbit (x.cfg.getD 0 0) 0 && nbit (x.cfg.getD 8 0) 0 && nbit (x.cfg.getD 9 0) 0
    if on = true ∧ (d.geomPending h = true ∨ (d.layer l).drain.isSome = true) then (d, [])
    else
      let sw := x.sweet
      let band := on && decide (sw.1 ≤ y) && decide (y ≤ sw.2)
      let b := if band then d.beatSamples h x0 (ws.take 16) else ([], 0)
      let lay := d.layer l
      let k := lay.rowOf (x.coord y)
      let last := lay.kFirst + d.layerOpen l - 1
      if b.1.isEmpty = false ∧ last < k then (d.mapAhead t p h (k - last), [])
      else
        let d := d.updWm (fun w => { w with ahead := w.ahead.filter (fun i => decide (i ≠ p)), queues := SMap.set [] w.queues p (dropBeat (.line h y x0 ws :: q)) })
        let d := d.bumpBy Reg.WM_CNT_SPAN b.2
        let r := if b.1.isEmpty then (d, [])
          else if k < lay.kFirst then (d.bumpBy Reg.WM_CNT_BEHIND b.1.length, [])
          else d.placeSamples t h l k b.1
        (if on = true ∧ ws.length ≤ 16 ∧ y = sw.2 then r.1.frontUpdate h else r.1, r.2)
  | _ => (d, [])

/-! ## Finalised rows (R159 to R166) -/

/-- (a) of R160. -/
def Dev.frontsPassed (d : Dev) (l : Nat) : Bool :=
  let y := d.layer l
  let hs := d.layerHeads l
  !hs.isEmpty && hs.all (fun h => match (d.mapHead h).front with
    | some f => decide (y.origin + (y.kFirst + 1) * y.pitch ≤ f)
    | none => false)
/-- (b) of R160. -/
def Dev.flushPassed (d : Dev) (l : Nat) : Bool :=
  let y := d.layer l
  match y.event with
  | some p => decide (y.origin + (y.kFirst + 1) * y.pitch + d.rdN (Reg.WM_Ll_FLUSH l) ≤ p)
  | none => false
/-- The heads whose front has not passed row k_first. -/
def Dev.laggards (d : Dev) (l : Nat) : Nat :=
  let y := d.layer l
  maskOf ((d.layerHeads l).filter (fun h => match (d.mapHead h).front with
    | some f => decide (f < y.origin + (y.kFirst + 1) * y.pitch)
    | none => true))

/-- The mean of a head's samples (R161). -/
def CellHead.mean (c : CellHead) : Nat := (2 * c.sum + c.n) / (2 * c.n)

/-- The welt blend of R162 at offset i of n_w columns. -/
def weltBlend (i nw mL mR : Nat) : Nat :=
  let wR := ((2 * i + 1) * 256 + nw) / (2 * nw)
  ((256 - wR) * mL + wR * mR + 128) / 256

/-- A finalised cell: word, temperature and age carried on (R161, R163). -/
structure CellOut where
  word : Nat
  temp : Nat
  age : Nat
  source : Nat
  deriving DecidableEq, Repr

/-- The cell of column j (R161): the heads that cover it, in span order, with first and last column, and their samples. -/
def cellOut (j : Nat) (cover : List (Nat × (Nat × Nat) × CellHead)) (prev : Nat × Nat) : CellOut :=
  let fresh := cover.filter (fun c => decide (0 < c.2.2.n))
  let v : Nat × Nat × Nat := match fresh with
    | [a] => (a.2.2.mean, a.1, 0)
    | a :: b :: _ =>
      let s := max a.2.1.1 b.2.1.1
      (weltBlend (j - s) (min a.2.1.2 b.2.1.2 + 1 - s) a.2.2.mean b.2.2.mean, 15, 0)
    | [] => (prev.1, 14, min (prev.2 + 1) 15)
  let n := (cover.map (fun c => c.2.2.n)).sum
  let ex := (cover.map (fun c => c.2.2.ex)).sum
  let word := v.1 * 65536 + v.2.1 * 4096 + min n 15 * 256 + v.2.2 * 16 + 8 * b2n (cover.any (fun c => c.2.2.held))
    + 4 * b2n (cover.any (fun c => c.2.2.prov)) + 2 * b2n (decide (2 ≤ cover.length)) + b2n (decide (n < ex))
  ⟨word, v.1, v.2.2, v.2.1⟩

/-- The heads of a layer that cover column j, lower span first, with their samples in row k. -/
def Dev.coverOf (d : Dev) (l : Nat) (k : Int) (j : Nat) : List (Nat × (Nat × Nat) × CellHead) :=
  (d.headsAt l j).map (fun h => (h, d.span h, cellAt (d.layer l).cells k j h))

/-- The cells of row k_first (R161). -/
def Dev.rowCells (d : Dev) (l : Nat) : List CellOut :=
  let y := d.layer l
  (List.range (d.layerCols l)).map (fun j => cellOut j (d.coverOf l y.kFirst j) (SMap.get (0, 15) y.carried j))

/-- The record of row k_first (R164). -/
def Dev.rowRecord (d : Dev) (t l : Nat) (forced : Bool) (cells : List CellOut) : List Nat :=
  let y := d.layer l
  let k := y.kFirst
  let pos := unsgn 64 (y.origin + k * y.pitch)
  let has := fun (f : CellHead → Bool) => maskOf ((List.range 8).filter (fun h => y.cells.any (fun c => decide (c.1.1 = k) && decide (c.1.2.2 = h) && f c.2)))
  [unsgn 32 k, pos % 2 ^ 32, pos / 2 ^ 32, t % 2 ^ 32, t / 2 ^ 32 % 2 ^ 32, d.gen .wm + 65536 * l + 2 ^ 18 * b2n forced,
   has (fun c => decide (0 < c.n)) + 256 * has (fun c => c.held) + 65536 * has (fun c => c.prov),
   d.layerCols l + 65536 * (cells.filter (fun c => decide (c.source = 14))).length]
  ++ (List.range 8).map (fun h => lookupD 0 y.newest (k, h))
  ++ cells.map CellOut.word

/-- A head is clean in a cell (R166). -/
def CellHead.clean (c : CellHead) : Bool := decide (0 < c.n) && decide (c.ex ≤ c.n) && !c.held && !c.prov

/-- The sums of R144 that row k_first of layer l gives for the welt at position w of the order (R166). -/
def Dev.weltRow (d : Dev) (l w : Nat) (s : WeltSums) : WeltSums :=
  let a := d.balHead w
  let b := d.balHead (w + 1)
  let y := d.layer l
  if 8 ≤ a ∨ 8 ≤ b ∨ d.headOn a = false ∨ d.headOn b = false ∨ d.headLayer a ≠ l ∨ d.headLayer b ≠ l then s
  else
    let lo := max (d.span a).1 (d.span b).1
    let hi := min (d.span a).2 (d.span b).2
    (List.range (hi + 1 - lo)).foldl (fun s i =>
      let p := cellAt y.cells y.kFirst (lo + i) a
      let q := cellAt y.cells y.kFirst (lo + i) b
      if p.clean = true ∧ q.clean = true then
        let L := p.mean
        let R := q.mean
        ⟨s.n + 1, s.l + L, s.r + R, s.ll + L * L, s.rr + R * R, s.lr + L * R⟩
      else s) s

/-- A finalised row's part in head balance (R144, R166). -/
def Dev.balanceRow (d : Dev) (l : Nat) : Dev :=
  if d.bit Reg.LT_CFG 0 = true ∧ d.balBit Reg.LT_BAL_CFG 0 = true then
    let welts := (List.range 7).foldl (fun m w => SMap.set WeltSums.reset m w (d.weltRow l w (d.welt w))) d.lt.welts
    d.updLt (fun x => { x with welts := welts, winRows := x.winRows + 1 })
  else d

/-- The host ring of a layer, if rows go to it. -/
def Dev.layerRing (d : Dev) (l : Nat) : Option Nat := if d.bit (Reg.WM_Ll_CFG l) 4 then some (d.fld (Reg.WM_Ll_CFG l) 9 5) else none
/-- Bytes of a layer's record, padded (R164). -/
def Dev.rowBytes (d : Dev) (l : Nat) : Nat := 64 + (4 * d.layerCols l + 63) / 64 * 64

/-- The destinations of layer l have credit for a row (R165). -/
def Dev.rowCredit (d : Dev) (l : Nat) : Bool :=
  (match d.layerRing l with
   | some r => d.ringRoom r (d.rowBytes l) (d.ringQueued r) || (d.ringEn r && d.ringTooBig r (d.rowBytes l))
   | none => true)
  && (!d.bit (Reg.WM_Ll_CFG l) 10 || decide (d.wm.rows.length < 256))

/-- Bytes in use in a host ring. -/
def Dev.ringFill (d : Dev) (r : Nat) : Nat := (d.rdN (Reg.HX_Rr_WR r) + 2 ^ 32 - d.rdN (Reg.HX_Rr_DB r)) % 2 ^ 32 + d.ringQueued r

/-- Row k_first of layer l is final: k_first moves on; at the end of a restart the layer takes up the new grid (R160). -/
def Dev.nextRow (d : Dev) (l : Nat) (cells : List CellOut) : Dev :=
  let y := d.layer l
  let k := y.kFirst
  let carried := (List.range cells.length).foldl (fun m j => match cells[j]? with
    | some c => SMap.set (0, 15) m j (c.temp, c.age)
    | none => m) y.carried
  let y := { y with
    kFirst := k + 1, done := y.done + 1, carried := carried, cells := y.cells.filter (fun c => decide (c.1.1 ≠ k)), newest := y.newest.filter (fun c => decide (c.1.1 ≠ k)) }
  let y := match y.drain with
    | some q =>
      if q.1 < k + 1 then
        { y with drain := none, kFirst := q.2.1, cells := [], newest := [], carried := [], origin := q.2.2.1, pitch := q.2.2.2 }
      else y
    | none => y
  (d.setLayer l y).wr64 (Reg.WM_Ll_NEXT_LO l) (unsgn 64 y.kFirst)

/-- The cells of row k_first that read uncorrectable give no samples (R174). -/
def Dev.dropBadCells (d : Dev) (t l : Nat) : Dev :=
  let y := d.layer l
  let bad := fun (c : (Int × Nat × Nat) × CellHead) => decide (c.1.1 = y.kFirst) && d.poisoned (d.storeCell l c.1.1 c.1.2.1 c.1.2.2) 8
  if y.cells.any bad then
    let d := (y.cells.filter bad).foldl (fun (d : Dev) c => d.readPoison t 7 (d.storeCell l c.1.1 c.1.2.1 c.1.2.2) 8) d
    (d.setLayer l { y with cells := y.cells.filter (fun c => !bad c) }).wmFault t 0x0003 l
  else d

/-- WM_ROW_FINALISE (R160 to R166): the oldest open row of layer l, if it is due and its destinations have credit. -/
def Dev.rowFinalise (d : Dev) (t l : Nat) : Dev :=
  let y := d.layer l
  let draining := y.drain.isSome
  let a := d.frontsPassed l
  if y.on = false ∨ (draining = false ∧ a = false ∧ d.flushPassed l = false) then d
  else if d.rowCredit l = false then
    let d' := if d.wm.wait.contains l then d else match d.layerRing l with
      | some r => if d.ringRoom r (d.rowBytes l) (d.ringQueued r) then d else d.bump (Reg.HX_Rr_CNT_WAIT r)
      | none => d
    d'.updWm (fun w => { w with wait := if w.wait.contains l then w.wait else l :: w.wait })
  else
    let forced := draining || !a
    let d := d.dropBadCells t l
    let y := d.layer l
    let cells := d.rowCells l
    let record := d.rowRecord t l forced cells
    let lag := d.laggards l
    let d := d.updWm (fun w => { w with wait := w.wait.filter (fun i => decide (i ≠ l)) })
    let d := d.bump Reg.WM_CNT_ROWS
    let d := if forced then
        let again := match y.forcedAt with
          | some k => decide (k + 64 ≤ y.done)
          | none => true
        let d := (d.bump Reg.WM_CNT_FORCED).wmRecord t 0x0001 (l + 256 * lag) again
        if again then d.setLayer l { y with forcedAt := some y.done } else d
      else d
    let d := d.balanceRow l
    let d := match d.layerRing l with
      | some r =>
        let before := d.ringFill r
        let d := (d.ringOffer t r (record.map (BitVec.ofNat 32))).getD d
        let mark := Config.mapHighWater (d.ringSize r)
        if before < mark ∧ mark ≤ d.ringFill r then d.raise t 75 l else d
      | none => d
    let d := if d.bit (Reg.WM_Ll_CFG l) 10 then d.updWm (fun w => { w with rows := w.rows ++ [⟨l, y.kFirst, record⟩] }) else d
    (d.nextRow l cells).raise t 72 l

/-! ## Row events and the row grid (R160) -/

/-- A row event of generator n at the map engine: the layers that follow it note its position, and a changed grid restarts, from WPOS at the swap
that changed it. One that changes again while the open rows are still being forced restarts again (R160). -/
def Dev.mapRowEvent (d : Dev) (now : Now) (n : Nat) : Dev :=
  let origin := sgn 64 (d.rd64 (Reg.WP_RGn_ORIGIN_LO n))
  let pitch := d.rgPitch n
  (List.range 4).foldl (fun (d : Dev) l =>
    let y := d.layer l
    if y.on = false ∨ d.layerRg l ≠ n then d
    else
      let y := { y with event := some (d.rowGen n).pos }
      let grid := match y.drain with
        | some q => q.2.2
        | none => (y.origin, y.pitch)
      if grid = (origin, pitch) then d.setLayer l y
      else
        let last := match y.drain with
          | some q => q.1
          | none => y.kFirst + d.layerOpen l - 1
        let k := firstRowBeyond origin pitch (SMap.get 0 d.wm.gridAt n)
        (d.setLayer l { y with drain := some (last, k, origin, pitch) }).wmFault now.dtime 0x0004 l) d

/-- A swap of generator n changed its origin or its pitch; `o` is the device before (R160). -/
def Dev.gridSwap (d o : Dev) (now : Now) (n : Nat) : Dev :=
  if o.rd64 (Reg.WP_RGn_ORIGIN_LO n) = d.rd64 (Reg.WP_RGn_ORIGIN_LO n) ∧ o.rgPitch n = d.rgPitch n then d
  else d.updWm (fun w => { w with gridAt := SMap.set 0 w.gridAt n now.wpos })

/-! ## What a swap does (R159, R160, R167) -/

/-- The live set of the block has changed; `old` gives the words before. -/
def Dev.wmSwap (d : Dev) (now : Now) (old : Nat → Nat) : Dev :=
  let d := (List.range 4).foldl (fun (d : Dev) l =>
    let on := d.layerEn l
    let y := d.layer l
    if on = y.on then d
    else if on then
      let n := d.layerRg l
      let o := sgn 64 (d.rd64 (Reg.WP_RGn_ORIGIN_LO n))
      let p := d.rgPitch n
      let k := firstRowBeyond o p now.wpos
      (d.setLayer l { Layer.reset with on := true, kFirst := k, origin := o, pitch := p }).wr64 (Reg.WM_Ll_NEXT_LO l) (unsgn 64 k)
    else d.setLayer l Layer.reset) d
  let d := (List.range 8).foldl (fun (d : Dev) h =>
    let l := d.mapLayer h
    let was := nbit (old Reg.WM_CFG) 0 && nbit (old (Reg.WM_Hh_CFG h)) 0 && nbit (old (Reg.WM_Ll_CFG l)) 0
    if d.mapEn h = true ∧ d.layerEn l = true ∧ was = false then d.setMapHead h { d.mapHead h with front := none } else d) d
  d.rebuildZones

/-! ## Statistics records (R172) -/

/-- WM_STATS_RECORD (R172): the first record that waits at the unit of pipeline p, to the ring by the settings that its frame took (R15). -/
def Dev.statsRecord (d : Dev) (t p : Nat) : Dev × List MemWrite :=
  match SMap.get [] d.wm.stats p with
  | [] => (d, [])
  | r :: rest =>
    let c := r.ring.1
    let gone := fun (d : Dev) => d.updWm (fun w => { w with
      stats := SMap.set [] w.stats p rest, tapQ := if rest.isEmpty then SMap.set 0 w.tapQ p 0 else w.tapQ })
    let x : RingRec := ⟨nfld c 6 2, r.words, [(if r.zone then 74 else 73, r.head + 8 * p)], some Reg.WM_CNT_STATS⟩
    let waits := fun (d : Dev) => if r.waited then d
      else (d.bump (Reg.WM_SRp_STALL p)).updWm (fun w => { w with stats := SMap.set [] w.stats p ({ r with waited := true } :: rest) })
    if nbit c 0 = false then (gone d, [])
    else if nbit c 1 then
      match d.ringOfferRec t x with
      | some d' => (gone d', [])
      | none => (waits (if r.waited then d else d.bump (Reg.HX_Rr_CNT_WAIT x.ring)), [])
    else
      let size := 2 ^ (nfld c 11 8 + 16)
      let wr := d.rdN (Reg.WM_SRp_WR p)
      if 4 * r.words.length ≤ frameRoom size wr (d.rdN (Reg.WM_SRp_RD p)) then
        ((gone (d.wrN (Reg.WM_SRp_WR p) ((wr + 4 * r.words.length) % size))).recordDone t x, frameRingWrites r.ring.2 size wr r.words)
      else (waits d, [])

/-! ## Commands -/

def execWmGeometryLoadDone (h : Fin 8) (ok : Bool) (s : State) : Result := s.actMem (fun now m d => d.geomLoadDone m now.dtime h ok)
def execWmSampleBeat (p : Fin 2) (s : State) : Result :=
  s.actWr 7 (fun now _ d => let r := d.sampleBeat now.dtime p; (r.1.workFrom d now.dtime, r.2))
def execWmRowFinalise (l : Fin 4) (s : State) : Result := s.act (fun now d => d.rowFinalise now.dtime l)
def execWmStatsRecord (p : Fin 2) (s : State) : Result :=
  s.actWr 7 (fun now _ d => let r := d.statsRecord now.dtime p; (r.1.workFrom d now.dtime, r.2))

end Sys2Proof.Machine
end

