-- ==== Sys2Proof/Machine/Bloom.lean ====
section
/-! DEFINITION. Machine/Bloom.lean: bloom (07): fires placed on the web, measured cooling, windows, grades, trim and fill. -/
namespace Sys2Proof.Machine

/-! ## Access -/

def Dev.bank (d : Dev) (b : Nat) : Bank := SMap.get Bank.reset d.vb b
def Dev.setBank (d : Dev) (b : Nat) (x : Bank) : Dev := { d with vb := SMap.set Bank.reset d.vb b x }
def Dev.updBank (d : Dev) (b : Nat) (f : Bank → Bank) : Dev := d.setBank b (f (d.bank b))
def Dev.updBv (d : Dev) (f : Bloom → Bloom) : Dev := { d with bv := f d.bv }
def Dev.jet (d : Dev) (j : Nat) : BvJet := SMap.get BvJet.reset d.bv.jets j
def Dev.setJet (d : Dev) (j : Nat) (x : BvJet) : Dev := d.updBv (fun v => { v with jets := SMap.set BvJet.reset v.jets j x })

def Dev.bvOn (d : Dev) : Bool := d.bit Reg.BV_CFG 0
def Dev.bvLayer (d : Dev) : Nat := d.fld Reg.BV_CFG 2 1
def Dev.bvBase (d : Dev) : Nat := d.fld Reg.BV_CFG 4 3
def Dev.bvWindow (d : Dev) : Nat := d.fld Reg.BV_WIN 10 0

/-- A fault record of bloom; the element is a bank plus 1 for codes 0x0001, 0x0002, 0x0007 and 0x0009, else 0 (R196). -/
def Dev.bvFault (d : Dev) (t el code detail : Nat) : Dev := d.faultFlag t (uid 8 0 el) code detail Reg.BV_FAULT (code - 1)

/-- A rate-limited record of bloom: the flag always, the record when `write`. -/
def Dev.bvRecord (d : Dev) (t code detail : Nat) (write : Bool) : Dev :=
  let d := d.flag Reg.BV_FAULT (code - 1)
  if write then d.fault t (uid 8 0 0) code detail else d

/-! ## The jet table (R178) -/

/-- A jet-table entry. -/
structure JetEntry where
  aoff : Int
  first : Nat
  width : Nat
  en : Bool
  fillOk : Bool
  kpf : Nat
  left : Nat
  right : Nat
  wy : List Nat
  wx : List Nat
  deriving DecidableEq, Repr

/-- Where the entry of jet j stands. -/
def Dev.jetAt (d : Dev) (j : Nat) : Nat := d.rdN Reg.BV_JET_BASE + 64 * j

/-- The entry that stands at an address (R178); bytes that read uncorrectable are free (log 71). -/
def Dev.entryFrom (d : Dev) (m : Mem) (a : Nat) : JetEntry :=
  let bad := d.poisoned a 64
  let byte := fun i => if bad then Config.freeValue (d.free + i) % 256 else (m.frameByte (a + i)).toNat
  let num := fun i n => ((List.range n).map (fun k => byte (i + k) * 256 ^ k)).sum
  {
    aoff := sgn 32 (num 0 4), first := num 4 2, width := byte 6, en := nbit (byte 7) 0, fillOk := nbit (byte 7) 1, kpf := num 8 2,
    left := byte 10, right := byte 11, wy := (List.range 3).map (fun i => byte (12 + i)), wx := (List.range 32).map (fun i => byte (16 + i)) }

/-- The entry of jet j. -/
def Dev.jetEntry (d : Dev) (m : Mem) (j : Nat) : JetEntry := d.entryFrom m (d.jetAt j)

/-- Bloom reads the entry of jet j: an uncorrectable word of it is told (R196, R387), and its bytes are free (log 71). -/
def Dev.readEntry (d : Dev) (t j : Nat) : Dev :=
  if d.poisoned (d.jetAt j) 64 then { (d.readPoison t 8 (d.jetAt j) 64).bvFault t 0 0x0008 1 with free := d.free + 64 } else d

/-- Bloom reads the entry of jet j and those of its neighbours, as it does to enter a jet into fill and to publish its word (R188, R191). -/
def Dev.readNeighbours (d : Dev) (m : Mem) (t j : Nat) : Dev :=
  let e := d.jetEntry m j
  ([e.left, e.right].filter (fun n => decide (n < 128))).foldl (fun (d : Dev) n => d.readEntry t n) (d.readEntry t j)

/-- The jet is scored. -/
def JetEntry.scored (e : JetEntry) : Bool := e.en && decide (0 < e.width)

/-- The whole expected dose of a fire (R179). -/
def JetEntry.dose (e : JetEntry) : Nat := e.kpf * (e.wx.take e.width).sum * e.wy.sum

/-! ## Availability and the compensation word (R188, R191) -/

/-- A published value as a row event at tick t takes it: what was published in that same tick is not yet seen (R191). With no tick, the
value now. -/
def seenAt {α : Type} (change : Option (Nat × α)) (t : Option Nat) (now : α) : α :=
  match change, t with
  | some (u, old), some t => if u = t then old else now
  | _, _ => now

/-- Note a change at tick t of a value that was `old`: the value before the tick stays the one noted. -/
def noteChange {α : Type} (change : Option (Nat × α)) (t : Nat) (old : α) : Option (Nat × α) :=
  match change with
  | some (u, o) => if u = t then some (u, o) else some (t, old)
  | none => some (t, old)

/-- Set a jet, and note at tick t that its trim or fill has changed. -/
def Dev.publish (d : Dev) (t j : Nat) (x : BvJet) : Dev :=
  let y := d.jet j
  d.setJet j (if x.trim = y.trim ∧ x.fill = y.fill then x else { x with pub := noteChange y.pub t (y.trim, y.fill) })

/-- Trim and fill of jet j as the words of tick t have them (R191). -/
def Dev.jetSeen (d : Dev) (t : Option Nat) (j : Nat) : Int × Bool :=
  let x := d.jet j
  seenAt x.pub t (x.trim, x.fill)

/-- A bank leaves its jets available: neither in independent mode nor faulted (R188). -/
def Dev.bankGives (d : Dev) (b : Nat) : Bool := !d.bit (Reg.VB_CFG b) 1 && decide ((d.bank b).state ≠ 3)

/-- The table of the published words. -/
def Dev.compTable (d : Dev) (t : Option Nat) : Option Nat := seenAt d.bv.tableWas t d.bv.tableAt

/-- A neighbour is available (R188), by the jet table at `base`. -/
def Dev.neighbourOk (d : Dev) (m : Mem) (base : Nat) (t : Option Nat) (n : Nat) : Bool :=
  decide (n < 128) &&
    (let e := d.entryFrom m (base + 64 * n)
     e.en && e.fillOk && !(d.jetSeen t n).2 && seenAt (d.bank (n / 16)).okAt t (d.bankGives (n / 16)))

/-- The compensation word of jet j (R191, R198), as it is published (no tick) or as a row event at a tick takes it. No availability is
published before a jet table has come into force (log 72). -/
def Dev.compWord (d : Dev) (m : Mem) (t : Option Nat) (j : Nat) : Nat :=
  let x := d.jetSeen t j
  let ok := match d.compTable t with
    | some base =>
      let e := d.entryFrom m (base + 64 * j)
      512 * b2n (d.neighbourOk m base t e.left) + 1024 * b2n (d.neighbourOk m base t e.right)
    | none => 0
  unsgn 8 x.1 + 256 * b2n x.2 + ok

/-! ## Window records (R192) -/

/-- The events of a window record: EV_BV_WINDOW, and that of its grade. -/
def BvRecord.events (r : BvRecord) : List (Nat × Nat) := (80, r.jet) :: if 2 ≤ r.grade ∧ r.grade ≤ 4 then [(79 + r.grade, r.jet)] else []

/-- Write a window record that waits, or none while its ring lacks room. Its events follow its write. A ring that is off takes none (log 73). -/
def Dev.bvFlushOne (d : Dev) (t : Nat) (r : BvRecord) : Option (Dev × List MemWrite) :=
  let c := d.rdN Reg.BV_RING
  let x : RingRec := ⟨nfld c 6 2, r.words, r.events, none⟩
  if nbit c 0 = false then some (d.recordDone t x, [])
  else if nbit c 1 then (d.ringOfferRec t x).map (fun d => (d, []))
  else
    let size := 2 ^ (nfld c 11 8 + 16)
    let wr := d.rdN Reg.BV_RING_WR
    if 32 ≤ frameRoom size wr (d.rdN Reg.BV_RING_RD) then
      some ((d.wrN Reg.BV_RING_WR ((wr + 32) % size)).recordDone t x, frameRingWrites (d.rdN Reg.BV_RING_BASE) size wr r.words)
    else none

/-- A wait for room in a host ring counts once (R413). -/
def Dev.bvWaits (d : Dev) (r : BvRecord) : Dev :=
  let c := d.rdN Reg.BV_RING
  if r.waited = false ∧ nbit c 1 = true then d.bump (Reg.HX_Rr_CNT_WAIT (nfld c 6 2)) else d

def Dev.bvFlushList (d : Dev) (t : Nat) : List BvRecord → Dev × List MemWrite
  | [] => (d.updBv (fun v => { v with out := [] }), [])
  | r :: rs =>
    match d.bvFlushOne t r with
    | none => ((d.bvWaits r).updBv (fun v => { v with out := { r with waited := true } :: rs }), [])
    | some (d, w) =>
      let q := d.bvFlushList t rs
      (q.1, w ++ q.2)

def Dev.bvFlush (d : Dev) (t : Nat) : Dev × List MemWrite := d.bvFlushList t d.bv.out

/-! ## Grades, trim and fill (R185 to R190) -/

/-- rho of a valid window (R185). -/
def rhoOf (s : Int) (se : Nat) : Nat := (clampI 0 65535 (s * 2 ^ 20 / se)).toNat

/-- A window is invalid (R185). -/
def BvWindow.bad (w : BvWindow) : Bool := w.invalid || decide (w.se = 0) || decide (w.se + w.sx < 2 * w.sx)

/-- The grade of a valid window (R186): 1 good, 2 weak, 3 missing, 4 over. -/
def gradeOf (rho overMax goodMin missMax : Nat) (low : Bool) : Nat :=
  if overMax < rho then 4 else if goodMin ≤ rho then 1 else if missMax ≤ rho then 2 else if low then 3 else 2

/-- The trim after a window that changes it (R187). -/
def trimStep (trim : Int) (rho tstep tmax : Nat) : Int :=
  let ideal := ((256 + trim) * 4096 + (rho / 2 : Nat)).tdiv rho - 256
  clampI (-tmax) tmax (trim + clampI (-tstep) tstep (ideal - trim))

/-- The trim of a jet after a valid window, and its limit (R187). -/
def Dev.bvTrim (d : Dev) (t j rho : Nat) : Dev :=
  let x := d.jet j
  let tmax := d.fld Reg.BV_TRIM 15 8
  let moves := d.bit Reg.BV_CFG 7 && !x.fill && (decide (x.grade = 4) || (decide (x.grade = 2) && !x.low))
  let trim := if moves then trimStep x.trim rho (d.fld Reg.BV_TRIM 7 0) tmax else x.trim
  let limit := decide (x.grade = 2 ∨ x.grade = 4) && decide (trim = tmax ∨ trim = -(tmax : Int))
  let d := d.publish t j { x with trim := trim, limit := limit }
  let d := if trim ≠ x.trim then d.raise t 84 j else d
  if limit then d.raise t 85 j else d

/-- A jet that grades missing enters fill, or cannot (R188). -/
def Dev.bvEnterFill (d : Dev) (m : Mem) (t j : Nat) : Dev :=
  let x := d.jet j
  let e := d.jetEntry m j
  let ok := d.neighbourOk m (d.rdN Reg.BV_JET_BASE) none
  if d.bit Reg.BV_CFG 8 = false ∨ x.grade ≠ 3 ∨ x.fill = true then d
  else if ok e.left ∨ ok e.right then (d.publish t j { x with fill := true, goodProbes := 0 }).raise t 84 j
  else (d.bvFault t (j / 16 + 1) 0x0009 j).raise t 85 j

/-- A jet leaves fill after two good probe windows in a row (R190). -/
def Dev.bvLeaveFill (d : Dev) (t j : Nat) : Dev :=
  let x := d.jet j
  if x.fill = true ∧ 2 ≤ x.goodProbes then (d.publish t j { x with fill := false, goodProbes := 0 }).raise t 84 j else d

/-- A valid window grades its jet (R186, R187, R190). -/
def Dev.bvGrade (d : Dev) (t j : Nat) (w : BvWindow) : Dev :=
  let x := d.jet j
  let rho := rhoOf w.s w.se
  let missMax := d.fld Reg.BV_GRADE 31 16
  let grade := gradeOf rho (d.fld Reg.BV_OVER 15 0) (d.fld Reg.BV_GRADE 15 0) missMax x.low
  let blocked := if grade = 3 then decide (w.fires ≤ 2 * w.dips) else x.blocked
  let report := decide (grade = 3) && decide (x.grade ≠ 3) && !x.reported
  let d := d.setJet j { x with
    grade := grade
    blocked := blocked
    low := decide (rho < missMax)
    limit := false
    invalid := false
    goodProbes := if x.fill = true ∧ grade = 1 then x.goodProbes + 1 else 0
    reported := (x.reported || report) && decide (grade ≠ 1) }
  let d := d.wrN (Reg.BV_Jj_RHO j) (rho + 65536 * w.dips)
  if report then d.bvFault t (j / 16 + 1) (if blocked then 0x0002 else 0x0001) (j + 65536 * rho) else d

/-- The words of a window record (R192). -/
def Dev.windowWords (d : Dev) (t j rho : Nat) (w : BvWindow) (probe : Bool) : List Word :=
  let x := d.jet j
  [w.no, j + 128 * x.grade + 1024 * b2n x.low + 2048 * b2n x.blocked + 4096 * b2n x.invalid + 8192 * b2n probe + 16384 * b2n x.limit
      + 65536 * d.gen .bv,
    rho + 65536 * w.fires, w.dips + 65536 * unsgn 8 x.trim, t, t / 2 ^ 32, min (2 ^ 32 - 1) (w.se / 65536),
    unsgn 32 (clampI (-2147483648) 2147483647 (sar w.s 8))].map (BitVec.ofNat 32)

/-- A window of jet j is complete (R185, R186, R192). The rho of an invalid window is not stated, and is a free value. -/
def Dev.bvComplete (d : Dev) (m : Mem) (t j : Nat) (w : BvWindow) : Dev × List MemWrite :=
  let probe := (d.jet j).fill
  let bad := w.bad
  let d := if bad then (d.bump Reg.BV_CNT_INVALID).setJet j { d.jet j with invalid := true, goodProbes := 0 } else d.bvGrade t j w
  let trimmed := (if bad then d else d.bvTrim t j (rhoOf w.s w.se)).readNeighbours m t j
  let rho := if bad then trimmed.fresh else (rhoOf w.s w.se, trimmed)
  let d := rho.2.wrN (Reg.BV_Jj_WINNO j) w.no
  let d := d.updBv (fun v => { v with out := v.out ++ [⟨d.windowWords t j (rho.1 % 65536) w probe, j, (d.jet j).grade, false⟩] })
  let q := d.bvFlush t
  if bad then q else ((q.1.bvEnterFill m t j).bvLeaveFill t j, q.2)

/-- A window of jet j whose N fires have come and whose fires are all complete (R185). -/
def Dev.windowDone (d : Dev) (j : Nat) (w : BvWindow) : Bool :=
  decide (d.bvWindow ≤ w.fires) && d.bv.fires.all (fun f => !(decide (f.jet = j) && decide (f.win = some w.no)))

/-- Complete the windows of jet j, oldest first. -/
def Dev.bvSettle (d : Dev) (m : Mem) (t j : Nat) : Dev × List MemWrite :=
  let x := d.jet j
  let done := x.wins.takeWhile (d.windowDone j)
  if done.isEmpty then (d, [])
  else
    let d := d.setJet j { x with wins := x.wins.drop done.length }
    done.foldl (fun (q : Dev × List MemWrite) w =>
      let r := q.1.bvComplete m t j w
      (r.1, q.2 ++ r.2)) (d, [])

/-! ## Fires (R179, R180) -/

/-- Every window in progress becomes invalid (R185). -/
def BvJet.spoil (x : BvJet) : BvJet := { x with wins := x.wins.map (fun w => { w with invalid := true }) }

/-- Every window in progress of every jet becomes invalid. -/
def Dev.bvSpoilAll (d : Dev) : Dev := (List.range 128).foldl (fun d j => d.setJet j (d.jet j).spoil) d

/-- The window in which the next fire of a jet counts, and the jet with that fire counted (R185). -/
def BvJet.count (x : BvJet) (n : Nat) (dip : Bool) : BvJet × Nat :=
  match x.wins.getLast? with
  | some w =>
    if w.fires < n then ({ x with wins := x.wins.dropLast ++ [{ w with fires := w.fires + 1, dips := w.dips + b2n dip }] }, w.no)
    else ({ x with wins := x.wins ++ [⟨x.winNo + 1, 1, b2n dip, 0, 0, 0, false⟩], winNo := x.winNo + 1 }, x.winNo + 1)
  | none => ({ x with wins := [⟨x.winNo + 1, 1, b2n dip, 0, 0, 0, false⟩], winNo := x.winNo + 1 }, x.winNo + 1)

/-- Add to the sums of window `no` of a jet. -/
def BvJet.add (x : BvJet) (no : Option Nat) (s : Int) (se sx : Nat) : BvJet :=
  { x with wins := x.wins.map (fun w => if some w.no = no then { w with s := w.s + s, se := w.se + se, sx := w.sx + sx } else w) }

/-- A limit of one record in 64 rows. -/
def rowsPassed (rows : Nat) : Option Nat → Bool
  | some r => decide (r + 64 ≤ rows)
  | none => true

/-- A late fire or one ahead of the store (R179). -/
def Dev.bvMisplaced (d : Dev) (t b j : Nat) (late : Option Nat) : Dev :=
  match late with
  | some rows =>
    let again := rowsPassed d.bv.scored (SMap.get none d.bv.lateAt b)
    let d := (d.bump Reg.BV_CNT_LATE).bvRecord t 0x0003 (j + 65536 * min 65535 rows) again
    if again then d.updBv (fun v => { v with lateAt := SMap.set none v.lateAt b (some v.scored) }) else d
  | none =>
    let again := rowsPassed d.bv.scored (SMap.get none d.bv.aheadAt b)
    let d := (d.bump Reg.BV_CNT_AHEAD).bvRecord t 0x0004 j again
    if again then d.updBv (fun v => { v with aheadAt := SMap.set none v.aheadAt b (some v.scored) }) else d

/-- The bytes of BV_STORE that an input changes (R180), whose layout is not given: free values (log 206). -/
def Dev.storeFree (d : Dev) (places : List Nat) : Dev × List MemWrite :=
  ({ d with free := d.free + places.length },
   ((List.range places.length).map (fun i => frameWrites (places.getD i 0) 4 (Config.freeValue (d.free + i)))).flatten)

/-- The words of the expectation store that a fire of jet j under row kc goes to: one in each of its three rows (log 206). -/
def Dev.firePlaces (d : Dev) (j : Nat) (kc : Int) : List Nat :=
  [kc - 1, kc, kc + 1].map (fun k => d.rdN Reg.BV_STORE + (k % (d.fld Reg.BV_DEPTH 11 0 : Int)).toNat * 576 + 64 + 4 * j)

/-- The bytes of a row in the baseline store (R180). -/
def Dev.baseStride (d : Dev) : Nat := (d.layerCols d.bvBase * 4 + 63) / 64 * 64

/-- The words of the baseline store that a baseline row of index k and `cols` columns goes to (log 206). -/
def Dev.basePlaces (d : Dev) (k cols : Nat) : List Nat :=
  (List.range cols).map (fun j =>
    d.rdN Reg.BV_STORE + d.fld Reg.BV_DEPTH 11 0 * 576 + k % d.fld Reg.BV_DEPTH 23 16 * d.baseStride + 4 * j)

/-- A fire that was made (R179, R185). -/
def Dev.bvFire (d : Dev) (m : Mem) (t j kind : Nat) (dip : Bool) (pos : Int) : Dev × List MemWrite :=
  let e := d.jetEntry m j
  let d := d.readEntry t j
  if e.scored = false then (d, [])
  else
    let n := d.layerRg d.bvLayer
    let kc := (pos + e.aoff - sgn 64 (d.rd64 (Reg.WP_RGn_ORIGIN_LO n))) / (d.rgPitch n : Int)
    let x := d.jet j
    let c := if x.fill = true ∧ kind ≠ 1 then (x, none) else let q := x.count d.bvWindow dip; (q.1, some q.2)
    let late := decide (kc - 1 < d.bv.kNext)
    let ahead := decide (d.bv.kNext + d.fld Reg.BV_DEPTH 11 0 ≤ kc + 1)
    let fire := if kc + 1 < d.bv.kNext then [] else [BvFire.mk j kc c.2 (!late && !ahead)]
    let d := (d.setJet j c.1).updBv (fun v => { v with fires := v.fires ++ fire })
    if late ∨ ahead then
      let d := (d.setJet j (c.1.add c.2 0 0 e.dose)).bvMisplaced t (j / 16) j (if late then some (d.bv.kNext - (kc - 1)).toNat else none)
      d.bvSettle m t j
    else d.storeFree (d.firePlaces j kc)

/-- BV_FIRE_RECORD (R177, R179, R180): the oldest record of bank b's fire-record queue. A disabled block discards it (log 74). -/
def Dev.bvFireRecord (d : Dev) (m : Mem) (t b : Nat) : Dev × List MemWrite :=
  let q := d.bvFlush t
  let d := q.1
  match (d.bank b).records with
  | [] => q
  | r :: rest =>
    if d.bv.out ≠ [] then q
    else
      let d := d.updBank b (fun x => { x with records := rest })
      if d.bvOn = false then (d, q.2)
      else
        let w1 := r.getD 1 0
        let d := if nbit w1 15 then
            (List.range 16).foldl (fun (d : Dev) c => d.setJet (16 * b + c) (d.jet (16 * b + c)).spoil) (d.bvFault t (b + 1) 0x0007 b)
          else d
        if nbit w1 10 then (d, q.2)
        else
          let f := d.bvFire m t (16 * b + nfld w1 3 0) (nfld w1 9 8) (nbit w1 14) (sgn 64 (r.getD 4 0 + 2 ^ 32 * r.getD 5 0))
          (f.1, q.2 ++ f.2)

/-! ## Measured cooling (R181 to R183) -/

/-- A map cell's temperature if it is usable (R181, R163). -/
def usableCell (w : Nat) : Option Int :=
  if nfld w 11 8 ≠ 0 ∧ nfld w 7 4 = 0 ∧ nfld w 15 12 ≠ 14 ∧ nbit w 3 = false ∧ nbit w 2 = false ∧ nbit w 0 = false then some (nfld w 31 16 : Nat)
  else none

/-- The baseline cell that holds a point, of the newest baseline row that holds its position (R182). -/
def Dev.baseCell (d : Dev) (row : BaseRow) (x : Int) : Option Int :=
  let l := d.bvBase
  let j := mapColumn x (d.rdI (Reg.WM_Ll_X0 l)) (d.rdN (Reg.WM_Ll_XPITCH l))
  if j < 0 then none else usableCell (row.cells.getD j.toNat 0)

/-- The baseline row in the ring that holds a position (R182). -/
def Dev.baseRow (d : Dev) (p : Int) : Option BaseRow :=
  d.bv.base.find? (fun r => decide (r.pos ≤ p) && decide (p < r.pos + d.rgPitch (d.layerRg d.bvBase)))

/-- The measured cooling of a row against its baseline, and the bias (R182): `dry` marks the dry cells. -/
def surveyRow (r : List (Option Int)) (dry : List Bool) (dryMin : Nat) (bias : Int) : List (Option Int) × Int × Bool :=
  let l := (List.range r.length).filterMap (fun j => if dry.getD j false then r.getD j none else none)
  let held := decide (l.length < dryMin) || decide (l.length = 0)
  let b := if held then bias else meanList l
  (r.map (fun x => x.map (fun v => v - b)), b, held)

/-- The segment values of a row in dry mode (R183). -/
def segValues (v : List (Option Int)) (dry : List Bool) (seg segMin : Nat) (prev : List (Option Int)) : List (Option Int) :=
  let dryIn := fun a n => (List.range n).filterMap (fun i => if dry.getD (a + i) false then v.getD (a + i) none else none)
  let all := dryIn 0 v.length
  let width := 2 ^ seg
  (List.range ((v.length + width - 1) / width)).map (fun s =>
    let l := dryIn (s * width) (min width (v.length - s * width))
    if segMin ≤ l.length then some (meanList l) else if segMin ≤ all.length then some (meanList all) else prev.getD s none)

/-! ## Scoring (R184) -/

/-- A note of R184: jet, window, column, expected dose. -/
structure BvNote where
  jet : Nat
  win : Option Nat
  col : Nat
  e : Nat
  deriving DecidableEq, Repr

/-- The notes that a fire gives to row k. -/
def noteFire (e : JetEntry) (f : BvFire) (k : Int) (cols : Nat) : List BvNote :=
  let r := k - f.kc + 1
  if f.entered = true ∧ 0 ≤ r ∧ r ≤ 2 then
    (List.range e.width).filterMap (fun i =>
      let v := e.kpf * e.wx.getD i 0 * e.wy.getD r.toNat 0
      if 0 < v ∧ e.first + i < cols then some ⟨f.jet, f.win, e.first + i, v⟩ else none)
  else []

/-- The expected dose of a column. -/
def doseAt (notes : List BvNote) (col : Nat) : Nat := ((notes.filter (fun n => decide (n.col = col))).map BvNote.e).sum

/-- Give each note its share of the measured cooling (R184). -/
def Dev.bvShare (d : Dev) (notes : List BvNote) (cool : List (Option Int)) : Dev :=
  notes.foldl (fun (d : Dev) n =>
    let x := d.jet n.jet
    match cool.getD n.col none with
    | some v => d.setJet n.jet (x.add n.win (roundDiv (v * 256 * n.e) (doseAt notes n.col)) n.e 0)
    | none => d.setJet n.jet (x.add n.win 0 0 n.e)) d

/-- Form m for a row (R182, R183): the cooling of each cell, none for an unscored one; none of a row without baseline that is not scored. -/
def Dev.bvMeasure (d : Dev) (pos : Int) (cells : List Nat) (notes : List BvNote) : Dev × Option (List (Option Int)) :=
  let v := cells.map usableCell
  let dry := (List.range v.length).map (fun j => (v.getD j none).isSome && decide (doseAt notes j = 0))
  let dryMode := fun (d : Dev) =>
    let seg := d.fld Reg.BV_SEG 3 0
    let b := segValues v dry seg (d.fld Reg.BV_SEG 15 8) d.bv.segs
    let m := (List.range v.length).map (fun j => match b.getD (j / 2 ^ seg) none, v.getD j none with
      | some b, some x => some (b - x)
      | _, _ => none)
    (d.updBv (fun u => { u with segs := b }), some m)
  if d.bit Reg.BV_CFG 5 then dryMode d
  else
    let l := d.bvLayer
    match d.baseRow (pos + (d.rgPitch (d.layerRg l) / 2 : Nat)) with
    | none =>
      let d := d.bump Reg.BV_CNT_NOBASE
      if d.bit Reg.BV_CFG 6 then dryMode d else (d, none)
    | some row =>
      let xp := d.rdN (Reg.WM_Ll_XPITCH l)
      let r := (List.range v.length).map (fun j =>
        match d.baseCell row (d.rdI (Reg.WM_Ll_X0 l) + (j * xp : Nat) + (xp / 2 : Nat)), v.getD j none with
        | some b, some x => some (b - x)
        | _, _ => none)
      let q := surveyRow r dry (d.fld Reg.BV_WIN 31 16) d.bv.bias
      let d := if q.2.2 then d.bump Reg.BV_CNT_BIASHELD else d
      ((d.updBv (fun u => { u with bias := q.2.1 })).wrI Reg.BV_BIAS q.2.1, some q.1)

/-- Set k_next. -/
def Dev.bvSetNext (d : Dev) (k : Int) : Dev := (d.updBv (fun v => { v with kNext := k })).wrI Reg.BV_NEXT k

/-- The map has restarted its row grid (R180). -/
def Dev.bvRestart (d : Dev) (t : Nat) (k : Int) : Dev :=
  ((d.updBv (fun v => { v with fires := [] })).bvSpoilAll.bvSetNext k).bvFault t 0 0x0006 (unsgn 32 k)

/-- Score verification row k (R180, R182 to R185). -/
def Dev.bvScore (d : Dev) (m : Mem) (t : Nat) (row : MapRow) : Dev × List MemWrite :=
  let k := row.k
  let d := if k = d.bv.kNext then d else d.bvRestart t k
  let cols := nfld (row.words.getD 7 0) 15 0
  let cells := (List.range cols).map (fun j => row.words.getD (16 + j) 0)
  let here := d.bv.fires.filter (fun f => f.entered && decide (f.kc - 1 ≤ k) && decide (k ≤ f.kc + 1))
  let notes := (here.map (fun f => noteFire (d.jetEntry m f.jet) f k cols)).flatten
  let d := (here.map BvFire.jet).eraseDups.foldl (fun (d : Dev) j => d.readEntry t j) d
  let pos := sgn 64 (row.words.getD 1 0 + 2 ^ 32 * row.words.getD 2 0)
  let q := d.bvMeasure pos cells notes
  let d := match q.2 with
    | some cool => ((q.1.bvShare notes cool).bump Reg.BV_CNT_ROWS).updBv (fun v => { v with scored := v.scored + 1 })
    | none =>
      let again := rowsPassed q.1.bv.rows q.1.bv.nobaseAt
      let d := (q.1.bvShare notes []).bvRecord t 0x0005 (unsgn 32 k) again
      if again then d.updBv (fun v => { v with nobaseAt := some v.rows }) else d
  let store := d.rdN Reg.BV_STORE
  let bytes := d.fld Reg.BV_DEPTH 11 0 * 576 + d.fld Reg.BV_DEPTH 23 16 * d.baseStride
  let d := if d.poisoned store bytes then (d.readPoison t 8 store bytes).bvFault t 0 0x0008 0 else d
  let d := (d.updBv (fun v => { v with
    fires := v.fires.filter (fun f => decide (k < f.kc + 1))
    rows := v.rows + 1 })).bvSetNext (k + 1)
  (List.range 128).foldl (fun (q : Dev × List MemWrite) j =>
    let r := q.1.bvSettle m t j
    (r.1, q.2 ++ r.2)) (d, [])

/-- Rows at the head of the queue that bloom does not score or keep (log 74). -/
def Dev.bvSkip (d : Dev) : List MapRow → List MapRow
  | [] => []
  | r :: rs =>
    if d.bvOn = true ∧ (r.layer = d.bvLayer ∨ (d.bit Reg.BV_CFG 5 = false ∧ r.layer = d.bvBase)) then r :: rs else d.bvSkip rs

/-- BV_BASELINE_ROW (R182): a baseline row enters the baseline ring. -/
def Dev.bvBaselineRow (d : Dev) (t : Nat) : Dev × List MemWrite :=
  let q := d.bvFlush t
  let d := q.1
  if d.bv.out ≠ [] then q
  else
    match d.bvSkip d.wm.rows with
    | [] => (d.updWm (fun w => { w with rows := [] }), q.2)
    | r :: rest =>
      if r.layer = d.bvLayer then (d.updWm (fun w => { w with rows := r :: rest }), q.2)
      else
        let row : BaseRow := ⟨sgn 64 (r.words.getD 1 0 + 2 ^ 32 * r.words.getD 2 0), (r.words.drop 16).take (nfld (r.words.getD 7 0) 15 0)⟩
        let d := (d.updWm (fun w => { w with rows := rest })).updBv (fun v => { v with base := (row :: v.base).take (d.fld Reg.BV_DEPTH 23 16) })
        let f := d.storeFree (d.basePlaces (r.words.getD 0 0) row.cells.length)
        (f.1, q.2 ++ f.2)

/-- BV_VERIFICATION_ROW (R180, R184): a verification row is scored, once no fire record waits. -/
def Dev.bvVerificationRow (d : Dev) (m : Mem) (t : Nat) : Dev × List MemWrite :=
  let q := d.bvFlush t
  let d := q.1
  if d.bv.out ≠ [] then q
  else
    match d.bvSkip d.wm.rows with
    | [] => (d.updWm (fun w => { w with rows := [] }), q.2)
    | r :: rest =>
      if r.layer ≠ d.bvLayer ∨ (List.range 8).any (fun b => !(d.bank b).records.isEmpty) then (d.updWm (fun w => { w with rows := r :: rest }), q.2)
      else
        let f := (d.updWm (fun w => { w with rows := rest })).bvScore m t r
        (f.1, q.2 ++ f.2)

/-! ## Commands (R190, R195) -/

/-- Op 1: clear a jet's grade, low, trim and fill. -/
def Dev.bvResetJet (d : Dev) (t j : Nat) : Dev :=
  let x := d.jet j
  let d := d.publish t j { x with grade := 0, low := false, trim := 0, fill := false, limit := false, goodProbes := 0 }
  if x.fill then d.raise t 84 j else d

/-- Op 3: end a jet's fill and keep its trim. -/
def Dev.bvEndFill (d : Dev) (t j : Nat) : Dev :=
  let x := d.jet j
  if x.fill then (d.publish t j { x with fill := false, goodProbes := 0 }).raise t 84 j else d

/-- Op 2: reset every jet. -/
def Dev.bvResetAll (d : Dev) (t : Nat) : Dev := (List.range 128).foldl (fun d j => d.bvResetJet t j) d

/-- The jet table of the live set is the one whose availabilities are published, from a swap of an enabled block on (log 72). -/
def Dev.bvTable (d : Dev) (t : Nat) : Dev :=
  let base := some (d.rdN Reg.BV_JET_BASE)
  if d.bvOn = true ∧ d.bv.tableAt ≠ base then d.updBv (fun v => { v with tableAt := base, tableWas := noteChange v.tableWas t v.tableAt }) else d

/-- A swap of the block (R180, R194): windows in progress become invalid; an enable starts the stores anew. -/
def Dev.bvSwap (d : Dev) (t : Nat) (wasOn : Bool) : Dev :=
  let d := d.bvSpoilAll.bvTable t
  if d.bvOn = true ∧ wasOn = false then
    ((d.updBv (fun v => { v with
      fires := []
      base := []
      segs := []
      bias := 0 })).wrN Reg.BV_BIAS 0).bvSetNext (d.layer d.bvLayer).kFirst
  else d

/-- A unit reset of bloom (R195): k_next and the window records that wait stay. -/
def Dev.bvUnitReset (d : Dev) : Dev :=
  let d := d.updBv (fun v => { v with
    fires := []
    base := []
    segs := []
    bias := 0 })
  (List.range 128).foldl (fun (d : Dev) j => d.setJet j { d.jet j with grade := 0, low := false, wins := [], goodProbes := 0 }) d

def execBvFireRecord (b : Fin 8) (s : State) : Result := s.actWr 8 (fun now m d => d.bvFireRecord m now.dtime b)
def execBvBaselineRow (s : State) : Result := s.actWr 8 (fun now _ d => d.bvBaselineRow now.dtime)
def execBvVerificationRow (s : State) : Result := s.actWr 8 (fun now m d => d.bvVerificationRow m now.dtime)
def execBvResetJet (j : Fin 128) (s : State) : Result := s.act (fun now d => d.bvResetJet now.dtime j)
def execBvResetAll (s : State) : Result := s.act (fun now d => d.bvResetAll now.dtime)
def execBvEndFill (j : Fin 128) (s : State) : Result := s.act (fun now d => d.bvEndFill now.dtime j)

end Sys2Proof.Machine
end

