-- ==== Sys2Proof/Machine/LineCode.lean ====
section
/-! DEFINITION. Machine/LineCode.lean: the 8b/10b line code of the bank links (R252 to R256), and the CRC of their messages (R262). A symbol is
10 bits abcdei fghj with bit a, the first sent, leading; running disparity is `true` when positive. -/
namespace Sys2Proof.Machine

/-! ## 8b/10b (R252; the tables are those of IEEE 802.3 Clause 36, log 172) -/

/-- The ones of a number of n bits. -/
def onesOf (n w : Nat) : Nat := ((List.range n).filter (fun i => nbit w i)).length

/-- abcdei of D0 to D31 at negative running disparity. -/
def table6 : List Nat := [
  0b100111, 0b011101, 0b101101, 0b110001, 0b110101, 0b101001, 0b011001, 0b111000, 0b111001, 0b100101, 0b010101, 0b110100, 0b001101, 0b101100,
  0b011100, 0b010111, 0b011011, 0b100011, 0b010011, 0b110010, 0b001011, 0b101010, 0b011010, 0b111010, 0b110011, 0b100110, 0b010110, 0b110110,
  0b001110, 0b101110, 0b011110, 0b101011]

/-- fghj of Dx.0 to Dx.7 at negative running disparity. -/
def table4 : List Nat := [0b1011, 0b1001, 0b0101, 0b1100, 0b1101, 0b1010, 0b0110, 0b1110]

/-- abcdei of Dx. -/
def data6 (rd : Bool) (x : Nat) : Nat :=
  let c := table6.getD x 0
  if rd = true ∧ (onesOf 6 c ≠ 3 ∨ x = 7) then 63 - c else c

/-- fghj of Dx.y after the first six bits. -/
def data4 (rd : Bool) (x y : Nat) : Nat :=
  let alt := decide (y = 7) && (if rd then decide (x = 11 ∨ x = 13 ∨ x = 14) else decide (x = 17 ∨ x = 18 ∨ x = 20))
  let c := if alt then 0b0111 else table4.getD y 0
  if rd = true ∧ (onesOf 4 c ≠ 2 ∨ y = 3) then 15 - c else c

/-- abcdei of K28. -/
def comma6 (rd : Bool) : Nat := if rd then 0b110000 else 0b001111

/-- fghj of K28.y, for the markers of R254, after the first six bits. -/
def comma4 (rd : Bool) (y : Nat) : Nat :=
  let c := match y with
    | 1 => 0b1001
    | 2 => 0b0101
    | 5 => 0b1010
    | _ => 0b0110
  if rd then c else 15 - c

/-- Running disparity after a sub-block of n bits, 6 or 4. -/
def rdAfter (rd : Bool) (n c : Nat) : Bool :=
  let o := onesOf n c
  if n < 2 * o then true
  else if 2 * o < n then false
  else if c = 2 ^ (n / 2) - 1 then true
  else if c = 2 ^ n - 2 ^ (n / 2) then false
  else rd

/-- A symbol with its disparity after: K28.y, or the data byte. -/
def encodeSymbol (rd : Bool) (k : Bool) (v : Nat) : Nat × Bool :=
  let c := if k then comma6 rd else data6 rd (v % 32)
  let mid := rdAfter rd 6 c
  let e := if k then comma4 mid (v / 32) else data4 mid (v % 32) (v / 32)
  (16 * c + e, rdAfter mid 4 e)

/-- What a symbol says at a running disparity: a K28 marker or a data byte; none for a code violation or a disparity error (R255). -/
def decodeSymbol (rd : Bool) (s : Nat) : Option (Bool × Nat) × Bool :=
  let c := s / 16
  let e := s % 16
  let mid := rdAfter rd 6 c
  let v := if c = comma6 rd then ([1, 2, 5, 6].find? (fun y => decide (comma4 mid y = e))).map (fun y => (true, 28 + 32 * y))
    else ((List.range 32).find? (fun x => decide (data6 rd x = c))).bind (fun x =>
      ((List.range 8).find? (fun y => decide (data4 mid x y = e))).map (fun y => (false, x + 32 * y)))
  (v, rdAfter mid 4 e)

/-! ## Frames (R254 to R256) -/

/-- The 40 bits of a frame: marker K28.y and the payload, lowest byte first. -/
def encodeFrame (rd : Bool) (y payload : Nat) : Nat × Bool :=
  [(true, 28 + 32 * y), (false, payload % 256), (false, payload / 256 % 256), (false, payload / 65536 % 256)].foldl
    (fun (a : Nat × Bool) v =>
      let s := encodeSymbol a.2 v.1 v.2
      (a.1 * 1024 + s.1, s.2)) (0, rd)

/-- The four symbols of a frame's 40 bits, and the running disparity after them. -/
def decodeFrame (rd : Bool) (line : Nat) : List (Option (Bool × Nat)) × Bool :=
  [line / 2 ^ 30 % 1024, line / 2 ^ 20 % 1024, line / 2 ^ 10 % 1024, line % 1024].foldl
    (fun (a : List (Option (Bool × Nat)) × Bool) s =>
      let v := decodeSymbol a.2 s
      (a.1 ++ [v.1], v.2)) ([], rd)

/-- The marker K28.y of a frame down the link (R254). -/
def downMarker (pos : Nat) (quench : Bool) : Nat := if pos = 0 then (if quench then 6 else 5) else if quench then 2 else 1

/-- The payload with its parity bit: an odd number of ones (R255, R256). -/
def withParity (payload : Nat) : Nat := payload + 2 ^ 23 * b2n (decide (onesOf 23 payload % 2 = 0))

/-- The superframe position that a receiver of the uplink counts for a frame whose symbol 0 is v, and whether the marker agrees with it. A
receiver that acquires takes the position from the start marker (R254, R255). -/
def countFrame (acquire : Bool) (pos : Option Nat) (v : Option (Bool × Nat)) : Option Nat × Bool :=
  let next := pos.map (fun p => (p + 1) % 16)
  if acquire = true ∧ v = some (true, 188) then (some 0, true)
  else (next, match next with
    | some 0 => decide (v = some (true, 188))
    | some _ => decide (v = some (true, 60))
    | none => false)

/-- A receiver takes a frame of its lane (R255): the payload, none for an invalid frame. -/
def UpLane.receive (x : UpLane) (acquire : Bool) (line : Nat) : Option Nat × UpLane :=
  let f := decodeFrame x.rd line
  let c := countFrame acquire x.pos (f.1.getD 0 none)
  let data := [f.1.getD 1 none, f.1.getD 2 none, f.1.getD 3 none].filterMap (fun v => match v with
    | some (false, n) => some n
    | _ => none)
  let payload := data.getD 0 0 + 256 * data.getD 1 0 + 65536 * data.getD 2 0
  let ok := c.2 && decide (data.length = 3) && decide (onesOf 24 payload % 2 = 1)
  (if ok then some payload else none, { x with rd := f.2, pos := c.1 })

/-! ## Messages (R262) -/

/-- One bit of the CRC-8 of R262. -/
def crc8Bit (c : Nat) (bit : Bool) : Nat :=
  let top := decide (128 ≤ c)
  let s := c * 2 % 256
  if top != bit then s ^^^ 0x2F else s

/-- The CRC-8 of R262. -/
def crc8 (l : List Byte) : Nat :=
  (l.foldl (fun c (x : Byte) => (List.range 8).foldl (fun c i => crc8Bit c (nbit x.toNat (7 - i))) c) 255) ^^^ 255

/-- A message: type, sequence, eight bytes of payload, CRC. -/
def messageOf (type seq : Nat) (payload : List Byte) : List Byte :=
  let l := BitVec.ofNat 8 (type + 16 * seq) :: (List.range 8).map (fun i => payload.getD i 0)
  l ++ [BitVec.ofNat 8 (crc8 l)]

/-- A message whose CRC holds. -/
def crcHolds (msg : List Byte) : Bool := decide (msg.length = 10) && decide (crc8 (msg.take 9) = (msg.getD 9 0).toNat)
def messageType (msg : List Byte) : Nat := (msg.getD 0 0).toNat % 16

/-- The slow bits that frame f of a superframe carries of a message, as five payload bits. -/
def slowBits (msg : List Byte) (f : Nat) : Nat :=
  ((List.range 5).map (fun i =>
    let n := 5 * f + i
    b2n (nbit (msg.getD (n / 8) 0).toNat (n % 8)) * 2 ^ i)).sum

/-- The bytes of 80 slow bits. -/
def slowBytes (bits : List Bool) : List Byte :=
  (List.range 10).map (fun n => BitVec.ofNat 8 (((List.range 8).map (fun i => b2n (bits.getD (8 * n + i) false) * 2 ^ i)).sum))

/-- A receiver takes the slow bits of a frame (R262). At the end of a superframe it answers with the message, or with none where it is
discarded; in all other cases there is nothing to answer. -/
def UpLane.takeSlow (x : UpLane) (payload : Option Nat) : UpLane × Option (Option (List Byte)) :=
  let bits := (List.range 5).map (fun i => nbit (payload.getD 0) (18 + i))
  let x := if x.pos = some 0 then { x with slow := bits, spoiled := payload.isNone }
    else { x with slow := (x.slow ++ bits).take 80, spoiled := x.spoiled || payload.isNone }
  if x.pos = some 15 ∧ x.slow.length = 80 then
    let msg := slowBytes x.slow
    ({ x with slow := [] }, some (if x.spoiled = false ∧ crcHolds msg = true then some msg else none))
  else (x, none)

end Sys2Proof.Machine
end

