-- ==== Sys2Proof/Machine/ValveBank.lean ====
section
/-! DEFINITION. Machine/ValveBank.lean: the valve banks (08): the fire-row ring, take events, fills, fire records, pairs, bank faults and the
spare lace engine. -/
namespace Sys2Proof.Machine

/-! ## Access -/

def Bank.chan (x : Bank) (c : Nat) : Chan := SMap.get Chan.reset x.chans c
def Bank.setChan (x : Bank) (c : Nat) (v : Chan) : Bank := { x with chans := SMap.set Chan.reset x.chans c v }
def Bank.thread (x : Bank) (th : Nat) : LaceThread := SMap.get LaceThread.reset x.threads th
def Bank.setThread (x : Bank) (th : Nat) (v : LaceThread) : Bank := { x with threads := SMap.set LaceThread.reset x.threads th v }
def Bank.pair (x : Bank) (p : Nat) : PairState := SMap.get PairState.reset x.pairs p
def Bank.setPair (x : Bank) (p : Nat) (v : PairState) : Bank := { x with pairs := SMap.set PairState.reset x.pairs p v }
def Dev.chan (d : Dev) (b c : Nat) : Chan := (d.bank b).chan c
def Dev.setChan (d : Dev) (b c : Nat) (v : Chan) : Dev := d.updBank b (fun x => x.setChan c v)
def Dev.thread (d : Dev) (b th : Nat) : LaceThread := (d.bank b).thread th
def Dev.setThread (d : Dev) (b th : Nat) (v : LaceThread) : Dev := d.updBank b (fun x => x.setThread th v)
def Dev.pair (d : Dev) (b p : Nat) : PairState := (d.bank b).pair p
def Dev.setPair (d : Dev) (b p : Nat) (v : PairState) : Dev := d.updBank b (fun x => x.setPair p v)
def Dev.blink (d : Dev) (b : Nat) : BankLink := SMap.get BankLink.reset d.bl b
def Dev.setBlink (d : Dev) (b : Nat) (x : BankLink) : Dev := { d with bl := SMap.set BankLink.reset d.bl b x }
def Dev.updBlink (d : Dev) (b : Nat) (f : BankLink → BankLink) : Dev := d.setBlink b (f (d.blink b))
def Dev.updSpare (d : Dev) (f : Spare → Spare) : Dev := { d with spare := f d.spare }

/-- Settings of a bank (R223, R251). -/
def Dev.vbOn (d : Dev) (b : Nat) : Bool := d.bit (Reg.VB_CFG b) 0
def Dev.indep (d : Dev) (b : Nat) : Bool := d.bit (Reg.VB_CFG b) 1
def Dev.ringRg (d : Dev) (b : Nat) : Nat := d.fld (Reg.VB_RING b) 6 4
def Dev.ringAdv (d : Dev) (b : Nat) : Nat := d.fld (Reg.VB_RING b) 13 8
def Dev.chanEn (d : Dev) (b c : Nat) : Bool := d.bit (Reg.VB_CHc_CFG b c) 0
/-- A pair in command mode (R213). -/
def Dev.chanCmd (d : Dev) (b c : Nat) : Bool := d.indep b && d.bit (Reg.VB_CHc_CFG b c) 1
def Dev.chanProg (d : Dev) (b c : Nat) : Nat := d.fld (Reg.LC_CHc_CFG b c) 3 0
/-- Tracked opening delay of a channel (R205). -/
def Dev.chanOd (d : Dev) (b c : Nat) : Nat := d.rdN (Reg.VB_CHc_OD b c)
/-- The lowest current that HOLD may be limited to (R243). -/
def Dev.holdMin (d : Dev) (b c : Nat) : Nat := d.fld (Reg.LC_CHc_LIM2 b c) 27 16

/-- The engine that serves the bank works: its code is loaded, and it has no engine fault or the spare serves (R236). -/
def Bank.engineOk (x : Bank) : Bool := x.loaded && (!x.engineFault || x.served)
/-- A channel is active from its fire start until its quench ends (R199). -/
def Chan.active (c : Chan) : Bool := decide (c.kind ≠ 0)
/-- A channel that makes no fires: disabled, derated to off, or tripped (R210, R243). -/
def Dev.chanOut (d : Dev) (b c : Nat) : Bool :=
  let k := (d.chan b c).coil
  !d.chanEn b c || k.trip || (k.derate && decide (d.holdMin b c = 0))

/-! ## Measurement (R227, R228) -/

/-- The fast value of a stream, bits newest first (R227). -/
def fastOf (bits : List Bool) : Nat :=
  min 4095 (64 * ((List.range 15).map (fun i => if bits.getD i false then min (i + 1) (15 - i) else 0)).sum)

/-- Weight n of (1 + z + … + z³¹)³ (R228). -/
def fineWeight (n : Nat) : Nat :=
  let tri := fun k => (k + 1) * (k + 2) / 2
  tri n + (if 64 ≤ n then 3 * tri (n - 64) else 0) - (if 32 ≤ n then 3 * tri (n - 32) else 0)

/-- The fine value of a stream (R228). -/
def fineOf (bits : List Bool) : Nat :=
  min 4095 (((List.range 94).map (fun i => if bits.getD i false then fineWeight i else 0)).sum / 8)

/-- A stream takes the two bits of a frame: the first half's sample, then the second's (R260). -/
def takeBits (bits : List Bool) (b0 b1 : Bool) : List Bool := (b1 :: b0 :: bits).take 94

/-- The channel whose stream carries the current of channel or pair c (R213). -/
def Dev.streamOf (d : Dev) (b c : Nat) : Nat := if d.indep b then (if c < 8 then 2 * c else c) else c
def Dev.fast (d : Dev) (b c : Nat) : Nat := fastOf (d.chan b (d.streamOf b c)).bits
def Dev.fine (d : Dev) (b c : Nat) : Nat := fineOf (d.chan b (d.streamOf b c)).bits

/-- The scales of the descriptor in use (R263): s and vs, and the bank current limit. -/
def BankLink.scale (x : BankLink) : Option Nat := x.desc.map (fun l => leNat (l.drop 7 |>.take 2))
def BankLink.vscale (x : BankLink) : Option Nat := x.desc.map (fun l => leNat (l.drop 9 |>.take 2))
def BankLink.limit (x : BankLink) : Nat := match x.desc with
  | some l => leNat (l.drop 11 |>.take 2)
  | none => 0

/-- The frame in progress. -/
def Bank.frame (x : Bank) : Nat := x.lastFrame / 40

/-! ## Fault records (R221, R249) -/

def Dev.vbFault (d : Dev) (t b el code detail : Nat) : Dev := d.faultFlag t (uid 9 b el) code detail (Reg.VB_FAULT b) (code - 1)
def Dev.lcFault (d : Dev) (t b el code detail : Nat) : Dev := d.faultFlag t (uid 9 b el) code detail (Reg.LC_FAULT b) (code - 0x10)

/-- One record of a kind in 64 taken rows (R210, R212, R249), counted whatever their numbers. -/
def Dev.rowLimit (d : Dev) (b key : Nat) : Bool × Dev :=
  let x := d.bank b
  let again := match SMap.get none x.faultRows key with
    | some r => decide (r + 64 ≤ x.rowsTaken)
    | none => true
  (again, if again then d.setBank b { x with faultRows := SMap.set none x.faultRows key (some x.rowsTaken) } else d)

/-- A bank's rate-limited record: the flag always. -/
def Dev.vbLimited (d : Dev) (t b el code detail key : Nat) : Dev :=
  let r := d.rowLimit b key
  let d := r.2.flag (Reg.VB_FAULT b) (code - 1)
  if r.1 then d.fault t (uid 9 b el) code detail else d

/-- An engine's rate-limited record (R249). -/
def Dev.lcLimited (d : Dev) (t b el code detail : Nat) : Dev :=
  let r := d.rowLimit b (32 * code + el)
  let d := r.2.flag (Reg.LC_FAULT b) (code - 0x10)
  if r.1 then d.fault t (uid 9 b el) code detail else d

/-! ## Fire records (R210, R240) -/

/-- A record joins the bank's queue of 1,024, or is lost, counted, and leaves its mark on the next (R24, R210). -/
def Dev.putRecord (d : Dev) (b : Nat) (ws : List Nat) : Dev :=
  d.updBank b (fun x =>
    if x.records.length < 1024 then
      { x with
        records := x.records ++ [ws.take 1 ++ [ws.getD 1 0 + 32768 * b2n x.overflow] ++ ws.drop 2]
        overflow := false }
    else { x with overflow := true, lost := x.lost + 1 })

/-- Word 1 of a fire record without the overflow mark. -/
def recordWord1 (f : Fire) (b : Nat) (served dropped : Bool) (cause : Nat) (dip : Bool) : Nat :=
  f.ch + 16 * b + 128 * b2n served + 256 * f.kind + 1024 * b2n dropped + 2048 * cause + 16384 * b2n dip + 65536 * f.gen

/-- The record of a fire that is not made (R240). -/
def Dev.dropRecord (d : Dev) (t b : Nat) (f : Fire) (cause : Nat) : Dev :=
  let p := unsgn 64 (f.pos + f.off)
  d.putRecord b [f.row % 2 ^ 32, recordWord1 f b (d.bank b).served true cause false, t % 2 ^ 32, t / 2 ^ 32, p % 2 ^ 32, p / 2 ^ 32,
    f.missing * 2 ^ 20, unsgn 8 f.trim * 2 ^ 24]

/-- A fire is not made: its record and VB_CNT_DROP (R210). -/
def Dev.dropFire (d : Dev) (t b : Nat) (f : Fire) (cause : Nat) : Dev := (d.dropRecord t b f cause).bump (Reg.VB_CNT_DROP b)

/-- The deposit position of a made fire (R238): `found` is the depth and the time of the minimum of its dip. -/
def depositOf (r : Run) (positions : List (Nat × Int)) (fdelay : Nat) (found : Option (Nat × Nat)) : Int × Nat :=
  match found with
  | some (_, tm) =>
    let topen : Int := tm - fdelay
    let meas := (clampI 0 1048575 (topen - r.start)).toNat
    match positions.find? (fun p => decide ((p.1 : Int) ≤ topen)) with
    | some p => (p.2, meas)
    | none => (r.wpos + sar (meas * r.v) 16, meas)
  | none => (r.wpos + sar (r.od * r.v) 16, 0)

/-- The tracked delay after a confirmed dip (R239): the new delay and the rejections in a row. -/
def trackDelay (od meas k rej : Nat) : Nat × Nat × Bool :=
  if (od / 2 ≤ meas ∧ meas ≤ 2 * od) ∨ 2 ≤ rej then
    let v := if k = 0 then (meas : Int) else od + sar ((meas : Int) - od + 2 ^ (k - 1)) k
    ((clampI 0 1048575 v).toNat, 0, false)
  else (od, rej + 1, true)

/-- A window closes after the record of its fire: an armed detector confirms its dip now, and without one LC_CNT_NODIP counts (R237). -/
def Dev.lateWindow (d : Dev) (b c : Nat) : Dev :=
  let k := d.chan b c
  if k.noDip = true ∧ k.dip.found.isNone = true ∧ k.dip.armed = false then d.bump (Reg.LC_CNT_NODIP b) else d

/-- The record of a made fire is written, and what lands with it: the tracked delay, LC_CNT_NODIP (R237 to R240, log 208). -/
def Dev.closeRun (d : Dev) (b c cause : Nat) : Dev :=
  let x := d.bank b
  let k := x.chan c
  match k.run with
  | none => d
  | some r =>
    if k.command then d.setChan b c { k with run := none }
    else
      let found := k.dip.found
      let q := r.deposit.getD (depositOf r [] 0 none)
      let p := unsgn 64 q.1
      let dip := found.isSome
      let words := [r.fire.row % 2 ^ 32, recordWord1 r.fire b x.served (decide (cause ≠ 0)) cause dip, r.start % 2 ^ 32, r.start / 2 ^ 32,
        p % 2 ^ 32, p / 2 ^ 32,
        q.2 + r.fire.missing * 2 ^ 20 + b2n r.boostCut * 2 ^ 27 + b2n r.derated * 2 ^ 28 + b2n r.lateQuench * 2 ^ 29,
        (match found with
          | some (depth, _) => depth % 4096
          | none => 0) + r.hiFine % 4096 * 2 ^ 12 + unsgn 8 r.fire.trim * 2 ^ 24]
      let d := d.putRecord b words
      let later := k.dip.open_ || (k.watch && k.active)
      let d := if k.watched = true ∧ dip = false ∧ later = false then d.bump (Reg.LC_CNT_NODIP b) else d
      let d := if later = true ∧ dip = false then d.setChan b c { d.chan b c with noDip := true } else d
      let u := trackDelay (d.chanOd b c) q.2 (d.fld (Reg.LC_CFG b) 2 0) k.odRej
      if dip = true ∧ d.bit (Reg.LC_CHc_CFG b c) 6 = true then
        let d := (d.wrN (Reg.VB_CHc_OD b c) u.1).setChan b c { d.chan b c with run := none, odRej := u.2.1 }
        if u.2.2 then d.bump (Reg.LC_CNT_ODREJ b) else d
      else d.setChan b c { d.chan b c with run := none }

/-! ## Gates (R199, R229, R259) -/

/-- Whether a channel's regulated or free gate is on. -/
def Dev.gateOn (d : Dev) (b c : Nat) : Bool :=
  let k := d.chan b c
  match k.kind with
  | 0 | 5 => false
  | 3 => decide (d.fast b c < k.target)
  | _ => k.sw

/-- A channel drives the boost gate in the frame at boundary time t: in BOOST, and not past slot − guard of it (R207, R230, log 170). -/
def Dev.boosts (d : Dev) (t b c : Nat) : Bool :=
  let k := d.chan b c
  decide (k.kind = 1) && match k.boostFrom with
    | some f => decide (t + 40 ≤ f + (d.fld (Reg.VB_SLOT b) 15 0 - d.fld (Reg.VB_SLOT b) 31 16))
    | none => true

/-- The gate word of a bank's frame at boundary time t, without the quench marks. -/
def Dev.gateWord (d : Dev) (t b : Nat) : Nat :=
  if d.indep b then
    ((List.range 8).map (fun p =>
      let k := d.chan b p
      b2n (d.gateOn b p) * 2 ^ (2 * p) + b2n (decide (k.kind ≠ 0 ∧ k.kind ≠ 5)) * 2 ^ (2 * p + 1))).sum
  else
    ((List.range 16).map (fun c => b2n (d.gateOn b c) * 2 ^ c)).sum
      + b2n ((List.range 16).any (fun c => d.boosts t b c)) * 65536
      + b2n ((List.range 16).any (fun c => (d.chan b c).active)) * 131072

/-- Step 4: the gate word of the frame at boundary time t (R199, R225, R259). With `again` the word of a frame that was formed already and has
not begun is formed once more. -/
def Dev.laceGates (d : Dev) (t b : Nat) (again : Bool) : Dev :=
  let x := d.bank b
  if x.state ≠ 2 ∨ x.allOff = true ∨ x.engineOk = false then d.setBank b { x with gates := 0, quench := false, quenchDue := false }
  else if d.indep b then d.setBank b { x with gates := d.gateWord t b, quench := false, quenchDue := false }
  else
    let k := t / 40
    let quenching := (List.range 16).filter (fun c => decide ((d.chan b c).kind = 5))
    let enters := quenching.any (fun c => decide ((d.chan b c).quenchAt = some k))
    let refresh := decide (k % 8 = 7) && !quenching.isEmpty
    let starts := (List.range 16).any (fun c => match (d.chan b c).run with
      | some r => decide (r.start = t)
      | none => false)
    let due := !quenching.isEmpty && (enters || refresh || x.quenchDue || (again && x.quench))
    let w := d.gateWord t b
    if due = true ∧ starts = false then
      d.setBank b { x with gates := maskOf quenching + w / 65536 * 65536, quench := true, quenchDue := false }
    else d.setBank b { x with gates := w, quench := false, quenchDue := due }

/-- What a command does to a channel between LACE_FRAMEs drives the gates from the next boundary (R225, R235, R236). -/
def Dev.regate (d : Dev) (t b : Nat) : Dev :=
  if (d.bank b).frame = t / 40 ∧ (d.bank b).lastFrame ≠ 0 then d.laceGates (40 * (t / 40 + 1)) b true else d

/-- The estimate of the coil resistance when a HOLD ends (R244). -/
def Dev.holdEnds (d : Dev) (t b c : Nat) : Dev :=
  let k := d.chan b c
  let q := k.coil
  match (d.blink b).scale, (d.blink b).vscale with
  | some s, some vs =>
    if k.kind ≠ 4 ∨ d.bit (Reg.LC_CHc_CFG b c) 5 = false ∨ q.n < 64 ∨ q.sumI = 0 ∨ s = 0 then d
    else
      let est := q.sumV * vs * q.onCount * 1000 / (q.n * q.sumI * s)
      let rc := d.rdN (Reg.LC_RCHK b)
      let mismatch := decide ((nfld rc 7 0 : Int) * q.res < ((est : Int) - q.res).natAbs * 256)
      let d := d.putFld (Reg.LC_CHc_REST b c) 23 0 est
      let mism := if mismatch then q.mism + 1 else 0
      let hit := mismatch && decide (nfld rc 11 8 ≤ mism) && !q.mismSeen
      let d := d.setChan b c { k with coil := { q with mism := mism, mismSeen := mismatch && (q.mismSeen || hit) } }
      if hit then (d.lcLimited t b c 0x0015 (est % 2 ^ 24)).bump (Reg.LC_CNT_RMIS b) else d
  | _, _ => d

/-! ## Everything off (R199, R215, R217, R220) -/

/-- Every waiting and running fire of a bank is dropped with a cause, its threads stop, and its channels go idle. -/
def Dev.bankAllOff (d : Dev) (t b cause : Nat) : Dev :=
  let waiting := (d.bank b).waiting
  let d := d.updBank b (fun x => { x with waiting := [] })
  let d := waiting.foldl (fun (d : Dev) f => d.dropFire t b f cause) d
  let d := (List.range 16).foldl (fun (d : Dev) c =>
    let d := d.holdEnds t b c
    let k := d.chan b c
    let made := k.run.isSome && !k.command
    let d := d.closeRun b c cause
    let d := (if made then d.bump (Reg.VB_CNT_DROP b) else d).lateWindow b c
    d.setChan b c { Chan.reset with bits := k.bits, odRej := (d.chan b c).odRej, coil := k.coil }) d
  d.updBank b (fun x => { x with
    threads := []
    heldStart := false
    pairs := []
    token := none
    gates := 0
    quench := false
    quenchDue := false
    clearing := false })

/-- Note at tick t that the bank's part in R188, which was `old`, may have changed (R191). -/
def Dev.noteBank (d : Dev) (t b : Nat) (old : Bool) : Dev :=
  if d.bankGives b = old then d else d.updBank b (fun x => { x with okAt := noteChange x.okAt t old })

/-- A bank faults (R215): cause 1 uplink lost, 2 stage report, 3 arming lost, 4 lace fault without spare. -/
def Dev.bankFault (d : Dev) (t b cause : Nat) : Dev :=
  if d.vbOn b = false ∨ (d.bank b).state = 3 then d
  else
    let old := d.bankGives b
    let d := ((d.bankAllOff t b 4).updBank b (fun x => { x with state := 3, armed := false })).noteBank t b old
    (d.vbFault t b 31 0x0004 cause).raise t (40 + b) cause

/-! ## The look-ahead (R200, R202) -/

/-- The row after the last taken one; before any, the first row that can be taken (R203). -/
def Dev.nextRowOf (d : Dev) (b : Nat) : Nat :=
  match (d.bank b).taken with
  | some q => q + 1
  | none => (d.rowGen (d.ringRg b)).rows + d.ringAdv b

/-- Where the entry of row q stands (R200). -/
def Dev.entryAt (d : Dev) (b q : Nat) : Nat := d.rdN (Reg.VB_RING_BASE b) + 32 * (q % 2 ^ d.fld (Reg.VB_RING b) 3 0)

/-- An entry that is valid for row q gives its bits (R200). -/
def ringEntry (m : Mem) (a q : Nat) : Option Nat :=
  let row := m.frameNat (a + 16) 4
  if row = q % 2 ^ 32 ∧ m.frameNat (a + 20) 4 = 2 ^ 32 - 1 - row then some (m.frameNat a 16) else none

/-- Fetch the entry of row q (R202). -/
def Dev.fetchRow (d : Dev) (m : Mem) (t b q : Nat) : Dev :=
  let a := d.entryAt b q
  let bad := d.poisoned a 32
  let d := d.updBank b (fun x => { x with missed := x.missed.filter (fun y => decide (y.1 ≠ q)) })
  match if bad then none else ringEntry m a q with
  | some bits => d.updBank b (fun x => { x with look := x.look ++ [(q, bits)] })
  | none =>
    let d := d.updBank b (fun x => { x with missed := x.missed ++ [(q, t, bad)] })
    if bad then (d.readPoison t 11 a 32).vbFault t b 31 0x0008 q else d

/-- VB_RING_FETCH (R202): the first row of the look-ahead that has not been fetched. -/
def Dev.ringFetch (d : Dev) (m : Mem) (t b : Nat) : Dev :=
  if d.vbOn b = false then d
  else
    let x := d.bank b
    match ((List.range 64).map (fun i => d.nextRowOf b + i)).find? (fun q => !x.look.any (fun y => decide (y.1 = q)) && !x.missed.any (fun y => decide (y.1 = q))) with
    | some q => d.fetchRow m t b q
    | none => d

/-- When row i of the look-ahead is fetched again (R202). -/
def Dev.refetchDue (d : Dev) (b i : Nat) : Option Nat :=
  if d.vbOn b then ((d.bank b).missed.find? (fun y => decide (y.1 = d.nextRowOf b + i))).map (fun y => y.2.1 + 400) else none

/-! ## Take events (R203, R204, R210) -/

/-- A fire with the settings that its bank latches at the take event, and the trim of the words taken there (R191, R203, R212). -/
def Dev.latchFire (d : Dev) (t b c kind missing row : Nat) (pos : Int) : Fire :=
  let p := d.chanProg b c
  {
    row := row, ch := c, kind := kind, missing := missing, pos := pos, off := d.rdI (Reg.VB_CHc_OFF b c), tol := d.fld (Reg.VB_CHc_CFG b c) 15 4,
    trim := (d.jetSeen (some t) (16 * b + c)).1, gen := d.gen (.vb (Fin.ofNat 8 b)), entry := d.fld (Reg.LC_PGp_ENTRY b p) 11 0,
    imax := d.fld (Reg.LC_PGp_IMAX b p) 11 0, dur := d.fld (Reg.LC_PGp_DUR b p) 19 0, thr := d.fld (Reg.LC_PGp_DIP b p) 11 0, due := none, cause := 0 }

/-- Whether a bank makes fires: it is READY (R215, R223), and its engine works. -/
def Dev.bankReady (d : Dev) (b : Nat) : Bool := decide ((d.bank b).state = 2)
/-- The spare loads this bank's save area after a lace fault (R217). -/
def Dev.takingOver (d : Dev) (b : Nat) : Bool := decide (d.spare.bank = b) && !d.spare.handover && (decide (d.spare.state = 1) || d.spare.ready)

/-- The entry that a bank has frozen for row q. -/
def Dev.frozen (d : Dev) (b q : Nat) : Option Nat := ((d.bank b).look.find? (fun y => decide (y.1 = q))).map Prod.snd

/-- A fill that is not fired (R210 to R212): its record on channel n, fault 0x0007 limited by missing jet, and VB_CNT_FILLLOST. A bank on which
row q underran writes no record of it, and a FAULTED one none at all (R204, R215, log 169). -/
def Dev.loseFill (d : Dev) (t n j row : Nat) (pos : Int) : Dev :=
  let b := n / 16
  let silent := decide ((d.bank b).state = 3) || ((d.bank b).taken.isSome && (d.frozen b row).isNone)
  let d := if silent then d else d.dropRecord t b (d.latchFire t b (n % 16) 2 j row pos) 6
  let r := (d.bump (Reg.VB_CNT_FILLLOST b)).rowLimit (j / 16) (4096 + j)
  let d := r.2.flag (Reg.VB_FAULT b) 6
  if r.1 then d.fault t (uid 9 b (n % 16)) 0x0007 j else d

/-- A fire of a taken row joins those that wait to become due, or is dropped (R210). A bank that is not READY makes none, and a fill that it
should have made is not fired (R212). -/
def Dev.takeFire (d : Dev) (t b c kind missing row : Nat) (pos : Int) : Dev :=
  let f := d.latchFire t b c kind missing row pos
  let none_ := fun (_ : Unit) => if kind = 2 then d.loseFill t (16 * b + c) missing row pos else d
  if d.indep b = true ∧ (8 ≤ c ∨ d.chanCmd b c = true) then none_ ()
  else if d.takingOver b then d.dropFire t b f 5
  else if d.bankReady b = false then none_ ()
  else if d.chanOut b c then d.dropFire t b f 3
  else d.updBank b (fun x => { x with waiting := x.waiting ++ [f] })

/-- A neighbour's side of the compensation word is set. -/
def sideOk (w : Nat) (right : Bool) : Bool := nbit w (if right then 10 else 9)

/-- What resolving the fills of a row has done so far: fires by jet, kind and missing jet; jets that received a fill; fills not fired. -/
structure FillPlan where
  fires : List (Nat × Nat × Nat)
  got : List Nat
  lost : List (Nat × Nat)
  deriving DecidableEq, Repr

/-- Resolve one jet whose bit is set (R211). `ring` are the banks on the ring. A neighbour whose bank has no valid entry of row q is not free:
row q makes no fire there (R204). -/
def Dev.resolveJet (d : Dev) (m : Mem) (t : Nat) (ring : List Nat) (q j : Nat) (p : FillPlan) : Dev × FillPlan :=
  let b := j / 16
  let w := d.compWord m (some t) j
  if nbit w 8 = false then (d, { p with fires := p.fires ++ [(j, 0, 0)] })
  else
    let e := d.entryFrom m ((d.compTable (some t)).getD 0 + 64 * j)
    let s := SMap.get (0, false) (d.bank b).fillCount (j % 16)
    let i := s.1
    let put := fun (turn : Bool) => d.updBank b (fun x => { x with fillCount := SMap.set (0, false) x.fillCount (j % 16) (i + 1, turn) })
    let side := fun (right : Bool) => if right then e.right else e.left
    let free := fun (right : Bool) =>
      let n := side right
      sideOk w right && ring.contains (n / 16) && !p.got.contains n && match d.frozen (n / 16) q with
        | some bits => !nbit bits n
        | none => false
    if i % 2 ^ d.fld Reg.BV_WIN 14 12 = 0 then (put s.2, { p with fires := p.fires ++ [(j, 1, 0)] })
    else if sideOk w false = false ∧ sideOk w true = false then (put s.2, { p with fires := p.fires ++ [(j, 0, 0)] })
    else
      let first := s.2
      if free first then (put (!first), { p with fires := p.fires ++ [(side first, 2, j)], got := side first :: p.got })
      else if free (!first) then (put (!first), { p with fires := p.fires ++ [(side (!first), 2, j)], got := side (!first) :: p.got })
      else (put (!first), { p with lost := p.lost ++ [(side (if side first < 128 then first else !first), j)] })

/-- Fill of the jets of a bank as the words taken at this event have it: count and turn start anew where it goes from 0 to 1 (R211). -/
def Dev.noteFills (d : Dev) (t b : Nat) : Dev :=
  let on := (List.range 16).filter (fun c => (d.jetSeen (some t) (16 * b + c)).2)
  let x := d.bank b
  d.setBank b { x with
    fillOn := on
    fillCount := (on.filter (fun c => !x.fillOn.contains c)).foldl (fun f c => SMap.set (0, false) f c (0, false)) x.fillCount }

/-! ## The spare engine (R216 to R218) -/

/-- The code image in a save area (R247), by word address; read from the bytes that frame memory lists. -/
def codeImage (m : Mem) (base : Nat) : SMap Word :=
  m.frame.foldl (fun (c : SMap Word) p =>
    if base ≤ p.1 ∧ p.1 < base + 16384 then
      SMap.upd 0 c ((p.1 - base) / 4) (fun w => w ||| (BitVec.ofNat 32 p.2.toNat <<< (8 * ((p.1 - base) % 4))))
    else c) []

/-- The channel state in a save area (R247): tc, tb, tracked delay, and the limits word. -/
def saveChannels (m : Mem) (base : Nat) : List (Int × Int × Nat × Nat) :=
  (List.range 16).map (fun c =>
    let a := base + 0x4000 + 32 * c
    ((m.frameNat a 8 : Nat), (m.frameNat (a + 8) 8 : Nat), m.frameNat (a + 16) 4, m.frameNat (a + 20) 4))

/-- An engine reads the save area of bank b (R247, R387). -/
def Dev.readSave (d : Dev) (m : Mem) (t b : Nat) : Dev × Mem := d.unitRead m t 11 (d.rdN (Reg.LC_SAVE_BASE b)) 17408

/-- Another engine takes up the bank from what it loaded (R216, R247). -/
def Dev.takeUp (d : Dev) (b : Nat) : Dev :=
  let s := d.spare
  let d := d.updBank b (fun x => { x with code := s.code, loaded := true })
  (List.range 16).foldl (fun (d : Dev) c =>
    let k := d.chan b c
    let v := s.chans.getD c (0, 0, 0, 0)
    let d := d.setChan b c { k with coil := { k.coil with tc := v.1, tb := v.2.1, warn := nbit v.2.2.2 0, derate := nbit v.2.2.2 1, trip := nbit v.2.2.2 2 } }
    d.wrN (Reg.VB_CHc_OD b c) (v.2.2.1 % 2 ^ 20)) d

/-- No fire of the bank is waiting or active (R218). -/
def Dev.bankQuiet (d : Dev) (b : Nat) : Bool :=
  (d.bank b).waiting.isEmpty && (List.range 16).all (fun c => !(d.chan b c).active)

/-- A record of the spare engine carries unit 8 (R14, R221); the flags are the bank's and the spare's (R222, R223, log 81). -/
def Dev.spareFault (d : Dev) (t b code detail : Nat) : Dev :=
  ((d.flag (Reg.VB_FAULT b) (code - 1)).faultFlag t (uid 9 8 31) code detail Reg.VB_SP_FAULT (code - 5))

/-- At a take event: the spare serves after a takeover, or at the first quiet one it takes or returns the bank (R217, R218). -/
def Dev.spareSwitch (d : Dev) (t b : Nat) : Dev :=
  let s := d.spare
  if s.bank ≠ b then d
  else if s.ready = true ∧ s.handover = false then
    ((d.takeUp b).updBank b (fun x => { x with served := true, allOff := false })).updSpare (fun s => { s with ready := false })
  else if s.ready = true ∧ d.bankQuiet b = true then
    let d := ((d.takeUp b).updBank b (fun x => { x with served := true })).updSpare (fun s => { s with ready := false, state := 2 })
    d.spareFault t b 0x0006 1
  else if s.returning = true ∧ d.bankQuiet b = true then
    let d := ((d.takeUp b).updBank b (fun x => { x with served := false, engineFault := false })).updSpare (fun s => { s with returning := false, state := 0 })
    d.spareFault t b 0x0006 0
  else d

/-- The bank thread is due to start (R224): it starts, or one start is held. One that finds a start held is discarded, and the held one starts
with the next frame. -/
def Dev.startBankThread (d : Dev) (b : Nat) : Dev :=
  let x := d.bank b
  if d.bit (Reg.LC_CFG b) 24 = false ∨ x.engineOk = false then d
  else if (x.thread 16).run = .stopped ∧ x.heldStart = false then
    d.setThread b 16 { LaceThread.reset with pc := d.fld (Reg.LC_BANKPC b) 11 0, run := .ready }
  else d.setBank b { x with heldStart := true }

/-- BANK_OUT holds bank b, from the disarm that starts it to its end: the bank fires no row and is not armed (R445). -/
def Dev.bankOut (d : Dev) (b : Nat) : Bool :=
  d.slots.any (fun x => decide (x.2.kind = 10 ∧ x.2.target / 32 % 64 = b ∧ x.2.line = 1 ∧ (x.2.state = 2 ∨ x.2.state = 3)))

/-- What one bank does at its take event before the row's fires (R203, R204, R215, R217). -/
def Dev.takeRow (d : Dev) (t b q : Nat) : Dev :=
  let d := d.spareSwitch t b
  let x := d.bank b
  let ready := decide (x.state = 1) && x.armed && x.engineOk && !d.bankOut b
  let valid := x.look.any (fun y => decide (y.1 = q))
  let d := d.setBank b { x with
    state := if ready then 2 else x.state
    taken := some q
    rowsTaken := x.rowsTaken + 1
    under := !valid }
  let d := (d.noteFills t b).wrN (Reg.VB_TAKEN b) q
  let d := d.raise t (32 + b) q
  let d := if (d.bank b).state = 3 then d.bump (Reg.VB_CNT_FAULTROWS b) else d
  let d := if d.takingOver b then d.updSpare (fun s => { s with rowsLost := s.rowsLost + 1 }) else d
  let d := if valid then d
    else
      let d := d.bump (Reg.VB_CNT_UNDER b)
      if x.under then d.flag (Reg.VB_FAULT b) 0 else d.vbFault t b 31 0x0001 q
  d.startBankThread b

/-- The banks of one ring take row q together, each by the entry that it has frozen (R202, R211): `pos` is P(q). -/
def Dev.takeRing (d : Dev) (m : Mem) (t : Nat) (ring : List Nat) (q : Nat) (pos : Int) : Dev :=
  let d := ring.foldl (fun (d : Dev) b => d.takeRow t b q) d
  let asked := fun (j : Nat) => ring.contains (j / 16) && match d.frozen (j / 16) q with
    | some bits => nbit bits j
    | none => false
  let r := ((List.range 128).filter asked).foldl (fun (r : Dev × FillPlan) j => r.1.resolveJet m t ring q j r.2) (d, ⟨[], [], []⟩)
  let d := r.2.fires.foldl (fun (d : Dev) f => d.takeFire t (f.1 / 16) (f.1 % 16) f.2.1 f.2.2 q pos) r.1
  let d := r.2.lost.foldl (fun (d : Dev) f => d.loseFill t f.1 f.2 q pos) d
  ring.foldl (fun (d : Dev) b => d.updBank b (fun x => { x with
    look := x.look.filter (fun y => decide (q < y.1))
    missed := x.missed.filter (fun y => decide (q < y.1)) })) d

/-- The banks of one ring with bank b, of those that follow a generator. -/
def Dev.ringOf (d : Dev) (n b : Nat) : List Nat :=
  (List.range 8).filter (fun c => d.vbOn c && decide (d.ringRg c = n) && decide (d.rdN (Reg.VB_RING_BASE c) = d.rdN (Reg.VB_RING_BASE b)))

/-- VB_TAKE_EVENT (R203): row event `row` of generator n at position `at_`. Rings are taken in the order of their lowest bank. -/
def Dev.takeEvents (d : Dev) (m : Mem) (t n row : Nat) (at_ : Int) : Dev :=
  (List.range 8).foldl (fun (d : Dev) b =>
    if d.vbOn b = true ∧ d.ringRg b = n ∧ (d.ringOf n b).head? = some b then
      let adv := d.ringAdv b
      d.takeRing m t (d.ringOf n b) (row + adv) (at_ + (adv * d.rgPitch n : Nat))
    else d) d

/-! ## Pairs (R213, R214) -/

/-- The pair is owned by the shutter planner (R214). -/
def Dev.pairOwned (d : Dev) (b p : Nat) : Bool :=
  (List.range 8).any (fun h => d.ltOn h && d.ltBit h (Reg.LT_HDh_CFG h) 2 && decide (d.ltFld h (Reg.LT_HDh_SHUT h) 2 0 = b) && decide (d.ltFld h (Reg.LT_HDh_SHUT h) 5 3 = p))

/-- A close command to a pair (R213). -/
def Dev.pairClose (d : Dev) (b p : Nat) : Dev :=
  let x := d.pair b p
  if x.on then d
  else if (d.chan b p).command = true ∧ (d.chan b p).active = true then d.setPair b p { x with held := true }
  else d.setPair b p { x with close := true }

/-- A release command to a pair (R213, R235): its quench begins from the next boundary, which ends its HOLD and its dip window. -/
def Dev.pairRelease (d : Dev) (t b p : Nat) : Dev :=
  let x := d.pair b p
  if x.on then
    let d := d.holdEnds t b p
    let k := d.chan b p
    ((d.setPair b p { x with on := false }).setChan b p { k with
      released := true
      kind := 5
      watch := false
      quenchAt := if k.kind = 5 then k.quenchAt else some (t / 40 + 1) }).regate t b
  else d.setPair b p { x with close := false, held := false }

/-- Why a program's pair command is refused (fault 0x0009): owned, row mode, tripped. -/
def Dev.pairRefused (d : Dev) (b p : Nat) : Nat :=
  b2n (d.pairOwned b p) + 2 * b2n (!d.chanCmd b p) + 4 * b2n (d.chan b p).coil.trip

/-- A program's pair command (R213, R214) to the pairs of a mask. -/
def Dev.pairCommand (d : Dev) (t b mask : Nat) (f : Dev → Nat → Dev) (trips : Bool) : Dev :=
  (List.range 8).foldl (fun (d : Dev) p =>
    if nbit mask p = false then d
    else
      let why := d.pairRefused b p - (if trips then 0 else 4 * b2n (d.chan b p).coil.trip)
      if why ≠ 0 then d.vbFault t b p 0x0009 why else f d p) d

/-- VB_PAIR_CLOSE: the close waits where the bank is not yet READY (R213). -/
def Dev.vbPairClose (d : Dev) (t b mask : Nat) : Dev := d.pairCommand t b mask (fun d p => if d.vbOn b then d.pairClose b p else d) true
/-- VB_PAIR_RELEASE. -/
def Dev.vbPairRelease (d : Dev) (t b mask : Nat) : Dev := d.pairCommand t b mask (fun d p => d.pairRelease t b p) false

/-! ## Spare commands (R217, R218) -/

/-- The spare can take over from the faulted engine of a bank (R217). -/
def Dev.spareCan (d : Dev) (b : Nat) : Bool :=
  let x := d.bank b
  d.vbOn b && x.engineFault && !x.served && decide (x.state ≠ 3) && d.bit Reg.VB_SP_CFG b && decide (d.spare.state = 0) && d.spare.healthy

/-- SPARE_TAKEOVER (R217): the spare starts to load the save area of a bank whose engine has faulted. -/
def Dev.spareTakeover (d : Dev) (t b : Nat) : Dev :=
  if d.spareCan b then
    (((d.bankAllOff t b 5).updBank b (fun x => { x with allOff := true })).updSpare
      (fun s => { s with state := 1, bank := b, rowsLost := 0, handover := false, ready := false, returning := false }))
  else d

/-- SPARE_LOAD_DONE (R216 to R218): the load ends, or fails. -/
def Dev.spareLoadDone (d : Dev) (m : Mem) (t : Nat) (ok : Bool) : Dev :=
  let s := d.spare
  let b := s.bank
  if s.state ≠ 1 ∨ s.ready = true then d
  else if ok then
    let base := d.rdN (Reg.LC_SAVE_BASE b)
    let r := d.readSave m t b
    let d := r.1
    let m := r.2
    let d := d.updSpare (fun s => { s with
      code := codeImage m base
      chans := saveChannels m base
      ready := true
      state := if s.handover then 1 else 2 })
    if s.handover then d
    else (d.updBank b (fun x => { x with overflow := true })).spareFault t b 0x0005 s.rowsLost
  else
    let d := (d.updSpare (fun s => { s with state := 3, healthy := false })).flag Reg.VB_SP_FAULT 2
    if s.handover then d else d.bankFault t b 4

/-- SPARE_HANDOVER (R218): the spare loads a bank's save area in advance. -/
def Dev.spareHandover (d : Dev) (b : Nat) : Dev :=
  if d.spare.state = 0 ∧ d.spare.healthy = true ∧ d.vbOn b = true ∧ (d.bank b).state ≠ 3 then
    d.updSpare (fun s => { s with state := 1, bank := b, rowsLost := 0, handover := true, ready := false, returning := false })
  else d

/-- SPARE_RETURN (R218): the bank's own engine loads the save area, and takes the bank back at a quiet take event. -/
def Dev.spareReturn (d : Dev) (m : Mem) (t : Nat) : Dev :=
  if d.spare.state = 2 ∧ d.spare.ready = false then
    let base := d.rdN (Reg.LC_SAVE_BASE d.spare.bank)
    let r := d.readSave m t d.spare.bank
    let d := r.1
    let m := r.2
    d.updSpare (fun s => { s with
      code := codeImage m base
      chans := saveChannels m base
      returning := true })
  else d

/-- LACE_CODE_LOAD_DONE (R248): the load at the enable ends. -/
def Dev.codeLoadDone (d : Dev) (m : Mem) (t b : Nat) : Dev :=
  if d.vbOn b = true ∧ (d.bank b).loaded = false then
    let r := d.unitRead m t 11 (d.rdN (Reg.LC_SAVE_BASE b)) 16384
    r.1.updBank b (fun x => { x with code := codeImage r.2 (d.rdN (Reg.LC_SAVE_BASE b)), loaded := true })
  else d

/-- LACE_ENGINE_FAULT (R236): a code-memory parity error of the engine that serves the bank, its own or the spare, which is then faulted
(R223). Gates stay off until the spare or a bank fault takes over (R217). -/
def Dev.engineFault (d : Dev) (t b address : Nat) : Dev :=
  let x := d.bank b
  if d.vbOn b = true ∧ x.engineOk = true then
    let d := if x.served then d.updSpare (fun s => { s with state := 3, healthy := false, returning := false }) else d
    (d.updBank b (fun x => { x with engineFault := true, served := false })).lcFault t b 31 0x0010 address
  else d

/-- VB_BANK_FAULT (R215): cause 4 only where the engine has faulted and no spare takes over or can. -/
def Dev.vbBankFault (d : Dev) (t b cause : Nat) : Dev :=
  if cause = 4 ∧ ((d.bank b).engineOk = true ∨ (d.bank b).engineFault = false ∨ d.spareCan b = true ∨ d.takingOver b = true) then d
  else d.bankFault t b cause

/-! ## What a swap and a unit reset do (R219, R220) -/

/-- The live set of bank b has changed; `old` gives the words before. -/
def Dev.vbSwap (d : Dev) (t b : Nat) (old : Nat → Nat) : Dev :=
  let was := nbit (old (Reg.VB_CFG b)) 0
  let on := d.vbOn b
  let gave := !nbit (old (Reg.VB_CFG b)) 1 && decide ((d.bank b).state ≠ 3)
  let d := (List.range 16).foldl (fun (d : Dev) c =>
    let k := d.chan b c
    if d.bit (Reg.LC_CHc_CFG b c) 4 = false then d.setChan b c { k with coil := { k.coil with on := false, warn := false, derate := false, q := 0 } } else d) d
  let d := if on = true ∧ was = false then
    let x := d.bank b
    let d := d.setBank b { Bank.reset with state := 1, armed := x.armed, okAt := x.okAt, chans := x.chans, lastFrame := x.lastFrame, lastTick := x.lastTick, positions := x.positions, records := x.records, lost := x.lost, rowsTaken := x.rowsTaken, faultRows := x.faultRows, ambSeen := x.ambSeen, supply := x.supply, raised := x.raised }
    (List.range 16).foldl (fun (d : Dev) c => d.wrN (Reg.VB_CHc_OD b c) (d.rdN (Reg.VB_CHc_ODN b c))) d
  else if on = false ∧ was = true then
    let d := d.bankAllOff t b 3
    d.updBank b (fun x => { x with state := 0, look := [], missed := [], taken := none, loaded := false, engineFault := false, served := false })
  else d
  d.noteBank t b gave

/-- A unit reset of bank b (R220). -/
def Dev.vbUnitReset (d : Dev) (t b : Nat) : Dev :=
  let gave := d.bankGives b
  let d := d.bankAllOff t b 4
  (d.updBank b (fun x => { x with
    state := if d.vbOn b then 1 else 0
    look := []
    missed := []
    taken := none
    fillCount := []
    fillOn := [] })).noteBank t b gave

/-! ## Commands -/

def execVbRingFetch (b : Fin 8) (s : State) : Result := s.actMem (fun now m d => d.ringFetch m now.dtime b)
def execVbRingRefetch (b : Fin 8) (i : Fin 64) (s : State) : Result :=
  s.actDueWr 11 (fun _ d => d.refetchDue b i) (fun now m d => (d.fetchRow m now.dtime b (d.nextRowOf b + i), []))
def execVbPairClose (b : Fin 8) (mask : Byte) (s : State) : Result := s.act (fun now d => d.vbPairClose now.dtime b mask.toNat)
def execVbPairRelease (b : Fin 8) (mask : Byte) (s : State) : Result := s.act (fun now d => d.vbPairRelease now.dtime b mask.toNat)
def execSpareTakeover (b : Fin 8) (s : State) : Result := s.act (fun now d => d.spareTakeover now.dtime b)
def execSpareHandover (b : Fin 8) (s : State) : Result := s.act (fun _ d => d.spareHandover b)
def execSpareReturn (s : State) : Result := s.actMem (fun now m d => d.spareReturn m now.dtime)
def execLaceCodeLoadDone (b : Fin 8) (s : State) : Result := s.actMem (fun now m d => d.codeLoadDone m now.dtime b)
def execLaceEngineFault (b : Fin 8) (address : Fin 4096) (s : State) : Result := s.act (fun now d => d.engineFault now.dtime b address)

end Sys2Proof.Machine
end

