-- ==== Sys2Proof/Machine/Lace.lean ====
section
/-! DEFINITION. Machine/Lace.lean: the lace engines (09): stream filters, phases, the lace microcode, dip detection, lace frames, coil heat. -/
namespace Sys2Proof.Machine

/-- The current budget of a bank (R208). -/
def Dev.budget (d : Dev) (b : Nat) : Nat :=
  let lim := (d.blink b).limit
  let set := d.fld (Reg.VB_ILIM b) 15 0
  if set = 0 ∨ lim < set then lim else set

/-! ## Instructions (R232) -/

/-- A lace instruction; `bad` is a reserved encoding. -/
inductive LaceOp where
  | end_
  | phase (kind target band : Nat) (watch par : Bool)
  | wait (cond : Nat) (trim : Bool) (arg : Nat)
  | br (cond address : Nat)
  | ldi (rd : Nat) (imm : Int)
  | ldm (rd src channel : Nat)
  | alu (op rd rs : Nat)
  | stp (rs n channel : Nat)
  | sig (channel : Nat)
  | bad
  deriving DecidableEq, Repr

/-- Read an instruction word (R232). -/
def laceDecode (w : Nat) : LaceOp :=
  match nfld w 31 28 with
  | 0 => if nfld w 27 0 = 0 then .end_ else .bad
  | 1 => if 1 ≤ nfld w 27 25 ∧ nfld w 27 25 ≤ 5 ∧ nfld w 2 0 = 0 then .phase (nfld w 27 25) (nfld w 24 13) (nfld w 12 5) (nbit w 4) (nbit w 3) else .bad
  | 2 => if nfld w 27 25 ≤ 5 then .wait (nfld w 27 25) (nbit w 24) (nfld w 23 0) else .bad
  | 3 => if nfld w 27 24 ≤ 8 ∧ nfld w 23 12 = 0 then .br (nfld w 27 24) (nfld w 11 0) else .bad
  | 4 => if nfld w 25 24 = 0 then .ldi (nfld w 27 26) (sgn 24 (nfld w 23 0)) else .bad
  | 5 => if nfld w 25 22 ≤ 11 ∧ nfld w 21 5 = 0 then .ldm (nfld w 27 26) (nfld w 25 22) (nfld w 4 0) else .bad
  | 6 => if nfld w 23 20 ≤ 6 ∧ nfld w 19 0 = 0 then .alu (nfld w 23 20) (nfld w 27 26) (nfld w 25 24) else .bad
  | 7 => if nfld w 23 5 = 0 then .stp (nfld w 27 26) (nfld w 25 24) (nfld w 4 0) else .bad
  | 8 => if nfld w 27 5 = 0 then .sig (nfld w 4 0) else .bad
  | _ => .bad

/-- Saturate to 24 bits (R232). -/
def sat24 (v : Int) : Int := clampI (-8388608) 8388607 v

def LaceThread.reg (x : LaceThread) (i : Nat) : Int := x.a.getD i 0
def LaceThread.setReg (x : LaceThread) (i : Nat) (v : Int) : LaceThread := { x with a := x.a.set i v }
def LaceThread.flags (x : LaceThread) (v : Int) : LaceThread := { x with z := decide (v = 0), n := decide (v < 0) }
/-- The thread goes on at the next word. -/
def LaceThread.step (x : LaceThread) : LaceThread := { x with pc := (x.pc + 1) % 4096 }

/-! ## Phases (R229 to R231) -/

/-- Parameter n of a channel (R234). -/
def Dev.chanPar (d : Dev) (b c n : Nat) : Nat :=
  let r := if n < 2 then Reg.LC_CHc_PAR01 b c else Reg.LC_CHc_PAR23 b c
  if n % 2 = 0 then d.fld r 15 0 else d.fld r 31 16

/-- imax of the program that a channel runs (R231). -/
def Dev.chanImax (d : Dev) (b c : Nat) : Nat := match (d.chan b c).run with
  | some r => r.fire.imax
  | none => d.fld (Reg.LC_PGp_IMAX b (d.chanProg b c)) 11 0

/-- The boost phase of the token holder ends at boundary time e: the guard begins (R207). -/
def Dev.boostEnds (d : Dev) (b c e : Nat) : Dev :=
  let x := d.bank b
  match x.token with
  | some (h, none) => if h = c then d.setBank b { x with token := some (c, some (e + d.fld (Reg.VB_SLOT b) 31 16)) } else d
  | _ => d

/-- The channel enters a phase from boundary `next` (R229). -/
def Dev.enterPhase (d : Dev) (t b c kind target band : Nat) (watch : Bool) (next : Nat) : Dev :=
  let d := if (d.chan b c).kind = 4 then d.holdEnds t b c else d
  let d := if (d.chan b c).kind = 1 ∧ kind ≠ 1 then d.boostEnds b c (40 * next) else d
  let k := d.chan b c
  d.setChan b c { k with
    kind := kind
    target := target
    band := band
    watch := watch
    quenchAt := if kind = 5 ∧ k.kind ≠ 5 then some next else k.quenchAt
    coil := if kind = 4 then { k.coil with age := 0, n := 0, onCount := 0, sumV := 0, sumI := 0 } else k.coil }

/-! ## Errors and cuts (R236) -/

/-- A program error record, with LC_ERRPC (R249, R250). -/
def Dev.laceError (d : Dev) (t b th address kind : Nat) : Dev :=
  (d.wrN (Reg.LC_ERRPC b) (address + 4096 * kind + 65536 * th)).lcLimited t b (if th < 16 then th else 31) 0x0014 (address + 4096 * kind)

/-- The engine stops a channel's thread and puts the channel into QUENCH from the next boundary. -/
def Dev.quenchNow (d : Dev) (t b c : Nat) : Dev :=
  let d := d.enterPhase t b c 5 0 0 false (t / 40 + 1)
  d.setThread b c { d.thread b c with run := .stopped, carried := false }

/-- A channel's fire is cut with a cause (R236, R243). -/
def Dev.cutFire (d : Dev) (t b c cause : Nat) : Dev :=
  let made := (d.chan b c).run.isSome && !(d.chan b c).command
  let d := (d.quenchNow t b c).closeRun b c cause
  if made then d.bump (Reg.LC_CNT_CUT b) else d

/-- A program error of a thread: a channel thread's fire is cut, the bank thread stops (R236). -/
def Dev.programError (d : Dev) (t b th address kind : Nat) : Dev :=
  let d := d.laceError t b th address kind
  if th < 16 then d.cutFire t b th 7 else d.setThread b 16 { d.thread b 16 with run := .stopped, carried := false }

/-! ## What each instruction does (R232 to R235). Each takes the thread with its counter still at the instruction. -/

/-- END (R232, R235, R236, R240). -/
def Dev.laceEnd (d : Dev) (t b th : Nat) : Dev :=
  let x := d.thread b th
  let d := d.setThread b th { x with run := .stopped, carried := false }
  if 16 ≤ th then d
  else
    let k := d.chan b th
    if k.command then d
    else
      let late := decide (k.kind ≠ 5) && k.quenchAt.isNone
      if late then
        let d := (d.setChan b th { k with run := k.run.map (fun r => { r with lateQuench := true }) }).laceError t b th x.pc 6
        (d.quenchNow t b th).closeRun b th 0
      else d.closeRun b th 0

/-- PHASE (R229 to R231, R235). -/
def Dev.lacePhase (d : Dev) (t b th kind target band : Nat) (watch par : Bool) : Dev :=
  let x := d.thread b th
  if 16 ≤ th ∨ kind = 0 ∨ 5 < kind then d.programError t b th x.pc 1
  else
    let d' := d.setThread b th x.step
    let k := d.chan b th
    if k.command = true ∧ k.released = true ∧ kind ≠ 5 then d'
    else
      let d' := if kind = 1 then d'.laceError t b th x.pc 3 else d'
      let kind := if kind = 1 then 2 else kind
      let want := if par then d.chanPar b th (target % 4) % 4096 else target
      let imax := d.chanImax b th
      let d' := if imax < want then d'.bump (Reg.LC_CNT_CLAMP b) else d'
      d'.enterPhase t b th kind (min want imax) band watch (t / 40 + 1)

/-- The trim that a channel's program runs with (R233): that of its fire. -/
def Dev.runTrim (d : Dev) (b c : Nat) : Int := match (d.chan b c).run with
  | some r => r.fire.trim
  | none => 0

/-- WAIT (R233). -/
def Dev.laceWait (d : Dev) (t b th cond : Nat) (trim : Bool) (arg : Nat) : Dev :=
  let x := d.thread b th
  if 5 < cond ∨ (16 ≤ th ∧ cond ≠ 0) then d.programError t b th x.pc 1
  else
    let k := (d.bank b).frame
    let frames := if trim then (sar ((arg : Int) * (256 + d.runTrim b th) + 128) 8).toNat else arg
    let run := if cond = 0 then LaceRun.wait 0 0 (k + 1 + frames) 0 k
      else .wait cond (nfld arg 23 12) 0 (if nfld arg 11 0 = 0 then 0 else k + 1 + nfld arg 11 0) k
    let d := d.setThread b th { x.step with run := run, since := 0, carried := false }
    if cond = 5 then d.setChan b th { d.chan b th with signal := false } else d

/-- Whether the condition of BR holds (R232). -/
def Dev.laceCond (d : Dev) (b th cond : Nat) : Bool :=
  let x := d.thread b th
  let k := d.chan b th
  match cond with
  | 0 => true
  | 1 => x.t
  | 2 => !x.t
  | 3 => k.dip.found.isSome
  | 4 => !k.dip.found.isSome
  | 5 => k.coil.derate
  | 6 => k.released
  | 7 => x.z
  | _ => x.n

/-- BR (R232). -/
def Dev.laceBr (d : Dev) (t b th cond address : Nat) : Dev :=
  let x := d.thread b th
  if 8 < cond ∨ (16 ≤ th ∧ 3 ≤ cond ∧ cond ≤ 6) then d.programError t b th x.pc 1
  else d.setThread b th (if d.laceCond b th cond then { x with pc := address } else x.step)

/-- LDI (R232). -/
def Dev.laceLdi (d : Dev) (b th rd : Nat) (imm : Int) : Dev :=
  let x := d.thread b th
  d.setThread b th (x.step.setReg rd imm)

/-- A source of LDM (R232). -/
def Dev.laceSource (d : Dev) (b c src : Nat) : Int :=
  let x := d.bank b
  match src with
  | 0 => d.fast b c
  | 1 => d.fine b c
  | 2 => fastOf x.supply
  | 3 => fastOf x.raised
  | 4 => sar (d.chan b c).coil.tc 26
  | 5 => d.chanOd b c
  | 6 => d.runTrim b c
  | 7 => (d.chan b c).coil.res
  | _ => d.chanPar b c (src - 8)

/-- LDM (R232). A channel above 15 exists in no bank: its value is free. -/
def Dev.laceLdm (d : Dev) (t b th rd src channel : Nat) : Dev :=
  let x := d.thread b th
  if 11 < src then d.programError t b th x.pc 1
  else
    let c := if th < 16 then th else channel
    if c < 16 then d.setThread b th (x.step.setReg rd (sat24 (d.laceSource b c src)))
    else
      let f := d.fresh
      f.2.setThread b th (x.step.setReg rd (sgn 24 f.1))

/-- ALU: the result goes to rd but for a compare, and sets Z and N (R232). -/
def Dev.laceAlu (d : Dev) (b th rd rs : Nat) (f : Int → Int → Int) (store : Bool) : Dev :=
  let x := d.thread b th
  let v := sat24 (f (x.reg rd) (x.reg rs))
  let y := x.step.flags v
  d.setThread b th (if store then y.setReg rd v else y)

/-- The function of an ALU operation (R232). -/
def laceAluFn (op : Nat) (a b : Int) : Int :=
  match op with
  | 0 => a + b
  | 1 => a - b
  | 2 => sar (a * b) 12
  | 3 => min a b
  | 4 => max a b
  | 5 => a - b
  | _ => b

/-- STP (R234). -/
def Dev.laceStp (d : Dev) (b th rs n channel : Nat) : Dev :=
  let x := d.thread b th
  let c := if th < 16 then th else channel
  let v := unsgn 16 (x.reg rs)
  let d := d.setThread b th x.step
  if c < 16 then
    let r := if n < 2 then Reg.LC_CHc_PAR01 b c else Reg.LC_CHc_PAR23 b c
    if n % 2 = 0 then d.putFld r 15 0 v else d.putFld r 31 16 v
  else d

/-- SIG (R232): the bank thread only. -/
def Dev.laceSig (d : Dev) (t b th channel : Nat) : Dev :=
  let x := d.thread b th
  if th < 16 then d.programError t b th x.pc 1
  else
    let d := d.setThread b th x.step
    if channel < 16 then d.setChan b channel { d.chan b channel with signal := true } else d

/-- An instruction of a thread. -/
def Dev.laceDo (d : Dev) (t b th : Nat) : LaceOp → Dev
  | .end_ => d.laceEnd t b th
  | .phase kind target band watch par => d.lacePhase t b th kind target band watch par
  | .wait cond trim arg => d.laceWait t b th cond trim arg
  | .br cond address => d.laceBr t b th cond address
  | .ldi rd imm => d.laceLdi b th rd imm
  | .ldm rd src channel => d.laceLdm t b th rd src channel
  | .alu op rd rs => d.laceAlu b th rd rs (laceAluFn op) (decide (op ≠ 5))
  | .stp rs n channel => d.laceStp b th rs n channel
  | .sig channel => d.laceSig t b th channel
  | .bad => d.programError t b th (d.thread b th).pc 1

/-- A run of 64 instructions without a WAIT cuts the fire or stops the bank thread (R236). -/
def Dev.laceCount (d : Dev) (t b th address : Nat) : Dev :=
  let x := d.thread b th
  if x.run = .ready then
    if 63 ≤ x.since then d.programError t b th address 4 else d.setThread b th { x with since := x.since + 1 }
  else d

/-- One instruction of a thread, counted. -/
def Dev.laceStep (d : Dev) (t b th : Nat) (op : LaceOp) : Dev :=
  let address := (d.thread b th).pc
  (d.laceDo t b th op).laceCount t b th address

/-- A lace instruction as a command: where the thread is ready and its engine works (log 80). -/
def Dev.laceRow (d : Dev) (t b th : Nat) (op : LaceOp) : Dev :=
  if d.vbOn b = true ∧ (d.bank b).engineOk = true ∧ (d.thread b th).run = .ready then (d.laceStep t b th op).regate t b else d

/-! ## The frame cycle (R225) -/

/-- The next boundary of a bank: the first DTIME multiple of 40 that its engine has not had (R199, R225). -/
def Dev.nextBoundary (d : Dev) (now b : Nat) : Nat :=
  let c := (now + 39) / 40 * 40
  let l := (d.bank b).lastFrame
  if c ≤ l then l + 40 else c

/-- A thread's wait at boundary k (R233): ended or not, and T. -/
def Dev.waitEnds (d : Dev) (b th k : Nat) : Option Bool :=
  match (d.thread b th).run with
  | .wait cond level until_ limit _ =>
    let c := d.chan b th
    let holds := match cond with
      | 0 => decide (until_ ≤ k)
      | 1 => decide (level ≤ d.fast b th)
      | 2 => decide (d.fast b th ≤ level)
      | 3 => c.dip.found.isSome
      | 4 => c.released
      | _ => c.signal
    if holds then some false else if limit ≠ 0 ∧ limit ≤ k then some true else none
  | _ => none

/-- Step 1: waits end (R233), and a held start of the bank thread begins (R224). -/
def Dev.laceWaits (d : Dev) (b k : Nat) : Dev :=
  let d := (List.range 17).foldl (fun (d : Dev) th =>
    match d.waitEnds b th k with
    | some t => d.setThread b th { d.thread b th with run := .ready, t := t }
    | none => d) d
  let x := d.bank b
  if x.heldStart = true ∧ (x.thread 16).run = .stopped then (d.updBank b (fun x => { x with heldStart := false })).startBankThread b else d

/-- A thread runs up to n instructions; what is left of the lace cycles. -/
def Dev.laceRun (d : Dev) (t b th : Nat) : Nat → Nat → Dev × Nat
  | 0, left => (d, left)
  | _, 0 => (d, 0)
  | n + 1, left + 1 =>
    let x := d.thread b th
    if x.run = .ready then (d.laceStep t b th (laceDecode (SMap.get 0 (d.bank b).code x.pc).toNat)).laceRun t b th n left else (d, left + 1)

/-- Step 2: ready threads run in 16 lace cycles, those carried over first (R225). -/
def Dev.laceThreads (d : Dev) (t b : Nat) : Dev :=
  let order := [16] ++ List.range 16
  let ready := order.filter (fun th => decide ((d.thread b th).run = .ready))
  let first := ready.filter (fun th => (d.thread b th).carried)
  let then_ := ready.filter (fun th => !(d.thread b th).carried)
  let r := (first ++ then_).foldl (fun (r : Dev × Nat) th =>
    let x := r.1.thread b th
    let q := (r.1.setThread b th { x with carried := false }).laceRun t b th 8 r.2
    if (q.1.thread b th).run = .ready then
      ((q.1.setThread b th { q.1.thread b th with carried := true }).bump (Reg.LC_CNT_DEFER b), q.2)
    else q) (d, 16)
  r.1

/-- Dip detection at a completed fine sample (R237). -/
def DipState.sample (x : DipState) (t f thr : Nat) : DipState :=
  if x.found.isSome then x
  else if x.armed = false then
    let x := if x.p < f then { x with p := f, tp := t } else x
    if f + thr < x.p then { x with armed := true, m := f, tm := t } else x
  else
    let x := if f < x.m then { x with m := f, tm := t } else x
    if x.m + thr / 2 ≤ f then { x with found := some (x.p - x.m, x.tm) } else x

/-- The dip window opens and closes with the phase (R237). -/
def DipState.window (x : DipState) (open_ : Bool) : DipState :=
  if open_ = true ∧ x.open_ = false then
    (if x.found.isSome then { x with open_ := true } else { DipState.reset with open_ := true })
  else if open_ = false ∧ x.open_ = true then
    (if x.found.isNone ∧ x.armed = true then { x with open_ := false, found := some (x.p - x.m, x.tm) } else { x with open_ := false })
  else x

/-- The threshold of a channel's program. -/
def Dev.chanThr (d : Dev) (b c : Nat) : Nat := match (d.chan b c).run with
  | some r => r.fire.thr
  | none => d.fld (Reg.LC_PGp_DIP b (d.chanProg b c)) 11 0

/-- The effective target of a channel: a derated HOLD is limited to hold_min (R243). -/
def Dev.chanTarget (d : Dev) (b c : Nat) : Nat :=
  let k := d.chan b c
  if k.kind = 4 ∧ k.coil.derate = true then min k.target (d.holdMin b c) else k.target

/-- What boundary time t brings to a channel before its thread runs: regulation, dip detection, sums (R229, R237, R241, R244). -/
def Dev.chanBoundary (d : Dev) (now : Now) (t b c : Nat) (boost : Bool) : Dev :=
  let k := d.chan b c
  let f := d.fast b c
  let target := d.chanTarget b c
  let regulated := decide (k.kind = 1 ∨ k.kind = 2 ∨ k.kind = 4)
  let sw := if regulated then (if target + k.band ≤ f then false else if f + k.band ≤ target then true else k.sw) else k.sw
  let open_ := k.watch && k.active
  let dip := k.dip.window open_
  let fine := decide (t % 640 = 0)
  let g := d.fine b c
  let dip := if fine = true ∧ open_ = true then dip.sample t g (d.chanThr b c) else dip
  let d := if dip.open_ then d else d.lateWindow b c
  let run := k.run.map (fun r =>
    let r := if r.start = t then { r with wpos := now.wpos, v := d.rdI Reg.WP_SPEED, od := d.chanOd b c } else r
    { r with
      deposit := if r.deposit.isSome = true ∨ dip.found.isNone = true then r.deposit
        else some (depositOf r (d.bank b).positions (d.fld (Reg.LC_CFG b) 15 4) dip.found)
      derated := r.derated || k.coil.derate
      hiFine := if fine then max r.hiFine g else r.hiFine })
  let q := k.coil
  let counted := decide (k.kind = 4) && d.bit (Reg.LC_CHc_CFG b c) 5
  let settled := decide (nfld (d.rdN (Reg.LC_RCHK b)) 27 16 ≤ q.age) && !boost
  let q := if counted then { q with age := q.age + 1 } else q
  let q := if counted = true ∧ settled = true then
      { q with n := q.n + 1, onCount := q.onCount + b2n sw, sumV := q.sumV + fastOf (d.bank b).supply, sumI := q.sumI + f }
    else q
  let q := if d.bit (Reg.LC_CHc_CFG b c) 4 = true ∧ (d.blink b).desc.isSome = true then { q with q := q.q + f * f } else q
  d.setChan b c { k with sw := sw, dip := dip, watched := k.watched || open_, noDip := k.noDip && dip.open_, run := run, coil := q }

/-! ### Due fires (R205 to R208) -/

/-- The quantities of R205 at an evaluation: v, ext. -/
def Dev.dueView (d : Dev) (now : Now) (dtime : Nat) : Int × Int :=
  let v := max (d.rdI Reg.WP_SPEED) 0
  let step := sar ((now.frac : Int) + d.rdN (Reg.WP_ENCn_SCALE d.source)) 12
  (v, min (sar (v * ((dtime : Int) - d.web.slip.lastCount)) 16) step)

/-- The lead of a channel (R205). -/
def Dev.leadOf (d : Dev) (b c : Nat) (v : Int) : Int := sar (((min (d.chanOd b c) (d.fld (Reg.VB_ODMAX b) 19 0) : Nat) : Int) * v) 16

/-- The due test of R205. -/
def Dev.isDue (d : Dev) (now : Now) (b : Nat) (ve : Int × Int) (f : Fire) : Bool :=
  decide (f.pos + f.off ≤ now.wpos + ve.2 + d.leadOf b f.ch ve.1)

/-- The drop test of R205. -/
def Dev.isLate (d : Dev) (now : Now) (b : Nat) (ve : Int × Int) (f : Fire) : Bool :=
  decide (f.pos + f.off - d.leadOf b f.ch ve.1 + 16 * f.tol ≤ now.wpos + ve.2)

/-- What counts against the budget (R208): the declared maximum of every channel from its start until its quench begins. -/
def Dev.budgetUsed (d : Dev) (b : Nat) : Nat :=
  ((List.range 16).map (fun c =>
    let k := d.chan b c
    if k.active = true ∧ k.quenchAt.isNone = true then d.chanImax b c else 0)).sum

/-- A program's first instruction as a started fire uses it (R226): its phase, or the kind of program error. -/
def Bank.firstPhase (x : Bank) (entry : Nat) : Nat × Option (Nat × Nat × Nat × Bool × Bool) :=
  let w := (SMap.get 0 x.code entry).toNat
  match laceDecode w with
  | .phase kind target band watch par => (0, some (kind, target, band, watch, par))
  | _ => (if nfld w 31 28 = 1 then 1 else 2, none)

/-- The token is free for a start at time t (R207). -/
def Bank.tokenFree (x : Bank) (t : Nat) : Bool := match x.token with
  | none => true
  | some (_, none) => false
  | some (_, some e) => decide (e ≤ t)

/-- Start a program on a channel from boundary time t (R226, R229): its first phase applies at once. -/
def Dev.startProgram (d : Dev) (t b c : Nat) (r : Run) (command : Bool) (ph : Nat × Nat × Nat × Bool × Bool) : Dev :=
  let k := d.chan b c
  let kind := if ph.1 = 1 ∧ d.indep b = true then 2 else ph.1
  let want := if ph.2.2.2.2 then d.chanPar b c (ph.2.1 % 4) % 4096 else ph.2.1
  let d := if r.fire.imax < want then d.bump (Reg.LC_CNT_CLAMP b) else d
  let d := d.setChan b c { Chan.reset with
    kind := kind
    target := min want r.fire.imax
    band := ph.2.2.1
    watch := ph.2.2.2.1
    sw := true
    bits := k.bits
    quenchAt := if kind = 5 then some (t / 40) else none
    boostFrom := if kind = 1 then some t else none
    run := some r
    command := command
    odRej := k.odRej
    coil := { k.coil with age := 0, n := 0, onCount := 0, sumV := 0, sumI := 0 } }
  let d := d.setThread b c { LaceThread.reset with pc := (r.fire.entry + 1) % 4096, run := .ready }
  if kind = 1 then d.updBank b (fun x => { x with token := some (c, none) }) else d

/-- The wait of a fire ends (R206, R222). -/
def Dev.noteWait (d : Dev) (b t : Nat) (f : Fire) : Dev :=
  match f.due with
  | some e => if e < t then d.wrN (Reg.VB_WAITMAX b) (max (d.rdN (Reg.VB_WAITMAX b)) (min (2 ^ 24 - 1) (t - e))) else d
  | none => d

/-- Insert a fire in the order of service: by due frame, then by channel (R206). -/
def serveBefore (f g : Fire) : Bool := decide (f.due.getD 0 < g.due.getD 0) || (decide (f.due = g.due) && decide (f.ch < g.ch))
def insertFire (f : Fire) : List Fire → List Fire
  | [] => [f]
  | g :: gs => if serveBefore f g then f :: g :: gs else g :: insertFire f gs

/-- What a due fire waits for at a start at time t: 0 it may start, 1 the token, 2 the budget. -/
def Dev.waitsFor (d : Dev) (t b : Nat) (f : Fire) : Nat :=
  let x := d.bank b
  let boost := match (x.firstPhase f.entry).2 with
    | some ph => decide (ph.1 = 1) && !d.indep b
    | none => false
  if (boost = true ∧ x.tokenFree t = false) ∨ (d.chan b f.ch).active = true then 1
  else if d.budget b < d.budgetUsed b + f.imax then 2
  else 0

/-- Serve the due fires in order (R206): `block` is what the fire ahead waits for. -/
def Dev.serveFires (d : Dev) (now : Now) (t b : Nat) (ve : Int × Int) (block : Nat) : List Fire → Dev × List Fire
  | [] => (d, [])
  | f :: fs =>
    let eval := t - 8
    let waited := match f.due with
      | some e => decide (e < t)
      | none => false
    if (d.chan b f.ch).coil.trip = true ∨ ((d.chan b f.ch).coil.derate = true ∧ d.holdMin b f.ch = 0) then
      ((d.noteWait b t f).dropFire eval b f 3).serveFires now t b ve block fs
    else if waited = true ∧ d.isLate now b ve f = true then
      let cause := max 1 f.cause
      let d := (d.noteWait b t f).dropFire eval b f cause
      (d.vbLimited eval b f.ch (cause + 1) f.row (32 * (cause + 1) + f.ch)).serveFires now t b ve block fs
    else
      let why := let w := d.waitsFor t b f; if w = 0 then block else w
      if why = 0 then
        match ((d.bank b).firstPhase f.entry) with
        | (kind, none) => (((d.noteWait b t f).dropFire eval b f 7).laceError eval b f.ch f.entry kind).serveFires now t b ve 0 fs
        | (_, some ph) =>
          let d := d.noteWait b t f
          let d := if f.kind = 2 then d.bump (Reg.VB_CNT_FILL b) else d
          let run : Run := ⟨f, t, now.wpos, d.rdI Reg.WP_SPEED, d.chanOd b f.ch, false, false, false, 0, none⟩
          (d.startProgram t b f.ch run false ph).serveFires now t b ve 0 fs
      else
        let d := if waited then d else d.bump (Reg.VB_CNT_COLL b)
        let q := d.serveFires now t b ve why fs
        (q.1, { f with cause := why } :: q.2)

/-- A command-mode pair that waits to turn on (R208, R213). -/
def Dev.startPair (d : Dev) (now : Now) (t b p : Nat) : Dev :=
  let x := d.pair b p
  if x.close = false ∨ (d.chan b p).active = true ∨ (d.chan b p).coil.trip = true then d
  else
    let f := d.latchFire t b p 0 0 0 0
    if d.budget b < d.budgetUsed b + f.imax then d
    else
      match ((d.bank b).firstPhase f.entry) with
      | (kind, none) => (d.setPair b p { x with close := false }).laceError (t - 8) b p f.entry kind
      | (_, some ph) =>
        let run : Run := ⟨f, t, now.wpos, d.rdI Reg.WP_SPEED, d.chanOd b p, false, false, false, 0, none⟩
        (d.setPair b p ⟨true, false, false⟩).startProgram t b p run true ph

/-- Step 3: due fires and waiting pairs, for a start at boundary time t (R205, R206, R213). -/
def Dev.laceDue (d : Dev) (now : Now) (t b : Nat) : Dev :=
  let ve := d.dueView now (t - 8)
  let fires := (d.bank b).waiting.map (fun f => if f.due = none ∧ d.isDue now b ve f = true then { f with due := some t } else f)
  let due := (fires.filter (fun f => f.due.isSome)).foldl (fun l f => insertFire f l) []
  let rest := fires.filter (fun f => f.due.isNone)
  let q := (d.updBank b (fun x => { x with waiting := rest })).serveFires now t b ve 0 due
  let d := q.1.updBank b (fun x => { x with waiting := q.2 ++ x.waiting })
  (List.range 8).foldl (fun (d : Dev) p => d.startPair now t b p) d

/-- A channel in FREE keeps as its switch what its gate does in the frame formed; in QUENCH, and idle, its switch is off (R229). -/
def Dev.keepSwitches (d : Dev) (b : Nat) : Dev :=
  (List.range 16).foldl (fun (d : Dev) c =>
    let k := d.chan b c
    if k.kind = 0 ∨ k.kind = 3 ∨ k.kind = 5 then d.setChan b c { k with sw := d.gateOn b c } else d) d

/-- Whether a channel whose thread has ended leaves QUENCH at boundary k: at zero current, or after 1,024 frames (R236). -/
def Dev.quenchOver (d : Dev) (b c k : Nat) : Bool :=
  let x := d.chan b c
  decide (x.kind = 5) && decide ((d.thread b c).run = .stopped) && (!x.command || x.released || !(d.pair b c).on) && match x.quenchAt with
    | some q => decide (q ≤ k) && (decide (d.fast b c = 0) || decide (q + 1024 ≤ k))
    | none => false

/-- A channel whose quench is over at boundary k becomes idle (R236), and a pair's held close waits again (R213). -/
def Dev.quenchEnd (d : Dev) (b c k : Nat) : Dev :=
  if d.quenchOver b c k then
    let x := d.chan b c
    let d := (d.lateWindow b c).setChan b c { Chan.reset with bits := x.bits, odRej := x.odRej, coil := x.coil }
    if x.command then
      let p := d.pair b c
      d.setPair b c ⟨false, p.close || p.held, false⟩
    else d
  else d

/-- LACE_FRAME (R225): the frame that begins at the clock's time. A quench that ends at its boundary ends before the frame's work (log 207). -/
def Dev.laceFrame (d : Dev) (now : Now) (b : Nat) : Dev :=
  let t := now.dtime
  let boost := nbit (d.bank b).gates 16 && !d.indep b
  let d := d.updBank b (fun x => { x with lastFrame := t, positions := ((t, now.wpos) :: x.positions).take 64 })
  let d := (List.range 16).foldl (fun (d : Dev) c => d.quenchEnd b c (t / 40)) d
  let d := (List.range 16).foldl (fun (d : Dev) c => d.chanBoundary now t b c boost) d
  let d := if (d.bank b).engineOk = true ∧ (d.bank b).allOff = false then (d.laceWaits b (t / 40)).laceThreads t b else d
  let d := if d.bankReady b = true ∧ (d.bank b).allOff = false ∧ (d.bank b).engineOk = true then d.laceDue now (t + 40) b else d
  (d.laceGates (t + 40) b false).keepSwitches b

/-! ## Events of a channel (R230, R236) -/

/-- When a boost phase reaches slot − guard (R230). -/
def Dev.boostCutDue (d : Dev) (b : Nat) : Option Nat :=
  match (d.bank b).token with
  | some (c, none) =>
    let k := d.chan b c
    if k.kind = 1 then k.boostFrom.map (fun t => t + (d.fld (Reg.VB_SLOT b) 15 0 - d.fld (Reg.VB_SLOT b) 31 16)) else none
  | _ => none

/-- BOOST_CUT (R230). -/
def Dev.boostCut (d : Dev) (t b : Nat) : Dev :=
  match (d.bank b).token with
  | some (c, none) =>
    let k := d.chan b c
    let x := d.thread b c
    let d := d.setChan b c { k with kind := 2, run := k.run.map (fun r => { r with boostCut := true }) }
    let d := d.boostEnds b c t
    match x.run with
    | .wait .. => d.setThread b c { x with run := .ready, t := true }
    | _ => d
  | _ => d

/-- When a fire has not entered QUENCH within its program's frames (R236). -/
def Dev.durationDue (d : Dev) (b c : Nat) : Option Nat :=
  let k := d.chan b c
  match k.run with
  | some r => if k.command = true ∨ k.quenchAt.isSome = true then none else some (r.start + 40 * r.fire.dur)
  | none => none

/-- FIRE_DURATION_LIMIT (R236). -/
def Dev.durationLimit (d : Dev) (t b c : Nat) : Dev := ((d.laceError t b c (d.thread b c).pc 5).cutFire t b c 7).regate t b

/-! ## Coil heat (R241 to R243) -/

/-- The resistance of a coil at t20, Q10.6 K above 293.15 K (R241). -/
def coilRes (res20 : Nat) (t20 : Int) : Int := max (res20 + sar ((res20 : Int) * 65934 * t20) 30) 1

/-- The ambient of a tick (R242): its value, and whether it is the fallback. -/
def Dev.ambient (d : Dev) (t b : Nat) : Nat × Bool :=
  let c := d.rdN (Reg.LC_AMB b)
  match (if nbit c 4 then d.probeValue t (nfld c 3 0) else none) with
  | some v => (v, false)
  | none => (nfld c 31 16, true)

/-- One update of the model (R241). `s2` is none while the link holds no descriptor. -/
def Coil.update (q : Coil) (res20 hc acb abc aba s2 amb : Nat) : Coil :=
  let ta : Int := (amb * 2 ^ 26 : Nat)
  let q := if q.on then q else { q with on := true, tc := ta, tb := ta, res := coilRes res20 ((amb : Int) - 18762) }
  let e := (q.q * s2 : Int) * q.res / (65536 * 10 ^ 10)
  let dcb := q.tc - q.tb
  let dba := q.tb - ta
  let tc := clampI 0 (2 ^ 42 - 1) (q.tc + e * hc - sar (dcb * acb) 24)
  let tb := clampI 0 (2 ^ 42 - 1) (q.tb + sar (dcb * abc) 24 - sar (dba * aba) 24)
  { q with tc := tc, tb := tb, res := coilRes res20 (sar tc 26 - 18762), q := 0 }

/-- The limits of a coil (R243): a level entered and left. -/
def levelNow (was : Bool) (tc limit hyst : Int) : Bool := if was then decide (limit - hyst ≤ tc) else decide (limit ≤ tc)

/-- Compare a coil with its limits (R243). -/
def Dev.coilLimits (d : Dev) (t b c : Nat) : Dev :=
  let k := d.chan b c
  let q := k.coil
  let tc := sar q.tc 26
  let hyst : Int := d.fld (Reg.LC_CFG b) 23 16
  let lim1 := d.rdN (Reg.LC_CHc_LIM1 b c)
  let warn := levelNow q.warn tc (nfld lim1 15 0) hyst
  let hot := levelNow q.derate tc (nfld lim1 31 16) hyst
  let derate := hot && d.feature 6
  let trip := q.trip || decide ((d.fld (Reg.LC_CHc_LIM2 b c) 15 0 : Int) ≤ tc) || (hot && !d.feature 6)
  let code := unsgn 16 tc
  let d := d.setChan b c { k with coil := { q with warn := warn, derate := derate, trip := trip } }
  let d := if warn = true ∧ q.warn = false then d.lcFault t b c 0x0011 code else d
  let d := if derate = true ∧ q.derate = false then d.lcFault t b c 0x0012 code else d
  if trip = true ∧ q.trip = false then
    let d := d.lcFault t b c 0x0013 code
    if (d.chan b c).active = true ∧ ((d.chan b c).run.isSome = true ∨ (d.chan b c).command = true) then (d.cutFire t b c 3).regate t b else d
  else d

/-- The model of one channel at a tick, with LC_CHc_TEMP (R241, R243). -/
def Dev.coilChannel (d : Dev) (t b amb c : Nat) : Dev :=
  let k := d.chan b c
  if d.bit (Reg.LC_CHc_CFG b c) 4 = false then d
  else
    let s2 := match (d.blink b).scale with
      | some s => s * s
      | none => 0
    let q := k.coil.update (d.fld (Reg.LC_CHc_RES20 b c) 19 0) (d.fld (Reg.LC_CHc_HC b c) 23 0) (d.fld (Reg.LC_CHc_ACB b c) 23 0)
      (d.fld (Reg.LC_CHc_ABC b c) 23 0) (d.fld (Reg.LC_CHc_ABA b c) 23 0) s2 amb
    let d := d.setChan b c { k with coil := q }
    (d.wrN (Reg.LC_CHc_TEMP b c) (unsgn 16 (sar q.tc 26) + 65536 * unsgn 16 (sar q.tb 26))).coilLimits t b c

/-- What the engine writes to its save area at a coil tick (R247). -/
def Dev.saveWrites (d : Dev) (t b : Nat) : List MemWrite :=
  let base := d.rdN (Reg.LC_SAVE_BASE b)
  let chans := (List.range 16).map (fun c =>
    let q := (d.chan b c).coil
    let a := base + 0x4000 + 32 * c
    frameWrites a 8 (unsgn 64 q.tc) ++ frameWrites (a + 8) 8 (unsgn 64 q.tb) ++ frameWrites (a + 16) 4 (d.chanOd b c)
      ++ frameWrites (a + 20) 4 (b2n q.warn + 2 * b2n q.derate + 4 * b2n q.trip) ++ frameWrites (a + 24) 8 0)
  chans.flatten ++ frameWrites (base + 0x4200) 8 t ++ frameWrites (base + 0x4208) 504 0

/-- The next coil tick of a bank (R241). -/
def Dev.coilTickDue (d : Dev) (now b : Nat) : Option Nat :=
  if d.vbOn b = true ∧ (d.bank b).engineOk = true then
    let c := (now + 399999) / 400000 * 400000
    let l := (d.bank b).lastTick
    some (if c ≤ l then l + 400000 else c)
  else none

/-- COIL_TICK (R241 to R243, R247). -/
def Dev.coilTick (d : Dev) (t b : Nat) : Dev × List MemWrite :=
  let amb := d.ambient t b
  let x := d.bank b
  let d := if amb.2 = true ∧ x.ambSeen = false then d.lcFault t b 31 0x0016 (d.fld (Reg.LC_AMB b) 3 0) else d
  let d := d.updBank b (fun x => { x with ambSeen := amb.2, lastTick := t })
  let d := (List.range 16).foldl (fun (d : Dev) c => d.coilChannel t b amb.1 c) d
  (d.startBankThread b, d.saveWrites t b)

/-- LC_CLEAR_TRIP (R243). -/
def Dev.clearTrip (d : Dev) (b c : Nat) : Dev :=
  let k := d.chan b c
  let q := k.coil
  if q.trip = true ∧ d.bit (Reg.LC_CHc_CFG b c) 4 = true ∧ q.on = true
      ∧ sar q.tc 26 < (d.fld (Reg.LC_CHc_LIM1 b c) 15 0 : Int) - d.fld (Reg.LC_CFG b) 23 16 then
    d.setChan b c { k with coil := { q with trip := false } }
  else d

/-! ## Commands -/

def execFireDurationLimit (b : Fin 8) (c : Fin 16) (s : State) : Result :=
  s.actDue (fun _ d => d.durationDue b c) (fun now d => d.durationLimit now.dtime b c)

def execBoostCut (b : Fin 8) (s : State) : Result := s.actDue (fun _ d => d.boostCutDue b) (fun now d => d.boostCut now.dtime b)
def execLcClearTrip (b : Fin 8) (c : Fin 16) (s : State) : Result := s.act (fun _ d => d.clearTrip b c)
def execLaceEnd (b : Fin 8) (th : Fin 17) (s : State) : Result := s.act (fun now d => d.laceRow now.dtime b th .end_)
def execLacePhase (b : Fin 8) (th : Fin 17) (kind : Fin 8) (target : BitVec 12) (band : BitVec 8) (watch par : Bool) (s : State) : Result :=
  s.act (fun now d => d.laceRow now.dtime b th (.phase kind target.toNat band.toNat watch par))
def execLaceWait (b : Fin 8) (th : Fin 17) (cond : Fin 8) (trim : Bool) (arg : BitVec 24) (s : State) : Result :=
  s.act (fun now d => d.laceRow now.dtime b th (.wait cond trim arg.toNat))
def execLaceBr (b : Fin 8) (th : Fin 17) (cond : Fin 16) (address : BitVec 12) (s : State) : Result :=
  s.act (fun now d => d.laceRow now.dtime b th (.br cond address.toNat))
def execLaceLdi (b : Fin 8) (th : Fin 17) (rd : Fin 4) (imm : BitVec 24) (s : State) : Result :=
  s.act (fun now d => d.laceRow now.dtime b th (.ldi rd imm.toInt))
def execLaceLdm (b : Fin 8) (th : Fin 17) (rd : Fin 4) (src : Fin 16) (channel : Fin 32) (s : State) : Result :=
  s.act (fun now d => d.laceRow now.dtime b th (.ldm rd src channel))
def execLaceAluAdd (b : Fin 8) (th : Fin 17) (rd rs : Fin 4) (s : State) : Result := s.act (fun now d => d.laceRow now.dtime b th (.alu 0 rd rs))
def execLaceAluSub (b : Fin 8) (th : Fin 17) (rd rs : Fin 4) (s : State) : Result := s.act (fun now d => d.laceRow now.dtime b th (.alu 1 rd rs))
def execLaceAluMul (b : Fin 8) (th : Fin 17) (rd rs : Fin 4) (s : State) : Result := s.act (fun now d => d.laceRow now.dtime b th (.alu 2 rd rs))
def execLaceAluMin (b : Fin 8) (th : Fin 17) (rd rs : Fin 4) (s : State) : Result := s.act (fun now d => d.laceRow now.dtime b th (.alu 3 rd rs))
def execLaceAluMax (b : Fin 8) (th : Fin 17) (rd rs : Fin 4) (s : State) : Result := s.act (fun now d => d.laceRow now.dtime b th (.alu 4 rd rs))
def execLaceAluCompare (b : Fin 8) (th : Fin 17) (rd rs : Fin 4) (s : State) : Result := s.act (fun now d => d.laceRow now.dtime b th (.alu 5 rd rs))
def execLaceAluMove (b : Fin 8) (th : Fin 17) (rd rs : Fin 4) (s : State) : Result := s.act (fun now d => d.laceRow now.dtime b th (.alu 6 rd rs))
def execLaceStp (b : Fin 8) (th : Fin 17) (rs n : Fin 4) (channel : Fin 32) (s : State) : Result :=
  s.act (fun now d => d.laceRow now.dtime b th (.stp rs n channel))
def execLaceSig (b : Fin 8) (th : Fin 17) (channel : Fin 32) (s : State) : Result := s.act (fun now d => d.laceRow now.dtime b th (.sig channel))

end Sys2Proof.Machine
end

