-- ==== Sys2Proof/Machine/BankLinks.lean ====
section
/-! DEFINITION. Machine/BankLinks.lean: the bank links (10): training, the slow channel, arming, uplink frames, and what they do to a bank. -/
namespace Sys2Proof.Machine

/-- 16 superframes of 16 frames (R264, R267). -/
def superframes (n : Nat) : Nat := 640 * n

def Dev.blFault (d : Dev) (t b el code detail : Nat) : Dev := d.faultFlag t (uid 10 b el) code detail (Reg.BL_FAULT b) (code - 1)
/-- The link is on: BL_CFG.en as the last superframe start that followed a swap took it (R270). -/
def Dev.blOn (d : Dev) (b : Nat) : Bool := (d.blink b).on

/-- Show a link's training result, stage and challenge (R270, R271). -/
def Dev.showLink (d : Dev) (b : Nat) : Dev :=
  let x := d.blink b
  let d := d.wrN (Reg.BL_PHASE b) (x.phase0 + 16 * x.phase1 + 256 * x.run0 + 4096 * x.run1 + 65536 * x.lat + 2 ^ 24 * min 255 x.r)
  let d := d.wrN (Reg.BL_STAGE b) (x.temp + 65536 * x.stage + 2 ^ 24 * x.flags)
  d.wrN (Reg.BL_CHAL b) (x.chal + 65536 * x.acked)

/-- Show the descriptor in use (R266, R270). -/
def Dev.showDesc (d : Dev) (b : Nat) : Dev :=
  let l := (d.blink b).desc.getD []
  (List.range 6).foldl (fun (d : Dev) w => d.wrN (Reg.BL_DESCw b w) (leNat ((l.drop (4 * w)).take 4))) d

/-! ## Commands down the link (R264) -/

/-- Queue a downlink command: it takes the next sequence value. -/
def BankLink.send (x : BankLink) (type : Nat) (payload : List Byte) : BankLink :=
  let seq := (x.seq + 1) % 16
  { x with seq := seq, cmds := x.cmds ++ [⟨type, seq, payload, none⟩] }

/-- READ of pages 0, 1 and 2 (R266). -/
def BankLink.readPages (x : BankLink) : BankLink :=
  let page := fun n => BitVec.ofNat 8 n :: List.replicate 7 0
  (({ x with state := 3, pages := [] }.send 3 (page 0)).send 3 (page 1)).send 3 (page 2)

/-- ARM with a challenge, for a bank and a build (R262, R266). -/
def BankLink.arm (x : BankLink) (b : Nat) (indep : Bool) : BankLink :=
  { x with state := 4 }.send 1 (leBytes 2 x.chal ++ leBytes 2 (65535 - x.chal % 65536) ++ [BitVec.ofNat 8 b, BitVec.ofNat 8 (b2n indep), 0, 0])

/-! ## Training (R266) -/

/-- Training begins at step 1: the descriptor in use is cleared, and only IDLE goes down, so a waiting command is sent anew after it. -/
def Dev.trainStart (d : Dev) (b t : Nat) : Dev :=
  let x := d.blink b
  let d := d.setBlink b { BankLink.reset with
    on := x.on
    cfg := x.cfg
    swapAt := x.swapAt
    lane0 := { UpLane.reset with rd := x.lane0.rd }
    lane1 := { UpLane.reset with rd := x.lane1.rd }
    out := x.out
    txRd := x.txRd
    down := x.down
    quenchSent := x.quenchSent
    state := 1
    since := t
    seq := x.seq
    stage := x.stage
    temp := x.temp
    flags := x.flags
    chal := x.chal
    acked := x.acked
    cmds := x.cmds.map (fun c => { c with since := none }) }
  let d := d.updBank b (fun x => { x with armed := false })
  (d.showDesc b).showLink b

/-- The length of the run of clean phases that starts at phase i, cyclically (R266). -/
def cleanRun (mask i : Nat) : Nat → Nat
  | 0 => 0
  | n + 1 => if nbit mask (i % 8) then 1 + cleanRun mask (i + 1) n else 0

/-- The starts of the longest runs, and their length (R266). -/
def longestRuns (mask : Nat) : List Nat × Nat :=
  let best := ((List.range 8).map (fun i => cleanRun mask i 8)).foldl max 0
  if 8 ≤ best then ([0], 8) else ((List.range 8).filter (fun i => decide (cleanRun mask i 8 = best)), best)

/-- The centre phase of a run, the lower one if it is even (R266). -/
def runCentre (start len : Nat) : Nat := (start + (len - 1) / 2) % 8

/-- Train one lane: its phase and run; which of several longest runs is taken is not stated, and is a free value. -/
def Dev.trainLane (d : Dev) (mask : Nat) : Dev × Nat × Nat :=
  let r := longestRuns mask
  if 1 < r.1.length then
    let f := d.fresh
    (f.2, runCentre (r.1.getD (f.1 % r.1.length) 0) r.2, r.2)
  else (d, runCentre (r.1.getD 0 0) r.2, r.2)

/-- lat from the round trip (R266). -/
def latOf (r : Nat) : Nat := (r + 48 + 39) / 40

/-- When the phase scan of a training ends: 8 superframes of waiting and 8 of scanning, the latter not with fixed phases (R266, R271). -/
def Dev.trainingDue (d : Dev) (b : Nat) : Option Nat :=
  let x := d.blink b
  if d.blOn b = true ∧ (x.state = 1 ∨ x.state = 2) ∧ x.retryAt = none then
    some (x.since + superframes (if nbit x.cfg 1 then 8 else 16))
  else none

/-- The sampling phase that the scan of a training tries at time t: each for one superframe, after 8 of waiting (R266). -/
def BankLink.scanPhase (x : BankLink) (t : Nat) : Option Nat :=
  if (x.state = 1 ∨ x.state = 2) ∧ x.retryAt = none ∧ x.since + superframes 8 ≤ t ∧ t < x.since + superframes 16 then
    some ((t - (x.since + superframes 8)) / superframes 1)
  else none

/-- The phases with 16 valid frames (R266). -/
def UpLane.mask (l : UpLane) : Nat := maskOf ((List.range 8).filter (fun i => decide (16 ≤ l.clean.getD i 0)))

/-- BL_TRAINING (R266): the scan ends, with the valid frames counted at each phase and the round trip r. -/
def Dev.blTraining (d : Dev) (t b r : Nat) : Dev :=
  let cfg := (d.blink b).cfg
  let fix := nbit cfg 1
  let mask0 := (d.blink b).lane0.mask
  let mask1 := (d.blink b).lane1.mask
  let a := if fix then (d, nfld cfg 4 2, 0) else d.trainLane mask0
  let c := if fix then (a.1, nfld cfg 7 5, 0) else a.1.trainLane mask1
  let bad0 := !fix && decide (a.2.2 < 3)
  let bad1 := !fix && decide (c.2.2 < 3)
  let late := decide (6 < latOf r)
  let d := c.1
  let detail := fun m => m + 256 * min 255 r
  let d := if bad0 ∨ late then d.blFault t b 2 0x0001 (detail mask0) else d
  let d := if bad1 then d.blFault t b 3 0x0001 (detail mask1) else d
  let x := { d.blink b with phase0 := a.2.1, phase1 := c.2.1, run0 := a.2.2, run1 := c.2.2, lat := if late then 0 else latOf r, r := r }
  if bad0 ∨ bad1 ∨ late then (d.setBlink b { x with state := 2, retryAt := some (t + superframes 64) }).showLink b
  else (d.setBlink b ({ x with lastMsg := t, bad0 := 0, bad1 := 0 }.readPages)).showLink b

/-! ## Messages up (R262 to R267) -/

/-- The message at the front of those received, if it is of a type. -/
def BankLink.first (x : BankLink) (type : Nat) : Option (List Byte) :=
  match x.msgs with
  | some msg :: _ => if messageType msg = type then some msg else none
  | _ => none

/-- The link and the stage allow a cleared bank to arm again (R215, R267): the bank goes to ARMING. -/
def Dev.bankCleared (d : Dev) (b stage : Nat) : Dev :=
  if (d.bank b).clearing = true ∧ stage ≠ 2 then d.updBank b (fun y => { y with state := 1, clearing := false }) else d

/-- An acknowledged command leaves the queue (R264). -/
def BankLink.acknowledge (x : BankLink) (seq : Nat) : BankLink :=
  match x.cmds with
  | [] => x
  | c :: rest => if c.since.isSome = true ∧ c.seq = seq then { x with cmds := rest } else x

/-- What a STATUS message does (R263, R264, R266, R267). -/
def Dev.takeStatus (d : Dev) (t b : Nat) (msg : List Byte) : Dev :=
  let x := d.blink b
  if x.state < 3 ∨ 5 < x.state then d
  else
    let byte := fun i => (msg.getD i 0).toNat
    let stage := byte 1 % 4
    let flags := byte 6
    let x := { x with
      stage := stage
      chal := byte 2 + 256 * byte 3
      temp := byte 4 + 256 * byte 5
      flags := flags
      acked := byte 7 % 16 }.acknowledge (byte 7 % 16)
    let armed := decide (x.state = 4) && decide (stage = 1)
    let x := if armed then { x with state := 5 } else x
    let gave := d.bankGives b
    let d := (((((d.setBlink b x).bumpBy (Reg.BL_CNT_DNERR b) (byte 8)).showLink b).bankCleared b stage)).noteBank t b gave
    let d := if armed then d.updBank b (fun y => { y with armed := true }) else d
    if x.state ≠ 5 ∨ armed = true then d
    else if stage = 2 then
      let d := (d.blFault t b 4 0x0006 flags).updBlink b (fun x => { x with state := 4 })
      let d := d.updBank b (fun y => { y with armed := false })
      if d.bankReady b then d.bankFault t b 2 else d
    else if stage ≠ 1 ∨ nbit flags 5 = true then
      let d := (d.blFault t b 4 0x0007 (stage + 256 * flags)).updBlink b (fun x => { x with state := 4 })
      let d := d.updBank b (fun y => { y with armed := false })
      if d.bankReady b then d.bankFault t b 3 else d
    else d

/-- BL_STATUS_MESSAGE: a STATUS message at the front of those received is taken. -/
def Dev.blStatus (d : Dev) (t b : Nat) : Dev :=
  match (d.blink b).first 1 with
  | some msg => (d.updBlink b (fun x => { x with msgs := x.msgs.drop 1 })).takeStatus t b msg
  | none => d

/-- Why a descriptor is rejected (R266): 1 version, 2 build, 3 scale or tapply; 0 for an accepted one. -/
def descReject (l : List Byte) (indep : Bool) : Nat :=
  if (l.getD 0 0).toNat ≠ 1 then 1
  else if (l.getD 1 0).toNat ≠ b2n indep then 2
  else if leNat ((l.drop 7).take 2) = 0 ∨ leNat ((l.drop 9).take 2) = 0 ∨ 40 < (l.getD 14 0).toNat then 3
  else 0

/-- What a DESC message does (R263, R266): with the last page of an accepted descriptor the link arms, but not a bank that is out (R445). -/
def Dev.takeDesc (d : Dev) (t b : Nat) (msg : List Byte) : Dev :=
  let x := d.blink b
  let page := (msg.getD 1 0).toNat
  if x.state ≠ 3 ∨ 2 < page then d
  else
    let pages := SMap.set [] x.pages page ((msg.drop 2).take 7)
    let x := { x with pages := pages }
    if (List.range 3).all (fun p => !(SMap.get [] pages p).isEmpty) then
      let l := ((List.range 3).map (fun p => SMap.get [] pages p)).flatten
      let why := descReject l (d.indep b)
      let y := { x with desc := some l, pages := [] }
      if why = 0 then (d.setBlink b (if d.bankOut b then y else y.arm b (d.indep b))).showDesc b
      else ((d.setBlink b { x with desc := none, pages := [] }).showDesc b).blFault t b 4 0x0003 why
    else d.setBlink b x

/-- BL_DESC_MESSAGE: a DESC message at the front of those received is taken. -/
def Dev.blDesc (d : Dev) (t b : Nat) : Dev :=
  match (d.blink b).first 2 with
  | some msg => (d.updBlink b (fun x => { x with msgs := x.msgs.drop 1 })).takeDesc t b msg
  | none => d

/-- BL_SLOW_MESSAGE_DISCARD (R262): a discarded message at the front of those received is counted. -/
def Dev.blDiscard (d : Dev) (b : Nat) : Dev :=
  match (d.blink b).msgs with
  | none :: rest => (d.updBlink b (fun x => { x with msgs := rest })).bump (Reg.BL_CNT_CRC b)
  | _ => d

/-- Commands go down, not IDLE only: from the end of the training on (R266), also while the uplink is lost. -/
def BankLink.sends (x : BankLink) : Bool := decide (3 ≤ x.state) && decide (x.state ≤ 6)

/-- When the command being sent has not been acknowledged for 16 superframes since its first sending (R264). -/
def Dev.ackDue (d : Dev) (b : Nat) : Option Nat :=
  let x := d.blink b
  if x.on = true ∧ x.sends = true then (x.cmds.head?).bind (fun c => c.since.map (fun u => u + superframes 16)) else none

/-- BL_COMMAND_ACK_TIMEOUT (R264): the device goes on repeating the command. -/
def Dev.ackTimeout (d : Dev) (t b : Nat) : Dev :=
  match (d.blink b).cmds with
  | [] => d
  | c :: rest =>
    let d := d.updBlink b (fun x => { x with cmds := { c with since := some t } :: rest })
    (d.blFault t b 4 0x0004 (c.type + 16 * c.seq)).bump (Reg.BL_CNT_RETX b)

/-- When no message has arrived for 16 superframes in READY (R267). -/
def Dev.silentDue (d : Dev) (b : Nat) : Option Nat :=
  if d.blOn b = true ∧ d.bankReady b = true then some ((d.blink b).lastMsg + superframes 16) else none

/-- BL_STAGE_SILENT (R267). -/
def Dev.stageSilent (d : Dev) (t b : Nat) : Dev := (d.blFault t b 4 0x0005 0).bankFault t b 3

/-! ## Uplink frames (R260, R261) -/

/-- Bits of stream i of a lane's payload. -/
def frameBit (payload i : Nat) : Bool × Bool := (nbit payload (2 * i), nbit payload (2 * i + 1))

/-- The bits that repeat a stream's previous frame (R261). -/
def lastBits (l : List Bool) : Bool × Bool := (l.getD 1 false, l.getD 0 false)

/-- The streams of a bank take a frame of both lanes; an invalid lane repeats its previous bits (R260, R261). -/
def Bank.takeFrame (x : Bank) (f : UpFrame) : Bank :=
  let put := fun (lane : Option Nat) (i : Nat) (l : List Bool) =>
    let p := match lane with
      | some v => frameBit v i
      | none => lastBits l
    takeBits l p.1 p.2
  let x := (List.range 16).foldl (fun (x : Bank) c =>
    let k := x.chan c
    x.setChan c { k with bits := if c < 9 then put f.lane0 c k.bits else put f.lane1 (c - 9) k.bits }) x
  { x with supply := put f.lane1 7 x.supply, raised := put f.lane1 8 x.raised }

/-- The number of the uplink frame that lane 0 counts at position `pos` and that has arrived by time t, with the round trip r: that of the
downlink frame in the same position that the stage answers (R260, R266, log 173). -/
def frameNo (t r pos : Nat) : Nat :=
  let k := (t - r) / 40
  k - (k + 16 - pos % 16) % 16

/-- Count a valid frame at a sampling phase of the scan. -/
def UpLane.score (l : UpLane) (phase : Option Nat) (ok : Bool) : UpLane :=
  match phase with
  | some i => if ok then { l with clean := l.clean.set i (l.clean.getD i 0 + 1) } else l
  | none => l

/-- The messages that end with this frame (R262): a discarded one of either lane is to be counted; lane 0's is used, or lane 1's in its place.
IDLE and types that the uplink does not have do nothing more. -/
def slowNews (a b : Option (Option (List Byte))) : List (Option (List Byte)) × Bool :=
  let lost := [a, b].filterMap (fun m => match m with
    | some none => some none
    | _ => none)
  match a.join, b.join with
  | some msg, _ => (lost ++ (if messageType msg = 1 ∨ messageType msg = 2 then [some msg] else []), true)
  | none, some msg => (lost ++ (if messageType msg = 1 ∨ messageType msg = 2 then [some msg] else []), true)
  | none, none => (lost, false)

/-- BL_UPLINK_FRAME (R255, R260 to R262, R266): the 40 bits that came on each lane are checked; the frame waits for its boundary; the third
invalid one in a row on a lane loses the uplink. -/
def Dev.uplinkFrame (d : Dev) (t b line0 line1 : Nat) : Dev :=
  let x := d.blink b
  if x.on = false then d
  else
    let acquire := decide (x.state = 1 ∨ x.state = 2)
    let f0 := x.lane0.receive acquire line0
    let f1 := x.lane1.receive acquire line1
    let phase := x.scanPhase t
    let s0 := (f0.2.score phase f0.1.isSome).takeSlow f0.1
    let s1 := (f1.2.score phase f1.1.isSome).takeSlow f1.1
    let news := slowNews s0.2 s1.2
    let n0 := if f0.1.isSome then 0 else x.bad0 + 1
    let n1 := if f1.1.isSome then 0 else x.bad1 + 1
    let d := if f0.1.isSome then d else d.bumpFld (Reg.BL_CNT_UPERR b) 15 0
    let d := if f1.1.isSome then d else d.bumpFld (Reg.BL_CNT_UPERR b) 31 16
    let up := decide (3 ≤ x.state) && decide (x.state ≤ 5)
    let lost := up && (decide (3 ≤ n0) || decide (3 ≤ n1))
    let d := d.setBlink b { x with
      lane0 := s0.1
      lane1 := s1.1
      bad0 := n0
      bad1 := n1
      msgs := x.msgs ++ news.1
      lastMsg := if news.2 then t else x.lastMsg
      inbox := if up then x.inbox ++ [⟨frameNo t x.r (f0.2.pos.getD 0) + x.lat, f0.1, f1.1⟩] else x.inbox
      state := if lost then 6 else x.state }
    if lost then
      let d := if 3 ≤ n0 then d.blFault t b 2 0x0002 n0 else d
      let d := if 3 ≤ n1 then d.blFault t b 3 0x0002 n1 else d
      (d.updBank b (fun y => { y with armed := false })).bankFault t b 1
    else d

/-- At boundary k the lace engine takes the uplink frames that are due (R261). -/
def Dev.takeFrames (d : Dev) (b k : Nat) : Dev :=
  let x := d.blink b
  let due := x.inbox.filter (fun f => decide (f.boundary ≤ k))
  (due.foldl (fun (d : Dev) f => d.updBank b (fun y => y.takeFrame f)) d).setBlink b { x with inbox := x.inbox.filter (fun f => decide (k < f.boundary)) }

/-! ## Commands and swaps (R215, R267, R268, R270, R314) -/

/-- BL_RETRAIN, and a unit reset of the link (R268): the downlink stops for the next 16 frames, and the link trains again. -/
def Dev.blRetrain (d : Dev) (t b : Nat) : Dev :=
  if d.blOn b = false then d
  else
    let d := if d.bankReady b then d.bankFault t b 1 else d
    (d.updBlink b (fun x => { x with cmds := [] })).trainStart b (d.nextBoundary t b + superframes 1)

/-- BL_DISARM (R264, R271). In training only IDLE goes down, to a stage that is not armed (R266). -/
def Dev.blDisarm (d : Dev) (b : Nat) : Dev :=
  let x := d.blink b
  if d.blOn b = true ∧ x.sends = true then d.setBlink b (x.send 2 (List.replicate 8 0)) else d

/-- VB_CLEAR_FAULT (R215, R267): ignored while safe-stop is active (R314). The bank goes to ARMING with the first STATUS that does not show
FAULT (log 174). -/
def Dev.vbClearFault (d : Dev) (t b : Nat) : Dev :=
  let x := d.bank b
  if d.vbOn b = false ∨ x.state ≠ 3 ∨ d.safe = true then d
  else
    let d := d.setBank b { x with
      clearing := true
      armed := false
      loaded := x.loaded && !x.engineFault
      engineFault := false
      allOff := false }
    if d.blOn b = false then d
    else
      let d := d.updBlink b (fun y => y.send 4 (List.replicate 8 0))
      if (d.blink b).state = 6 then (d.updBlink b (fun y => { y with cmds := y.cmds.filter (fun c => decide (c.type = 4)) })).trainStart b t
      else if (d.blink b).state < 3 then d
      else d.updBlink b (fun y => y.readPages)

/-- BL_PHASE_TRIM (R268): the trim engine's phases and the new lat come into force at the start of an uplink superframe, when the last frame of
lane 0 was at position 15. -/
def Dev.phaseTrim (d : Dev) (b lat : Nat) : Dev :=
  let x := d.blink b
  match x.trimNext with
  | some p => if lat < 2 ∨ 6 < lat ∨ x.lane0.pos ≠ some 15 then d else (d.setBlink b { x with phase0 := p.1, phase1 := p.2, lat := lat, trimNext := none }).showLink b
  | none => d

/-- A swap of the bank's set takes effect on the link at the next downlink superframe start (R270). -/
def Dev.blSwap (d : Dev) (t b : Nat) : Dev := d.updBlink b (fun x => { x with swapAt := some t })

/-- The superframe start at time t brings a swap into effect: the link goes on and trains, or goes off (R266, R270). -/
def Dev.linkSwap (d : Dev) (t b : Nat) : Dev :=
  match (d.blink b).swapAt with
  | none => d
  | some u =>
    if t % 640 ≠ 0 ∨ t ≤ u then d
    else
      let was := (d.blink b).on
      let on := d.bit (Reg.BL_CFG b) 0
      let d := d.updBlink b (fun x => { x with swapAt := none, cfg := d.rdN (Reg.BL_CFG b) })
      if on = true ∧ was = false then (d.updBlink b (fun x => { x with on := true, cmds := [], seq := 0 })).trainStart b t
      else if on = false ∧ was = true then
        let d := if d.bankReady b then d.bankFault t b 1 else d
        let d := (d.setBlink b BankLink.reset).updBank b (fun y => { y with armed := false })
        (d.showDesc b).showLink b
      else d

/-! ## Downlink frames (R254, R256, R259, R262, R264) -/

/-- The message of a superframe: the first command not yet acknowledged, else IDLE, whose sequence is the last one given (log 175). -/
def BankLink.message (x : BankLink) : List Byte :=
  match x.cmds with
  | c :: _ => if x.sends then messageOf c.type c.seq c.payload else messageOf 0 x.seq []
  | [] => messageOf 0 x.seq []

/-- A superframe begins at time t: its message, of a command that may be sent for the first time (R262, R264). -/
def BankLink.nextMessage (x : BankLink) (t : Nat) : BankLink :=
  { x with
    out := x.message
    cmds := match x.cmds with
      | c :: rest => if x.sends = true ∧ c.since = none then { c with since := some t } :: rest else x.cmds
      | [] => [] }

/-- The downlink frame that begins at boundary time t, with the gates of its bank as they stand; none while the downlink has stopped (R268). -/
def Dev.downFrame (d : Dev) (t b : Nat) : Dev :=
  let y := d.bank b
  d.updBlink b (fun x =>
    if x.on = false ∨ (x.state = 1 ∧ t < x.since) then { x with down := none }
    else
      let pos := t / 40 % 16
      let x := if pos = 0 then x.nextMessage t else x
      let marker := downMarker pos y.quench
      let payload := withParity (y.gates + 2 ^ 18 * slowBits x.out pos)
      let line := encodeFrame x.txRd marker payload
      { x with txRd := line.2, down := some ⟨marker, payload, line.1⟩ })

/-- LACE_FRAME (R225, R254, R261): boundary time t of a bank. The link's frame begins with the gates formed for it, the uplink frames due are
taken, and an enabled bank's engine runs its frame, which forms the gates of the next. -/
def Dev.bankFrame (d : Dev) (now : Now) (b : Nat) : Dev :=
  let t := now.dtime
  let d := d.updBlink b (fun x => { x with
    quenchSent := (d.bank b).quench
    state := if x.state = 1 ∧ x.since + superframes 8 ≤ t then 2 else x.state })
  let d := ((d.linkSwap t b).downFrame t b).takeFrames b (t / 40)
  if d.vbOn b then d.laceFrame now b else d.updBank b (fun x => { x with lastFrame := t })

/-- When the next boundary of a bank comes, whose engine or link is on. -/
def Dev.frameDue (d : Dev) (now b : Nat) : Option Nat :=
  if d.vbOn b || (d.blink b).on || (d.blink b).swapAt.isSome then some (d.nextBoundary now b) else none

/-- Safe-stop (R314): every enabled bank drops its fires with cause 4, its stage is disarmed, and it enters FAULTED with cause 3; a clear command that waits is dropped. -/
def Dev.safeStopBanks (d : Dev) (t : Nat) : Dev :=
  (List.range 8).foldl (fun (d : Dev) b =>
    if d.vbOn b then ((d.blDisarm b).bankFault t b 3).updBank b (fun x => { x with clearing := false }) else d) d

/-- When a channel's quench is over: at the next boundary, with the uplink bits that are due there (R236, log 207). -/
def Dev.quenchEndDue (d : Dev) (now b c : Nat) : Option Nat :=
  let t := d.nextBoundary now b
  if d.vbOn b = true ∧ (d.takeFrames b (t / 40)).quenchOver b c (t / 40) = true then some t else none

/-- QUENCH_END (R236): the channel becomes idle at the boundary, before the frame that begins there. -/
def execQuenchEnd (b : Fin 8) (c : Fin 16) (s : State) : Result :=
  s.actDue (fun now d => d.quenchEndDue now.dtime b c) (fun now d => (d.takeFrames b (now.dtime / 40)).quenchEnd b c (now.dtime / 40))

def execBlTraining (dt : Nat) (b : Fin 8) (sent arrived : Nat) (s : State) : Result :=
  s.actDue (fun _ d => (d.trainingDue b).map (fun t => t + dt)) (fun now d => d.blTraining now.dtime b (arrived - sent))
def execBlTrainingRetry (b : Fin 8) (s : State) : Result :=
  s.actDue (fun _ d => if d.blOn b then (d.blink b).retryAt else none) (fun now d => d.trainStart b now.dtime)
def execBlDescMessage (dt : Nat) (b : Fin 8) (s : State) : Result := (s.pass dt).act (fun now d => d.blDesc now.dtime b)
def execBlSlowMessageDiscard (b : Fin 8) (s : State) : Result := s.act (fun _ d => d.blDiscard b)
def execBlCommandAckTimeout (b : Fin 8) (s : State) : Result := s.actDue (fun _ d => d.ackDue b) (fun now d => d.ackTimeout now.dtime b)
def execBlDisarm (b : Fin 8) (s : State) : Result := s.act (fun _ d => d.blDisarm b)
def execBlPhaseTrim (b : Fin 8) (lat : Fin 8) (s : State) : Result := s.act (fun _ d => d.phaseTrim b lat)
def execVbClearFault (b : Fin 8) (s : State) : Result := s.act (fun now d => d.vbClearFault now.dtime b)

end Sys2Proof.Machine
end

