-- ==== Sys2Proof/Machine/Converters.lean ====
section
/-! DEFINITION. Machine/Converters.lean: the precision analogue inputs (11): triggers, sequences, conversions, result buffers, references,
calibration and migration. -/
namespace Sys2Proof.Machine

/-! ## Access -/

def Dev.adc (d : Dev) (x : Nat) : Adc := SMap.get Adc.reset d.an x
def Dev.setAdc (d : Dev) (x : Nat) (a : Adc) : Dev := { d with an := SMap.set Adc.reset d.an x a }
def Dev.updAdc (d : Dev) (x : Nat) (f : Adc → Adc) : Dev := d.setAdc x (f (d.adc x))
def Dev.updAna (d : Dev) (f : Analogue → Analogue) : Dev := { d with ana := f d.ana }

def Dev.adcOn (d : Dev) (x : Nat) : Bool := d.bit (Reg.AN_Cx_CFG x) 0
def Dev.adcEntries (d : Dev) (x : Nat) : Nat := d.fld (Reg.AN_Cx_CFG x) 4 1 + 1
def Dev.adcPartner (d : Dev) (x : Nat) : Nat := d.fld (Reg.AN_Cx_CFG x) 6 5
def Dev.adcSize (d : Dev) (x : Nat) : Nat := 4096 * 2 ^ d.fld (Reg.AN_Cx_CFG x) 11 8
/-- The converter takes its trigger from the common source (R282). -/
def Dev.adcCommon (d : Dev) (x : Nat) : Bool := d.bit Reg.AN_COMMON (24 + x)
/-- Triggers are ignored and counted (R279): calibrating, migrated out, or faulted. -/
def Adc.skips (a : Adc) : Bool := a.calFrom.isSome || a.out || a.faulted
/-- The converter is not running a sequence. -/
def Adc.idle (a : Adc) : Bool := !a.running && !a.faulted && a.calFrom.isNone

/-- DRIVE ticks of so many modulator cycles, rounded up (11). -/
def adcTicks (cycles : Nat) : Nat := (cycles * 3125 + 47) / 48

/-! ## Fault records (R297) -/

def Dev.anFault (d : Dev) (t x el code detail i : Nat) : Dev := d.faultFlag t (uid 12 x el) code detail (Reg.AN_Cx_FAULT x) i

/-- Codes 0x0001, 0x0002 and 0x0007: at most one record in 64 sequences; the flag always. -/
def Dev.anLimited (d : Dev) (t x el code detail i : Nat) : Bool × Dev :=
  let a := d.adc x
  let again := match SMap.get none a.recAt code with
    | some n => decide (n + 64 ≤ a.seqs)
    | none => true
  let d := d.flag (Reg.AN_Cx_FAULT x) i
  (again, if again then (d.fault t (uid 12 x el) code detail).setAdc x { a with recAt := SMap.set none a.recAt code (some a.seqs) } else d)

/-- A trigger overrun (R279, R281). -/
def Dev.adcOverrun (d : Dev) (t x : Nat) : Dev :=
  let d := d.bump (Reg.AN_Cx_OVR x)
  let n := (d.adc x).overruns + 1
  let r := d.anLimited t x 0 0x0001 (min (2 ^ 32 - 1) n) 0
  r.2.updAdc x (fun a => { a with overruns := if r.1 then 0 else n })

/-! ## Sequences (R278, R280 to R282) -/

/-- A sequence starts: its own entries, then those it hosts (R278, R293). -/
def Dev.adcStart (d : Dev) (t x : Nat) : Dev :=
  let a := d.adc x
  let own := (List.range (d.adcEntries x)).map (fun e => (x, e))
  let hosted := match a.guest with
    | some o => (d.adc o).moved.map (fun e => (o, e))
    | none => []
  (d.setAdc x { a with
    running := true
    items := own ++ hosted
    count := 0
    sum := 0
    first := none
    overMark := false
    settling := false
    start := true
    pending := false }).wrN (Reg.AN_Cx_START x) t

/-- A converter sees a trigger (R279 to R282): `common` for one of the common source. -/
def Dev.adcSeen (d : Dev) (t x : Nat) (common : Bool) : Dev :=
  let a := d.adc x
  if d.adcOn x = false then d
  else if a.skips then d.bump (Reg.AN_Cx_SKIP x)
  else if a.running then
    if a.pending then d.adcOverrun t x
    else
      let d := d.setAdc x { a with pending := true }
      if common then d.bump Reg.AN_CNT_DESYNC else d
  else d.adcStart t x

/-- ADC_TRIGGER_SEEN (R280, R281): the oldest emitted trigger, each seen once (R26). -/
def Dev.adcTriggerSeen (d : Dev) (t x : Nat) : Dev :=
  match (d.adc x).sent with
  | [] => d
  | common :: rest => (d.updAdc x (fun a => { a with sent := rest })).adcSeen t x common

/-- ADC_SOFTWARE_TRIGGER (R279): bypasses the delay unit. -/
def Dev.adcSoftware (d : Dev) (mask : Nat) : Dev :=
  (List.range 4).foldl (fun (d : Dev) x => if nbit mask x then d.updAdc x (fun a => { a with sent := a.sent ++ [false] }) else d) d

/-- Trigger kind of a converter, or of the common source for `who` = 4 (R279, R282). -/
def Dev.trigKind (d : Dev) (who : Nat) : Nat := if who = 4 then d.fld Reg.AN_COMMON 1 0 else d.fld (Reg.AN_Cx_TRIG who) 1 0

/-- The members of the common source. -/
def Dev.adcMembers (d : Dev) : List Nat := (List.range 4).filter (fun x => d.adcCommon x)

/-- A converter's settings, or the common source's, name the source of a trigger (R279, R282, R299). -/
def Dev.trigNames (d : Dev) (who : Nat) (src : AdcSource) : Bool :=
  let v := if who = 4 then d.rdN Reg.AN_COMMON else d.rdN (Reg.AN_Cx_TRIG who)
  match src with
  | .event n => decide (nfld v 1 0 = 1) && decide (nfld v 9 2 = n.val)
  | .lace b c what => decide (nfld v 1 0 = 2) && decide (nfld v 12 10 = b.val) && decide (nfld v 16 13 = c.val) && decide (nfld v 19 17 = what.val)

/-- ADC_TRIGGER_TICK (R279, R282): the trigger tick of an event or a lace event reaches the delay unit of a converter that names it. -/
def Dev.adcTick (d : Dev) (t who : Nat) (src : AdcSource) : Dev :=
  if d.trigNames who src = false then d
  else if who = 4 then
    match d.ana.delay with
    | some _ => d.adcMembers.foldl (fun (d : Dev) x => if d.adcOn x then d.adcOverrun t x else d) d
    | none => d.updAna (fun a => { a with delay := some (t + d.fld Reg.AN_COMMON_DELAY 24 0) })
  else if d.adcCommon who = true ∨ d.adcOn who = false then d
  else if (d.adc who).skips then d.bump (Reg.AN_Cx_SKIP who)
  else
    match (d.adc who).delay with
    | some _ => d.adcOverrun t who
    | none => d.updAdc who (fun a => { a with delay := some (t + d.fld (Reg.AN_Cx_DELAY who) 24 0) })

/-- When a delay unit emits (R279). -/
def Dev.emitDue (d : Dev) (who : Nat) : Option Nat := if who = 4 then d.ana.delay else (d.adc who).delay

/-- ADC_DELAY_EMIT (R279, R280, R282). -/
def Dev.adcEmit (d : Dev) (who : Nat) : Dev :=
  if who = 4 then d.adcMembers.foldl (fun (d : Dev) x => d.updAdc x (fun a => { a with sent := a.sent ++ [true] })) (d.updAna (fun a => { a with delay := none }))
  else d.updAdc who (fun a => { a with delay := none, sent := a.sent ++ [false] })

/-! ## Excitation sources (R288) -/

/-- Level and pin that an entry of an origin routes to source n, if any. -/
def Dev.entryRoute (d : Dev) (n o e : Nat) : Option (Nat × Nat) :=
  let v := d.rdN (Reg.AN_Cx_Ee_EXC o e)
  let r := if n = 0 then (nfld v 2 0, nfld v 7 3) else (nfld v 10 8, nfld v 15 11)
  if r.1 = 0 then none else some r

/-- What source n drives: held, its settings for as long as its owner is enabled; else what the entry of its owner that runs routes, on whichever
converter runs it. -/
def Dev.iexNow (d : Dev) (n : Nat) : Option (Nat × Nat) :=
  let c := d.rdN (Reg.AN_IEXn_CFG n)
  let o := nfld c 1 0
  if nbit c 2 then (if d.adcOn o = true ∧ nfld c 5 3 ≠ 0 then some (nfld c 5 3, nfld c 10 6) else none)
  else
    (List.range 4).findSome? (fun x => match (d.adc x).running, (d.adc x).items with
      | true, (p, e) :: _ => if p = o then d.entryRoute n p e else none
      | _, _ => none)

/-- A run of a source ends when what it drives changes: the next run has its own record (R288). -/
def Dev.iexAfter (d old : Dev) : Dev :=
  d.updAna (fun a => { a with told := (List.range 2).map (fun n => a.told.getD n false && decide (d.iexNow n = old.iexNow n)) })

/-! ## The pair of bandgap cells (R287, R457) -/

/-- What the trim engine chose for source n comes into force at a SEQUENCE boundary of its owner: the level code, and the cells that spares
replace (R457, R459). -/
def Dev.takeSource (d : Dev) (n : Nat) : Dev :=
  if (d.adc (d.fld (Reg.AN_IEXn_CFG n) 1 0)).running then d
  else { d with trim := { d.trim with
    levels := match d.trim.codes[4 + n]? with
      | some c => SMap.set 0 d.trim.levels n c
      | none => d.trim.levels
    cellIn := SMap.set 0 d.trim.cellIn n (SMap.get 0 d.trim.cellIn n + SMap.get 0 d.trim.cellWait n)
    cellWait := SMap.set 0 d.trim.cellWait n 0 } }

/-- Each converter that runs no sequence is at its SEQUENCE boundary, and takes the pair and the codes chosen, for its sources too;
AN_REF_STATUS shows the pair once every converter has it (log 177). -/
def Dev.takeTrims (d : Dev) : Dev :=
  let mask := 2 ^ d.trim.pair.1 + 2 ^ d.trim.pair.2
  let codes := d.trim.codes.take 4
  let d := (List.range 4).foldl (fun (d : Dev) x => d.updAdc x (fun a => if a.running then a else { a with pair := mask, cells := codes })) d
  let d := (List.range 2).foldl Dev.takeSource d
  if (List.range 4).all (fun x => decide ((d.adc x).pair = mask)) then d.putFld Reg.AN_REF_STATUS 7 4 mask else d

/-! ## Conversions (R273 to R277, R287 to R289) -/

/-- Settings of an entry of an origin (R299). -/
structure AdcEntry where
  gain : Nat
  ref : Nat
  chop : Bool
  keep : Bool
  k : Nat
  n : Nat
  disc : Nat
  /-- The entry routes the test DAC. -/
  diag : Bool
  /-- It routes IEX0, IEX1. -/
  uses : List Bool
  deriving DecidableEq, Repr

/-- Whether a source is held for its owner (R288). -/
def Dev.iexHeld (d : Dev) (n x : Nat) : Bool := d.bit (Reg.AN_IEXn_CFG n) 2 && decide (d.fld (Reg.AN_IEXn_CFG n) 1 0 = x)

def Dev.adcEntry (d : Dev) (o e : Nat) : AdcEntry :=
  let i := d.rdN (Reg.AN_Cx_Ee_IN o e)
  let f := d.rdN (Reg.AN_Cx_Ee_FLT o e)
  let x := d.rdN (Reg.AN_Cx_Ee_EXC o e)
  let diag := decide (d.fld (Reg.AN_Cx_Ee_TD o e) 13 12 ≠ 0)
  {
    gain := nfld i 12 10, ref := nfld i 14 13, chop := nbit i 15, keep := nbit i 16 && !diag, k := nfld f 14 13 + 3, n := nfld f 23 16 + 1,
    disc := nfld f 31 24, diag := diag,
    uses := [decide (nfld x 2 0 ≠ 0) || d.iexHeld 0 o, decide (nfld x 10 8 ≠ 0) || d.iexHeld 1 o] }

/-- A reference is ready (R287): 0 internal, 1 external, 2 AVDD. -/
def Dev.refReady (d : Dev) (r : Nat) : Bool :=
  match r with
  | 0 => d.bit Reg.AN_REF_CFG 0 && d.bit Reg.AN_REF_STATUS 0
  | 1 => d.bit Reg.AN_REF_CFG 1 && d.bit Reg.AN_REF_STATUS 1
  | _ => true

/-- A condition of R287, R288 or R436 (a source that is not released) marks a conversion overrange. -/
def Dev.adcMarked (d : Dev) (e : AdcEntry) : Bool :=
  (decide (e.ref = 0) && d.ana.noPair) || (decide (e.ref = 1) && d.bit Reg.AN_REF_STATUS 2)
    || (List.range 2).any (fun n => e.uses.getD n false && (d.ana.comply.getD n false || !d.pw.rel1.toNat.testBit (26 + n)))

/-- Correct a conversion by the factors of its gain (R276): the value, and whether it clamped. -/
def adcCorrect (c off : Int) (fs : Nat) : Int × Bool :=
  let v := sar ((c - off) * fs + 2097152) 22
  (clampI (-8388608) 8388607 v, decide (v < -8388608) || decide (8388607 < v))

/-- The result of one pass or two (R276), in the range of R4. -/
def adcResult (a1 : Option Int) (a : Int) : Int :=
  match a1 with
  | some a1 => clampI (-8388608) 8388607 (sar (a1 - a + 1) 1)
  | none => a

/-- A result word (R284). -/
def adcWord (v : Int) (e : Nat) (settling overMark diag start : Bool) : Nat :=
  256 * unsgn 24 v + 16 * e + 8 * b2n (settling && !diag) + 4 * b2n (overMark || (settling && diag)) + 2 * b2n diag + b2n start

/-- A marker word (R285). -/
def markWord (value type : Nat) : Nat := 65536 * (value % 65536) + 256 * type + 0x0A

/-- The result queue of a converter has room for a pair (R24). -/
def Adc.room (a : Adc) : Bool := decide ((a.queue.filter (fun q => decide (q ≠ .seqEnd))).length < 16)

/-- A pair joins a converter's result queue of 16, or is lost (R24, R286). -/
def Dev.adcPush (d : Dev) (t x o el word stamp : Nat) (result : Bool) : Dev :=
  let a := d.adc x
  if a.room then d.setAdc x { a with queue := a.queue ++ [.pair o word (stamp % 2 ^ 32) result] }
  else ((d.bump (Reg.AN_Cx_DROP x)).anLimited t x el 0x0002 (stamp % 2 ^ 32) 1).2

/-- A result of entry e of origin o, after the markers that wait for it (R284, R285). The start bit stays for the first result written. -/
def Dev.adcEmitResult (d : Dev) (t x o e : Nat) (v : Int) (settling overMark diag : Bool) : Dev :=
  let d := match (d.adc o).genMark with
    | some c => (d.updAdc o (fun a => { a with genMark := none })).adcPush t x o (e + 1) (markWord (d.gen (.anc (Fin.ofNat 4 o))) 0) c false
    | none => d
  let d := match (d.adc o).moveMark with
    | some (p, c) => if o = x then d else (d.updAdc o (fun a => { a with moveMark := none })).adcPush t x o (e + 1) (markWord p 2) c false
    | none => d
  let start := (d.adc x).start
  (d.updAdc x (fun a => { a with start := start && !a.room })).adcPush t x o (e + 1) (adcWord v e settling overMark diag start) t true

/-- A conversion of the current entry completes (R275 to R277): the factors are the converter's own. -/
def Dev.adcConversion (d : Dev) (t x : Nat) (c : Int) (overload : Bool) : Dev :=
  let a := d.adc x
  match a.running, a.items with
  | true, (o, e) :: rest =>
    let s := d.adcEntry o e
    let r := adcCorrect c (sgn 24 (d.fld (Reg.AN_Cx_OFFg x s.gain) 23 0)) (d.fld (Reg.AN_Cx_FSg x s.gain) 23 0)
    let i := a.count
    let late := !d.refReady s.ref || (s.diag && !d.refReady 0)
    let early := decide (i < s.k - 1)
    let avg := decide (s.k - 1 + s.disc ≤ i)
    let overMark := r.2 || overload || d.adcMarked s
    let d := if s.keep = true ∧ (early = true ∨ (avg = true ∧ late = true)) then d.adcEmitResult t x o e r.1 true overMark s.diag else d
    let a := d.adc x
    let a := if avg then { a with sum := a.sum + r.1, overMark := a.overMark || overMark, settling := a.settling || late } else a
    if i + 1 < s.k - 1 + s.disc + s.n then d.setAdc x { a with count := i + 1 }
    else
      let v := (2 * a.sum + s.n) / (2 * s.n)
      if s.chop = true ∧ a.first = none then d.setAdc x { a with count := 0, sum := 0, first := some v }
      else
        let d := d.setAdc x { a with count := 0, sum := 0, first := none, overMark := false, settling := false, items := rest }
        d.adcEmitResult t x o e (adcResult a.first v) a.settling a.overMark s.diag
  | _, _ => d

/-! ## The result DMA (R286) and the probes it feeds (R134) -/

/-- The newest result of an entry among the newest 16 result pairs of a converter's buffer (R134): `n` pairs back to look, `k` results left. -/
def newestResult (m : Mem) (base size e : Nat) : Nat → Nat → Nat → Option (Nat × Nat)
  | 0, _, _ => none
  | _, 0, _ => none
  | n + 1, k + 1, wr =>
    let at_ := (wr + size - 8) % size
    let w := m.frameNat (base + at_) 4
    if nbit w 3 = true ∧ nbit w 1 = true then newestResult m base size e n (k + 1) at_
    else if nfld w 7 4 = e then some (w, m.frameNat (base + at_ + 4) 4)
    else newestResult m base size e n k at_

/-- Whether a paired DTIME is newer than another, as 32-bit times. -/
def newer32 (a b : Nat) : Bool := decide (a ≠ b) && decide ((a + 2 ^ 32 - b) % 2 ^ 32 < 2 ^ 31)

/-- The probes of a converter look at its buffer (R134, R135). -/
def Dev.adcProbes (d : Dev) (m : Mem) (t o : Nat) : Dev :=
  let size := d.adcSize o
  let base := d.rdN (Reg.AN_Cx_BUF o)
  let v := d.unitView m base size
  -- the newest 16 pairs are read
  let wr := d.rdN (Reg.AN_Cx_WR o)
  let d := (List.range (min 16 (d.adc o).held)).foldl (fun (d : Dev) i => d.readPoison t 9 (base + (wr + size - (8 * i + 8) % size) % size) 8) d
  (List.range 16).foldl (fun (d : Dev) p =>
    let c := d.rdN (Reg.LT_PRp_CFG p)
    if nbit c 0 = false ∨ nfld c 2 1 ≠ o ∨ (d.adc o).cals = 0 then d
    else
      match newestResult v (d.rdN (Reg.AN_Cx_BUF o)) (d.adcSize o) (nfld c 6 3) (d.adc o).held 16 (d.rdN (Reg.AN_Cx_WR o)) with
      | none => d
      | some (w, time) =>
        let fresh := match (d.probe p).value with
          | some _ => newer32 time ((d.probe p).time % 2 ^ 32)
          | none => true
        if nfld w 3 1 = 0 ∧ fresh = true then d.probeResult m t p (sgn 24 (nfld w 31 8)) time else d) d

/-- EV_AN_SEQ of the sequences whose pairs have all been written (R286). -/
def Dev.adcSeqEvents (d : Dev) (t x : Nat) : List AdcOut → Dev
  | .seqEnd :: rest => ((d.updAdc x (fun a => { a with queue := rest })).raise t 52 x).adcSeqEvents t x rest
  | _ => d

/-- ADC_RESULT_WRITE (R286): the DMA writes the first pair of a converter's queue. -/
def Dev.adcWrite (d : Dev) (m : Mem) (t x : Nat) : Dev × List MemWrite :=
  match (d.adc x).queue with
  | .pair o word stamp result :: rest =>
    let d := d.updAdc x (fun a => { a with queue := rest })
    let size := d.adcSize o
    let wr := d.rdN (Reg.AN_Cx_WR o)
    let rd := d.rdN (Reg.AN_Cx_RD o)
    let fill := (wr + size - rd % size) % size
    let next := (wr + 8) % size
    let d := if next = rd then
        let d := (d.wrN (Reg.AN_Cx_RD o) ((rd + 8) % size)).bump (Reg.AN_Cx_LOST o)
        let n := (d.adc o).laps + 1
        let r := d.anLimited t o 0 0x0007 (min (2 ^ 32 - 1) n) 6
        r.2.updAdc o (fun a => { a with laps := if r.1 then 0 else n })
      else d
    let ws := frameWrites (d.rdN (Reg.AN_Cx_BUF o) + wr) 4 word ++ frameWrites (d.rdN (Reg.AN_Cx_BUF o) + wr + 4) 4 stamp
    let d := (d.wrN (Reg.AN_Cx_WR o) next).updAdc o (fun a => { a with held := min (size / 8) (a.held + 1) })
    let d := if result then (d.raise t (48 + o) word).adcProbes (m.writes ws) t o else d
    let hw := d.fld (Reg.AN_Cx_HW o) 23 0
    let now := (next + size - d.rdN (Reg.AN_Cx_RD o) % size) % size
    let d := if hw ≠ 0 ∧ fill < hw ∧ hw ≤ now then d.raise t 53 o else d
    (d.adcSeqEvents t x (d.adc x).queue, ws)
  | _ => (d, [])

/-! ## Calibration (R290 to R292) -/

/-- The modulator cycles of a calibration (R290). -/
def calCycles : Nat := 1351680

/-- A calibration that waits starts (R290): the internal reference is ready, and no sequence runs. -/
def Dev.calStart (d : Dev) (t x : Nat) : Dev :=
  let a := d.adc x
  if a.calWanted = true ∧ a.running = false ∧ a.faulted = false ∧ a.calFrom = none ∧ d.refReady 0 = true then
    d.setAdc x { a with calWanted := false, calFrom := some t }
  else d

/-- ADC_SELF_CALIBRATE (R290). -/
def Dev.calCommand (d : Dev) (t mask : Nat) : Dev :=
  (List.range 4).foldl (fun (d : Dev) x =>
    if nbit mask x = true ∧ (d.adc x).faulted = false ∧ (d.adc x).calFrom = none then (d.updAdc x (fun a => { a with calWanted := true })).calStart t x
    else d) d

/-- ADC_REFERENCE_READY (R287): calibrations that wait for the internal reference start. -/
def Dev.refReadyNow (d : Dev) (t : Nat) (ext : Bool) : Dev :=
  if ext then (d.updAna (fun a => { a with extAt := none })).setBits Reg.AN_REF_STATUS 2
  else
    let d := (d.updAna (fun a => { a with intAt := none })).setBits Reg.AN_REF_STATUS 1
    (List.range 4).foldl (fun (d : Dev) x => d.calStart t x) d

/-- The factors of gain g come into force, or the gain fails and keeps its own (R290). -/
def Dev.calGain (d : Dev) (t x g : Nat) (o m : Int) : Dev :=
  if 2 ^ 20 < o.natAbs then d.anFault t x 0 0x0004 g 3
  else if m - o < 6606029 ∨ 8074035 < m - o then d.anFault t x 0 0x0004 (g + 8) 3
  else (d.wrN (Reg.AN_Cx_OFFg x g) (unsgn 24 o)).wrN (Reg.AN_Cx_FSg x g) (roundDiv (7340032 * 2 ^ 22) (m - o).toNat).toNat

/-- A converter of kind 3 that is enabled, idle and not migrated out goes on with its next sequence (R279, log 176). -/
def Dev.adcGoesOn (d : Dev) (t x : Nat) : Dev :=
  let a := d.adc x
  if d.adcOn x = true ∧ d.adcCommon x = false ∧ d.trigKind x = 3 ∧ a.idle = true ∧ a.out = false ∧ a.calWanted = false ∧ a.rolling = false then d.adcStart t x
  else d

/-- Migrated entries return (R292 to R294): the partner no longer runs them, and a marker of type 0x03 is written. -/
def Dev.adcReturn (d : Dev) (t x : Nat) : Dev :=
  let a := d.adc x
  let d := (List.range 4).foldl (fun (d : Dev) p => d.updAdc p (fun a => if a.guest = some x then { a with guest := none } else a)) d
  let d := d.setAdc x { a with out := false, back := false, moved := [], moveMark := none }
  (d.adcPush t x x 0 (markWord 0 3) t false).adcGoesOn t x

/-- At a boundary of converter p, the converters that wait for it return, whether it hosts their entries or none (R292). -/
def Dev.adcReturns (d : Dev) (t p : Nat) : Dev :=
  (List.range 4).foldl (fun (d : Dev) o => if (d.adc o).out = true ∧ (d.adc o).back = true ∧ d.adcPartner o = p then d.adcReturn t o else d) d

/-- A converter whose calibration is over waits for its partner's next boundary; one that runs no sequence stands at one (R283, R292). -/
def Dev.adcMayReturn (d : Dev) (t x : Nat) : Dev :=
  if (d.adc (d.adcPartner x)).running then d else d.adcReturns t (d.adcPartner x)

/-- ADC_CALIBRATION_DONE (R290, R292): offset and full scale measured at each gain. -/
def Dev.calDone (d : Dev) (t x : Nat) (meas : List (BitVec 24 × BitVec 24)) : Dev :=
  let d := (List.range 8).foldl (fun (d : Dev) g =>
    let p := meas.getD g (0, 0)
    d.calGain t x g p.1.toInt p.2.toInt) d
  let a := d.adc x
  let d := d.setAdc x { a with calFrom := none, cals := a.cals + 1, needCal := false, back := a.out }
  ((d.adcPush t x x 0 (markWord (a.cals + 1) 1) t false).adcMayReturn t x).adcGoesOn t x

/-! ## Migration (R293, R294) -/

/-- Entry e of x can move to partner p: neither a source that it routes nor the test DAC is routed by p's own entries (R293). -/
def Dev.entryMoves (d : Dev) (x p e : Nat) : Bool :=
  let exc := d.rdN (Reg.AN_Cx_Ee_EXC x e)
  let own := List.range (d.adcEntries p)
  d.bit (Reg.AN_Cx_Ee_IN x e) 17
    && !(decide (nfld exc 2 0 ≠ 0) && own.any (fun f => decide (d.fld (Reg.AN_Cx_Ee_EXC p f) 2 0 ≠ 0)))
    && !(decide (nfld exc 10 8 ≠ 0) && own.any (fun f => decide (d.fld (Reg.AN_Cx_Ee_EXC p f) 10 8 ≠ 0)))
    && !(decide (d.fld (Reg.AN_Cx_Ee_TD x e) 13 12 ≠ 0) && own.any (fun f => decide (d.fld (Reg.AN_Cx_Ee_TD p f) 13 12 ≠ 0)))

/-- A converter is migrated out (R293): its entries move to the partner, or stop. -/
def Dev.adcMigrate (d : Dev) (t x : Nat) : Dev :=
  let p := d.adcPartner x
  let q := d.adc p
  let usable := decide (p ≠ x) && d.adcOn p && !q.faulted && !q.out && q.guest.isNone
  let all := List.range (d.adcEntries x)
  let moved := all.filter (fun e => usable && d.entryMoves x p e)
  let stopped := all.filter (fun e => !moved.contains e)
  let d := d.updAdc x (fun a => { a with out := true, back := false, moved := moved, moveMark := some (p, t) })
  let d := if moved.isEmpty then d
    else (d.updAdc p (fun a => { a with guest := some x })).anFault t x 0 0x0005 (p + 65536 * maskOfBits moved) 4
  if stopped.isEmpty then d else d.anFault t x 0 0x0006 (maskOfBits stopped) 5
where
  maskOfBits (l : List Nat) : Nat := (l.map (fun i => 2 ^ i)).sum

/-- ADC_CONVERTER_FAULT (R294): 1 residue, 2 sequence-memory parity, 3 modulator stuck. -/
def Dev.adcFault (d : Dev) (t x cause : Nat) : Dev :=
  let a := d.adc x
  if a.faulted then d
  else
    let keep := (a.queue.reverse.dropWhile (fun q => decide (q ≠ .seqEnd))).reverse
    let d := d.setAdc x { a with
      running := false
      items := []
      pending := false
      delay := none
      sent := []
      calWanted := false
      rolling := false
      calFrom := none
      faulted := true
      guest := none
      queue := if a.running then keep else a.queue }
    let d := d.anFault t x 0 0x0003 cause 2
    let d := d.adcReturns t x
    (if d.adcOn x && !a.out then d.adcMigrate t x else d).takeTrims

/-- A rolling self-calibration is wanted (R292): it begins at the converter's next SEQUENCE boundary. -/
def Dev.adcRoll (d : Dev) (x : Nat) : Dev := d.updAdc x (fun a => { a with rolling := true })

/-! ## The SEQUENCE boundary (R281, R283, R288, R290, R292) -/

/-- What a boundary of converter x brings before a pending swap: entries return, and the chosen pair of cells is taken. -/
def Dev.adcBoundary (d : Dev) (t x : Nat) : Dev := (d.adcReturns t x).takeTrims

/-- What a boundary brings after a pending swap: a calibration that waits, or the next sequence. -/
def Dev.adcAfterBoundary (d : Dev) (t x : Nat) : Dev :=
  let d := if (d.adc x).rolling = true ∧ (d.adc x).faulted = false then
      (d.updAdc x (fun a => { a with rolling := false, calWanted := true })).adcMigrate t x
    else d
  let d := d.calStart t x
  let a := d.adc x
  if d.adcOn x = false ∨ a.faulted = true ∨ a.calFrom.isSome = true ∨ a.out = true then d.setAdc x { a with pending := false }
  else if a.pending = true ∨ (d.adcCommon x = false ∧ d.trigKind x = 3) then d.adcStart t x
  else d

/-- A sequence has run its last entry (R281, R286). -/
def Adc.sequenceOver (a : Adc) : Bool := a.running && a.items.isEmpty

/-- The end of a sequence before its boundary (R286). -/
def Dev.adcSequenceOver (d : Dev) (t x : Nat) : Dev :=
  let a := d.adc x
  let e := d.setAdc x { a with running := false, seqs := a.seqs + 1, queue := a.queue ++ [.seqEnd] }
  (e.iexAfter d).adcSeqEvents t x (e.adc x).queue

/-! ## References and excitation (R287, R288) -/

/-- EXTERNAL_REFERENCE_LOW (R287). -/
def Dev.refLow (d : Dev) (t : Nat) (low : Bool) : Dev :=
  if low then (d.setBits Reg.AN_REF_STATUS 4).faultFlag t (uid 12 4 5) 0x0008 2 Reg.AN_FAULT 0 else d.clrBits Reg.AN_REF_STATUS 4

/-- The pin that source n drives. -/
def Dev.iexPin (d : Dev) (n : Nat) : Nat := ((d.iexNow n).map Prod.snd).getD 0

/-- EXCITATION_AT_COMPLIANCE (R288): one record for each run of the source. -/
def Dev.atCompliance (d : Dev) (t n : Nat) (at_ : Bool) : Dev :=
  let told := d.ana.told.getD n false
  let d := d.updAna (fun a => { a with comply := a.comply.set n at_, told := a.told.set n (told || at_) })
  if at_ then
    let d := d.flag Reg.AN_FAULT 1
    if told then d else d.fault t (uid 12 5 (n + 1)) 0x0009 (d.iexPin n)
  else d

/-! ## Swaps and unit resets (R283, R285, R287, R296) -/

/-- Converter x has swapped: a marker precedes its next result (R285); a converter that is off is not running. -/
def Dev.adcSwap (d : Dev) (t x : Nat) : Dev :=
  let d := d.updAdc x (fun a => { a with genMark := some t })
  if d.adcOn x then d.adcGoesOn t x else d.updAdc x (fun a => { a with pending := false, delay := none, sent := [] })

/-- The shared set has swapped (R287): a reference that turns on is ready after its time. -/
def Dev.anaSwap (d : Dev) (t : Nat) (old : Nat) : Dev :=
  let c := d.rdN Reg.AN_REF_CFG
  let d := if nbit c 0 = true ∧ nbit old 0 = false then d.updAna (fun a => { a with intAt := some (t + adcTicks 24576) })
    else if nbit c 0 then d else (d.updAna (fun a => { a with intAt := none })).clrBits Reg.AN_REF_STATUS 1
  if nbit c 1 = true ∧ nbit old 1 = false then d.updAna (fun a => { a with extAt := some (t + adcTicks 1229) })
  else if nbit c 1 then d else (d.updAna (fun a => { a with extAt := none })).clrBits Reg.AN_REF_STATUS 2

/-- Converter a no longer runs the entries of origin x that it hosts (R296). -/
def Adc.dropGuest (a : Adc) (x : Nat) : Adc :=
  let rest := a.items.filter (fun i => decide (i.1 ≠ x))
  let a := if a.items.head? = rest.head? then a else { a with count := 0, sum := 0, first := none, overMark := false, settling := false }
  { a with guest := none, items := rest }

/-- A unit reset of converter x (R291, R294, R296): one that had faulted stays out, with its entries at the partner, until its
self-calibration (log 178). Entries that it hosts go back, but for those of an origin that waits for its own. -/
def Dev.adcUnitReset (d : Dev) (t x : Nat) : Dev :=
  let old := d
  let d := match (d.adc x).guest with
    | some o => if (d.adc o).faulted || (d.adc o).needCal then d.updAdc o (fun b => { b with moved := [] }) else d.adcReturn t o
    | none => d
  let a := d.adc x
  let stays := a.faulted || a.needCal
  let d := (List.range 4).foldl (fun (d : Dev) p => d.updAdc p (fun b => if b.guest = some x ∧ stays = false then b.dropGuest x else b)) d
  let d := d.setAdc x (if stays then { Adc.reset with seqs := a.seqs, needCal := true, out := true, moved := a.moved, moveMark := a.moveMark }
    else { Adc.reset with seqs := a.seqs })
  let d := (List.range 8).foldl (fun (d : Dev) g => (d.wrN (Reg.AN_Cx_OFFg x g) 0).wrN (Reg.AN_Cx_FSg x g) 0x400000) d
  let d := (d.wrN (Reg.AN_Cx_WR x) 0).wrN (Reg.AN_Cx_RD x) 0
  let d := if a.out = true ∧ stays = false then d.adcPush t x x 0 (markWord 0 3) t false else d
  ((d.adcReturns t x).iexAfter old).takeTrims

/-! ## Commands -/

def execAdcSelfCalibrate (mask : BitVec 4) (s : State) : Result := s.act (fun now d => d.calCommand now.dtime mask.toNat)
def execAdcSoftwareTrigger (mask : BitVec 4) (s : State) : Result := s.act (fun _ d => d.adcSoftware mask.toNat)
def execAdcTriggerTick (tick : AdcTick) (s : State) : Result := s.act (fun now d => d.adcTick now.dtime tick.who tick.src)
def execAdcDelayEmit (who : Fin 5) (s : State) : Result := s.actDue (fun _ d => d.emitDue who) (fun _ d => d.adcEmit who)
def execAdcTriggerSeen (dt : Nat) (x : Fin 4) (s : State) : Result := (s.pass dt).act (fun now d => d.adcTriggerSeen now.dtime x)
def execAdcConversionDone (dt : Nat) (x : Fin 4) (c : BitVec 24) (overload : Bool) (s : State) : Result :=
  (s.pass dt).act (fun now d => (d.adcConversion now.dtime x c.toInt overload).iexAfter d)
def execAdcResultWrite (x : Fin 4) (s : State) : Result := s.actWr 10 (fun now m d => d.adcWrite m now.dtime x)
def execAdcCalibrationDone (x : Fin 4) (meas : List (BitVec 24 × BitVec 24)) (s : State) : Result :=
  s.actDue (fun _ d => ((d.adc x).calFrom).map (fun c => c + adcTicks calCycles)) (fun now d => d.calDone now.dtime x meas)
def execAdcReferenceReady (ext : Bool) (s : State) : Result :=
  s.actDue (fun _ d => if ext then d.ana.extAt else d.ana.intAt) (fun now d => d.refReadyNow now.dtime ext)
def execAdcConverterFault (x : Fin 4) (cause : Fin 3) (s : State) : Result := s.act (fun now d => (d.adcFault now.dtime x (cause + 1)).iexAfter d)
def execExternalReferenceLow (low : Bool) (s : State) : Result := s.act (fun now d => d.refLow now.dtime low)
def execExcitationAtCompliance (n : Fin 2) (at_ : Bool) (s : State) : Result := s.act (fun now d => d.atCompliance now.dtime n at_)

end Sys2Proof.Machine
end

