-- ==== Sys2Proof/Machine/Serial.lean ====
section
/-! DEFINITION. Machine/Serial.lean: the serial master ports, execute-in-place, the slave port with safe-stop, and the general-purpose
pins (12). -/
namespace Sys2Proof.Machine

/-! ## Access -/

def Dev.port (d : Dev) (n : Nat) : SerialPort := SMap.get SerialPort.reset d.sp n
def Dev.setPort (d : Dev) (n : Nat) (x : SerialPort) : Dev := { d with sp := SMap.set SerialPort.reset d.sp n x }
def Dev.updPort (d : Dev) (n : Nat) (f : SerialPort → SerialPort) : Dev := d.setPort n (f (d.port n))
def Dev.updXip (d : Dev) (f : Xip → Xip) : Dev := { d with xip := f d.xip }
def Dev.updSps (d : Dev) (f : SpsPort → SpsPort) : Dev := { d with sps := f d.sps }

def Dev.portOn (d : Dev) (n : Nat) : Bool := d.bit (Reg.SP_Mn_CFG n) 0
def Dev.portBound (d : Dev) (n : Nat) : Bool := d.bit (Reg.SP_Mn_SEL n) 0

/-- DRIVE ticks of so many PERI cycles (R3: 200 MHz; log 91). -/
def periTicks (n : Nat) : Nat := 2 * n

/-- The bytes of a transfer (R301). -/
def SpTransfer.bytes (x : SpTransfer) : Nat := (x.bits + 7) / 8
/-- Bits that one SCK cycle moves (R307). -/
def SpTransfer.step (x : SpTransfer) : Nat := if x.quad then 4 else 1
/-- DRIVE ticks of an SCK cycle (R300). -/
def Dev.sckTicks (d : Dev) (n : Nat) : Nat := periTicks (2 * (d.fld (Reg.SP_Mn_CFG n) 16 8 + 1))
/-- When a transfer shifts from time t on: a select asserted now leads the first edge by cs_setup (R303). -/
def Dev.spFrom (d : Dev) (t n : Nat) : Nat :=
  if d.portBound n && !(d.port n).select then t + periTicks (d.fld (Reg.SP_Mn_SEL n) 23 16) else t

/-- A record of a port, at most one of a code in 64 transfers (R319); the flag always. R14 gives element 31 to a record of a whole unit and R319
element 0 to the ports: DESIGN CHOICE (log 194), element 0. -/
def Dev.spFault (d : Dev) (t n code detail i : Nat) : Dev :=
  let x := d.port n
  let again := match SMap.get none x.recAt code with
    | some k => decide (k + 64 ≤ x.done)
    | none => true
  let d := d.flag (Reg.SP_Mn_FAULT n) i
  if again then (d.fault t (uid 13 n 0) code detail).setPort n { x with recAt := SMap.set none x.recAt code (some x.done) } else d

/-! ## Transfers (R300 to R306) -/

/-- Ready holds the transfer back (R304). -/
def Dev.notReady (d : Dev) (n : Nat) : Bool :=
  d.bit (Reg.SP_Mn_SEL n) 7 && decide ((d.port n).ready ≠ d.bit (Reg.SP_Mn_SEL n) 13)

/-- SP0 serves a direct transfer or an XIP access, each whole (R310). -/
def Dev.xipBusy (d : Dev) (n : Nat) : Bool := decide (n = 0) && d.xip.cur.isSome

/-- The queued transfer begins (R303, R304, R310): a direct transfer of SP0 makes an exit access first where continuous mode is active, and the
misses that wait come before the next one asked for. -/
def Dev.spBegin (d : Dev) (t n : Nat) : Dev :=
  let x := d.port n
  match x.cur, x.next with
  | none, some r =>
    if d.xipBusy n then d else
    let d := if n = 0 ∧ d.xip.cont = true then d.bump Reg.SP_XIP_CNT_EXIT else d
    let d := if n = 0 then d.updXip (fun y => { y with cont := false, wait := y.wait.map (fun w => (w.1, false)) }) else d
    d.setPort n { x with
      cur := some { r with from_ := d.spFrom t n }
      next := none
      select := d.portBound n
      pause := if d.notReady n then .ready t else .none }
  | _, _ => d

/-- The start that a command word asks for is discarded (R302, R307). -/
def spBadStart (n len v : Nat) : Bool :=
  decide (len = 0) || decide (4096 < len) || decide (nfld v 3 2 = 3)
    || (nbit v 5 && (decide (n ≠ 0) || decide (nfld v 3 2 = 0) || decide (len % 4 ≠ 0)))

/-- SP_START (R302). A port that is off takes no start (log 92). -/
def Dev.spStart (d : Dev) (t n v : Nat) : Dev :=
  let len := d.fld (Reg.SP_Mn_LEN n) 12 0
  let x := d.port n
  if d.portOn n = false ∨ spBadStart n len v = true ∨ x.next.isSome = true then d.flag (Reg.SP_Mn_FAULT n) 6
  else (d.setPort n { x with next := some ⟨len, nfld v 3 2, nbit v 4, nbit v 5, 0, 0, 0, 0, 0⟩ }).spBegin t n

/-- Status-first: the TX bytes stay in the FIFO until the transfer completes (R305). -/
def Dev.spKeeps (d : Dev) (n : Nat) : Bool := d.bit (Reg.SP_Mn_SF n) 0

/-- The access of a miss begins (R309, R310). -/
def Dev.xipAccess (d : Dev) (line : Nat) : Dev :=
  d.updXip (fun x => { x with cur := some (line, false), cont := d.bit Reg.SP_XIP_CFG 5, wait := x.wait.filter (fun w => decide (w.1 ≠ line)) })

/-- SP0 is free after a direct transfer or an XIP access, and serves what was asked for first (R310); a chain of hold_cs transfers goes on. -/
def Dev.spNext (d : Dev) (t n : Nat) (chain : Bool) : Dev :=
  match if n = 0 then d.xip.wait else [] with
  | (line, later) :: _ => if chain = true ∨ (later = true ∧ (d.port n).next.isSome = true) then d.spBegin t n else d.xipAccess line
  | [] => d.spBegin t n

/-- Bytes that a transfer takes from the TX FIFO: whole words (R301); a receive-only transfer takes none. -/
def SpTransfer.words (x : SpTransfer) : Nat := if x.dir = 2 then 0 else (x.bytes + 3) / 4 * 4

/-- The transfer in progress ends (R302, R306): outcome 0 done, 1 aborted, 2 failed. -/
def Dev.spEnd (d : Dev) (t n outcome : Nat) (event : Bool) : Dev :=
  let x := d.port n
  match x.cur with
  | none => d
  | some r =>
    let left := if d.spKeeps n then r.words else r.words - r.pos
    let d := d.setPort n { x with
      cur := none
      pause := .none
      tx := x.tx.drop left
      select := x.select && r.hold && decide (outcome = 0)
      done := x.done + 1 }
    let d := if outcome = 0 then d else d.bump (Reg.SP_Mn_CNT_ABORT n)
    let d := if event then d.raise t (56 + n) outcome else d
    d.spNext t n (r.hold && decide (outcome = 0))

/-- How many more bytes can be shifted before a TX byte or RX room is missing (R302). -/
def Dev.spRoom (d : Dev) (n : Nat) (r : SpTransfer) : Nat :=
  let x := d.port n
  let tx := if r.dir = 2 then r.bytes else if d.spKeeps n then x.tx.length else r.pos + x.tx.length
  let rx := if r.dir = 1 then r.bytes else r.pos + (512 - x.rx.length)
  min r.bytes (min tx rx) - r.pos

/-- A received byte as the FIFO holds it: the bits that a final partial byte does not have are zero (R301). -/
def spByte (lsb : Bool) (bits i : Nat) (b : Byte) : Byte :=
  let k := bits - 8 * i
  if 8 ≤ k then b else if lsb then b &&& BitVec.ofNat 8 (2 ^ k - 1) else b &&& BitVec.ofNat 8 (256 - 2 ^ (8 - k))

/-- So many bytes that no command gives: each is a free value. -/
def Dev.freeBytes (d : Dev) : Nat → Dev × List Byte
  | 0 => (d, [])
  | k + 1 =>
    let f := d.fresh
    let r := f.2.freeBytes k
    (r.1, BitVec.ofNat 8 f.1 :: r.2)

/-- The bit boundary that a transfer is at, or comes to next, at time t (R300, R302). -/
def Dev.spBits (d : Dev) (t n : Nat) (r : SpTransfer) : Nat :=
  if (d.port n).pause = .none then min (min r.bits (8 * (r.pos + d.spRoom n r))) (r.bit0 + (t - r.from_ + d.sckTicks n - 1) / d.sckTicks n * r.step)
  else r.bit0

/-- A transfer ends after `bits` bits without completing: the whole bytes received stay in the RX FIFO (R306). The bytes are the slave's, which
this command does not give (log 209). -/
def Dev.spCut (d : Dev) (t n outcome bits : Nat) (event : Bool) : Dev :=
  match (d.port n).cur with
  | none => d
  | some r =>
    let got := d.freeBytes (if r.dir = 1 then 0 else min (bits / 8 - r.pos) (d.spRoom n r))
    (got.1.updPort n (fun x => { x with rx := x.rx ++ got.2 })).spEnd t n outcome event

/-- SP_TRANSFER_COMPLETE (R301, R302, R305): the port shifts on to the end of the transfer, or to where a byte or room is missing; `rx` are the
bytes the slave sends meanwhile, zero where it gives none. -/
def Dev.spComplete (d : Dev) (t n : Nat) (rx : List Byte) : Dev :=
  let x := d.port n
  match x.cur with
  | none => d
  | some r =>
    if x.pause ≠ .none then d
    else
      let k := d.spRoom n r
      let sf := d.spKeeps n
      let got := (List.range k).map (fun i => spByte (d.bit (Reg.SP_Mn_CFG n) 3) r.bits (r.pos + i) (rx.getD i 0))
      let first := if r.pos = 0 ∧ 0 < k then (got.getD 0 0).toNat else r.status
      let c := d.rdN (Reg.SP_Mn_SF n)
      if sf = true ∧ r.pos = 0 ∧ 0 < k ∧ first &&& nfld c 15 8 = nfld c 23 16 then
        if nfld c 27 24 ≤ r.retries then (d.spFault t n 0x0003 first 2).spEnd t n 2 true
        else
          d.setPort n { x with
            cur := some { r with status := first }
            select := false
            pause := .retry (t + periTicks (256 * d.fld (Reg.SP_Mn_TIMES n) 31 16)) }
      else
        let keep := sf || decide (r.dir = 2)
        let d := d.setPort n { x with
          cur := some { r with pos := r.pos + k, status := first, bit0 := 8 * (r.pos + k) }
          tx := if keep then x.tx else x.tx.drop k
          rx := if r.dir = 1 then x.rx else x.rx ++ got }
        if r.pos + k = r.bytes then d.spEnd t n 0 true else d.updPort n (fun y => { y with pause := .fifo })

/-- SP_BYTE_RESUME (R302). -/
def Dev.spResume (d : Dev) (t n : Nat) : Dev :=
  let x := d.port n
  match x.cur with
  | some r =>
    if x.pause = .fifo ∧ 0 < d.spRoom n r then
      d.setPort n { x with cur := some { r with from_ := t }, pause := if d.notReady n then .ready t else .none }
    else d
  | none => d

/-- The transfer in progress ends at its next bit boundary (R306). -/
def Dev.spStop (d : Dev) (t n : Nat) (event : Bool) : Dev :=
  d.spCut t n 1 (match (d.port n).cur with
    | some r => d.spBits t n r
    | none => 0) event

/-- SP_ABORT (R306). -/
def Dev.spAbort (d : Dev) (t n : Nat) : Dev := (d.updPort n (fun x => { x with next := none })).spStop t n true

/-- SP_TX_WRITE (R301). -/
def Dev.spTxWrite (d : Dev) (n v : Nat) : Dev :=
  let x := d.port n
  if 512 < x.tx.length + 4 then d.flag (Reg.SP_Mn_FAULT n) 4 else d.setPort n { x with tx := x.tx ++ leBytes 4 v }

/-- SP_RX_READ (R301): the word that a read of SP_Mn_RX returns. -/
def Dev.spRxRead (d : Dev) (n : Nat) : Word × Dev :=
  let x := d.port n
  if x.rx.isEmpty then (0, d.flag (Reg.SP_Mn_FAULT n) 5)
  else (BitVec.ofNat 32 (leNat (x.rx.take 4)), d.setPort n { x with rx := x.rx.drop 4 })

/-- SP_GUARD_STOP (R303, R304): a bound select reads inactive; `bits` is how many bits had been sent. -/
def Dev.spGuard (d : Dev) (t n bits : Nat) : Dev :=
  let x := d.port n
  if d.portBound n = true ∧ x.cur.isSome = true ∧ x.select = true then (d.spFault t n 0x0001 bits 0).spCut t n 1 bits true else d

/-- A transfer pauses for ready at the next boundary of its granularity, unless it ends or stops for its FIFOs before (R304). -/
def Dev.spHold (d : Dev) (t n : Nat) (r : SpTransfer) : Dev :=
  let g := if d.bit (Reg.SP_Mn_SEL n) 14 then r.step else 8
  let bits := (d.spBits t n r + g - 1) / g * g
  if min r.bits (8 * (r.pos + d.spRoom n r)) ≤ bits then d
  else
    let at_ := max t (r.from_ + (bits - r.bit0) / r.step * d.sckTicks n)
    d.updPort n (fun x => { x with cur := some { r with bit0 := bits, from_ := at_ }, pause := .ready at_ })

/-- SP_READY_CHANGE (R304): the ready input has a new level behind the synchroniser. A paused transfer goes on in the third PERI cycle. -/
def Dev.spReady (d : Dev) (t n : Nat) (level : Bool) : Dev :=
  let d := d.updPort n (fun x => { x with ready := level })
  let x := d.port n
  match x.cur, x.pause with
  | some r, .ready at_ =>
    if d.notReady n then d
    else d.setPort n { x with pause := .none, cur := some { r with from_ := if t < at_ then r.from_ else max r.from_ (t + periTicks 3) } }
  | some r, .none => if d.notReady n then d.spHold t n r else d
  | _, _ => d

/-- When a ready pause reaches its limit (R304). -/
def Dev.readyDue (d : Dev) (n : Nat) : Option Nat :=
  match (d.port n).pause with
  | .ready since =>
    let c := d.fld (Reg.SP_Mn_TIMES n) 15 0
    if c = 0 then none else some (since + periTicks (256 * c))
  | _ => none

/-- SP_READY_TIMEOUT (R304). -/
def Dev.readyTimeout (d : Dev) (t n : Nat) : Dev :=
  match (d.port n).cur with
  | some r => (d.spFault t n 0x0002 r.bit0 1).spCut t n 2 r.bit0 true
  | none => d

/-- When a not-ready transfer runs again (R305). -/
def Dev.retryDue (d : Dev) (n : Nat) : Option Nat := match (d.port n).pause with
  | .retry at_ => some at_
  | _ => none

/-- SP_STATUS_FIRST_RETRY (R305). -/
def Dev.spRetry (d : Dev) (t n : Nat) : Dev :=
  let x := d.port n
  match x.cur with
  | some r =>
    (d.setPort n { x with
      cur := some { r with pos := 0, bit0 := 0, from_ := d.spFrom t n, retries := r.retries + 1 }
      select := d.portBound n
      pause := if d.notReady n then .ready t else .none }).bump (Reg.SP_Mn_CNT_RETRY n)
  | none => d

/-! ## Execute-in-place (R308 to R310) -/

/-- The flash byte of an offset in the XIP window (R308); none beyond the flash. -/
def Dev.xipByte (d : Dev) (o : Nat) : Option Nat :=
  let a := o + d.fld Reg.SP_XIP_OFF 25 0
  if a < 2 ^ d.fld Reg.SP_XIP_CFG 28 24 then some a else none

/-- A fetch of the XIP window looks up its line (R309): a hit, or a miss, which is one for all that wait for the line. A miss stops a prefetch;
it waits while SP0 serves an earlier miss, a direct transfer or a chain of them, and behind one asked for before (R310). -/
def Dev.xipLookup (d : Dev) (t a : Nat) : Dev :=
  let line := a / 64
  match d.xip.lines.find? (fun l => decide (l.1 = line)) with
  | some l => d.updXip (fun x => { x with lines := l :: x.lines.filter (fun y => decide (y.1 ≠ line)) })
  | none =>
    let reading := match d.xip.cur with
      | some (l, false) => some l
      | _ => none
    if reading = some line ∨ d.xip.wait.any (fun w => decide (w.1 = line)) = true then d
    else
      let d := d.bump Reg.SP_XIP_CNT_MISS
      let p := d.port 0
      let d := if reading.isSome then d else d.updXip (fun x => { x with cur := none })
      if reading.isSome = true ∨ d.xip.wait ≠ [] ∨ p.cur.isSome = true ∨ p.select = true then
        d.updXip (fun x => { x with wait := x.wait ++ [(line, p.next.isSome)] })
      else if p.next.isSome then (d.updXip (fun x => { x with wait := [(line, false)] })).spBegin t 0
      else d.xipAccess line

/-- XIP_LINE_FILL_DONE (R309, R310): the line being read is complete, and after a miss the next one is read unless it is present or a miss waits;
then the port serves what waits. -/
def Dev.xipFill (d : Dev) (t : Nat) (bytes : List Byte) : Dev :=
  match d.xip.cur with
  | none => d
  | some (line, prefetch) =>
    let got := (List.range 64).map (fun i => bytes.getD i 0)
    let lines := ((line, got) :: d.xip.lines.filter (fun y => decide (y.1 ≠ line))).take 8
    let more := !prefetch && d.xip.wait.isEmpty && !lines.any (fun y => decide (y.1 = line + 1))
    let d := d.updXip (fun x => { x with lines := lines, cur := if more then some (line + 1, true) else none })
    if more then d else d.spNext t 0 false

/-- Every prefetch line is invalidated (R309). -/
def Dev.xipInvalidate (d : Dev) : Dev := d.updXip (fun x => { x with lines := [] })

/-! ## The slave port (R311 to R314) -/

/-- The status byte (R311). -/
def Dev.spsStatusByte (d : Dev) : Nat :=
  128 + 32 * b2n d.safe + 16 * b2n d.sps.armed.isSome + 8 * b2n d.sps.error + 4 * b2n d.flt.active + 2 + b2n (d.feature 11)

/-- The highest die sensor that is not excluded, Q10.6 K (R313, R457). -/
def Dev.dieMax (d : Dev) : Nat :=
  ((List.range 6).map (fun s => if d.bit (Reg.TR_SENSs s) 16 then 0 else d.fld (Reg.TR_SENSs s) 15 0)).foldl max 0

/-- The data of STATUS at time t (R313). -/
def Dev.spsStatusData (d : Dev) (t : Nat) : List Byte :=
  [if d.safe then 2 else 1, BitVec.ofNat 8 (b2n d.flt.active)] ++ leBytes 2 (min 65535 d.flt.count) ++ leBytes 2 d.dieMax ++ leBytes 2 (t / 2 ^ 22)

/-- The 16 bytes of a fault record (R460). -/
def FaultRec.bytes (r : FaultRec) : List Byte := leBytes 8 r.dtime ++ leBytes 2 r.unit ++ leBytes 2 r.code ++ leBytes 4 r.detail.toNat

/-- The data of FAULT (R313): the newest fault record, zeros where there is none. -/
def Dev.spsFaultData (d : Dev) : List Byte :=
  match d.flt.log with
  | r :: _ => r.bytes
  | [] => List.replicate 16 0

/-- What the mirror holds at time t: the data of STATUS, then those of FAULT (R311). -/
def Dev.spsMirror (d : Dev) (t : Nat) : List Byte := d.spsStatusData t ++ d.spsFaultData

/-- SPS_SELECT_FALL (R311): the status byte is latched. -/
def Dev.spsFall (d : Dev) (t : Nat) : Dev :=
  if d.bit Reg.SP_SPS_CFG 0 then
    let s := d.spsStatusByte
    (d.updSps (fun x => { x with select := true, status := s, mirror := d.spsMirror t })).putFld Reg.SP_SPS_STATUS 7 0 s
  else d

/-- Read data as byte 0's end latched them: no command marks that instant, so a byte that has changed since the select's fall is a free value
(R311, log 210). -/
def Dev.spsLatched (d : Dev) : List Byte → List Byte → Dev × List Byte
  | a :: as, b :: bs =>
    let f := if a = b then (a.toNat, d) else d.fresh
    let r := f.2.spsLatched as bs
    (r.1, BitVec.ofNat 8 f.1 :: r.2)
  | _, bs => (d, bs)

/-- The data that command `cmd` returns at time t (R313). -/
def Dev.spsData (d : Dev) (t cmd : Nat) : Dev × List Byte :=
  if cmd = 0x11 then d.spsLatched (d.sps.mirror.take 8) (d.spsStatusData t)
  else if cmd = 0x12 then d.spsLatched (d.sps.mirror.drop 8) d.spsFaultData
  else (d, if cmd = 0x13 then leBytes 8 d.pw.serial.toNat ++ [d.pw.check] else if cmd = 0x21 ∨ cmd = 0x22 then [0, 0] else [])

/-- The first n bytes that MISO returns to command `cmd`: the status byte twice, the data, then zeros (R311, R312). They reach the master only
where the pin is released (R435). -/
def Dev.spsReply (d : Dev) (t cmd n : Nat) : Dev :=
  let r := d.spsData t cmd
  let s := BitVec.ofNat 8 d.sps.status
  let bytes := (s :: s :: r.2).take n
  if d.pw.rel1.toNat.testBit 24 then r.1.send (.sps (bytes ++ List.replicate (n - bytes.length) 0)) else r.1

/-- The length of a command (R313). -/
def spsLength (cmd : Nat) : Nat := if cmd = 0x11 then 10 else if cmd = 0x12 then 18 else if cmd = 0x13 then 11 else 4

/-- A transaction completes (R312), with `extra` bytes beyond the command's length. -/
def Dev.spsDone (d : Dev) (t cmd extra : Nat) : Dev :=
  let d := if extra = 0 then d else d.bump Reg.SP_SPS_CNT_LONG
  ((d.spsReply t cmd (spsLength cmd + extra)).updSps (fun x => { x with select := false, error := false, transactions := x.transactions + 1 })).raise t 60 cmd

/-- The port disarms. -/
def Dev.disarm (d : Dev) : Dev := d.updSps (fun x => { x with armed := none })

/-- SPS_STATUS (R313). -/
def Dev.spsStatus (d : Dev) (t extra : Nat) : Dev := if d.sps.select then d.spsDone t 0x11 extra else d

/-- SPS_FAULT (R313). -/
def Dev.spsFault (d : Dev) (t extra : Nat) : Dev := if d.sps.select then d.disarm.spsDone t 0x12 extra else d

/-- SPS_IDENT (R313). -/
def Dev.spsIdent (d : Dev) (t extra : Nat) : Dev := if d.sps.select then d.disarm.spsDone t 0x13 extra else d

/-- A discarded or unknown transaction of `n` whole bytes (R312): 1 part, 2 short, 3 unknown. -/
def Dev.spsBad (d : Dev) (t kind cmd n : Nat) : Dev :=
  let d := d.spsReply t (if kind = 3 then 0 else cmd) n
  let d := d.bump (match kind with
    | 1 => Reg.SP_SPS_CNT_PART
    | 2 => Reg.SP_SPS_CNT_SHORT
    | _ => Reg.SP_SPS_CNT_BADCMD)
  let x := d.sps
  let again := match x.recAt with
    | some k => decide (k + 64 ≤ x.transactions)
    | none => true
  let d := { d with sps := { x with
    select := false
    error := true
    armed := none
    transactions := x.transactions + 1
    recAt := if again then some x.transactions else x.recAt } }
  let d := d.flag Reg.SP_SPS_FAULT 0
  if again then d.fault t (uid 13 4 0) 0x0005 (cmd + 256 * kind) else d

/-- Safe-stop may work (R314): stop_en set and a key other than 0. -/
def Dev.stopEn (d : Dev) : Bool := d.bit Reg.SP_SPS_CFG 1 && decide (d.fld Reg.SP_SPS_KEY 15 0 ≠ 0)

/-- A wrong key (R314). -/
def Dev.spsWrongKey (d : Dev) : Dev := d.disarm.bump Reg.SP_SPS_CNT_KEY

/-- SPS_ARM (R312, R314). -/
def Dev.spsArm (d : Dev) (t extra key : Nat) : Dev :=
  if d.sps.select = false then d
  else if d.feature 11 = false then d.spsBad t 3 0x21 (4 + extra)
  else
    let d := if d.stopEn = false then d.disarm
      else if key = d.fld Reg.SP_SPS_KEY 15 0 then d.updSps (fun x => { x with armed := some (t + 400000) }) else d.spsWrongKey
    d.spsDone t 0x21 extra

/-- Safe-stop (R314). -/
def Dev.safeStop (d : Dev) (t : Nat) : Dev :=
  let mask := maskOf ((List.range 8).filter (fun b => d.vbOn b))
  let d := ({ d with safe := true } : Dev).safeStopBanks t
  d.disarm.faultFlag t (uid 13 4 0) 0x0006 mask Reg.SP_SPS_FAULT 1

/-- SPS_STOP (R312, R314). -/
def Dev.spsStop (d : Dev) (t extra key : Nat) : Dev :=
  if d.sps.select = false then d
  else if d.feature 11 = false then d.spsBad t 3 0x22 (4 + extra)
  else
    let d := if d.stopEn = false then d
      else if key ≠ d.fld Reg.SP_SPS_KEY 15 0 then d.spsWrongKey
      else if d.sps.armed.isSome then d.safeStop t else d
    d.spsDone t 0x22 extra

/-! ## General-purpose pins (R315, R316) -/

/-- The owner of a pin as GP_Pp_CFG.owner codes it (R316, R321). -/
def Dev.pinOwner (d : Dev) (p : Nat) : Nat :=
  match (List.range 4).find? (fun n => d.portBound n && decide (d.fld (Reg.SP_Mn_SEL n) 5 1 = p)) with
  | some n => 1 + n
  | none =>
    match (List.range 4).find? (fun n => d.bit (Reg.SP_Mn_SEL n) 7 && decide (d.fld (Reg.SP_Mn_SEL n) 12 8 = p)) with
    | some n => 5 + n
    | none =>
      match (List.range 8).find? (fun n => d.bit (Reg.HP_CFG n) 0 && decide (d.fld (Reg.HP_CTRL_CFG n) 12 8 = p)) with
      | some n => 9 + n
      | none => 0

/-- The pins that the program owns, as a mask. -/
def Dev.ownPins (d : Dev) : Nat := maskOf ((List.range 20).filter (fun p => decide (d.pinOwner p = 0)))

/-- An active select reads as the level of its polarity. -/
def selectLevel (active high : Bool) : Bool := active == high

/-- The level that pin p would drive (R315, R316): GP_OUT, or the select of its owner. A head's select is active while its front transaction
has the port (R64, log 211). -/
def Dev.gpLevel (d : Dev) (p : Nat) : Bool :=
  let o := d.pinOwner p
  if o = 0 then d.bit Reg.GP_OUT p
  else if o ≤ 4 then selectLevel (d.port (o - 1)).select (d.bit (Reg.SP_Mn_SEL (o - 1)) 6)
  else selectLevel (d.ctlTurn (o - 9) && !(d.hpOf (o - 9)).ctlStopped) (d.bit (Reg.HP_CTRL_CFG (o - 9)) 13)

/-- What pin p drives, none for high impedance (R315, R316, R435): nothing before its release, as an input or as a ready pin. -/
def Dev.gpDrive (d : Dev) (p : Nat) : Option Bool :=
  let dir := d.fld (Reg.GP_Pp_CFG p) 1 0
  let o := d.pinOwner p
  let level := d.gpLevel p
  if d.pw.rel0.toNat.testBit p = false ∨ dir = 0 ∨ (5 ≤ o ∧ o ≤ 8) ∨ (dir = 2 ∧ level = true) then none else some level

/-- A write of GP_SET or GP_CLR (R315, R316). -/
def Dev.gpWrite (d : Dev) (v : Nat) (set : Bool) : Dev :=
  let v := v % 2 ^ 20
  let own := v &&& d.ownPins
  let d := if own = v then d else d.bump Reg.GP_CNT_DENY
  if set then d.setBits Reg.GP_OUT own else d.clrBits Reg.GP_OUT own

/-- GP_INPUT_EDGE (R315): a level stable for `stable` PERI cycles behind the synchroniser. -/
def Dev.gpEdge (d : Dev) (t p : Nat) (level : Bool) (stable : Nat) : Dev :=
  let c := d.rdN (Reg.GP_Pp_CFG p)
  if stable < nfld c 19 12 ∨ d.bit Reg.GP_IN p = level then d
  else
    let d := if level then d.setBits Reg.GP_IN (2 ^ p) else d.clrBits Reg.GP_IN (2 ^ p)
    if nbit c (if level then 2 else 3) then
      let d := d.flag Reg.GP_EDGE p
      if nbit c 4 then d.raise t (96 + nfld c 9 5) p else d
    else d

/-! ## Swaps and unit resets (R309, R317, R318) -/

/-- Master port n has swapped: a changed XIP field invalidates the lines (R309), and a port that is off drops what it holds. The flash stays in
continuous mode until an exit access (R310). -/
def Dev.spSwap (d : Dev) (t n : Nat) (old : Nat → Nat) : Dev :=
  let changed := [Reg.SP_XIP_CFG, Reg.SP_XIP_MODE, Reg.SP_XIP_OFF].any (fun a => decide (old a ≠ d.rdN a))
  let d := if n = 0 ∧ changed = true then d.xipInvalidate.updXip (fun x => { x with cur := none }) else d
  if d.portOn n then d else (d.updPort n (fun x => { x with next := none })).spStop t n false

/-- A unit reset of master port n (R318). -/
def Dev.spUnitReset (d : Dev) (t n : Nat) : Dev :=
  let d := (d.updPort n (fun x => { x with next := none })).spStop t n false
  let d := d.updPort n (fun x => { x with tx := [], rx := [], select := false })
  if n = 0 then { d with xip := Xip.reset } else d

/-- A unit reset of SPS: safe-stop stays. -/
def Dev.spsUnitReset (d : Dev) : Dev := d.updSps (fun x => { x with select := false, armed := none, error := false })

/-! ## Commands -/

def execSpStart (n : Fin 4) (v : Word) (s : State) : Result := s.act (fun now d => d.spStart now.dtime n v.toNat)
def execSpAbort (n : Fin 4) (s : State) : Result := s.act (fun now d => d.spAbort now.dtime n)
def execSpTxWrite (n : Fin 4) (v : Word) (s : State) : Result := s.act (fun _ d => d.spTxWrite n v.toNat)
def execSpRxRead (n : Fin 4) (s : State) : Result := s.act (fun _ d => (d.spRxRead n).2)
def execSpTransferComplete (n : Fin 4) (rx : List Byte) (s : State) : Result := s.act (fun now d => d.spComplete now.dtime n rx)
def execSpByteResume (n : Fin 4) (s : State) : Result := s.act (fun now d => d.spResume now.dtime n)
def execSpGuardStop (n : Fin 4) (bits : Nat) (s : State) : Result := s.act (fun now d => d.spGuard now.dtime n bits)
def execSpReadyChange (n : Fin 4) (level : Bool) (s : State) : Result := s.act (fun now d => d.spReady now.dtime n level)
def execSpReadyTimeout (n : Fin 4) (s : State) : Result := s.actDue (fun _ d => d.readyDue n) (fun now d => d.readyTimeout now.dtime n)
def execSpStatusFirstRetry (n : Fin 4) (s : State) : Result := s.actDue (fun _ d => d.retryDue n) (fun now d => d.spRetry now.dtime n)
def execXipLineFillDone (bytes : List Byte) (s : State) : Result := s.act (fun now d => d.xipFill now.dtime bytes)
def execXipInvalidate (s : State) : Result := s.act (fun _ d => d.xipInvalidate)
def execSpsSelectFall (s : State) : Result := s.act (fun now d => d.spsFall now.dtime)
def execSpsStatus (extra : Nat) (s : State) : Result := s.act (fun now d => d.spsStatus now.dtime extra)
def execSpsFault (extra : Nat) (s : State) : Result := s.act (fun now d => d.spsFault now.dtime extra)
def execSpsIdent (extra : Nat) (s : State) : Result := s.act (fun now d => d.spsIdent now.dtime extra)
def execSpsArm (extra : Nat) (key : BitVec 16) (s : State) : Result := s.act (fun now d => d.spsArm now.dtime extra key.toNat)
def execSpsMalformed (cut : SpsCut) (cmd : Byte) (s : State) : Result :=
  s.act (fun now d => if d.sps.select then d.spsBad now.dtime (cut.kind + 1) cmd.toNat cut.bytes else d)
def execSpsArmExpire (s : State) : Result := s.actDue (fun _ d => d.sps.armed) (fun _ d => d.disarm)
def execSafeStopClear (s : State) : Result := s.act (fun _ d => { d with safe := false })
def execGpSet (v : Word) (s : State) : Result := s.act (fun _ d => d.gpWrite v.toNat true)
def execGpClr (v : Word) (s : State) : Result := s.act (fun _ d => d.gpWrite v.toNat false)
def execGpInputEdge (p : Fin 20) (level : Bool) (stable : Nat) (s : State) : Result := s.act (fun now d => d.gpEdge now.dtime p level stable)

end Sys2Proof.Machine
end

