-- ==== Sys2Proof/Machine/Tasks.lean ====
section
/-! DEFINITION. Machine/Tasks.lean: task contexts and the scheduler (13, 14): locks and their release, task faults, releases and
deadlines, overruns, context commands, core loss, and what an instruction does before it acts. -/
namespace Sys2Proof.Machine

/-! ## Access -/

def Dev.updTk (d : Dev) (f : Tasks → Tasks) : Dev := { d with tk := f d.tk }
def Dev.tctx (d : Dev) (c : Nat) : TaskCtx := SMap.get TaskCtx.reset d.tk.ctxs c
def Dev.setTctx (d : Dev) (c : Nat) (x : TaskCtx) : Dev := { d with tk := { d.tk with ctxs := SMap.set TaskCtx.reset d.tk.ctxs c x } }
def Dev.updTctx (d : Dev) (c : Nat) (f : TaskCtx → TaskCtx) : Dev := d.setTctx c (f (d.tctx c))
def Dev.updCore (d : Dev) (k : Nat) (f : Core → Core) : Dev := d.setCore k (f (d.core k))

/-- A unit reset holds core k (R363, R434). -/
def Dev.coreHeld (d : Dev) (k : Nat) : Bool := decide (d.pw.urst = some ⟨uid 2 k 0⟩)

/-- The context that executes instructions on core k (R356). -/
def Dev.runs (d : Dev) (k : Nat) : Option Nat :=
  match (d.core k).ctx with
  | some c => if (d.tctx c).state = .running ∧ d.coreHeld k = false then some c else none
  | none => none

/-- The core that holds a context. -/
def Dev.coreOf (d : Dev) (c : Nat) : Option Nat := (List.range 4).find? (fun k => decide ((d.core k).ctx = some c))

/-- The contexts set up, in rising number. -/
def Dev.liveCtxs (d : Dev) : List Nat := d.tk.ctxs.map Prod.fst

/-- A release is in progress (R356, R358). -/
def TaskCtx.inProgress (x : TaskCtx) : Bool := x.state = .ready || x.state = .running || x.state = .suspended

/-! ## Holding registers (R9, R324) -/

def Dev.heldOf (d : Dev) (who : Reader) : Option Word := lookupD none d.regs.held who
def Dev.setHeld (d : Dev) (who : Reader) (v : Option Word) : Dev := { d with regs := { d.regs with held := assign d.regs.held who v } }

/-! ## Cores change their context (R324) -/

/-- CYC of a context (R323). -/
def Dev.cyc (d : Dev) (t c : Nat) : Nat :=
  let x := d.tctx c
  let run := match d.coreOf c with
    | some k => coreCycles t - coreCycles (d.core k).since
    | none => 0
  min (2 ^ 32 - 1) (x.cyc + run)

/-- The context leaves core k: a context switch saves it (R324), and locks that have broken stay with their task (R343); the core's busy cycles
are counted (R380). -/
def Dev.leaveCore (d : Dev) (t k : Nat) : Dev :=
  match (d.core k).ctx with
  | none => d
  | some c =>
    let d := d.updTctx c (fun x => { x with cyc := d.cyc t c, hold := d.heldOf (.core (Fin.ofNat 4 k)), locks := (d.core k).locks })
    let d := (d.setHeld (.core (Fin.ofNat 4 k)) none).bumpSat (Reg.TK_COREk_BUSY k) (coreCycles t - coreCycles (d.core k).busyFrom)
    (d.updCore k (fun x => { x with ctx := none, locks := [] })).bump Reg.TK_CNT_SWITCH

/-- Context c takes core k (R324, R356, R361). -/
def Dev.enterCore (d : Dev) (t k c : Nat) : Dev :=
  let x := d.tctx c
  let d := if x.item = none then d.updTk (fun y => { y with rot := c }) else d
  let d := d.setHeld (.core (Fin.ofNat 4 k)) x.hold
  let d := d.updCore k (fun y => { y with
    ctx := some c, since := t, busyFrom := t, retired := t, slice := d.fld Reg.TK_CFG 31 16 * 1024, saved := x.g, locks := x.locks })
  d.setTctx c { x with state := .running, hold := none, locks := [] }

/-! ## The scheduler (R360, R361) -/

/-- The least of the contexts by a key, ties to the lower number. -/
def leastBy (key : Nat → Nat) : List Nat → Option Nat
  | [] => none
  | c :: l => match leastBy key l with
    | some b => if key c ≤ key b then some c else some b
    | none => some c

/-- The READY admitted task of core k, demoted or not, with the earliest DLN (R360, R361). -/
def Dev.earliest (d : Dev) (k : Nat) (demoted : Bool) : Option Nat :=
  leastBy (fun c => (d.tctx c).dln) (d.liveCtxs.filter (fun c =>
    let x := d.tctx c
    decide (x.state = .ready) && x.item.isSome && decide (x.core = k) && decide (x.demoted = demoted)))

/-- The next READY best-effort task in rotation by context number (R361); a core held by CORE_OUT takes its test context alone (R445). -/
def Dev.bestEffort (d : Dev) (k : Nat) : Option Nat :=
  leastBy (fun c => (c + 1023 - d.tk.rot) % 1024) (d.liveCtxs.filter (fun c =>
    let x := d.tctx c
    decide (x.state = .ready) && x.item.isNone && (match (d.core k).out with
      | some e => decide (c = e)
      | none => (List.range 4).all (fun j => decide ((d.core j).out ≠ some c)))))

/-- The task that core k would take (R360, R361). On a core that CORE_OUT holds, admitted releases in progress end there (R445). -/
def Dev.pick (d : Dev) (k : Nat) : Option Nat :=
  (d.earliest k false).orElse (fun _ => (d.earliest k true).orElse (fun _ => d.bestEffort k))

/-- Core k holds a lock whose sequence is whole, or waits for one: its task is not switched out (R344, R360). -/
def Dev.pinned (d : Dev) (k : Nat) : Bool :=
  (d.core k).locks.any (fun l => decide (l.broken = 0)) || d.fab.waiters.contains k

/-- The task that preempts the one on core k: an eligible admitted task with an earlier deadline, or any before a demoted or best-effort
task; and before a demoted task one of the core's demoted tasks with an earlier deadline (R360, R361). -/
def Dev.preempter (d : Dev) (k c : Nat) : Option Nat :=
  let x := d.tctx c
  if d.pinned k then none
  else match d.earliest k false, d.earliest k true with
    | some b, _ => if x.item.isSome = true ∧ x.demoted = false ∧ x.dln ≤ (d.tctx b).dln then none else some b
    | none, some b => if x.item.isSome = true ∧ x.demoted = true ∧ (d.tctx b).dln < x.dln then some b else none
    | none, none => none

/-- One core takes what it should run; `left` says that its context has just left (one context switch then does both). -/
def Dev.schedCore (d : Dev) (t k : Nat) (left : Bool) : Dev :=
  if (d.core k).service = true ∨ (d.core k).out.isSome = true then
    match (d.core k).ctx with
    | none => match d.pick k with
      | some c => (if left then d else d.bump Reg.TK_CNT_SWITCH).enterCore t k c
      | none => d
    | some c => match d.preempter k c with
      | some b => ((d.leaveCore t k).updTctx c (fun x => { x with state := .ready })).enterCore t k b
      | none => d
  else d

/-- Every core takes what it should run (R360, R361); `left` lists the cores just left. -/
def Dev.resched (d : Dev) (t : Nat) (left : List Nat) : Dev :=
  (List.range 4).foldl (fun (d : Dev) k => d.schedCore t k (left.contains k)) d

/-! ## Locks that end without an UNLOCK (R344, R399, R400) -/

/-- The locks of core k are released: a whole sequence discards its writes and leaves its bank abandoned; a broken one is forgotten.
A LOCK that waits is withdrawn (R344, R400). -/
def Dev.releaseLocks (d : Dev) (t k c : Nat) : Dev :=
  let d := (d.core k).locks.foldl (fun (d : Dev) l =>
    if l.broken = 0 then
      ((d.updFab (fun f => { f with abandoned := if f.abandoned.contains l.bank then f.abandoned else l.bank :: f.abandoned })).bump
        Reg.FB_CNT_ABANDON).fbFault t l.bank 5 (k + 4 * c)
    else d) d
  (d.updCore k (fun x => { x with locks := [] })).updFab (fun f => { f with waiters := f.waiters.erase k })

/-- A whole sequence on core k that satisfies p breaks: its writes are discarded and its bank is free (R342, R399); `why` is 1 for a
preemption, 2 for a limit; code and bit [2] are those of its record. -/
def Dev.breakLocks (d : Dev) (t k : Nat) (p : Lock → Bool) (why code bit2 : Nat) : Dev :=
  let hit := (d.core k).locks.filter (fun l => decide (l.broken = 0) && p l)
  let d := hit.foldl (fun (d : Dev) l => (d.bump Reg.FB_CNT_BREAK).fbFault t l.bank code (k + 4 * bit2)) d
  d.updCore k (fun x => { x with locks := x.locks.map (fun l => if l.broken = 0 ∧ p l = true then { l with broken := why, writes := [] } else l) })

/-- CORE cycles of a sequence (R323, R342). -/
def Lock.cycles (l : Lock) (t : Nat) : Nat := coreCycles t - coreCycles l.since

/-! ## Task fault records (R362, R379) -/

/-- A record of code 0x0002 to 0x0005, at most once per context in any 64 releases, and its flag. -/
def Dev.tkFault (d : Dev) (t c code : Nat) : Dev :=
  let x := d.tctx c
  let d := d.flag Reg.TK_FAULT (code + 2)
  let soon := match x.recAt.find? (fun p => decide (p.1 = code)) with
    | some p => decide ((x.releases + 2 ^ 32 - p.2) % 2 ^ 32 < 64)
    | none => false
  if soon then d
  else (d.fault t (uid 2 x.core 0) code c).updTctx c (fun x => { x with recAt := assign x.recAt code x.releases })

/-! ## Releases (R358, R359) -/

/-- The release due at r starts (R358): READY, its deadline from its own release time, CYC 0. Where CORE_OUT holds the core, it
starts on the alternate core (R445). -/
def Dev.startRelease (d : Dev) (c r : Nat) : Dev :=
  d.updTctx c (fun x =>
    let core := if x.item.isSome = true ∧ (d.core x.core).out.isSome = true then x.alt else x.core
    { x with state := .ready, cyc := 0, flagged := false, demoted := false, graceAt := none, core := core,
             releases := (x.releases + 1) % 2 ^ 32,
             dln := match x.item with
               | some i => r + i.d
               | none => x.dln })

/-- A release is missed (R359). -/
def Dev.missRelease (d : Dev) (t c : Nat) : Dev := (d.bump Reg.TK_CNT_MISS).tkFault t c 4

/-- PC = entry address, registers kept; the context becomes IDLE (R357 op 4). -/
def TaskCtx.restart (x : TaskCtx) : TaskCtx := { x with pc := x.entry, state := .idle, wait := .none, refused := none }

/-- A release that falls due at r (R358, R359). -/
def Dev.takeRelease (d : Dev) (t c r : Nat) : Dev :=
  let x := d.tctx c
  match x.state with
  | .idle => d.startRelease c r
  | .faulted =>
    if x.autoRestart then ((d.updTctx c TaskCtx.restart).bump Reg.TK_CNT_RESTART).startRelease c r else d.missRelease t c
  | .free => d
  | _ => if x.pendAt.isSome then d.missRelease t c else d.updTctx c (fun x => { x with pendAt := some r })

/-- A task whose contract has ended is best-effort from its next release (R368). -/
def TaskCtx.settle (x : TaskCtx) : TaskCtx := if x.admitted then x else { x with item := none, demoted := false, evDue := [] }

/-- The release in progress ends: a pending release starts, else the context is IDLE (R359). -/
def Dev.endRelease (d : Dev) (c : Nat) : Dev :=
  let d := d.updTctx c (fun x => { x.settle with state := .idle, wait := .none, graceAt := none })
  match (d.tctx c).pendAt with
  | some r => (d.updTctx c (fun x => { x with pendAt := none })).startRelease c r
  | none => d

/-- Context c leaves the core that holds it, and its locks are released; the broken ones of a task that is switched out are forgotten (R344);
the cores left. -/
def Dev.takeOff (d : Dev) (t c : Nat) : Dev × List Nat :=
  match d.coreOf c with
  | some k => ((d.releaseLocks t k c).leaveCore t k, [k])
  | none => (d.updTctx c (fun x => { x with locks := [] }), [])

/-- A release is aborted (R362): locks released, the entry address, registers kept, and counted; a pending release starts at once. -/
def Dev.abort (d : Dev) (t c : Nat) : Dev × List Nat :=
  let r := d.takeOff t c
  let d := (r.1.bump Reg.TK_CNT_ABORT).updTctx c (fun x => { x with pc := x.entry, flagged := false, demoted := false, refused := none })
  (d.endRelease c, r.2)

/-! ## Task faults (R353, R354) -/

/-- A task fault (R353): the task stops before its instruction, its locks are released, FPC and FADDR are written, the context is
FAULTED and a record is written. A pending release then restarts it or is missed (R359). -/
def Dev.taskFault (d : Dev) (t k c code hi faddr : Nat) : Dev :=
  let d := (d.releaseLocks t k c).leaveCore t k
  let d := d.updTctx c (fun x => { x.settle with fpc := x.pc, faddr := BitVec.ofNat 32 faddr, state := .faulted, wait := .none, graceAt := none })
  let d := d.fault t (uid 2 k 0) code (c + hi % 2 ^ 16 * 2 ^ 16)
  let d := match (d.tctx c).pendAt with
    | some r => (d.updTctx c (fun x => { x with pendAt := none })).takeRelease t c r
    | none => d
  d.resched t [k]

/-- The illegal-instruction fault: its detail carries the opcode (R354). -/
def Dev.illegal (d : Dev) (t k c opcode : Nat) : Dev := d.taskFault t k c 0x0101 opcode 0

/-! ## Issuing an instruction -/

/-- The PC lies where instructions are fetched (R326, R333). -/
def Dev.fetchable (d : Dev) (pc : Nat) : Bool :=
  decide (pc % 4 = 0) && (decide (pc < 0x40000) ||
    (decide (0x40000000 ≤ pc) && decide (pc < 0x44000000) && d.bit Reg.SP_XIP_CFG 0 && (d.xipByte (pc - 0x40000000)).isSome))

/-- What a fetch in the XIP window beyond the flash's end leaves at SP_M0 (R308, R319): the fault record, with the flash byte, and its flag. -/
def Dev.xipRange (d : Dev) (t pc : Nat) : Dev :=
  if 0x40000000 ≤ pc ∧ pc < 0x44000000 ∧ d.bit Reg.SP_XIP_CFG 0 = true ∧ d.xipByte (pc - 0x40000000) = none then
    d.faultFlag t (uid 13 0 0) 4 (pc - 0x40000000 + d.fld Reg.SP_XIP_OFF 25 0) (Reg.SP_Mn_FAULT 0) 3
  else d

/-- A task fault of a fetch at pc (R308, R326, R354). -/
def Dev.fetchFaultAt (d : Dev) (t k c pc : Nat) : Dev := (d.xipRange t pc).taskFault t k c 0x0102 (nfld pc 17 2) 0

/-- A task fault of the fetch at the task's PC. -/
def Dev.fetchFault (d : Dev) (t k c : Nat) : Dev := d.fetchFaultAt t k c (d.tctx c).pc.toNat

/-- The device-space fault of a DST that was refused (R335). -/
def Dev.refusalFault (d : Dev) (t k c : Nat) : Dev :=
  let a := match (d.tctx c).refused with
    | some r => r.1
    | none => 0
  (d.updTctx c (fun x => { x with refused := none })).taskFault t k c 0x0105 a a

/-- An instruction of core k issues: nothing where no task executes there; a fetch outside R326's regions faults, and so does the first
instruction after a refusal has reached the core (R335). -/
def Dev.issue (d : Dev) (t k : Nat) (f : Nat → TaskCtx → Dev → Dev × List MemWrite) : Dev × List MemWrite :=
  match d.runs k with
  | none => (d, [])
  | some c =>
    let x := d.tctx c
    if d.fetchable x.pc.toNat = false then (d.fetchFault t k c, [])
    else match x.refused with
      | some (_, true) => (d.refusalFault t k c, [])
      | _ => f c x d

/-- The task's context after its instruction; the core has retired one (R363). -/
def Dev.retire (d : Dev) (t k c : Nat) (x : TaskCtx) : Dev := (d.setTctx c x).updCore k (fun y => { y with retired := t })

/-- An instruction that waits until the task's earlier stores and DSTs have landed (R327): it waits for a refusal too (R335), and
does nothing yet while a store of its core waits for a lock (R395). -/
def Dev.issueAfter (d : Dev) (t k : Nat) (f : Nat → TaskCtx → Dev → Dev × List MemWrite) : Dev × List MemWrite :=
  d.issue t k (fun c x d =>
    if x.refused.isSome then (d.refusalFault t k c, [])
    else if d.fab.held.any (fun h => decide (h.1 = k)) then (d, [])
    else f c x d)

/-- An Ercel instruction of core k. -/
def State.ercel (s : State) (k : Fin 4) (f : Now → Mem → Nat → TaskCtx → Dev → Dev × List MemWrite) : Result :=
  s.actWr k (fun now m d => d.issue now.dtime k (f now m))

/-- An instruction that only changes its own context. -/
def State.ercelReg (s : State) (k : Fin 4) (f : TaskCtx → TaskCtx) : Result :=
  s.ercel k (fun now _ c x d => (d.retire now.dtime k c (f x), []))

/-- An instruction that waits under R327. -/
def State.ercelAfter (s : State) (k : Fin 4) (f : Now → Mem → Nat → TaskCtx → Dev → Dev × List MemWrite) : Result :=
  s.actWr k (fun now m d => d.issueAfter now.dtime k (f now m))

/-- A suspended task resumes: its instruction is complete and the context is READY (R356); a LOCK resumes on its core. -/
def Dev.resume (d : Dev) (t c : Nat) (x : TaskCtx) : Dev :=
  (d.setTctx c { x.next with wait := .none, state := .ready }).resched t []

/-- The task on core k suspends in a wait (R336, R356). -/
def Dev.suspend (d : Dev) (t k c : Nat) (w : TaskWait) : Dev :=
  let d := d.leaveCore t k
  (d.updTctx c (fun x => { x with state := .suspended, wait := w })).resched t [k]

/-! ## Context commands (R357, R363) -/

/-- TK_CMDRES of a reader (R357). -/
def Dev.cmdResult (d : Dev) (who : Reader) (r : Nat) : Dev := d.updTk (fun x => { x with cmdRes := assign x.cmdRes who r })

/-- The entry address that a sender's SETUP uses: TK_ENTRY, or HX_TKDB_ENTRY for a host (R357, R410). -/
def Dev.entryOf (d : Dev) : Reader → Word
  | .link _ => d.rd Reg.HX_TKDB_ENTRY
  | _ => d.rd Reg.TK_ENTRY

/-- The context set up on a core with an entry address: IDLE, its registers cleared, a best-effort task (R357). -/
def TaskCtx.setUp (x : TaskCtx) (entry : Word) (core : Nat) (auto : Bool) : TaskCtx :=
  { x with g := [], flg := Flags.reset, evg := 0, evm := 0, evp := 0, tmo := 0xFFFFFFFF, pc := entry, entry := entry, core := core, autoRestart := auto,
           state := .idle, releases := 0, wait := .none, item := none, pendAt := none, graceAt := none, flagged := false, demoted := false,
           refused := none, recAt := [], evDue := [], lastRel := none }

/-- SETUP (R357 op 1). -/
def Dev.setup (d : Dev) (who : Reader) (c core : Nat) (auto : Bool) : Dev :=
  if (d.tctx c).state = .free then (d.updTctx c (fun x => x.setUp (d.entryOf who) core auto)).cmdResult who 0
  else d.cmdResult who 1

/-- RELEASE (R357 op 2): the first success closes the feature window (R420), but for the boot context of XIP boot, and one through HX_TKDB the loader window (R409). -/
def Dev.releaseCmd (d : Dev) (t : Nat) (who : Reader) (c : Nat) : Dev :=
  let x := d.tctx c
  if x.admitted then d.cmdResult who 2
  else if x.state = .idle then
    let d := (d.startRelease c t).cmdResult who 0
    let d := match who with
      | .link _ => d.updHx (fun h => { h with loader := false })
      | _ => d
    let d := if d.hx.window = 0 ∧ (c ≠ 0 ∨ d.hx.xipStart = none) then d.featBase t 3 else d
    d.resched t []
  else d.cmdResult who 1

/-- STOP (R357 op 3). -/
def Dev.stopCmd (d : Dev) (t : Nat) (who : Reader) (c : Nat) : Dev :=
  let x := d.tctx c
  if x.admitted then d.cmdResult who 2
  else
    let r := d.takeOff t c
    ((r.1.updTctx c (fun x => { x with state := .free, wait := .none, item := none, pendAt := none, graceAt := none, refused := none,
                                       flagged := false, demoted := false })).cmdResult who 0).resched t r.2

/-- RESTART (R357 op 4). -/
def Dev.restartCmd (d : Dev) (who : Reader) (c : Nat) : Dev :=
  if (d.tctx c).state = .faulted then (d.updTctx c TaskCtx.restart).cmdResult who 0 else d.cmdResult who 1

/-- A core returns to service (R363): not one in service, or held by a unit reset or an activity. -/
def Dev.coreReturn (d : Dev) (t : Nat) (who : Reader) (k : Nat) : Dev :=
  if (d.core k).service = true ∨ d.coreHeld k = true ∨ (d.core k).out.isSome = true then d.cmdResult who 1
  else ((d.updCore k (fun x => { x with service := true, faulted := false })).cmdResult who 0).resched t []

/-- A context command word (R357, R381): other ops are ignored. -/
def Dev.tkCommand (d : Dev) (t : Nat) (who : Reader) (v : Nat) : Dev :=
  let c := v % 1024
  match nfld v 14 12 with
  | 1 => d.setup who c (nfld v 17 16) (nbit v 18)
  | 2 => d.releaseCmd t who c
  | 3 => d.stopCmd t who c
  | 4 => d.restartCmd who c
  | 5 => d.coreReturn t who (nfld v 17 16)
  | _ => d

/-! ## Core loss (R363) -/

/-- The release of an admitted task on a lost core is aborted; a pending release starts after the move. -/
def Dev.abortLost (d : Dev) (t c : Nat) : Dev :=
  let d := (d.takeOff t c).1.bump Reg.TK_CNT_ABORT
  d.updTctx c (fun x => { x.settle with pc := x.entry, flagged := false, demoted := false, state := .idle, wait := .none, graceAt := none,
                                        refused := none })

/-- An admitted task moves to its alternate core, or stops in FAULTED where that core is not in service (R363). -/
def Dev.moveTask (d : Dev) (t k c : Nat) : Dev :=
  let x := d.tctx c
  let d := if (d.core x.alt).service ∧ x.alt ≠ k then
      ((d.updTctx c (fun x => { x with core := x.alt })).flag Reg.TK_FAULT 8).fault t (uid 2 k 0) 6 (c + x.alt * 2 ^ 16)
    else ((d.updTctx c (fun x => { x with state := .faulted })).flag Reg.TK_FAULT 9).fault t (uid 2 k 0) 7 c
  match x.pendAt with
  | some r => (d.updTctx c (fun x => { x with pendAt := none })).takeRelease t c r
  | none => d

/-- Core k is lost (R363): cause 0 unit reset, 1 residue, 2 context save or restore, 3 no progress. -/
def Dev.coreLost (d : Dev) (t k cause : Nat) : Dev :=
  let d := match (d.core k).ctx with
    | some c =>
      if (d.tctx c).item.isSome then d
      else
        let g := (d.core k).saved
        (d.abortLost t c).updTctx c (fun x => { x with g := g })
    | none => d
  let mine := d.liveCtxs.filter (fun c => (d.tctx c).item.isSome && decide ((d.tctx c).core = k))
  let d := mine.foldl (fun (d : Dev) c => if (d.tctx c).inProgress then d.abortLost t c else d) d
  let d := d.updCore k (fun x => { x with service := false, faulted := decide (cause ≠ 0), out := none, dma := if cause = 0 then [] else x.dma })
  let moving := mine.filter (fun c => (d.tctx c).admitted)
  let moved := (moving.filter (fun c => (d.core (d.tctx c).alt).service && decide ((d.tctx c).alt ≠ k))).length
  let d := if cause = 0 then d else d.flag Reg.TK_FAULT k
  let d := d.fault t (uid 2 k 0) 1 (cause + 256 * (moved % 256))
  let d := moving.foldl (fun (d : Dev) c => d.moveTask t k c) d
  d.resched t []

/-- The DTIME at which a core that makes no progress faults (R363). -/
def Dev.coreStuckDue (d : Dev) (k : Nat) : Option Nat := (d.runs k).map (fun _ => afterCycles (d.core k).retired 1048576)

/-! ## Releases and overruns that fall due (R358, R361, R362) -/

/-- The next periodic release of a context (R358). -/
def Dev.periodicDue (d : Dev) (c : Nat) : Option Nat :=
  let x := d.tctx c
  match x.item with
  | some i => if x.admitted = true ∧ i.event = none then some x.nextRel else none
  | none => none

def Dev.periodicRelease (d : Dev) (t c : Nat) : Dev :=
  let x := d.tctx c
  let step := match x.item with
    | some i => i.t
    | none => 0
  ((d.updTctx c (fun x => { x with nextRel := x.nextRel + step, lastRel := some x.nextRel })).takeRelease t c x.nextRel).resched t []

/-- The next event release of a context: not before the previous release plus T (R358). -/
def Dev.eventReleaseDue (d : Dev) (c : Nat) : Option Nat :=
  let x := d.tctx c
  match x.item, x.evDue with
  | some i, e :: _ => some (match x.lastRel with
    | some l => max e (l + i.t)
    | none => e)
  | _, _ => none

def Dev.eventRelease (d : Dev) (t c : Nat) : Dev :=
  match d.eventReleaseDue c with
  | some r => ((d.updTctx c (fun x => { x with evDue := x.evDue.drop 1, lastRel := some r })).takeRelease t c r).resched t []
  | none => d

/-- When CYC of the task reaches its budget (R362). -/
def Dev.budgetDue (d : Dev) (c : Nat) : Option Nat :=
  let x := d.tctx c
  match x.item, d.coreOf c with
  | some i, some k => if x.demoted then none else some (afterCycles (d.core k).since (i.c - x.cyc))
  | _, _ => none

def Dev.budgetOut (d : Dev) (t c : Nat) : Dev :=
  (((d.updTctx c (fun x => { x with demoted := true })).bump Reg.TK_CNT_BUDGET).tkFault t c 5).resched t []

/-- When a release in progress passes its deadline (R362). -/
def Dev.deadlineDue (d : Dev) (c : Nat) : Option Nat :=
  let x := d.tctx c
  if x.item.isSome = true ∧ x.inProgress = true ∧ x.flagged = false then some x.dln else none

def Dev.deadline (d : Dev) (t c : Nat) : Dev :=
  ((d.updTctx c (fun x => { x with flagged := true, graceAt := some (x.dln + d.fld Reg.TK_CFG 15 0 * 1024) })).bump Reg.TK_CNT_FLAG).tkFault t c 2

/-- When a flagged release is aborted: not while a lock sequence of the task is open (R362). -/
def Dev.graceDue (d : Dev) (c : Nat) : Option Nat :=
  let x := d.tctx c
  let open_ := match d.coreOf c with
    | some k => (d.core k).locks.any (fun l => decide (l.broken = 0))
    | none => false
  if x.inProgress = true ∧ open_ = false then x.graceAt else none

def Dev.graceOut (d : Dev) (t c : Nat) : Dev :=
  let r := (d.tkFault t c 3).abort t c
  r.1.resched t r.2

/-- When the slice of a best-effort task ends: not while it holds a lock (R344, R361). -/
def Dev.sliceDue (d : Dev) (k : Nat) : Option Nat :=
  match d.runs k with
  | some c =>
    if (d.tctx c).item = none ∧ d.pinned k = false then some (afterCycles (d.core k).since (d.core k).slice) else none
  | none => none

/-- The task on core k stays ready and gives the core to the scheduler (R351, R361): a best-effort task goes to the end of the rotation, which
goes on after it. -/
def Dev.giveUp (d : Dev) (t k c : Nat) : Dev :=
  let d := if (d.tctx c).item = none then d.updTk (fun y => { y with rot := c }) else d
  ((d.leaveCore t k).updTctx c (fun x => { x with state := .ready })).resched t [k]

def Dev.sliceOut (d : Dev) (t k : Nat) : Dev := match d.runs k with
  | some c => d.giveUp t k c
  | none => d

/-! ## Rows -/

def execContextSetup (who : Reader) (c : Fin 1024) (core : Fin 4) (auto : Bool) (s : State) : Result :=
  s.fromSender who (.contextSetup who c core auto) (s.act (fun _ d => d.setup who c core auto))
def execContextRelease (who : Reader) (c : Fin 1024) (s : State) : Result :=
  s.fromSender who (.contextRelease who c) (s.act (fun now d => d.releaseCmd now.dtime who c))
def execContextStop (who : Reader) (c : Fin 1024) (s : State) : Result :=
  s.fromSender who (.contextStop who c) (s.actWr 13 (fun now _ d => (d.stopCmd now.dtime who c, [])))
def execContextRestart (who : Reader) (c : Fin 1024) (s : State) : Result :=
  s.fromSender who (.contextRestart who c) (s.act (fun _ d => d.restartCmd who c))
def execCoreReturnToService (who : Reader) (k : Fin 4) (s : State) : Result :=
  s.fromSender who (.coreReturnToService who k) (s.act (fun now d => d.coreReturn now.dtime who k))
def execTaskReleasePeriodic (c : Fin 1024) (s : State) : Result := s.actDue (fun _ d => d.periodicDue c) (fun now d => d.periodicRelease now.dtime c)
def execTaskReleaseEvent (c : Fin 1024) (s : State) : Result := s.actDue (fun _ d => d.eventReleaseDue c) (fun now d => d.eventRelease now.dtime c)
def execBudgetExhausted (c : Fin 1024) (s : State) : Result := s.actDue (fun _ d => d.budgetDue c) (fun now d => d.budgetOut now.dtime c)
def execDeadlineReached (c : Fin 1024) (s : State) : Result := s.actDue (fun _ d => d.deadlineDue c) (fun now d => d.deadline now.dtime c)
def execGraceExpired (c : Fin 1024) (s : State) : Result := s.actDueWr 13 (fun _ d => d.graceDue c) (fun now _ d => (d.graceOut now.dtime c, []))
def execSliceExpired (k : Fin 4) (s : State) : Result := s.actDue (fun _ d => d.sliceDue k) (fun now d => d.sliceOut now.dtime k)
def execCoreFault (k : Fin 4) (saving : Bool) (s : State) : Result :=
  s.actWr 13 (fun now _ d => (if (d.core k).service = true ∨ (d.core k).out.isSome = true then d.coreLost now.dtime k (if saving then 2 else 1) else d, []))
def execCoreNoProgress (k : Fin 4) (s : State) : Result :=
  s.actDueWr 13 (fun _ d => d.coreStuckDue k) (fun now _ d => (d.coreLost now.dtime k 3, []))

end Sys2Proof.Machine
end

