-- ==== Sys2Proof/Machine/Ercel.lean ====
section
/-! DEFINITION. Machine/Ercel.lean: Ercel instructions that act on a task's own registers: the ALU, immediates, special registers, branches,
SYS and TRAP (R322 to R333, R351, R352), and the faults of fetching and decoding. -/
namespace Sys2Proof.Machine

/-- rd takes the result of an ALU function, and the flags those it gives (R330). -/
def TaskCtx.alu (x : TaskCtx) (rd : Nat) (o : AluOut) : TaskCtx := { (x.setReg rd o.1).next with flg := o.2 }
/-- rd takes a word; the flags stand (R329). -/
def TaskCtx.put (x : TaskCtx) (rd : Nat) (v : Word) : TaskCtx := (x.setReg rd v).next

/-- An ALU function of A and B. -/
def State.alu (s : State) (k : Fin 4) (rd ra rb : Fin 16) (f : Flags → Word → Word → AluOut) : Result :=
  s.ercelReg k (fun x => x.alu rd (f x.flg (x.reg ra) (x.reg rb)))

def execAdd (k : Fin 4) (rd ra rb : Fin 16) (s : State) : Result := s.alu k rd ra rb (fun f a b => aluAdd f a b false)
def execSub (k : Fin 4) (rd ra rb : Fin 16) (s : State) : Result := s.alu k rd ra rb (fun f a b => aluSub f a b false)
def execAdc (k : Fin 4) (rd ra rb : Fin 16) (s : State) : Result := s.alu k rd ra rb (fun f a b => aluAdd f a b f.c)
def execSbc (k : Fin 4) (rd ra rb : Fin 16) (s : State) : Result := s.alu k rd ra rb (fun f a b => aluSub f a b f.c)
def execAnd (k : Fin 4) (rd ra rb : Fin 16) (s : State) : Result := s.alu k rd ra rb (fun f a b => aluPlain f (a &&& b))
def execOr (k : Fin 4) (rd ra rb : Fin 16) (s : State) : Result := s.alu k rd ra rb (fun f a b => aluPlain f (a ||| b))
def execXor (k : Fin 4) (rd ra rb : Fin 16) (s : State) : Result := s.alu k rd ra rb (fun f a b => aluPlain f (a ^^^ b))
def execShl (k : Fin 4) (rd ra rb : Fin 16) (sh : BitVec 5) (s : State) : Result := s.alu k rd ra rb (fun f a b => aluShl f a b sh)
def execShr (k : Fin 4) (rd ra rb : Fin 16) (sh : BitVec 5) (s : State) : Result := s.alu k rd ra rb (fun f a b => aluShr f a b sh)
def execSar (k : Fin 4) (rd ra rb : Fin 16) (sh : BitVec 5) (s : State) : Result := s.alu k rd ra rb (fun f a b => aluSar f a b sh)
def execMul (k : Fin 4) (rd ra rb : Fin 16) (s : State) : Result := s.alu k rd ra rb aluMul
def execMulh (k : Fin 4) (rd ra rb : Fin 16) (s : State) : Result := s.alu k rd ra rb aluMulh
def execMulhu (k : Fin 4) (rd ra rb : Fin 16) (s : State) : Result := s.alu k rd ra rb aluMulhu
def execDiv (k : Fin 4) (rd ra rb : Fin 16) (s : State) : Result := s.alu k rd ra rb aluDiv
def execDivu (k : Fin 4) (rd ra rb : Fin 16) (s : State) : Result := s.alu k rd ra rb aluDivu
def execMin (k : Fin 4) (rd ra rb : Fin 16) (s : State) : Result := s.alu k rd ra rb aluMin
def execMax (k : Fin 4) (rd ra rb : Fin 16) (s : State) : Result := s.alu k rd ra rb aluMax
def execMinu (k : Fin 4) (rd ra rb : Fin 16) (s : State) : Result := s.alu k rd ra rb aluMinu
def execMaxu (k : Fin 4) (rd ra rb : Fin 16) (s : State) : Result := s.alu k rd ra rb aluMaxu
def execAdds (k : Fin 4) (rd ra rb : Fin 16) (s : State) : Result := s.alu k rd ra rb aluAdds
def execSubs (k : Fin 4) (rd ra rb : Fin 16) (s : State) : Result := s.alu k rd ra rb aluSubs
def execSats (k : Fin 4) (rd ra : Fin 16) (sh : BitVec 5) (s : State) : Result := s.alu k rd ra 0 (fun f a _ => aluSats f a sh)
def execSatu (k : Fin 4) (rd ra : Fin 16) (sh : BitVec 5) (s : State) : Result := s.alu k rd ra 0 (fun f a _ => aluSatu f a sh)
def execQmul (k : Fin 4) (rd ra rb : Fin 16) (sh : BitVec 5) (s : State) : Result := s.alu k rd ra rb (fun f a b => aluQmul f a b sh)
def execQmulu (k : Fin 4) (rd ra rb : Fin 16) (sh : BitVec 5) (s : State) : Result := s.alu k rd ra rb (fun f a b => aluQmulu f a b sh)
def execClz (k : Fin 4) (rd ra : Fin 16) (s : State) : Result := s.alu k rd ra 0 (fun f a _ => aluClz f a)

/-! ## Immediates (R329) -/

/-- An ALU function of ra and an immediate. -/
def State.aluImm (s : State) (k : Fin 4) (rd ra : Fin 16) (f : Flags → Word → AluOut) : Result :=
  s.ercelReg k (fun x => x.alu rd (f x.flg (x.reg ra)))

def execAddi (k : Fin 4) (rd ra : Fin 16) (imm : BitVec 18) (s : State) : Result := s.aluImm k rd ra (fun f a => aluAdd f a (simm imm) false)
def execAndi (k : Fin 4) (rd ra : Fin 16) (imm : BitVec 18) (s : State) : Result := s.aluImm k rd ra (fun f a => aluPlain f (a &&& zimm imm))
def execOri (k : Fin 4) (rd ra : Fin 16) (imm : BitVec 18) (s : State) : Result := s.aluImm k rd ra (fun f a => aluPlain f (a ||| zimm imm))
def execXori (k : Fin 4) (rd ra : Fin 16) (imm : BitVec 18) (s : State) : Result := s.aluImm k rd ra (fun f a => aluPlain f (a ^^^ zimm imm))
/-- LUI: the flags stand (R329). -/
def execLui (k : Fin 4) (rd : Fin 16) (imm : BitVec 22) (s : State) : Result :=
  s.ercelReg k (fun x => x.put rd (imm.zeroExtend 32 <<< 10))

/-! ## Special registers (R323, R338) -/

/-- LKS (R323). -/
def Dev.lks (d : Dev) (t k : Nat) : Nat := match (d.core k).locks with
  | [] => 0
  | l :: ls => ls.length + 1 + 16 * l.rank + 256 * l.accesses + 65536 * (l.cycles t % 512)

/-- The value of a special register; reading the low word of a pair holds its high word, and a high word comes from the holding register
where it holds one (R9, R324). None for a number that is not listed. -/
def Dev.readSpecial (d : Dev) (now : Now) (k c : Nat) (n : Nat) : Option (Word × Dev) :=
  let x := d.tctx c
  let who : Reader := .core (Fin.ofNat 4 k)
  let low := fun (lo hi : Word) => (lo, d.setHeld who (some hi))
  let high := fun (hi : Word) => ((d.heldOf who).getD hi, d.setHeld who none)
  let w := BitVec.ofNat 32
  match n with
  | 0 => some (w (c + 4096 * k), d)
  | 1 => some (low (w x.dln) (w (x.dln / 2 ^ 32)))
  | 2 => some (high (w (x.dln / 2 ^ 32)))
  | 3 => some (x.tmo, d)
  | 4 => some (w x.evg, d)
  | 5 => some (x.evm, d)
  | 6 => some (x.evp, d)
  | 7 => some (x.evrec, d)
  | 8 => some (x.evtime, d)
  | 9 => some (x.evcnt, d)
  | 10 => some (low (w now.dtime) (w (now.dtime / 2 ^ 32)))
  | 11 => some (high (w (now.dtime / 2 ^ 32)))
  | 12 => some (low (BitVec.ofInt 32 now.wpos) (BitVec.ofInt 32 (now.wpos / 2 ^ 32)))
  | 13 => some (high (BitVec.ofInt 32 (now.wpos / 2 ^ 32)))
  | 14 => some (w (d.cyc now.dtime c), d)
  | 15 => some (x.flg.word, d)
  | 16 => some (w (d.lks now.dtime k), d)
  | 17 => some (x.fpc, d)
  | 18 => some (x.faddr, d)
  | _ => none

/-- A special register written by MTS, with what R338 adds; none for one that is read-only or not listed (R323). -/
def TaskCtx.writeSpecial (x : TaskCtx) (n : Nat) (v : Word) : Option TaskCtx :=
  match n with
  | 3 => some { x with tmo := v }
  | 4 => some { x with evg := v.toNat % 8, evm := 0, evp := 0 }
  | 5 => some { x with evm := v, evp := x.evp &&& v }
  | 15 => some { x with flg := Flags.ofWord v }
  | _ => none

def execMfs (k : Fin 4) (rd : Fin 16) (sr : Fin 32) (s : State) : Result :=
  s.ercel k (fun now _ c x d => match d.readSpecial now k c sr with
    | some (v, d) => (d.retire now.dtime k c (x.put rd v), [])
    | none => (d.illegal now.dtime k c 0x07, []))
def execMts (k : Fin 4) (sr : Fin 32) (ra : Fin 16) (s : State) : Result :=
  s.ercel k (fun now _ c x d => match x.writeSpecial sr (x.reg ra) with
    | some y => (d.retire now.dtime k c y.next, [])
    | none => (d.illegal now.dtime k c 0x08, []))

/-! ## Branches (R329, R333) -/

/-- BR: code 8 is illegal; offsets count instructions from the branch itself (R333). -/
def execBr (k : Fin 4) (cond : Fin 16) (off : BitVec 22) (s : State) : Result :=
  s.ercel k (fun now _ c x d =>
    if cond = 8 then (d.illegal now.dtime k c 0x13, [])
    else (d.retire now.dtime k c (if x.flg.cond cond then { x with pc := x.pc + off.signExtend 32 <<< 2 } else x.next), []))
def execBl (k : Fin 4) (off : BitVec 26) (s : State) : Result :=
  s.ercelReg k (fun x => { x.setReg 15 (x.pc + 4) with pc := x.pc + off.signExtend 32 <<< 2 })
/-- JALR: the target is formed before rd is written; a target with bits [1:0] not zero faults at its fetch (R333). -/
def execJalr (k : Fin 4) (rd ra : Fin 16) (imm : BitVec 18) (s : State) : Result :=
  s.ercelReg k (fun x => { x.setReg rd (x.pc + 4) with pc := x.reg ra + simm imm })

/-! ## SYS and TRAP (R344, R351, R352) -/

/-- A lock wait fault: its detail carries the opcode (R344, R354). -/
def Dev.lockWait (d : Dev) (t k c opcode : Nat) : Dev := d.taskFault t k c 0x0108 opcode 0
/-- The core holds a lock, whole or broken (R344). -/
def Dev.holdsLock (d : Dev) (k : Nat) : Bool := !(d.core k).locks.isEmpty

def execNop (k : Fin 4) (s : State) : Result := s.ercelReg k TaskCtx.next
def execSync (k : Fin 4) (s : State) : Result := s.ercelAfter k (fun now _ c x d => (d.retire now.dtime k c x.next, []))
def execYield (k : Fin 4) (s : State) : Result :=
  s.ercel k (fun now _ c x d =>
    if d.holdsLock k then (d.lockWait now.dtime k c 0x1F, [])
    else ((d.retire now.dtime k c x.next).giveUp now.dtime k c, []))
def execHalt (k : Fin 4) (s : State) : Result :=
  s.ercelAfter k (fun now _ c x d =>
    if d.holdsLock k then (d.lockWait now.dtime k c 0x1F, [])
    else ((((d.retire now.dtime k c x.next).leaveCore now.dtime k).endRelease c).resched now.dtime [(k : Nat)], []))
def execTrap (k : Fin 4) (code : BitVec 16) (s : State) : Result :=
  s.ercel k (fun now _ c _ d => (d.taskFault now.dtime k c 0x010B code.toNat 0, []))

/-! ## Words that are no instruction, and fetches that fail (R326, R328) -/

def execIllegalInstruction (k : Fin 4) (opcode : BitVec 6) (s : State) : Result :=
  s.ercel k (fun now _ c _ d => (d.illegal now.dtime k c opcode.toNat, []))
/-- A fetch at the PC: `bad` says that it reads an uncorrectable error; a fetch that succeeds is its instruction's row. -/
def execFetchFault (k : Fin 4) (bad : Bool) (s : State) : Result :=
  s.ercel k (fun now _ c _ d => (if bad then d.fetchFault now.dtime k c else d, []))
/-- XIP_FETCH (R308): a fetch in the XIP window by core k. -/
def execXipFetch (k : Fin 4) (offset : BitVec 26) (s : State) : Result :=
  s.actWr k (fun now _ d => match d.runs k with
    | none => (d, [])
    | some c => (match if d.bit Reg.SP_XIP_CFG 0 then d.xipByte offset.toNat else none with
      | some a => d.xipLookup now.dtime a
      | none => d.fetchFaultAt now.dtime k c (0x40000000 + offset.toNat), []))

end Sys2Proof.Machine
end

