-- ==== Sys2Proof/Machine/ErcelMemory.lean ====
section
/-! DEFINITION. Machine/ErcelMemory.lean: Ercel loads and stores (R325, R327, R334) and locked sequences (R341 to R344, R395 to R400). -/
namespace Sys2Proof.Machine

/-! ## Address spaces (R325) -/

/-- Where a task address lies: local memory, frame memory with its byte address, or the XIP window with its flash byte. -/
inductive Place where
  | loc | frame (f : Nat) | xip (flash : Nat) | none
  deriving DecidableEq, Repr

/-- The place of a task address (R325); the XIP window holds data while xip_en is set and below the flash's end (log 96). -/
def Dev.place (d : Dev) (a : Nat) : Place :=
  if a < 0x40000 then .loc
  else if 0x10000000 ≤ a ∧ a < 0x13000000 then .frame (a - 0x10000000)
  else if 0x40000000 ≤ a ∧ a < 0x44000000 ∧ d.bit Reg.SP_XIP_CFG 0 = true then
    match d.xipByte (a - 0x40000000) with
    | some b => .xip b
    | Option.none => .none
  else .none

/-! ## What a task sees of memory (R327, R342) -/

/-- The byte that the newest of some writes leaves at an address. -/
def overlay (ws : List MemWrite) (a : Nat) (b : Byte) : Byte :=
  ws.foldl (fun b w => match w with
    | .frame x v => if x = a then v else b
    | _ => b) b

/-- A byte of frame memory as core k's task sees it: its own earlier stores, held or landed. -/
def Dev.seenByte (d : Dev) (m : Mem) (k a : Nat) : Byte :=
  overlay ((d.fab.held.filter (fun h => decide (h.1 = k))).map Prod.snd).flatten a (m.frameByte a)

/-- The n bytes of local memory at a as core k's task sees them: with its own earlier stores that have not landed. -/
def Dev.seenLoc (d : Dev) (m : Mem) (k a n : Nat) : Nat :=
  leNat ((List.range n).map (fun i => ((d.fab.held.filter (fun h => decide (h.1 = k))).map Prod.snd).flatten.foldl (fun b w => match w with
    | .loc x v => if x = a + i then v else b
    | _ => b) (m.locByte (a + i))))

/-- The buffered writes of a sequence as byte writes, oldest first. -/
def Lock.bytes (l : Lock) : List MemWrite := (l.writes.map (fun w => frameWrites w.1 w.2.1 w.2.2)).flatten

/-- The n bytes at a that a load of core k sees, with the buffered writes of its own sequence. -/
def Dev.seen (d : Dev) (m : Mem) (k a n : Nat) (ws : List MemWrite) : Nat :=
  leNat ((List.range n).map (fun i => overlay ws (a + i) (d.seenByte m k (a + i))))

/-! ## Accesses inside a sequence (R342) -/

/-- The lock of core k on a bank. -/
def Dev.lockOn (d : Dev) (k b : Nat) : Option Lock := (d.core k).locks.find? (fun l => decide (l.bank = b))

/-- A sequence makes an access (R342): one that comes with 256 CORE cycles passed, or as the 17th, breaks it. -/
def Dev.access (d : Dev) (t k b : Nat) : Dev :=
  match d.lockOn k b with
  | some l =>
    if l.broken ≠ 0 then d
    else if 256 ≤ l.cycles t then d.breakLocks t k (fun x => decide (x.bank = b)) 2 7 1
    else if 16 ≤ l.accesses then d.breakLocks t k (fun x => decide (x.bank = b)) 2 7 0
    else d.updCore k (fun x => { x with locks := x.locks.map (fun y => if y.bank = b then { y with accesses := y.accesses + 1 } else y) })
  | none => d

/-! ## Loads and stores (R334) -/

def Dev.addressFault (d : Dev) (t k c a : Nat) : Dev := d.taskFault t k c 0x0104 a a
def Dev.alignFault (d : Dev) (t k c a : Nat) : Dev := d.taskFault t k c 0x0103 a a
def Dev.memoryFault (d : Dev) (t k c a : Nat) : Dev := d.taskFault t k c 0x0106 a a

/-- A load of n bytes; `ext` extends them to a word. `bad` says that the memory's read finds a new uncorrectable error. A load of the XIP
window waits for its line (R310, R336). -/
def Dev.load (d : Dev) (m : Mem) (t k c : Nat) (x : TaskCtx) (rd a n : Nat) (ext : Nat → Word) (bad : Bool) : Dev :=
  match d.place a with
  | .none => d.addressFault t k c a
  | .loc =>
    if a % n ≠ 0 then d.alignFault t k c a
    else if bad then d.memoryFault t k c a
    else d.retire t k c (x.put rd (ext (d.seenLoc m k (k * 0x40000 + a) n)))
  | .frame f =>
    if a % n ≠ 0 then d.alignFault t k c a
    else
      let d := d.access t k (bankOf f)
      let ws := match d.lockOn k (bankOf f) with
        | some l => l.bytes
        | Option.none => []
      if bad ∨ d.poisoned f n = true then (d.readUE t k f).memoryFault t k c a
      else (d.retire t k c (x.put rd (ext (d.seen m k f n ws)))).resched t []
  | .xip b =>
    if a % n ≠ 0 then d.alignFault t k c a
    else match d.xip.lines.find? (fun l => decide (l.1 = b / 64)) with
      | some l => (d.xipLookup t b).retire t k c (x.put rd (ext (leNat ((List.range n).map (fun i => l.2.getD (b % 64 + i) 0)))))
      | Option.none => d.xipLookup t b

/-- A store of the n low bytes of a register (R334): in a locked bank it is buffered, and after the break discarded (R342). -/
def Dev.store (d : Dev) (t k c : Nat) (x : TaskCtx) (a n v : Nat) : Dev × List MemWrite :=
  match d.place a with
  | .none => (d.addressFault t k c a, [])
  | .xip _ => (d.addressFault t k c a, [])
  | .loc =>
    if a % n ≠ 0 then (d.alignFault t k c a, [])
    else (d.retire t k c x.next, locWrites (k * 0x40000 + a) n v)
  | .frame f =>
    if a % n ≠ 0 then (d.alignFault t k c a, [])
    else
      let d := d.access t k (bankOf f)
      match d.lockOn k (bankOf f) with
      | Option.none => (d.retire t k c x.next, frameWrites f n v)
      | some l =>
        let d := if l.broken ≠ 0 then d
          else d.updCore k (fun y => { y with locks := y.locks.map (fun z => if z.bank = l.bank then { z with writes := z.writes ++ [(f, n, v)] } else z) })
        ((d.retire t k c x.next).resched t [], [])

/-- Zero-extended and sign-extended bytes (R334). -/
def zext (v : Nat) : Word := BitVec.ofNat 32 v
def sext (bits v : Nat) : Word := BitVec.ofInt 32 (sgn bits v)

def State.loadOp (s : State) (k : Fin 4) (rd ra : Fin 16) (imm : BitVec 18) (n : Nat) (ext : Nat → Word) (bad : Bool) : Result :=
  s.ercel k (fun now m c x d => (d.load m now.dtime k c x rd (x.addr ra imm) n ext bad, []))
def State.storeOp (s : State) (k : Fin 4) (rs ra : Fin 16) (imm : BitVec 18) (n : Nat) : Result :=
  s.ercel k (fun now _ c x d => d.store now.dtime k c x (x.addr ra imm) n (x.reg rs).toNat)

def execLdw (k : Fin 4) (rd ra : Fin 16) (imm : BitVec 18) (bad : Bool) (s : State) : Result := s.loadOp k rd ra imm 4 zext bad
def execLdh (k : Fin 4) (rd ra : Fin 16) (imm : BitVec 18) (bad : Bool) (s : State) : Result := s.loadOp k rd ra imm 2 (sext 16) bad
def execLdhu (k : Fin 4) (rd ra : Fin 16) (imm : BitVec 18) (bad : Bool) (s : State) : Result := s.loadOp k rd ra imm 2 zext bad
def execLdb (k : Fin 4) (rd ra : Fin 16) (imm : BitVec 18) (bad : Bool) (s : State) : Result := s.loadOp k rd ra imm 1 (sext 8) bad
def execLdbu (k : Fin 4) (rd ra : Fin 16) (imm : BitVec 18) (bad : Bool) (s : State) : Result := s.loadOp k rd ra imm 1 zext bad
def execStw (k : Fin 4) (rs ra : Fin 16) (imm : BitVec 18) (s : State) : Result := s.storeOp k rs ra imm 4
def execSth (k : Fin 4) (rs ra : Fin 16) (imm : BitVec 18) (s : State) : Result := s.storeOp k rs ra imm 2
def execStb (k : Fin 4) (rs ra : Fin 16) (imm : BitVec 18) (s : State) : Result := s.storeOp k rs ra imm 1

/-! ## LOCK and UNLOCK (R341 to R344, R395 to R398) -/

/-- The lock rank of a bank (R396). -/
def Dev.bankRank (d : Dev) (b : Nat) : Nat :=
  if b < 8 then d.fld Reg.FB_LKRANK0 (4 * b + 3) (4 * b) else d.fld Reg.FB_LKRANK1 (4 * (b - 8) + 3) (4 * (b - 8))

/-- The bank that core k's LOCK waits for. -/
def Dev.lockWaitsFor (d : Dev) (k : Nat) : Option Nat := match (d.core k).ctx with
  | some c => match (d.tctx c).wait with
    | .lock _ b _ => some b
    | _ => none
  | none => none

/-- The bank can be taken by core k's LOCK: no lock on it, no write held back, and no LOCK for it before this one (R397). -/
def Dev.bankFree (d : Dev) (k b : Nat) : Bool :=
  (d.lockOwner b).isNone && !d.fab.held.any (fun h => beatIn (fun y => decide (y = b)) h.2) &&
    decide ((d.fab.waiters.filter (fun j => decide (d.lockWaitsFor j = some b))).head? = some k)

/-- A LOCK takes its bank (R341, R397): rd is 1 where the last lock was abandoned, and the mark is cleared. -/
def Dev.grantLock (d : Dev) (t k c rd b rank : Nat) : Dev :=
  let was := d.fab.abandoned.contains b
  let d := d.updFab (fun f => { f with abandoned := f.abandoned.erase b, waiters := f.waiters.erase k })
  let d := d.updTctx c (fun x => { (x.put rd (BitVec.ofNat 32 (b2n was))).setZ true with wait := .none, state := .running })
  (d.updCore k (fun y => { y with locks := ⟨b, rank, t, 0, [], 0⟩ :: y.locks, retired := t })).bump Reg.FB_CNT_LOCK

/-- A waiting LOCK takes its bank once it is free (R397). -/
def Dev.lockGrant (d : Dev) (t k : Nat) : Dev :=
  match (d.core k).ctx with
  | some c => match (d.tctx c).wait with
    | .lock rd b rank => if d.bankFree k b then d.grantLock t k c rd b rank else d
    | _ => d
  | none => d

/-- LOCK (R341, R396): data address, lock use and lock rank, in this order; then it waits for its bank without switching out. -/
def Dev.lock (d : Dev) (t k c : Nat) (x : TaskCtx) (rd ra rank : Nat) : Dev :=
  let a := (x.reg ra).toNat
  let held := (d.core k).locks
  if a < 0x10000000 ∨ 0x13000000 ≤ a then d.addressFault t k c a
  else
    let b := bankOf (a - 0x10000000)
    let top := match held with
      | l :: _ => l.rank
      | [] => 0
    if 2 ≤ held.length ∨ held.any (fun l => decide (l.bank = b)) = true then d.taskFault t k c 0x0109 held.length 0
    else if held.any (fun l => decide (rank ≤ l.rank)) = true ∨ rank ≠ d.bankRank b then d.taskFault t k c 0x0107 (rank + 16 * top) 0
    else
      let d := (d.retire t k c { x with wait := .lock rd b rank, state := .suspended }).updFab (fun f => { f with waiters := f.waiters ++ [k] })
      d.lockGrant t k

/-- UNLOCK (R343, R398): a whole sequence commits; one past its 256 cycles has broken. -/
def Dev.unlock (d : Dev) (t k c : Nat) (x : TaskCtx) (rd : Nat) : Dev × List MemWrite :=
  let d := d.breakLocks t k (fun l => decide (256 < l.cycles t)) 2 7 1
  match (d.core k).locks with
  | [] => (d.taskFault t k c 0x0109 0 0, [])
  | l :: ls =>
    let d := d.updCore k (fun y => { y with locks := ls })
    let d := d.retire t k c ((x.put rd (BitVec.ofNat 32 l.broken)).setZ (decide (l.broken = 0)))
    (d.resched t [], if l.broken = 0 then l.bytes else [])

/-- When a sequence of core k reaches 256 CORE cycles (R342). -/
def Dev.limitDue (d : Dev) (k : Nat) : Option Nat :=
  (((d.core k).locks.filter (fun l => decide (l.broken = 0))).map (fun l => afterCycles l.since 256)).min?

/-- The sequences of core k that have reached the limit break (R342, R399). -/
def Dev.limitBreak (d : Dev) (t k : Nat) : Dev := (d.breakLocks t k (fun l => decide (256 ≤ l.cycles t)) 2 7 1).resched t []

/-- An emergency write preempts the lock of a bank (R399): by the scrubber, or by the debug unit. -/
def Dev.preemptLock (d : Dev) (t b : Nat) (debug : Bool) : Dev :=
  match d.lockOwner b with
  | some k => (d.breakLocks t k (fun l => decide (l.bank = b)) 1 4 (b2n debug)).resched t []
  | none => d

def execLock (k : Fin 4) (rd ra : Fin 16) (rank : Fin 16) (s : State) : Result :=
  s.ercelAfter k (fun now _ c x d => (d.lock now.dtime k c x rd ra rank, []))
def execLockGrant (k : Fin 4) (s : State) : Result := s.act (fun now d => d.lockGrant now.dtime k)
def execUnlock (k : Fin 4) (rd : Fin 16) (s : State) : Result :=
  s.ercelAfter k (fun now _ c x d => d.unlock now.dtime k c x rd)
def execLockLimitBreak (k : Fin 4) (s : State) : Result :=
  s.actDueWr k (fun _ d => d.limitDue k) (fun now _ d => (d.limitBreak now.dtime k, []))
def execLockPreempt (b : Fin 16) (debug : Bool) (s : State) : Result :=
  s.actWr (if debug then 14 else 13) (fun now _ d => (d.preemptLock now.dtime b debug, []))

end Sys2Proof.Machine
end

