-- ==== Sys2Proof/Machine/Fabric.lean ====
section
/-! DEFINITION. Machine/Fabric.lean: errors, scrubbing and spare rows (R386 to R389) and the crossbar (R390 to R393). -/
namespace Sys2Proof.Machine

/-! ## Errors (R386, R387) -/

/-- The head with a region that holds a record (R386). -/
def Dev.headOfRecord (d : Dev) (r : Nat) : Option Nat :=
  (List.range 8).find? (fun h => let x := d.lth h
    (x.region.toList ++ x.ready.toList ++ x.old).any (fun g => g.granules.contains (r / 4096)))

/-- A read finds an error (R386, R387). -/
def Dev.readError (d : Dev) (t : Nat) (e : ReadError) : Dev :=
  let off := e.off.toNat
  match e.last, e.ue with
  | false, true => d.readUE t e.who (e.bank * 0x300000 + off)
  | false, false =>
    ((d.bump (Reg.FB_FMb_CE e.bank)).bump Reg.FB_CNT_CE).markRow e.bank (off / 1024) false
  | true, false =>
    ((d.bump (Reg.FB_LSb_CE e.bank)).bump Reg.FB_CNT_CE).markRow (16 + e.bank) (off / 512) false
  | true, true =>
    let r := e.bank * 983040 + off
    let d := d.readLastUE t e.who r
    match d.headOfRecord r with
    | some h => d.requestBuild h .copy 0
    | none => d

/-! ## The crossbar (R390 to R393) -/

/-- An emergency of the scrubber or of the debug unit (R391, R399). -/
def urgentBeat (r : BeatReq) : Bool := r.emergency && decide (13 ≤ (r.who : Nat))

/-! ### Credits (R394) -/

def Dev.credit (d : Dev) (who target : Nat) : Credit := SMap.get Credit.reset d.fab.credits (17 * who + target)
def Dev.setCredit (d : Dev) (who target : Nat) (x : Credit) : Dev :=
  d.updFab (fun f => { f with credits := SMap.set Credit.reset f.credits (17 * who + target) x })

/-- Slots that a requester has reserved for responses: its reads outstanding. -/
def Dev.readSlots (d : Dev) (who : Nat) : Nat := SMap.get 0 d.fab.slots who
def Dev.setSlots (d : Dev) (who n : Nat) : Dev := d.updFab (fun f => { f with slots := SMap.set 0 f.slots who n })

/-- Write credits of a requester at every target: an emergency has the 2 that the scrubber and the debug unit keep beside their 4. -/
def writeCredits (r : BeatReq) : Nat := if urgentBeat r then 6 else 4

/-- The request can be presented: one presented again waits already, a new write needs a credit of its target, and a new read a slot for
its response; otherwise the requester stalls. -/
def Dev.hasCredit (d : Dev) (target : Nat) (r : BeatReq) : Bool :=
  let c := d.credit r.who target
  if r.again then decide (0 < if r.write then c.writes else c.reads)
  else if r.write then decide (c.writes < writeCredits r)
  else decide (d.readSlots r.who < 16)

/-- A request that is presented takes its credit, or its slot. -/
def Dev.takeCredit (d : Dev) (target : Nat) (r : BeatReq) : Dev :=
  let c := d.credit r.who target
  if r.again then d
  else if r.write then d.setCredit r.who target { c with writes := c.writes + 1 }
  else (d.setCredit r.who target { c with reads := c.reads + 1 }).setSlots r.who (d.readSlots r.who + 1)

/-- A grant returns a write's credit, as the target has written the beat; a read waits for its response and keeps its slot. -/
def Dev.giveCredit (d : Dev) (target : Nat) (r : BeatReq) : Dev :=
  let c := d.credit r.who target
  d.setCredit r.who target (if r.write then { c with writes := c.writes - 1 } else { c with reads := c.reads - 1 })

/-- Requesters take responses, which frees their slots. -/
def Dev.takeResponses (d : Dev) (answered : List (Fin 15)) : Dev :=
  answered.foldl (fun (d : Dev) w => d.setSlots w (d.readSlots w - 1)) d

/-- A request that loses backs off (R392). -/
def Dev.loses (d : Dev) (target cyc l : Nat) : Dev :=
  let y := d.lossOf l target
  d.setLoss l target ⟨min 6 (y.k + 1), cyc + 2 ^ y.k, y.row + 1⟩

/-- FABRIC_BEAT_GRANT (R390 to R395): the requests presented at a target in one CORE cycle, `gap` cycles after its last one, and the
requesters that take a response in that cycle. -/
def Dev.beatGrant (d : Dev) (t target gap : Nat) (reqs : List BeatReq) (answered : List (Fin 15)) (err : Option ReadError) : Dev :=
  let x := d.target target
  let cyc := x.cycle + gap
  let held := decide (target < 16) && (d.lockOwner target).isSome
  let d := d.takeResponses answered
  let shown := reqs.filter (fun r => d.hasCredit target r && decide ((d.lossOf r.who target).from_ ≤ cyc))
  let d := shown.foldl (fun (d : Dev) r => d.takeCredit target r) d
  let present := shown.filter (fun r => urgentBeat r || !(held && r.write))
  let urgent := (present.filter urgentBeat).map (fun r => (r.who : Nat))
  let all := (present.map (fun r => (r.who : Nat)))
  let win : Option (Nat × Nat) :=
    if urgent.contains 13 then some (13, 0)
    else if urgent.contains 14 then some (14, 0)
    else d.choose target all
  let d := d.setTarget target { x with cycle := cyc }
  let d := match win with
    | none => d
    | some (w, how) =>
      let d := (all.filter (fun l => decide (l ≠ w))).eraseDups.foldl (fun (d : Dev) l => d.loses target cyc l) d
      let d := d.granted target w how
      let mine := present.filter (fun r => decide ((r.who : Nat) = w) && (decide (how ≠ 0) || urgentBeat r))
      let d := match (d.turn target w (mine.map (fun r => (r.unit : Nat)))).bind (fun u => mine.find? (fun r => decide ((r.unit : Nat) = u))) with
        | some r => (d.giveCredit target r).setTurn target w r.unit
        | none => d
      if how = 1 then (d.bump Reg.FB_CNT_GUARD).fbFault t 16 6 (w + 16 * target) else d
  match err with
  | some e => d.readError t e
  | none => d

/-! ## The scrubber (R388, R389) -/

/-- CORE cycles between patrol lines (R388). -/
def Dev.patrolCycles (d : Dev) : Nat := d.fld Reg.FB_CFG 31 16 * 256
/-- When the next patrol line is read (R388). -/
def Dev.patrolDue (d : Dev) : Option Nat := if d.bit Reg.FB_CFG 0 then some (afterCycles d.fab.patrol d.patrolCycles) else none

/-- One patrol line of every bank (R388): a corrected word is written back, which preempts a lock of its bank (R399). -/
def Dev.scrubPatrol (d : Dev) (t : Nat) (finds : List ReadError) : Dev :=
  let d := d.updFab (fun f => { f with patrol := t, lines := f.lines + 1 })
  let d := if d.fab.lines % 49152 = 0 then d.wrN Reg.FB_SCRUB_PASS (d.rdN Reg.FB_SCRUB_PASS + 1) else d
  finds.foldl (fun (d : Dev) e =>
    let d := d.readError t { e with who := 13 }
    if e.last || e.ue then d else d.preemptLock t e.bank false) d

/-- Spare rows of a bank (R382, R384), and those used. -/
def spareRows (bank : Nat) : Nat := if bank < 16 then 16 else 8
def Dev.sparesUsed (d : Dev) (bank : Nat) : Nat := SMap.get 0 d.fab.spares bank

/-- The row is due for repair (R389). -/
def Dev.repairDue (d : Dev) (bank row : Nat) : Bool :=
  d.fab.rows.any (fun r => decide (r.bank = bank ∧ r.row = row) && (r.ue || decide (d.fld Reg.FB_CFG 11 8 ≤ r.ce)))

/-- ROW_REPAIR (R389): the row is copied to a spare row, or fault 0x0003; the second part says that no spare row was left. -/
def Dev.rowRepair (d : Dev) (t bank row : Nat) : Dev × Bool :=
  if d.repairDue bank row then
    let unit := if bank < 16 then bank else bank + 2
    let d := d.updFab (fun f => { f with rows := f.rows.filter (fun r => decide (¬(r.bank = bank ∧ r.row = row))) })
    let used := d.sparesUsed bank
    if used < spareRows bank then
      let d := if bank < 16 then d.preemptLock t bank false else d.putFld (Reg.FB_LSb_STATUS (bank - 16)) 11 8 (used + 1)
      let d := d.updFab (fun f => { f with spares := SMap.set 0 f.spares bank (used + 1) })
      ((d.bump Reg.FB_CNT_REPAIR).fbFault t unit 1 (row + 4096 * ((used + 1) % 16)), false)
    else (d.fbFault t unit 3 row, true)
  else (d, false)

def execFabricBeatGrant (target : Fin 17) (gap : Nat) (cycle : BeatCycle) (err : Option ReadError) (s : State) : Result :=
  s.act (fun now d => d.beatGrant now.dtime target gap cycle.reqs cycle.answered err)
def execScrubPatrol (finds : List ReadError) (s : State) : Result :=
  s.actDueWr 13 (fun _ d => d.patrolDue) (fun now _ d => (d.scrubPatrol now.dtime finds, []))

end Sys2Proof.Machine
end

