-- ==== Sys2Proof/Machine/Admission.lean ====
section
/-! DEFINITION. Machine/Admission.lean: contracts and the admission unit (R365 to R378, R348): descriptors, snapshots, the checks in their
order, acceptance and release. -/
namespace Sys2Proof.Machine

/-! ## Shadow copies -/

def Dev.sfld (d : Dev) (a hi lo : Nat) : Nat := nfld (d.srdN a) hi lo
def Dev.sbit (d : Dev) (a i : Nat) : Bool := (d.srdN a).testBit i

/-! ## Units that the maintenance ledger holds (R445, R448) -/

def Dev.slot (d : Dev) (a : Nat) : Slot := SMap.get Slot.reset d.slots a
def Dev.setSlot (d : Dev) (a : Nat) (x : Slot) : Dev := { d with slots := SMap.set Slot.reset d.slots a x }
def Dev.updSlot (d : Dev) (a : Nat) (f : Slot → Slot) : Dev := d.setSlot a (f (d.slot a))

/-- Slots in a state, in rising number. -/
def Dev.slotsIn (d : Dev) (p : Slot → Bool) : List Nat := (d.slots.filter (fun x => p x.2)).map Prod.fst

/-- The unit index of an activity's target (R12). -/
def Slot.unit (x : Slot) : Nat := x.target / 32 % 64
/-- The activity is running or accepted (R448). -/
def Slot.live (x : Slot) : Bool := decide (x.state = 2 ∨ x.state = 3)

/-- The unit identifiers, element 0, that a running activity of a slot holds (R445). -/
def Slot.holds (x : Slot) : List Nat :=
  let u := x.target / 32 % 64
  if x.state ≠ 3 then []
  else match x.kind with
  | 6 => [uid 3 u 0, uid 3 (x.second % 16) 0]
  | 8 => []
  | 10 => [uid 9 u 0, uid 10 u 0]
  | _ => [x.target / 32 * 32]

/-- The maintenance ledger holds a unit (R448). -/
def Dev.inService (d : Dev) (unit : Nat) : Bool := d.slots.any (fun x => x.2.holds.contains (unit / 32 * 32))

/-! ## Descriptors (R365, R366) -/

/-- A byte of a descriptor in the local memory of core k or in frame memory (R348); a byte that reads uncorrectable is free (log 111). -/
def Dev.descByte (d : Dev) (m : Mem) (k a i : Nat) : Nat :=
  if a < 0x40000 then (m.locByte (k * 0x40000 + a + i)).toNat
  else if d.poisoned (a - 0x10000000 + i) 1 then Config.freeValue (d.free + i) % 256
  else (m.frameByte (a - 0x10000000 + i)).toNat

/-- The descriptor lies where it may (R348, R365). -/
def descPlace (a n : Nat) : Bool :=
  decide (a % 32 = 0) && (decide (a + n ≤ 0x40000) || (decide (0x10000000 ≤ a) && decide (a + n ≤ 0x13000000)))

/-- The number in n bytes at i. -/
def bytesNat (e : Nat → Nat) (i n : Nat) : Nat := ((List.range n).map (fun j => e (i + j) * 256 ^ j)).sum
/-- Every byte from i up to j is zero. -/
def zeros (e : Nat → Nat) (i j : Nat) : Bool := (List.range (j - i)).all (fun k => decide (e (i + k) = 0))

/-- One item (R366); none where a reserved kind or field is used. -/
def parseItem (e : Nat → Nat) : Option Item :=
  let u := e 1
  match e 0 with
  | 1 =>
    let x := e 4
    let i : TaskItem := {
      ctx := bytesNat e 2 2, core := nfld x 1 0, alt := nfld x 3 2, event := if nbit x 4 then some (e 5) else none, t := bytesNat e 8 4,
      d := bytesNat e 12 4, c := bytesNat e 16 4, phase := bytesNat e 20 8 }
    if u = 0 ∧ i.ctx < 1024 ∧ x < 32 ∧ zeros e 6 8 = true ∧ zeros e 28 32 = true ∧ 4000 ≤ i.t ∧ 1 ≤ i.d ∧ i.d ≤ i.t ∧ 1 ≤ i.c then some (.task i)
    else none
  | 2 =>
    let sp := bytesNat e 8 4
    if u < 8 ∧ zeros e 2 4 = true ∧ e 4 < 64 ∧ nfld (e 5) 6 5 = 0 ∧ zeros e 6 8 = true ∧ zeros e 12 32 = true ∧ 0 < sp then
      some (.head u (e 4 % 32) (e 4 / 32) (if nbit (e 5) 7 then none else some (e 5 % 32)) sp)
    else none
  | 3 => if u < 4 ∧ zeros e 2 32 = true then some (.layer u) else none
  | 4 => if u = 0 ∧ zeros e 2 32 = true then some .bloom else none
  | 5 => if u < 8 ∧ zeros e 2 32 = true then some (.bank u) else none
  | 6 => if u < 5 ∧ zeros e 2 8 = true ∧ zeros e 12 32 = true then some (.converter u (bytesNat e 8 4)) else none
  | 7 => if u < 16 ∧ zeros e 2 8 = true ∧ zeros e 12 32 = true then some (.fabric u (bytesNat e 8 4)) else none
  | 8 => if u < 2 ∧ zeros e 2 8 = true ∧ zeros e 16 32 = true then some (.link u (bytesNat e 8 4) (bytesNat e 12 4)) else none
  | _ => none

/-- What an item holds for its contract alone (R367): kind and unit. -/
def Item.key : Item → Option (Nat × Nat)
  | .task i => some (1, i.ctx)
  | .head h _ _ _ _ => some (2, h)
  | .layer l => some (3, l)
  | .bloom => some (4, 0)
  | .bank b => some (5, b)
  | .converter x _ => some (6, x)
  | .fabric _ _ => none
  | .link _ _ _ => none

/-- The unit identifier of an item (R12, R13). -/
def Item.unit : Item → Nat
  | .task i => uid 2 i.core 0
  | .head h _ _ _ _ => uid 4 h 0
  | .layer _ => uid 7 0 0
  | .bloom => uid 8 0 0
  | .bank b => uid 9 b 31
  | .converter x _ => uid 12 x 0
  | .fabric b _ => uid 3 b 0
  | .link l _ _ => uid 1 l 0

/-! ## Snapshots (R367) -/

def rgOfRing (d : Dev) (b : Nat) : Nat := d.sfld (Reg.VB_RING b) 6 4

/-- A bank in independent mode by the words v, and its enabled channels: there the pairs 0 to 7 (R213). -/
def indepOf (v : Nat → Nat) (b : Nat) : Bool := nbit (v (Reg.VB_CFG b)) 1
def chansOf (v : Nat → Nat) (b : Nat) : List Nat :=
  (List.range (if indepOf v b then 8 else 16)).filter (fun c => nbit (v (Reg.VB_CHc_CFG b c)) 0)

/-- Programs that the enabled channels of a bank use. -/
def progsOf (v : Nat → Nat) (b : Nat) : List Nat := (chansOf v b).map (fun c => nfld (v (Reg.LC_CHc_CFG b c)) 3 0)

def full : Nat := 0xFFFFFFFF
/-- The contract-bound bits of a stream context: enable to replay (R81), and the anchor enables that enter its cost (R371). -/
def ctxMask : Nat := 0x67F

/-- The contract-bound fields of an item: registers and masks (R58, R81, R173, R194, R219, R283, R367). -/
def Item.fields (d : Dev) : Item → List (Nat × Nat)
  | .task _ => []
  | .head h sc p sb _ =>
    [(Reg.HP_GEOM h, full), (Reg.HP_BLIND h, 0x1F), (Reg.HP_RIND h, 0x7F0000), (Reg.HP_CFG h, 0x34), (Reg.PL_Sx_CFG p sc, ctxMask),
      (Reg.WM_Hh_CFG h, 7), (Reg.PL_CFG 0, 2), (Reg.PL_CFG 1, 2)] ++
    (match sb with
      | some x => [(Reg.PL_Sx_CFG (1 - p) x, ctxMask)]
      | none => [])
  | .layer l =>
    let g := d.sfld (Reg.WM_Ll_CFG l) 3 1
    [(Reg.WM_Ll_CFG l, 0x3FFF000F), (Reg.WM_Ll_X0 l, full), (Reg.WM_Ll_XPITCH l, full), (Reg.WM_Ll_WORK l, full), (Reg.WM_Ll_OPEN l, full),
      (Reg.WP_RGn_PITCH g, full), (Reg.WP_RGn_ORIGIN_LO g, full), (Reg.WP_RGn_ORIGIN_HI g, full)]
  | .bloom => [(Reg.BV_CFG, 0x3F), (Reg.BV_STORE, full), (Reg.BV_DEPTH, full)]
  | .bank b =>
    [(Reg.VB_CFG b, 3), (Reg.VB_RING_BASE b, full), (Reg.VB_RING b, full), (Reg.VB_VMAX b, full), (Reg.VB_SLOT b, full), (Reg.VB_ILIM b, full),
      (Reg.VB_ODMAX b, full), (Reg.WP_RGn_PITCH (rgOfRing d b), full), (Reg.LC_AMB b, 0xFFFF0000)] ++
    ((List.range 16).map (fun c =>
      [(Reg.VB_CHc_CFG b c, 0xFFF3), (Reg.VB_CHc_OFF b c, full), (Reg.VB_CHc_ODN b c, full), (Reg.LC_CHc_CFG b c, 0xF),
        (Reg.LC_CHc_RES20 b c, full), (Reg.LC_CHc_HC b c, full), (Reg.LC_CHc_ACB b c, full), (Reg.LC_CHc_ABC b c, full),
        (Reg.LC_CHc_ABA b c, full), (Reg.LC_CHc_LIM1 b c, 0xFFFF)])).flatten ++
    ((progsOf d.srdN b).eraseDups.map (fun p =>
      [(Reg.LC_PGp_IMAX b p, full), (Reg.LC_PGp_DUR b p, full), (Reg.LC_PGp_QFIX b p, full), (Reg.LC_PGp_QHOLD b p, full)])).flatten
  | .converter x _ =>
    if x = 4 then [(Reg.AN_COMMON, full), (Reg.AN_COMMON_DELAY, full)]
    else [(Reg.AN_Cx_CFG x, 0x7F), (Reg.AN_Cx_TRIG x, full), (Reg.AN_Cx_DELAY x, full)] ++
      ((List.range 16).map (fun e => [(Reg.AN_Cx_Ee_FLT x e, full), (Reg.AN_Cx_Ee_IN x e, 0x28000)])).flatten
  | .fabric _ _ => []
  | .link _ _ _ => []

/-- The snapshot of a contract, from the shadow copies (R367). -/
def Dev.snapshot (d : Dev) (items : List Item) : List (Nat × Nat × Nat) :=
  ((items.map (fun i => i.fields d)).flatten).map (fun f => (f.1, f.2, d.srdN f.1 &&& f.2))

/-- The registers as a held contract was checked: its snapshot over the shadow copies. -/
def Dev.viewOf (d : Dev) (snap : List (Nat × Nat × Nat)) (a : Nat) : Nat :=
  (snap.filter (fun x => decide (x.1 = a))).foldl (fun (v : Nat) x => v - (v &&& x.2.1) + x.2.2) (d.srdN a)

/-! ## The checks (R369 to R377) -/

/-- A set of items with the settings that they are checked with: a held contract, or the one submitted. -/
structure Claim where
  items : List Item
  view : Nat → Nat

/-- A check that fails: cause (bits [15:8] of the code), xx (log 149), unit identifier, item index. -/
structure Offence where
  cause : Nat
  xx : Nat
  unit : Nat
  item : Nat
  deriving DecidableEq, Repr

/-- The code of an answer (R369). -/
def Offence.code (o : Offence) : Nat := 256 * o.cause + o.xx % 256

/-- The least xx of one cause; ties go to the lower item. -/
def leastXx : List Offence → Option Offence
  | [] => none
  | o :: l => match leastXx l with
    | some p => if o.xx < p.xx ∨ (o.xx = p.xx ∧ o.item ≤ p.item) then some o else some p
    | none => some o

/-- The first check that fails, of checks in their order. -/
def firstOffence : List (List Offence) → Option Offence
  | [] => none
  | l :: ls => (leastXx l).orElse (fun _ => firstOffence ls)

/-- Items with their index. -/
def indexed (l : List Item) : List (Nat × Item) := (List.range l.length).zip l

/-- Where the sum of some amounts first passes a limit, beginning at a base: the index of the item that breaks it; a base that is
already beyond it counts as the first item (log 112). -/
def breakAt (limit : Nat) : Nat → List (Nat × Nat) → Option Nat
  | _, [] => none
  | base, (i, v) :: l => if limit < base + v then some i else breakAt limit (base + v) l

def ceilDiv (a b : Nat) : Nat := (a + b - 1) / b

/-- u of a TASK item (R370). -/
def TaskItem.load (i : TaskItem) : Nat := ceilDiv ((i.c + 48) * 262144) (15 * i.d)

/-- Received lines, columns, pre-pass lines of a head in a context, and its class (R105, R371). -/
def headShape (v : Nat → Nat) (h p s : Nat) : Nat × Nat × Nat × Bool :=
  let blind := nfld (v (Reg.HP_BLIND h)) 4 0
  let cfg := v (Reg.PL_Sx_CFG p s)
  (blind + nfld (v (Reg.HP_GEOM h)) 27 16, nfld (v (Reg.HP_GEOM h)) 11 0,
    (if nbit cfg 9 then blind else 0) + (if nbit cfg 10 then nfld (v (Reg.HP_RIND h)) 22 16 else 0), nbit cfg 4)

/-- The cost of a frame in CORE cycles (R105). -/
def frameCost (lines cols pre : Nat) (inline : Bool) : Nat :=
  if inline then cols * lines + 128 * lines + 1536
  else cols * (lines + pre) + 64 * (ceilDiv lines 64 + b2n (decide (0 < pre))) + 1536

/-- u of a HEAD item in a context (R371). -/
def headLoad (v : Nat → Nat) (h p s spacing : Nat) : Nat :=
  let x := headShape v h p s
  ceilDiv (frameCost x.1 x.2.1 x.2.2.1 x.2.2.2 * 262144) (15 * spacing)

/-- A HEAD item as it loads a pipeline: pipeline, u, its class, and whether it meets the line-time rule (R371). -/
structure HeadUse where
  head : Nat
  p : Nat
  u : Nat
  inline : Bool
  paced : Bool

def headUse (v : Nat → Nat) (h p s spacing : Nat) : HeadUse :=
  let x := headShape v h p s
  ⟨h, p, headLoad v h p s spacing, x.2.2.2, decide (4 * x.1 * (x.2.1 + 128) ≤ 15 * spacing)⟩

def Claim.heads (c : Claim) : List (Nat × HeadUse) := (indexed c.items).filterMap (fun x => match x.2 with
  | .head h s p _ sp => some (x.1, headUse c.view h p s sp)
  | _ => none)
def Claim.tasks (c : Claim) : List (Nat × TaskItem) := (indexed c.items).filterMap (fun x => match x.2 with
  | .task i => some (x.1, i)
  | _ => none)
def Claim.banks (c : Claim) : List (Nat × Nat) := (indexed c.items).filterMap (fun x => match x.2 with
  | .bank b => some (x.1, b)
  | _ => none)
def Claim.converters (c : Claim) : List (Nat × Nat × Nat) := (indexed c.items).filterMap (fun x => match x.2 with
  | .converter y p => some (x.1, y, p)
  | _ => none)
def Claim.fabrics (c : Claim) : List (Nat × Nat × Nat) := (indexed c.items).filterMap (fun x => match x.2 with
  | .fabric b r => some (x.1, b, r)
  | _ => none)
def Claim.links (c : Claim) : List (Nat × Nat × Nat × Nat) := (indexed c.items).filterMap (fun x => match x.2 with
  | .link l i o => some (x.1, l, i, o)
  | _ => none)

/-- Items of held claims stand before those of the request; a held item has the request's first index. -/
def allOf {α : Type} (f : Claim → List (Nat × α)) (held : List Claim) (new : Claim) : List (Nat × α) :=
  (held.map (fun c => (f c).map (fun x => (0, x.2)))).flatten ++ f new

/-- Pipelines (R371). -/
def pipeCheck (l : List (Nat × HeadUse)) : List Offence :=
  (List.range 2).filterMap (fun p =>
    let mine := l.filter (fun x => decide (x.2.p = p))
    let inl := mine.filter (fun x => x.2.inline)
    let bad := (breakAt 61166 0 (mine.map (fun x => (x.1, x.2.u)))).orElse (fun _ =>
      ((inl.drop 1).head?.map Prod.fst).orElse (fun _ => (inl.find? (fun x => !x.2.paced)).map Prod.fst))
    bad.map (fun i => ⟨1, p, uid 5 p 0, i⟩))

/-- The last store (R122, R372): heads and their granules in order; the index and head whose addition breaks the rule. -/
def granCheck (healthy : Nat) : (sum top : Nat) → List (Nat × Nat × Nat) → List Offence
  | _, _, [] => []
  | sum, top, (i, h, g) :: l =>
    if healthy < sum + g + max top g then [⟨2, h, uid 4 h 0, i⟩] else granCheck healthy (sum + g) (max top g) l

/-- Σ u of a core. -/
def coreSum (l : List (Nat × TaskItem)) (k : Nat) : Nat := ((l.filter (fun x => decide (x.2.core = k))).map (fun x => x.2.load)).sum

/-- Task cores (R370). -/
def coreCheck (l : List (Nat × TaskItem)) : List Offence :=
  (List.range 4).filterMap (fun k =>
    (breakAt 58982 0 ((l.filter (fun x => decide (x.2.core = k))).map (fun x => (x.1, x.2.load)))).map (fun i => ⟨3, k, uid 2 k 0, i⟩))

/-- The physical bank of a frame-memory bank (R454). -/
def Dev.physBank (d : Dev) (b : Nat) : Nat := lookupD b d.fab.retired b

/-- Fabric (R373): `extra` is traffic that counts beside the items. -/
def Dev.fabricCheck (d : Dev) (l : List (Nat × Nat × Nat)) (extra : Nat → Nat) : List Offence :=
  (List.range 16).filterMap (fun b =>
    (breakAt 38400000 (extra b) ((l.filter (fun x => decide (d.physBank x.2.1 = b))).map (fun x => (x.1, x.2.2)))).map (fun i =>
      ⟨4, b, uid 3 b 0, i⟩))

/-! ### Banks (R209, R245, R246, R374) -/

/-- Enabled channels of a bank in row mode. -/
def rowChans (v : Nat → Nat) (b : Nat) : List Nat :=
  (chansOf v b).filter (fun c => !(indepOf v b && nbit (v (Reg.VB_CHc_CFG b c)) 1))
def pitchOf (v : Nat → Nat) (b : Nat) : Nat := v (Reg.WP_RGn_PITCH (nfld (v (Reg.VB_RING b)) 6 4))

/-- A list in rising order. -/
def insertNat (a : Nat) : List Nat → List Nat
  | [] => [a]
  | b :: l => if a ≤ b then a :: b :: l else b :: insertNat a l
def sortNat : List Nat → List Nat
  | [] => []
  | a :: l => insertNat a (sortNat l)

/-- Each to the next, and the last to the first + pitch. -/
def cyclicGaps (pitch : Nat) (l : List Nat) : List Nat :=
  let s := sortNat l
  (s.zip (s.drop 1 ++ (s.take 1).map (fun x => x + pitch))).map (fun x => x.2 - x.1)

/-- The eyelet, window and row-period checks of R209, of which a bank in independent mode with no pair in row mode meets none. -/
def eyeletOk (v : Nat → Nat) (b : Nat) : Bool :=
  let vmax := v (Reg.VB_VMAX b)
  let pitch := pitchOf v b
  let s := ceilDiv (nfld (v (Reg.VB_SLOT b)) 15 0 * vmax) 65536
  let off := fun (c : Nat) => sgn 32 (v (Reg.VB_CHc_OFF b c))
  let phi := (rowChans v b).map (fun c => ((off c - (nfld (v (Reg.VB_CHc_ODN b c)) 19 0 * vmax / 65536 : Nat)) % pitch).toNat)
  let lead : Int := (nfld (v (Reg.VB_ODMAX b)) 19 0 * vmax / 65536 : Nat)
  let adv : Int := (nfld (v (Reg.VB_RING b)) 13 8 * pitch : Nat)
  if indepOf v b = true ∧ (rowChans v b).isEmpty = true then true
  else
    (indepOf v b || (cyclicGaps pitch phi).all (fun g => decide (s ≤ g))) &&
    (rowChans v b).all (fun c => decide (0 ≤ adv + off c - lead) &&
      decide (adv + off c + 16 * (nfld (v (Reg.VB_CHc_CFG b c)) 15 4 : Nat) < 32 * (pitch : Int))) &&
    decide (12800 * vmax ≤ pitch * 65536)

/-- The current check (R246): k × imax_max. -/
def bankCurrent (v : Nat → Nat) (b : Nat) : Nat :=
  let ps := progsOf v b
  let slot := nfld (v (Reg.VB_SLOT b)) 15 0
  let dur := (ps.map (fun p => nfld (v (Reg.LC_PGp_DUR b p)) 19 0)).foldl max 0
  let k := if indepOf v b then ps.length else if slot = 0 then 16 else min 16 (ceilDiv (dur * 40) slot + 1)
  k * (ps.map (fun p => nfld (v (Reg.LC_PGp_IMAX b p)) 11 0)).foldl max 0

/-- The budget of R208 with a contract's VB_ILIM. -/
def Dev.budgetOf (d : Dev) (v : Nat → Nat) (b : Nat) : Nat :=
  let lim := (d.blink b).limit
  let set := nfld (v (Reg.VB_ILIM b)) 15 0
  if set = 0 ∨ lim < set then lim else set

/-- The steady rise of a coil at maximum duty (R245), 1/64 K; where a coefficient is 0 the rule gives no number, and it is free
(log 113). -/
def Dev.coilRise (d : Dev) (v : Nat → Nat) (b c tmax : Nat) : Nat :=
  let p := nfld (v (Reg.LC_CHc_CFG b c)) 3 0
  let qhold := v (Reg.LC_PGp_QHOLD b p)
  let s := (d.blink b).scale.getD 0
  let warn := nfld (v (Reg.LC_CHc_LIM1 b c)) 15 0
  let res := (coilRes (nfld (v (Reg.LC_CHc_RES20 b c)) 19 0) ((warn : Int) - 18762)).toNat
  let hc := nfld (v (Reg.LC_CHc_HC b c)) 23 0
  let acb := nfld (v (Reg.LC_CHc_ACB b c)) 23 0
  let abc := nfld (v (Reg.LC_CHc_ABC b c)) 23 0
  let aba := nfld (v (Reg.LC_CHc_ABA b c)) 23 0
  let e := if (rowChans v b).contains c then
      (v (Reg.LC_PGp_QFIX b p) * 256 + qhold * (256 + tmax)) * 256 * 400000 * v (Reg.VB_VMAX b) * (s * s) * res /
        (pitchOf v b * 65536 * 65536 * 10 ^ 10)
    else qhold * 65536 * 10000 * (s * s) * res / (65536 * 10 ^ 10)
  if acb = 0 ∨ aba = 0 then Config.freeValue (d.free + 3000 + 16 * b + c) else ceilDiv (e * hc * (aba + abc)) (acb * aba * 4)

/-- The coil check (R245). -/
def Dev.coilOk (d : Dev) (v : Nat → Nat) (tmax b : Nat) : Bool :=
  (chansOf v b).all (fun c => decide (nfld (v (Reg.LC_AMB b)) 31 16 + d.coilRise v b c tmax < nfld (v (Reg.LC_CHc_LIM1 b c)) 15 0))

/-- tmax of BV_TRIM where trim is on (R187, R245). -/
def Dev.trimMax (d : Dev) : Nat := if d.sbit Reg.BV_CFG 7 then d.sfld Reg.BV_TRIM 15 8 else 0

def Dev.eyeletCheck (c : Claim) (_d : Dev) : List Offence :=
  c.banks.filterMap (fun x => if eyeletOk c.view x.2 then none else some ⟨5, x.2, uid 9 x.2 31, x.1⟩)
def Dev.currentCheck (c : Claim) (d : Dev) : List Offence :=
  c.banks.filterMap (fun x => if bankCurrent c.view x.2 ≤ d.budgetOf c.view x.2 then none else some ⟨6, x.2, uid 9 x.2 31, x.1⟩)
def Dev.coilCheck (c : Claim) (d : Dev) : List Offence :=
  c.banks.filterMap (fun x => if d.coilOk c.view d.trimMax x.2 then none else some ⟨7, x.2, uid 9 x.2 31, x.1⟩)

/-! ### Converters (R275, R295, R375) -/

/-- Modulator cycles of an entry (R275). -/
def entryCycles (v : Nat → Nat) (x e : Nat) : Nat :=
  let f := v (Reg.AN_Cx_Ee_FLT x e)
  let p := if nbit (v (Reg.AN_Cx_Ee_IN x e)) 15 then 2 else 1
  8 + p * (nfld f 14 13 + 2 + nfld f 31 24 + nfld f 23 16 + 1) * (nfld f 12 0 * 32)

def entriesOf (v : Nat → Nat) (x : Nat) : List Nat := List.range (nfld (v (Reg.AN_Cx_CFG x)) 4 1 + 1)

/-- Modulator cycles of a converter's own sequence, and of its migratable entries. -/
def ownCycles (v : Nat → Nat) (x : Nat) : Nat := ((entriesOf v x).map (entryCycles v x)).sum
def migrCycles (v : Nat → Nat) (x : Nat) : Nat :=
  (((entriesOf v x).filter (fun e => nbit (v (Reg.AN_Cx_Ee_IN x e)) 17)).map (entryCycles v x)).sum

/-- tsd of a sequence of ts modulator cycles (R295). -/
def seqTicks (ts : Nat) : Nat := ceilDiv ((ts + 5) * 3125) 48

def membersOf (v : Nat → Nat) : List Nat := (List.range 4).filter (fun x => nbit (v Reg.AN_COMMON) (24 + x))
/-- A trigger kind with a period (R375). -/
def timedKind (k : Nat) : Bool := decide (k = 1 ∨ k = 2)

/-- The common source that some claims declare: its period, and the settings it is checked with. -/
def commonOf (cs : List Claim) : Option (Nat × (Nat → Nat)) :=
  (cs.map (fun c => (c.converters.filter (fun i => decide (i.2.1 = 4))).map (fun i => (i.2.2, c.view)))).flatten.head?

/-- The declared period of a converter's trigger among some claims, where one is checked: its own, or the common source's. -/
def periodOf (cs : List Claim) (x : Nat) : Option (Option Nat) :=
  let items := (cs.map (fun c => c.converters.map (fun i => (i.2.1, i.2.2, c.view)))).flatten
  match commonOf cs with
  | some (p, v) => if (membersOf v).contains x then some (if timedKind (nfld (v Reg.AN_COMMON) 1 0) then some p else none) else own items
  | none => own items
where
  own (items : List (Nat × Nat × (Nat → Nat))) : Option (Option Nat) :=
    (items.find? (fun i => decide (i.1 = x))).map (fun i =>
      if timedKind (nfld (i.2.2 (Reg.AN_Cx_TRIG x)) 1 0) then some i.2.1 else none)

/-- The settings of a converter: those of the claim on it, or `v` where none is made. -/
def convView (cs : List Claim) (v : Nat → Nat) (x : Nat) : Nat → Nat :=
  ((cs.find? (fun c => c.converters.any (fun i => decide (i.2.1 = x)))).map Claim.view).getD v

/-- The time check of converters (R375): each new item against its own trigger, unless the common source drives it (R282); and the members of
a declared common source against its period, where the source or the member is new. -/
def convCheck (held : List Claim) (new : Claim) : List Offence :=
  let cs := held ++ [new]
  let members := match commonOf cs with
    | some c => membersOf c.2
    | none => membersOf new.view
  let own := new.converters.filterMap (fun i =>
    let x := i.2.1
    if x = 4 ∨ members.contains x = true then none
    else if timedKind (nfld (new.view (Reg.AN_Cx_TRIG x)) 1 0) = true ∧ i.2.2 < seqTicks (ownCycles new.view x) then some (⟨8, x, uid 12 x 0, i.1⟩ : Offence)
    else none)
  let common := match commonOf cs with
    | none => []
    | some (p, v) => new.converters.filterMap (fun i =>
      let late := fun (y : Nat) => decide (p < seqTicks (ownCycles (convView cs v y) y))
      if timedKind (nfld (v Reg.AN_COMMON) 1 0) = true ∧
          (if i.2.1 = 4 then members.any late else members.contains i.2.1 && late i.2.1) = true then some (⟨8, 4, uid 12 4 0, i.1⟩ : Offence)
      else none)
  own ++ common

/-- The migratable entries of x fit into its partner's sequence (R28, R295); without a claim on the partner they do not. -/
def migrFits (cs : List Claim) (v : Nat → Nat) (x : Nat) : Bool :=
  let y := nfld (v (Reg.AN_Cx_CFG x)) 6 5
  if migrCycles v x = 0 then true
  else match periodOf cs y, cs.find? (fun c => c.converters.any (fun i => decide (i.2.1 = y))) with
    | some none, some _ => true
    | some (some p), some c => decide (seqTicks (ownCycles c.view y + migrCycles v x) ≤ p)
    | _, _ => false

/-! ### Host links (R376) -/

/-- GT/s of a rate code (R405). -/
def rateOf (code : Nat) : Nat := ([4, 8, 12, 16, 24, 32] : List Nat).getD code 4
/-- Bytes per ms of a link in one direction (R376). -/
def linkLimit (r : Nat) : Nat := r * 8000000 * 236 * 7 / 2560

def linkCheckAt (l : List (Nat × Nat × Nat × Nat)) (lim code xx unit : Nat) : List Offence :=
  let bad := (breakAt lim 0 (l.map (fun x => (x.1, x.2.2.1)))).orElse (fun _ => breakAt lim 0 (l.map (fun x => (x.1, x.2.2.2))))
  (bad.map (fun i => (⟨code, xx, unit, i⟩ : Offence))).toList

def Dev.linkCheck (d : Dev) (l : List (Nat × Nat × Nat × Nat)) : List Offence :=
  ((List.range 2).map (fun n =>
    linkCheckAt (l.filter (fun x => decide (x.2.1 = n))) (linkLimit (rateOf (d.link n).rate)) 9 n (uid 1 n 0))).flatten

/-! ### Dependencies (R193, R368, R370, R374, R376) and units in service (R378) -/

/-- The footprint of an enabled jet lies within the verification layer's columns (R178, R193): jets that break it. -/
def Dev.jetsOutside (d : Dev) (m : Mem) (cols : Nat) : List Nat :=
  let base := d.srdN Reg.BV_JET_BASE
  (List.range 128).filter (fun j =>
    let byte := fun (i : Nat) => if d.poisoned (base + 64 * j + i) 1 then Config.freeValue (d.free + 4000 + 64 * j + i) % 256
      else (m.frameByte (base + 64 * j + i)).toNat
    nbit (byte 7) 0 && decide (0 < byte 6) && decide (cols < byte 4 + 256 * byte 5 + byte 6))

/-- A layer is enabled with bloom set in the shadow copies. -/
def Dev.bloomLayer (d : Dev) (l : Nat) : Bool := d.sbit Reg.WM_CFG 0 && d.sbit (Reg.WM_Ll_CFG l) 0 && d.sbit (Reg.WM_Ll_CFG l) 10

/-- A head of the in-line class is mapped on a layer. -/
def Dev.inlineOn (d : Dev) (l : Nat) : Bool :=
  (List.range 8).any (fun h => d.sbit (Reg.WM_Hh_CFG h) 0 && decide (d.sfld (Reg.WM_Hh_CFG h) 2 1 = l) &&
    allCtx.any (fun x =>
      let c := d.srdN (Reg.PL_Sx_CFG x.1 x.2)
      nbit c 0 && nbit c 4 && !nbit c 5 && !nbit c 6 && decide (nfld c 3 1 = h)))

/-- What a contract that enables bloom depends on (R193). -/
def Dev.bloomDeps (d : Dev) (m : Mem) (i : Nat) : List Offence :=
  let v := d.sfld Reg.BV_CFG 2 1
  let b := d.sfld Reg.BV_CFG 4 3
  let pitch := d.srdN (Reg.WP_RGn_PITCH (d.sfld (Reg.WM_Ll_CFG v) 3 1))
  let at_ := fun (x : Nat) => (⟨0xC, x, uid 8 0 0, i⟩ : Offence)
  (if d.bloomLayer v && d.inlineOn v then [] else [at_ v]) ++
  (if d.sbit Reg.BV_CFG 5 || d.bloomLayer b then [] else [at_ b]) ++
  (if d.srdN Reg.BV_DIST + d.srdN (Reg.WM_Ll_FLUSH v) + 2 * pitch ≤ d.sfld Reg.BV_DEPTH 11 0 * pitch then [] else [at_ 0]) ++
  (d.jetsOutside m (d.sfld (Reg.WM_Ll_CFG v) 29 16)).map at_

/-- Missing dependencies of a request (R369, 0x0Cxx); `old` lists the contexts of the contract it replaces (log 114). -/
def Dev.depCheck (d : Dev) (m : Mem) (old : List Nat) (c : Claim) : List Offence :=
  ((indexed c.items).map (fun x => match x.2 with
    | .task i => if i.core = i.alt ∨ ((d.tctx i.ctx).state ≠ .idle ∧ old.contains i.ctx = false) then [⟨0xC, i.core, uid 2 i.core 0, x.1⟩] else []
    | .bank b => if (d.blink b).desc.isSome then [] else [⟨0xC, b, uid 9 b 31, x.1⟩]
    | .link l _ _ => if (d.link l).active then [] else [⟨0xC, l, uid 1 l 0, x.1⟩]
    | .bloom => d.bloomDeps m x.1
    | _ => [])).flatten

/-- The units that an item names (R378). -/
def Item.units : Item → List Nat
  | .task i => [uid 2 i.core 0, uid 2 i.alt 0]
  | .head h _ p sb _ => [uid 4 h 0, uid 5 p 0] ++ (if sb.isSome then [uid 5 (1 - p) 0] else [])
  | .layer _ => [uid 7 0 0]
  | .bloom => [uid 8 0 0]
  | .bank b => [uid 9 b 31, uid 10 b 0]
  | .converter x _ => if x < 4 then [uid 12 x 0] else []
  | .fabric b _ => [uid 3 b 0]
  | .link l _ _ => [uid 1 l 0]

/-- Units in service (R369, 0x0Bxx); a retired destination bank counts as one (R454). -/
def Dev.serviceCheck (d : Dev) (c : Claim) : List Offence :=
  ((indexed c.items).map (fun x =>
    let gone := match x.2 with
      | .fabric b _ => d.fab.retired.any (fun r => decide (r.2 = b))
      | _ => false
    (x.2.units.filter (fun u => d.inService u || gone)).map (fun u => (⟨0xB, u / 32 % 64, u, x.1⟩ : Offence)))).flatten

/-! ### Freed units (R368) -/

/-- A unit of an item is enabled in a copy, or has a swap pending (R368); a HEAD item has its port, its streams and its place in the map. -/
def Dev.freedBusy (d : Dev) (i : Item) : Bool :=
  let on := fun (a k : Nat) => d.bit a k || d.sbit a k
  match i with
  | .head h s p sb _ =>
    on (Reg.HP_CFG h) 0 || (d.swapOf (.hp (Fin.ofNat 8 h))).isSome ||
      on (Reg.PL_Sx_CFG p s) 0 || on (Reg.WM_Hh_CFG h) 0 || (d.swapOf (.pl (Fin.ofNat 2 p))).isSome || (d.swapOf .wm).isSome ||
      (match sb with
        | some x => on (Reg.PL_Sx_CFG (1 - p) x) 0 || (d.swapOf (.pl (Fin.ofNat 2 (1 - p)))).isSome
        | none => false)
  | .layer l => on (Reg.WM_Ll_CFG l) 0 || (d.swapOf .wm).isSome
  | .bloom => on Reg.BV_CFG 0 || (d.swapOf .bv).isSome
  | .bank b => on (Reg.VB_CFG b) 0 || (d.swapOf (.vb (Fin.ofNat 8 b))).isSome
  | .converter x _ =>
    if x = 4 then decide (d.fld Reg.AN_COMMON 27 24 ≠ 0) || decide (d.sfld Reg.AN_COMMON 27 24 ≠ 0) || (d.swapOf .ana).isSome
    else on (Reg.AN_Cx_CFG x) 0 || (d.swapOf (.anc (Fin.ofNat 4 x))).isSome
  | _ => false

/-- Units of a contract that its end would free while they are busy; `kept` are keys that a replacement takes over. -/
def Dev.freeCheck (d : Dev) (items : List Item) (kept : List (Nat × Nat)) : List Offence :=
  (indexed items).filterMap (fun x => match x.2.key with
    | some k => if kept.contains k = false ∧ d.freedBusy x.2 = true then some ⟨0xC, x.2.unit / 32 % 64, x.2.unit, x.1⟩ else none
    | none => none)

/-! ### Protected reserves (R28, R377) -/

def Dev.protPipes (l : List Claim) (uses : List (Nat × HeadUse)) : List Offence :=
  let heads := (l.map (fun c => (indexed c.items).filterMap (fun x => match x.2 with
    | .head _ _ p sb _ => some (x.1, p, sb, c.view)
    | _ => none))).flatten
  (match breakAt 61166 0 (uses.map (fun x => (x.1, x.2.u))) with
    | some i => [(⟨0xA, 0, uid 5 0 0, i⟩ : Offence)]
    | none => []) ++
  (heads.map (fun x =>
    (if x.2.2.1.isNone then [(⟨0xA, x.2.1, uid 5 x.2.1 0, x.1⟩ : Offence)] else []) ++
    (List.range 2).filterMap (fun p => if nbit (x.2.2.2 (Reg.PL_CFG p)) 1 then none else some ⟨0xA, p, uid 5 p 0, x.1⟩))).flatten

def protCores (l : List (Nat × TaskItem)) : List Offence :=
  (match breakAt 176947 0 (l.map (fun x => (x.1, x.2.load))) with
    | some i => [(⟨0xA, 32, uid 2 0 0, i⟩ : Offence)]
    | none => []) ++
  (List.range 4).filterMap (fun k =>
    ((List.range 4).filter (fun j => decide (j ≠ k))).findSome? (fun j =>
      (breakAt 58982 (coreSum l j) ((l.filter (fun x => decide (x.2.core = k ∧ x.2.alt = j))).map (fun x => (x.1, x.2.load)))).map (fun i =>
        (⟨0xA, 32 + k, uid 2 k 0, i⟩ : Offence))))

/-- The spare lace engine is healthy and assigned to no bank (R28). -/
def Dev.spareIdle (d : Dev) : Bool := d.spare.healthy && decide (d.spare.state = 0)

def Dev.protLace (d : Dev) (c : Claim) : List Offence :=
  if d.spareIdle then [] else c.banks.map (fun x => ⟨0xA, 64 + x.2, uid 9 x.2 31, x.1⟩)

def protConverters (cs : List Claim) (c : Claim) : List Offence :=
  c.converters.filterMap (fun i =>
    if i.2.1 < 4 ∧ migrFits cs c.view i.2.1 = false then some ⟨0xA, 96 + i.2.1, uid 12 i.2.1 0, i.1⟩ else none)

def Dev.protLinks (d : Dev) (l : List (Nat × Nat × Nat × Nat)) : List Offence :=
  let on := fun (n : Nat) => (d.link n).active
  let r := fun (n : Nat) => rateOf (d.link n).rate
  if on 0 = false ∨ on 1 = false then
    let x := if on 1 then 1 else 0
    [⟨0xA, 128 + x, uid 1 x 0, 0⟩]
  else
    let fast := if r 0 < r 1 then 1 else 0
    linkCheckAt l (linkLimit (min (r 0) (r 1))) 0xA (128 + fast) (uid 1 fast 0)

/-! ### All checks -/

/-- Granules of the heads of some claims, and of heads whose calibration is on (R122, R372; log 115). -/
def Dev.headGranules (d : Dev) (held : List Claim) (new : Claim) : List (Nat × Nat × Nat) :=
  let of := fun (c : Claim) => (indexed c.items).filterMap (fun x => match x.2 with
    | .head h s p _ _ =>
      let y := headShape c.view h p s
      some (x.1, h, granulesOf (y.1 * y.2.1))
    | _ => none)
  let l := allOf of held new
  let rest := (List.range 8).filter (fun h => d.ltOn h && l.all (fun x => decide (x.2.1 ≠ h)))
  rest.map (fun h => (0, h, granulesOf (d.headRecords h))) ++ l

/-- The capacity checks 0x01xx to 0x09xx of a request beside the contracts held (R369). -/
def Dev.capacity (d : Dev) (held : List Claim) (new : Claim) : List (List Offence) :=
  let bloom := (indexed new.items).find? (fun x => decide (x.2 = .bloom))
  let others : List Offence := match bloom with
    | some b => ((held.map (fun c => d.coilCheck c)).flatten).map (fun o => { o with item := b.1 })
    | none => []
  [pipeCheck (allOf Claim.heads held new), granCheck d.healthyGranules 0 0 (d.headGranules held new), coreCheck (allOf Claim.tasks held new),
    d.fabricCheck (allOf Claim.fabrics held new) (fun _ => 0), d.eyeletCheck new, d.currentCheck new, d.coilCheck new ++ others,
    convCheck held new, d.linkCheck (allOf Claim.links held new)]

/-! ### Capacity that activities have removed (R369, R378, R448) -/

/-- An activity of a kind on a unit is among some. -/
def outs (acts : List Slot) (kind unit : Nat) : Bool := acts.any (fun x => decide (x.kind = kind ∧ x.unit = unit))

/-- Where an item's load goes while activities hold units (R378, R445); none where it has nowhere to go. -/
def Dev.relocate (d : Dev) (acts : List Slot) : Item → Option Item
  | .head h s p sb sp => if outs acts 1 p then sb.map (fun x => .head h x (1 - p) none sp) else some (.head h s p sb sp)
  | .task i =>
    if outs acts 2 i.core then (if (d.core i.alt).service then some (.task { i with core := i.alt }) else none) else some (.task i)
  | .link l a b => if outs acts 5 l then (if (d.link (1 - l)).active then some (.link (1 - l) a b) else none) else some (.link l a b)
  | i => some i

/-- Healthy granules with the banks of LS_RETIRE activities removed (R455). -/
def Dev.healthyWithout (d : Dev) (acts : List Slot) : Nat :=
  (((List.range 16).filter (fun b => !outs acts 7 (b + 18))).map d.bankHealthy).sum

/-- Copy traffic, and the declared traffic of a retiring bank on its destination (R454). -/
def Dev.retireLoad (d : Dev) (acts : List Slot) (items : List (Nat × Nat × Nat)) (b : Nat) : Nat :=
  ((acts.filter (fun x => decide (x.kind = 6))).map (fun x =>
    if x.unit = b then 12000000
    else if x.second = b then 12000000 + ((items.filter (fun i => decide (d.physBank i.2.1 = x.unit))).map (fun i => i.2.2)).sum
    else 0)).sum

/-- The capacity check of R378: some claims together, with the capacity of the units that activities hold taken as 0 and spare arrangements
counted as used. -/
def Dev.claimsFit (d : Dev) (acts : List Slot) (held : List Claim) : Bool :=
  let moved := held.map (fun c => (c.items.map (d.relocate acts), c.view))
  let cs : List Claim := moved.map (fun c => ⟨c.1.filterMap id, c.2⟩)
  let none_ : Claim := ⟨[], d.srdN⟩
  let items := allOf Claim.fabrics cs none_
  moved.all (fun c => c.1.all Option.isSome) && (pipeCheck (allOf Claim.heads cs none_)).isEmpty &&
    (granCheck (d.healthyWithout acts) 0 0 (d.headGranules held none_)).isEmpty && (coreCheck (allOf Claim.tasks cs none_)).isEmpty &&
    (d.fabricCheck items (d.retireLoad acts items)).isEmpty &&
    cs.all (fun c => (d.eyeletCheck c).isEmpty && (d.currentCheck c).isEmpty && (d.coilCheck c).isEmpty && (convCheck cs c).isEmpty) &&
    (d.linkCheck (allOf Claim.links cs none_)).isEmpty &&
    held.all (fun c => c.converters.all (fun i => !outs acts 4 i.2.1 || migrFits held c.view i.2.1))

/-- The activity with which a request conflicts (R369, 0x0Dxx): the first, in rising number, with which and with those before it the contracts
held and the new one do not fit; its offender is the activity's target, and it names no item (log 212). -/
def Dev.ledgerCheck (d : Dev) (held : List Claim) (new : Claim) : List Offence :=
  let live := d.slotsIn Slot.live
  match (List.range live.length).find? (fun i => !d.claimsFit ((live.take (i + 1)).map d.slot) (held ++ [new])) with
  | some i => [⟨0xD, live.getD i 0, (d.slot (live.getD i 0)).target / 32 * 32, 0⟩]
  | none => []

/-- The reserves of protected mode (R377). -/
def Dev.reserves (d : Dev) (held : List Claim) (new : Claim) : List Offence :=
  if d.feature 1 then
    let all := held ++ [new]
    Dev.protPipes all (allOf Claim.heads held new) ++ protCores (allOf Claim.tasks held new) ++ d.protLace new ++
      (all.map (protConverters all)).flatten ++ d.protLinks (allOf Claim.links held new)
  else []

/-! ## Requests of tasks (R348, R368, R369) -/

def Contract.claim (d : Dev) (c : Contract) : Claim := ⟨c.items, d.viewOf c.snap⟩
def Dev.heldClaims (d : Dev) (less : Option Nat) : List Claim :=
  (d.tk.contracts.filter (fun x => decide (some x.1 ≠ less))).map (fun x => x.2.claim d)
def Dev.contractSlot (d : Dev) (handle : Nat) : Option Nat := (d.tk.contracts.find? (fun x => decide (x.2.handle = handle))).map Prod.fst
def Dev.contractIn (d : Dev) (slot : Nat) : Option Contract := (d.tk.contracts.find? (fun x => decide (x.1 = slot))).map Prod.snd

/-- A trigger period is 0 for trigger kinds 0 and 3 (R366). -/
def Dev.periodOk (d : Dev) : Item → Bool
  | .converter x p => decide (p = 0) || timedKind (if x = 4 then d.sfld Reg.AN_COMMON 1 0 else d.sfld (Reg.AN_Cx_TRIG x) 1 0)
  | _ => true

/-- Reserved kinds and fields, units named twice or held by another contract (R366, R369): items by index. -/
def Dev.itemFaults (d : Dev) (less : Option Nat) (items : List (Option Item)) : List Offence :=
  let taken := (((d.tk.contracts.filter (fun x => decide (some x.1 ≠ less))).map (fun x => x.2.items)).flatten).filterMap Item.key
  ((List.range items.length).map (fun i =>
    match items.getD i none with
    | none => [(⟨0xE, i, 0, i⟩ : Offence)]
    | some x => match x.key with
      | some k =>
        if d.periodOk x = false ∨ taken.contains k = true ∨ ((items.take i).filterMap (fun (y : Option Item) => y.bind Item.key)).contains k = true then [⟨0xE, i, x.unit, i⟩] else []
      | none => [])).flatten

/-- A descriptor that is invalid as a whole (R369): no item has the offence, so xx is free, but 0xFE and 0xFF have meanings of their own
(log 116). -/
def Dev.wholeInvalid (d : Dev) : Offence := ⟨0xE, Config.freeValue d.free % 254, uid 2 5 0, 0⟩

/-- What a submission comes to: an offence, or its items and the slot of the contract it replaces. -/
def Dev.checkSubmit (d : Dev) (m : Mem) (k a : Nat) : Except Offence (List Item × Option Nat) :=
  let e := d.descByte m k a
  let n := e 1
  if descPlace a 32 = false then .error d.wholeInvalid
  else
    let replace := nbit (e 2) 0
    let handle := bytesNat e 4 2
    let old := if replace then d.contractSlot handle else none
    if e 0 ≠ 1 ∨ n = 0 ∨ 64 < n ∨ 1 < e 2 ∨ e 3 ≠ 0 ∨ zeros e 6 32 = false ∨ (replace = false ∧ handle ≠ 0) ∨ (replace = true ∧ old = none) ∨
        descPlace a (32 + 32 * n) = false then .error d.wholeInvalid
    else
      let parsed := (List.range n).map (fun i => parseItem (fun j => e (32 + 32 * i + j)))
      let items := parsed.filterMap id
      let new : Claim := ⟨items, d.srdN⟩
      let held := d.heldClaims old
      let oldItems := match old.bind d.contractIn with
        | some c => c.items
        | none => []
      let full : List Offence := if old = none ∧ 64 ≤ d.tk.contracts.length then [⟨0xE, 0xFF, uid 2 5 0, 0⟩] else []
      let oldCtx := oldItems.filterMap (fun i => match i with
        | .task t => some t.ctx
        | _ => none)
      match firstOffence ([d.itemFaults old parsed ++ full, d.depCheck m oldCtx new ++ d.freeCheck oldItems (items.filterMap Item.key),
          d.serviceCheck new] ++ d.capacity held new ++ [d.reserves held new, d.ledgerCheck held new]) with
      | some o => .error o
      | none => .ok (items, old)

/-- The next handle of the counter: not 0, and not one still held (R369). -/
def nextHandle (held : List Nat) : Nat → Nat → Nat
  | h, 0 => h
  | h, n + 1 => if h = 0 ∨ held.contains h = true then nextHandle held ((h + 1) % 65536) n else h

/-- A task released from its contract: best-effort from its next release (R368). -/
def TaskCtx.unadmit (x : TaskCtx) : TaskCtx :=
  let x := { x with admitted := false }
  if x.inProgress then x else x.settle

/-- A task admitted (R358, R366): the first release time at or after t. -/
def TaskCtx.bind (x : TaskCtx) (t : Nat) (i : TaskItem) (kept : Bool) : TaskCtx :=
  { x with item := some i, admitted := true, core := i.core, alt := i.alt, nextRel := i.phase + ceilDiv (t - i.phase) i.t * i.t,
           evDue := if kept then x.evDue else [], lastRel := if kept then x.lastRel else none }

/-- The contexts of a contract's TASK items. -/
def taskCtxs (items : List Item) : List Nat := items.filterMap (fun i => match i with
  | .task t => some t.ctx
  | _ => none)

/-- The contract in a slot ends; `kept` are contexts that a replacement takes over. -/
def Dev.endContract (d : Dev) (slot : Nat) (kept : List Nat) : Dev :=
  let items := match d.contractIn slot with
    | some c => c.items
    | none => []
  let d := ((taskCtxs items).filter (fun c => !kept.contains c)).foldl (fun (d : Dev) c => d.updTctx c TaskCtx.unadmit) d
  d.updTk (fun x => { x with contracts := x.contracts.filter (fun y => decide (y.1 ≠ slot)) })

/-- A contract is accepted (R367, R368): its handle. -/
def Dev.accept (d : Dev) (t : Nat) (items : List Item) (old : Option Nat) : Dev × Nat :=
  let oldCtx := match old.bind d.contractIn with
    | some c => taskCtxs c.items
    | none => []
  let held := d.tk.contracts.map (fun x => x.2.handle)
  let h := nextHandle held d.tk.nextHandle 130
  let snap := d.snapshot items
  let slot := match old with
    | some s => s
    | none => ((List.range 64).find? (fun i => d.tk.contracts.all (fun x => decide (x.1 ≠ i)))).getD 0
  let d := match old with
    | some s => d.endContract s (taskCtxs items)
    | none => d
  let d := items.foldl (fun (d : Dev) i => match i with
    | .task x => d.updTctx x.ctx (fun y => y.bind t x (oldCtx.contains x.ctx))
    | _ => d) d
  (d.updTk (fun x => { x with contracts := x.contracts ++ [(slot, ⟨h, items, snap⟩)], nextHandle := (h + 1) % 65536 }), h)

/-- AM_LAST, AM_LAST_UNIT and the counts (R380). -/
def Dev.noteAnswer (d : Dev) (code handle : Nat) (o : Option Offence) : Dev :=
  let d := d.wrN Reg.AM_LAST (code + 65536 * handle)
  match o with
  | some o => d.wrN Reg.AM_LAST_UNIT (o.unit + 65536 * (o.item % 256))
  | none => d

/-- Free values that a check may have read are used up. -/
def Dev.afterCheck (d : Dev) : Dev := { d with free := d.free + 16384 }

/-- ADMIT op 0 (R369): the code and handle. -/
def Dev.submitContract (d : Dev) (m : Mem) (t k a : Nat) : Dev × Nat × Nat :=
  let answer := d.checkSubmit m k a
  let d := if a < 0x10000000 then d else d.readPoison t k (a - 0x10000000) (32 + 32 * min 64 (d.descByte m k a 1))
  match answer with
  | .error o => (((d.afterCheck).bump Reg.AM_CNT_REFUSE).noteAnswer o.code 0 (some o), o.code, 0)
  | .ok (items, old) =>
    let r := (d.afterCheck).accept t items old
    ((r.1.bump Reg.AM_CNT_ACCEPT).noteAnswer 0 r.2 none, 0, r.2)

/-- ADMIT op 1 (R368): a handle that no contract has is answered as an invalid descriptor, with xx free (log 116). -/
def Dev.releaseContract (d : Dev) (handle : Nat) : Dev × Nat × Nat :=
  match d.contractSlot handle with
  | none =>
    ((d.afterCheck).noteAnswer d.wholeInvalid.code 0 (some d.wholeInvalid), d.wholeInvalid.code, 0)
  | some s =>
    let items := match d.contractIn s with
      | some c => c.items
      | none => []
    match leastXx (d.freeCheck items []) with
    | some o => (d.noteAnswer o.code 0 (some o), o.code, 0)
    | none => ((d.endContract s []).noteAnswer 0 0 none, 0, 0)

/-- The answer resumes its task (R348): rd = code and handle, Z for code 0. -/
def Dev.answerTask (d : Dev) (t c code handle : Nat) : Dev :=
  let x := d.tctx c
  match x.wait with
  | .admission rd => d.resume t c ((x.setReg rd (BitVec.ofNat 32 (code + 65536 * handle))).setZ (decide (code = 0)))
  | _ => d

/-- The admission unit takes a task's request. -/
def Dev.taskRequest (d : Dev) (m : Mem) (t c k : Nat) (submit : Bool) (arg : Word) : Dev :=
  let r := if submit then d.submitContract m t k arg.toNat else d.releaseContract arg.toNat
  r.1.answerTask t c r.2.1 r.2.2

/-- ADMIT (R348): a task with a lock takes the lock-wait fault (R344); else it waits for the answer. -/
def Dev.admitOp (d : Dev) (t k c : Nat) (x : TaskCtx) (rd ra : Nat) (submit : Bool) : Dev :=
  if d.holdsLock k then d.lockWait t k c 0x1D
  else (d.updTk (fun y => { y with requests := y.requests ++ [.task c k submit (x.reg ra)] })).suspend t k c (.admission rd)

def execAdmitSubmit (k : Fin 4) (rd ra : Fin 16) (s : State) : Result :=
  s.ercelAfter k (fun now _ c x d => (d.admitOp now.dtime k c x rd ra true, []))
def execAdmitRelease (k : Fin 4) (rd ra : Fin 16) (s : State) : Result :=
  s.ercelAfter k (fun now _ c x d => (d.admitOp now.dtime k c x rd ra false, []))

/-- A unit reset of the admission unit (R381): the queued requests of tasks are answered 0x0EFE; contracts are kept. -/
def Dev.admissionReset (d : Dev) (t : Nat) : Dev :=
  let reqs := d.tk.requests
  let d := d.updTk (fun x => { x with requests := [] })
  reqs.foldl (fun (d : Dev) r => match r with
    | .task c _ _ _ => (d.flag Reg.AM_FAULT 0).answerTask t c 0x0EFE 0
    | .ledger a => (d.flag Reg.AM_FAULT 0).updSlot a (fun x => if x.state = 1 then { x with state := 5, cause := 1, code := 0x0EFE } else x)) d

end Sys2Proof.Machine
end

