-- ==== Sys2Proof/Machine/ErcelEvents.lean ====
section
/-! DEFINITION. Machine/ErcelEvents.lean: task queues (R337, R364), events at the scheduler and WAIT (R338, R339), POST (R340), and the DMA
engines of the task cores (R349, R350). -/
namespace Sys2Proof.Machine

/-! ## Task queues (R337, R364) -/

def Dev.queue (d : Dev) (q : Nat) : TaskQueue := SMap.get TaskQueue.reset d.tk.queues q
def Dev.setQueue (d : Dev) (q : Nat) (x : TaskQueue) : Dev := d.updTk (fun y => { y with queues := SMap.set TaskQueue.reset y.queues q x })

/-- Words held, and credits of the producer (R364). -/
def TaskQueue.words (x : TaskQueue) : Nat := x.put - x.got
def TaskQueue.credits (x : TaskQueue) : Nat := x.depth - x.words

/-- The frame-memory address of word i of queue q (R364). -/
def Dev.queueAddr (d : Dev) (q i : Nat) : Nat := d.rdN Reg.TK_QBASE + q * 1024 + i % (d.queue q).depth * 4

/-- QPUT appends a word and takes a credit (R337). -/
def Dev.queuePut (d : Dev) (q : Nat) (w : Word) : Dev × List MemWrite :=
  let x := d.queue q
  (d.setQueue q { x with put := x.put + 1 }, frameWrites (d.queueAddr q x.put) 4 w.toNat)

/-- QGET removes the oldest word and returns its credit (R337); a word that reads uncorrectable has an open value (log 97). -/
def Dev.queueGet (d : Dev) (m : Mem) (t q req : Nat) : Word × Dev :=
  let x := d.queue q
  let a := d.queueAddr q x.got
  let e := d.setQueue q { x with got := x.got + 1 }
  if e.poisoned a 4 then
    let r := e.fresh
    (BitVec.ofNat 32 r.1, r.2.readUE t req a)
  else (BitVec.ofNat 32 (leNat ((List.range 4).map (fun i => overlay (e.fab.held.map Prod.snd).flatten (a + i) (m.frameByte (a + i))))), e)

/-- The DTIME of a timeout that starts at t; 0xFFFF_FFFF is none (R323, R339). -/
def timeoutAt (t : Nat) (v : Word) : Option Nat := if v = 0xFFFFFFFF then none else some (t + v.toNat)

/-- The queue that an instruction names (R337). -/
def TaskCtx.queueNo (x : TaskCtx) (ra : Nat) (qi : Byte) : Nat := ((x.reg ra).toNat + qi.toNat) % 256

def Dev.queueFault (d : Dev) (t k c q : Nat) : Dev := d.taskFault t k c 0x010A q 0

def Dev.qput (d : Dev) (t k c : Nat) (x : TaskCtx) (rs ra : Nat) (qi : Byte) (blk : Bool) : Dev × List MemWrite :=
  let q := x.queueNo ra qi
  let y := d.queue q
  if blk = true ∧ x.tmo ≠ 0 ∧ d.holdsLock k = true then (d.lockWait t k c 0x16, [])
  else if y.bound = false ∨ y.producer ≠ c then (d.queueFault t k c q, [])
  else if 0 < y.credits then (d.retire t k c (x.next.setZ true)).queuePut q (x.reg rs)
  else if blk = true ∧ x.tmo ≠ 0 then (d.suspend t k c (.put q (x.reg rs) (timeoutAt t x.tmo)), [])
  else (d.retire t k c (x.next.setZ false), [])

def Dev.qget (d : Dev) (m : Mem) (t k c : Nat) (x : TaskCtx) (rd ra : Nat) (qi : Byte) (blk : Bool) : Dev :=
  let q := x.queueNo ra qi
  let y := d.queue q
  if blk = true ∧ x.tmo ≠ 0 ∧ d.holdsLock k = true then d.lockWait t k c 0x17
  else if y.bound = false ∨ y.consumer ≠ c then d.queueFault t k c q
  else if 0 < y.words then
    let r := d.queueGet m t q k
    r.2.retire t k c ((x.put rd r.1).setZ true)
  else if blk = true ∧ x.tmo ≠ 0 then d.suspend t k c (.get q rd (timeoutAt t x.tmo))
  else d.retire t k c (x.next.setZ false)

/-- A blocked QPUT or QGET acts if it can (R337). -/
def Dev.queueResume (d : Dev) (m : Mem) (t c : Nat) : Dev × List MemWrite :=
  let x := d.tctx c
  match x.wait with
  | .put q w _ =>
    if 0 < (d.queue q).credits then
      let r := d.queuePut q w
      (r.1.resume t c (x.setZ true), r.2)
    else (d, [])
  | .get q rd _ =>
    if 0 < (d.queue q).words then
      let r := d.queueGet m t q x.core
      (r.2.resume t c ((x.setReg rd r.1).setZ true), [])
    else (d, [])
  | _ => (d, [])

/-- The timeout of a suspended task (R337, R339). -/
def Dev.waitUntil (d : Dev) (c : Nat) (queue : Bool) : Option Nat :=
  match (d.tctx c).wait with
  | .put _ _ u => if queue then u else none
  | .get _ _ u => if queue then u else none
  | .event _ u => if queue then none else u
  | _ => none

/-- A wait that times out acts if it can in that cycle, and else returns with Z = 0 (R337). -/
def Dev.queueTimeout (d : Dev) (m : Mem) (t c : Nat) : Dev × List MemWrite :=
  let can := match (d.tctx c).wait with
    | .put q _ _ => decide (0 < (d.queue q).credits)
    | .get q _ _ => decide (0 < (d.queue q).words)
    | _ => false
  if can then d.queueResume m t c else (d.resume t c ((d.tctx c).setZ false), [])

/-- A write of TK_Qq_CFG (R364). -/
def Dev.queueCfg (d : Dev) (t q v : Nat) : Dev :=
  let x := d.queue q
  if nbit v 31 then
    if x.bound then d.flag Reg.TK_FAULT 10
    else (d.setQueue q ⟨true, nfld v 9 0, nfld v 19 10, nfld v 27 20 + 1, 0, 0⟩).wrN (Reg.TK_Qq_CFG q) (v &&& regMask (Reg.TK_Qq_CFG q))
  else
    let d := (d.setQueue q TaskQueue.reset).wrN (Reg.TK_Qq_CFG q) (v &&& regMask (Reg.TK_Qq_CFG q))
    d.liveCtxs.foldl (fun (d : Dev) c => match (d.tctx c).wait with
      | .put p _ _ => if p = q then d.resume t c ((d.tctx c).setZ false) else d
      | .get p _ _ => if p = q then d.resume t c ((d.tctx c).setZ false) else d
      | _ => d) d

/-- A write of TK_QBASE (R364). -/
def Dev.qbaseWrite (d : Dev) (v : Nat) : Dev :=
  if d.tk.queues.any (fun p => p.2.bound) then d.flag Reg.TK_FAULT 10
  else d.wrN Reg.TK_QBASE (v &&& regMask Reg.TK_QBASE)

def execQput (k : Fin 4) (rs ra : Fin 16) (qi : Byte) (blk : Bool) (s : State) : Result :=
  s.ercelAfter k (fun now _ c x d => d.qput now.dtime k c x rs ra qi blk)
def execQget (k : Fin 4) (rd ra : Fin 16) (qi : Byte) (blk : Bool) (s : State) : Result :=
  s.ercel k (fun now m c x d => (d.qget m now.dtime k c x rd ra qi blk, []))
def execQueueResume (c : Fin 1024) (s : State) : Result := s.actWr (s.dev.tctx c).core (fun now m d => d.queueResume m now.dtime c)
def execQueueTimeout (c : Fin 1024) (s : State) : Result :=
  s.actDueWr (s.dev.tctx c).core (fun _ d => d.waitUntil c true) (fun now m d => d.queueTimeout m now.dtime c)
/-- QUEUE_BIND (R364): the depth is the field plus 1. -/
def execQueueBind (q : Fin 256) (producer consumer : Fin 1024) (depth : Fin 256) (s : State) : Result :=
  s.act (fun now d => d.queueCfg now.dtime q (2 ^ 31 + producer + 1024 * consumer + 2 ^ 20 * depth))
def execQueueUnbind (q : Fin 256) (s : State) : Result := s.act (fun now d => d.queueCfg now.dtime q 0)
def execQbaseWrite (v : Word) (s : State) : Result := s.act (fun _ d => d.qbaseWrite v.toNat)

/-! ## Events at the scheduler (R338, R416) -/

def Dev.eventRec (d : Dev) (e : Nat) : EventRec := SMap.get EventRec.reset d.tk.evTab e

/-- An occurrence reaches a context: its pending bit, and its event release (R338, R358). -/
def TaskCtx.latch (x : TaskCtx) (o : EventOcc) : TaskCtx :=
  let x := if x.evg = o.num / 32 ∧ x.evm.getLsbD (o.num % 32) = true then { x with evp := x.evp ||| ((1 : Word) <<< (o.num % 32)) } else x
  match x.item with
  | some i => if x.admitted = true ∧ i.event = some o.num then { x with evDue := x.evDue ++ [o.dtime] } else x
  | none => x

/-- EVENT_LATCH (R338): the oldest occurrence on its way reaches the scheduler, and the vectors that HX_EVMAP names are raised (R416). -/
def Dev.eventLatch (d : Dev) : Dev :=
  match d.ev with
  | [] => d
  | o :: rest =>
    let d := { d with ev := rest }
    let r := d.eventRec o.num
    let d := d.updTk (fun y => { y with evTab := SMap.set EventRec.reset y.evTab o.num ⟨o.word, o.dtime, (r.count + 1) % 2 ^ 32⟩ })
    let d := d.liveCtxs.foldl (fun (d : Dev) c => d.updTctx c (fun x => x.latch o)) d
    (List.range 16).foldl (fun (d : Dev) i =>
      let a := Reg.HX_EVMAPi i
      if d.bit a 15 = true ∧ d.fld a 7 0 = o.num then d.msixRaise d.directLink (d.fld a 13 8) else d) d

/-! ## WAIT (R339) -/

/-- The first pending event after the one last delivered, in increasing number, wrapping within the group (R339). -/
def TaskCtx.nextEvent (x : TaskCtx) : Option Nat :=
  ((List.range 32).map (fun i => (x.last + 1 + i) % 32)).find? (fun b => x.evp.getLsbD b)

/-- Deliver one event to a context: rd, the record registers, Z = 1 (R339). -/
def Dev.deliver (d : Dev) (x : TaskCtx) (rd b : Nat) : TaskCtx :=
  let e := 32 * x.evg + b
  let r := d.eventRec e
  { (x.setReg rd (BitVec.ofNat 32 e)).setZ true with
    evp := x.evp &&& ~~~((1 : Word) <<< b), last := b, evrec := r.word, evtime := BitVec.ofNat 32 r.dtime, evcnt := BitVec.ofNat 32 r.count }

def Dev.waitOp (d : Dev) (t k c : Nat) (x : TaskCtx) (rd ra : Nat) : Dev :=
  let v := x.reg ra
  if d.holdsLock k = true ∧ v ≠ 0 then d.lockWait t k c 0x18
  else match x.nextEvent with
    | some b => d.retire t k c (d.deliver x rd b).next
    | none =>
      if v = 0 then d.retire t k c (x.next.setZ false)
      else d.suspend t k c (.event rd (timeoutAt t v))

/-- A suspended WAIT delivers an event that has become pending (R339). -/
def Dev.waitDeliver (d : Dev) (t c : Nat) : Dev :=
  let x := d.tctx c
  match x.wait with
  | .event rd _ => match x.nextEvent with
    | some b => d.resume t c (d.deliver x rd b)
    | none => d
  | _ => d

/-- A suspended WAIT at its timeout: an event latched in the same cycle is delivered (R339). -/
def Dev.waitTimeout (d : Dev) (t c : Nat) : Dev :=
  match (d.tctx c).nextEvent with
  | some _ => d.waitDeliver t c
  | none => d.resume t c ((d.tctx c).setZ false)

def execEventLatch (s : State) : Result := s.act (fun _ d => d.eventLatch)
def execWait (k : Fin 4) (rd ra : Fin 16) (s : State) : Result :=
  s.ercel k (fun now _ c x d => (d.waitOp now.dtime k c x rd ra, []))
def execWaitDeliver (c : Fin 1024) (s : State) : Result := s.act (fun now d => d.waitDeliver now.dtime c)
def execWaitTimeout (c : Fin 1024) (s : State) : Result := s.actDue (fun _ d => d.waitUntil c false) (fun now d => d.waitTimeout now.dtime c)
/-- POST (R340): event 96 + n with record word ra. -/
def execPost (k : Fin 4) (ra : Fin 16) (n : Fin 32) (s : State) : Result :=
  s.ercelAfter k (fun now _ c x d => ((d.retire now.dtime k c x.next).raise now.dtime (96 + n) (x.reg ra).toNat, []))

/-! ## DMA (R349, R350) -/

/-- A descriptor as 32 bytes of local memory give it (R349). -/
def dmaDesc (m : Mem) (a : Nat) : DmaDesc :=
  let sp := m.locNat (a + 20) 1
  let co := m.locNat (a + 22) 1
  { src := m.locNat a 8, dst := m.locNat (a + 8) 8, len := m.locNat (a + 16) 4, srcSpace := nfld sp 1 0, dstSpace := nfld sp 3 2,
    srcCore := nfld co 1 0, dstCore := nfld co 3 2, post := if nbit sp 4 then some (nfld (m.locNat (a + 21) 1) 4 0) else none,
    done := m.locNat (a + 24) 4, tag := m.locNat (a + 28) 4 }

/-- A range of a space lies within it: local memory, frame memory, host memory (R349). -/
def inSpace (space a n : Nat) : Bool := match space with
  | 0 => decide (a + n ≤ 0x40000)
  | 1 => decide (a + n ≤ frameBytes)
  | _ => decide (a + n ≤ 2 ^ 64)

/-- The device takes the descriptor (R349). -/
def DmaDesc.valid (x : DmaDesc) : Bool :=
  decide (x.srcSpace ≠ 3) && decide (x.dstSpace ≠ 3) && decide (4 ≤ x.len) && decide (x.len ≤ 16777216) && decide (x.len % 4 = 0) &&
    decide (x.src % 4 = 0) && decide (x.dst % 4 = 0) && decide (x.done % 4 = 0) && decide (x.done < 0x40000) &&
    inSpace x.srcSpace x.src x.len && inSpace x.dstSpace x.dst x.len

/-- DMA (R349): 0 queued, 1 full, 2 invalid. -/
def Dev.dmaOp (d : Dev) (m : Mem) (t k c : Nat) (x : TaskCtx) (rd ra : Nat) : Dev :=
  let a := (x.reg ra).toNat
  let y := dmaDesc m (k * 0x40000 + a)
  let r := if a % 32 ≠ 0 ∨ 0x40000 ≤ a ∨ y.valid = false then 2
    else if 16 ≤ (d.core k).dma.length then 1 else 0
  let d := if r = 0 then d.updCore k (fun z => { z with dma := z.dma ++ [y] }) else d
  d.retire t k c ((x.put rd (BitVec.ofNat 32 r)).setZ (decide (r = 0)))

/-- The bytes that a transfer reads on the die. -/
def DmaDesc.source (x : DmaDesc) (m : Mem) : List Byte :=
  (List.range x.len).map (fun i => if x.srcSpace = 0 then m.locByte (x.srcCore * 0x40000 + x.src + i) else m.frameByte (x.src + i))

/-- Words of bytes, least significant first. -/
def wordsOf (bs : List Byte) : List Word := (List.range (bs.length / 4)).map (fun i => BitVec.ofNat 32 (leNat ((bs.drop (4 * i)).take 4)))

/-- The oldest transfer of core k ends (R350). `host` is what host memory gave a transfer from it, none where the link or the host fails,
in either direction, with the error completion `err` of a host that refuses; `bad` says that a read on the die finds a new uncorrectable
error. What an unsuccessful transfer leaves at its destination is open (log 98). A transfer into a locked bank does not end before the
lock does (R342), nor one of host memory while the link that carries it is in D3hot and issues no requests (R406). -/
def Dev.dmaDone (d : Dev) (m : Mem) (t k : Nat) (host : Option (List Byte)) (err : Option (Fin 3)) (bad : Bool) : Dev × List MemWrite :=
  match (d.core k).dma with
  | [] => (d, [])
  | x :: rest =>
    let waits := (decide (x.dstSpace = 1) && (List.range 16).any (fun b => decide (bankOf x.dst ≤ b) && decide (b ≤ bankOf (x.dst + x.len - 1)) &&
      (d.lockOwner b).isSome)) || (decide (x.srcSpace = 2 ∨ x.dstSpace = 2) && host.isSome && (d.link d.directLink).d3hot)
    if waits then (d, [])
    else
      let d := d.updCore k (fun z => { z with dma := rest })
      let ue := decide (x.srcSpace ≠ 2) && (bad || (decide (x.srcSpace = 1) && d.poisoned x.src x.len))
      let d := if ue = true ∧ x.srcSpace = 1 then
          let at_ := if d.poisoned x.src x.len then
              ((List.range (x.len / 4)).map (fun i => x.src + 4 * i)).find? (fun a => d.poisoned a 4) |>.getD x.src
            else x.src
          d.readUE t k at_
        else d
      let linkErr := (decide (x.srcSpace = 2) || decide (x.dstSpace = 2)) && host.isNone
      let cause := if ue then 1 else if linkErr then 2 else 0
      let d := if cause = 2 then d.directError t err else d
      let r : List Byte × Dev :=
        if cause ≠ 0 then ((List.range x.len).map (fun i => BitVec.ofNat 8 (Config.freeValue (d.free + i))), { d with free := d.free + x.len })
        else if x.srcSpace = 2 then
          let bs := host.getD []
          ((List.range x.len).map (fun i => bs.getD i 0), d)
        else (x.source m, d)
      let d := if x.dstSpace = 2 ∧ cause = 0 then r.2.send (.hostWrite r.2.directLink x.dst (wordsOf r.1)) else r.2
      let put : List MemWrite := match x.dstSpace with
        | 0 => (List.range x.len).map (fun i => .loc (x.dstCore * 0x40000 + x.dst + i) (r.1.getD i 0))
        | 1 => (List.range x.len).map (fun i => .frame (x.dst + i) (r.1.getD i 0))
        | _ => []
      let word := 1 + 2 * b2n (decide (cause ≠ 0)) + 16 * cause + 65536 * (x.tag % 65536)
      let done := if x.done = 0 then [] else locWrites (k * 0x40000 + x.done) 4 word
      let d := match x.post with
        | some n => d.raise t (96 + n) 0
        | none => d
      (d, put ++ done)

def execDma (k : Fin 4) (rd ra : Fin 16) (s : State) : Result :=
  s.ercelAfter k (fun now m c x d => (d.dmaOp m now.dtime k c x rd ra, []))
def execDmaTransferDone (k : Fin 4) (host : DmaHost) (bad : Bool) (s : State) : Result :=
  s.actWr (16 + k) (fun now m d => d.dmaDone m now.dtime k host.bytes host.err bad)

end Sys2Proof.Machine
end

