-- ==== Sys2Proof/Machine/Ledger.lean ====
section
/-! DEFINITION. Machine/Ledger.lean: the maintenance ledger (R445 to R451, R378): its requests, its checks and answers, and what the
start and the end of an activity do to the units. -/
namespace Sys2Proof.Machine

/-- A service fault and its flag (R464, R467). -/
def Dev.svFault (d : Dev) (t unit code detail : Nat) : Dev := d.faultFlag t (uid 14 unit 0) code detail Reg.SV_FAULT (code - 1)

/-- Detail of the records about slot a (R464). -/
def Slot.detail (x : Slot) (a mid : Nat) : Nat := a + 256 * mid + 65536 * x.target

/-- The POST of a slot whose state has become RUNNING, DONE or FAILED (R448, R489); the planner's slots make none (log 117). -/
def Dev.slotPost (d : Dev) (t a : Nat) : Dev :=
  let x := d.slot a
  let c := d.rdN (Reg.SV_Aa_CFG a)
  if nbit c 5 = true ∧ x.planner = false then d.raise t (96 + nfld c 10 6) (a + 256 * x.state) else d

/-- An activity ends (R448, R449). -/
def Dev.slotDone (d : Dev) (t a : Nat) : Dev :=
  let x := d.slot a
  ((d.setSlot a { x with state := 4 }).svFault t 0 2 (x.detail a x.kind)).slotPost t a
/-- An activity fails (R449). -/
def Dev.slotFail (d : Dev) (t a : Nat) : Dev :=
  let x := d.slot a
  ((d.setSlot a { x with state := 6 }).svFault t 1 3 (x.detail a x.step)).slotPost t a

/-! ## Requests (R446) -/

def Dev.addRequest (d : Dev) (a : Nat) (x : Slot) : Dev :=
  (d.setSlot a x).updTk (fun y => { y with requests := y.requests ++ [.ledger a] })

/-- SV_Aa_CMD.req (R446): a slot that is not FREE ignores it. -/
def Dev.activityRequest (d : Dev) (a : Nat) : Dev :=
  if (d.slot a).state ≠ 0 then d
  else
    let t := d.rdN (Reg.SV_Aa_TGT a)
    d.addRequest a { Slot.reset with state := 1, kind := d.fld (Reg.SV_Aa_CFG a) 3 0, target := t % 65536, second := t / 65536 }

/-- The highest-numbered free slot (R446, R456). -/
def Dev.freeSlotNo (d : Dev) : Option Nat := ((List.range 32).reverse).find? (fun a => decide ((d.slot a).state = 0))

/-- The planner or the cobbler requests an activity of its own; none where no slot is free (R446, R456). -/
def Dev.ownRequest (d : Dev) (kind target second : Nat) : Option Dev :=
  d.freeSlotNo.map (fun a => d.addRequest a { Slot.reset with state := 1, kind := kind, target := target, second := second, planner := true })

/-! ## The checks (R447) -/

/-- The request suits its kind (R445, R447). -/
def Dev.activityValid (d : Dev) (x : Slot) : Bool :=
  let sub := x.target / 2048
  let u := x.unit
  let gone := fun (b : Nat) => d.fab.retired.any (fun r => decide (r.1 = b ∨ r.2 = b))
  match x.kind with
  | 1 => decide (sub = 5 ∧ u < 2)
  | 2 => decide (sub = 2 ∧ u < 4 ∧ x.second < 1024)
  | 3 => decide (sub = 9 ∧ u < 8)
  | 4 => decide (sub = 12 ∧ u < 4) && d.feature 9
  | 5 => decide (sub = 1 ∧ u < 2)
  | 6 => decide (sub = 3 ∧ u < 16 ∧ x.second < 16 ∧ x.second ≠ u) && !gone u && !gone x.second
  | 7 => decide (sub = 3 ∧ 18 ≤ u ∧ u < 34) && !d.bit (Reg.FB_LSb_STATUS (u - 18)) 4
  | 8 => decide (sub = 4 ∧ u < 8) && x.planner
  | 9 => decide (sub = 4 ∧ u < 8)
  | 10 => decide (sub = 9 ∧ u < 8)
  | _ => false

/-- Two activities conflict (R451); the first has the lower kind. -/
def Dev.conflictOrdered (d : Dev) (x y : Slot) : Bool :=
  match x.kind, y.kind with
  | 1, 1 => true
  | 1, 8 => true
  | 2, 2 => true
  | 3, 3 => true
  | 3, 8 => decide (d.ltFld y.unit (Reg.LT_HDh_SHUT y.unit) 2 0 = x.unit)
  | 3, 10 => decide (x.unit = y.unit)
  | 4, 4 => true
  | 4, 8 => decide (d.fld (Reg.LT_PRp_CFG (d.ltFld y.unit (Reg.LT_HDh_PROBE y.unit) 3 0)) 2 1 = x.unit)
  | 5, 5 => true
  | 6, 6 => true
  | 7, 7 => true
  | 7, 8 => true
  | 8, 8 => decide (x.unit = y.unit)
  | 8, 9 => decide (x.unit = y.unit)
  | 8, 10 => decide (d.ltFld x.unit (Reg.LT_HDh_SHUT x.unit) 2 0 = y.unit)
  | 9, 9 => decide (x.unit = y.unit)
  | 10, 10 => decide (x.unit = y.unit)
  | _, _ => false
def Dev.conflict (d : Dev) (x y : Slot) : Bool := if x.kind ≤ y.kind then d.conflictOrdered x y else d.conflictOrdered y x

/-- The capacity check of R378 for slot x's request: every held contract together, with the units of `acts` removed, x's among them. -/
def Dev.activityFits (d : Dev) (acts : List Slot) (x : Slot) : Bool :=
  d.claimsFit acts (d.heldClaims none) && (decide (x.kind ≠ 3) || d.spareIdle)

/-- The answer to slot a's request: code and cause; 0 for one that is accepted (R447). -/
def Dev.activityAnswer (d : Dev) (a : Nat) : Nat × Nat :=
  let x := d.slot a
  let live := d.slotsIn Slot.live
  if d.activityValid x = false then (0x0E00 + a, 1)
  else match live.find? (fun c => d.conflict x (d.slot c)) with
    | some c => (0x0D00 + c, 2)
    | none => if d.activityFits (x :: live.map d.slot) x then (0, 0) else (0x0D00 + a, 3)

/-! ## Preparing the start (R445, R448, R453) -/

/-- The streams of pipeline p that carry their head. -/
def Dev.activeStreams (d : Dev) (p : Nat) : List Nat :=
  (List.range 32).filter (fun s => d.ctxOn p s && (d.ctx p s).active && !d.isReplay p s)

/-- Every stream in a list that has a standby partner is handed over at its next frame (R111). -/
def Dev.handOver (d : Dev) (p : Nat) (l : List Nat) : Dev :=
  l.foldl (fun (d : Dev) s => if (d.standbyOf p s).isSome then d.updCtx p s (fun c => { c with handover := true }) else d) d

/-- The streams that pipeline 1 − p carries for a context of p that is no standby (R445). -/
def Dev.guestStreams (d : Dev) (p : Nat) : List Nat :=
  (d.activeStreams (1 - p)).filter (fun k => match d.standbyOf (1 - p) k with
    | some s => !d.bit (Reg.PL_Sx_CFG p s) 5
    | none => false)

/-- The gap has come, or none was asked for: what must happen before the start boundary. -/
def Dev.prepare (d : Dev) (a : Nat) : Dev :=
  let x := d.slot a
  let d := d.setSlot a { x with gapDone := true }
  match x.kind with
  | 1 => d.handOver x.unit (d.activeStreams x.unit)
  | 3 => d.spareHandover x.unit
  | 4 => d.adcRoll x.unit
  | _ => d

/-- A gap window opens: accepted activities that waited for it go on (R448). -/
def Dev.ledgerGap (d : Dev) : Dev :=
  (d.slotsIn (fun x => decide (x.state = 2) && !x.gapDone)).foldl (fun (d : Dev) a => d.prepare a) d

/-- The request of slot a is answered (R447, R448). -/
def Dev.answerSlot (d : Dev) (a : Nat) : Dev :=
  let x := d.slot a
  let r := d.activityAnswer a
  let d := d.afterCheck
  if r.1 ≠ 0 then d.setSlot a { x with state := 5, code := r.1, cause := r.2 }
  else
    let d := d.setSlot a { x with state := 2 }
    if d.bit (Reg.SV_Aa_CFG a) 4 = true ∧ x.planner = false then d else d.prepare a

/-! ## Start boundaries met by other rows (R445) -/

/-- The frame of head h has ended: a HEAD_OUT that waits for it takes the port out. -/
def Dev.headOutAt (d : Dev) (h : Nat) : Dev :=
  (d.slotsIn (fun x => decide (x.state = 2 ∧ x.kind = 9 ∧ x.unit = h ∧ x.line = 0) && x.gapDone)).foldl
    (fun (d : Dev) a => (d.updHp h (fun p => { p with out := true })).updSlot a (fun x => { x with line := 1 })) d

/-- Termination codes of head n come into force in its frame blanking (R457). -/
def Dev.takeTerms (d : Dev) (n : Nat) : Dev :=
  { d with trim := { d.trim with termIn := (List.range 5).foldl (fun (m : SMap Nat) i =>
      SMap.set 0 m (5 * n + i) (SMap.get 0 d.trim.terms (5 * n + i))) d.trim.termIn } }

/-- A frame of head n that was open has closed: the last store examines its tag (R130), new termination codes come into force (R457), and a
HEAD_OUT that waits for it takes the port out (R445). -/
def Dev.frameOver (d old : Dev) (n : Nat) : Dev :=
  if (old.hpOf n).openFrame.isSome = true ∧ (d.hpOf n).openFrame = none then ((d.rebaseCheck n).takeTerms n).headOutAt n else d

/-- A take event of bank b comes with no fire waiting or active: a BANK_OUT that waits for it disarms the bank. -/
def Dev.bankOutAt (d : Dev) (b : Nat) : Dev :=
  (d.slotsIn (fun x => decide (x.state = 2 ∧ x.kind = 10 ∧ x.unit = b ∧ x.line = 0) && x.gapDone)).foldl
    (fun (d : Dev) a =>
      if d.bankQuiet b then
        (((d.blDisarm b).updBlink b (fun l => if 3 ≤ l.state ∧ l.state ≤ 5 then { l with state := 3 } else l)).updBank b
          (fun y => { y with state := if y.state = 2 then 1 else y.state, armed := false })).updSlot a (fun x => { x with line := 1 })
      else d) d

/-! ## Starting and ending (R445, R448, R449) -/

/-- The start boundary of a WAITING activity has come (R445). -/
def Dev.startDue (d : Dev) (x : Slot) : Bool :=
  let u := x.unit
  decide (x.state = 2) && x.gapDone && decide (x.line ≠ 9) && match x.kind with
  | 1 => (d.activeStreams u).isEmpty
  | 2 => (match d.runs u with
    | some c => (d.tctx c).item.isSome || !d.pinned u
    | none => !d.pinned u)
  | 3 => decide (d.spare.state = 2 ∧ d.spare.bank = u)
  | 4 => (d.adc u).out || ((d.adc u).rolling && (d.adc u).idle)
  | 9 => decide (x.line = 1)
  | 10 => decide (x.line = 1)
  | _ => true

/-- CORE_OUT takes core k: best-effort tasks leave it, and only the test context runs there (R445). -/
def Dev.coreOut (d : Dev) (t k ctx : Nat) : Dev :=
  let d := d.updCore k (fun x => { x with out := some ctx, service := false })
  match d.runs k with
  | some c => if (d.tctx c).item = none ∧ c ≠ ctx then d.giveUp t k c else d.resched t []
  | none => d.resched t []

/-- LINK_OUT (R445): rings with follow set move to the other link with no repeat, and the link retrains. -/
def Dev.linkOut (d : Dev) (t l : Nat) : Dev :=
  let d := if (d.link (1 - l)).active then
      (List.range 32).foldl (fun (d : Dev) r =>
        if d.ringEn r = true ∧ (d.ring r).link = l ∧ d.bit (Reg.HX_Rr_CFG r) 3 = true then d.updRing r (fun x => { x with link := 1 - l }) else d) d
    else d
  d.linkLeaves t l

/-- The heads with a region granule in last-store bank b, in rising order (R455). -/
def Dev.headsIn (d : Dev) (b : Nat) : List Nat :=
  (List.range 8).filter (fun h => ((d.lth h).region.toList ++ (d.lth h).ready.toList ++ (match d.lt.cur with
    | some c => if c.1.head = h then [c.2] else []
    | none => [])).any (fun r => r.granules.any (fun g => decide (g / 240 = b))))

/-- No region and no build holds a granule of last-store bank b (R455). -/
def Dev.bankEmptied (d : Dev) (b : Nat) : Bool := d.heldGranules.all (fun g => decide (g / 240 ≠ b))

/-- Last-store bank b is retired (R455, R464). -/
def Dev.retireLast (d : Dev) (t b : Nat) : Dev :=
  (((d.putFld (Reg.FB_LSb_STATUS b) 23 16 0).flag (Reg.FB_LSb_STATUS b) 4).svFault t 1 7 (b + 16)).poolCheck t

/-- Every bank that LS_RETIRE has emptied, once the last region with a granule in it has gone, is retired (R455). -/
def Dev.retireDone (d : Dev) (t : Nat) : Dev :=
  (d.lt.retiring.filter (fun b => d.bankEmptied b && !d.bit (Reg.FB_LSb_STATUS b) 4)).foldl (fun (d : Dev) b => d.retireLast t b) d

/-- What the start of an activity does, but for SHUTTER (R445, R454, R455). -/
def Dev.startEffect (d : Dev) (t a : Nat) : Dev :=
  let x := d.slot a
  let u := x.unit
  match x.kind with
  | 2 => d.coreOut t u x.second
  | 4 => if (d.adc u).rolling then d.adcAfterBoundary t u else d
  | 5 => d.linkOut t u
  | 6 => (d.updFab (fun f => { f with mirror := some (u, x.second) })).updSlot a (fun x => { x with step := 1, line := 0 })
  | 7 =>
    let b := u - 18
    let d := (d.updLt (fun l => { l with retiring := b :: l.retiring })).poolCheck t
    (((d.headsIn b).foldl (fun (d : Dev) h => d.requestBuild h .copy (d.lastSubstrate h)) d).updSlot a (fun x => { x with step := 3 })).retireDone t
  | _ => d

/-- The state becomes RUNNING, with fault 0x0001 (R448); the numbers of steps that the manual does not number are free (log 118). -/
def Dev.slotRunning (d : Dev) (t a : Nat) : Dev :=
  let r := d.fresh
  let x := d.slot a
  (((r.2).setSlot a { x with state := 3, step := r.1 % 256 }).svFault t 0 1 (x.detail a x.kind)).slotPost t a

/-- The kinds that an end command and an abort command both end (R449). -/
def endable (kind : Nat) : Bool := decide (kind = 1 ∨ kind = 2 ∨ kind = 3 ∨ kind = 9 ∨ kind = 10)

/-- The bank's link arms again (R266, R445); one that still trains arms with its descriptor. -/
def Dev.bankBack (d : Dev) (b : Nat) : Dev :=
  d.updBlink b (fun l => if l.state = 3 ∧ l.desc.isSome = true then l.arm b (d.indep b) else l)

/-- The end of an activity of one of these kinds begins: its units go back (R445, R449). -/
def Dev.giveBack (d : Dev) (m : Mem) (t a : Nat) : Dev :=
  let x := d.slot a
  let u := x.unit
  match x.kind with
  | 1 => d.handOver (1 - u) (d.guestStreams u)
  | 2 => if x.state = 3 then (d.updCore u (fun c => { c with out := none, service := true, faulted := false })).resched t [] else d
  | 3 =>
    if d.spare.bank ≠ u then d
    else if d.spare.state = 2 then d.spareReturn m t
    else if d.spare.state = 1 ∧ d.spare.handover = true then d.updSpare (fun s => { s with state := 0, ready := false, handover := false })
    else d
  | 9 => d.updHp u (fun p => { p with out := false })
  | 10 => if x.line = 1 then d.bankBack u else d
  | _ => d

/-- The units of an ending activity are back (R445). -/
def Dev.isBack (d : Dev) (x : Slot) : Bool :=
  let u := x.unit
  match x.kind with
  | 1 => (d.guestStreams u).isEmpty && (d.activeStreams u).all (fun s => !(d.ctx u s).handover)
  | 3 => decide (d.spare.bank ≠ u ∨ d.spare.state = 0)
  | 10 => !d.vbOn u || d.bankReady u
  | _ => true

/-- An end command, and an abort command, for the kinds that have one (R449): the end is complete once the units are back. -/
def Dev.activityEnd (d : Dev) (m : Mem) (t a : Nat) : Dev :=
  let x := d.slot a
  if x.live = true ∧ endable x.kind = true ∧ x.line ≠ 9 then
    let d := (d.giveBack m t a).updSlot a (fun y => { y with line := 9 })
    if (x.kind = 10 ∧ x.line ≠ 1) ∨ d.isBack x = true then d.slotDone t a else d
  else d

/-- An abort command (R449): as an end, or before the switch of FM_RETIRE the end of mirroring. -/
def Dev.activityAbort (d : Dev) (m : Mem) (t a : Nat) : Dev :=
  let x := d.slot a
  if x.live = true ∧ x.kind = 6 then
    if d.fab.retired.any (fun r => decide (r.1 = x.unit)) then d
    else (d.updFab (fun f => { f with mirror := none })).slotDone t a
  else d.activityEnd m t a

/-- SV_Aa_CMD.free (R467). -/
def Dev.activityFree (d : Dev) (a : Nat) : Dev := if 4 ≤ (d.slot a).state then d.setSlot a Slot.reset else d

/-! ## Ends by itself, and failures (R445, R449, R454, R455) -/

/-- ACTIVITY_SELF_END (R445, R449): an activity that ends by itself, or one whose end was commanded, is complete. -/
def Dev.activitySelfEnd (d : Dev) (t a : Nat) : Dev :=
  let x := d.slot a
  let u := x.unit
  if x.live = true ∧ x.line = 9 ∧ endable x.kind = true then
    if d.isBack x then d.slotDone t a
    else if x.kind = 1 then d.handOver (1 - u) (d.guestStreams u)
    else d
  else if x.state ≠ 3 then d
  else match x.kind with
  | 4 =>
    if (d.adc u).out = false ∧ (d.adc u).rolling = false ∧ (d.adc u).calFrom = none ∧ (d.adc u).calWanted = false then d.slotDone t a else d
  | 5 => if (d.link u).active then d.slotDone t a else d
  | 6 => if d.fab.retired.any (fun r => decide (r.1 = u)) then d.slotDone t a else d
  | 7 => if d.bit (Reg.FB_LSb_STATUS (u - 18)) 4 then d.slotDone t a else d
  | _ => d

/-- The step of a live activity toward its start or through its course cannot complete (R449, log 213). -/
def Dev.courseStuck (d : Dev) (x : Slot) : Bool :=
  let u := x.unit
  match x.kind with
  | 1 => decide (x.state = 2) && x.gapDone && ((d.pipe (1 - u)).faulted || (d.activeStreams u).any (fun s => (d.standbyOf u s).isNone))
  | 2 => decide (x.state = 2) && x.gapDone && (List.range 1024).any (fun c => (d.tctx c).item.isSome && decide ((d.tctx c).core = u) &&
      !(d.core (d.tctx c).alt).service)
  | 3 => x.gapDone && (!d.spare.healthy || decide (d.spare.state = 3 ∨ d.spare.state = 0 ∨ d.spare.bank ≠ u))
  | 4 => x.gapDone && (d.adc u).faulted
  | 5 => decide (x.state = 3 ∧ (d.link u).state = 4)
  | 7 => decide (x.state = 3) && (d.headsIn (u - 18)).any (fun h => !(d.lth h).ready.isSome && !d.buildPending h)
  | 9 => decide (x.state = 2) && x.gapDone && !d.acceptsStart u && (d.hpOf u).openFrame.isNone
  | 10 => decide (x.state = 2) && x.gapDone && !d.vbOn u
  | _ => false

/-- The step that gives the units of an ending activity back cannot complete (R449, log 213). -/
def Dev.returnStuck (d : Dev) (x : Slot) : Bool :=
  let u := x.unit
  match x.kind with
  | 1 => (d.pipe u).faulted
  | 3 => !d.spare.healthy || decide (d.spare.state = 3) || !d.vbOn u
  | 10 => decide ((d.bank u).state = 3) || !d.blOn u || decide ((d.blink u).state = 2 ∨ (d.blink u).state = 6)
  | _ => false

/-- A step of a live activity cannot complete (R449): of its end, once that was commanded. -/
def Dev.activityStuck (d : Dev) (x : Slot) : Bool :=
  if x.line = 9 then endable x.kind && !d.isBack x && d.returnStuck x else d.courseStuck x

/-- ACTIVITY_FAIL (R449): the units that can go back do. -/
def Dev.activityFail (d : Dev) (m : Mem) (t a : Nat) : Dev :=
  let x := d.slot a
  if x.live = true ∧ d.activityStuck x = true then
    let d := match x.kind with
      | 7 => d.updLt (fun l => { l with retiring := l.retiring.erase (x.unit - 18) })
      | 4 => d.updAdc x.unit (fun y => { y with rolling := false })
      | _ => d.giveBack m t a
    d.slotFail t a
  else d

/-! ## FM_RETIRE (R454) -/

/-- Lines of a frame-memory bank. -/
def bankLines : Nat := 49152

/-- The slot of the FM_RETIRE that runs. -/
def Dev.retireSlot (d : Dev) : Option Nat := (d.slotsIn (fun x => decide (x.state = 3 ∧ x.kind = 6))).head?

/-- FM_RETIRE_COPY_LINE (R454): the next line of b goes to d; a poisoned word is copied poisoned. -/
def Dev.copyLine (d : Dev) (m : Mem) : Dev × List MemWrite :=
  match d.fab.mirror, d.retireSlot with
  | some (b, e), some a =>
    let i := (d.slot a).line
    if bankLines ≤ i then (d, [])
    else
      let src := b * 0x300000 + 64 * i
      let dst := e * 0x300000 + 64 * i
      let bad := ((List.range 8).map (fun w => 8 * w)).filter (fun w => d.fab.poisonFrame.contains (src + w))
      let ok := (List.range 64).filter (fun j => !bad.contains (j / 8 * 8))
      let d := d.updFab (fun f => { f with poisonFrame := (bad.map (fun w => dst + w)).filter (fun w => !f.poisonFrame.contains w) ++ f.poisonFrame })
      (d.updSlot a (fun x => { x with line := i + 1, step := if i + 1 = bankLines then 3 else 2 }),
        ok.map (fun j => .frame (dst + j) (m.frameByte (src + j))))
  | _, _ => (d, [])

/-- FM_RETIRE_SWITCH (R454): after the last line, with b not locked, no LOCK waiting on it and no write held back. -/
def Dev.retireSwitch (d : Dev) (t : Nat) : Dev :=
  match d.fab.mirror, d.retireSlot with
  | some (b, e), some a =>
    if (d.slot a).line = bankLines ∧ d.lockOwner b = none ∧ d.fab.waiters.all (fun k => decide (d.lockWaitsFor k ≠ some b)) = true ∧
        d.fab.held.all (fun w => !beatIn (fun y => decide (y = b)) w.2) = true then
      ((d.updFab (fun f => { f with retired := f.retired ++ [(b, e)], mirror := none })).svFault t 1 7 b).updSlot a (fun x => { x with step := 4 })
    else d
  | _, _ => d

end Sys2Proof.Machine
end

