-- ==== Sys2Proof/Machine/Shutter.lean ====
section
/-! DEFINITION. Machine/Shutter.lean: the shutter planner (R137 to R143): when heads become due, the forced queue, gap events, and the
steps of an event. -/
namespace Sys2Proof.Machine

/-- Shutter events of head h are on (R137, R150). -/
def Dev.shutOn (d : Dev) (h : Nat) : Bool := d.ltOn h && d.ltBit h (Reg.LT_HDh_CFG h) 2
/-- A fault of the planner with a head's element (R148). -/
def Dev.shutFault (d : Dev) (t h code detail : Nat) : Dev := d.faultFlag t (uid 6 1 (h + 1)) code detail Reg.LT_FAULT (code - 1)
/-- Units of 2^26 DRIVE ticks (R137). -/
def shutUnit : Nat := 2 ^ 26
/-- travel of a head, in DRIVE ticks (R139). -/
def Dev.shutTravel (d : Dev) (h : Nat) : Nat := d.ltFld h (Reg.LT_HDh_SHSEQ h) 7 0 * 1048576

/-- Slots of shutter events requested, accepted or running. -/
def Dev.shutSlots (d : Dev) : List Nat := d.slotsIn (fun x => decide (x.kind = 8 ∧ 1 ≤ x.state ∧ x.state ≤ 3))
/-- Head h has such a slot. -/
def Dev.shutBusy (d : Dev) (h : Nat) : Bool := d.shutSlots.any (fun a => decide ((d.slot a).unit = h))

/-! ## Requests and refusals (R138) -/

/-- The ledger has refused an event, or no slot was free (R138, R446). -/
def Dev.shutRefused (d : Dev) (t h : Nat) (forced : Bool) : Dev :=
  let d := d.bump Reg.LT_CNT_DEFER
  if forced then d.updLt (fun l => { l with forced := l.forced.map (fun x => if x.1 = h then (h, t + shutUnit) else x) }) else d

/-- The planner asks the ledger for an event of head h (R138). -/
def Dev.requestShut (d : Dev) (t h : Nat) (forced : Bool) : Dev :=
  (d.ownRequest 8 (uid 4 h 0) (b2n forced)).getD (d.shutRefused t h forced)

/-- The forced queue goes on: one forced event at a time, in order (R137, R138). -/
def Dev.forcedNext (d : Dev) (t : Nat) : Dev :=
  match d.lt.forced with
  | (h, from_) :: _ =>
    if d.shutSlots.any (fun a => decide ((d.slot a).second = 1)) = true ∨ d.shutBusy h = true ∨ t < from_ then d else d.requestShut t h true
  | [] => d

/-- Head h joins the forced queue, at its front where R132 asks for it (R137). -/
def Dev.joinForced (d : Dev) (t h : Nat) (front : Bool) : Dev :=
  if d.shutOn h = false then d
  else
    let rest := d.lt.forced.filter (fun x => decide (x.1 ≠ h))
    let d := if front then d.updLt (fun l => { l with forced := (h, 0) :: rest })
      else if d.lt.forced.any (fun x => decide (x.1 = h)) then d
      else d.updLt (fun l => { l with forced := l.forced ++ [(h, 0)] })
    d.forcedNext t

/-- The due heads without an event, oldest commit first with ties to the lower head (R137). -/
def Dev.dueHeads (d : Dev) : List Nat :=
  let l := (List.range 8).filter (fun h => d.shutOn h && (d.lth h).due && !d.shutBusy h)
  l.foldl (fun (acc : List Nat) h => acc.takeWhile (fun g => decide ((d.lth g).since ≤ (d.lth h).since)) ++
    h :: acc.dropWhile (fun g => decide ((d.lth g).since ≤ (d.lth h).since))) []

/-- A gap window opens: events start for the due heads, up to gap_max at once (R137). -/
def Dev.shutGap (d : Dev) (t : Nat) : Dev :=
  (d.dueHeads.take (d.fld Reg.LT_CFG 4 1 - d.shutSlots.length)).foldl (fun (d : Dev) h => d.requestShut t h false) d

/-! ## Due and overdue (R137) -/

/-- The housing probe has moved by more than house_step since the last commit (R137). -/
def Dev.houseMoved (d : Dev) (t h : Nat) : Bool :=
  d.ltBit h (Reg.LT_HDh_CFG h) 5 && match (d.lth h).house, d.probeValue t (d.ltFld h (Reg.LT_HDh_PROBE h) 11 8) with
  | some a, some b => decide (d.ltFld h (Reg.LT_HDh_SHLIM h) 31 16 < ((b : Int) - a).natAbs)
  | _, _ => false

/-- When head h becomes due (R137). -/
def Dev.shutDueAt (d : Dev) (now : Now) (h : Nat) : Option Nat :=
  let n := d.ltFld h (Reg.LT_HDh_SHDUE h) 15 0
  if d.shutOn h = false ∨ n = 0 ∨ (d.lth h).due = true ∨ (d.lth h).shut.isSome = true then none
  else if d.houseMoved now.dtime h then some now.dtime
  else some ((d.lth h).since + n * shutUnit)

/-- When head h becomes overdue (R137). -/
def Dev.overdueAt (d : Dev) (h : Nat) : Option Nat :=
  let n := d.ltFld h (Reg.LT_HDh_SHMAX h) 15 0
  if d.shutOn h = false ∨ n = 0 ∨ d.ltFld h (Reg.LT_HDh_SHDUE h) 15 0 = 0 ∨ (d.lth h).overdue = true then none
  else some ((d.lth h).since + n * shutUnit)

/-- LT_SHUTTER_OVERDUE (R137). DESIGN CHOICE: "once per interval" for fault 0x0008 is once until the next commit (log 203). -/
def Dev.shutOverdue (d : Dev) (t h : Nat) : Dev :=
  let d := d.updLth h (fun x => { x with due := true, overdue := true })
  if d.bit Reg.LT_CFG 5 = true ∧ d.ltBit h (Reg.LT_HDh_CFG h) 3 = true then d.joinForced t h false
  else d.shutFault t h 8 h

/-! ## The end of an event (R139, R143) -/

/-- The planner opens the shutter again. -/
def Dev.shutOpen (d : Dev) (t h : Nat) : Dev := d.pairRelease t (d.ltFld h (Reg.LT_HDh_SHUT h) 2 0) (d.ltFld h (Reg.LT_HDh_SHUT h) 5 3)

/-- An event aborts (R143): cause 1 too few frames, 2 bank not independent, 3 head disabled. DESIGN CHOICE: it commands a shutter still closed to
open where the planner still has the channel (causes 1 and 3), and shows the head port's newest frame as the last held (log 204). -/
def Dev.shutAbort (d : Dev) (t h cause : Nat) : Dev :=
  match (d.lth h).shut with
  | none => d
  | some ev =>
    let d := d.shutFault t h 7 (h + 16 * cause)
    let d := if ev.step < 5 ∧ cause ≠ 2 then d.shutOpen t h else d
    let d := if ev.step < 7 then d.wrN (Reg.LT_HDh_HELD_LAST h) (d.hpOf h).seq else d
    let d := d.updLth h (fun x => { x with shut := none, due := true })
    let d := d.slotDone t ev.slot
    let d := if ev.forced = true ∧ cause ≠ 3 then d.updLt (fun l => { l with forced := l.forced.filter (fun x => decide (x.1 ≠ h)) ++ [(h, 0)] }) else d
    d.forcedNext t

/-- The SHUTTER region has come into force: the event commits (R137, R139). -/
def Dev.shutCommit (d : Dev) (t h : Nat) : Dev :=
  let house := d.probeValue t (d.ltFld h (Reg.LT_HDh_PROBE h) 11 8)
  let slot := (d.lth h).shut.map ShutEvent.slot
  let d := d.wr64 (Reg.LT_HDh_COMMIT_LO h) t
  let d := d.updLth h (fun x => { x with since := t, due := false, overdue := false, house := house, shut := none })
  let d := d.updLt (fun l => { l with forced := l.forced.filter (fun x => decide (x.1 ≠ h)) })
  let d := match slot with
    | some a => d.slotDone t a
    | none => d
  d.forcedNext t

/-! ## The steps (R139, R140) -/

/-- The accumulator of head h is cleared (R140). -/
def Dev.clearAcc (d : Dev) (h : Nat) : List MemWrite :=
  let g := d.headGeom h
  let base := d.ltWord h (Reg.LT_HDh_ACC h)
  (List.range (accColumns base g.2.2 g.1 + 16384 + 8192 - base)).map (fun i => .frame (base + i) 0)

/-- A pair counts as not in independent mode for the planner (R214): it is in row mode or tripped, or its bank is off or faulted. -/
def Dev.pairLost (d : Dev) (b p : Nat) : Bool := !d.vbOn b || !d.chanCmd b p || (d.chan b p).coil.trip || decide ((d.bank b).state = 3)

/-- Events whose pair is no longer in independent mode abort (R143, R214), until the SHUTTER build is under way. -/
def Dev.shutWatch (d : Dev) (t : Nat) : Dev :=
  (List.range 8).foldl (fun (d : Dev) h => match (d.lth h).shut with
    | some ev => if ev.step < 7 ∧ d.pairLost (d.ltFld h (Reg.LT_HDh_SHUT h) 2 0) (d.ltFld h (Reg.LT_HDh_SHUT h) 5 3) = true then d.shutAbort t h 2 else d
    | none => d) d

/-- The event in slot a begins (R139 step 1, R214). -/
def Dev.shutBegin (d : Dev) (t a : Nat) : Dev :=
  let x := d.slot a
  let h := x.unit
  let b := d.ltFld h (Reg.LT_HDh_SHUT h) 2 0
  let p := d.ltFld h (Reg.LT_HDh_SHUT h) 5 3
  let forced := decide (x.second = 1)
  let ev : ShutEvent := ⟨a, forced, 2, t, 0, 0, 0, [], false⟩
  let d := (d.updLth h (fun y => { y with shut := some ev })).spoil h
  let d := d.updLt (fun l => { l with forced := l.forced.filter (fun y => decide (y.1 ≠ h)) })
  let d := (d.wrN (Reg.LT_HDh_HELD_FIRST h) (((d.hpOf h).seq + 1) % 2 ^ 32)).updSlot a (fun y => { y with step := 2 })
  if d.ltOn h = false then d.shutAbort t h 3
  else if d.pairLost b p then d.shutAbort t h 2
  else d.pairClose b p

def Dev.setShut (d : Dev) (h : Nat) (ev : ShutEvent) : Dev :=
  (d.updLth h (fun x => { x with shut := some ev })).updSlot ev.slot (fun y => { y with step := ev.step })

/-- Held ends with frame `last`, and the engine makes the SHUTTER build (R139 steps 6 and 7). -/
def Dev.shutHeldOver (d : Dev) (h : Nat) (ev : ShutEvent) (last : Nat) : Dev :=
  (((d.wrN (Reg.LT_HDh_HELD_LAST h) last).setShut h { ev with step := 7 })).requestBuild h .shutter (d.lastSubstrate h)

/-- A frame of head h with frame start `f` is about to latch (R139 steps 2 and 6). -/
def Dev.shutBefore (d : Dev) (h seq f : Nat) : Dev × List MemWrite :=
  match (d.lth h).shut with
  | none => (d, [])
  | some ev =>
    if ev.step = 2 ∧ ev.closeAt + d.shutTravel h ≤ f then
      if d.ltFld h (Reg.LT_HDh_SHSEQ h) 11 8 = 0 then (d.setShut h { ev with step := 4, frames := 0 }, d.clearAcc h)
      else (d.setShut h { ev with step := 3, frames := 0 }, [])
    else if ev.step = 6 ∧ ev.openAt + d.shutTravel h ≤ f ∧ d.ltFld h (Reg.LT_HDh_SHSEQ h) 23 20 = 0 then
      (d.shutHeldOver h ev ((seq + 2 ^ 32 - 1) % 2 ^ 32), [])
    else (d, [])

/-- An output frame of head h completes (R139 steps 3 to 6, R140, R143). -/
def Dev.shutAfter (d : Dev) (m : Mem) (t h : Nat) (w : Work) (late : Bool) : Dev × List MemWrite :=
  match (d.lth h).shut with
  | none => (d, [])
  | some ev =>
    let seq := Reg.LT_HDh_SHSEQ h
    match ev.step with
    | 3 =>
      if d.ltFld h seq 11 8 ≤ ev.frames + 1 then (d.setShut h { ev with step := 4, frames := 0 }, d.clearAcc h)
      else (d.setShut h { ev with frames := ev.frames + 1 }, [])
    | 4 =>
      let n := d.ltFld h seq 17 12
      let use := match w.blade with
        | some v => if late then none else some v
        | none => none
      let acc := if use.isSome then d.accumulate m t h w else (d, [])
      let d := acc.1
      let ws := acc.2
      let ev := { ev with
        frames := ev.frames + 1
        accum := ev.accum + b2n use.isSome
        samples := ev.samples ++ (use.map (fun v => (w.dT, v))).toList }
      if n ≤ ev.accum then
        ((d.shutOpen t h).setShut h { ev with step := 6, openAt := t, frames := 0 }, ws)
      else if n + 8 ≤ ev.frames then ((d.setShut h ev).shutAbort t h 1, ws)
      else (d.setShut h ev, ws)
    | 6 =>
      if w.id.dtime < ev.openAt + d.shutTravel h then (d, [])
      else if d.ltFld h seq 23 20 ≤ ev.frames + 1 then (d.shutHeldOver h ev w.id.seq, [])
      else (d.setShut h { ev with frames := ev.frames + 1 }, [])
    | _ => (d, [])

/-- The SHUTTER build of an event that waits for it has been given up (R126, R449): its activity fails. -/
def Dev.shutStuck (d : Dev) (a : Nat) : Bool :=
  let h := (d.slot a).unit
  match (d.lth h).shut with
  | some ev => decide (ev.slot = a ∧ ev.step = 7) && !d.lt.queue.any (fun b => decide (b.head = h ∧ b.kind = .shutter)) &&
      (match d.lt.cur with
        | some c => decide (¬(c.1.head = h ∧ c.1.kind = .shutter))
        | none => true) &&
      (match (d.lth h).ready with
        | some r => decide (r.kind ≠ .shutter)
        | none => true)
  | none => false

/-- The event of slot a ends without a commit; its head stays due. -/
def Dev.shutFail (d : Dev) (t a : Nat) : Dev :=
  let h := (d.slot a).unit
  let forced := match (d.lth h).shut with
    | some ev => ev.forced
    | none => false
  let d := d.updLth h (fun x => { x with shut := none, due := true })
  let d := if forced then d.updLt (fun l => { l with forced := l.forced.filter (fun x => decide (x.1 ≠ h)) ++ [(h, 0)] }) else d
  (d.slotFail t a).forcedNext t

/-! ## What a swap of the last-store block does (R126, R137, R145) -/

/-- A head's calibration goes off: builds are discarded, its event aborts, and its region returns to the pool. -/
def Dev.ltHeadOff (d : Dev) (t h : Nat) : Dev :=
  let d := d.updLt (fun l => { l with
    queue := l.queue.filter (fun b => decide (b.head ≠ h))
    cur := l.cur.filter (fun c => decide (c.1.head ≠ h))
    forced := l.forced.filter (fun x => decide (x.1 ≠ h)) })
  let d := d.shutAbort t h 3
  (d.updLth h (fun x => { LtHead.reset with
    cfg := x.cfg, old := x.old ++ x.region.toList, wsGen := x.wsGen, corr := x.corr, g := x.g, shutCount := x.shutCount })).releaseOld h

/-- Head h goes on or off with the settings in effect for it (R126, R129, R137). -/
def Dev.ltOnOff (d : Dev) (t h : Nat) : Dev :=
  if d.ltOn h = true ∧ (d.lth h).on = false then
    d.updLth h (fun x => { LtHead.reset with
      on := true, cfg := x.cfg, since := t, old := x.old, corr := x.corr, g := x.g, shutCount := x.shutCount, search := x.search })
  else if d.ltOn h = false ∧ (d.lth h).on = true then d.ltHeadOff t h
  else d

/-- An output frame of head h takes the head's part of the live set (R147): it goes on or off, and the roller reference follows its image, probe
and trim. -/
def Dev.ltTake (d : Dev) (m : Mem) (t h : Nat) : Dev :=
  if (d.lth h).cfg = [] then d
  else
    let off := (d.lth h).on && !(d.bit Reg.LT_CFG 0 && d.bit (Reg.LT_HDh_CFG h) 0)
    let d := if off then d.ltHeadOff t h else d
    ((d.updLth h (fun x => { x with cfg := [] })).ltOnOff t h).showRef m t h

/-- The live set of the last-store block has changed; `o` is the device before. Each head goes by its old part until its next output frame, and
balance by its old settings until its next window (R147). -/
def Dev.ltSwap (d : Dev) (t : Nat) (o : Dev) : Dev :=
  let d := (List.range 8).foldl (fun (d : Dev) h =>
    let words := match (d.lth h).cfg with
      | [] => o.ltWords h
      | c => c
    (d.updLth h (fun x => { x with cfg := keepWords true words (d.ltWords h) })).ltOnOff t h) d
  let words := match d.lt.bal with
    | [] => o.balWords
    | c => c
  let was := o.bit Reg.LT_CFG 0 && nbit (words.getD 0 0) 0
  let on := d.bit Reg.LT_CFG 0
  let d := d.updLt (fun l => { l with bal := keepWords (was && on) words d.balWords })
  let d := if on = true ∧ d.balBit Reg.LT_BAL_CFG 0 = true ∧ was = false then d.balanceReset.balanceWindow else d
  d.poolCheck t

/-! ## Commands that can take a shutter's pair away (R143, R214) -/

def execVbBankFault (b : Fin 8) (cause : Fin 4) (s : State) : Result :=
  s.act (fun now d => (d.vbBankFault now.dtime b (cause + 1)).shutWatch now.dtime)
def execSpareLoadDone (ok : Bool) (s : State) : Result := s.actMem (fun now m d => (d.spareLoadDone m now.dtime ok).shutWatch now.dtime)
def execCoilTick (b : Fin 8) (s : State) : Result :=
  s.actDueWr 11 (fun now d => d.coilTickDue now.dtime b) (fun now _ d =>
    let r := d.coilTick now.dtime b
    (r.1.shutWatch now.dtime, r.2))
def execLaceFrame (b : Fin 8) (s : State) : Result :=
  s.actDue (fun now d => d.frameDue now.dtime b) (fun now d => (d.bankFrame now b).shutWatch now.dtime)
def execBlUplinkFrame (b : Fin 8) (mark0 : BitVec 10) (data0 : BitVec 30) (mark1 : BitVec 10) (data1 : BitVec 30) (s : State) : Result :=
  s.act (fun now d => (d.uplinkFrame now.dtime b (mark0 ++ data0).toNat (mark1 ++ data1).toNat).shutWatch now.dtime)
def execBlStatusMessage (dt : Nat) (b : Fin 8) (s : State) : Result :=
  (s.pass dt).act (fun now d => (d.blStatus now.dtime b).shutWatch now.dtime)
def execBlStageSilent (b : Fin 8) (s : State) : Result :=
  s.actDue (fun _ d => d.silentDue b) (fun now d => (d.stageSilent now.dtime b).shutWatch now.dtime)
def execBlRetrain (b : Fin 8) (s : State) : Result := s.act (fun now d => (d.blRetrain now.dtime b).shutWatch now.dtime)

end Sys2Proof.Machine
end

