-- ==== Sys2Proof/Machine/Swap.lean ====
section
/-! DEFINITION. Machine/Swap.lean: shadow sets: which registers each holds, the boundaries each accepts, what ENACT refuses, and the swap
(R7, R18 to R21, R345 to R347, and the boundary rule of each chapter). -/
namespace Sys2Proof.Machine

/-! ## The sets (R7, R345) -/

def wpSet (u : Nat) : Option SetId := if h : u < 20 then some (.wp ⟨u, h⟩) else none
def hpSet (n : Nat) : Option SetId := if h : n < 8 then some (.hp ⟨n, h⟩) else none
def vbSet (n : Nat) : Option SetId := if h : n < 8 then some (.vb ⟨n, h⟩) else none
def ancSet (x : Nat) : Option SetId := if h : x < 4 then some (.anc ⟨x, h⟩) else none
def spmSet (n : Nat) : Option SetId := if h : n < 4 then some (.spm ⟨n, h⟩) else none
def plSet (p : Nat) : SetId := if p = 0 then .pl 0 else .pl 1

/-- The set of a timebase register by its offset (R40, R52). -/
def wpSetOf (o : Nat) : Option SetId :=
  if o < 0x40 then wpSet 0
  else if 0x100 ≤ o ∧ o < 0x180 then wpSet (1 + (o - 0x100) / 0x20)
  else if 0x200 ≤ o ∧ o < 0x300 then wpSet (5 + (o - 0x200) / 0x20)
  else if 0x300 ≤ o ∧ o < 0x340 then wpSet (13 + (o - 0x300) / 0x10)
  else if 0x400 ≤ o ∧ o < 0x440 then wpSet 18
  else if 0x480 ≤ o ∧ o < 0x500 then wpSet 19
  else none

/-- The set of an analogue register by its offset (R283, R298). -/
def anSetOf (o : Nat) : Option SetId :=
  if o < 0x100 then some .ana
  else if o < 0x200 then ancSet ((o - 0x100) / 0x40)
  else if 0x400 ≤ o ∧ o < 0x800 then ancSet ((o - 0x400) / 0x100)
  else none

/-- The set of a serial or pin register by its offset (R317, R320). -/
def spSetOf (o : Nat) : Option SetId :=
  if o < 0x200 then spmSet (o / 0x80)
  else if o < 0x300 then some (.spm 0)
  else if o < 0x400 then some .sps
  else if 0x500 ≤ o then some .gpio
  else none

/-- The set of a shadowed register, by the address of its live copy. -/
def setOf (a : Nat) : Option SetId :=
  match a / 0x10000 with
  | 0 => some .gl
  | 1 => some .tk
  | 2 => some .fb
  | 3 => some .hx
  | 4 => hpSet (a % 0x10000 / 0x1000)
  | 5 => some (plSet (a % 0x10000 / 0x8000))
  | 6 => some .lt
  | 7 => some .wm
  | 8 => some .bv
  | 9 => if a % 0x10000 = 0x800C then some .spare else vbSet (a % 0x10000 / 0x1000)
  | 10 => wpSetOf (a % 0x10000)
  | 11 => anSetOf (a % 0x10000)
  | 12 => spSetOf (a % 0x10000)
  | 13 => some .sv
  | 14 => some .tr
  | 15 => some .db
  | _ => none

/-- A register is shadowed: its row is RWS (R5). -/
def shadowed (a : Nat) : Bool := match regRow a with
  | some r => decide (r.acc = .rws)
  | none => false

/-- The set that holds an address's shadow copy; none where the register has none. -/
def regSet (a : Nat) : Option SetId := if shadowed a then setOf a else none

/-- The set that a unit identifier names (R12, R13, R345). -/
def idSet (id : Nat) : Option SetId :=
  let u := id / 32 % 64
  match id / 2048 % 32 with
  | 0 => if u < 4 then some .gl else none
  | 1 => if u < 2 then some .hx else none
  | 2 => if u < 6 then some .tk else none
  | 3 => if u < 34 then some .fb else none
  | 4 => hpSet u
  | 5 => if u < 2 then some (plSet u) else none
  | 6 => if u < 4 then some .lt else none
  | 7 => if u < 3 then some .wm else none
  | 8 => if u = 0 then some .bv else none
  | 9 => if u = 8 then some .spare else vbSet u
  | 10 => vbSet u
  | 11 => if u = 17 then none else wpSet u
  | 12 => if u < 4 then ancSet u else if u < 7 then some .ana else none
  | 13 => if u < 4 then spmSet u else if u = 4 then some .sps else if u = 5 then some .gpio else none
  | 14 => if u < 2 then some .sv else if u = 2 then some .tr else none
  | 15 => if u < 2 then some .db else none
  | _ => none

/-! ## The boundaries (R18, and R40, R56, R81, R147, R173, R194, R219, R283, R317, R380, R401, R422, R443, R467 to R469) -/

def Dev.hsyOn (d : Dev) (n : Nat) : Bool := d.bit (Reg.WP_HSYn_CFG n) 0

/-- The timebase units (R40). -/
def Dev.wpAccepts (d : Dev) (u : Nat) (b : Boundary) : Bool :=
  let stopped := d.web.slip.stopped
  if u = 0 then
    match b with
    | .gap => true
    | .row _ => true
    | .now => stopped
    | _ => false
  else if u < 5 then
    match b with
    | .gap => true
    | .now => stopped || (decide (d.fld Reg.WP_CFG 1 0 ≠ u - 1) && decide (d.fld Reg.WP_CFG 3 2 ≠ u - 1))
    | _ => false
  else if u < 13 then
    match b with
    | .row n => decide (n.val = u - 5)
    | .now => !d.bit (Reg.WP_RGn_CFG (u - 5)) 0
    | _ => false
  else if u = 19 then
    match b with
    | .gap => true
    | .row n => (List.range 8).any (fun i => d.hsyOn i && decide (d.fld (Reg.WP_HSYn_CFG i) 15 8 = 16 + n.val))
    | .now => (List.range 8).all (fun i => !d.hsyOn i)
    | _ => false
  else decide (b = .now)

/-- A set accepts a boundary. -/
def Dev.accepts (d : Dev) (x : SetId) (b : Boundary) : Bool :=
  match x with
  | .wp u => d.wpAccepts u b
  | .hp n => match b with
    | .frame m => decide (m = n)
    | .now => !d.bit (Reg.HP_CFG n) 0
    | _ => false
  | .pl p => match b with
    | .frame _ => true
    | .now => !d.bit (Reg.PL_CFG p) 0
    | _ => false
  | .lt => match b with
    | .frame _ => true
    | .gap => true
    | .now => !d.bit Reg.LT_CFG 0
    | _ => false
  | .wm => match b with
    | .frame _ => true
    | .row _ => true
    | .gap => true
    | .now => !d.bit Reg.WM_CFG 0
    | _ => false
  | .bv => match b with
    | .row n => decide (n.val = d.fld (Reg.WM_Ll_CFG (d.fld Reg.BV_CFG 2 1)) 3 1)
    | .gap => true
    | .now => !d.bit Reg.BV_CFG 0
    | _ => false
  | .vb k => match b with
    | .row n => decide (n.val = d.fld (Reg.VB_RING k) 6 4)
    | .gap => true
    | .now => !d.bit (Reg.VB_CFG k) 0
    | _ => false
  | .ana => decide (b = .now) && (List.range 4).all (fun i => !d.bit (Reg.AN_Cx_CFG i) 0)
  | .anc i => match b with
    | .sequence => true
    | .now => !d.bit (Reg.AN_Cx_CFG i) 0
    | _ => false
  | .spm n => match b with
    | .idle => true
    | .now => !d.bit (Reg.SP_Mn_CFG n) 0
    | _ => false
  | .sps => match b with
    | .idle => true
    | .now => !d.bit Reg.SP_SPS_CFG 0
    | _ => false
  | .fb => decide (b = .idle)
  | .spare => decide (b = .now)
  | .bl _ => false
  | .gpio => decide (b = .now)
  | .tk => decide (b = .now)
  | .am => false
  | .hx => decide (b = .now)
  | .gl => decide (b = .now)
  | .sv => decide (b = .now)
  | .tr => decide (b = .now)
  | .db => decide (b = .now)

/-- The boundary that an ENACT's kind and n name; n shall be 0 for kinds 2 to 5 (R345). -/
def boundaryOf (kind n : Fin 8) : Option Boundary :=
  match kind.val with
  | 0 => some (.frame n)
  | 1 => some (.row n)
  | 2 => if n = 0 then some .sequence else none
  | 3 => if n = 0 then some .idle else none
  | 4 => if n = 0 then some .gap else none
  | 5 => if n = 0 then some .now else none
  | _ => none

/-- The IDLE, SEQUENCE or NOW boundary of a set is here (R18, R283, R317, R401). -/
def Dev.atBoundary (d : Dev) (x : SetId) (b : Boundary) : Bool :=
  match b with
  | .now => true
  | .sequence => match x with
    | .anc i => (d.adc i).idle && !(d.adc i).out
    | _ => false
  | .idle => match x with
    | .spm n =>
      let q := d.port n
      q.cur.isNone && q.next.isNone && (decide (n ≠ 0) || (d.xip.cur.isNone && d.xip.wait.isEmpty))
    | .sps => !d.sps.select
    | .fb => d.fab.waiters.isEmpty && (List.range 16).all (fun b => (d.lockOwner b).isNone)
    | _ => false
  | _ => false

/-! ## What ENACT refuses (R346) -/

def Dev.sh (d : Dev) (a : Nat) : Nat := d.srdN a
/-- A frame-memory base that is 64-byte aligned. -/
def Dev.alignedSh (d : Dev) (a : Nat) : Bool := decide (d.srdN a % 64 = 0)
/-- A field of a shadow copy lies in a range. -/
def Dev.inSh (d : Dev) (a hi lo mn mx : Nat) : Bool := decide (mn ≤ d.sfld a hi lo) && decide (d.sfld a hi lo ≤ mx)

/-- The masked field of a register would change. -/
def Dev.changes (d : Dev) (f : Nat × Nat) : Bool := decide (d.srdN f.1 &&& f.2 ≠ d.rdN f.1 &&& f.2)

/-- A contract holds an item (R367). -/
def Dev.heldItem (d : Dev) (p : Item → Bool) : Bool := d.tk.contracts.any (fun c => c.2.items.any p)

def Item.isHead (h : Nat) : Item → Bool
  | .head x _ _ _ _ => decide (x = h)
  | _ => false
def Item.isLayer (l : Nat) : Item → Bool
  | .layer x => decide (x = l)
  | _ => false
def Item.isBloom : Item → Bool
  | .bloom => true
  | _ => false
def Item.isBank (b : Nat) : Item → Bool
  | .bank x => decide (x = b)
  | _ => false
def Item.isConverter (x : Nat) : Item → Bool
  | .converter y _ => decide (y = x)
  | _ => false
/-- The item holds stream context s of pipeline p. -/
def Item.isCtx (p s : Nat) : Item → Bool
  | .head _ c q sb _ => decide (q = p ∧ c = s) || decide (q ≠ p ∧ sb = some s)
  | _ => false

/-- The contract-bound fields of the units of a set that no contract holds (R367). VB_CFG.indep is not among them while its bank is not held
(log 68). -/
def Dev.unheldFields (d : Dev) (x : SetId) : List (Nat × Nat) :=
  match x with
  | .hp n => if d.heldItem (Item.isHead n) then [] else
      [(Reg.HP_GEOM n, full), (Reg.HP_BLIND n, 0x1F), (Reg.HP_CFG n, 0x34)]
  | .pl p => ((List.range 32).filter (fun s =>
      !d.heldItem (Item.isCtx p s) && !(d.sbit (Reg.PL_Sx_CFG p s) 6 || d.bit (Reg.PL_Sx_CFG p s) 6))).map
      (fun s => (Reg.PL_Sx_CFG p s, ctxMask))
  | .wm =>
    (((List.range 4).filter (fun l => !d.heldItem (Item.isLayer l))).map (fun l =>
      [(Reg.WM_Ll_CFG l, 0x3FFF000F), (Reg.WM_Ll_X0 l, full), (Reg.WM_Ll_XPITCH l, full), (Reg.WM_Ll_WORK l, full), (Reg.WM_Ll_OPEN l, full)])).flatten ++
    ((List.range 8).filter (fun h => !d.heldItem (Item.isHead h))).map (fun h => (Reg.WM_Hh_CFG h, 7))
  | .bv => if d.heldItem Item.isBloom then [] else Item.bloom.fields d
  | .vb b => if d.heldItem (Item.isBank b) then [] else
      ((Item.bank b).fields d).map (fun f => if f.1 = Reg.VB_CFG b then (f.1, 1) else f)
  | .anc i => if d.heldItem (Item.isConverter i) then [] else (Item.converter i 0).fields d
  | .ana => if d.heldItem (Item.isConverter 4) then [] else (Item.converter 4 0).fields d
  | _ => []

/-- The ENACT would enable a head port that no contract holds (R367). -/
def Dev.enablesUnheld (d : Dev) (x : SetId) : Bool :=
  match x with
  | .hp n => !d.heldItem (Item.isHead n) && d.sbit (Reg.HP_CFG n) 0 && !d.bit (Reg.HP_CFG n) 0
  | _ => false

/-- "Contract bound" (R58, R81, R173, R194, R219, R248, R283, R367). -/
def Dev.bound (d : Dev) (x : SetId) : Bool :=
  d.tk.contracts.any (fun c => c.2.snap.any (fun f => decide (regSet f.1 = some x) && decide (d.srdN f.1 &&& f.2.1 ≠ f.2.2))) ||
  (d.unheldFields x).any (fun f => decide (regSet f.1 = some x) && d.changes f) || d.enablesUnheld x ||
  (match x with
    | .vb b => d.bit (Reg.VB_CFG b) 0 && decide (d.srdN (Reg.LC_SAVE_BASE b) ≠ d.rdN (Reg.LC_SAVE_BASE b))
    | _ => false)

/-- "Feature inactive" (R81, R150, R193). -/
def Dev.wantsFeature (d : Dev) (x : SetId) : Bool :=
  match x with
  | .pl p => (List.range 32).any (fun s =>
      let c := Reg.PL_Sx_CFG p s
      (d.sbit c 7 && !d.feature 3) || (d.sbit c 12 && !d.feature 2) || (d.sbit c 10 && !d.feature 13) ||
        (decide (d.sfld c 20 16 ≠ 0) && !d.feature 10))
  | .lt => (List.range 8).any (fun h => d.sbit (Reg.LT_HDh_CFG h) 1) && !d.feature 13
  | .bv => (d.sbit Reg.BV_CFG 0 && !d.feature 4) || (d.sbit Reg.BV_CFG 8 && !d.feature 5)
  | _ => false

/-! ### Invalid settings -/

/-- Timebase (R43, R48, R53). -/
def Dev.wpInvalid (d : Dev) (u : Nat) : Bool :=
  if u = 0 then !(d.inSh Reg.WP_GAP_CFG 2 0 0 4 && d.inSh Reg.WP_GAP_CFG 6 4 0 4)
  else if u < 5 then decide (d.sfld (Reg.WP_ENCn_CFG (u - 1)) 1 0 = 3)
  else if u < 13 then decide (d.srdN (Reg.WP_RGn_PITCH (u - 5)) < 16)
  else if u = 19 then (List.range 8).any (fun n =>
    let e := d.sfld (Reg.WP_HSYn_CFG n) 15 8
    !(decide (16 ≤ e ∧ e < 24) || decide (128 ≤ e)))
  else false

/-- A claim on a pin: its number, and whether it drives as a select (R316). -/
abbrev PinClaim := Nat × Bool

/-- The pins that port n claims, its registers read by v. -/
def portClaims (v : Nat → Nat) (n : Nat) : List PinClaim :=
  let c := v (Reg.SP_Mn_SEL n)
  (if nbit c 0 then [(nfld c 5 1, true)] else []) ++ (if nbit c 7 then [(nfld c 12 8, false)] else [])

/-- The pin that head port n claims. -/
def headClaims (v : Nat → Nat) (n : Nat) : List PinClaim :=
  if nbit (v (Reg.HP_CFG n)) 0 then [(nfld (v (Reg.HP_CTRL_CFG n)) 12 8, true)] else []

/-- The claims with the registers of set x read from their shadow copies, all others from their live copies. -/
def Dev.claims (d : Dev) (x : SetId) : List PinClaim :=
  let v := fun (y : SetId) => if x = y then d.srdN else d.rdN
  ((List.finRange 4).map (fun n => portClaims (v (.spm n)) n)).flatten ++ ((List.finRange 8).map (fun n => headClaims (v (.hp n)) n)).flatten

/-- A pin would get a second owner, a select would be an input, or a serial port of an enabled head profile would be bound (R316). -/
def Dev.pinsInvalid (d : Dev) (x : SetId) : Bool :=
  let v := fun (y : SetId) => if x = y then d.srdN else d.rdN
  let cl := d.claims x
  !(decide ((cl.map Prod.fst).Nodup)) ||
  cl.any (fun c => c.2 && decide (nfld (v .gpio (Reg.GP_Pp_CFG c.1)) 1 0 = 0)) ||
  (List.finRange 8).any (fun n => nbit (v (.hp n) (Reg.HP_CFG n)) 0 &&
    (List.finRange 4).any (fun q => decide (nfld (v (.hp n) (Reg.HP_CTRL_CFG n)) 1 0 = q.val) && nbit (v (.spm q) (Reg.SP_Mn_SEL q)) 0))

/-- Head profile (R57, R77). -/
def Dev.hpInvalid (d : Dev) (n : Nat) : Bool :=
  !(d.inSh (Reg.HP_GEOM n) 11 0 160 2048 && decide (d.sfld (Reg.HP_GEOM n) 11 0 % 4 = 0) && d.inSh (Reg.HP_GEOM n) 27 16 120 1536 &&
    d.inSh (Reg.HP_BLIND n) 4 0 0 16 && d.inSh (Reg.HP_RIND n) 22 16 0 64 &&
    decide (d.sfld (Reg.HP_RIND n) 11 0 + d.sfld (Reg.HP_RIND n) 22 16 ≤ d.sfld (Reg.HP_GEOM n) 27 16) &&
    d.inSh (Reg.HP_CFG n) 8 6 0 4 && d.inSh (Reg.HP_LATENCY n) 3 0 1 8 &&
    [Reg.HP_TF_SUB n, Reg.HP_TF_INT n, Reg.HP_TF_CNT n, Reg.HP_TF_ECHO n].all (fun a => decide (d.sfld a 11 0 + d.sfld a 13 12 + 1 ≤ 4096)) &&
    d.inSh (Reg.HP_CTRL_CFG n) 12 8 0 19 && d.inSh (Reg.HP_SN_CMD n) 15 12 1 8)

/-- A frame-memory base of a stream: aligned and inside frame memory (R81). -/
def Dev.plBase (d : Dev) (a : Nat) : Bool := d.alignedSh a && decide (d.srdN a < frameBytes)

/-- The head that a context of pipeline p carries, if it is active: by the live set, or once the shadow set is in force (R80). -/
def Dev.activeAfter (d : Dev) (p : Nat) (mine : Bool) (s : Nat) : Option Nat :=
  let live := d.rdN (Reg.PL_Sx_CFG p s)
  let c := if mine then d.srdN (Reg.PL_Sx_CFG p s) else live
  let on := if c &&& 0x6F = live &&& 0x6F then (d.ctx p s).active && nbit c 0 else nbit c 0 && !nbit c 5 && !nbit c 6
  if on then some (nfld c 3 1) else none

/-- The contexts of a pipeline that are active or standby for their head. -/
def Dev.headsOfShadow (d : Dev) (p : Nat) : List Nat :=
  (List.range 32).filterMap (fun s =>
    let c := d.srdN (Reg.PL_Sx_CFG p s)
    if nbit c 0 && !nbit c 6 then some (nfld c 3 1) else none)

/-- One stream context (R113, R114). -/
def Dev.ctxInvalid (d : Dev) (p s : Nat) : Bool :=
  let c := d.srdN (Reg.PL_Sx_CFG p s)
  let noise := d.srdN (Reg.PL_Sx_NOISE p s)
  !(d.plBase (Reg.PL_Sx_TABLE p s) && d.plBase (Reg.PL_Sx_STATE p s) && d.plBase (Reg.PL_Sx_HIST p s) && d.plBase (Reg.PL_Sx_HOLD p s) &&
    d.plBase (Reg.PL_Sx_SLOT p s) && d.inSh (Reg.PL_Sx_MERGE p s) 15 0 0x1000 0xFFFF &&
    decide (d.sfld (Reg.PL_Sx_KNEE p s) 15 0 < d.sfld (Reg.PL_Sx_KNEE p s) 31 16) && decide (d.sfld (Reg.PL_Sx_PITCH p s) 23 0 ≠ 0) &&
    d.inSh (Reg.PL_Sx_LAG p s) 8 0 0 256 && d.inSh (Reg.PL_Sx_C2T p s) 28 24 1 20 && d.inSh (Reg.PL_Sx_INV p s) 28 24 1 20 &&
    decide (1 ≤ nfld noise 19 16) && decide (nfld noise 19 16 ≤ nfld noise 23 20) && !(nbit c 6 && (nbit c 4 || nbit c 5)))

/-- A pipeline (R80, R81, R113, R114). -/
def Dev.plInvalid (d : Dev) (p : Nat) : Bool :=
  (List.range 32).any (fun s => d.ctxInvalid p s) ||
  (List.range 5).any (fun t => !(d.inSh (Reg.PL_TAPt_CFG p t) 11 8 0 9 && d.plBase (Reg.PL_TAPt_BASE p t))) ||
  !(decide ((d.headsOfShadow p).Nodup)) ||
  ((false :: (d.swapOf (.pl (Fin.ofNat 2 (1 - p)))).toList.map (fun _ => true)).any (fun pending =>
    !(decide ((((List.range 32).filterMap (d.activeAfter p true)) ++ ((List.range 32).filterMap (d.activeAfter (1 - p) pending))).Nodup))))

/-- Last store and calibration (R149, R150). -/
def Dev.ltInvalid (d : Dev) : Bool :=
  !(d.inSh Reg.LT_CFG 4 1 1 8 && d.inSh Reg.LT_DIR_COUNT 8 0 1 256 && d.alignedSh Reg.LT_DIR_BASE && d.alignedSh Reg.LT_PROBE_BASE &&
    d.inSh Reg.LT_BAL_CFG 31 16 64 65535 &&
    (List.range 8).all (fun w => let o := d.sfld Reg.LT_BAL_ORDER (4 * w + 3) (4 * w); decide (o < 8) || decide (o = 15)) &&
    (List.range 8).all (fun h =>
      d.inSh (Reg.LT_HDh_BAND h) 15 0 16 4096 && d.inSh (Reg.LT_HDh_BAND h) 19 16 1 15 && d.alignedSh (Reg.LT_HDh_IMG h) &&
        d.alignedSh (Reg.LT_HDh_ACC h) && d.inSh (Reg.LT_HDh_SHSEQ h) 17 12 8 32 &&
        (decide (d.sfld (Reg.LT_HDh_SHMAX h) 15 0 = 0) || decide (d.sfld (Reg.LT_HDh_SHDUE h) 15 0 ≤ d.sfld (Reg.LT_HDh_SHMAX h) 15 0))))

/-- Layer, first and last column of each mapped head. -/
def Dev.spansSh (d : Dev) : List (Nat × Nat × Nat) :=
  ((List.range 8).filter (fun h => d.sbit (Reg.WM_Hh_CFG h) 0)).map (fun h =>
    (d.sfld (Reg.WM_Hh_CFG h) 2 1, d.sfld (Reg.WM_Hh_SPAN h) 12 0, d.sfld (Reg.WM_Hh_SPAN h) 28 16))

/-- Two enabled zones of one layer overlap (R167). -/
def Dev.zonesOverlap (d : Dev) (y z : Nat) : Bool :=
  let a := d.srdN (Reg.WM_EZz_SPAN y)
  let b := d.srdN (Reg.WM_EZz_SPAN z)
  nbit a 31 && nbit b 31 && decide (nfld a 30 29 = nfld b 30 29) && decide (nfld a 12 0 ≤ nfld b 28 16) && decide (nfld b 12 0 ≤ nfld a 28 16)

/-- Map and statistics (R152, R167, R175, R176). The columns of a layer that is off, which reset to 0, are not held to their range (log 69). -/
def Dev.wmInvalid (d : Dev) : Bool :=
  !((List.range 4).all (fun l =>
      d.inSh (Reg.WM_Ll_XPITCH l) 17 0 4000 128000 && d.inSh (Reg.WM_Ll_OPEN l) 10 0 16 1024 && d.alignedSh (Reg.WM_Ll_WORK l) &&
        (!d.sbit (Reg.WM_Ll_CFG l) 0 || d.inSh (Reg.WM_Ll_CFG l) 29 16 1 8192)) &&
    decide ((((List.range 4).filter (fun l => d.sbit (Reg.WM_Ll_CFG l) 0)).map (fun l => d.sfld (Reg.WM_Ll_CFG l) 29 16)).sum ≤ 8192) &&
    (List.range 8).all (fun h =>
      d.alignedSh (Reg.WM_Hh_GEOM h) && decide (d.sfld (Reg.WM_Hh_YPITCH h) 23 0 ≠ 0) && d.inSh (Reg.WM_STh_CFG h) 4 2 0 6) &&
    (List.range 2).all (fun p => d.inSh (Reg.WM_SRp_CFG p) 11 8 0 9 && d.alignedSh (Reg.WM_SRp_BASE p)) &&
    (List.range 64).all (fun z =>
      d.inSh (Reg.WM_EZz_VAL z) 15 0 0 0x8000 && decide (d.sfld (Reg.WM_EZz_SPAN z) 12 0 ≤ d.sfld (Reg.WM_EZz_SPAN z) 28 16) &&
        (List.range z).all (fun y => !d.zonesOverlap y z)) &&
    d.spansSh.all (fun i =>
      decide ((d.spansSh.filter (fun j => decide (j.1 = i.1) && decide (j.2.1 ≤ i.2.1) && decide (i.2.1 ≤ j.2.2) && decide (i.2.1 ≤ i.2.2))).length ≤ 2)))

/-- Bloom (R197, R198). blayer must differ from vlayer in survey mode. -/
def Dev.bvInvalid (d : Dev) : Bool :=
  let good := d.sfld Reg.BV_GRADE 15 0
  let miss := d.sfld Reg.BV_GRADE 31 16
  !(d.inSh Reg.BV_DEPTH 11 0 64 2048 && d.inSh Reg.BV_DEPTH 23 16 8 128 && d.inSh Reg.BV_WIN 10 0 16 1024 && d.inSh Reg.BV_WIN 14 12 1 5 &&
    d.inSh Reg.BV_WIN 31 16 1 8192 && decide (1 ≤ miss) && decide (miss < good) && decide (good < d.sfld Reg.BV_OVER 15 0) &&
    d.inSh Reg.BV_TRIM 7 0 1 51 && d.inSh Reg.BV_TRIM 15 8 0 51 && d.inSh Reg.BV_SEG 3 0 4 8 && d.inSh Reg.BV_SEG 15 8 1 255 &&
    d.inSh Reg.BV_RING 11 8 0 9 && d.alignedSh Reg.BV_RING_BASE && d.alignedSh Reg.BV_JET_BASE && d.alignedSh Reg.BV_STORE &&
    (d.sbit Reg.BV_CFG 5 || decide (d.sfld Reg.BV_CFG 4 3 ≠ d.sfld Reg.BV_CFG 2 1)))

/-- One channel of a bank (R223, R241, R243). -/
def Dev.chanInvalid (d : Dev) (b c : Nat) : Bool :=
  let warn := d.sfld (Reg.LC_CHc_LIM1 b c) 15 0
  let derate := d.sfld (Reg.LC_CHc_LIM1 b c) 31 16
  !((!d.sbit (Reg.VB_CHc_CFG b c) 1 || (d.sbit (Reg.VB_CFG b) 1 && decide (c < 8))) &&
    decide (warn ≤ derate) && decide (derate ≤ d.sfld (Reg.LC_CHc_LIM2 b c) 15 0) &&
    (!d.sbit (Reg.LC_CHc_CFG b c) 4 ||
      (decide (d.sfld (Reg.LC_CHc_RES20 b c) 19 0 ≠ 0) && d.inSh (Reg.LC_CHc_ACB b c) 23 0 1 8388607 &&
        d.inSh (Reg.LC_CHc_ABC b c) 23 0 1 8388607 && d.inSh (Reg.LC_CHc_ABA b c) 23 0 1 8388607)))

/-- A bank with its engine (R201, R223, R247, R250, R251). -/
def Dev.vbInvalid (d : Dev) (b : Nat) : Bool :=
  !(d.inSh (Reg.VB_RING b) 3 0 7 16 && d.inSh (Reg.VB_RING b) 13 8 0 32 && d.alignedSh (Reg.VB_RING_BASE b) &&
    (List.range 8).all (fun o => decide (o = b) || decide (d.rdN (Reg.VB_RING_BASE o) ≠ d.srdN (Reg.VB_RING_BASE b)) ||
      decide (d.rdN (Reg.VB_RING o) = d.srdN (Reg.VB_RING b))) &&
    d.inSh (Reg.LC_CFG b) 15 4 0 2400 && d.inSh (Reg.LC_RCHK b) 11 8 1 15 &&
    d.alignedSh (Reg.LC_SAVE_BASE b) && decide (d.srdN (Reg.LC_SAVE_BASE b) + 17408 ≤ frameBytes) &&
    (List.range 16).all (fun p => decide (1 ≤ d.sfld (Reg.LC_PGp_DUR b p) 19 0) && decide (1 ≤ d.sfld (Reg.LC_PGp_DIP b p) 11 0)) &&
    (List.range 16).all (fun c => !d.chanInvalid b c))

/-- The entries of the converters route only sources and a DAC that their converter owns (R288, R289), with converter x, or for x = 4 the shared
set, read from its shadow copies. -/
def Dev.routesInvalid (d : Dev) (x : Nat) : Bool :=
  let vs := fun (a : Nat) => if x = 4 then d.srdN a else d.rdN a
  let ow := fun (n : Nat) => vs (Reg.AN_IEXn_CFG n)
  (List.range 4).any (fun i =>
    let v := fun (a : Nat) => if x = i then d.srdN a else d.rdN a
    (List.range 16).any (fun e =>
      let c := v (Reg.AN_Cx_Ee_EXC i e)
      let bad := fun (n lvl : Nat) => decide (lvl ≠ 0) && (decide (nfld (ow n) 1 0 ≠ i) || nbit (ow n) 2)
      bad 0 (nfld c 2 0) || bad 1 (nfld c 10 8) ||
        (decide (nfld (v (Reg.AN_Cx_Ee_TD i e)) 13 12 ≠ 0) && decide (nfld (vs Reg.AN_TDAC_CFG) 1 0 ≠ i))))

/-- A trigger word (R279, R299). -/
def trigOk (v : Nat) : Bool := decide (nfld v 19 17 ≤ 5)

/-- A converter (R272, R286, R288, R289, R293, R298, R299). -/
def Dev.ancInvalid (d : Dev) (x : Nat) : Bool :=
  !(decide (d.sfld (Reg.AN_Cx_CFG x) 6 5 ≠ x) && d.inSh (Reg.AN_Cx_CFG x) 11 8 0 12 &&
    trigOk (d.srdN (Reg.AN_Cx_TRIG x)) && d.inSh (Reg.AN_Cx_DELAY x) 24 0 0 (2 ^ 24) && decide (d.srdN (Reg.AN_Cx_HW x) % 8 = 0) &&
    d.plBase (Reg.AN_Cx_BUF x) &&
    (List.range 16).all (fun e =>
      let i := Reg.AN_Cx_Ee_IN x e
      let f := Reg.AN_Cx_Ee_FLT x e
      let c := Reg.AN_Cx_Ee_EXC x e
      d.inSh i 4 0 0 29 && d.inSh i 9 5 0 29 && d.inSh i 14 13 0 2 && d.inSh f 12 0 1 4096 && d.inSh f 14 13 0 2 && d.inSh c 7 3 0 23 &&
        d.inSh c 15 11 0 23)) || d.routesInvalid x

/-- The shared analogue set (R288, R289, R298, R299). -/
def Dev.anaInvalid (d : Dev) : Bool :=
  !((List.range 2).all (fun n => d.inSh (Reg.AN_IEXn_CFG n) 10 6 0 23) && trigOk (d.srdN Reg.AN_COMMON) && decide (d.sfld Reg.AN_COMMON 1 0 ≠ 3) &&
    d.inSh Reg.AN_COMMON_DELAY 24 0 0 (2 ^ 24)) || d.routesInvalid 4

/-- A master port, with the XIP registers for SP0 (R305, R308, R320, R321). -/
def Dev.spInvalid (d : Dev) (n : Nat) : Bool :=
  let sel := d.srdN (Reg.SP_Mn_SEL n)
  let xip := d.srdN Reg.SP_XIP_CFG
  !(d.inSh (Reg.SP_Mn_CFG n) 16 8 0 499 && decide (nfld sel 5 1 ≤ 19) && decide (nfld sel 12 8 ≤ 19) &&
    (!d.sbit (Reg.SP_Mn_SF n) 0 || nbit sel 0)) ||
  (decide (n = 0) && !((!nbit xip 0 || nbit sel 0) && (!nbit xip 5 || nbit xip 4) && decide (16 ≤ nfld xip 28 24) && decide (nfld xip 28 24 ≤ 26) &&
    d.alignedSh Reg.SP_XIP_OFF))

/-- "Invalid setting" (R346). -/
def Dev.invalidSetting (d : Dev) (x : SetId) : Bool :=
  match x with
  | .wp u => d.wpInvalid u
  | .hp n => d.hpInvalid n || d.pinsInvalid x
  | .pl p => d.plInvalid p
  | .lt => d.ltInvalid
  | .wm => d.wmInvalid
  | .bv => d.bvInvalid
  | .vb b => d.vbInvalid b
  | .ana => d.anaInvalid
  | .anc i => d.ancInvalid i
  | .spm n => d.spInvalid n || d.pinsInvalid x
  | .gpio => (List.range 20).any (fun p => decide (d.sfld (Reg.GP_Pp_CFG p) 1 0 = 3)) || d.pinsInvalid x
  | .tk => decide (d.sfld Reg.TK_CFG 31 16 = 0)
  | .fb => !(d.inSh Reg.FB_GUARD 4 0 4 31 && d.inSh Reg.FB_CFG 11 8 1 15 && decide (1 ≤ d.sfld Reg.FB_CFG 31 16))
  | .hx => !d.inSh Reg.HX_CFG 23 8 10 50000
  | .spare => false
  | .bl _ => false
  | .sps => false
  | .am => false
  | .gl => false
  | .sv => false
  | .tr => false
  | .db => false

/-- The status of an ENACT (R345, R346): the first cause of refusal in the order of R346, or 0. -/
def Dev.enactStatus (d : Dev) (id : Nat) (b : Option Boundary) : Nat :=
  match idSet id with
  | none => 7
  | some x =>
    match b with
    | none => 2
    | some b =>
      if d.accepts x b = false then 2
      else if d.inService (id % 65536) then 6
      else if (d.swapOf x).isSome then 1
      else if d.bound x then 3
      else if d.wantsFeature x then 4
      else if d.invalidSetting x then 5
      else 0

/-- The result word of an ENACT: the status, and the generation that the swap will give, or that in force (R345). -/
def Dev.enactWord (d : Dev) (id st : Nat) : Nat :=
  match idSet id with
  | none => st
  | some x => st + 65536 * ((d.gen x + (if st = 0 then 1 else 0)) % 65536)

/-- ENACT at DTIME t (R345, R346). -/
def Dev.enact (d : Dev) (t id : Nat) (b : Option Boundary) : Nat × Dev :=
  let st := d.enactStatus id b
  let d' := match st, idSet id, b with
    | 0, some x, some y => { d with regs := { d.regs with swaps := d.regs.swaps ++ [⟨x, y, t⟩] } }
    | _, _, _ => d
  (d.enactWord id st, d')

/-- The cancel form (R346). -/
def Dev.enactCancel (d : Dev) (id : Nat) : Nat × Dev :=
  match idSet id with
  | none => (7, d)
  | some x =>
    if (d.swapOf x).isSome then (d.enactWord id 8, d.dropSwap x) else (d.enactWord id 9, d)

/-! ## The swap (R7, R19) -/

/-- The shadow copies of a set become its live copies. -/
def Dev.copySet (d : Dev) (x : SetId) : Dev :=
  ((d.regs.live.map Prod.fst ++ d.regs.shadow.map Prod.fst).eraseDups.filter (fun a => decide (regSet a = some x))).foldl
    (fun (e : Dev) a => e.wr a (d.srd a)) d

/-- The set swaps: its generation advances, with that of the unit that swaps with it, and its pending swap is done. -/
def Dev.swapCopy (d : Dev) (x : SetId) : Dev :=
  let d := ((d.copySet x).dropSwap x).setGen x (d.gen x + 1)
  match x with
  | .vb b => d.setGen (.bl b) (d.gen (.bl b) + 1)
  | .tk => d.setGen .am (d.gen .am + 1)
  | _ => d

/-- What the swap of a set does to its unit at once, beyond the copy. `o` is the device before. -/
def swapEffect (now : Now) (x : SetId) (o : Dev) (cd : Clock × Dev) : Clock × Dev :=
  let d := cd.2
  match x with
  | .wp u =>
    if u.val = 0 then wpCfgSwap (o.rdN Reg.WP_CFG) cd
    else if 5 ≤ u.val ∧ u.val < 13 then
      (cd.1, (d.rgSwap now (u.val - 5) (o.bit (Reg.WP_RGn_CFG (u.val - 5)) 0)).gridSwap o now (u.val - 5))
    else if 18 ≤ u.val then (cd.1, d.outSwap now.dtime u)
    else cd
  | .hp n => (cd.1, d.hpEnable now.dtime n (o.bit (Reg.HP_CFG n) 0))
  | .pl p => (cd.1, d.plSwap p (o.bit (Reg.PL_CFG p) 0) (fun s => o.rdN (Reg.PL_Sx_CFG p s)))
  | .lt => (cd.1, d.ltSwap now.dtime o)
  | .wm => (cd.1, d.wmSwap now o.rdN)
  | .bv => (cd.1, d.bvSwap now.dtime (o.bit Reg.BV_CFG 0))
  | .vb b => (cd.1, ((d.vbSwap now.dtime b o.rdN).blSwap now.dtime b).shutWatch now.dtime)
  | .ana => (cd.1, (d.anaSwap now.dtime (o.rdN Reg.AN_REF_CFG)).iexAfter o)
  | .anc i => (cd.1, (d.adcSwap now.dtime i).iexAfter o)
  | .spm n => (cd.1, d.spSwap now.dtime n o.rdN)
  | _ => cd

/-- A set swaps (R19). -/
def swapSet (now : Now) (x : SetId) (cd : Clock × Dev) : Clock × Dev :=
  swapEffect now x cd.2 (cd.1, cd.2.swapCopy x)

/-- The first DRIVE tick after t in which the unit of a set has begun another cycle of its domain (R3, R13, R19): a DRIVE tick for the timebase,
a lace or PERI cycle of 2 ticks, a modulator cycle of 3125/48 ticks. In the other domains, whose cycles are shorter than a tick or set from
outside, the order of the commands is that of the cycles. -/
def nextCycle (x : SetId) (t : Nat) : Nat :=
  match x with
  | .wp _ => t + 1
  | .vb _ => t + 2 - t % 2
  | .spm _ => t + 2 - t % 2
  | .gpio => t + 2 - t % 2
  | .anc _ => ((t * 48 / 3125 + 1) * 3125 + 47) / 48
  | .ana => ((t * 48 / 3125 + 1) * 3125 + 47) / 48
  | _ => t

/-- Every pending swap that waits for a boundary, of the sets that it concerns, in order of acceptance (R18); a set whose unit accepted the
ENACT in this same cycle waits for the following boundary (R19). -/
def swapAt (now : Now) (b : Boundary) (p : SetId → Bool) (cd : Clock × Dev) : Clock × Dev :=
  ((cd.2.regs.swaps.filter (fun w => decide (w.at_ = b) && p w.set && decide (nextCycle w.set w.since ≤ now.dtime))).map Swap.set).foldl
    (fun (e : Clock × Dev) x => swapSet now x e) cd

/-- The tick from which a pending swap may be done (R19). -/
def Dev.swapFrom (d : Dev) (x : SetId) : Nat := match d.regs.swaps.find? (fun w => decide (w.set = x)) with
  | some w => nextCycle x w.since
  | none => 0

/-- SHADOW_SWAP (R19): the set's pending swap is done if its NOW, IDLE or SEQUENCE boundary is here, in the cycle after its acceptance at the
earliest; a swap at FRAME, ROW or GAP is part of the row that is that boundary (log 132). -/
def State.shadowSwap (s : State) (x : SetId) : State :=
  match s.dev.swapOf x with
  | some b =>
    if s.dev.atBoundary x b then
      let s := s.reach (s.dev.swapFrom x)
      let r := swapSet s.now x (s.clock, s.dev)
      { s with clock := r.1, dev := r.2 }
    else s
  | none => s

def execSpsStop (extra : Nat) (key : BitVec 16) (s : State) : Result :=
  s.act (fun now d => (d.spsStop now.dtime extra key.toNat).shutWatch now.dtime)
def execShadowSwap (x : SetId) (s : State) : Result := .next (if s.running then s.shadowSwap x else s)

end Sys2Proof.Machine
end

