-- ==== Sys2Proof/Machine/Reset.lean ====
section
/-! DEFINITION. Machine/Reset.lean: supplies, PLLs, the three kinds of reset and what each keeps, pin releases, and flash boot (R426 to R444). -/
namespace Sys2Proof.Machine

def Dev.updPw (d : Dev) (f : Power → Power) : Dev := { d with pw := f d.pw }

/-- A record of global control with its flag (R441): unit 3 reset control, unit 1 fuses, unit 0 a PLL by element. -/
def Dev.glFault (d : Dev) (t unit code detail : Nat) : Dev := d.faultFlag t unit code detail Reg.GL_FAULT (code - 1)

/-! ## Cold reset (R428, R430, R433) -/

/-- What a cold reset leaves of the device until it completes: nothing but the model's own fields and the TAP's instruction. -/
def Dev.coldClear (d : Dev) (cause : Nat) : Dev :=
  { Dev.reset with
    free := d.free
    sent := d.sent
    tap := { d.tap with key := false }
    pw := { Power.reset with
      phase := .cold, core := false, peri := false, drive := false, selftest := false, cause := cause, serial := d.pw.serial, check := d.pw.check } }

/-- A cold reset begins (R428, R430 step 1): the PLLs start to lock, and DTIME does not count until the DRIVE PLL has locked (R31). -/
def State.coldStart (s : State) (cause : Nat) : State :=
  { s with clock := ⟨0, false, 0, 0⟩, mem := Mem.reset, dev := s.dev.coldClear cause }

/-- The trim sets at their nominal codes (R442). -/
def Dev.nominalTrims (d : Dev) : Dev :=
  (List.range 5).foldl (fun (d : Dev) k => (List.range 4).foldl (fun (d : Dev) w => d.wr (Reg.TR_SETk_Ww k w) (Config.nominalTrim k w &&& BitVec.ofNat 32 (regMask (Reg.TR_SETk_Ww k w)))) d) d

/-- Fuse areas that fail their check (R430 step 4, R441, R442). -/
def Dev.fuseReport (d : Dev) (t : Nat) (bad : BitVec 4) : Dev :=
  let d := (List.range 4).foldl (fun (d : Dev) i => if nbit bad.toNat i then d.glFault t (uid 0 1 0) 2 (i + 1) else d) d
  if nbit bad.toNat 1 then d.nominalTrims else d

/-- The rows of bank i (R389: 0 to 15 of frame memory, 16 to 31 of the last store) in a list of them. -/
def rowsOf (l : List (Bool × Fin 16 × Fin 256)) (i : Nat) : Nat :=
  ((l.filter (fun x => decide (x.2.1.val + 16 * b2n x.1 = i))).map (fun x => x.2.2.val)).sum

/-- A bank whose failing rows found spares on top of its factory map (R430 step 6, R441). -/
def Dev.repairReport (d : Dev) (t i factory failed : Nat) : Dev :=
  let d := if 16 ≤ i then d.putFld (Reg.FB_LSb_STATUS (i - 16)) 11 8 (factory + failed) else d
  let d := d.updFab (fun f => { f with spares := SMap.set 0 f.spares i (factory + failed), factory := SMap.set 0 f.factory i factory })
  if failed = 0 then d else d.glFault t (uid 0 3 0) 3 (i % 16 + 32 * (i / 16) + 256 * failed)

/-- A bank that needs more spares than it has: its range is gone (R430 step 6, R441, R454). -/
def Dev.retireReport (d : Dev) (t i : Nat) : Dev :=
  let d := if 16 ≤ i then (d.putFld (Reg.FB_LSb_STATUS (i - 16)) 23 16 0).flag (Reg.FB_LSb_STATUS (i - 16)) 4
    else d.updFab (fun f => { f with retired := f.retired ++ [(i, i)] })
  d.glFault t (uid 0 3 0) 4 (i % 16 + 32 * (i / 16))

/-- What the self-test leaves of the banks, frame memory first (R430 step 6); without a factory map where its fuses fail (R442). -/
def Dev.mapSpares (d : Dev) (t : Nat) (rep : ColdReport) : Dev :=
  (List.range 32).foldl (fun (d : Dev) i =>
    let factory := if nbit rep.fuseBad.toNat 2 then 0 else rowsOf rep.factory i
    let failed := rowsOf rep.failed i
    if spareRows i < factory + failed then d.retireReport t i
    else if factory + failed = 0 then d
    else d.repairReport t i factory failed) d

/-- The fuse areas that fail their check: the serial number's is the CRC-8 of R262 over its bytes (R437). -/
def fuseFails (rep : ColdReport) : BitVec 4 :=
  rep.fuseBad ||| (if crc8 (leBytes 8 rep.serial.toNat) = rep.check.toNat then 0 else 1)

/-- Live and shadow copies of a register take a value (R440). -/
def Dev.setBoth (d : Dev) (a : Nat) (v : Word) : Dev := (d.wr a v).swr a v

/-- Flash boot begins (R440 steps 1 and 2); the fixed feature bit of XIP boot is active (R421). -/
def Dev.flashBoot (d : Dev) : Dev :=
  let d := d.wr (Reg.HX_FEAT_ACTIVEw 0) 0x101
  let d := d.updPw (fun p => { p with rel0 := p.rel0 ||| 0x40000, rel1 := p.rel1 ||| 0x100000 })
  ((d.setBoth (Reg.SP_Mn_CFG 0) 0x701).setBoth (Reg.SP_Mn_SEL 0) 0x02020025).setBoth Reg.SP_XIP_CFG 0x1A030001

/-- Reset complete (R430 step 7): the loader window and the feature window open, and flash boot begins if the strap chose it; other causes of
the cycle that began the reset are past. -/
def Dev.resetComplete (d : Dev) (t : Nat) : Dev :=
  let up := (d.hx.links.any (fun l => l.2.active))
  let d := d.updPw (fun p => { p with phase := .running, bootValid := false, bootFallback := false, warmFrom := none })
  let d := d.updHx (fun h => { h with loader := true, window := 0, openAt := t, firstActive := if up then some t else none, xipStart := none })
  if d.pw.strap then d.flashBoot else d

/-- The end of a cold reset, once every PLL has locked (R430). -/
def Dev.coldDone (d : Dev) (t : Nat) (strap : Bool) (rep : ColdReport) : Dev :=
  let d := d.updPw (fun p => { p with
    fuseErr := decide ((fuseFails rep) ≠ 0), fuseBad := fuseFails rep, serial := rep.serial, check := rep.check, selftest := true, strap := strap })
  (((d.fuseReport t (fuseFails rep)).mapSpares t rep)).resetComplete t

/-! ## Warm reset (R429, R431 to R433) -/

/-- Registers of DTIME's position half and of the encoders, which run on (R433). -/
def encReg (a : Nat) : Bool :=
  (decide (Reg.WP_CFG ≤ a) && decide (a ≤ Reg.WP_SLIP_RATIO)) || decide (a = Reg.WP_SPEED) || decide (a = Reg.WP_FAULT) ||
    (decide (Reg.WP_ENCn_CFG 0 ≤ a) && decide (a < Reg.WP_ENCn_CFG 4))

/-- Registers that a warm reset keeps: those of the position, retired last-store banks, and the trims (R433, R459). -/
def keptReg (a : Nat) : Bool :=
  encReg a || (decide (Reg.FB_LSb_STATUS 0 ≤ a) && decide (a < Reg.FB_LSb_STATUS 16) && decide (a % 8 = 0)) ||
    (decide (Reg.TR_SETk_Ww 0 0 ≤ a) && decide (a < Reg.TR_SETk_Ww 5 0)) || decide (a = Reg.TR_BG) || decide (a = Reg.TR_IEX)

/-- The generations of units that run on. -/
def keptGen : SetId → Bool
  | .wp u => decide (u.val < 5)
  | _ => false

/-- What the causes of a warm reset look at: the device as it runs, or as a warm reset of this CORE cycle found it (R429). -/
def Dev.warmView (d : Dev) : WarmFrom :=
  if d.pw.phase = .running then ⟨d.pw.firstKey, d.rd Reg.GL_WDOG, d.pw.wdogFrom, d.bit Reg.GL_CFG 0⟩
  else d.pw.warmFrom.getD ⟨none, 0, 0, false⟩

/-- The converters under a warm reset: the bandgap pair and codes in force stay (R433). -/
def Dev.adcKept (d : Dev) : SMap Adc :=
  (List.range 4).foldl (fun m x =>
    let a := SMap.get Adc.reset d.an x
    SMap.set Adc.reset m x { Adc.reset with pair := a.pair, cells := a.cells }) []

/-- What a warm reset keeps of the device (R433); pin releases and everything else go. -/
def Dev.warmClear (d : Dev) (cause : Nat) : Dev :=
  ({ Dev.reset with
    free := d.free
    sent := d.sent
    regs := { Regs.reset with
      live := d.regs.live.filter (fun p => keptReg p.1)
      shadow := d.regs.shadow.filter (fun p => encReg p.1)
      gens := d.regs.gens.filter (fun g => keptGen g.1) }
    flt := { d.flt with active := false }
    web := { Web.reset with enc := d.web.enc, slip := d.web.slip }
    fab := { Fabric.reset with poisonFrame := d.fab.poisonFrame, poisonLast := d.fab.poisonLast, spares := d.fab.spares, factory := d.fab.factory, retired := d.fab.retired }
    an := d.adcKept
    hx := { HostUnit.reset with links := d.hx.links, waiting := d.hx.waiting }
    trim := d.trim
    tap := { d.tap with key := false }
    pw := { d.pw with
      phase := .warm cause, rel0 := 0, rel1 := 0, hold0 := 0, hold1 := 0, warmFrom := some d.warmView, firstKey := none, wdogFrom := 0, urst := none,
      urstStat := 0, urstUnit := 0 } } : Dev).putFld Reg.AN_REF_STATUS 7 4 (d.fld Reg.AN_REF_STATUS 7 4)

/-- A warm cause (R428, R429): it begins a warm reset while the device runs; during one it is ignored, but a PLL loss restarts it, and of the
causes of one CORE cycle the lowest code counts; a cold reset goes on. -/
def State.warmStart (s : State) (cause : Nat) : State :=
  let t := s.clock.dtime
  let start := fun (c : Nat) => { s with dev := (s.dev.warmClear c).updPw (fun p => { p with warmAt := t }) }
  match s.dev.pw.phase with
  | .running => start cause
  | .warm c =>
    if coreCycles t = coreCycles s.dev.pw.warmAt then { s with dev := s.dev.updPw (fun p => { p with phase := .warm (min c cause) }) }
    else if cause = 8 then { start cause with dev := (start cause).dev.updPw (fun p => { p with warmFrom := none }) }
    else s
  | .cold => s
  | .off => s

/-- The end of a warm reset (R431): as at reset complete, with its cause and a record. -/
def Dev.warmDone (d : Dev) (t cause : Nat) : Dev :=
  let d := d.updPw (fun p => { p with cause := cause, warmCount := min 65535 (p.warmCount + 1) })
  (d.glFault t (uid 0 3 0) 1 cause).resetComplete t

/-! ## PLLs (R430, R441, R444) -/

/-- Whether a PLL is locked: 0 CORE, 1 PERI, 2 DRIVE. -/
def Power.locked (p : Power) (i : Nat) : Bool := if i = 0 then p.core else if i = 1 then p.peri else p.drive
def Power.setLock (p : Power) (i : Nat) (v : Bool) : Power :=
  if i = 0 then { p with core := v } else if i = 1 then { p with peri := v } else { p with drive := v }

/-- Supplies are in range: the PLLs work. -/
def Dev.powered (d : Dev) : Bool := decide (d.pw.phase ≠ .off)

/-- A PLL locks: the DRIVE PLL's lock starts DTIME after a cold reset (R31, R430 step 3). -/
def State.pllLock (s : State) (p : Nat) : State :=
  if s.dev.powered = false ∨ s.dev.pw.locked p = true then s
  else
    let d := s.dev.updPw (fun w => w.setLock p true)
    { s with clock := if p = 2 then { s.clock with drive := true } else s.clock, dev := if p = 0 then d.linksTrain else d }

/-- A lock attempt restarts (R430). -/
def State.pllRetry (s : State) (p : Nat) : State :=
  if s.dev.powered = false ∨ s.dev.pw.locked p = true then s
  else { s with dev := s.dev.updPw (fun w => { w with attempts := w.attempts.set p (w.attempts.getD p 1 + 1) }) }

/-- A PLL drops out of lock (R441): its record gives the lock attempts, and a new lock begins. -/
def State.pllLost (s : State) (p : Nat) : State :=
  if s.dev.powered = false ∨ s.dev.pw.locked p = false then s
  else
    let d := s.dev.glFault s.clock.dtime (uid 0 0 (1 + p)) 5 (s.dev.pw.attempts.getD p 1)
    { s with dev := d.updPw (fun w => { w.setLock p false with attempts := w.attempts.set p 1 }) }

/-! ## GL_RST, watchdog (R428, R443, R444) -/

/-- A cause of a warm reset still counts: the device runs, or a warm reset began in this CORE cycle (R429). -/
def State.sees (s : State) : Bool :=
  match s.dev.pw.phase with
  | .running => true
  | .warm _ => decide (coreCycles s.clock.dtime = coreCycles s.dev.pw.warmAt)
  | _ => false

/-- GL_RST is written. -/
def State.rstWrite (s : State) (who : Reader) (v : Word) : State :=
  let core := match who with
    | .core _ => true
    | _ => false
  let second := match s.dev.warmView.key with
    | some (w, t) => decide (w = who) && decide (s.clock.dtime ≤ t + 400000) && decide (v = 0x5AA5)
    | none => false
  if core && second then s.warmStart 4
  else if s.running then
    { s with dev := s.dev.updPw (fun p => { p with firstKey := if core && decide (v = 0xA55A) then some (who, s.clock.dtime) else none }) }
  else s

def Dev.wdogWrite (d : Dev) (t : Nat) (v : Word) : Dev :=
  (d.wr Reg.GL_WDOG (v &&& 0x80FFFFFF)).updPw (fun p => { p with wdogFrom := t })
def Dev.wdogKick (d : Dev) (t : Nat) (v : Word) : Dev :=
  if v.toNat % 65536 = 0xC0DE then d.updPw (fun p => { p with wdogFrom := t }) else d

/-- When the watchdog expires; a period of 0, outside its range, gives a free time (log 120). -/
def Dev.wdogDue (d : Dev) : Option Nat :=
  let w := d.warmView
  if nbit w.wdog.toNat 31 then
    let n := nfld w.wdog.toNat 23 0
    some (w.wdogFrom + (if n = 0 then Config.freeValue d.free else 65536 * n))
  else none

/-- The watchdog has expired at t (R444): its record, and its cause. -/
def State.wdogExpire (s : State) (t : Nat) : State :=
  if s.running then
    let s := s.reach t
    { s with dev := s.dev.glFault s.clock.dtime (uid 0 3 0) 7 (s.clock.dtime % 2 ^ 32) }.warmStart 5
  else if coreCycles t ≤ coreCycles s.clock.dtime then
    { s with dev := s.dev.fault s.clock.dtime (uid 0 3 0) 7 (s.clock.dtime % 2 ^ 32) }.warmStart 5
  else s

/-! ## Unit resets (R434, and the unit-reset rule of each chapter) -/

/-- A unit that has a unit reset (R13, R401, R434, R450, R452). -/
def hasUnitReset (id : Nat) : Bool :=
  let u := id / 32 % 64
  match id / 2048 with
  | 0 => decide (u = 2)
  | 1 => decide (u < 2)
  | 2 => decide (u < 4) || decide (u = 5)
  | 3 => false
  | 4 => decide (u < 8)
  | 5 => decide (u < 2)
  | 6 => decide (u < 4)
  | 7 => decide (u < 3)
  | 8 => decide (u = 0)
  | 9 => decide (u < 9)
  | 10 => decide (u < 8)
  | 11 => decide (1 ≤ u) && decide (u < 20)
  | 12 => decide (u < 7)
  | 13 => decide (u < 6)
  | 14 => decide (u = 2)
  | _ => false

/-- GL_URST is written (R434, R443). -/
def Dev.unitResetRequest (d : Dev) (v : Word) : Dev :=
  let id := v.toNat % 65536 / 32 * 32
  if d.pw.urst.isSome then d
  else if hasUnitReset id = false then d.updPw (fun p => { p with urstStat := 2, urstUnit := id })
  else if d.inService id then d.updPw (fun p => { p with urstStat := 3, urstUnit := id })
  else d.updPw (fun p => { p with urst := some ⟨id⟩, urstStat := 1, urstUnit := id, firstKey := none })

/-- The interpolation engine: its build begins again (R452). -/
def Dev.engineReset (d : Dev) : Dev := d.updLt (fun l => match l.cur with
  | some (b, _) => { l with cur := none, queue := b :: l.queue }
  | none => l)

/-- Units of the last store (R452): each head keeps its working set. -/
def Dev.ltUnitReset (d : Dev) (u : Nat) : Dev :=
  match u with
  | 0 => d.engineReset
  | 1 => d.updLt (fun l => { l with forced := [] })
  | 3 => d.balanceWindow
  | _ => d

/-- The map engine: every open row is forced (R452). -/
def Dev.mapReset (d : Dev) (now : Now) : Dev :=
  (List.range 4).foldl (fun (d : Dev) l =>
    let y := d.layer l
    let n := d.layerRg l
    if y.on = false ∨ y.drain.isSome = true then d
    else
      let o := sgn 64 (d.rd64 (Reg.WP_RGn_ORIGIN_LO n))
      d.setLayer l { y with drain := some (y.kFirst + d.layerOpen l - 1, firstRowBeyond o (d.rgPitch n) now.wpos, o, d.rgPitch n) }) d

/-- Units of map and statistics (R452): a statistics unit discards the records that wait. -/
def Dev.wmUnitReset (d : Dev) (now : Now) (u : Nat) : Dev :=
  if u = 0 then d.mapReset now else d.updWm (fun w => { w with stats := SMap.set [] w.stats (u - 1) [] })

/-- Banks, and the spare engine: idle unless it serves a bank (R220, R452). -/
def Dev.engineUnitReset (d : Dev) (t u : Nat) : Dev :=
  if u < 8 then d.vbUnitReset t u
  else if d.spare.state = 1 ∨ d.spare.state = 2 then d else { d with spare := { Spare.reset with healthy := d.spare.healthy } }

/-- A link's descriptor goes, and it trains again (R266, R268). -/
def Dev.linkUnitReset (d : Dev) (t b : Nat) : Dev := ((d.updBlink b (fun x => { x with desc := none })).blRetrain t b).shutWatch t

/-- Serial ports, SPS and pins (R318). -/
def Dev.serialUnitReset (d : Dev) (t u : Nat) : Dev :=
  if u < 4 then d.spUnitReset t u else if u = 4 then d.spsUnitReset else d.wrN Reg.GP_EDGE 0

/-- What a unit reset does to its unit (R434). -/
def Dev.unitEffect (d : Dev) (now : Now) (id : Nat) : Dev :=
  let t := now.dtime
  let u := id / 32 % 64
  match id / 2048 with
  | 1 => d.linkRetrain t u
  | 2 => if u < 4 then d.coreLost t u 0 else d.admissionReset t
  | 4 => (d.hpUnitReset t u).frameOver d u
  | 5 => d.plUnitReset u
  | 6 => d.ltUnitReset u
  | 7 => d.wmUnitReset now u
  | 8 => d.bvUnitReset
  | 9 => d.engineUnitReset t u
  | 10 => d.linkUnitReset t u
  | 11 => d.wpUnitReset t u
  | 12 => if u < 4 then d.adcUnitReset t u else d
  | 13 => d.serialUnitReset t u
  | 14 => { d with trim := { d.trim with last := t } }
  | _ => d

/-- The set whose generation a unit reset returns to 0 (R7, R21): a bank link and the admission unit have one of their own. -/
def genOf (id : Nat) : Option SetId :=
  match idSet id with
  | some (.vb b) => if id / 2048 = 10 then some (.bl b) else some (.vb b)
  | some .tk => if id / 32 % 64 = 5 then some .am else some .tk
  | x => x

/-- A unit is reset: its effects, no pending swap, generation 0 (R7, R21). -/
def Dev.unitReset (d : Dev) (now : Now) (id : Nat) : Dev :=
  let d := (d.updPw (fun p => { p with firstKey := none })).unitEffect now id
  let d := match idSet id with
    | some x => d.dropSwap x
    | none => d
  match genOf id with
  | some x => d.setGen x 0
  | none => d

/-- The held unit is released (R434). -/
def Dev.unitResetDone (d : Dev) (now : Now) : Dev :=
  match d.pw.urst with
  | some r => (d.updPw (fun p => { p with urst := none, urstStat := 0 })).unitReset now r.unit
  | none => d

/-- A function's own reset (R432): its MSI-X table masked, nothing pending, D0. -/
def Dev.functionReset (d : Dev) (l : Nat) : Dev := d.updLink l (fun x => { x with msix := [], pend := [], later := [], d3hot := false })

/-- A Function Level Reset (R428, R432); one in a later cycle of a warm reset resets the function alone. -/
def State.flr (s : State) (l : Nat) : State :=
  let s' := { s with dev := s.dev.functionReset l }
  if s.sees = true ∧ s.dev.warmView.flrWarm = true then s'.warmStart (6 + l)
  else if s.running then { s' with dev := s'.dev.unitReset s.now (uid 1 l 0) }
  else s'

/-! ## Pins (R436) -/

/-- The pins of a hold register that a write of this CORE cycle has held (R436; log 182). -/
def Power.heldIn (p : Power) (t : Nat) (reg1 : Bool) : Word :=
  if coreCycles t = coreCycles p.holdAt then (if reg1 then p.hold1 else p.hold0) else 0
/-- PIN_RELEASE (R436): a pin that the same CORE cycle holds stays held. -/
def Dev.pinRelease (d : Dev) (t : Nat) (reg1 : Bool) (v : Word) : Dev :=
  d.updPw (fun p =>
    let v := v &&& ~~~(p.heldIn t reg1)
    if reg1 then { p with rel1 := p.rel1 ||| (v &&& 0xFFFFFFF) } else { p with rel0 := p.rel0 ||| (v &&& 0xFFFFF) })
def Dev.pinHold (d : Dev) (t : Nat) (reg1 : Bool) (v : Word) : Dev :=
  d.updPw (fun p =>
    let h0 := p.heldIn t false
    let h1 := p.heldIn t true
    let p := { p with holdAt := t, hold0 := if reg1 then h0 else h0 ||| v, hold1 := if reg1 then h1 ||| v else h1 }
    if reg1 then { p with rel1 := p.rel1 &&& ~~~v } else { p with rel0 := p.rel0 &&& ~~~v })

/-! ## The boot header (R440) -/

/-- What is wrong with a boot header: [0] magic, [1] CRC, [2] entry offset (R441). -/
def headerErrors (bytes : List Byte) : Nat :=
  let b := fun (i n : Nat) => leNat ((bytes.drop i).take n)
  b2n (decide (b 0 4 ≠ 0x54425A4D)) + 2 * b2n (decide (bytes.length ≠ 32 ∨ b 28 4 ≠ crc32 (bytes.take 28))) +
    4 * b2n (decide (b 4 4 % 4 ≠ 0 ∨ 2 ^ 26 ≤ b 4 4))

/-- Context 0 on T0 with the entry that the header names: a best-effort task, released (R440). -/
def Dev.bootTask (d : Dev) (t off : Nat) : Dev :=
  let d := d.updTctx 0 (fun x => x.setUp (BitVec.ofNat 32 (0x40000000 + off)) 0 false)
  ((d.startRelease 0 t).updHx (fun h => { h with xipStart := some t })).resched t []

/-- BOOT_HEADER_READ (R440): flash boot waits for the header. -/
def Dev.bootHeader (d : Dev) (t : Nat) (bytes : List Byte) : Dev :=
  if d.pw.strap = false ∨ d.pw.bootValid = true ∨ d.pw.bootFallback = true then d
  else if headerErrors bytes = 0 then
    (d.updPw (fun p => { p with bootValid := true })).bootTask t (leNat ((bytes.drop 4).take 4))
  else
    let d := d.updPw (fun p => { p with bootFallback := true, rel0 := p.rel0 &&& 0xBFFFF, rel1 := p.rel1 &&& 0xFEFFFFF })
    let d := d.wr Reg.SP_XIP_CFG (d.rd Reg.SP_XIP_CFG &&& 0xFFFFFFFE)
    let d := d.swr Reg.SP_XIP_CFG (d.srd Reg.SP_XIP_CFG &&& 0xFFFFFFFE)
    d.glFault t (uid 0 3 0) 6 (headerErrors bytes)

/-! ## Commands -/

def execPowerOn (s : State) : Result :=
  .next (if s.dev.pw.phase = .off then
    let s := s.coldStart 1
    { s with dev := { s.dev with tap := Tap.reset } }
  else s)

/-- SUPPLY_OUT_OF_RANGE (R426): every pin is high-impedance, and nothing runs until the supplies are back. -/
def execSupplyOutOfRange (s : State) : Result :=
  let s := s.coldStart 1
  .next { s with dev := s.dev.updPw (fun p => { p with phase := .off }) }

/-- RST_N_ASSERT (R427): a low level of at least 1 µs. -/
def execRstNAssert (ns : Nat) (s : State) : Result :=
  .next (if 1000 ≤ ns ∧ s.dev.powered = true then s.coldStart 2 else s)

def execColdReset (strap : Bool) (rep : ColdReport) (s : State) : Result :=
  .next (if s.dev.pw.phase = .cold ∧ s.dev.pw.core = true ∧ s.dev.pw.peri = true ∧ s.dev.pw.drive = true then
    { s with dev := s.dev.coldDone s.clock.dtime strap rep }
  else s)

def execPllLock (p : Fin 3) (s : State) : Result := .next (s.pllLock p)
def execPllLockRetry (p : Fin 3) (s : State) : Result := .next (s.pllRetry p)
def execPllLockLost (p : Fin 3) (s : State) : Result := .next (s.pllLost p)

/-- DRIVE_PLL_LOCK_LOSS (R428): out of lock for 10 µs. -/
def execDrivePllLockLoss (s : State) : Result :=
  .next (if s.dev.powered = true ∧ s.dev.pw.drive = false ∧ (s.dev.pw.phase ≠ .cold ∨ s.clock.drive = true) then s.coldStart 3 else s)

/-- CORE_PERI_PLL_LOCK_LOSS (R428): out of lock for 10 µs. -/
def execCorePeriPllLockLoss (peri : Bool) (s : State) : Result :=
  .next (if s.dev.pw.locked (b2n peri) then s else s.warmStart 8)

def execGlRstWrite (who : Reader) (v : Word) (s : State) : Result := .next (if s.sees then s.rstWrite who v else s)
/-- GL_RST_PAIR_EXPIRE (R428): 400,000 ticks after the first key. -/
def execGlRstPairExpire (s : State) : Result :=
  s.actDue (fun _ d => d.pw.firstKey.map (fun k => k.2 + 400000)) (fun _ d => d.updPw (fun p => { p with firstKey := none }))
def execWatchdogWrite (v : Word) (s : State) : Result := s.act (fun now d => d.wdogWrite now.dtime v)
def execWatchdogKick (v : Word) (s : State) : Result := s.act (fun now d => d.wdogKick now.dtime v)
/-- WATCHDOG_EXPIRY (R444). -/
def execWatchdogExpiry (s : State) : Result :=
  .next (if s.sees then
    match s.dev.wdogDue with
    | some t => s.wdogExpire t
    | none => s
  else s)
def execFunctionLevelReset (l : Fin 2) (s : State) : Result := .next (if s.dev.powered = true ∧ s.dev.pw.phase ≠ .cold then s.flr l else s)
def execUnitResetRequest (v : Word) (s : State) : Result := s.act (fun _ d => d.unitResetRequest v)
def execUnitResetDone (s : State) : Result := s.actWr 13 (fun now _ d => (d.unitResetDone now, []))
def execPinRelease (reg1 : Bool) (v : Word) (s : State) : Result := s.act (fun now d => d.pinRelease now.dtime reg1 v)
def execPinHold (reg1 : Bool) (v : Word) (s : State) : Result := s.act (fun now d => d.pinHold now.dtime reg1 v)
def execBootHeaderRead (bytes : List Byte) (s : State) : Result := s.act (fun now d => d.bootHeader now.dtime bytes)

end Sys2Proof.Machine
end

