-- ==== Sys2Proof/Machine/Service.lean ====
section
/-! DEFINITION. Machine/Service.lean: the fault log, its mirror and its escalation (R460 to R463), the trim engine (R457 to R459), and the rows of
the maintenance ledger, the cobbler and the last store that other files' operations make up (R119, R128, R137, R138, R369, R389, R445 to R456). -/
namespace Sys2Proof.Machine

/-! ## The fault log (R460 to R463) -/

/-- The 16 bytes of a record as four words (R460). -/
def FaultRec.words (r : FaultRec) : List Word :=
  [BitVec.ofNat 32 r.dtime, BitVec.ofNat 32 (r.dtime / 2 ^ 32), BitVec.ofNat 32 (r.unit % 65536 + 65536 * (r.code % 65536)), r.detail]

/-- The action of a record: that of the first enabled entry that matches it (R462). -/
def Dev.escalation (d : Dev) (r : FaultRec) : Nat :=
  match (List.range 32).find? (fun e =>
    let v := d.rdN (Reg.SV_ESCe e)
    nbit v 31 && decide (nfld v 19 16 = r.unit / 2048) && (nbit v 22 || decide (nfld v 15 0 = r.code))) with
  | some e => d.fld (Reg.SV_ESCe e) 21 20
  | none => 0

/-- The mirror's copy of a record (R461). -/
def Dev.mirrorRec (d : Dev) (t : Nat) (r : FaultRec) : Dev :=
  if d.bit Reg.SV_CFG 1 then (d.ringOffer t (d.fld Reg.SV_CFG 6 2) r.words).getD (d.bump Reg.SV_CNT_UNMIRROR) else d

/-- SV_FLT.active is set (R463). -/
def Dev.setActive (d : Dev) (t : Nat) : Dev := { d with flt := { d.flt with active := true, setAt := some t } }

/-- A clear command: one in the CORE cycle of a set leaves it set (R463). -/
def Dev.clearActive (d : Dev) (t : Nat) : Dev :=
  if d.flt.setAt.map coreCycles = some (coreCycles t) then d else { d with flt := { d.flt with active := false } }

/-- What an action does, but for the warm reset of action 3 (R462). -/
def Dev.escalate (d : Dev) (t act : Nat) : Dev :=
  let d := if act = 0 then d else d.setActive t
  if act = 2 then (d.safeStopBanks t).shutWatch t else d

/-- One record enters the log: the newest 512 stay; the mirror, the fault vector (R416) and the escalation follow. -/
def Dev.logRec (d : Dev) (t : Nat) (r : FaultRec) : Dev × Bool :=
  let act := d.escalation r
  let d := { d with flt := { d.flt with log := r :: d.flt.log.take 511, count := d.flt.count + 1 } }
  let d := d.mirrorRec t r
  let d := if d.bit Reg.HX_CFG 30 then d.msixRaise d.directLink (d.fld Reg.HX_CFG 29 24) else d
  (d.escalate t act, decide (act = 3))

/-- The record of the number lost, which precedes the next record (R461, R464). -/
def Dev.lostRec (d : Dev) (t : Nat) : Dev × Bool :=
  if d.flt.lost = 0 then (d, false)
  else
    let n := min (2 ^ 32 - 1) d.flt.lost
    let d := { d with flt := { d.flt with lost := 0 } }
    (d.flag Reg.SV_FAULT 7).logRec t ⟨t, uid 14 0 0, 8, BitVec.ofNat 32 n⟩

/-- The record of least unit identifier, the oldest of several. -/
def leastUnit (r : FaultRec) : List FaultRec → FaultRec
  | [] => r
  | x :: l => leastUnit (if x.unit < r.unit then x else r) l

/-- The record that enters next, and the queue without it: the oldest, and among those of its CORE cycle the least unit identifier (R461). -/
def firstRec : List FaultRec → Option (FaultRec × List FaultRec)
  | [] => none
  | r :: l =>
    let x := leastUnit r (l.takeWhile (fun y => decide (coreCycles y.dtime = coreCycles r.dtime)))
    some (x, (r :: l).erase x)

/-- The next record of the queue enters the log (R461). -/
def Dev.enterRec (d : Dev) (t : Nat) : Dev × Bool :=
  match firstRec d.flt.queue with
  | none => (d, false)
  | some (r, q) =>
    let x := ({ d with flt := { d.flt with queue := q } } : Dev).lostRec t
    let y := x.1.logRec t r
    (y.1, x.2 || y.2)

def State.enterRec (s : State) : State :=
  let r := s.dev.enterRec s.clock.dtime
  let s := { s with dev := r.1 }
  if r.2 then s.warmStart 10 else s

/-! ## Trims (R457 to R459) -/

/-- Insert into a list that rises. -/
def insertUp (x : Int) : List Int → List Int
  | [] => [x]
  | y :: l => if x ≤ y then x :: y :: l else y :: insertUp x l
def sortUp (l : List Int) : List Int := l.foldr insertUp []

/-- The median; of an even number, floor((a + b) / 2) of the middle two (R458). -/
def median (l : List Int) : Option Int :=
  if l.isEmpty then none
  else
    let s := sortUp l
    let n := s.length
    some (if n % 2 = 1 then s.getD (n / 2) 0 else (s.getD (n / 2 - 1) 0 + s.getD (n / 2) 0) / 2)

/-- The knots (R459). -/
def knot (k : Nat) : Int := 16202 + 1920 * (k : Int)

/-- Code j of trim set k: 0 to 3 bandgap, 4 and 5 IEX levels, 6 termination offset, 7 to 12 sensor offsets (R459, R468). -/
def Dev.setCode (d : Dev) (k j : Nat) : Int :=
  let b := if j < 7 then j else j + 1
  sgn 8 (nfld (d.rdN (Reg.TR_SETk_Ww k (b / 4))) (8 * (b % 4) + 7) (8 * (b % 4)))

/-- The highest knot index, at most 3, whose knot is not above T (R459). -/
def knotBelow (t : Int) : Nat := if knot 3 ≤ t then 3 else if knot 2 ≤ t then 2 else if knot 1 ≤ t then 1 else 0

/-- A code at die temperature T (R459). -/
def Dev.codeAt (d : Dev) (t : Int) (j : Nat) : Int :=
  let t := clampI 16202 23882 t
  let i := knotBelow t
  d.setCode i j + (2 * (d.setCode (i + 1) j - d.setCode i j) * (t - knot i) + 1920) / 3840

/-- The offset of a sensor in force: none is stated before the first tick (log 121). -/
def Dev.sensOffset (d : Dev) (s : Nat) : Int :=
  match d.trim.codes[7 + s]? with
  | some c => c
  | none => sgn 8 (Config.freeValue (d.free + s))

/-- A sensor against the median of the others (R457). -/
def sensorOff (lim : Nat) (vals : List Int) (s : Nat) : Bool :=
  match median (vals.eraseIdx s) with
  | some m => decide (4 * lim < (vals.getD s 0 - m).natAbs)
  | none => false

/-- Die temperature, codes and sensors (R457 to R459). -/
def Dev.trimSensors (d : Dev) (t : Nat) (sens : List Nat) : Dev :=
  let raw := fun (s : Nat) => (sens.getD s 0 : Int)
  let valid := (List.range 6).filter (fun s => !d.trim.out.contains s)
  let held := d.fld Reg.TR_DIE 15 0
  let t0 := (median (valid.map (fun s => raw s + d.sensOffset s))).getD held
  let d := { d with free := d.free + 6 }
  let codes := (List.range 13).map (d.codeAt t0)
  let vals := (List.range 6).map (fun s => raw s + codes.getD (7 + s) 0)
  let die := (median (valid.map (fun s => vals.getD s 0))).getD held
  let out := (List.range 6).filter (sensorOff (d.fld Reg.TR_CFG 31 24) vals)
  let new := out.any (fun s => !d.trim.out.contains s)
  let was := d.trim.out
  let d := { d with trim := { d.trim with codes := codes, out := out } }
  let d := (List.range 6).foldl (fun (d : Dev) s =>
    d.wrN (Reg.TR_SENSs s) (unsgn 16 (vals.getD s 0) + 65536 * b2n (was.contains s))) d
  let d := d.wrN Reg.TR_DIE (unsgn 16 die + 65536 * maskOf valid)
  let d := if valid.isEmpty then d.flag Reg.TR_STATUS 1 else d.clrBits Reg.TR_STATUS 2
  if new = true ∨ valid.isEmpty = true then
    d.faultFlag t (uid 14 2 0) 6 (maskOf ((List.range 6).filter (fun s => !out.contains s))) Reg.TR_FAULT 1
  else d

/-- The pairs of bandgap cells, in the order of their measured differences. -/
def bgPairs : List (Nat × Nat) := [(0, 1), (0, 2), (0, 3), (1, 2), (1, 3), (2, 3)]

/-- The pair with the smallest difference, the first of several. -/
def leastPair : List ((Nat × Nat) × Nat) → Option ((Nat × Nat) × Nat)
  | [] => none
  | p :: l => match leastPair l with
    | some q => if p.2 ≤ q.2 then some p else some q
    | none => some p

/-- The choice of bandgap pair (R287, R457): differences in µV. -/
def Dev.trimBandgap (d : Dev) (t : Nat) (diffs : List Nat) : Dev :=
  let l := (List.range 6).map (fun i => (bgPairs.getD i (0, 1), diffs.getD i 0))
  let cur := ((l.find? (fun p => decide (p.1 = d.trim.pair))).map Prod.snd).getD 0
  match leastPair l with
  | none => d
  | some p =>
    if 10 * d.fld Reg.TR_CFG 15 8 < p.2 then
      if d.ana.noPair then d
      else
        let r := d.fresh
        (r.2.updAna (fun a => { a with noPair := true })).faultFlag t (uid 12 4 (1 + r.1 % 4)) 8 1 Reg.AN_FAULT 0
    else
      let take := decide (p.1 ≠ d.trim.pair) && decide (p.2 < cur) && decide (4 * p.2 ≤ 3 * cur)
      let pair := if take then p.1 else d.trim.pair
      let diff := if take then p.2 else cur
      let mask := 2 ^ pair.1 + 2 ^ pair.2
      let d := ({ d with trim := { d.trim with pair := pair } } : Dev).updAna (fun a => { a with noPair := false })
      d.wrN Reg.TR_BG (mask + 65536 * min 65535 diff)

/-- A trim record without a spare (R457, R464). -/
def Dev.noSpareElement (d : Dev) (t kind el : Nat) : Dev := d.faultFlag t (uid 14 2 0) 5 (kind + 256 * el) Reg.TR_FAULT 0

/-- The cell of source n that this tick compares with the others, by its deviations in ppm: one cell a tick, so a spare replaces it once
(R457). -/
def Dev.trimCell (d : Dev) (t : Nat) (dev : List (Fin 2 × BitVec 16)) (n : Nat) : Dev :=
  if dev.all (fun x => decide (x.1.val ≠ n ∨ x.2.toNat ≤ 64 * d.fld Reg.TR_CFG 23 16)) then d
  else
    let left := d.fld Reg.TR_IEX (4 * n + 3) (4 * n)
    if left = 0 then d.noSpareElement t 1 (n + 1)
    else
      let d := { d with trim := { d.trim with cellWait := SMap.set 0 d.trim.cellWait n (SMap.get 0 d.trim.cellWait n + 1) } }
      (d.putFld Reg.TR_IEX (4 * n + 3) (4 * n) (left - 1)).bump Reg.TR_CNT_SWAP

/-- A lane's termination: the code nearest 100 Ω plus the set offset (R457); a head in its blanking takes it at once (log 179). -/
def Dev.trimTerm (d : Dev) (x : Fin 8 × Fin 5 × Fin 32) : Dev :=
  let c := clampI 0 31 ((x.2.2.val : Int) + d.trim.codes.getD 6 0)
  let d := { d with trim := { d.trim with terms := SMap.set 0 d.trim.terms (5 * x.1.val + x.2.1.val) c.toNat } }
  if (d.hpOf x.1).openFrame = none then d.takeTerms x.1 else d

/-- A sampling phase takes one step toward the centre of its clean run, where that lies two or more away (R457, R268). -/
def stepPhase (p centre : Nat) : Nat := if p + 2 ≤ centre then p + 1 else if centre + 2 ≤ p then p - 1 else p
def Dev.trimPhase (d : Dev) (x : Fin 8 × Fin 2 × Fin 8) : Dev :=
  let b := x.1.val
  let l := d.blink b
  let cur := l.trimNext.getD (l.phase0, l.phase1)
  let new := if x.2.1.val = 0 then (stepPhase l.phase0 x.2.2.val, cur.2) else (cur.1, stepPhase l.phase1 x.2.2.val)
  if d.blOn b = false ∨ new = cur then d
  else (d.updBlink b (fun y => { y with trimNext := some new })).bump Reg.TR_CNT_SWAP

/-- The trim tick (R457): sensors first, since their temperature sets every code. `lanes` are UCIe lanes that fail with no redundant lane left;
a repair itself comes into force with LINK_TRAINED. -/
def Dev.trimTick (d : Dev) (t : Nat) (bg sens : List (BitVec 16)) (dev : List (Fin 2 × BitVec 16)) (term : List (Fin 8 × Fin 5 × Fin 32))
    (phase : List (Fin 8 × Fin 2 × Fin 8)) (lanes : List (Fin 64)) : Dev :=
  let d := { d with trim := { d.trim with last := t } }
  let d := d.trimSensors t (sens.map BitVec.toNat)
  let d := d.trimBandgap t (bg.map BitVec.toNat)
  let d := (List.range 2).foldl (fun (d : Dev) n => d.trimCell t dev n) d
  let d := term.foldl Dev.trimTerm d
  let d := phase.foldl Dev.trimPhase d
  lanes.foldl (fun (d : Dev) l => d.noSpareElement t 3 l.val) d.takeTrims

/-- When the next trim tick falls (R457). -/
def Dev.trimDue (d : Dev) : Option Nat := if d.bit Reg.TR_CFG 0 then some (d.trim.last + 2 ^ 24) else none

/-! ## Requests at the admission unit (R348, R369, R421, R447) -/

/-- The request that the admission unit takes next: ADMIT op 0 waits until the feature window has closed (R421). -/
def Dev.nextRequest (d : Dev) : Option AdmRequest :=
  d.tk.requests.find? (fun r => match r with
    | .task _ _ submit _ => !(submit && decide (d.hx.window = 0))
    | .ledger _ => true)

/-- A ledger slot's request is answered; one that was refused is told to the planner or the cobbler that made it (R138, R456). -/
def Dev.answerLedger (d : Dev) (t a : Nat) : Dev :=
  let x := d.slot a
  let d := d.answerSlot a
  let y := d.slot a
  if y.state ≠ 5 then d
  else if x.kind = 8 then d.shutRefused t x.unit (decide (x.second = 1))
  else if x.kind = 7 ∧ x.planner = true then d.svFault t 0 4 (y.code + 65536 * (x.unit - 18))
  else d

def Dev.admissionAnswer (d : Dev) (m : Mem) (t : Nat) : Dev :=
  match d.nextRequest with
  | none => d
  | some r =>
    let d := d.updTk (fun x => { x with requests := x.requests.erase r })
    match r with
    | .task c k submit arg => d.taskRequest m t c k submit arg
    | .ledger a => d.answerLedger t a

/-! ## Repair of rows (R389, R456) -/

/-- ROW_REPAIR; with auto_retire, a last-store bank without a spare row is retired (R456). -/
def Dev.repairRow (d : Dev) (t : Nat) (last : Bool) (bank row : Nat) : Dev :=
  let r := d.rowRepair t (bank + 16 * b2n last) row
  if r.2 = true ∧ last = true ∧ d.bit Reg.SV_CFG 0 = true then
    match r.1.ownRequest 7 (uid 3 (18 + bank) 0) 0 with
    | some d => d
    | none =>
      let f := r.1.fresh
      f.2.svFault t 0 4 (f.1 % 65536 + 65536 * bank)
  else r.1

/-! ## Activities (R445 to R449) -/

/-- ACTIVITY_START (R448): the start boundary has come. -/
def Dev.activityStart (d : Dev) (t a : Nat) : Dev :=
  let x := d.slot a
  if d.startDue x then
    let d := (d.slotRunning t a).startEffect t a
    if x.kind = 8 then d.shutBegin t a else d
  else d

/-- ACTIVITY_FAIL (R449). -/
def Dev.failActivity (d : Dev) (m : Mem) (t a : Nat) : Dev :=
  if (d.slot a).kind = 8 then (if (d.slot a).state = 3 ∧ d.shutStuck a = true then d.shutFail t a else d) else d.activityFail m t a

/-! ## Last store (R119, R128, R132, R137, R138) -/

/-- The last store looks for a working set for head h anew (R119, R132). -/
def Dev.searchSet (d : Dev) (m : Mem) (t h : Nat) : Dev :=
  let r := d.newSerial m t h
  if r.2 then r.1.joinForced t h true else r.1

/-- The head's records are provisional: by its region, or for want of one (R119, R133). -/
def Dev.wantsSet (d : Dev) (h : Nat) : Bool :=
  d.ltOn h && (d.headProvisional h || (match (d.lth h).region with
    | some r => r.unity
    | none => true))

/-- LT_CMD op 2 (R119). -/
def Dev.rescan (d : Dev) (m : Mem) (t : Nat) : Dev :=
  let d := (List.range 8).foldl (fun (d : Dev) i => d.wrN (Reg.LT_DIR_BAD i) 0) d
  ((List.range 8).filter d.wantsSet).foldl (fun (d : Dev) h => d.searchSet m t h) d

/-- LT_CMD op 4 (R137): the head asks at the next gap. -/
def Dev.shutGapCmd (d : Dev) (h : Nat) : Dev := if d.shutOn h then d.updLth h (fun x => { x with due := true }) else d

/-- A build finishes (R128): records written whole are no longer poisoned. A build that reads a set of host memory does not finish while the
link that carries it is in D3hot and issues no requests (R406). -/
def Dev.finishBuild (d : Dev) (m : Mem) (t : Nat) (sets : List SetRead) : Dev × List MemWrite :=
  if (d.link d.directLink).d3hot = true ∧ sets.any (fun x => x.recs.isSome) = true then (d, [])
  else
    let r := d.buildDone m t d.fab.poisonLast sets
    let done := r.2.filterMap (fun w => match w with
      | .last i _ => some i
      | _ => none)
    ((r.1.updFab (fun f => if f.poisonLast.isEmpty then f else { f with poisonLast := f.poisonLast.filter (fun i => !done.contains i) })).retireDone t, r.2)

/-- When the forced event of head h is tried again (R138). -/
def Dev.retryAt (d : Dev) (h : Nat) : Option Nat := (d.lt.forced.find? (fun x => decide (x.1 = h))).map Prod.snd

/-! ## Commands -/

def execFaultRecordEnter (s : State) : Result := .next (if s.running then s.enterRec else s)
def execFltSet (s : State) : Result := s.act (fun now d => d.setActive now.dtime)
def execFltClear (s : State) : Result := s.act (fun now d => d.clearActive now.dtime)
def execTrimTick (bg sens : List (BitVec 16)) (dev : List (Fin 2 × BitVec 16)) (term : List (Fin 8 × Fin 5 × Fin 32))
    (phase : List (Fin 8 × Fin 2 × Fin 8)) (lanes : List (Fin 64)) (s : State) : Result :=
  s.actDue (fun _ d => d.trimDue) (fun now d => d.trimTick now.dtime bg sens dev term phase lanes)
def execAdmissionAnswer (s : State) : Result := s.actMem (fun now m d => d.admissionAnswer m now.dtime)
def execRowRepair (last : Bool) (bank : Fin 16) (row : BitVec 12) (s : State) : Result :=
  s.actWr 13 (fun now _ d => (d.repairRow now.dtime last bank row.toNat, []))
def execActivityRequest (a : Fin 32) (s : State) : Result := s.act (fun _ d => d.activityRequest a)
def execActivityEnd (a : Fin 32) (s : State) : Result := s.actMem (fun now m d => d.activityEnd m now.dtime a)
def execActivityAbort (a : Fin 32) (s : State) : Result := s.actMem (fun now m d => d.activityAbort m now.dtime a)
def execActivityFree (a : Fin 32) (s : State) : Result := s.act (fun _ d => d.activityFree a)
def execActivityStart (a : Fin 32) (s : State) : Result := s.act (fun now d => d.activityStart now.dtime a)
def execActivitySelfEnd (a : Fin 32) (s : State) : Result := s.act (fun now d => d.activitySelfEnd now.dtime a)
def execActivityFail (a : Fin 32) (s : State) : Result := s.actMem (fun now m d => d.failActivity m now.dtime a)
def execFmRetireCopyLine (s : State) : Result := s.actWr 13 (fun _ m d => d.copyLine m)
def execFmRetireSwitch (s : State) : Result := s.act (fun now d => d.retireSwitch now.dtime)
def execLtRescanCmd (s : State) : Result := s.actMem (fun now m d => d.rescan m now.dtime)
def execLtShutterGapCmd (h : Fin 8) (s : State) : Result := s.act (fun _ d => d.shutGapCmd h)
def execLtShutterForcedCmd (h : Fin 8) (s : State) : Result := s.act (fun now d => d.joinForced now.dtime h false)
def execLtBuildStart (s : State) : Result :=
  s.actMem (fun now m d => ((d.poolCheck now.dtime).buildStart m now.dtime).retireDone now.dtime)
def execLtBuildDone (sets : List SetRead) (s : State) : Result := s.actWr 9 (fun now m d => d.finishBuild m now.dtime sets)
/-- LT_SHUTTER_DUE (R137). -/
def execLtShutterDue (h : Fin 8) (s : State) : Result :=
  s.actDue (fun now d => d.shutDueAt now h) (fun _ d => d.updLth h (fun x => { x with due := true }))
def execLtShutterOverdue (h : Fin 8) (s : State) : Result := s.actDue (fun _ d => d.overdueAt h) (fun now d => d.shutOverdue now.dtime h)
def execLtShutterRetry (h : Fin 8) (s : State) : Result := s.actDue (fun _ d => d.retryAt h) (fun now d => d.forcedNext now.dtime)

end Sys2Proof.Machine
end

