-- ==== Sys2Proof/Machine/Boundary.lean ====
section
/-! DEFINITION. Machine/Boundary.lean: the rows that are boundaries (R18): frame starts and ends of heads, rows, gap openings, frames at
the pipelines and the map, the ends of sequences. Each makes the pending swaps that wait for it (R19) and wakes what waits for it in other
units. A host link that trains stands here too, for it looks at the admitted load. -/
namespace Sys2Proof.Machine

/-- The pending swaps that wait for boundary b, of the sets that it concerns (R19). -/
def State.swapsAt (s : State) (b : Boundary) (p : SetId → Bool) : State :=
  let r := swapAt s.now b p (s.clock, s.dev)
  { s with clock := r.1, dev := r.2 }

/-- A command that acts on the whole state, while the device runs. -/
def State.actAll (s : State) (f : State → State) : Result := .next (if s.running then f s else s)

/-- The state with another device. -/
def State.withDev (s : State) (d : Dev) : State := { s with dev := d }

/-! ## Rows (R42) -/

/-- Banks whose ring follows generator n, for BANK_OUT (R445). -/
def Dev.ringBanks (d : Dev) (n : Nat) : List Nat := (List.range 8).filter (fun b => d.vbOn b && decide (d.ringRg b = n))

/-- ROW_EMIT (R42): the head syncs that wait for the row swap, for its event acts under their new settings (R48); the row goes to the banks
(R203) and to the map (R160), and then the other sets that wait for it swap (R41, R219). -/
def State.rowEmit (s : State) (n : Fin 8) : State :=
  match s.dev.rowDue s.now n with
  | none => s
  | some t =>
    let s := (s.reach t).swapsAt (.row n) (fun x => decide (x = .wp 19))
    let g := s.dev.rowGen n
    let d := s.dev.emitRow s.now n
    let d := (d.ringBanks n).foldl (fun (d : Dev) b => d.bankOutAt b) d
    let d := d.takeEvents s.mem s.clock.dtime n g.rows (g.next.getD 0)
    (s.withDev (d.mapRowEvent s.now n)).swapsAt (.row n) (fun _ => true)

def execRowEmit (n : Fin 8) (s : State) : Result := s.actAll (fun s => s.rowEmit n)

/-! ## The gap window (R45) -/

/-- What a gap cause has done: where the window opened, the sets that wait for it swap, and the ledger and the shutter planner go on (R18,
R448, R137). -/
def State.afterGap (s : State) (r : Dev × Bool) : State :=
  if r.2 then
    let s := (s.withDev r.1).swapsAt .gap (fun _ => true)
    s.withDev (s.dev.ledgerGap.shutGap s.clock.dtime)
  else s.withDev r.1

def execTrgEdge (dt : Nat) (n : Fin 4) (level : Bool) (stable : Nat) (s : State) : Result :=
  (s.pass dt).actAll (fun s => s.afterGap (s.dev.trgEdge s.now (decide (dt = 0)) n level stable))
def execGapPlanDue (s : State) : Result := s.actAll (fun s => match s.dev.planAt s.now with
  | some t => (s.reach t).afterGap (s.dev.gapPlanFires (s.reach t).now)
  | none => s)
def execGapSoftwareOpen (dt : Nat) (s : State) : Result :=
  (s.pass dt).actAll (fun s => s.afterGap (s.dev.gapCauses s.now (decide (dt = 0)) 1 0))

/-! ## Head ports (R56, R66, R68) -/

/-- What a packet or a timeout of head n does beyond its port: the frame that it closed is examined, and its pipeline may go on. -/
def Dev.afterPacket (d old : Dev) (t n : Nat) : Dev := (d.frameOver old n).workFrom old t

/-- HP_FRAME_START (R56, R66, R68): a frame still open closes; the port's set swaps; the packet opens a frame under the new settings. A port out
of service discards the packet, so it is no boundary (R445); a port that R73 holds swaps, so that it can be disabled. -/
def State.headStart (s : State) (n : Fin 8) (hdr : Hdr) : State :=
  let t := s.clock.dtime
  if (s.dev.hpOf n).state = .disabled then s
  else
    let d := s.dev.header n hdr
    if hdr = .lost then s.withDev ((d.packetLost t n false).afterPacket d t n)
    else if (s.dev.hpOf n).out then s.withDev (d.bump (Reg.HP_CNT_DROP n))
    else
      let s := (s.withDev ((d.startCloses t n).afterPacket d t n)).swapsAt (.frame n) (fun x => decide (x = .hp n))
      if (s.dev.hpOf n).state = .disabled then s
      else if s.dev.acceptsStart n = false then s.withDev (s.dev.bump (Reg.HP_CNT_DROP n))
      else s.withDev (s.dev.openNew s.now n)

def execHpFrameStart (dt : Nat) (n : Fin 8) (hdr : Hdr) (s : State) : Result := (s.pass dt).actAll (fun s => s.headStart n hdr)
def execHpFrameEnd (dt : Nat) (n : Fin 8) (hdr : Hdr) (s : State) : Result :=
  (s.pass dt).act (fun now d => (d.frameEnd now.dtime n hdr).afterPacket d now.dtime n)
def execHpFrameTimeout (n : Fin 8) (s : State) : Result :=
  s.actDue (fun _ d => d.frameTimeoutDue n) (fun now d => (d.frameTimeout now.dtime n).afterPacket d now.dtime n)
def execHpImageLine (n : Fin 8) (hdr : Hdr) (raw12 crcOk : Bool) (px : List (BitVec 14)) (s : State) : Result :=
  s.actWr 6 (fun now _ d => let r := d.imageLine now.dtime n hdr raw12 crcOk px; (r.1.afterPacket d now.dtime n, r.2))
def execHpTelemetryPacket (n : Fin 8) (hdr : Hdr) (crcOk : Bool) (bytes : List Byte) (s : State) : Result :=
  s.act (fun now d => (d.telemetry now.dtime n hdr crcOk bytes).afterPacket d now.dtime n)
def execHpPacketDiscard (n : Fin 8) (hdr : Hdr) (vc : Fin 16) (pkt : StrayPacket) (s : State) : Result :=
  s.act (fun now d => (d.packetDiscard now.dtime n hdr vc pkt).afterPacket d now.dtime n)
def execHpLaneSotError (n : Fin 8) (err : SotError) (s : State) : Result :=
  s.act (fun now d => (d.sotError now.dtime n err).afterPacket d now.dtime n)
def execHpAbsentTimeout (n : Fin 8) (s : State) : Result :=
  s.actDue (fun _ d => d.absentDue n) (fun now d => (d.absentTimeout now.dtime n).afterPacket d now.dtime n)

/-- HP_SERIAL_READ_DONE (R72): a changed serial, or one that cannot be read, is told to the last store (R132). -/
def execHpSerialReadDone (n : Fin 8) (ok : Bool) (serial : Dword) (s : State) : Result :=
  s.actMem (fun now m d =>
    let r := d.serialDone now.dtime n ok serial.toNat
    if r.2 then r.1.searchSet m now.dtime n else r.1)

/-! ## Pipelines (R81, R82, R139) -/

/-- The frame whose first line reaches pipeline p now: its context and the frame, if there is one, and whether it is a live one. -/
def Dev.arriving (d : Dev) (m : Mem) (p : Nat) : Option (Nat × HFrame × Bool) :=
  (d.latchNext m p).bind (fun q => if d.ctxOn p q.1 then some (q.1, q.2.1, q.2.2.isNone) else none)

/-- The shutter event of head h has its region in force (R139 step 7): the ready SHUTTER region has been latched. -/
def Dev.shutLatched (d old : Dev) (h : Nat) : Bool :=
  match (old.lth h).ready, (d.lth h).ready with
  | some r, none => decide (r.kind = .shutter)
  | _, _ => false

/-- The frame latches after its swaps, with the steps of the head's shutter event before and after. -/
def Dev.latchFrame (d : Dev) (m : Mem) (now : Now) (p : Nat) : Dev × List MemWrite :=
  match d.arriving m p with
  | none => (d, [])
  | some (k, f, live) =>
    let h := d.ctxHead p k
    let d := if live = true ∧ d.makesOutput p k f = true then d.ltTake m now.dtime h else d
    let b := if live = true ∧ f.dropped = false then d.shutBefore h f.seq f.dtime else (d, [])
    let r := b.1.frameLatch (m.writes b.2) now p
    let d := if r.1.shutLatched b.1 h then r.1.shutCommit now.dtime h else r.1
    -- a search put off until the head's calibration is on (R132), and a bank emptied by the region that has gone (R455)
    let d := if (d.lth h).search = true ∧ d.ltOn h = true then d.searchSet m now.dtime h else d
    (d.retireDone now.dtime, b.2 ++ r.2)

/-- PL_FRAME_LATCH (R81, R82, R147). DESIGN CHOICE: a replay frame and a frame without pixels are boundaries of their head too (log 193). -/
def State.pipeLatch (s : State) (p : Fin 2) : State :=
  match s.dev.arriving s.mem p with
  | none => s
  | some (k, _, _) =>
    let s := s.swapsAt (.frame (Fin.ofNat 8 (s.dev.ctxHead p k))) (fun x => decide (x = .pl p ∨ x = .lt))
    s.write s.clock.dtime (4 + p) (s.dev.latchFrame s.mem s.now p)

def execPlFrameLatch (p : Fin 2) (s : State) : Result := s.actAll (fun s => s.pipeLatch p)

/-- A frame that produces output completes, with the step of the head's shutter event (R139). -/
def Dev.outputOver (d : Dev) (m : Mem) (t p k : Nat) (w : Work) : Dev × List MemWrite :=
  let h := d.ctxHead p k
  let r := d.completeOutput m t p k w
  if w.own.isSome then (r.1.1.retireDone t, r.1.2)
  else
    let a := r.1.1.shutAfter (m.writes r.1.2) t h w r.2
    (a.1.retireDone t, r.1.2 ++ a.2)

/-- PL_FRAME_COMPLETE (R87, R89, R96): the frame in progress has no line left, or its head port has cut it. -/
def Dev.frameComplete (d : Dev) (m : Mem) (t p : Nat) : Dev × List MemWrite :=
  match (d.pipe p).cur with
  | none => (d, [])
  | some k =>
    match (d.ctx p k).work with
    | none => (d, [])
    | some w =>
      let cut := if w.own.isSome then none else (d.nextFrame (d.ctxHead p k)).filter (fun f => f.dropped && f.closed)
      if (d.pipe p).faulted = true then (d, [])
      else
        match cut with
        | some f => d.abandon t p k w f
        | none =>
          if w.nextOut < w.total then (d, [])
          else if w.kind = .hold then d.completeHold t p k w
          else d.outputOver m t p k w

def execPlFrameComplete (p : Fin 2) (s : State) : Result := s.actWr (4 + p) (fun now m d => d.frameComplete m now.dtime p)

/-! ## The map (R154, R173) -/

/-- WM_FRAME_FIRST_LINE (R154, R173). -/
def State.mapFirstLine (s : State) (p : Fin 2) : State :=
  let s := match nextMapHead (SMap.get [] s.dev.wm.queues (1 - p)) (SMap.get [] s.dev.wm.queues p) with
    | some h => s.swapsAt (.frame (Fin.ofNat 8 h)) (fun x => decide (x = SetId.wm))
    | none => s
  s.withDev (s.dev.firstLine s.clock.dtime p)

def execWmFrameFirstLine (p : Fin 2) (s : State) : Result := s.actAll (fun s => s.mapFirstLine p)

/-! ## Converters (R281, R283) -/

/-- ADC_SEQUENCE_END (R281, R283): the sequence ends, hosted entries return, the converter's set swaps, and what waits starts. -/
def State.sequenceEnd (s : State) (x : Fin 4) : State :=
  if (s.dev.adc x).sequenceOver = false then s
  else
    let t := s.clock.dtime
    let s := s.withDev ((s.dev.adcSequenceOver t x).adcBoundary t x)
    let s := if (s.dev.adc x).out then s else s.swapsAt .sequence (fun y => decide (y = .anc x))
    s.withDev (s.dev.adcAfterBoundary t x)

def execAdcSequenceEnd (x : Fin 4) (s : State) : Result := s.actAll (fun s => s.sequenceEnd x)

/-! ## Host links (R419) -/

/-- The admitted LINK load of link l in the direction that carries more (R376). -/
def Dev.linkLoad (d : Dev) (l : Nat) : Nat :=
  let x := (((d.heldClaims none).map Claim.links).flatten).filter (fun y => decide (y.2.1 = l))
  max (x.map (fun y => y.2.2.1)).sum (x.map (fun y => y.2.2.2)).sum

/-- LINK_TRAINED (R419): fault 0x0005 when a link retrains at a lower rate than before, below the admitted load. -/
def Dev.linkBack (d : Dev) (t l rate repaired : Nat) : Dev :=
  let before := d.link l
  let d := d.linkTrained t l rate repaired
  if 2 ≤ before.state ∧ rateOf rate < rateOf before.rate ∧ linkLimit (rateOf rate) < d.linkLoad l then d.hxFault t l 5 rate else d

def execLinkTrained (l : Fin 2) (rate : Fin 6) (repaired : Fin 16) (s : State) : Result :=
  s.actLink (fun now d => d.linkBack now.dtime l rate repaired)

end Sys2Proof.Machine
end

