-- ==== Sys2Proof/Machine/Status.lean ====
section
/-! DEFINITION. Machine/Status.lean: what a register reads as (R5, R6, R9, R10): the status words that the units form on reading, by block,
and the live or shadow copy for the rest. -/
namespace Sys2Proof.Machine

/-- The index i < n with f i = a. -/
def idxIn (f : Nat → Nat) (n a : Nat) : Option Nat := (List.range n).find? (fun i => decide (f i = a))

/-- Numbers set bit by bit. -/
def bitsOf (n : Nat) (p : Nat → Bool) : Nat := ((List.range n).map (fun i => b2n (p i) * 2 ^ i)).sum

/-! ## Global, timebase, head ports (R52, R76, R443, R444) -/

def Dev.statusGL (d : Dev) (a : Nat) : Option Nat :=
  let p := d.pw
  if a = Reg.GL_STATUS then
    some (b2n (decide (p.phase = .running)) + 2 * b2n p.fuseErr + 4 * b2n p.selftest + 8 * b2n p.core + 16 * b2n p.peri + 32 * b2n p.drive)
  else if a = Reg.GL_SERIAL_LO then some d.pw.serial.toNat
  else if a = Reg.GL_SERIAL_HI then some (d.pw.serial.toNat / 2 ^ 32)
  else if a = Reg.GL_SERIAL_CHK then some d.pw.check.toNat
  else if a = Reg.GL_RSTCAUSE then some (p.cause + 65536 * p.warmCount)
  else if a = Reg.GL_URST_STAT then some (p.urstStat + 65536 * p.urstUnit)
  else if a = Reg.GL_PIN_STATE0 then some p.rel0.toNat
  else if a = Reg.GL_PIN_STATE1 then some p.rel1.toNat
  else if a = Reg.GL_BOOT then some (b2n p.strap + 2 * b2n p.bootValid + 4 * b2n p.bootFallback)
  else none

def Dev.statusWP (d : Dev) (now : Now) (a : Nat) : Option Nat :=
  if a = Reg.WP_DTIME_LO then some now.dtime
  else if a = Reg.WP_DTIME_HI then some (now.dtime / 2 ^ 32)
  else if a = Reg.WP_WPOS_LO then some (unsgn 32 now.wpos)
  else if a = Reg.WP_WPOS_HI then some (unsgn 32 (now.wpos / 2 ^ 32))
  else if a = Reg.WP_STATUS then
    some (d.source + 4 * b2n d.web.slip.takeover + 8 * b2n d.web.slip.stopped + 16 * b2n d.web.slip.reverse + 32 * b2n d.web.gapOpen)
  else none

/-- The state of a head port as HP_STATUS codes it. -/
def Presence.code : Presence → Nat
  | .disabled => 0
  | .absent => 1
  | .ident => 2
  | .provisional => 3
  | .present => 4

/-- Head port n; the transaction at the front of the control queue is the one in progress (log 124). -/
def Dev.statusHP (d : Dev) (n a : Nat) : Option Nat :=
  let h := d.hpOf n
  if a = Reg.HP_STATUS n then some (h.state.code + 8 * b2n h.openFrame.isSome + 16 * (h.frames.filter (fun f => f.slot.isSome)).length)
  else if a = Reg.HP_GEN n then some (d.gen (.hp (Fin.ofNat 8 n)) + 65536 * h.settingsGen)
  else if a = Reg.HP_SEQ n then some h.seq
  else if a = Reg.HP_CTL_STAT n then
    -- counts beyond their fields show the greatest value (log 158)
    some (min 7 h.ctl.length + 8 * b2n (d.ctlTurn n && !h.ctlStopped) + 16 * b2n h.ctlFailed + 256 * min 255 h.reply.length)
  else none

/-! ## Pipelines, last store, map, bloom (R113, R149, R175, R197) -/

def Dev.statusPL (d : Dev) (p a : Nat) : Option Nat :=
  let x := d.pipe p
  if a = Reg.PL_STATUS p then
    let busy := (List.range 32).any (fun s => (d.ctx p s).busy)
    some (b2n (d.bit (Reg.PL_CFG p) 0) + 2 * b2n x.faulted + 4 * b2n busy + 8 * x.cur.getD 0 + 256 * b2n !x.loading.isEmpty)
  else
    (idxIn (Reg.PL_Sx_STAT p) 32 a).map (fun s =>
      let c := d.ctx p s
      b2n c.held.isSome + 2 * b2n c.hist + 4 * b2n c.active + 8 * b2n (x.loading.contains s))

/-- Build kinds as fault 0x0005 codes them (R148). -/
def BuildKind.num : BuildKind → Nat
  | .full => 0
  | .rebase => 1
  | .shutter => 2
  | .provisional => 3
  | .copy => 4

/-- LT_HDh_STATUS (R119, R133, R150): without a region of its geometry a head is on unity records. -/
def Dev.ltHeadStatus (d : Dev) (h : Nat) : Nat :=
  let x := d.lth h
  let g := d.headGeom h
  let state := if d.ltOn h = false then 0 else match x.region with
    | none => 1
    | some r => if r.unity || !r.fits g.1 g.2.1 g.2.2 then 1 else if d.headProvisional h || decide (r.kind = .provisional) then 2 else 3
  let shut := if x.shut.isSome then 3 else if x.overdue then 2 else if x.due then 1 else 0
  state + 8 * b2n (d.buildPending h) + 16 * shut + 65536 * x.wsGen

/-- The last store. How many records of a build are done at an instant depends on its stalls: a free value, at most all (log 125). -/
def Dev.statusLT (d : Dev) (a : Nat) : Option Nat :=
  if a = Reg.LT_STATUS then some (b2n d.lt.cur.isSome + 2 * d.lt.queue.length + 128 * b2n !d.poolRule)
  else if a = Reg.LT_BUILD then
    some (match d.lt.cur with
      | some c => c.1.head + 16 * c.1.kind.num + 256 * (Config.freeValue d.free % (c.2.count / 256 + 1))
      | none => 0)
  else if a = Reg.LT_POOL then some (d.poolFree + 65536 * d.poolNeeds.2)
  else match idxIn Reg.LT_HDh_REF 8 a with
    | some h => some (d.refWord h)
    | none => (idxIn Reg.LT_HDh_STATUS 8 a).map d.ltHeadStatus

/-- Columns of layer l that two heads cover (R161). -/
def Dev.weltColumns (d : Dev) (l : Nat) : Nat := d.weltsBelow l (d.layerCols l)

def Dev.statusWM (d : Dev) (a : Nat) : Option Nat :=
  if a = Reg.WM_STATUS then some (bitsOf 4 (fun l => d.wm.wait.contains l) + 16 * bitsOf 2 (fun p => d.wm.ahead.contains p))
  else (idxIn Reg.WM_Ll_WELT 4 a).map d.weltColumns

/-- A jet's status word (R186, R198). -/
def BvJet.word (x : BvJet) : Nat :=
  let count := match x.wins.getLast? with
    | some w => w.fires
    | none => 0
  x.grade + 8 * b2n x.low + 16 * b2n x.blocked + 32 * b2n x.fill + 64 * b2n x.limit + 128 * b2n x.invalid + 256 * (count % 2048)

/-- Bloom: it is scoring while it is on and a verification row waits for it (log 123). -/
def Dev.statusBV (d : Dev) (m : Mem) (a : Nat) : Option Nat :=
  if a = Reg.BV_STATUS then some (b2n (d.bvOn && !d.wm.rows.isEmpty) + 2 * b2n (!d.bv.out.isEmpty))
  else
    match idxIn Reg.BV_Jj_STAT 128 a with
    | some j => some (d.jet j).word
    | none => (idxIn Reg.BV_Jj_COMP 128 a).map (d.compWord m none)

/-! ## Banks, engines and links (R222, R250, R270) -/

def Dev.statusVB (d : Dev) (b a : Nat) : Option Nat :=
  let x := d.bank b
  if a = Reg.VB_SP_STATUS then some (d.spare.state + 16 * d.spare.bank + 128 * b2n d.spare.healthy)
  else if 8 ≤ b then none
  else if a = Reg.VB_STATUS b then
    some (x.state + 8 * b2n x.served + 16 * b2n x.token.isSome + 32 * ((List.range 16).filter (fun c => (d.chan b c).active)).length
      + 1024 * (x.waiting.length % 64))
  else if a = Reg.VB_PAIR_STAT b then some (bitsOf 8 (fun p => (d.pair b p).on) + 256 * bitsOf 8 (fun p => d.pairOwned b p))
  else if a = Reg.LC_STATUS b then
    some (b2n x.loaded + 2 * b2n x.engineFault + 4 * b2n x.ambSeen
      + 8 * bitsOf 17 (fun i => decide ((SMap.get LaceThread.reset x.threads i).run ≠ .stopped)))
  else if a = Reg.BL_STATUS b then some ((d.blink b).state + 8 * b2n (d.blink b).quenchSent)
  else none

/-! ## Converters, serial ports, pins (R298, R320, R321) -/

def Dev.statusAN (d : Dev) (a : Nat) : Option Nat :=
  (idxIn Reg.AN_Cx_STATUS 4 a).map (fun x =>
    let y := d.adc x
    let state := if y.faulted then 3 else if d.adcOn x = false then 0 else if y.running then 2 else 1
    let entry := match y.items with
      | (_, e) :: _ => e
      | [] => 0
    state + 4 * b2n y.pending + 8 * b2n (decide (0 < y.cals)) + 16 * b2n y.calFrom.isSome + 32 * b2n y.out + 64 * b2n y.guest.isSome
      + 128 * entry + 2048 * y.guest.getD 0)

def Dev.spWord (d : Dev) (n : Nat) : Nat :=
  let x := d.port n
  let state := if d.portOn n = false then 0 else if x.cur.isNone then 1 else if x.pause = .none then 2 else 3
  state + 4 * (b2n x.cur.isSome + b2n x.next.isSome) + 16 * b2n (decide (n = 0) && d.xip.cur.isSome)

def Dev.statusSP (d : Dev) (a : Nat) : Option Nat :=
  if a = Reg.SP_SPS_STATUS then some (d.sps.status + 256 * b2n d.sps.armed.isSome + 512 * b2n d.safe)
  else
    match idxIn Reg.SP_Mn_STATUS 4 a, idxIn Reg.SP_Mn_FIFO 4 a, idxIn Reg.GP_Pp_CFG 20 a with
    | some n, _, _ => some (d.spWord n)
    | _, some n, _ => some (512 - (d.port n).tx.length + 65536 * (d.port n).rx.length)
    | _, _, some p => some (d.rdN a % 2 ^ 20 + 2 ^ 20 * d.pinOwner p)
    | _, _, _ => none

/-! ## Tasks and admission (R356, R380, R381) -/

/-- The states of a context as R356 numbers them. -/
def TaskState.code : TaskState → Nat
  | .free => 0
  | .idle => 1
  | .ready => 2
  | .running => 3
  | .suspended => 4
  | .faulted => 5

/-- What the TAP's SERIAL register captures: the unit serial number, and its check byte above it (R437, R465). -/
def Dev.tapSerial (d : Dev) : Nat := d.pw.serial.toNat + 2 ^ 64 * d.pw.check.toNat

/-- TK_COREk_STATUS (R363, R381): a core that a unit reset holds shows idle, and one whose task waits in a LOCK runs; a switch is over within
its instant (log 126). -/
def Dev.coreWord (d : Dev) (k : Nat) : Nat :=
  let x := d.core k
  let state := if d.coreHeld k then 0 else if x.faulted then 3 else b2n x.ctx.isSome
  state + 4 * x.ctx.getD 0 + 4096 * b2n (d.holdsLock k)

def Dev.ctxWord (d : Dev) (c : Nat) : Nat :=
  let x := d.tctx c
  x.state.code + 16 * x.core + 64 * x.alt + 256 * b2n x.admitted + 512 * b2n x.flagged + 1024 * b2n x.demoted + 2048 * b2n x.pendAt.isSome
    + 65536 * (x.releases % 65536)

def Dev.queueWord (d : Dev) (q : Nat) : Nat :=
  let x := d.queue q
  (x.put - x.got) + 65536 * (x.depth - (x.put - x.got))

/-- TK_COREk_BUSY: what it holds, and the cycles of the context that holds the core (R380). -/
def Dev.busyCycles (d : Dev) (t k : Nat) : Nat :=
  let run := if (d.core k).ctx.isSome then coreCycles t - coreCycles (d.core k).busyFrom else 0
  min (2 ^ 32 - 1) (d.rdN (Reg.TK_COREk_BUSY k) + run)

/-- Cores in service, one bit each. -/
def Dev.coresIn (d : Dev) : Nat := bitsOf 4 (fun k => (d.core k).service && !d.coreHeld k)

/-- A claim with no item. -/
def Claim.empty : Claim := ⟨[], fun _ => 0⟩

/-- The admission unit's shown sums, over the contracts held (R370 to R376, R380). -/
def Dev.admissionWord (d : Dev) (a : Nat) : Option Nat :=
  let held := d.heldClaims none
  match idxIn Reg.AM_UCOREk 4 a, idxIn Reg.AM_UPIPEp 2 a, idxIn Reg.AM_FABb 16 a with
  | some k, _, _ => some (coreSum (allOf Claim.tasks held Claim.empty) k)
  | _, some p, _ => some (((allOf Claim.heads held Claim.empty).filter (fun x => decide (x.2.p = p))).map (fun x => x.2.u)).sum
  | _, _, some b => some (((allOf Claim.fabrics held Claim.empty).filter (fun x => decide (d.physBank x.2.1 = b))).map (fun x => x.2.2)).sum
  | _, _, _ =>
    let links := allOf Claim.links held Claim.empty
    match idxIn Reg.AM_LINKl_IN 2 a, idxIn Reg.AM_LINKl_OUT 2 a with
    | some l, _ => some ((links.filter (fun x => decide (x.2.1 = l))).map (fun x => x.2.2.1)).sum
    | _, some l => some ((links.filter (fun x => decide (x.2.1 = l))).map (fun x => x.2.2.2)).sum
    | _, _ =>
      if a = Reg.AM_GRAN then
        let g := (held.map (fun c => c.items.filterMap (fun i => match i with
          | .head h s p _ _ => let y := headShape c.view h p s; some (granulesOf (y.1 * y.2.1))
          | _ => none))).flatten
        some (g.sum + g.foldl max 0)
      else none

/-- AM_STATUS.held: 64 has no code in its six bits, and they are free then (log 188). -/
def Dev.heldShown (d : Dev) : Nat := if d.tk.contracts.length < 64 then d.tk.contracts.length else Config.freeValue d.free % 64

def Dev.statusTK (d : Dev) (t : Nat) (who : Reader) (a : Nat) : Option Nat :=
  if a = Reg.TK_STATUS then some (d.coresIn + 16 * bitsOf 4 (fun k => (d.core k).faulted && !d.coreHeld k))
  else if a = Reg.TK_CMDRES then some (lookupD 0 d.tk.cmdRes who)
  else if a = Reg.AM_STATUS then
    some (b2n (!d.tk.requests.isEmpty) + 2 * d.heldShown + 256 * min 31 (d.tk.requests.length - 1))
  else
    match idxIn Reg.TK_COREk_STATUS 4 a, idxIn Reg.TK_COREk_BUSY 4 a with
    | some k, _ => some (d.coreWord k)
    | _, some k => some (d.busyCycles t k)
    | _, _ =>
      match idxIn Reg.AM_HANDLEh 64 a, idxIn Reg.TK_CTXc_STATE 1024 a, idxIn Reg.TK_Qq_STAT 256 a with
      | some h, _, _ => some (match d.contractIn h with
        | some c => 1 + 256 * c.items.length + 65536 * c.handle
        | none => 0)
      | _, some c, _ => some (d.ctxWord c)
      | _, _, some q => some (d.queueWord q)
      | _, _, _ => d.admissionWord a

/-! ## Fabric and host (R403, R404, R424, R425) -/

def Dev.bankWord (d : Dev) (b : Nat) : Nat :=
  b2n (d.lockOwner b).isSome + 2 * (d.lockOwner b).getD 0 + 8 * b2n (d.fab.abandoned.contains b) + 16 * b2n (d.fab.retired.any (fun x => decide (x.1 = b)))
    + 32 * (d.fab.waiters.filter (fun k => decide (d.lockWaitsFor k = some b))).length + 256 * d.sparesUsed b

/-- A repair copy is over within its command, so FB_STATUS.repair reads 0 (log 127). -/
def Dev.statusFB (d : Dev) (a : Nat) : Option Nat :=
  if a = Reg.FB_STATUS then some (bitsOf 16 (fun b => (d.lockOwner b).isSome) + 2 ^ 17 * b2n (d.swapOf .fb).isSome)
  else (idxIn Reg.FB_FMb_STATUS 16 a).map d.bankWord

def Dev.statusHX (d : Dev) (a : Nat) : Option Nat :=
  if a = Reg.HX_STATUS then
    let moved := (List.range 32).any (fun r => d.ringEn r && decide ((d.ring r).link ≠ b2n (d.bit (Reg.HX_Rr_CFG r) 2)))
    some (bitsOf 2 (fun l => (d.link l).active) + 4 * b2n moved + 8 * b2n d.hx.loader + 16 * d.hx.window)
  else if a = Reg.HX_ID then some ((if d.pw.fuseBad.getLsbD 3 then 0xFFFF else Config.fuseVendor.toNat) + 65536 * 0x8128)
  else (idxIn Reg.HX_Ll_STATUS 2 a).map (fun l =>
    let x := d.link l
    x.state + 16 * x.rate + 128 * b2n x.d3hot + 256 * x.repaired)

/-! ## Service and debug (R467 to R470) -/

/-- Word w of the log record that SV_LOG_IDX counts, the first record of the log being number 0 (log 128). -/
def Dev.logWord (d : Dev) (w : Nat) : Nat :=
  let age := (d.flt.count + 2 ^ 32 - 1 - d.rdN Reg.SV_LOG_IDX) % 2 ^ 32
  match d.flt.log[age]? with
  | some r => ((FaultRec.words r).getD w 0).toNat
  | none => 0

def Slot.word (x : Slot) : Nat := x.state + 8 * x.cause + 256 * x.step + 65536 * x.code

def Dev.statusSV (d : Dev) (a : Nat) : Option Nat :=
  if a = Reg.SV_STATUS then
    some ((d.slotsIn (fun x => decide (x.state = 3))).length + 256 * (d.slotsIn (fun x => decide (x.state = 2))).length)
  else if a = Reg.SV_FLT then some (b2n d.flt.active)
  else if a = Reg.SV_LOG_WR then some d.flt.count
  else
    match idxIn Reg.SV_LOG_Ww 4 a with
    | some w => some (d.logWord w)
    | none => (idxIn Reg.SV_Aa_STAT 32 a).map (fun i => (d.slot i).word)

/-- DBG operations are executed as they arrive, so none is queued (log 129). -/
def Dev.statusDB (d : Dev) (a : Nat) : Option Nat :=
  if a = Reg.DB_STATUS then some (8 * b2n (decide (d.tap.ir = 9))) else none

/-! ## Generations (R7) -/

/-- The set whose generation a register shows. -/
def genReg (a : Nat) : Option SetId :=
  match a / 0x10000 with
  | 0 => if a = Reg.GL_GEN then some .gl else none
  | 1 => if a = Reg.TK_GEN then some .tk else if a = Reg.AM_GEN then some .am else none
  | 2 => if a = Reg.FB_GEN then some .fb else none
  | 3 => if a = Reg.HX_GEN then some .hx else none
  | 5 => (idxIn Reg.PL_GEN 2 a).map (fun p => plSet p)
  | 6 => if a = Reg.LT_GEN then some .lt else none
  | 7 => if a = Reg.WM_GEN then some .wm else none
  | 8 => if a = Reg.BV_GEN then some .bv else none
  | 9 => if a = Reg.VB_SP_GEN then some .spare else
    match idxIn Reg.VB_GEN 8 a with
    | some b => vbSet b
    | none => (idxIn Reg.BL_GEN 8 a).map (fun b => SetId.bl (Fin.ofNat 8 b))
  | 10 => (idxIn Reg.WP_GEN_u 20 a).bind wpSet
  | 11 => if a = Reg.AN_GEN then some .ana else (idxIn Reg.AN_Cx_GEN 4 a).bind ancSet
  | 12 => if a = Reg.SP_SPS_GEN then some .sps else if a = Reg.GP_GEN then some .gpio else (idxIn Reg.SP_Mn_GEN 4 a).bind spmSet
  | 13 => if a = Reg.SV_GEN then some .sv else none
  | 14 => if a = Reg.TR_GEN then some .tr else none
  | 15 => if a = Reg.DB_GEN then some .db else none
  | _ => none

/-! ## The word at an address (R5, R6) -/

/-- A status word formed on reading, if the register is one. -/
def Dev.statusWord (d : Dev) (m : Mem) (now : Now) (who : Reader) (a : Nat) : Option Nat :=
  match genReg a with
  | some x => some (d.gen x)
  | none =>
    match a / 0x10000 with
    | 0 => d.statusGL a
    | 1 => d.statusTK now.dtime who a
    | 2 => d.statusFB a
    | 3 => d.statusHX a
    | 4 => d.statusHP (a % 0x10000 / 0x1000) a
    | 5 => d.statusPL (a % 0x10000 / 0x8000) a
    | 6 => d.statusLT a
    | 7 => d.statusWM a
    | 8 => d.statusBV m a
    | 9 => d.statusVB (a % 0x10000 / 0x1000) a
    | 10 => d.statusWP now a
    | 11 => d.statusAN a
    | 12 => d.statusSP a
    | 13 => d.statusSV a
    | 15 => d.statusDB a
    | _ => none

/-- The address of the live copy whose shadow copy lies at a, if one does (R5). -/
def shadowAt (a : Nat) : Option Nat :=
  if 0x800 ≤ a ∧ (regRow a).isNone = true ∧ shadowed (a - 0x800) = true then some (a - 0x800) else none

/-- The value at an address: write-only, reserved and misaligned addresses read as zero. -/
def Dev.regValue (d : Dev) (m : Mem) (now : Now) (who : Reader) (a : Nat) : Word :=
  match regRow a with
  | some r => if r.acc = .wo then 0 else match d.statusWord m now who a with
    | some v => BitVec.ofNat 32 v
    | none => d.rd a
  | none => match shadowAt a with
    | some l => d.srd l
    | none => 0

/-! ## Reading (R9, R10) -/

/-- The low words of the 64-bit quantities, as rows of the maps: first address, and (stride, count) of each index. -/
def lowWords : List RegRow :=
  [⟨Reg.WP_DTIME_LO, [], .ro, 0, 0⟩, ⟨Reg.WP_WPOS_LO, [], .ro, 0, 0⟩, ⟨Reg.WP_GAP_PLAN_LO, [], .rw, 0, 0⟩, ⟨Reg.WP_GAP_T0_LO, [], .ro, 0, 0⟩,
   ⟨Reg.WP_GAP_P0_LO, [], .ro, 0, 0⟩, ⟨Reg.WP_GAP_T1_LO, [], .ro, 0, 0⟩, ⟨Reg.WP_ENCn_EDGE_LO 0, [(32, 4)], .ro, 0, 0⟩,
   ⟨Reg.WP_RGn_ORIGIN_LO 0, [(32, 8)], .rws, 0, 0⟩, ⟨Reg.WP_TRGn_EDGE_LO 0, [(16, 4)], .ro, 0, 0⟩, ⟨Reg.WP_HSYn_LAST_LO 0, [(16, 8)], .ro, 0, 0⟩,
   ⟨Reg.WP_TMn_TGT_LO 0, [(16, 128)], .rw, 0, 0⟩, ⟨Reg.HP_SERIAL_LO 0, [(4096, 8)], .ro, 0, 0⟩, ⟨Reg.LT_HDh_COMMIT_LO 0, [(128, 8)], .ro, 0, 0⟩,
   ⟨Reg.WM_Ll_NEXT_LO 0, [(64, 4)], .ro, 0, 0⟩, ⟨Reg.WM_Hh_FRONT_LO 0, [(64, 8)], .ro, 0, 0⟩, ⟨Reg.HX_Rr_BASE_LO 0, [(64, 32)], .rw, 0, 0⟩,
   ⟨Reg.HX_Rr_WB_LO 0, [(64, 32)], .rw, 0, 0⟩, ⟨Reg.GL_SERIAL_LO, [], .ro, 0, 0⟩, ⟨Reg.HP_TAGw 0 2, [(4096, 8), (8, 2)], .ro, 0, 0⟩,
   ⟨Reg.SV_LOG_Ww 0, [], .ro, 0, 0⟩]

/-- The address is that of a low word, or of its shadow copy. -/
def lowWord (a : Nat) : Bool := lowWords.any (fun r => r.hits a) || (match shadowAt a with
  | some l => lowWords.any (fun r => r.hits l)
  | none => false)

/-- A read of an RC register clears it (R10); TK_COREk_BUSY starts anew. -/
def Dev.clearRc (d : Dev) (t a : Nat) : Dev :=
  match idxIn Reg.TK_COREk_BUSY 4 a with
  | some k => (d.wr a 0).updCore k (fun x => { x with busyFrom := t })
  | none => d.wr a 0

/-- A read of LT_BUILD while a build runs takes a free value (log 125). -/
def Dev.readUses (d : Dev) (a : Nat) : Dev :=
  if a = Reg.LT_BUILD ∧ d.lt.cur.isSome = true then { d with free := d.free + 1 } else d

/-- A read by a reader (R5, R9, R10, R335): the word, and the device after the read's effects. -/
def Dev.regRead (d : Dev) (m : Mem) (now : Now) (who : Reader) (a : Nat) : Word × Dev :=
  let v := d.regValue m now who a
  if lowWord a then (v, d.setHeld who (some (d.regValue m now who (a + 4))))
  else if 4 ≤ a ∧ lowWord (a - 4) = true then ((d.heldOf who).getD v, d.setHeld who none)
  else
    match idxIn Reg.HP_CTL_RX 8 a, idxIn Reg.SP_Mn_RX 4 a with
    | some n, _ => d.ctlRx n
    | _, some n => d.spRxRead n
    | _, _ => match regRow a with
      | some r => if r.acc = .rc then (v, d.clearRc now.dtime a) else (v, d.readUses a)
      | none => (v, d)

end Sys2Proof.Machine
end

