-- ==== Sys2Proof/Machine/Device.lean ====
section
/-! DEFINITION. Machine/Device.lean: register writes by every sender (R5, R6, R16, R17, R20, R335, R408), and the rows that read and write
device space: DLD, DST, ENACT, host reads, the debug unit and the TAP (R345, R346, R407, R465, R466). -/
namespace Sys2Proof.Machine

/-! ## Registers whose write does something (R5) -/

/-- Act where a bit of a command word is set. -/
def Dev.onBit (d : Dev) (v i : Nat) (f : Dev → Dev) : Dev := if nbit v i then f d else d

/-- Subsystem 0 (R434, R436, R443, R444), but GL_RST. -/
def Dev.writeGL (d : Dev) (t a : Nat) (v : Word) : Option Dev :=
  if a = Reg.GL_URST then some (d.unitResetRequest v)
  else if a = Reg.GL_WDOG then some (d.wdogWrite t v)
  else if a = Reg.GL_WDOG_KICK then some (d.wdogKick t v)
  else if a = Reg.GL_PIN_REL0 then some (d.pinRelease t false v)
  else if a = Reg.GL_PIN_REL1 then some (d.pinRelease t true v)
  else if a = Reg.GL_PIN_HOLD0 then some (d.pinHold t false v)
  else if a = Reg.GL_PIN_HOLD1 then some (d.pinHold t true v)
  else none

/-- The scheduler (R357, R364). -/
def Dev.writeTK (d : Dev) (t : Nat) (who : Reader) (a : Nat) (v : Word) : Option Dev :=
  if a = Reg.TK_CMD then some (d.tkCommand t who v.toNat)
  else if a = Reg.TK_QBASE then some (d.qbaseWrite v.toNat)
  else (idxIn Reg.TK_Qq_CFG 256 a).map (fun q => d.queueCfg t q v.toNat)

/-- A register marked "host" (R16, R408). -/
def hostReg (a : Nat) : Bool :=
  decide (a = Reg.HX_TKDB) || decide (a = Reg.HX_TKDB_ENTRY) || decide (a = Reg.HX_LOADER) || (idxIn Reg.HX_FEAT_ACCEPTw 8 a).isSome
    || (decide (Reg.HX_Rr_CFG 0 ≤ a) && decide (a < Reg.HX_Rr_CFG 32) && decide ((a - Reg.HX_Rr_CFG 0) % 64 < 32) && decide (a % 4 = 0))

/-- The host may write it; so may the boot program the acceptance words under XIP boot (R408, R420). -/
def Dev.mayWriteHost (d : Dev) (who : Reader) (a : Nat) : Bool :=
  match who with
  | .link _ => true
  | w => (idxIn Reg.HX_FEAT_ACCEPTw 8 a).isSome && d.featWriter w

/-- Host attachment (R408 to R412, R420, R421). -/
def Dev.writeHX (d : Dev) (t : Nat) (who : Reader) (a : Nat) (v : Word) : Option Dev :=
  if hostReg a = false then none
  else if d.mayWriteHost who a = false then some (d.rejectOf who)
  else if a = Reg.HX_TKDB then some (d.tkCommand t who v.toNat)
  else if a = Reg.HX_LOADER then some (d.loaderClose v)
  else
    match idxIn Reg.HX_FEAT_ACCEPTw 8 a with
    | some 7 => some (d.featureCommit t who v)
    | some w => some (d.featAcceptWrite who w v)
    | none =>
      if Reg.HX_Rr_CFG 0 ≤ a then
        let r := (a - Reg.HX_Rr_CFG 0) / 64
        let i := (a - Reg.HX_Rr_CFG 0) % 64 / 4
        some (if i = 7 then d.ringDoorbell t r v else d.ringCfgWrite t r i v)
      else none

/-- Head ports and pipelines (R64, R108, R111). -/
def Dev.writeHP (d : Dev) (n a : Nat) (v : Word) : Option Dev :=
  if a = Reg.HP_CTL_DATA n then some (d.ctlData n v) else if a = Reg.HP_CTL_CMD n then some (d.ctlSubmit n v) else none
def Dev.writePL (d : Dev) (t p a : Nat) (v : Word) : Option Dev :=
  if a = Reg.PL_HANDOVER p then some (d.handoverCmd p v) else if a = Reg.PL_REPLAY p then some (d.replaySubmit t p v) else none

/-- LT_CMD (R119, R123, R137, R144, R150). -/
def Dev.ltCommand (d : Dev) (m : Mem) (t v : Nat) : Dev :=
  let h := nfld v 6 4
  match nfld v 3 0 with
  | 1 => if d.ltOn h then d.requestBuild h .full (d.lastSubstrate h) else d
  | 2 => d.rescan m t
  | 3 => d.balanceReset
  | 4 => d.shutGapCmd h
  | 5 => d.joinForced t h false
  | _ => d

/-- BV_CMD (R190, R192, R198). -/
def Dev.bvCommand (d : Dev) (t v : Nat) : Dev :=
  match nfld v 3 0 with
  | 1 => d.bvResetJet t (nfld v 14 8)
  | 2 => d.bvResetAll t
  | 3 => d.bvEndFill t (nfld v 14 8)
  | _ => d

/-- Banks, their engines and links (R213, R215 to R218, R243, R264); the bits of a word act from the lowest (log 122). -/
def Dev.writeVB (d : Dev) (m : Mem) (t b a : Nat) (v : Word) : Option Dev :=
  let n := v.toNat
  if a = Reg.VB_SP_CMD then some ((d.onBit n 4 (fun d => d.spareHandover (nfld n 2 0))).onBit n 5 (fun d => d.spareReturn m t))
  else if 8 ≤ b then none
  else if a = Reg.VB_CMD b then some (d.onBit n 0 (fun d => d.vbClearFault t b))
  else if a = Reg.VB_PAIR_CMD b then some ((d.vbPairClose t b (nfld n 7 0)).vbPairRelease t b (nfld n 15 8))
  else if a = Reg.LC_CMD b then some (d.onBit n 4 (fun d => d.clearTrip b (nfld n 3 0)))
  else if a = Reg.BL_CMD b then some ((d.onBit n 0 (fun d => (d.blRetrain t b).shutWatch t)).onBit n 1 (fun d => d.blDisarm b))
  else none

/-- The timebase (R49, R50, R52), but WP_GAP_CMD. -/
def Dev.writeWP (d : Dev) (now : Now) (a : Nat) (v : Word) : Option Dev :=
  if a = Reg.WP_GAP_PLAN_LO then some (d.planLoWrite v)
  else if a = Reg.WP_GAP_PLAN_HI then some (d.planHiWrite now.dtime v)
  else
    match idxIn Reg.WP_TMn_CTL 128 a, idxIn Reg.WP_TMn_TGT_LO 128 a, idxIn Reg.WP_TMn_TGT_HI 128 a with
    | some n, _, _ => some (d.timerCtl now n v)
    | _, some n, _ => some (d.timerTarget n false v)
    | _, _, some n => some (d.timerTarget n true v)
    | _, _, _ => none

/-- AN_CMD (R278, R289, R299). -/
def Dev.anCommand (d : Dev) (t v : Nat) : Dev :=
  match nfld v 3 0 with
  | 1 => d.calCommand t (nfld v 11 8)
  | 2 => d.adcSoftware (nfld v 11 8)
  | _ => d

/-- Serial ports and pins (R301, R306, R309, R314, R315): an abort in the same word comes before the start (log 122). -/
def Dev.writeSP (d : Dev) (t a : Nat) (v : Word) : Option Dev :=
  let n := v.toNat
  if a = Reg.SP_XIP_CMD then some (d.onBit n 0 Dev.xipInvalidate)
  else if a = Reg.SP_SPS_CMD then some (d.onBit n 0 (fun d => { d with safe := false }))
  else if a = Reg.GP_SET then some (d.gpWrite n true)
  else if a = Reg.GP_CLR then some (d.gpWrite n false)
  else
    match idxIn Reg.SP_Mn_CMD 4 a, idxIn Reg.SP_Mn_TX 4 a with
    | some x, _ => some ((d.onBit n 1 (fun d => d.spAbort t x)).onBit n 0 (fun d => d.spStart t x n))
    | _, some x => some (d.spTxWrite x n)
    | _, _ => none

/-- Service (R446, R448, R462, R467): the request of a slot that is not FREE keeps its words (R446). -/
def Dev.writeSV (d : Dev) (m : Mem) (t a : Nat) (v : Word) : Option Dev :=
  let n := v.toNat
  if a = Reg.SV_FLT_CMD then some ((d.onBit n 0 (fun d => d.setActive t)).onBit n 1 (fun d => d.clearActive t))
  else
    match idxIn Reg.SV_Aa_CMD 32 a with
    | some i => some ((((d.onBit n 0 (fun d => d.activityRequest i)).onBit n 1 (fun d => d.activityEnd m t i)).onBit n 2
        (fun d => d.activityAbort m t i)).onBit n 3 (fun d => d.activityFree i))
    | none =>
      match (idxIn Reg.SV_Aa_CFG 32 a).or (idxIn Reg.SV_Aa_TGT 32 a) with
      | some i => if (d.slot i).state = 0 then none else some d
      | none => none

/-- What a write does at an address with an effect of its own. -/
def Dev.ownWrite (d : Dev) (m : Mem) (now : Now) (who : Reader) (a : Nat) (v : Word) : Option Dev :=
  match a / 0x10000 with
  | 0 => d.writeGL now.dtime a v
  | 1 => d.writeTK now.dtime who a v
  | 3 => d.writeHX now.dtime who a v
  | 4 => d.writeHP (a % 0x10000 / 0x1000) a v
  | 5 => d.writePL now.dtime (a % 0x10000 / 0x8000) a v
  | 6 => if a = Reg.LT_CMD then some (d.ltCommand m now.dtime v.toNat) else none
  | 8 => if a = Reg.BV_CMD then some (d.bvCommand now.dtime v.toNat) else none
  | 9 => d.writeVB m now.dtime (a % 0x10000 / 0x1000) a v
  | 10 => d.writeWP now a v
  | 11 => if a = Reg.AN_CMD then some (d.anCommand now.dtime v.toNat) else none
  | 12 => d.writeSP now.dtime a v
  | 13 => d.writeSV m now.dtime a v
  | _ => none

/-- What the access code gives (R5, R6): an RW register is stored without its reserved bits, W1C bits clear, a shadow copy is stored; RO,
RC, the live copy of an RWS register and reserved addresses ignore the write. -/
def Dev.plainWrite (d : Dev) (a : Nat) (v : Word) : Dev :=
  match regRow a with
  | some r =>
    match r.acc with
    | .rw => d.wrN a (v.toNat &&& r.mask)
    | .w1c => d.clrBits a v.toNat
    | _ => d
  | none => match shadowAt a with
    | some l => d.swr l (v &&& BitVec.ofNat 32 (regMask l))
    | none => d

/-- The write is one that a unit refuses because a swap is pending (R20). -/
def Dev.swapBusy (d : Dev) (a : Nat) : Bool := match (shadowAt a).bind regSet with
  | some x => (d.swapOf x).isSome
  | none => false

/-- A write of WP_GAP_CMD (R45, R52). -/
def State.gapCommand (s : State) (v : Nat) : State :=
  let s := if nbit v 2 then s.withDev (s.dev.setPlan none) else s
  s.afterGap (s.dev.gapCauses s.now true (b2n (nbit v 0)) (b2n (nbit v 1)))

/-- A write that is not refused reaches its register (R5). A context that stops gives up its locks, so held-back writes may land. -/
def State.regWrite (s : State) (who : Reader) (a : Nat) (v : Word) : State :=
  if a = Reg.GL_RST then s.rstWrite who v
  else if a = Reg.WP_GAP_CMD then s.gapCommand v.toNat
  else s.write s.clock.dtime 13 ((s.dev.ownWrite s.mem s.now who a v).getD (s.dev.plainWrite a v), [])

/-- The refused DST of context c travels back to its core (R335); the first of several names the fault. -/
def Dev.refuse (d : Dev) (c a : Nat) : Dev := d.updTctx c (fun x => { x with refused := x.refused.orElse (fun _ => some (a, false)) })

/-- A write by any sender (R16, R17, R20): a host write that R16 does not permit is discarded and counted; one refused for a pending swap
changes nothing, and a task core hears of it. -/
def State.senderWrite (s : State) (who : Reader) (a : Nat) (v : Word) : State :=
  match who with
  | .link _ => if s.dev.hostMayWrite a then s.regWrite who a v else s.withDev s.dev.hostReject
  | .core k =>
    if s.dev.swapBusy a then
      match s.dev.runs k with
      | some c => s.withDev (s.dev.refuse c a)
      | none => s
    else s.regWrite who a v
  | _ => if s.dev.swapBusy a then s else s.regWrite who a v

def execOtherRegisterWrite (who : Reader) (a : BitVec 20) (v : Word) (s : State) : Result :=
  s.fromSender who (.otherRegisterWrite who a v) (s.actAll (fun s => s.senderWrite who a.toNat v))

/-! ## DLD and DST (R335) -/

/-- A device address outside device space or misaligned (R335). -/
def badDevice (a : Nat) : Bool := decide (a % 4 ≠ 0) || decide (0x100000 ≤ a)

/-- A device-space fault (R335, R353). -/
def Dev.deviceFault (d : Dev) (t k c a : Nat) : Dev := d.taskFault t k c 0x0105 a a

/-- DLD: it comes after every earlier DST of the task, and waits for a refusal (R327, R335). -/
def execDld (k : Fin 4) (rd ra : Fin 16) (imm : BitVec 18) (s : State) : Result :=
  s.ercel k (fun now m c x d =>
    let a := x.addr ra imm
    if x.refused.isSome then (d.refusalFault now.dtime k c, [])
    else if badDevice a then (d.deviceFault now.dtime k c a, [])
    else
      let r := d.regRead m now (.core k) a
      (r.2.retire now.dtime k c (x.put rd r.1), []))

/-- DST: posted, so the instruction retires and the write lands after it (R335). It stalls while an earlier store of its core waits for a
lock, since they land in program order (R327; log 130). -/
def State.dst (s : State) (k : Fin 4) (rs ra : Fin 16) (imm : BitVec 18) : State :=
  match s.dev.runs k with
  | none => s
  | some c =>
    let x := s.dev.tctx c
    let t := s.clock.dtime
    let a := x.addr ra imm
    if s.dev.fetchable x.pc.toNat = false then s.write t k (s.dev.fetchFault t k c, [])
    else if x.refused.any Prod.snd then s.write t k (s.dev.refusalFault t k c, [])
    else if badDevice a then s.write t k (s.dev.deviceFault t k c a, [])
    else if s.dev.fab.held.any (fun h => decide (h.1 = k)) then s
    else (s.withDev (s.dev.retire t k c x.next)).senderWrite (.core k) a (x.reg rs)

def execDst (k : Fin 4) (rs ra : Fin 16) (imm : BitVec 18) (s : State) : Result := s.actAll (fun s => s.dst k rs ra imm)

/-- DST_REFUSED: the refusal reaches the core (R335). -/
def execDstRefused (c : Fin 1024) (s : State) : Result :=
  s.act (fun _ d => d.updTctx c (fun x => { x with refused := x.refused.map (fun r => (r.1, true)) }))

/-! ## ENACT (R345, R346) -/

/-- The result of an ENACT: rd takes the word, and Z is set for status 0 and, in the cancel form, 8. -/
def TaskCtx.enacted (x : TaskCtx) (rd w : Nat) : TaskCtx :=
  (x.setReg rd (BitVec.ofNat 32 w)).setZ (decide (w % 256 = 0 ∨ w % 256 = 8))

/-- ENACT: kinds 6 and 7 are illegal (R345). -/
def execEnact (k : Fin 4) (rd ra : Fin 16) (kind n : Fin 8) (s : State) : Result :=
  s.ercelAfter k (fun now _ c x d =>
    if 6 ≤ kind.val then (d.illegal now.dtime k c 0x1C, [])
    else
      let r := d.enact now.dtime (x.reg ra).toNat (boundaryOf kind n)
      (r.2.retire now.dtime k c (x.enacted rd r.1).next, []))
def execEnactCancel (k : Fin 4) (rd ra : Fin 16) (s : State) : Result :=
  s.ercelAfter k (fun now _ c x d =>
    let r := d.enactCancel (x.reg ra).toNat
    (r.2.retire now.dtime k c (x.enacted rd r.1).next, []))

/-! ## Host reads (R407) -/

def execHostBar0Read (l : Fin 2) (off : BitVec 20) (s : State) : Result :=
  s.fromHost (.hostBar0Read l off) (s.actMem (fun now m d =>
    let r := d.regRead m now (.link l) off.toNat
    r.2.send (.completion l r.1)))

/-! ## The end of a warm reset (R431, R432) -/

/-- A host's request that waited for the end of a warm reset. -/
def hostRequest (s : State) : Instr → Result
  | .hostWriteReject l bar2 off v => execHostWriteReject l bar2 off v s
  | .loaderWrite l off bytes => execLoaderWrite l off bytes s
  | .loaderClose l v => execLoaderClose l v s
  | .ringDoorbell l r v => execRingDoorbell l r v s
  | .ringCfgWrite l r i v => execRingCfgWrite l r i v s
  | .featAcceptWrite who w v => execFeatAcceptWrite who w v s
  | .featureCommit who v => execFeatureCommit who v s
  | .contextSetup who c core auto => execContextSetup who c core auto s
  | .contextRelease who c => execContextRelease who c s
  | .contextStop who c => execContextStop who c s
  | .contextRestart who c => execContextRestart who c s
  | .coreReturnToService who k => execCoreReturnToService who k s
  | .otherRegisterWrite who a v => execOtherRegisterWrite who a v s
  | .hostBar0Read l off => execHostBar0Read l off s
  | _ => .next s

/-- The state that a request which waited leaves. -/
def State.afterRequest (s : State) (i : Instr) : State :=
  match hostRequest s i with
  | .next t => t
  | _ => s

/-- WARM_RESET (R431): the warm reset that runs ends, once its PLLs are locked; then the hosts' requests that waited come, in their order (R432). -/
def execWarmReset (s : State) : Result :=
  .next (match s.dev.pw.phase with
    | .warm c =>
      if s.dev.pw.core = true ∧ s.dev.pw.peri = true then
        let d := s.dev.updHx (fun h => { h with waiting := [] })
        s.dev.hx.waiting.foldl State.afterRequest { s with dev := d.warmDone s.clock.dtime c }
      else s
    | _ => s)

/-! ## The debug unit and the TAP (R465, R466) -/

/-- wr_en (R466, R470). -/
def Dev.debugWrites (d : Dev) : Bool := d.bit Reg.DB_CFG 0
/-- The result of an operation that the next Capture-DR returns: data, done, error. -/
def Dev.tapAnswer (d : Dev) (v : Word) (err : Bool) : Dev := d.send (.tap v err)
/-- An operation that is refused (R466, R469): error, and counted. -/
def Dev.debugDenied (d : Dev) : Dev := (d.bump Reg.DB_CNT_DENY).tapAnswer 0 true
/-- The DBG instruction is selected. -/
def Dev.dbg (d : Dev) : Bool := decide (d.tap.ir = 9)

def execTapDeviceRead (addr : Word) (s : State) : Result :=
  s.actMem (fun now m d =>
    if d.dbg = false then d
    else if badDevice addr.toNat then d.debugDenied
    else
      let r := d.regRead m now .debug addr.toNat
      (r.2.bump Reg.DB_CNT_OP).tapAnswer r.1 false)

/-- A device write that the debug unit refuses (R408, R466, R469): without wr_en, to its own settings, outside device space, while a swap of
the set is pending. -/
def Dev.debugRefuses (d : Dev) (a : Nat) : Bool :=
  !d.debugWrites || decide (a = Reg.DB_CFG) || decide (shadowAt a = some Reg.DB_CFG) || badDevice a || d.swapBusy a

/-- A device write of the debug unit (R466). -/
def State.tapWrite (s : State) (a : Nat) (v : Word) : State :=
  if s.dev.debugRefuses a then s.withDev s.dev.debugDenied
  else if hostReg a then s.withDev s.dev.dstReject.debugDenied
  else (s.withDev ((s.dev.bump Reg.DB_CNT_OP).tapAnswer 0 false)).senderWrite .debug a v

def execTapDeviceWrite (addr data : Word) (s : State) : Result :=
  s.actAll (fun s => if s.dev.dbg then s.tapWrite addr.toNat data else s)

/-- A forced frame-memory write (R399, R466): an aligned word; it breaks a lock in its way. -/
def execTapForcedWrite (addr data : Word) (s : State) : Result :=
  s.actWr 14 (fun now _ d =>
    let a := addr.toNat
    if d.dbg = false then (d, [])
    else if d.debugWrites = false ∨ a % 4 ≠ 0 ∨ frameBytes ≤ a then (d.debugDenied, [])
    else (((d.bump Reg.DB_CNT_OP).preemptLock now.dtime (bankOf a) true).tapAnswer 0 false, frameWrites a 4 data.toNat))

/-- An Update-DR of RESET (R465): with tap_reset_en, 0xA55A and then 0x5AA5 make a warm reset with cause 9. -/
def State.tapReset (s : State) (v : BitVec 16) : State :=
  let d := s.dev
  if d.tap.ir ≠ 0xA ∨ d.bit Reg.DB_CFG 1 = false then s
  else if d.tap.key = true ∧ v = 0x5AA5 then (s.withDev { d with tap := { d.tap with key := false } }).warmStart 9
  else s.withDev { d with tap := { d.tap with key := decide (v = 0xA55A) } }

def execTapResetUpdate (v : BitVec 16) (s : State) : Result := s.actAll (fun s => s.tapReset v)

/-- Update-IR, and Test-Logic-Reset as IDCODE (R465): another instruction starts the key pair again. -/
def execTapInstructionUpdate (ir : BitVec 5) (s : State) : Result :=
  s.act (fun _ d => { d with tap := ⟨ir.toNat, d.tap.key && decide (ir.toNat = 0xA) && decide (d.tap.ir = 0xA)⟩ })

end Sys2Proof.Machine
end

