-- ==== Sys2Proof/Machine/Dispatch.lean ====
section
/-! DEFINITION. Machine/Dispatch.lean: one arm per command. -/
namespace Sys2Proof.Machine

def exec (i : Instr) (s : State) : Host.Outcome State Fault Refusal :=
  match i with
  | .powerOn => Sys2Proof.Machine.execPowerOn s
  | .supplyOutOfRange => Sys2Proof.Machine.execSupplyOutOfRange s
  | .rstNAssert ns => Sys2Proof.Machine.execRstNAssert ns s
  | .coldReset strap rep => Sys2Proof.Machine.execColdReset strap rep s
  | .pllLock p => Sys2Proof.Machine.execPllLock p s
  | .pllLockRetry p => Sys2Proof.Machine.execPllLockRetry p s
  | .drivePllLockLoss => Sys2Proof.Machine.execDrivePllLockLoss s
  | .corePeriPllLockLoss peri => Sys2Proof.Machine.execCorePeriPllLockLoss peri s
  | .warmReset => Sys2Proof.Machine.execWarmReset s
  | .glRstWrite who v => Sys2Proof.Machine.execGlRstWrite who v s
  | .glRstPairExpire => Sys2Proof.Machine.execGlRstPairExpire s
  | .watchdogWrite v => Sys2Proof.Machine.execWatchdogWrite v s
  | .watchdogKick v => Sys2Proof.Machine.execWatchdogKick v s
  | .watchdogExpiry => Sys2Proof.Machine.execWatchdogExpiry s
  | .functionLevelReset l => Sys2Proof.Machine.execFunctionLevelReset l s
  | .unitResetRequest v => Sys2Proof.Machine.execUnitResetRequest v s
  | .unitResetDone => Sys2Proof.Machine.execUnitResetDone s
  | .pinRelease reg1 v => Sys2Proof.Machine.execPinRelease reg1 v s
  | .pinHold reg1 v => Sys2Proof.Machine.execPinHold reg1 v s
  | .bootHeaderRead bytes => Sys2Proof.Machine.execBootHeaderRead bytes s
  | .shadowSwap set => Sys2Proof.Machine.execShadowSwap set s
  | .encEdge dt n a b stable => Sys2Proof.Machine.execEncEdge dt n a b stable s
  | .speedStopTimeout => Sys2Proof.Machine.execSpeedStopTimeout s
  | .rowEmit n => Sys2Proof.Machine.execRowEmit n s
  | .trgEdge dt n level stable => Sys2Proof.Machine.execTrgEdge dt n level stable s
  | .gapPlanDue => Sys2Proof.Machine.execGapPlanDue s
  | .gapLengthReached => Sys2Proof.Machine.execGapLengthReached s
  | .gapForcedClose => Sys2Proof.Machine.execGapForcedClose s
  | .gapSoftwareOpen dt => Sys2Proof.Machine.execGapSoftwareOpen dt s
  | .gapSoftwareClose dt => Sys2Proof.Machine.execGapSoftwareClose dt s
  | .gapPlanDisarm => Sys2Proof.Machine.execGapPlanDisarm s
  | .gapPlanLoWrite v => Sys2Proof.Machine.execGapPlanLoWrite v s
  | .gapPlanHiWrite v => Sys2Proof.Machine.execGapPlanHiWrite v s
  | .evtPulseEnd n => Sys2Proof.Machine.execEvtPulseEnd n s
  | .hsyPulseEnd n => Sys2Proof.Machine.execHsyPulseEnd n s
  | .timerArm n v => Sys2Proof.Machine.execTimerArm n v s
  | .timerMatch n => Sys2Proof.Machine.execTimerMatch n s
  | .timerTargetWrite n hi v => Sys2Proof.Machine.execTimerTargetWrite n hi v s
  | .hpFrameStart dt n hdr => Sys2Proof.Machine.execHpFrameStart dt n hdr s
  | .hpImageLine n hdr raw12 crcOk px => Sys2Proof.Machine.execHpImageLine n hdr raw12 crcOk px s
  | .hpTelemetryPacket n hdr crcOk bytes => Sys2Proof.Machine.execHpTelemetryPacket n hdr crcOk bytes s
  | .hpFrameEnd dt n hdr => Sys2Proof.Machine.execHpFrameEnd dt n hdr s
  | .hpPacketDiscard n hdr vc dtype => Sys2Proof.Machine.execHpPacketDiscard n hdr vc dtype s
  | .hpLaneSotError n lane => Sys2Proof.Machine.execHpLaneSotError n lane s
  | .hpFrameTimeout n => Sys2Proof.Machine.execHpFrameTimeout n s
  | .hpAbsentTimeout n => Sys2Proof.Machine.execHpAbsentTimeout n s
  | .hpCtlDataWrite n v => Sys2Proof.Machine.execHpCtlDataWrite n v s
  | .hpCtlSubmit n v => Sys2Proof.Machine.execHpCtlSubmit n v s
  | .hpCtlRxRead n => Sys2Proof.Machine.execHpCtlRxRead n s
  | .hpCtlComplete dt n ok reply => Sys2Proof.Machine.execHpCtlComplete dt n ok reply s
  | .hpSerialReadDone n ok serial => Sys2Proof.Machine.execHpSerialReadDone n ok serial s
  | .hpWorkingSetReport n => Sys2Proof.Machine.execHpWorkingSetReport n s
  | .plLineBoundary p => Sys2Proof.Machine.execPlLineBoundary p s
  | .plFrameLatch p => Sys2Proof.Machine.execPlFrameLatch p s
  | .plTableLoadDone p ok => Sys2Proof.Machine.execPlTableLoadDone p ok s
  | .plLineProcess p => Sys2Proof.Machine.execPlLineProcess p s
  | .plFrameComplete p => Sys2Proof.Machine.execPlFrameComplete p s
  | .plFault p code stage arg => Sys2Proof.Machine.execPlFault p code stage arg s
  | .plNoProgress p => Sys2Proof.Machine.execPlNoProgress p s
  | .plStandbyTakeover p => Sys2Proof.Machine.execPlStandbyTakeover p s
  | .plHandover p v => Sys2Proof.Machine.execPlHandover p v s
  | .plHandoverDone p => Sys2Proof.Machine.execPlHandoverDone p s
  | .plReplaySubmit p v => Sys2Proof.Machine.execPlReplaySubmit p v s
  | .ltFullBuildCmd h => Sys2Proof.Machine.execLtFullBuildCmd h s
  | .ltRescanCmd => Sys2Proof.Machine.execLtRescanCmd s
  | .ltBalanceResetCmd => Sys2Proof.Machine.execLtBalanceResetCmd s
  | .ltShutterGapCmd h => Sys2Proof.Machine.execLtShutterGapCmd h s
  | .ltShutterForcedCmd h => Sys2Proof.Machine.execLtShutterForcedCmd h s
  | .ltBuildStart => Sys2Proof.Machine.execLtBuildStart s
  | .ltBuildDone sets => Sys2Proof.Machine.execLtBuildDone sets s
  | .ltProbeExpire p => Sys2Proof.Machine.execLtProbeExpire p s
  | .ltShutterDue h => Sys2Proof.Machine.execLtShutterDue h s
  | .ltShutterOverdue h => Sys2Proof.Machine.execLtShutterOverdue h s
  | .ltShutterRetry h => Sys2Proof.Machine.execLtShutterRetry h s
  | .ltBalanceWindowEnd => Sys2Proof.Machine.execLtBalanceWindowEnd s
  | .wmGeometryLoadDone h ok => Sys2Proof.Machine.execWmGeometryLoadDone h ok s
  | .wmFrameFirstLine p => Sys2Proof.Machine.execWmFrameFirstLine p s
  | .wmSampleBeat p => Sys2Proof.Machine.execWmSampleBeat p s
  | .wmRowFinalise l => Sys2Proof.Machine.execWmRowFinalise l s
  | .wmStatsRecord p => Sys2Proof.Machine.execWmStatsRecord p s
  | .bvFireRecord b => Sys2Proof.Machine.execBvFireRecord b s
  | .bvBaselineRow => Sys2Proof.Machine.execBvBaselineRow s
  | .bvVerificationRow => Sys2Proof.Machine.execBvVerificationRow s
  | .bvResetJet j => Sys2Proof.Machine.execBvResetJet j s
  | .bvResetAll => Sys2Proof.Machine.execBvResetAll s
  | .bvEndFill j => Sys2Proof.Machine.execBvEndFill j s
  | .vbRingFetch b => Sys2Proof.Machine.execVbRingFetch b s
  | .vbRingRefetch b e => Sys2Proof.Machine.execVbRingRefetch b e s
  | .laceFrame b => Sys2Proof.Machine.execLaceFrame b s
  | .fireDurationLimit b c => Sys2Proof.Machine.execFireDurationLimit b c s
  | .quenchEnd b c => Sys2Proof.Machine.execQuenchEnd b c s
  | .boostCut b => Sys2Proof.Machine.execBoostCut b s
  | .coilTick b => Sys2Proof.Machine.execCoilTick b s
  | .lcClearTrip b c => Sys2Proof.Machine.execLcClearTrip b c s
  | .laceCodeLoadDone b => Sys2Proof.Machine.execLaceCodeLoadDone b s
  | .laceEnd b th => Sys2Proof.Machine.execLaceEnd b th s
  | .lacePhase b th kind target band watch par => Sys2Proof.Machine.execLacePhase b th kind target band watch par s
  | .laceWait b th cond trim arg => Sys2Proof.Machine.execLaceWait b th cond trim arg s
  | .laceBr b th cond address => Sys2Proof.Machine.execLaceBr b th cond address s
  | .laceLdi b th rd imm => Sys2Proof.Machine.execLaceLdi b th rd imm s
  | .laceLdm b th rd src channel => Sys2Proof.Machine.execLaceLdm b th rd src channel s
  | .laceAluAdd b th rd rs => Sys2Proof.Machine.execLaceAluAdd b th rd rs s
  | .laceAluSub b th rd rs => Sys2Proof.Machine.execLaceAluSub b th rd rs s
  | .laceAluMul b th rd rs => Sys2Proof.Machine.execLaceAluMul b th rd rs s
  | .laceAluMin b th rd rs => Sys2Proof.Machine.execLaceAluMin b th rd rs s
  | .laceAluMax b th rd rs => Sys2Proof.Machine.execLaceAluMax b th rd rs s
  | .laceAluCompare b th rd rs => Sys2Proof.Machine.execLaceAluCompare b th rd rs s
  | .laceAluMove b th rd rs => Sys2Proof.Machine.execLaceAluMove b th rd rs s
  | .laceStp b th rs n channel => Sys2Proof.Machine.execLaceStp b th rs n channel s
  | .laceSig b th channel => Sys2Proof.Machine.execLaceSig b th channel s
  | .laceEngineFault b address => Sys2Proof.Machine.execLaceEngineFault b address s
  | .vbBankFault b cause => Sys2Proof.Machine.execVbBankFault b cause s
  | .vbClearFault b => Sys2Proof.Machine.execVbClearFault b s
  | .vbPairClose b mask => Sys2Proof.Machine.execVbPairClose b mask s
  | .vbPairRelease b mask => Sys2Proof.Machine.execVbPairRelease b mask s
  | .spareTakeover b => Sys2Proof.Machine.execSpareTakeover b s
  | .spareLoadDone ok => Sys2Proof.Machine.execSpareLoadDone ok s
  | .spareHandover b => Sys2Proof.Machine.execSpareHandover b s
  | .spareReturn => Sys2Proof.Machine.execSpareReturn s
  | .blTraining dt b sent arrived => Sys2Proof.Machine.execBlTraining dt b sent arrived s
  | .blTrainingRetry b => Sys2Proof.Machine.execBlTrainingRetry b s
  | .blUplinkFrame b mark0 data0 mark1 data1 => Sys2Proof.Machine.execBlUplinkFrame b mark0 data0 mark1 data1 s
  | .blStatusMessage dt b => Sys2Proof.Machine.execBlStatusMessage dt b s
  | .blDescMessage dt b => Sys2Proof.Machine.execBlDescMessage dt b s
  | .blSlowMessageDiscard b => Sys2Proof.Machine.execBlSlowMessageDiscard b s
  | .blCommandAckTimeout b => Sys2Proof.Machine.execBlCommandAckTimeout b s
  | .blStageSilent b => Sys2Proof.Machine.execBlStageSilent b s
  | .blRetrain b => Sys2Proof.Machine.execBlRetrain b s
  | .blDisarm b => Sys2Proof.Machine.execBlDisarm b s
  | .blPhaseTrim b lat => Sys2Proof.Machine.execBlPhaseTrim b lat s
  | .adcSelfCalibrate mask => Sys2Proof.Machine.execAdcSelfCalibrate mask s
  | .adcSoftwareTrigger mask => Sys2Proof.Machine.execAdcSoftwareTrigger mask s
  | .adcTriggerTick tick => Sys2Proof.Machine.execAdcTriggerTick tick s
  | .adcDelayEmit who => Sys2Proof.Machine.execAdcDelayEmit who s
  | .adcTriggerSeen dt x => Sys2Proof.Machine.execAdcTriggerSeen dt x s
  | .adcConversionDone dt x c overload => Sys2Proof.Machine.execAdcConversionDone dt x c overload s
  | .adcResultWrite x => Sys2Proof.Machine.execAdcResultWrite x s
  | .adcSequenceEnd x => Sys2Proof.Machine.execAdcSequenceEnd x s
  | .adcCalibrationDone x meas => Sys2Proof.Machine.execAdcCalibrationDone x meas s
  | .adcReferenceReady ext => Sys2Proof.Machine.execAdcReferenceReady ext s
  | .adcConverterFault x cause => Sys2Proof.Machine.execAdcConverterFault x cause s
  | .spStart n v => Sys2Proof.Machine.execSpStart n v s
  | .spAbort n => Sys2Proof.Machine.execSpAbort n s
  | .spTxWrite n v => Sys2Proof.Machine.execSpTxWrite n v s
  | .spRxRead n => Sys2Proof.Machine.execSpRxRead n s
  | .spTransferComplete n rx => Sys2Proof.Machine.execSpTransferComplete n rx s
  | .spByteResume n => Sys2Proof.Machine.execSpByteResume n s
  | .spGuardStop n bits => Sys2Proof.Machine.execSpGuardStop n bits s
  | .spReadyChange n level => Sys2Proof.Machine.execSpReadyChange n level s
  | .spReadyTimeout n => Sys2Proof.Machine.execSpReadyTimeout n s
  | .spStatusFirstRetry n => Sys2Proof.Machine.execSpStatusFirstRetry n s
  | .xipFetch k offset => Sys2Proof.Machine.execXipFetch k offset s
  | .xipLineFillDone bytes => Sys2Proof.Machine.execXipLineFillDone bytes s
  | .xipInvalidate => Sys2Proof.Machine.execXipInvalidate s
  | .spsSelectFall => Sys2Proof.Machine.execSpsSelectFall s
  | .spsStatus long => Sys2Proof.Machine.execSpsStatus long s
  | .spsFault long => Sys2Proof.Machine.execSpsFault long s
  | .spsIdent long => Sys2Proof.Machine.execSpsIdent long s
  | .spsArm long key => Sys2Proof.Machine.execSpsArm long key s
  | .spsStop long key => Sys2Proof.Machine.execSpsStop long key s
  | .spsMalformed kind cmd => Sys2Proof.Machine.execSpsMalformed kind cmd s
  | .spsArmExpire => Sys2Proof.Machine.execSpsArmExpire s
  | .safeStopClear => Sys2Proof.Machine.execSafeStopClear s
  | .gpSet v => Sys2Proof.Machine.execGpSet v s
  | .gpClr v => Sys2Proof.Machine.execGpClr v s
  | .gpInputEdge p level stable => Sys2Proof.Machine.execGpInputEdge p level stable s
  | .add k rd ra rb => Sys2Proof.Machine.execAdd k rd ra rb s
  | .sub k rd ra rb => Sys2Proof.Machine.execSub k rd ra rb s
  | .adc k rd ra rb => Sys2Proof.Machine.execAdc k rd ra rb s
  | .sbc k rd ra rb => Sys2Proof.Machine.execSbc k rd ra rb s
  | .and k rd ra rb => Sys2Proof.Machine.execAnd k rd ra rb s
  | .or k rd ra rb => Sys2Proof.Machine.execOr k rd ra rb s
  | .xor k rd ra rb => Sys2Proof.Machine.execXor k rd ra rb s
  | .shl k rd ra rb sh => Sys2Proof.Machine.execShl k rd ra rb sh s
  | .shr k rd ra rb sh => Sys2Proof.Machine.execShr k rd ra rb sh s
  | .sar k rd ra rb sh => Sys2Proof.Machine.execSar k rd ra rb sh s
  | .mul k rd ra rb => Sys2Proof.Machine.execMul k rd ra rb s
  | .mulh k rd ra rb => Sys2Proof.Machine.execMulh k rd ra rb s
  | .mulhu k rd ra rb => Sys2Proof.Machine.execMulhu k rd ra rb s
  | .div k rd ra rb => Sys2Proof.Machine.execDiv k rd ra rb s
  | .divu k rd ra rb => Sys2Proof.Machine.execDivu k rd ra rb s
  | .min k rd ra rb => Sys2Proof.Machine.execMin k rd ra rb s
  | .max k rd ra rb => Sys2Proof.Machine.execMax k rd ra rb s
  | .minu k rd ra rb => Sys2Proof.Machine.execMinu k rd ra rb s
  | .maxu k rd ra rb => Sys2Proof.Machine.execMaxu k rd ra rb s
  | .adds k rd ra rb => Sys2Proof.Machine.execAdds k rd ra rb s
  | .subs k rd ra rb => Sys2Proof.Machine.execSubs k rd ra rb s
  | .sats k rd ra sh => Sys2Proof.Machine.execSats k rd ra sh s
  | .satu k rd ra sh => Sys2Proof.Machine.execSatu k rd ra sh s
  | .qmul k rd ra rb sh => Sys2Proof.Machine.execQmul k rd ra rb sh s
  | .qmulu k rd ra rb sh => Sys2Proof.Machine.execQmulu k rd ra rb sh s
  | .clz k rd ra => Sys2Proof.Machine.execClz k rd ra s
  | .addi k rd ra imm => Sys2Proof.Machine.execAddi k rd ra imm s
  | .andi k rd ra imm => Sys2Proof.Machine.execAndi k rd ra imm s
  | .ori k rd ra imm => Sys2Proof.Machine.execOri k rd ra imm s
  | .xori k rd ra imm => Sys2Proof.Machine.execXori k rd ra imm s
  | .lui k rd imm => Sys2Proof.Machine.execLui k rd imm s
  | .mfs k rd sr => Sys2Proof.Machine.execMfs k rd sr s
  | .mts k sr ra => Sys2Proof.Machine.execMts k sr ra s
  | .ldw k rd ra imm bad => Sys2Proof.Machine.execLdw k rd ra imm bad s
  | .ldh k rd ra imm bad => Sys2Proof.Machine.execLdh k rd ra imm bad s
  | .ldhu k rd ra imm bad => Sys2Proof.Machine.execLdhu k rd ra imm bad s
  | .ldb k rd ra imm bad => Sys2Proof.Machine.execLdb k rd ra imm bad s
  | .ldbu k rd ra imm bad => Sys2Proof.Machine.execLdbu k rd ra imm bad s
  | .stw k rs ra imm => Sys2Proof.Machine.execStw k rs ra imm s
  | .sth k rs ra imm => Sys2Proof.Machine.execSth k rs ra imm s
  | .stb k rs ra imm => Sys2Proof.Machine.execStb k rs ra imm s
  | .dld k rd ra imm => Sys2Proof.Machine.execDld k rd ra imm s
  | .dst k rs ra imm => Sys2Proof.Machine.execDst k rs ra imm s
  | .dstRefused c => Sys2Proof.Machine.execDstRefused c s
  | .br k cond off => Sys2Proof.Machine.execBr k cond off s
  | .bl k off => Sys2Proof.Machine.execBl k off s
  | .jalr k rd ra imm => Sys2Proof.Machine.execJalr k rd ra imm s
  | .qput k rs ra qi blk => Sys2Proof.Machine.execQput k rs ra qi blk s
  | .qget k rd ra qi blk => Sys2Proof.Machine.execQget k rd ra qi blk s
  | .queueResume c => Sys2Proof.Machine.execQueueResume c s
  | .queueTimeout c => Sys2Proof.Machine.execQueueTimeout c s
  | .wait k rd ra => Sys2Proof.Machine.execWait k rd ra s
  | .eventLatch => Sys2Proof.Machine.execEventLatch s
  | .waitDeliver c => Sys2Proof.Machine.execWaitDeliver c s
  | .waitTimeout c => Sys2Proof.Machine.execWaitTimeout c s
  | .post k ra n => Sys2Proof.Machine.execPost k ra n s
  | .lock k rd ra rank => Sys2Proof.Machine.execLock k rd ra rank s
  | .lockGrant k => Sys2Proof.Machine.execLockGrant k s
  | .unlock k rd => Sys2Proof.Machine.execUnlock k rd s
  | .lockLimitBreak k => Sys2Proof.Machine.execLockLimitBreak k s
  | .lockPreempt b debug => Sys2Proof.Machine.execLockPreempt b debug s
  | .enact k rd ra kind n => Sys2Proof.Machine.execEnact k rd ra kind n s
  | .enactCancel k rd ra => Sys2Proof.Machine.execEnactCancel k rd ra s
  | .admitSubmit k rd ra => Sys2Proof.Machine.execAdmitSubmit k rd ra s
  | .admitRelease k rd ra => Sys2Proof.Machine.execAdmitRelease k rd ra s
  | .admissionAnswer => Sys2Proof.Machine.execAdmissionAnswer s
  | .dma k rd ra => Sys2Proof.Machine.execDma k rd ra s
  | .dmaTransferDone k host bad => Sys2Proof.Machine.execDmaTransferDone k host bad s
  | .nop k => Sys2Proof.Machine.execNop k s
  | .yield k => Sys2Proof.Machine.execYield k s
  | .halt k => Sys2Proof.Machine.execHalt k s
  | .sync k => Sys2Proof.Machine.execSync k s
  | .trap k code => Sys2Proof.Machine.execTrap k code s
  | .contextSetup who c core auto => Sys2Proof.Machine.execContextSetup who c core auto s
  | .contextRelease who c => Sys2Proof.Machine.execContextRelease who c s
  | .contextStop who c => Sys2Proof.Machine.execContextStop who c s
  | .contextRestart who c => Sys2Proof.Machine.execContextRestart who c s
  | .coreReturnToService who k => Sys2Proof.Machine.execCoreReturnToService who k s
  | .taskReleasePeriodic c => Sys2Proof.Machine.execTaskReleasePeriodic c s
  | .taskReleaseEvent c => Sys2Proof.Machine.execTaskReleaseEvent c s
  | .budgetExhausted c => Sys2Proof.Machine.execBudgetExhausted c s
  | .deadlineReached c => Sys2Proof.Machine.execDeadlineReached c s
  | .graceExpired c => Sys2Proof.Machine.execGraceExpired c s
  | .sliceExpired k => Sys2Proof.Machine.execSliceExpired k s
  | .coreFault k saving => Sys2Proof.Machine.execCoreFault k saving s
  | .coreNoProgress k => Sys2Proof.Machine.execCoreNoProgress k s
  | .queueBind q producer consumer depth => Sys2Proof.Machine.execQueueBind q producer consumer depth s
  | .queueUnbind q => Sys2Proof.Machine.execQueueUnbind q s
  | .qbaseWrite v => Sys2Proof.Machine.execQbaseWrite v s
  | .fabricBeatGrant target gap cycle err => Sys2Proof.Machine.execFabricBeatGrant target gap cycle err s
  | .scrubPatrol finds => Sys2Proof.Machine.execScrubPatrol finds s
  | .rowRepair last bank row => Sys2Proof.Machine.execRowRepair last bank row s
  | .hostWriteReject l bar2 off v => Sys2Proof.Machine.execHostWriteReject l bar2 off v s
  | .hostBar0Read l off => Sys2Proof.Machine.execHostBar0Read l off s
  | .loaderWrite l off bytes => Sys2Proof.Machine.execLoaderWrite l off bytes s
  | .loaderClose l v => Sys2Proof.Machine.execLoaderClose l v s
  | .ringDoorbell l r v => Sys2Proof.Machine.execRingDoorbell l r v s
  | .ringCfgWrite l r f v => Sys2Proof.Machine.execRingCfgWrite l r f v s
  | .ringRecordWrite r => Sys2Proof.Machine.execRingRecordWrite r s
  | .ringEntryCopy r entry cause => Sys2Proof.Machine.execRingEntryCopy r entry cause s
  | .writebackConfirm r => Sys2Proof.Machine.execWritebackConfirm r s
  | .linkFail l cause => Sys2Proof.Machine.execLinkFail l cause s
  | .linkTrained l rate repaired => Sys2Proof.Machine.execLinkTrained l rate repaired s
  | .d3hotChange l on => Sys2Proof.Machine.execD3hotChange l on s
  | .msixUnmask l v => Sys2Proof.Machine.execMsixUnmask l v s
  | .featAcceptWrite who w v => Sys2Proof.Machine.execFeatAcceptWrite who w v s
  | .featureCommit who v => Sys2Proof.Machine.execFeatureCommit who v s
  | .featureWindowTimeout => Sys2Proof.Machine.execFeatureWindowTimeout s
  | .activityRequest a => Sys2Proof.Machine.execActivityRequest a s
  | .activityEnd a => Sys2Proof.Machine.execActivityEnd a s
  | .activityAbort a => Sys2Proof.Machine.execActivityAbort a s
  | .activityFree a => Sys2Proof.Machine.execActivityFree a s
  | .activityStart a => Sys2Proof.Machine.execActivityStart a s
  | .activitySelfEnd a => Sys2Proof.Machine.execActivitySelfEnd a s
  | .activityFail a => Sys2Proof.Machine.execActivityFail a s
  | .fmRetireCopyLine => Sys2Proof.Machine.execFmRetireCopyLine s
  | .fmRetireSwitch => Sys2Proof.Machine.execFmRetireSwitch s
  | .trimTick bg sens dev term phase lanes => Sys2Proof.Machine.execTrimTick bg sens dev term phase lanes s
  | .faultRecordEnter => Sys2Proof.Machine.execFaultRecordEnter s
  | .fltSet => Sys2Proof.Machine.execFltSet s
  | .fltClear => Sys2Proof.Machine.execFltClear s
  | .tapDeviceRead addr => Sys2Proof.Machine.execTapDeviceRead addr s
  | .tapDeviceWrite addr data => Sys2Proof.Machine.execTapDeviceWrite addr data s
  | .tapForcedWrite addr data => Sys2Proof.Machine.execTapForcedWrite addr data s
  | .tapResetUpdate v => Sys2Proof.Machine.execTapResetUpdate v s
  | .otherRegisterWrite who a v => Sys2Proof.Machine.execOtherRegisterWrite who a v s
  | .pllLockLost p => Sys2Proof.Machine.execPllLockLost p s
  | .linkLeavesActive l => Sys2Proof.Machine.execLinkLeavesActive l s
  | .illegalInstruction k opcode => Sys2Proof.Machine.execIllegalInstruction k opcode s
  | .fetchFault k bad => Sys2Proof.Machine.execFetchFault k bad s
  | .externalReferenceLow low => Sys2Proof.Machine.execExternalReferenceLow low s
  | .excitationAtCompliance n at_ => Sys2Proof.Machine.execExcitationAtCompliance n at_ s
  | .tapInstructionUpdate ir => Sys2Proof.Machine.execTapInstructionUpdate ir s

end Sys2Proof.Machine
end

