-- ==== Sys2Proof/Laws/Memory.lean ====
section
/-! SUPPORT. Laws/Memory.lean: reading and writing a finite map, and that every write keeps the canonical form of the memories. -/
namespace Sys2Proof.Machine

theorem SMap.find_put_same {β : Type} (m : SMap β) (k : Nat) (v : β) : SMap.find (SMap.put m k v) k = some v := by
  induction m with
  | nil => simp [SMap.put, SMap.find]
  | cons p m ih =>
    obtain ⟨j, w⟩ := p
    simp only [SMap.put]
    split
    · simp [SMap.find]
    · split
      · simp [SMap.find]
      · rw [SMap.find, if_neg (by omega), ih]

theorem SMap.find_put_other {β : Type} (m : SMap β) {k a : Nat} (v : β) (h : a ≠ k) :
    SMap.find (SMap.put m k v) a = SMap.find m a := by
  induction m with
  | nil => simp [SMap.put, SMap.find, Ne.symm h]
  | cons p m ih =>
    obtain ⟨j, w⟩ := p
    simp only [SMap.put]
    split
    · rw [SMap.find, if_neg (Ne.symm h)]
    · split
      · next hkj => subst hkj; rw [SMap.find, if_neg (Ne.symm h), SMap.find, if_neg (Ne.symm h)]
      · simp only [SMap.find, ih]

theorem SMap.find_del_same {β : Type} (m : SMap β) (k : Nat) : SMap.find (SMap.del m k) k = none := by
  induction m with
  | nil => rfl
  | cons p m ih =>
    obtain ⟨j, w⟩ := p
    simp only [SMap.del]
    split
    · exact ih
    · next h => rw [SMap.find, if_neg h, ih]

theorem SMap.find_del_other {β : Type} (m : SMap β) {k a : Nat} (h : a ≠ k) : SMap.find (SMap.del m k) a = SMap.find m a := by
  induction m with
  | nil => rfl
  | cons p m ih =>
    obtain ⟨j, w⟩ := p
    simp only [SMap.del]
    split
    · next hj => subst hj; rw [ih, SMap.find, if_neg (Ne.symm h)]
    · simp only [SMap.find, ih]

/-- A key reads as it was written. -/
@[simp] theorem SMap.get_set_same {β : Type} [DecidableEq β] (d : β) (m : SMap β) (k : Nat) (v : β) :
    SMap.get d (SMap.set d m k v) k = v := by
  unfold SMap.set
  split
  · next h => simp [SMap.get, SMap.find_del_same, h]
  · simp [SMap.get, SMap.find_put_same]

/-- A write leaves every other key alone. -/
theorem SMap.get_set_other {β : Type} [DecidableEq β] (d : β) (m : SMap β) {k a : Nat} (v : β) (h : a ≠ k) :
    SMap.get d (SMap.set d m k v) a = SMap.get d m a := by
  unfold SMap.set
  split
  · simp [SMap.get, SMap.find_del_other m h]
  · simp [SMap.get, SMap.find_put_other m v h]

/-- The default of the written key does not matter to another key. -/
theorem SMap.get_set_other' {β : Type} [DecidableEq β] (d e : β) (m : SMap β) {k a : Nat} (v : β) (h : a ≠ k) :
    SMap.get e (SMap.set d m k v) a = SMap.get e m a := by
  unfold SMap.set
  split
  · simp [SMap.get, SMap.find_del_other m h]
  · simp [SMap.get, SMap.find_put_other m v h]

theorem SMap.get_set {β : Type} [DecidableEq β] (d : β) (m : SMap β) (k a : Nat) (v : β) :
    SMap.get d (SMap.set d m k v) a = if a = k then v else SMap.get d m a := by
  split
  · next h => subst h; simp
  · next h => exact SMap.get_set_other d m v h

theorem SMap.mem_put {β : Type} {m : SMap β} {k : Nat} {v : β} {p : Nat × β} (h : p ∈ SMap.put m k v) : p = (k, v) ∨ p ∈ m := by
  induction m with
  | nil => simpa [SMap.put] using h
  | cons q m ih =>
    obtain ⟨j, w⟩ := q
    simp only [SMap.put] at h
    split at h
    · simpa using h
    · split at h
      · rcases List.mem_cons.mp h with h | h
        · exact .inl h
        · exact .inr (List.mem_cons_of_mem _ h)
      · rcases List.mem_cons.mp h with h | h
        · exact .inr (by simp [h])
        · rcases ih h with h | h
          · exact .inl h
          · exact .inr (List.mem_cons_of_mem _ h)

theorem SMap.mem_del {β : Type} {m : SMap β} {k : Nat} {p : Nat × β} (h : p ∈ SMap.del m k) : p ∈ m := by
  induction m with
  | nil => simp [SMap.del] at h
  | cons q m ih =>
    obtain ⟨j, w⟩ := q
    simp only [SMap.del] at h
    split at h
    · exact List.mem_cons_of_mem _ (ih h)
    · rcases List.mem_cons.mp h with h | h
      · simp [h]
      · exact List.mem_cons_of_mem _ (ih h)

theorem SMap.sorted_put {β : Type} {m : SMap β} {k : Nat} {v : β} (h : m.Pairwise (fun a b => a.1 < b.1)) :
    (SMap.put m k v).Pairwise (fun a b => a.1 < b.1) := by
  induction m with
  | nil => simp [SMap.put]
  | cons q m ih =>
    obtain ⟨j, w⟩ := q
    simp only [SMap.put]
    rw [List.pairwise_cons] at h
    split
    · next hk =>
      refine List.pairwise_cons.mpr ⟨fun b hb => ?_, List.pairwise_cons.mpr h⟩
      rcases List.mem_cons.mp hb with hb | hb
      · subst hb; exact hk
      · exact Nat.lt_trans hk (h.1 b hb)
    · split
      · next hk => subst hk; exact List.pairwise_cons.mpr h
      · refine List.pairwise_cons.mpr ⟨fun b hb => ?_, ih h.2⟩
        rcases SMap.mem_put hb with hb | hb
        · subst hb; dsimp only; omega
        · exact h.1 b hb

theorem SMap.sorted_del {β : Type} {m : SMap β} {k : Nat} (h : m.Pairwise (fun a b => a.1 < b.1)) :
    (SMap.del m k).Pairwise (fun a b => a.1 < b.1) := by
  induction m with
  | nil => simp [SMap.del]
  | cons q m ih =>
    obtain ⟨j, w⟩ := q
    simp only [SMap.del]
    rw [List.pairwise_cons] at h
    split
    · exact ih h.2
    · exact List.pairwise_cons.mpr ⟨fun b hb => h.1 b (SMap.mem_del hb), ih h.2⟩

/-- A write keeps the canonical form. -/
theorem SMap.wf_set {β : Type} [DecidableEq β] {d : Nat → β} {m : SMap β} (k : Nat) (v : β) (h : SMap.wf d m) :
    SMap.wf d (SMap.set (d k) m k v) := by
  unfold SMap.set
  split
  · exact ⟨SMap.sorted_del h.1, fun p hp => h.2 p (SMap.mem_del hp)⟩
  · next hv =>
    refine ⟨SMap.sorted_put h.1, fun p hp => ?_⟩
    rcases SMap.mem_put hp with hp | hp
    · subst hp; exact hv
    · exact h.2 p hp

/-- Every memory write keeps the canonical form. -/
theorem Mem.wf_write {m : Mem} (w : MemWrite) (h : m.wf) : (m.write w).wf := by
  obtain ⟨h1, h2, h3⟩ := h
  cases w with
  | frame a b => simp only [Mem.write]; split; exacts [⟨SMap.wf_set a b h1, h2, h3⟩, ⟨h1, h2, h3⟩]
  | loc a b => simp only [Mem.write]; split; exacts [⟨h1, SMap.wf_set a b h2, h3⟩, ⟨h1, h2, h3⟩]
  | last r v => simp only [Mem.write]; split; exacts [⟨h1, h2, SMap.wf_set r v h3⟩, ⟨h1, h2, h3⟩]

theorem Mem.wf_writes {m : Mem} (l : List MemWrite) (h : m.wf) : (m.writes l).wf := by
  induction l generalizing m with
  | nil => exact h
  | cons w l ih => exact ih (Mem.wf_write w h)

theorem Mem.wf_reset : Mem.reset.wf := ⟨⟨List.Pairwise.nil, by simp [Mem.reset]⟩, ⟨List.Pairwise.nil, by simp [Mem.reset]⟩, ⟨List.Pairwise.nil, by simp [Mem.reset]⟩⟩

/-! ## Reading after writing -/

@[simp] theorem Mem.frameByte_frame_same (m : Mem) (a : Nat) (b : Byte) (h : a < frameBytes) : (m.write (.frame a b)).frameByte a = b := by
  simp [Mem.write, Mem.frameByte, h]
theorem Mem.frameByte_frame_other (m : Mem) {a c : Nat} (b : Byte) (h : c ≠ a) : (m.write (.frame a b)).frameByte c = m.frameByte c := by
  simp only [Mem.write, Mem.frameByte]; split; exacts [SMap.get_set_other _ _ b h, rfl]
@[simp] theorem Mem.frameByte_loc (m : Mem) (a c : Nat) (b : Byte) : (m.write (.loc a b)).frameByte c = m.frameByte c := by
  simp only [Mem.write, Mem.frameByte]; split <;> rfl
@[simp] theorem Mem.frameByte_last (m : Mem) (r c : Nat) (v : Dword) : (m.write (.last r v)).frameByte c = m.frameByte c := by
  simp only [Mem.write, Mem.frameByte]; split <;> rfl
@[simp] theorem Mem.locByte_loc_same (m : Mem) (a : Nat) (b : Byte) (h : a < 2 ^ 20) : (m.write (.loc a b)).locByte a = b := by
  simp only [Mem.write, Mem.locByte, if_pos h, SMap.get_set_same]
theorem Mem.locByte_loc_other (m : Mem) {a c : Nat} (b : Byte) (h : c ≠ a) : (m.write (.loc a b)).locByte c = m.locByte c := by
  simp only [Mem.write, Mem.locByte]; split; exacts [SMap.get_set_other _ _ b h, rfl]
@[simp] theorem Mem.locByte_frame (m : Mem) (a c : Nat) (b : Byte) : (m.write (.frame a b)).locByte c = m.locByte c := by
  simp only [Mem.write, Mem.locByte]; split <;> rfl
@[simp] theorem Mem.locByte_last (m : Mem) (r c : Nat) (v : Dword) : (m.write (.last r v)).locByte c = m.locByte c := by
  simp only [Mem.write, Mem.locByte]; split <;> rfl
@[simp] theorem Mem.lastRec_last_same (m : Mem) (r : Nat) (v : Dword) (h : r < 16 * 983040) : (m.write (.last r v)).lastRec r = v := by
  simp only [Mem.write, Mem.lastRec, if_pos h, SMap.get_set_same]
theorem Mem.lastRec_last_other (m : Mem) {r c : Nat} (v : Dword) (h : c ≠ r) : (m.write (.last r v)).lastRec c = m.lastRec c := by
  simp only [Mem.write, Mem.lastRec]; split; exacts [SMap.get_set_other _ _ v h, rfl]
@[simp] theorem Mem.lastRec_frame (m : Mem) (a c : Nat) (b : Byte) : (m.write (.frame a b)).lastRec c = m.lastRec c := by
  simp only [Mem.write, Mem.lastRec]; split <;> rfl
@[simp] theorem Mem.lastRec_loc (m : Mem) (a c : Nat) (b : Byte) : (m.write (.loc a b)).lastRec c = m.lastRec c := by
  simp only [Mem.write, Mem.lastRec]; split <;> rfl

/-! ## Registers -/

@[simp] theorem Dev.rd_wr_same (d : Dev) (a : Nat) (v : Word) : (d.wr a v).rd a = v := by simp [Dev.rd, Dev.wr]
theorem Dev.rd_wr_other (d : Dev) {a b : Nat} (v : Word) (h : b ≠ a) : (d.wr a v).rd b = d.rd b := by
  simp only [Dev.rd, Dev.wr]; exact SMap.get_set_other' _ _ _ _ h
theorem Dev.rd_wr (d : Dev) (a b : Nat) (v : Word) : (d.wr a v).rd b = if b = a then v else d.rd b := by
  split
  · next h => subst h; simp
  · next h => exact Dev.rd_wr_other d v h
@[simp] theorem Dev.srd_swr_same (d : Dev) (a : Nat) (v : Word) : (d.swr a v).srd a = v := by simp [Dev.srd, Dev.swr]
theorem Dev.srd_swr_other (d : Dev) {a b : Nat} (v : Word) (h : b ≠ a) : (d.swr a v).srd b = d.srd b := by
  simp only [Dev.srd, Dev.swr]; exact SMap.get_set_other' _ _ _ _ h
@[simp] theorem Dev.srd_wr (d : Dev) (a b : Nat) (v : Word) : (d.wr a v).srd b = d.srd b := rfl
@[simp] theorem Dev.rd_swr (d : Dev) (a b : Nat) (v : Word) : (d.swr a v).rd b = d.rd b := rfl

end Sys2Proof.Machine
end

