-- ==== Sys2Proof/Laws/State.lean ====
section
/-! SUPPORT. Laws/State.lean: what each record update leaves of every field, one lemma per field and update, by rfl. -/
namespace Sys2Proof.Machine

@[simp] theorem State.reach_pending (s : State) (t : Nat) : (s.reach t).pending = s.pending := rfl
@[simp] theorem State.reach_mem (s : State) (t : Nat) : (s.reach t).mem = s.mem := rfl
@[simp] theorem State.reach_dev (s : State) (t : Nat) : (s.reach t).dev = s.dev := rfl
@[simp] theorem State.pass_pending (s : State) (dt : Nat) : (s.pass dt).pending = s.pending := rfl
@[simp] theorem State.pass_mem (s : State) (dt : Nat) : (s.pass dt).mem = s.mem := rfl
@[simp] theorem State.pass_dev (s : State) (dt : Nat) : (s.pass dt).dev = s.dev := rfl
@[simp] theorem State.withDev_pending (s : State) (d : Dev) : (s.withDev d).pending = s.pending := rfl
@[simp] theorem State.withDev_clock (s : State) (d : Dev) : (s.withDev d).clock = s.clock := rfl
@[simp] theorem State.withDev_mem (s : State) (d : Dev) : (s.withDev d).mem = s.mem := rfl
@[simp] theorem State.withDev_dev (s : State) (d : Dev) : (s.withDev d).dev = d := rfl
@[simp] theorem State.write_pending (s : State) (t req : Nat) (r : Dev × List MemWrite) : (s.write t req r).pending = s.pending := rfl
@[simp] theorem State.write_clock (s : State) (t req : Nat) (r : Dev × List MemWrite) : (s.write t req r).clock = s.clock := rfl
@[simp] theorem State.write_dev (s : State) (t req : Nat) (r : Dev × List MemWrite) : (s.write t req r).dev = (r.1.land t req r.2).1 := rfl
@[simp] theorem State.write_mem (s : State) (t req : Nat) (r : Dev × List MemWrite) :
    (s.write t req r).mem = s.mem.writes (r.1.land t req r.2).2 := rfl
/-- With no write beat waiting, no requester stalls (R394). -/
@[simp] theorem State.writeOrStall_free (s : State) (t req : Nat) (r : Dev × List MemWrite) (h : s.dev.fab.held = []) :
    s.writeOrStall t req r = s.write t req r := by simp [State.writeOrStall, h]
@[simp] theorem State.swapsAt_pending (s : State) (b : Boundary) (p : SetId → Bool) : (s.swapsAt b p).pending = s.pending := rfl
@[simp] theorem State.swapsAt_mem (s : State) (b : Boundary) (p : SetId → Bool) : (s.swapsAt b p).mem = s.mem := rfl
@[simp] theorem State.now_dtime (s : State) : s.now.dtime = s.clock.dtime := rfl
@[simp] theorem State.now_wpos (s : State) : s.now.wpos = s.clock.wpos := rfl
@[simp] theorem State.now_frac (s : State) : s.now.frac = s.clock.frac := rfl
@[simp] theorem State.running_reach (s : State) (t : Nat) : (s.reach t).running = s.running := rfl
@[simp] theorem State.running_pass (s : State) (t : Nat) : (s.pass t).running = s.running := rfl
@[simp] theorem Clock.reach_wpos (c : Clock) (t : Nat) : (c.reach t).wpos = c.wpos := by unfold Clock.reach; split <;> rfl
@[simp] theorem Clock.reach_frac (c : Clock) (t : Nat) : (c.reach t).frac = c.frac := by unfold Clock.reach; split <;> rfl
@[simp] theorem Clock.reach_drive (c : Clock) (t : Nat) : (c.reach t).drive = c.drive := by unfold Clock.reach; split <;> rfl
@[simp] theorem Clock.pass_wpos (c : Clock) (t : Nat) : (c.pass t).wpos = c.wpos := by unfold Clock.pass; split <;> rfl
@[simp] theorem Clock.pass_frac (c : Clock) (t : Nat) : (c.pass t).frac = c.frac := by unfold Clock.pass; split <;> rfl
@[simp] theorem Clock.pass_drive (c : Clock) (t : Nat) : (c.pass t).drive = c.drive := by unfold Clock.pass; split <;> rfl

@[simp] theorem Dev.wr_regs (d : Dev) (a : Nat) (v : Word) : (d.wr a v).regs = { d.regs with live := SMap.set (regReset a) d.regs.live a v } := rfl
@[simp] theorem Dev.wr_free (d : Dev) (a : Nat) (v : Word) : (d.wr a v).free = d.free := rfl
@[simp] theorem Dev.wr_ev (d : Dev) (a : Nat) (v : Word) : (d.wr a v).ev = d.ev := rfl
@[simp] theorem Dev.wr_flt (d : Dev) (a : Nat) (v : Word) : (d.wr a v).flt = d.flt := rfl
@[simp] theorem Dev.wr_sent (d : Dev) (a : Nat) (v : Word) : (d.wr a v).sent = d.sent := rfl
@[simp] theorem Dev.wr_pw (d : Dev) (a : Nat) (v : Word) : (d.wr a v).pw = d.pw := rfl
@[simp] theorem Dev.wr_web (d : Dev) (a : Nat) (v : Word) : (d.wr a v).web = d.web := rfl
@[simp] theorem Dev.wr_hp (d : Dev) (a : Nat) (v : Word) : (d.wr a v).hp = d.hp := rfl
@[simp] theorem Dev.wr_pl (d : Dev) (a : Nat) (v : Word) : (d.wr a v).pl = d.pl := rfl
@[simp] theorem Dev.wr_pipes (d : Dev) (a : Nat) (v : Word) : (d.wr a v).pipes = d.pipes := rfl
@[simp] theorem Dev.wr_wm (d : Dev) (a : Nat) (v : Word) : (d.wr a v).wm = d.wm := rfl
@[simp] theorem Dev.wr_bv (d : Dev) (a : Nat) (v : Word) : (d.wr a v).bv = d.bv := rfl
@[simp] theorem Dev.wr_vb (d : Dev) (a : Nat) (v : Word) : (d.wr a v).vb = d.vb := rfl
@[simp] theorem Dev.wr_spare (d : Dev) (a : Nat) (v : Word) : (d.wr a v).spare = d.spare := rfl
@[simp] theorem Dev.wr_bl (d : Dev) (a : Nat) (v : Word) : (d.wr a v).bl = d.bl := rfl
@[simp] theorem Dev.wr_safe (d : Dev) (a : Nat) (v : Word) : (d.wr a v).safe = d.safe := rfl
@[simp] theorem Dev.wr_an (d : Dev) (a : Nat) (v : Word) : (d.wr a v).an = d.an := rfl
@[simp] theorem Dev.wr_ana (d : Dev) (a : Nat) (v : Word) : (d.wr a v).ana = d.ana := rfl
@[simp] theorem Dev.wr_sp (d : Dev) (a : Nat) (v : Word) : (d.wr a v).sp = d.sp := rfl
@[simp] theorem Dev.wr_xip (d : Dev) (a : Nat) (v : Word) : (d.wr a v).xip = d.xip := rfl
@[simp] theorem Dev.wr_sps (d : Dev) (a : Nat) (v : Word) : (d.wr a v).sps = d.sps := rfl
@[simp] theorem Dev.wr_lt (d : Dev) (a : Nat) (v : Word) : (d.wr a v).lt = d.lt := rfl
@[simp] theorem Dev.wr_tk (d : Dev) (a : Nat) (v : Word) : (d.wr a v).tk = d.tk := rfl
@[simp] theorem Dev.wr_fab (d : Dev) (a : Nat) (v : Word) : (d.wr a v).fab = d.fab := rfl
@[simp] theorem Dev.wr_hx (d : Dev) (a : Nat) (v : Word) : (d.wr a v).hx = d.hx := rfl
@[simp] theorem Dev.wr_slots (d : Dev) (a : Nat) (v : Word) : (d.wr a v).slots = d.slots := rfl
@[simp] theorem Dev.wr_trim (d : Dev) (a : Nat) (v : Word) : (d.wr a v).trim = d.trim := rfl
@[simp] theorem Dev.wr_tap (d : Dev) (a : Nat) (v : Word) : (d.wr a v).tap = d.tap := rfl

@[simp] theorem Dev.swr_regs (d : Dev) (a : Nat) (v : Word) : (d.swr a v).regs = { d.regs with shadow := SMap.set (regReset a) d.regs.shadow a v } := rfl
@[simp] theorem Dev.swr_free (d : Dev) (a : Nat) (v : Word) : (d.swr a v).free = d.free := rfl
@[simp] theorem Dev.swr_ev (d : Dev) (a : Nat) (v : Word) : (d.swr a v).ev = d.ev := rfl
@[simp] theorem Dev.swr_flt (d : Dev) (a : Nat) (v : Word) : (d.swr a v).flt = d.flt := rfl
@[simp] theorem Dev.swr_sent (d : Dev) (a : Nat) (v : Word) : (d.swr a v).sent = d.sent := rfl
@[simp] theorem Dev.swr_pw (d : Dev) (a : Nat) (v : Word) : (d.swr a v).pw = d.pw := rfl
@[simp] theorem Dev.swr_web (d : Dev) (a : Nat) (v : Word) : (d.swr a v).web = d.web := rfl
@[simp] theorem Dev.swr_hp (d : Dev) (a : Nat) (v : Word) : (d.swr a v).hp = d.hp := rfl
@[simp] theorem Dev.swr_pl (d : Dev) (a : Nat) (v : Word) : (d.swr a v).pl = d.pl := rfl
@[simp] theorem Dev.swr_pipes (d : Dev) (a : Nat) (v : Word) : (d.swr a v).pipes = d.pipes := rfl
@[simp] theorem Dev.swr_wm (d : Dev) (a : Nat) (v : Word) : (d.swr a v).wm = d.wm := rfl
@[simp] theorem Dev.swr_bv (d : Dev) (a : Nat) (v : Word) : (d.swr a v).bv = d.bv := rfl
@[simp] theorem Dev.swr_vb (d : Dev) (a : Nat) (v : Word) : (d.swr a v).vb = d.vb := rfl
@[simp] theorem Dev.swr_spare (d : Dev) (a : Nat) (v : Word) : (d.swr a v).spare = d.spare := rfl
@[simp] theorem Dev.swr_bl (d : Dev) (a : Nat) (v : Word) : (d.swr a v).bl = d.bl := rfl
@[simp] theorem Dev.swr_safe (d : Dev) (a : Nat) (v : Word) : (d.swr a v).safe = d.safe := rfl
@[simp] theorem Dev.swr_an (d : Dev) (a : Nat) (v : Word) : (d.swr a v).an = d.an := rfl
@[simp] theorem Dev.swr_ana (d : Dev) (a : Nat) (v : Word) : (d.swr a v).ana = d.ana := rfl
@[simp] theorem Dev.swr_sp (d : Dev) (a : Nat) (v : Word) : (d.swr a v).sp = d.sp := rfl
@[simp] theorem Dev.swr_xip (d : Dev) (a : Nat) (v : Word) : (d.swr a v).xip = d.xip := rfl
@[simp] theorem Dev.swr_sps (d : Dev) (a : Nat) (v : Word) : (d.swr a v).sps = d.sps := rfl
@[simp] theorem Dev.swr_lt (d : Dev) (a : Nat) (v : Word) : (d.swr a v).lt = d.lt := rfl
@[simp] theorem Dev.swr_tk (d : Dev) (a : Nat) (v : Word) : (d.swr a v).tk = d.tk := rfl
@[simp] theorem Dev.swr_fab (d : Dev) (a : Nat) (v : Word) : (d.swr a v).fab = d.fab := rfl
@[simp] theorem Dev.swr_hx (d : Dev) (a : Nat) (v : Word) : (d.swr a v).hx = d.hx := rfl
@[simp] theorem Dev.swr_slots (d : Dev) (a : Nat) (v : Word) : (d.swr a v).slots = d.slots := rfl
@[simp] theorem Dev.swr_trim (d : Dev) (a : Nat) (v : Word) : (d.swr a v).trim = d.trim := rfl
@[simp] theorem Dev.swr_tap (d : Dev) (a : Nat) (v : Word) : (d.swr a v).tap = d.tap := rfl

@[simp] theorem Dev.setGen_regs (d : Dev) (x : SetId) (g : Nat) : (d.setGen x g).regs = { d.regs with gens := assign d.regs.gens x (g % 65536) } := rfl
@[simp] theorem Dev.setGen_free (d : Dev) (x : SetId) (g : Nat) : (d.setGen x g).free = d.free := rfl
@[simp] theorem Dev.setGen_ev (d : Dev) (x : SetId) (g : Nat) : (d.setGen x g).ev = d.ev := rfl
@[simp] theorem Dev.setGen_flt (d : Dev) (x : SetId) (g : Nat) : (d.setGen x g).flt = d.flt := rfl
@[simp] theorem Dev.setGen_sent (d : Dev) (x : SetId) (g : Nat) : (d.setGen x g).sent = d.sent := rfl
@[simp] theorem Dev.setGen_pw (d : Dev) (x : SetId) (g : Nat) : (d.setGen x g).pw = d.pw := rfl
@[simp] theorem Dev.setGen_web (d : Dev) (x : SetId) (g : Nat) : (d.setGen x g).web = d.web := rfl
@[simp] theorem Dev.setGen_hp (d : Dev) (x : SetId) (g : Nat) : (d.setGen x g).hp = d.hp := rfl
@[simp] theorem Dev.setGen_pl (d : Dev) (x : SetId) (g : Nat) : (d.setGen x g).pl = d.pl := rfl
@[simp] theorem Dev.setGen_pipes (d : Dev) (x : SetId) (g : Nat) : (d.setGen x g).pipes = d.pipes := rfl
@[simp] theorem Dev.setGen_wm (d : Dev) (x : SetId) (g : Nat) : (d.setGen x g).wm = d.wm := rfl
@[simp] theorem Dev.setGen_bv (d : Dev) (x : SetId) (g : Nat) : (d.setGen x g).bv = d.bv := rfl
@[simp] theorem Dev.setGen_vb (d : Dev) (x : SetId) (g : Nat) : (d.setGen x g).vb = d.vb := rfl
@[simp] theorem Dev.setGen_spare (d : Dev) (x : SetId) (g : Nat) : (d.setGen x g).spare = d.spare := rfl
@[simp] theorem Dev.setGen_bl (d : Dev) (x : SetId) (g : Nat) : (d.setGen x g).bl = d.bl := rfl
@[simp] theorem Dev.setGen_safe (d : Dev) (x : SetId) (g : Nat) : (d.setGen x g).safe = d.safe := rfl
@[simp] theorem Dev.setGen_an (d : Dev) (x : SetId) (g : Nat) : (d.setGen x g).an = d.an := rfl
@[simp] theorem Dev.setGen_ana (d : Dev) (x : SetId) (g : Nat) : (d.setGen x g).ana = d.ana := rfl
@[simp] theorem Dev.setGen_sp (d : Dev) (x : SetId) (g : Nat) : (d.setGen x g).sp = d.sp := rfl
@[simp] theorem Dev.setGen_xip (d : Dev) (x : SetId) (g : Nat) : (d.setGen x g).xip = d.xip := rfl
@[simp] theorem Dev.setGen_sps (d : Dev) (x : SetId) (g : Nat) : (d.setGen x g).sps = d.sps := rfl
@[simp] theorem Dev.setGen_lt (d : Dev) (x : SetId) (g : Nat) : (d.setGen x g).lt = d.lt := rfl
@[simp] theorem Dev.setGen_tk (d : Dev) (x : SetId) (g : Nat) : (d.setGen x g).tk = d.tk := rfl
@[simp] theorem Dev.setGen_fab (d : Dev) (x : SetId) (g : Nat) : (d.setGen x g).fab = d.fab := rfl
@[simp] theorem Dev.setGen_hx (d : Dev) (x : SetId) (g : Nat) : (d.setGen x g).hx = d.hx := rfl
@[simp] theorem Dev.setGen_slots (d : Dev) (x : SetId) (g : Nat) : (d.setGen x g).slots = d.slots := rfl
@[simp] theorem Dev.setGen_trim (d : Dev) (x : SetId) (g : Nat) : (d.setGen x g).trim = d.trim := rfl
@[simp] theorem Dev.setGen_tap (d : Dev) (x : SetId) (g : Nat) : (d.setGen x g).tap = d.tap := rfl

@[simp] theorem Dev.dropSwap_regs (d : Dev) (x : SetId) : (d.dropSwap x).regs = { d.regs with swaps := d.regs.swaps.filter (fun w => decide (w.set ≠ x)) } := rfl
@[simp] theorem Dev.dropSwap_free (d : Dev) (x : SetId) : (d.dropSwap x).free = d.free := rfl
@[simp] theorem Dev.dropSwap_ev (d : Dev) (x : SetId) : (d.dropSwap x).ev = d.ev := rfl
@[simp] theorem Dev.dropSwap_flt (d : Dev) (x : SetId) : (d.dropSwap x).flt = d.flt := rfl
@[simp] theorem Dev.dropSwap_sent (d : Dev) (x : SetId) : (d.dropSwap x).sent = d.sent := rfl
@[simp] theorem Dev.dropSwap_pw (d : Dev) (x : SetId) : (d.dropSwap x).pw = d.pw := rfl
@[simp] theorem Dev.dropSwap_web (d : Dev) (x : SetId) : (d.dropSwap x).web = d.web := rfl
@[simp] theorem Dev.dropSwap_hp (d : Dev) (x : SetId) : (d.dropSwap x).hp = d.hp := rfl
@[simp] theorem Dev.dropSwap_pl (d : Dev) (x : SetId) : (d.dropSwap x).pl = d.pl := rfl
@[simp] theorem Dev.dropSwap_pipes (d : Dev) (x : SetId) : (d.dropSwap x).pipes = d.pipes := rfl
@[simp] theorem Dev.dropSwap_wm (d : Dev) (x : SetId) : (d.dropSwap x).wm = d.wm := rfl
@[simp] theorem Dev.dropSwap_bv (d : Dev) (x : SetId) : (d.dropSwap x).bv = d.bv := rfl
@[simp] theorem Dev.dropSwap_vb (d : Dev) (x : SetId) : (d.dropSwap x).vb = d.vb := rfl
@[simp] theorem Dev.dropSwap_spare (d : Dev) (x : SetId) : (d.dropSwap x).spare = d.spare := rfl
@[simp] theorem Dev.dropSwap_bl (d : Dev) (x : SetId) : (d.dropSwap x).bl = d.bl := rfl
@[simp] theorem Dev.dropSwap_safe (d : Dev) (x : SetId) : (d.dropSwap x).safe = d.safe := rfl
@[simp] theorem Dev.dropSwap_an (d : Dev) (x : SetId) : (d.dropSwap x).an = d.an := rfl
@[simp] theorem Dev.dropSwap_ana (d : Dev) (x : SetId) : (d.dropSwap x).ana = d.ana := rfl
@[simp] theorem Dev.dropSwap_sp (d : Dev) (x : SetId) : (d.dropSwap x).sp = d.sp := rfl
@[simp] theorem Dev.dropSwap_xip (d : Dev) (x : SetId) : (d.dropSwap x).xip = d.xip := rfl
@[simp] theorem Dev.dropSwap_sps (d : Dev) (x : SetId) : (d.dropSwap x).sps = d.sps := rfl
@[simp] theorem Dev.dropSwap_lt (d : Dev) (x : SetId) : (d.dropSwap x).lt = d.lt := rfl
@[simp] theorem Dev.dropSwap_tk (d : Dev) (x : SetId) : (d.dropSwap x).tk = d.tk := rfl
@[simp] theorem Dev.dropSwap_fab (d : Dev) (x : SetId) : (d.dropSwap x).fab = d.fab := rfl
@[simp] theorem Dev.dropSwap_hx (d : Dev) (x : SetId) : (d.dropSwap x).hx = d.hx := rfl
@[simp] theorem Dev.dropSwap_slots (d : Dev) (x : SetId) : (d.dropSwap x).slots = d.slots := rfl
@[simp] theorem Dev.dropSwap_trim (d : Dev) (x : SetId) : (d.dropSwap x).trim = d.trim := rfl
@[simp] theorem Dev.dropSwap_tap (d : Dev) (x : SetId) : (d.dropSwap x).tap = d.tap := rfl

@[simp] theorem Dev.setHeld_regs (d : Dev) (w : Reader) (v : Option Word) : (d.setHeld w v).regs = { d.regs with held := assign d.regs.held w v } := rfl
@[simp] theorem Dev.setHeld_free (d : Dev) (w : Reader) (v : Option Word) : (d.setHeld w v).free = d.free := rfl
@[simp] theorem Dev.setHeld_ev (d : Dev) (w : Reader) (v : Option Word) : (d.setHeld w v).ev = d.ev := rfl
@[simp] theorem Dev.setHeld_flt (d : Dev) (w : Reader) (v : Option Word) : (d.setHeld w v).flt = d.flt := rfl
@[simp] theorem Dev.setHeld_sent (d : Dev) (w : Reader) (v : Option Word) : (d.setHeld w v).sent = d.sent := rfl
@[simp] theorem Dev.setHeld_pw (d : Dev) (w : Reader) (v : Option Word) : (d.setHeld w v).pw = d.pw := rfl
@[simp] theorem Dev.setHeld_web (d : Dev) (w : Reader) (v : Option Word) : (d.setHeld w v).web = d.web := rfl
@[simp] theorem Dev.setHeld_hp (d : Dev) (w : Reader) (v : Option Word) : (d.setHeld w v).hp = d.hp := rfl
@[simp] theorem Dev.setHeld_pl (d : Dev) (w : Reader) (v : Option Word) : (d.setHeld w v).pl = d.pl := rfl
@[simp] theorem Dev.setHeld_pipes (d : Dev) (w : Reader) (v : Option Word) : (d.setHeld w v).pipes = d.pipes := rfl
@[simp] theorem Dev.setHeld_wm (d : Dev) (w : Reader) (v : Option Word) : (d.setHeld w v).wm = d.wm := rfl
@[simp] theorem Dev.setHeld_bv (d : Dev) (w : Reader) (v : Option Word) : (d.setHeld w v).bv = d.bv := rfl
@[simp] theorem Dev.setHeld_vb (d : Dev) (w : Reader) (v : Option Word) : (d.setHeld w v).vb = d.vb := rfl
@[simp] theorem Dev.setHeld_spare (d : Dev) (w : Reader) (v : Option Word) : (d.setHeld w v).spare = d.spare := rfl
@[simp] theorem Dev.setHeld_bl (d : Dev) (w : Reader) (v : Option Word) : (d.setHeld w v).bl = d.bl := rfl
@[simp] theorem Dev.setHeld_safe (d : Dev) (w : Reader) (v : Option Word) : (d.setHeld w v).safe = d.safe := rfl
@[simp] theorem Dev.setHeld_an (d : Dev) (w : Reader) (v : Option Word) : (d.setHeld w v).an = d.an := rfl
@[simp] theorem Dev.setHeld_ana (d : Dev) (w : Reader) (v : Option Word) : (d.setHeld w v).ana = d.ana := rfl
@[simp] theorem Dev.setHeld_sp (d : Dev) (w : Reader) (v : Option Word) : (d.setHeld w v).sp = d.sp := rfl
@[simp] theorem Dev.setHeld_xip (d : Dev) (w : Reader) (v : Option Word) : (d.setHeld w v).xip = d.xip := rfl
@[simp] theorem Dev.setHeld_sps (d : Dev) (w : Reader) (v : Option Word) : (d.setHeld w v).sps = d.sps := rfl
@[simp] theorem Dev.setHeld_lt (d : Dev) (w : Reader) (v : Option Word) : (d.setHeld w v).lt = d.lt := rfl
@[simp] theorem Dev.setHeld_tk (d : Dev) (w : Reader) (v : Option Word) : (d.setHeld w v).tk = d.tk := rfl
@[simp] theorem Dev.setHeld_fab (d : Dev) (w : Reader) (v : Option Word) : (d.setHeld w v).fab = d.fab := rfl
@[simp] theorem Dev.setHeld_hx (d : Dev) (w : Reader) (v : Option Word) : (d.setHeld w v).hx = d.hx := rfl
@[simp] theorem Dev.setHeld_slots (d : Dev) (w : Reader) (v : Option Word) : (d.setHeld w v).slots = d.slots := rfl
@[simp] theorem Dev.setHeld_trim (d : Dev) (w : Reader) (v : Option Word) : (d.setHeld w v).trim = d.trim := rfl
@[simp] theorem Dev.setHeld_tap (d : Dev) (w : Reader) (v : Option Word) : (d.setHeld w v).tap = d.tap := rfl

@[simp] theorem Dev.send_regs (d : Dev) (x : Sent) : (d.send x).regs = d.regs := rfl
@[simp] theorem Dev.send_free (d : Dev) (x : Sent) : (d.send x).free = d.free := rfl
@[simp] theorem Dev.send_ev (d : Dev) (x : Sent) : (d.send x).ev = d.ev := rfl
@[simp] theorem Dev.send_flt (d : Dev) (x : Sent) : (d.send x).flt = d.flt := rfl
@[simp] theorem Dev.send_sent (d : Dev) (x : Sent) : (d.send x).sent = x :: d.sent := rfl
@[simp] theorem Dev.send_pw (d : Dev) (x : Sent) : (d.send x).pw = d.pw := rfl
@[simp] theorem Dev.send_web (d : Dev) (x : Sent) : (d.send x).web = d.web := rfl
@[simp] theorem Dev.send_hp (d : Dev) (x : Sent) : (d.send x).hp = d.hp := rfl
@[simp] theorem Dev.send_pl (d : Dev) (x : Sent) : (d.send x).pl = d.pl := rfl
@[simp] theorem Dev.send_pipes (d : Dev) (x : Sent) : (d.send x).pipes = d.pipes := rfl
@[simp] theorem Dev.send_wm (d : Dev) (x : Sent) : (d.send x).wm = d.wm := rfl
@[simp] theorem Dev.send_bv (d : Dev) (x : Sent) : (d.send x).bv = d.bv := rfl
@[simp] theorem Dev.send_vb (d : Dev) (x : Sent) : (d.send x).vb = d.vb := rfl
@[simp] theorem Dev.send_spare (d : Dev) (x : Sent) : (d.send x).spare = d.spare := rfl
@[simp] theorem Dev.send_bl (d : Dev) (x : Sent) : (d.send x).bl = d.bl := rfl
@[simp] theorem Dev.send_safe (d : Dev) (x : Sent) : (d.send x).safe = d.safe := rfl
@[simp] theorem Dev.send_an (d : Dev) (x : Sent) : (d.send x).an = d.an := rfl
@[simp] theorem Dev.send_ana (d : Dev) (x : Sent) : (d.send x).ana = d.ana := rfl
@[simp] theorem Dev.send_sp (d : Dev) (x : Sent) : (d.send x).sp = d.sp := rfl
@[simp] theorem Dev.send_xip (d : Dev) (x : Sent) : (d.send x).xip = d.xip := rfl
@[simp] theorem Dev.send_sps (d : Dev) (x : Sent) : (d.send x).sps = d.sps := rfl
@[simp] theorem Dev.send_lt (d : Dev) (x : Sent) : (d.send x).lt = d.lt := rfl
@[simp] theorem Dev.send_tk (d : Dev) (x : Sent) : (d.send x).tk = d.tk := rfl
@[simp] theorem Dev.send_fab (d : Dev) (x : Sent) : (d.send x).fab = d.fab := rfl
@[simp] theorem Dev.send_hx (d : Dev) (x : Sent) : (d.send x).hx = d.hx := rfl
@[simp] theorem Dev.send_slots (d : Dev) (x : Sent) : (d.send x).slots = d.slots := rfl
@[simp] theorem Dev.send_trim (d : Dev) (x : Sent) : (d.send x).trim = d.trim := rfl
@[simp] theorem Dev.send_tap (d : Dev) (x : Sent) : (d.send x).tap = d.tap := rfl

@[simp] theorem Dev.setActive_regs (d : Dev) (t : Nat) : (d.setActive t).regs = d.regs := rfl
@[simp] theorem Dev.setActive_free (d : Dev) (t : Nat) : (d.setActive t).free = d.free := rfl
@[simp] theorem Dev.setActive_ev (d : Dev) (t : Nat) : (d.setActive t).ev = d.ev := rfl
@[simp] theorem Dev.setActive_flt (d : Dev) (t : Nat) : (d.setActive t).flt = { d.flt with active := true, setAt := some t } := rfl
@[simp] theorem Dev.setActive_sent (d : Dev) (t : Nat) : (d.setActive t).sent = d.sent := rfl
@[simp] theorem Dev.setActive_pw (d : Dev) (t : Nat) : (d.setActive t).pw = d.pw := rfl
@[simp] theorem Dev.setActive_web (d : Dev) (t : Nat) : (d.setActive t).web = d.web := rfl
@[simp] theorem Dev.setActive_hp (d : Dev) (t : Nat) : (d.setActive t).hp = d.hp := rfl
@[simp] theorem Dev.setActive_pl (d : Dev) (t : Nat) : (d.setActive t).pl = d.pl := rfl
@[simp] theorem Dev.setActive_pipes (d : Dev) (t : Nat) : (d.setActive t).pipes = d.pipes := rfl
@[simp] theorem Dev.setActive_wm (d : Dev) (t : Nat) : (d.setActive t).wm = d.wm := rfl
@[simp] theorem Dev.setActive_bv (d : Dev) (t : Nat) : (d.setActive t).bv = d.bv := rfl
@[simp] theorem Dev.setActive_vb (d : Dev) (t : Nat) : (d.setActive t).vb = d.vb := rfl
@[simp] theorem Dev.setActive_spare (d : Dev) (t : Nat) : (d.setActive t).spare = d.spare := rfl
@[simp] theorem Dev.setActive_bl (d : Dev) (t : Nat) : (d.setActive t).bl = d.bl := rfl
@[simp] theorem Dev.setActive_safe (d : Dev) (t : Nat) : (d.setActive t).safe = d.safe := rfl
@[simp] theorem Dev.setActive_an (d : Dev) (t : Nat) : (d.setActive t).an = d.an := rfl
@[simp] theorem Dev.setActive_ana (d : Dev) (t : Nat) : (d.setActive t).ana = d.ana := rfl
@[simp] theorem Dev.setActive_sp (d : Dev) (t : Nat) : (d.setActive t).sp = d.sp := rfl
@[simp] theorem Dev.setActive_xip (d : Dev) (t : Nat) : (d.setActive t).xip = d.xip := rfl
@[simp] theorem Dev.setActive_sps (d : Dev) (t : Nat) : (d.setActive t).sps = d.sps := rfl
@[simp] theorem Dev.setActive_lt (d : Dev) (t : Nat) : (d.setActive t).lt = d.lt := rfl
@[simp] theorem Dev.setActive_tk (d : Dev) (t : Nat) : (d.setActive t).tk = d.tk := rfl
@[simp] theorem Dev.setActive_fab (d : Dev) (t : Nat) : (d.setActive t).fab = d.fab := rfl
@[simp] theorem Dev.setActive_hx (d : Dev) (t : Nat) : (d.setActive t).hx = d.hx := rfl
@[simp] theorem Dev.setActive_slots (d : Dev) (t : Nat) : (d.setActive t).slots = d.slots := rfl
@[simp] theorem Dev.setActive_trim (d : Dev) (t : Nat) : (d.setActive t).trim = d.trim := rfl
@[simp] theorem Dev.setActive_tap (d : Dev) (t : Nat) : (d.setActive t).tap = d.tap := rfl

@[simp] theorem Dev.updPw_regs (d : Dev) (f : Power → Power) : (d.updPw f).regs = d.regs := rfl
@[simp] theorem Dev.updPw_free (d : Dev) (f : Power → Power) : (d.updPw f).free = d.free := rfl
@[simp] theorem Dev.updPw_ev (d : Dev) (f : Power → Power) : (d.updPw f).ev = d.ev := rfl
@[simp] theorem Dev.updPw_flt (d : Dev) (f : Power → Power) : (d.updPw f).flt = d.flt := rfl
@[simp] theorem Dev.updPw_sent (d : Dev) (f : Power → Power) : (d.updPw f).sent = d.sent := rfl
@[simp] theorem Dev.updPw_pw (d : Dev) (f : Power → Power) : (d.updPw f).pw = f d.pw := rfl
@[simp] theorem Dev.updPw_web (d : Dev) (f : Power → Power) : (d.updPw f).web = d.web := rfl
@[simp] theorem Dev.updPw_hp (d : Dev) (f : Power → Power) : (d.updPw f).hp = d.hp := rfl
@[simp] theorem Dev.updPw_pl (d : Dev) (f : Power → Power) : (d.updPw f).pl = d.pl := rfl
@[simp] theorem Dev.updPw_pipes (d : Dev) (f : Power → Power) : (d.updPw f).pipes = d.pipes := rfl
@[simp] theorem Dev.updPw_wm (d : Dev) (f : Power → Power) : (d.updPw f).wm = d.wm := rfl
@[simp] theorem Dev.updPw_bv (d : Dev) (f : Power → Power) : (d.updPw f).bv = d.bv := rfl
@[simp] theorem Dev.updPw_vb (d : Dev) (f : Power → Power) : (d.updPw f).vb = d.vb := rfl
@[simp] theorem Dev.updPw_spare (d : Dev) (f : Power → Power) : (d.updPw f).spare = d.spare := rfl
@[simp] theorem Dev.updPw_bl (d : Dev) (f : Power → Power) : (d.updPw f).bl = d.bl := rfl
@[simp] theorem Dev.updPw_safe (d : Dev) (f : Power → Power) : (d.updPw f).safe = d.safe := rfl
@[simp] theorem Dev.updPw_an (d : Dev) (f : Power → Power) : (d.updPw f).an = d.an := rfl
@[simp] theorem Dev.updPw_ana (d : Dev) (f : Power → Power) : (d.updPw f).ana = d.ana := rfl
@[simp] theorem Dev.updPw_sp (d : Dev) (f : Power → Power) : (d.updPw f).sp = d.sp := rfl
@[simp] theorem Dev.updPw_xip (d : Dev) (f : Power → Power) : (d.updPw f).xip = d.xip := rfl
@[simp] theorem Dev.updPw_sps (d : Dev) (f : Power → Power) : (d.updPw f).sps = d.sps := rfl
@[simp] theorem Dev.updPw_lt (d : Dev) (f : Power → Power) : (d.updPw f).lt = d.lt := rfl
@[simp] theorem Dev.updPw_tk (d : Dev) (f : Power → Power) : (d.updPw f).tk = d.tk := rfl
@[simp] theorem Dev.updPw_fab (d : Dev) (f : Power → Power) : (d.updPw f).fab = d.fab := rfl
@[simp] theorem Dev.updPw_hx (d : Dev) (f : Power → Power) : (d.updPw f).hx = d.hx := rfl
@[simp] theorem Dev.updPw_slots (d : Dev) (f : Power → Power) : (d.updPw f).slots = d.slots := rfl
@[simp] theorem Dev.updPw_trim (d : Dev) (f : Power → Power) : (d.updPw f).trim = d.trim := rfl
@[simp] theorem Dev.updPw_tap (d : Dev) (f : Power → Power) : (d.updPw f).tap = d.tap := rfl

@[simp] theorem Dev.setEvt_regs (d : Dev) (n : Nat) (p : OutPin) : (d.setEvt n p).regs = d.regs := rfl
@[simp] theorem Dev.setEvt_free (d : Dev) (n : Nat) (p : OutPin) : (d.setEvt n p).free = d.free := rfl
@[simp] theorem Dev.setEvt_ev (d : Dev) (n : Nat) (p : OutPin) : (d.setEvt n p).ev = d.ev := rfl
@[simp] theorem Dev.setEvt_flt (d : Dev) (n : Nat) (p : OutPin) : (d.setEvt n p).flt = d.flt := rfl
@[simp] theorem Dev.setEvt_sent (d : Dev) (n : Nat) (p : OutPin) : (d.setEvt n p).sent = d.sent := rfl
@[simp] theorem Dev.setEvt_pw (d : Dev) (n : Nat) (p : OutPin) : (d.setEvt n p).pw = d.pw := rfl
@[simp] theorem Dev.setEvt_web (d : Dev) (n : Nat) (p : OutPin) : (d.setEvt n p).web = { d.web with evt := SMap.set OutPin.reset d.web.evt n p } := rfl
@[simp] theorem Dev.setEvt_hp (d : Dev) (n : Nat) (p : OutPin) : (d.setEvt n p).hp = d.hp := rfl
@[simp] theorem Dev.setEvt_pl (d : Dev) (n : Nat) (p : OutPin) : (d.setEvt n p).pl = d.pl := rfl
@[simp] theorem Dev.setEvt_pipes (d : Dev) (n : Nat) (p : OutPin) : (d.setEvt n p).pipes = d.pipes := rfl
@[simp] theorem Dev.setEvt_wm (d : Dev) (n : Nat) (p : OutPin) : (d.setEvt n p).wm = d.wm := rfl
@[simp] theorem Dev.setEvt_bv (d : Dev) (n : Nat) (p : OutPin) : (d.setEvt n p).bv = d.bv := rfl
@[simp] theorem Dev.setEvt_vb (d : Dev) (n : Nat) (p : OutPin) : (d.setEvt n p).vb = d.vb := rfl
@[simp] theorem Dev.setEvt_spare (d : Dev) (n : Nat) (p : OutPin) : (d.setEvt n p).spare = d.spare := rfl
@[simp] theorem Dev.setEvt_bl (d : Dev) (n : Nat) (p : OutPin) : (d.setEvt n p).bl = d.bl := rfl
@[simp] theorem Dev.setEvt_safe (d : Dev) (n : Nat) (p : OutPin) : (d.setEvt n p).safe = d.safe := rfl
@[simp] theorem Dev.setEvt_an (d : Dev) (n : Nat) (p : OutPin) : (d.setEvt n p).an = d.an := rfl
@[simp] theorem Dev.setEvt_ana (d : Dev) (n : Nat) (p : OutPin) : (d.setEvt n p).ana = d.ana := rfl
@[simp] theorem Dev.setEvt_sp (d : Dev) (n : Nat) (p : OutPin) : (d.setEvt n p).sp = d.sp := rfl
@[simp] theorem Dev.setEvt_xip (d : Dev) (n : Nat) (p : OutPin) : (d.setEvt n p).xip = d.xip := rfl
@[simp] theorem Dev.setEvt_sps (d : Dev) (n : Nat) (p : OutPin) : (d.setEvt n p).sps = d.sps := rfl
@[simp] theorem Dev.setEvt_lt (d : Dev) (n : Nat) (p : OutPin) : (d.setEvt n p).lt = d.lt := rfl
@[simp] theorem Dev.setEvt_tk (d : Dev) (n : Nat) (p : OutPin) : (d.setEvt n p).tk = d.tk := rfl
@[simp] theorem Dev.setEvt_fab (d : Dev) (n : Nat) (p : OutPin) : (d.setEvt n p).fab = d.fab := rfl
@[simp] theorem Dev.setEvt_hx (d : Dev) (n : Nat) (p : OutPin) : (d.setEvt n p).hx = d.hx := rfl
@[simp] theorem Dev.setEvt_slots (d : Dev) (n : Nat) (p : OutPin) : (d.setEvt n p).slots = d.slots := rfl
@[simp] theorem Dev.setEvt_trim (d : Dev) (n : Nat) (p : OutPin) : (d.setEvt n p).trim = d.trim := rfl
@[simp] theorem Dev.setEvt_tap (d : Dev) (n : Nat) (p : OutPin) : (d.setEvt n p).tap = d.tap := rfl

@[simp] theorem Dev.setHsy_regs (d : Dev) (n : Nat) (p : OutPin) : (d.setHsy n p).regs = d.regs := rfl
@[simp] theorem Dev.setHsy_free (d : Dev) (n : Nat) (p : OutPin) : (d.setHsy n p).free = d.free := rfl
@[simp] theorem Dev.setHsy_ev (d : Dev) (n : Nat) (p : OutPin) : (d.setHsy n p).ev = d.ev := rfl
@[simp] theorem Dev.setHsy_flt (d : Dev) (n : Nat) (p : OutPin) : (d.setHsy n p).flt = d.flt := rfl
@[simp] theorem Dev.setHsy_sent (d : Dev) (n : Nat) (p : OutPin) : (d.setHsy n p).sent = d.sent := rfl
@[simp] theorem Dev.setHsy_pw (d : Dev) (n : Nat) (p : OutPin) : (d.setHsy n p).pw = d.pw := rfl
@[simp] theorem Dev.setHsy_web (d : Dev) (n : Nat) (p : OutPin) : (d.setHsy n p).web = { d.web with hsy := SMap.set OutPin.reset d.web.hsy n p } := rfl
@[simp] theorem Dev.setHsy_hp (d : Dev) (n : Nat) (p : OutPin) : (d.setHsy n p).hp = d.hp := rfl
@[simp] theorem Dev.setHsy_pl (d : Dev) (n : Nat) (p : OutPin) : (d.setHsy n p).pl = d.pl := rfl
@[simp] theorem Dev.setHsy_pipes (d : Dev) (n : Nat) (p : OutPin) : (d.setHsy n p).pipes = d.pipes := rfl
@[simp] theorem Dev.setHsy_wm (d : Dev) (n : Nat) (p : OutPin) : (d.setHsy n p).wm = d.wm := rfl
@[simp] theorem Dev.setHsy_bv (d : Dev) (n : Nat) (p : OutPin) : (d.setHsy n p).bv = d.bv := rfl
@[simp] theorem Dev.setHsy_vb (d : Dev) (n : Nat) (p : OutPin) : (d.setHsy n p).vb = d.vb := rfl
@[simp] theorem Dev.setHsy_spare (d : Dev) (n : Nat) (p : OutPin) : (d.setHsy n p).spare = d.spare := rfl
@[simp] theorem Dev.setHsy_bl (d : Dev) (n : Nat) (p : OutPin) : (d.setHsy n p).bl = d.bl := rfl
@[simp] theorem Dev.setHsy_safe (d : Dev) (n : Nat) (p : OutPin) : (d.setHsy n p).safe = d.safe := rfl
@[simp] theorem Dev.setHsy_an (d : Dev) (n : Nat) (p : OutPin) : (d.setHsy n p).an = d.an := rfl
@[simp] theorem Dev.setHsy_ana (d : Dev) (n : Nat) (p : OutPin) : (d.setHsy n p).ana = d.ana := rfl
@[simp] theorem Dev.setHsy_sp (d : Dev) (n : Nat) (p : OutPin) : (d.setHsy n p).sp = d.sp := rfl
@[simp] theorem Dev.setHsy_xip (d : Dev) (n : Nat) (p : OutPin) : (d.setHsy n p).xip = d.xip := rfl
@[simp] theorem Dev.setHsy_sps (d : Dev) (n : Nat) (p : OutPin) : (d.setHsy n p).sps = d.sps := rfl
@[simp] theorem Dev.setHsy_lt (d : Dev) (n : Nat) (p : OutPin) : (d.setHsy n p).lt = d.lt := rfl
@[simp] theorem Dev.setHsy_tk (d : Dev) (n : Nat) (p : OutPin) : (d.setHsy n p).tk = d.tk := rfl
@[simp] theorem Dev.setHsy_fab (d : Dev) (n : Nat) (p : OutPin) : (d.setHsy n p).fab = d.fab := rfl
@[simp] theorem Dev.setHsy_hx (d : Dev) (n : Nat) (p : OutPin) : (d.setHsy n p).hx = d.hx := rfl
@[simp] theorem Dev.setHsy_slots (d : Dev) (n : Nat) (p : OutPin) : (d.setHsy n p).slots = d.slots := rfl
@[simp] theorem Dev.setHsy_trim (d : Dev) (n : Nat) (p : OutPin) : (d.setHsy n p).trim = d.trim := rfl
@[simp] theorem Dev.setHsy_tap (d : Dev) (n : Nat) (p : OutPin) : (d.setHsy n p).tap = d.tap := rfl

@[simp] theorem Dev.setSlip_regs (d : Dev) (f : Slip → Slip) : (d.setSlip f).regs = d.regs := rfl
@[simp] theorem Dev.setSlip_free (d : Dev) (f : Slip → Slip) : (d.setSlip f).free = d.free := rfl
@[simp] theorem Dev.setSlip_ev (d : Dev) (f : Slip → Slip) : (d.setSlip f).ev = d.ev := rfl
@[simp] theorem Dev.setSlip_flt (d : Dev) (f : Slip → Slip) : (d.setSlip f).flt = d.flt := rfl
@[simp] theorem Dev.setSlip_sent (d : Dev) (f : Slip → Slip) : (d.setSlip f).sent = d.sent := rfl
@[simp] theorem Dev.setSlip_pw (d : Dev) (f : Slip → Slip) : (d.setSlip f).pw = d.pw := rfl
@[simp] theorem Dev.setSlip_web (d : Dev) (f : Slip → Slip) : (d.setSlip f).web = { d.web with slip := f d.web.slip } := rfl
@[simp] theorem Dev.setSlip_hp (d : Dev) (f : Slip → Slip) : (d.setSlip f).hp = d.hp := rfl
@[simp] theorem Dev.setSlip_pl (d : Dev) (f : Slip → Slip) : (d.setSlip f).pl = d.pl := rfl
@[simp] theorem Dev.setSlip_pipes (d : Dev) (f : Slip → Slip) : (d.setSlip f).pipes = d.pipes := rfl
@[simp] theorem Dev.setSlip_wm (d : Dev) (f : Slip → Slip) : (d.setSlip f).wm = d.wm := rfl
@[simp] theorem Dev.setSlip_bv (d : Dev) (f : Slip → Slip) : (d.setSlip f).bv = d.bv := rfl
@[simp] theorem Dev.setSlip_vb (d : Dev) (f : Slip → Slip) : (d.setSlip f).vb = d.vb := rfl
@[simp] theorem Dev.setSlip_spare (d : Dev) (f : Slip → Slip) : (d.setSlip f).spare = d.spare := rfl
@[simp] theorem Dev.setSlip_bl (d : Dev) (f : Slip → Slip) : (d.setSlip f).bl = d.bl := rfl
@[simp] theorem Dev.setSlip_safe (d : Dev) (f : Slip → Slip) : (d.setSlip f).safe = d.safe := rfl
@[simp] theorem Dev.setSlip_an (d : Dev) (f : Slip → Slip) : (d.setSlip f).an = d.an := rfl
@[simp] theorem Dev.setSlip_ana (d : Dev) (f : Slip → Slip) : (d.setSlip f).ana = d.ana := rfl
@[simp] theorem Dev.setSlip_sp (d : Dev) (f : Slip → Slip) : (d.setSlip f).sp = d.sp := rfl
@[simp] theorem Dev.setSlip_xip (d : Dev) (f : Slip → Slip) : (d.setSlip f).xip = d.xip := rfl
@[simp] theorem Dev.setSlip_sps (d : Dev) (f : Slip → Slip) : (d.setSlip f).sps = d.sps := rfl
@[simp] theorem Dev.setSlip_lt (d : Dev) (f : Slip → Slip) : (d.setSlip f).lt = d.lt := rfl
@[simp] theorem Dev.setSlip_tk (d : Dev) (f : Slip → Slip) : (d.setSlip f).tk = d.tk := rfl
@[simp] theorem Dev.setSlip_fab (d : Dev) (f : Slip → Slip) : (d.setSlip f).fab = d.fab := rfl
@[simp] theorem Dev.setSlip_hx (d : Dev) (f : Slip → Slip) : (d.setSlip f).hx = d.hx := rfl
@[simp] theorem Dev.setSlip_slots (d : Dev) (f : Slip → Slip) : (d.setSlip f).slots = d.slots := rfl
@[simp] theorem Dev.setSlip_trim (d : Dev) (f : Slip → Slip) : (d.setSlip f).trim = d.trim := rfl
@[simp] theorem Dev.setSlip_tap (d : Dev) (f : Slip → Slip) : (d.setSlip f).tap = d.tap := rfl

@[simp] theorem Dev.setRowGen_regs (d : Dev) (n : Nat) (g : RowGen) : (d.setRowGen n g).regs = d.regs := rfl
@[simp] theorem Dev.setRowGen_free (d : Dev) (n : Nat) (g : RowGen) : (d.setRowGen n g).free = d.free := rfl
@[simp] theorem Dev.setRowGen_ev (d : Dev) (n : Nat) (g : RowGen) : (d.setRowGen n g).ev = d.ev := rfl
@[simp] theorem Dev.setRowGen_flt (d : Dev) (n : Nat) (g : RowGen) : (d.setRowGen n g).flt = d.flt := rfl
@[simp] theorem Dev.setRowGen_sent (d : Dev) (n : Nat) (g : RowGen) : (d.setRowGen n g).sent = d.sent := rfl
@[simp] theorem Dev.setRowGen_pw (d : Dev) (n : Nat) (g : RowGen) : (d.setRowGen n g).pw = d.pw := rfl
@[simp] theorem Dev.setRowGen_web (d : Dev) (n : Nat) (g : RowGen) : (d.setRowGen n g).web = { d.web with rg := SMap.set RowGen.reset d.web.rg n g } := rfl
@[simp] theorem Dev.setRowGen_hp (d : Dev) (n : Nat) (g : RowGen) : (d.setRowGen n g).hp = d.hp := rfl
@[simp] theorem Dev.setRowGen_pl (d : Dev) (n : Nat) (g : RowGen) : (d.setRowGen n g).pl = d.pl := rfl
@[simp] theorem Dev.setRowGen_pipes (d : Dev) (n : Nat) (g : RowGen) : (d.setRowGen n g).pipes = d.pipes := rfl
@[simp] theorem Dev.setRowGen_wm (d : Dev) (n : Nat) (g : RowGen) : (d.setRowGen n g).wm = d.wm := rfl
@[simp] theorem Dev.setRowGen_bv (d : Dev) (n : Nat) (g : RowGen) : (d.setRowGen n g).bv = d.bv := rfl
@[simp] theorem Dev.setRowGen_vb (d : Dev) (n : Nat) (g : RowGen) : (d.setRowGen n g).vb = d.vb := rfl
@[simp] theorem Dev.setRowGen_spare (d : Dev) (n : Nat) (g : RowGen) : (d.setRowGen n g).spare = d.spare := rfl
@[simp] theorem Dev.setRowGen_bl (d : Dev) (n : Nat) (g : RowGen) : (d.setRowGen n g).bl = d.bl := rfl
@[simp] theorem Dev.setRowGen_safe (d : Dev) (n : Nat) (g : RowGen) : (d.setRowGen n g).safe = d.safe := rfl
@[simp] theorem Dev.setRowGen_an (d : Dev) (n : Nat) (g : RowGen) : (d.setRowGen n g).an = d.an := rfl
@[simp] theorem Dev.setRowGen_ana (d : Dev) (n : Nat) (g : RowGen) : (d.setRowGen n g).ana = d.ana := rfl
@[simp] theorem Dev.setRowGen_sp (d : Dev) (n : Nat) (g : RowGen) : (d.setRowGen n g).sp = d.sp := rfl
@[simp] theorem Dev.setRowGen_xip (d : Dev) (n : Nat) (g : RowGen) : (d.setRowGen n g).xip = d.xip := rfl
@[simp] theorem Dev.setRowGen_sps (d : Dev) (n : Nat) (g : RowGen) : (d.setRowGen n g).sps = d.sps := rfl
@[simp] theorem Dev.setRowGen_lt (d : Dev) (n : Nat) (g : RowGen) : (d.setRowGen n g).lt = d.lt := rfl
@[simp] theorem Dev.setRowGen_tk (d : Dev) (n : Nat) (g : RowGen) : (d.setRowGen n g).tk = d.tk := rfl
@[simp] theorem Dev.setRowGen_fab (d : Dev) (n : Nat) (g : RowGen) : (d.setRowGen n g).fab = d.fab := rfl
@[simp] theorem Dev.setRowGen_hx (d : Dev) (n : Nat) (g : RowGen) : (d.setRowGen n g).hx = d.hx := rfl
@[simp] theorem Dev.setRowGen_slots (d : Dev) (n : Nat) (g : RowGen) : (d.setRowGen n g).slots = d.slots := rfl
@[simp] theorem Dev.setRowGen_trim (d : Dev) (n : Nat) (g : RowGen) : (d.setRowGen n g).trim = d.trim := rfl
@[simp] theorem Dev.setRowGen_tap (d : Dev) (n : Nat) (g : RowGen) : (d.setRowGen n g).tap = d.tap := rfl

@[simp] theorem Dev.setPlan_regs (d : Dev) (b : Option Nat) : (d.setPlan b).regs = d.regs := rfl
@[simp] theorem Dev.setPlan_free (d : Dev) (b : Option Nat) : (d.setPlan b).free = d.free := rfl
@[simp] theorem Dev.setPlan_ev (d : Dev) (b : Option Nat) : (d.setPlan b).ev = d.ev := rfl
@[simp] theorem Dev.setPlan_flt (d : Dev) (b : Option Nat) : (d.setPlan b).flt = d.flt := rfl
@[simp] theorem Dev.setPlan_sent (d : Dev) (b : Option Nat) : (d.setPlan b).sent = d.sent := rfl
@[simp] theorem Dev.setPlan_pw (d : Dev) (b : Option Nat) : (d.setPlan b).pw = d.pw := rfl
@[simp] theorem Dev.setPlan_web (d : Dev) (b : Option Nat) : (d.setPlan b).web = { d.web with planArmed := b } := rfl
@[simp] theorem Dev.setPlan_hp (d : Dev) (b : Option Nat) : (d.setPlan b).hp = d.hp := rfl
@[simp] theorem Dev.setPlan_pl (d : Dev) (b : Option Nat) : (d.setPlan b).pl = d.pl := rfl
@[simp] theorem Dev.setPlan_pipes (d : Dev) (b : Option Nat) : (d.setPlan b).pipes = d.pipes := rfl
@[simp] theorem Dev.setPlan_wm (d : Dev) (b : Option Nat) : (d.setPlan b).wm = d.wm := rfl
@[simp] theorem Dev.setPlan_bv (d : Dev) (b : Option Nat) : (d.setPlan b).bv = d.bv := rfl
@[simp] theorem Dev.setPlan_vb (d : Dev) (b : Option Nat) : (d.setPlan b).vb = d.vb := rfl
@[simp] theorem Dev.setPlan_spare (d : Dev) (b : Option Nat) : (d.setPlan b).spare = d.spare := rfl
@[simp] theorem Dev.setPlan_bl (d : Dev) (b : Option Nat) : (d.setPlan b).bl = d.bl := rfl
@[simp] theorem Dev.setPlan_safe (d : Dev) (b : Option Nat) : (d.setPlan b).safe = d.safe := rfl
@[simp] theorem Dev.setPlan_an (d : Dev) (b : Option Nat) : (d.setPlan b).an = d.an := rfl
@[simp] theorem Dev.setPlan_ana (d : Dev) (b : Option Nat) : (d.setPlan b).ana = d.ana := rfl
@[simp] theorem Dev.setPlan_sp (d : Dev) (b : Option Nat) : (d.setPlan b).sp = d.sp := rfl
@[simp] theorem Dev.setPlan_xip (d : Dev) (b : Option Nat) : (d.setPlan b).xip = d.xip := rfl
@[simp] theorem Dev.setPlan_sps (d : Dev) (b : Option Nat) : (d.setPlan b).sps = d.sps := rfl
@[simp] theorem Dev.setPlan_lt (d : Dev) (b : Option Nat) : (d.setPlan b).lt = d.lt := rfl
@[simp] theorem Dev.setPlan_tk (d : Dev) (b : Option Nat) : (d.setPlan b).tk = d.tk := rfl
@[simp] theorem Dev.setPlan_fab (d : Dev) (b : Option Nat) : (d.setPlan b).fab = d.fab := rfl
@[simp] theorem Dev.setPlan_hx (d : Dev) (b : Option Nat) : (d.setPlan b).hx = d.hx := rfl
@[simp] theorem Dev.setPlan_slots (d : Dev) (b : Option Nat) : (d.setPlan b).slots = d.slots := rfl
@[simp] theorem Dev.setPlan_trim (d : Dev) (b : Option Nat) : (d.setPlan b).trim = d.trim := rfl
@[simp] theorem Dev.setPlan_tap (d : Dev) (b : Option Nat) : (d.setPlan b).tap = d.tap := rfl

@[simp] theorem Dev.setTrg_regs (d : Dev) (n : Nat) (l : Bool) : (d.setTrg n l).regs = d.regs := rfl
@[simp] theorem Dev.setTrg_free (d : Dev) (n : Nat) (l : Bool) : (d.setTrg n l).free = d.free := rfl
@[simp] theorem Dev.setTrg_ev (d : Dev) (n : Nat) (l : Bool) : (d.setTrg n l).ev = d.ev := rfl
@[simp] theorem Dev.setTrg_flt (d : Dev) (n : Nat) (l : Bool) : (d.setTrg n l).flt = d.flt := rfl
@[simp] theorem Dev.setTrg_sent (d : Dev) (n : Nat) (l : Bool) : (d.setTrg n l).sent = d.sent := rfl
@[simp] theorem Dev.setTrg_pw (d : Dev) (n : Nat) (l : Bool) : (d.setTrg n l).pw = d.pw := rfl
@[simp] theorem Dev.setTrg_web (d : Dev) (n : Nat) (l : Bool) : (d.setTrg n l).web = { d.web with trg := SMap.set false d.web.trg n l } := rfl
@[simp] theorem Dev.setTrg_hp (d : Dev) (n : Nat) (l : Bool) : (d.setTrg n l).hp = d.hp := rfl
@[simp] theorem Dev.setTrg_pl (d : Dev) (n : Nat) (l : Bool) : (d.setTrg n l).pl = d.pl := rfl
@[simp] theorem Dev.setTrg_pipes (d : Dev) (n : Nat) (l : Bool) : (d.setTrg n l).pipes = d.pipes := rfl
@[simp] theorem Dev.setTrg_wm (d : Dev) (n : Nat) (l : Bool) : (d.setTrg n l).wm = d.wm := rfl
@[simp] theorem Dev.setTrg_bv (d : Dev) (n : Nat) (l : Bool) : (d.setTrg n l).bv = d.bv := rfl
@[simp] theorem Dev.setTrg_vb (d : Dev) (n : Nat) (l : Bool) : (d.setTrg n l).vb = d.vb := rfl
@[simp] theorem Dev.setTrg_spare (d : Dev) (n : Nat) (l : Bool) : (d.setTrg n l).spare = d.spare := rfl
@[simp] theorem Dev.setTrg_bl (d : Dev) (n : Nat) (l : Bool) : (d.setTrg n l).bl = d.bl := rfl
@[simp] theorem Dev.setTrg_safe (d : Dev) (n : Nat) (l : Bool) : (d.setTrg n l).safe = d.safe := rfl
@[simp] theorem Dev.setTrg_an (d : Dev) (n : Nat) (l : Bool) : (d.setTrg n l).an = d.an := rfl
@[simp] theorem Dev.setTrg_ana (d : Dev) (n : Nat) (l : Bool) : (d.setTrg n l).ana = d.ana := rfl
@[simp] theorem Dev.setTrg_sp (d : Dev) (n : Nat) (l : Bool) : (d.setTrg n l).sp = d.sp := rfl
@[simp] theorem Dev.setTrg_xip (d : Dev) (n : Nat) (l : Bool) : (d.setTrg n l).xip = d.xip := rfl
@[simp] theorem Dev.setTrg_sps (d : Dev) (n : Nat) (l : Bool) : (d.setTrg n l).sps = d.sps := rfl
@[simp] theorem Dev.setTrg_lt (d : Dev) (n : Nat) (l : Bool) : (d.setTrg n l).lt = d.lt := rfl
@[simp] theorem Dev.setTrg_tk (d : Dev) (n : Nat) (l : Bool) : (d.setTrg n l).tk = d.tk := rfl
@[simp] theorem Dev.setTrg_fab (d : Dev) (n : Nat) (l : Bool) : (d.setTrg n l).fab = d.fab := rfl
@[simp] theorem Dev.setTrg_hx (d : Dev) (n : Nat) (l : Bool) : (d.setTrg n l).hx = d.hx := rfl
@[simp] theorem Dev.setTrg_slots (d : Dev) (n : Nat) (l : Bool) : (d.setTrg n l).slots = d.slots := rfl
@[simp] theorem Dev.setTrg_trim (d : Dev) (n : Nat) (l : Bool) : (d.setTrg n l).trim = d.trim := rfl
@[simp] theorem Dev.setTrg_tap (d : Dev) (n : Nat) (l : Bool) : (d.setTrg n l).tap = d.tap := rfl

@[simp] theorem Dev.setTimer_regs (d : Dev) (n : Nat) (x : TimerArm) : (d.setTimer n x).regs = d.regs := rfl
@[simp] theorem Dev.setTimer_free (d : Dev) (n : Nat) (x : TimerArm) : (d.setTimer n x).free = d.free := rfl
@[simp] theorem Dev.setTimer_ev (d : Dev) (n : Nat) (x : TimerArm) : (d.setTimer n x).ev = d.ev := rfl
@[simp] theorem Dev.setTimer_flt (d : Dev) (n : Nat) (x : TimerArm) : (d.setTimer n x).flt = d.flt := rfl
@[simp] theorem Dev.setTimer_sent (d : Dev) (n : Nat) (x : TimerArm) : (d.setTimer n x).sent = d.sent := rfl
@[simp] theorem Dev.setTimer_pw (d : Dev) (n : Nat) (x : TimerArm) : (d.setTimer n x).pw = d.pw := rfl
@[simp] theorem Dev.setTimer_web (d : Dev) (n : Nat) (x : TimerArm) : (d.setTimer n x).web = { d.web with tm := SMap.set TimerArm.reset d.web.tm n x } := rfl
@[simp] theorem Dev.setTimer_hp (d : Dev) (n : Nat) (x : TimerArm) : (d.setTimer n x).hp = d.hp := rfl
@[simp] theorem Dev.setTimer_pl (d : Dev) (n : Nat) (x : TimerArm) : (d.setTimer n x).pl = d.pl := rfl
@[simp] theorem Dev.setTimer_pipes (d : Dev) (n : Nat) (x : TimerArm) : (d.setTimer n x).pipes = d.pipes := rfl
@[simp] theorem Dev.setTimer_wm (d : Dev) (n : Nat) (x : TimerArm) : (d.setTimer n x).wm = d.wm := rfl
@[simp] theorem Dev.setTimer_bv (d : Dev) (n : Nat) (x : TimerArm) : (d.setTimer n x).bv = d.bv := rfl
@[simp] theorem Dev.setTimer_vb (d : Dev) (n : Nat) (x : TimerArm) : (d.setTimer n x).vb = d.vb := rfl
@[simp] theorem Dev.setTimer_spare (d : Dev) (n : Nat) (x : TimerArm) : (d.setTimer n x).spare = d.spare := rfl
@[simp] theorem Dev.setTimer_bl (d : Dev) (n : Nat) (x : TimerArm) : (d.setTimer n x).bl = d.bl := rfl
@[simp] theorem Dev.setTimer_safe (d : Dev) (n : Nat) (x : TimerArm) : (d.setTimer n x).safe = d.safe := rfl
@[simp] theorem Dev.setTimer_an (d : Dev) (n : Nat) (x : TimerArm) : (d.setTimer n x).an = d.an := rfl
@[simp] theorem Dev.setTimer_ana (d : Dev) (n : Nat) (x : TimerArm) : (d.setTimer n x).ana = d.ana := rfl
@[simp] theorem Dev.setTimer_sp (d : Dev) (n : Nat) (x : TimerArm) : (d.setTimer n x).sp = d.sp := rfl
@[simp] theorem Dev.setTimer_xip (d : Dev) (n : Nat) (x : TimerArm) : (d.setTimer n x).xip = d.xip := rfl
@[simp] theorem Dev.setTimer_sps (d : Dev) (n : Nat) (x : TimerArm) : (d.setTimer n x).sps = d.sps := rfl
@[simp] theorem Dev.setTimer_lt (d : Dev) (n : Nat) (x : TimerArm) : (d.setTimer n x).lt = d.lt := rfl
@[simp] theorem Dev.setTimer_tk (d : Dev) (n : Nat) (x : TimerArm) : (d.setTimer n x).tk = d.tk := rfl
@[simp] theorem Dev.setTimer_fab (d : Dev) (n : Nat) (x : TimerArm) : (d.setTimer n x).fab = d.fab := rfl
@[simp] theorem Dev.setTimer_hx (d : Dev) (n : Nat) (x : TimerArm) : (d.setTimer n x).hx = d.hx := rfl
@[simp] theorem Dev.setTimer_slots (d : Dev) (n : Nat) (x : TimerArm) : (d.setTimer n x).slots = d.slots := rfl
@[simp] theorem Dev.setTimer_trim (d : Dev) (n : Nat) (x : TimerArm) : (d.setTimer n x).trim = d.trim := rfl
@[simp] theorem Dev.setTimer_tap (d : Dev) (n : Nat) (x : TimerArm) : (d.setTimer n x).tap = d.tap := rfl

@[simp] theorem Dev.setHp_regs (d : Dev) (n : Nat) (x : HeadPort) : (d.setHp n x).regs = d.regs := rfl
@[simp] theorem Dev.setHp_free (d : Dev) (n : Nat) (x : HeadPort) : (d.setHp n x).free = d.free := rfl
@[simp] theorem Dev.setHp_ev (d : Dev) (n : Nat) (x : HeadPort) : (d.setHp n x).ev = d.ev := rfl
@[simp] theorem Dev.setHp_flt (d : Dev) (n : Nat) (x : HeadPort) : (d.setHp n x).flt = d.flt := rfl
@[simp] theorem Dev.setHp_sent (d : Dev) (n : Nat) (x : HeadPort) : (d.setHp n x).sent = d.sent := rfl
@[simp] theorem Dev.setHp_pw (d : Dev) (n : Nat) (x : HeadPort) : (d.setHp n x).pw = d.pw := rfl
@[simp] theorem Dev.setHp_web (d : Dev) (n : Nat) (x : HeadPort) : (d.setHp n x).web = d.web := rfl
@[simp] theorem Dev.setHp_hp (d : Dev) (n : Nat) (x : HeadPort) : (d.setHp n x).hp = SMap.set HeadPort.reset d.hp n x := rfl
@[simp] theorem Dev.setHp_pl (d : Dev) (n : Nat) (x : HeadPort) : (d.setHp n x).pl = d.pl := rfl
@[simp] theorem Dev.setHp_pipes (d : Dev) (n : Nat) (x : HeadPort) : (d.setHp n x).pipes = d.pipes := rfl
@[simp] theorem Dev.setHp_wm (d : Dev) (n : Nat) (x : HeadPort) : (d.setHp n x).wm = d.wm := rfl
@[simp] theorem Dev.setHp_bv (d : Dev) (n : Nat) (x : HeadPort) : (d.setHp n x).bv = d.bv := rfl
@[simp] theorem Dev.setHp_vb (d : Dev) (n : Nat) (x : HeadPort) : (d.setHp n x).vb = d.vb := rfl
@[simp] theorem Dev.setHp_spare (d : Dev) (n : Nat) (x : HeadPort) : (d.setHp n x).spare = d.spare := rfl
@[simp] theorem Dev.setHp_bl (d : Dev) (n : Nat) (x : HeadPort) : (d.setHp n x).bl = d.bl := rfl
@[simp] theorem Dev.setHp_safe (d : Dev) (n : Nat) (x : HeadPort) : (d.setHp n x).safe = d.safe := rfl
@[simp] theorem Dev.setHp_an (d : Dev) (n : Nat) (x : HeadPort) : (d.setHp n x).an = d.an := rfl
@[simp] theorem Dev.setHp_ana (d : Dev) (n : Nat) (x : HeadPort) : (d.setHp n x).ana = d.ana := rfl
@[simp] theorem Dev.setHp_sp (d : Dev) (n : Nat) (x : HeadPort) : (d.setHp n x).sp = d.sp := rfl
@[simp] theorem Dev.setHp_xip (d : Dev) (n : Nat) (x : HeadPort) : (d.setHp n x).xip = d.xip := rfl
@[simp] theorem Dev.setHp_sps (d : Dev) (n : Nat) (x : HeadPort) : (d.setHp n x).sps = d.sps := rfl
@[simp] theorem Dev.setHp_lt (d : Dev) (n : Nat) (x : HeadPort) : (d.setHp n x).lt = d.lt := rfl
@[simp] theorem Dev.setHp_tk (d : Dev) (n : Nat) (x : HeadPort) : (d.setHp n x).tk = d.tk := rfl
@[simp] theorem Dev.setHp_fab (d : Dev) (n : Nat) (x : HeadPort) : (d.setHp n x).fab = d.fab := rfl
@[simp] theorem Dev.setHp_hx (d : Dev) (n : Nat) (x : HeadPort) : (d.setHp n x).hx = d.hx := rfl
@[simp] theorem Dev.setHp_slots (d : Dev) (n : Nat) (x : HeadPort) : (d.setHp n x).slots = d.slots := rfl
@[simp] theorem Dev.setHp_trim (d : Dev) (n : Nat) (x : HeadPort) : (d.setHp n x).trim = d.trim := rfl
@[simp] theorem Dev.setHp_tap (d : Dev) (n : Nat) (x : HeadPort) : (d.setHp n x).tap = d.tap := rfl

@[simp] theorem Dev.setCtx_regs (d : Dev) (p k : Nat) (x : Ctx) : (d.setCtx p k x).regs = d.regs := rfl
@[simp] theorem Dev.setCtx_free (d : Dev) (p k : Nat) (x : Ctx) : (d.setCtx p k x).free = d.free := rfl
@[simp] theorem Dev.setCtx_ev (d : Dev) (p k : Nat) (x : Ctx) : (d.setCtx p k x).ev = d.ev := rfl
@[simp] theorem Dev.setCtx_flt (d : Dev) (p k : Nat) (x : Ctx) : (d.setCtx p k x).flt = d.flt := rfl
@[simp] theorem Dev.setCtx_sent (d : Dev) (p k : Nat) (x : Ctx) : (d.setCtx p k x).sent = d.sent := rfl
@[simp] theorem Dev.setCtx_pw (d : Dev) (p k : Nat) (x : Ctx) : (d.setCtx p k x).pw = d.pw := rfl
@[simp] theorem Dev.setCtx_web (d : Dev) (p k : Nat) (x : Ctx) : (d.setCtx p k x).web = d.web := rfl
@[simp] theorem Dev.setCtx_hp (d : Dev) (p k : Nat) (x : Ctx) : (d.setCtx p k x).hp = d.hp := rfl
@[simp] theorem Dev.setCtx_pl (d : Dev) (p k : Nat) (x : Ctx) : (d.setCtx p k x).pl = SMap.set Ctx.reset d.pl (32 * p + k) x := rfl
@[simp] theorem Dev.setCtx_pipes (d : Dev) (p k : Nat) (x : Ctx) : (d.setCtx p k x).pipes = d.pipes := rfl
@[simp] theorem Dev.setCtx_wm (d : Dev) (p k : Nat) (x : Ctx) : (d.setCtx p k x).wm = d.wm := rfl
@[simp] theorem Dev.setCtx_bv (d : Dev) (p k : Nat) (x : Ctx) : (d.setCtx p k x).bv = d.bv := rfl
@[simp] theorem Dev.setCtx_vb (d : Dev) (p k : Nat) (x : Ctx) : (d.setCtx p k x).vb = d.vb := rfl
@[simp] theorem Dev.setCtx_spare (d : Dev) (p k : Nat) (x : Ctx) : (d.setCtx p k x).spare = d.spare := rfl
@[simp] theorem Dev.setCtx_bl (d : Dev) (p k : Nat) (x : Ctx) : (d.setCtx p k x).bl = d.bl := rfl
@[simp] theorem Dev.setCtx_safe (d : Dev) (p k : Nat) (x : Ctx) : (d.setCtx p k x).safe = d.safe := rfl
@[simp] theorem Dev.setCtx_an (d : Dev) (p k : Nat) (x : Ctx) : (d.setCtx p k x).an = d.an := rfl
@[simp] theorem Dev.setCtx_ana (d : Dev) (p k : Nat) (x : Ctx) : (d.setCtx p k x).ana = d.ana := rfl
@[simp] theorem Dev.setCtx_sp (d : Dev) (p k : Nat) (x : Ctx) : (d.setCtx p k x).sp = d.sp := rfl
@[simp] theorem Dev.setCtx_xip (d : Dev) (p k : Nat) (x : Ctx) : (d.setCtx p k x).xip = d.xip := rfl
@[simp] theorem Dev.setCtx_sps (d : Dev) (p k : Nat) (x : Ctx) : (d.setCtx p k x).sps = d.sps := rfl
@[simp] theorem Dev.setCtx_lt (d : Dev) (p k : Nat) (x : Ctx) : (d.setCtx p k x).lt = d.lt := rfl
@[simp] theorem Dev.setCtx_tk (d : Dev) (p k : Nat) (x : Ctx) : (d.setCtx p k x).tk = d.tk := rfl
@[simp] theorem Dev.setCtx_fab (d : Dev) (p k : Nat) (x : Ctx) : (d.setCtx p k x).fab = d.fab := rfl
@[simp] theorem Dev.setCtx_hx (d : Dev) (p k : Nat) (x : Ctx) : (d.setCtx p k x).hx = d.hx := rfl
@[simp] theorem Dev.setCtx_slots (d : Dev) (p k : Nat) (x : Ctx) : (d.setCtx p k x).slots = d.slots := rfl
@[simp] theorem Dev.setCtx_trim (d : Dev) (p k : Nat) (x : Ctx) : (d.setCtx p k x).trim = d.trim := rfl
@[simp] theorem Dev.setCtx_tap (d : Dev) (p k : Nat) (x : Ctx) : (d.setCtx p k x).tap = d.tap := rfl

@[simp] theorem Dev.setPipe_regs (d : Dev) (p : Nat) (x : Pipe) : (d.setPipe p x).regs = d.regs := rfl
@[simp] theorem Dev.setPipe_free (d : Dev) (p : Nat) (x : Pipe) : (d.setPipe p x).free = d.free := rfl
@[simp] theorem Dev.setPipe_ev (d : Dev) (p : Nat) (x : Pipe) : (d.setPipe p x).ev = d.ev := rfl
@[simp] theorem Dev.setPipe_flt (d : Dev) (p : Nat) (x : Pipe) : (d.setPipe p x).flt = d.flt := rfl
@[simp] theorem Dev.setPipe_sent (d : Dev) (p : Nat) (x : Pipe) : (d.setPipe p x).sent = d.sent := rfl
@[simp] theorem Dev.setPipe_pw (d : Dev) (p : Nat) (x : Pipe) : (d.setPipe p x).pw = d.pw := rfl
@[simp] theorem Dev.setPipe_web (d : Dev) (p : Nat) (x : Pipe) : (d.setPipe p x).web = d.web := rfl
@[simp] theorem Dev.setPipe_hp (d : Dev) (p : Nat) (x : Pipe) : (d.setPipe p x).hp = d.hp := rfl
@[simp] theorem Dev.setPipe_pl (d : Dev) (p : Nat) (x : Pipe) : (d.setPipe p x).pl = d.pl := rfl
@[simp] theorem Dev.setPipe_pipes (d : Dev) (p : Nat) (x : Pipe) : (d.setPipe p x).pipes = SMap.set Pipe.reset d.pipes p x := rfl
@[simp] theorem Dev.setPipe_wm (d : Dev) (p : Nat) (x : Pipe) : (d.setPipe p x).wm = d.wm := rfl
@[simp] theorem Dev.setPipe_bv (d : Dev) (p : Nat) (x : Pipe) : (d.setPipe p x).bv = d.bv := rfl
@[simp] theorem Dev.setPipe_vb (d : Dev) (p : Nat) (x : Pipe) : (d.setPipe p x).vb = d.vb := rfl
@[simp] theorem Dev.setPipe_spare (d : Dev) (p : Nat) (x : Pipe) : (d.setPipe p x).spare = d.spare := rfl
@[simp] theorem Dev.setPipe_bl (d : Dev) (p : Nat) (x : Pipe) : (d.setPipe p x).bl = d.bl := rfl
@[simp] theorem Dev.setPipe_safe (d : Dev) (p : Nat) (x : Pipe) : (d.setPipe p x).safe = d.safe := rfl
@[simp] theorem Dev.setPipe_an (d : Dev) (p : Nat) (x : Pipe) : (d.setPipe p x).an = d.an := rfl
@[simp] theorem Dev.setPipe_ana (d : Dev) (p : Nat) (x : Pipe) : (d.setPipe p x).ana = d.ana := rfl
@[simp] theorem Dev.setPipe_sp (d : Dev) (p : Nat) (x : Pipe) : (d.setPipe p x).sp = d.sp := rfl
@[simp] theorem Dev.setPipe_xip (d : Dev) (p : Nat) (x : Pipe) : (d.setPipe p x).xip = d.xip := rfl
@[simp] theorem Dev.setPipe_sps (d : Dev) (p : Nat) (x : Pipe) : (d.setPipe p x).sps = d.sps := rfl
@[simp] theorem Dev.setPipe_lt (d : Dev) (p : Nat) (x : Pipe) : (d.setPipe p x).lt = d.lt := rfl
@[simp] theorem Dev.setPipe_tk (d : Dev) (p : Nat) (x : Pipe) : (d.setPipe p x).tk = d.tk := rfl
@[simp] theorem Dev.setPipe_fab (d : Dev) (p : Nat) (x : Pipe) : (d.setPipe p x).fab = d.fab := rfl
@[simp] theorem Dev.setPipe_hx (d : Dev) (p : Nat) (x : Pipe) : (d.setPipe p x).hx = d.hx := rfl
@[simp] theorem Dev.setPipe_slots (d : Dev) (p : Nat) (x : Pipe) : (d.setPipe p x).slots = d.slots := rfl
@[simp] theorem Dev.setPipe_trim (d : Dev) (p : Nat) (x : Pipe) : (d.setPipe p x).trim = d.trim := rfl
@[simp] theorem Dev.setPipe_tap (d : Dev) (p : Nat) (x : Pipe) : (d.setPipe p x).tap = d.tap := rfl

@[simp] theorem Dev.updWm_regs (d : Dev) (f : WebMap → WebMap) : (d.updWm f).regs = d.regs := rfl
@[simp] theorem Dev.updWm_free (d : Dev) (f : WebMap → WebMap) : (d.updWm f).free = d.free := rfl
@[simp] theorem Dev.updWm_ev (d : Dev) (f : WebMap → WebMap) : (d.updWm f).ev = d.ev := rfl
@[simp] theorem Dev.updWm_flt (d : Dev) (f : WebMap → WebMap) : (d.updWm f).flt = d.flt := rfl
@[simp] theorem Dev.updWm_sent (d : Dev) (f : WebMap → WebMap) : (d.updWm f).sent = d.sent := rfl
@[simp] theorem Dev.updWm_pw (d : Dev) (f : WebMap → WebMap) : (d.updWm f).pw = d.pw := rfl
@[simp] theorem Dev.updWm_web (d : Dev) (f : WebMap → WebMap) : (d.updWm f).web = d.web := rfl
@[simp] theorem Dev.updWm_hp (d : Dev) (f : WebMap → WebMap) : (d.updWm f).hp = d.hp := rfl
@[simp] theorem Dev.updWm_pl (d : Dev) (f : WebMap → WebMap) : (d.updWm f).pl = d.pl := rfl
@[simp] theorem Dev.updWm_pipes (d : Dev) (f : WebMap → WebMap) : (d.updWm f).pipes = d.pipes := rfl
@[simp] theorem Dev.updWm_wm (d : Dev) (f : WebMap → WebMap) : (d.updWm f).wm = f d.wm := rfl
@[simp] theorem Dev.updWm_bv (d : Dev) (f : WebMap → WebMap) : (d.updWm f).bv = d.bv := rfl
@[simp] theorem Dev.updWm_vb (d : Dev) (f : WebMap → WebMap) : (d.updWm f).vb = d.vb := rfl
@[simp] theorem Dev.updWm_spare (d : Dev) (f : WebMap → WebMap) : (d.updWm f).spare = d.spare := rfl
@[simp] theorem Dev.updWm_bl (d : Dev) (f : WebMap → WebMap) : (d.updWm f).bl = d.bl := rfl
@[simp] theorem Dev.updWm_safe (d : Dev) (f : WebMap → WebMap) : (d.updWm f).safe = d.safe := rfl
@[simp] theorem Dev.updWm_an (d : Dev) (f : WebMap → WebMap) : (d.updWm f).an = d.an := rfl
@[simp] theorem Dev.updWm_ana (d : Dev) (f : WebMap → WebMap) : (d.updWm f).ana = d.ana := rfl
@[simp] theorem Dev.updWm_sp (d : Dev) (f : WebMap → WebMap) : (d.updWm f).sp = d.sp := rfl
@[simp] theorem Dev.updWm_xip (d : Dev) (f : WebMap → WebMap) : (d.updWm f).xip = d.xip := rfl
@[simp] theorem Dev.updWm_sps (d : Dev) (f : WebMap → WebMap) : (d.updWm f).sps = d.sps := rfl
@[simp] theorem Dev.updWm_lt (d : Dev) (f : WebMap → WebMap) : (d.updWm f).lt = d.lt := rfl
@[simp] theorem Dev.updWm_tk (d : Dev) (f : WebMap → WebMap) : (d.updWm f).tk = d.tk := rfl
@[simp] theorem Dev.updWm_fab (d : Dev) (f : WebMap → WebMap) : (d.updWm f).fab = d.fab := rfl
@[simp] theorem Dev.updWm_hx (d : Dev) (f : WebMap → WebMap) : (d.updWm f).hx = d.hx := rfl
@[simp] theorem Dev.updWm_slots (d : Dev) (f : WebMap → WebMap) : (d.updWm f).slots = d.slots := rfl
@[simp] theorem Dev.updWm_trim (d : Dev) (f : WebMap → WebMap) : (d.updWm f).trim = d.trim := rfl
@[simp] theorem Dev.updWm_tap (d : Dev) (f : WebMap → WebMap) : (d.updWm f).tap = d.tap := rfl

@[simp] theorem Dev.updBv_regs (d : Dev) (f : Bloom → Bloom) : (d.updBv f).regs = d.regs := rfl
@[simp] theorem Dev.updBv_free (d : Dev) (f : Bloom → Bloom) : (d.updBv f).free = d.free := rfl
@[simp] theorem Dev.updBv_ev (d : Dev) (f : Bloom → Bloom) : (d.updBv f).ev = d.ev := rfl
@[simp] theorem Dev.updBv_flt (d : Dev) (f : Bloom → Bloom) : (d.updBv f).flt = d.flt := rfl
@[simp] theorem Dev.updBv_sent (d : Dev) (f : Bloom → Bloom) : (d.updBv f).sent = d.sent := rfl
@[simp] theorem Dev.updBv_pw (d : Dev) (f : Bloom → Bloom) : (d.updBv f).pw = d.pw := rfl
@[simp] theorem Dev.updBv_web (d : Dev) (f : Bloom → Bloom) : (d.updBv f).web = d.web := rfl
@[simp] theorem Dev.updBv_hp (d : Dev) (f : Bloom → Bloom) : (d.updBv f).hp = d.hp := rfl
@[simp] theorem Dev.updBv_pl (d : Dev) (f : Bloom → Bloom) : (d.updBv f).pl = d.pl := rfl
@[simp] theorem Dev.updBv_pipes (d : Dev) (f : Bloom → Bloom) : (d.updBv f).pipes = d.pipes := rfl
@[simp] theorem Dev.updBv_wm (d : Dev) (f : Bloom → Bloom) : (d.updBv f).wm = d.wm := rfl
@[simp] theorem Dev.updBv_bv (d : Dev) (f : Bloom → Bloom) : (d.updBv f).bv = f d.bv := rfl
@[simp] theorem Dev.updBv_vb (d : Dev) (f : Bloom → Bloom) : (d.updBv f).vb = d.vb := rfl
@[simp] theorem Dev.updBv_spare (d : Dev) (f : Bloom → Bloom) : (d.updBv f).spare = d.spare := rfl
@[simp] theorem Dev.updBv_bl (d : Dev) (f : Bloom → Bloom) : (d.updBv f).bl = d.bl := rfl
@[simp] theorem Dev.updBv_safe (d : Dev) (f : Bloom → Bloom) : (d.updBv f).safe = d.safe := rfl
@[simp] theorem Dev.updBv_an (d : Dev) (f : Bloom → Bloom) : (d.updBv f).an = d.an := rfl
@[simp] theorem Dev.updBv_ana (d : Dev) (f : Bloom → Bloom) : (d.updBv f).ana = d.ana := rfl
@[simp] theorem Dev.updBv_sp (d : Dev) (f : Bloom → Bloom) : (d.updBv f).sp = d.sp := rfl
@[simp] theorem Dev.updBv_xip (d : Dev) (f : Bloom → Bloom) : (d.updBv f).xip = d.xip := rfl
@[simp] theorem Dev.updBv_sps (d : Dev) (f : Bloom → Bloom) : (d.updBv f).sps = d.sps := rfl
@[simp] theorem Dev.updBv_lt (d : Dev) (f : Bloom → Bloom) : (d.updBv f).lt = d.lt := rfl
@[simp] theorem Dev.updBv_tk (d : Dev) (f : Bloom → Bloom) : (d.updBv f).tk = d.tk := rfl
@[simp] theorem Dev.updBv_fab (d : Dev) (f : Bloom → Bloom) : (d.updBv f).fab = d.fab := rfl
@[simp] theorem Dev.updBv_hx (d : Dev) (f : Bloom → Bloom) : (d.updBv f).hx = d.hx := rfl
@[simp] theorem Dev.updBv_slots (d : Dev) (f : Bloom → Bloom) : (d.updBv f).slots = d.slots := rfl
@[simp] theorem Dev.updBv_trim (d : Dev) (f : Bloom → Bloom) : (d.updBv f).trim = d.trim := rfl
@[simp] theorem Dev.updBv_tap (d : Dev) (f : Bloom → Bloom) : (d.updBv f).tap = d.tap := rfl

@[simp] theorem Dev.setBank_regs (d : Dev) (b : Nat) (x : Bank) : (d.setBank b x).regs = d.regs := rfl
@[simp] theorem Dev.setBank_free (d : Dev) (b : Nat) (x : Bank) : (d.setBank b x).free = d.free := rfl
@[simp] theorem Dev.setBank_ev (d : Dev) (b : Nat) (x : Bank) : (d.setBank b x).ev = d.ev := rfl
@[simp] theorem Dev.setBank_flt (d : Dev) (b : Nat) (x : Bank) : (d.setBank b x).flt = d.flt := rfl
@[simp] theorem Dev.setBank_sent (d : Dev) (b : Nat) (x : Bank) : (d.setBank b x).sent = d.sent := rfl
@[simp] theorem Dev.setBank_pw (d : Dev) (b : Nat) (x : Bank) : (d.setBank b x).pw = d.pw := rfl
@[simp] theorem Dev.setBank_web (d : Dev) (b : Nat) (x : Bank) : (d.setBank b x).web = d.web := rfl
@[simp] theorem Dev.setBank_hp (d : Dev) (b : Nat) (x : Bank) : (d.setBank b x).hp = d.hp := rfl
@[simp] theorem Dev.setBank_pl (d : Dev) (b : Nat) (x : Bank) : (d.setBank b x).pl = d.pl := rfl
@[simp] theorem Dev.setBank_pipes (d : Dev) (b : Nat) (x : Bank) : (d.setBank b x).pipes = d.pipes := rfl
@[simp] theorem Dev.setBank_wm (d : Dev) (b : Nat) (x : Bank) : (d.setBank b x).wm = d.wm := rfl
@[simp] theorem Dev.setBank_bv (d : Dev) (b : Nat) (x : Bank) : (d.setBank b x).bv = d.bv := rfl
@[simp] theorem Dev.setBank_vb (d : Dev) (b : Nat) (x : Bank) : (d.setBank b x).vb = SMap.set Bank.reset d.vb b x := rfl
@[simp] theorem Dev.setBank_spare (d : Dev) (b : Nat) (x : Bank) : (d.setBank b x).spare = d.spare := rfl
@[simp] theorem Dev.setBank_bl (d : Dev) (b : Nat) (x : Bank) : (d.setBank b x).bl = d.bl := rfl
@[simp] theorem Dev.setBank_safe (d : Dev) (b : Nat) (x : Bank) : (d.setBank b x).safe = d.safe := rfl
@[simp] theorem Dev.setBank_an (d : Dev) (b : Nat) (x : Bank) : (d.setBank b x).an = d.an := rfl
@[simp] theorem Dev.setBank_ana (d : Dev) (b : Nat) (x : Bank) : (d.setBank b x).ana = d.ana := rfl
@[simp] theorem Dev.setBank_sp (d : Dev) (b : Nat) (x : Bank) : (d.setBank b x).sp = d.sp := rfl
@[simp] theorem Dev.setBank_xip (d : Dev) (b : Nat) (x : Bank) : (d.setBank b x).xip = d.xip := rfl
@[simp] theorem Dev.setBank_sps (d : Dev) (b : Nat) (x : Bank) : (d.setBank b x).sps = d.sps := rfl
@[simp] theorem Dev.setBank_lt (d : Dev) (b : Nat) (x : Bank) : (d.setBank b x).lt = d.lt := rfl
@[simp] theorem Dev.setBank_tk (d : Dev) (b : Nat) (x : Bank) : (d.setBank b x).tk = d.tk := rfl
@[simp] theorem Dev.setBank_fab (d : Dev) (b : Nat) (x : Bank) : (d.setBank b x).fab = d.fab := rfl
@[simp] theorem Dev.setBank_hx (d : Dev) (b : Nat) (x : Bank) : (d.setBank b x).hx = d.hx := rfl
@[simp] theorem Dev.setBank_slots (d : Dev) (b : Nat) (x : Bank) : (d.setBank b x).slots = d.slots := rfl
@[simp] theorem Dev.setBank_trim (d : Dev) (b : Nat) (x : Bank) : (d.setBank b x).trim = d.trim := rfl
@[simp] theorem Dev.setBank_tap (d : Dev) (b : Nat) (x : Bank) : (d.setBank b x).tap = d.tap := rfl

@[simp] theorem Dev.updSpare_regs (d : Dev) (f : Spare → Spare) : (d.updSpare f).regs = d.regs := rfl
@[simp] theorem Dev.updSpare_free (d : Dev) (f : Spare → Spare) : (d.updSpare f).free = d.free := rfl
@[simp] theorem Dev.updSpare_ev (d : Dev) (f : Spare → Spare) : (d.updSpare f).ev = d.ev := rfl
@[simp] theorem Dev.updSpare_flt (d : Dev) (f : Spare → Spare) : (d.updSpare f).flt = d.flt := rfl
@[simp] theorem Dev.updSpare_sent (d : Dev) (f : Spare → Spare) : (d.updSpare f).sent = d.sent := rfl
@[simp] theorem Dev.updSpare_pw (d : Dev) (f : Spare → Spare) : (d.updSpare f).pw = d.pw := rfl
@[simp] theorem Dev.updSpare_web (d : Dev) (f : Spare → Spare) : (d.updSpare f).web = d.web := rfl
@[simp] theorem Dev.updSpare_hp (d : Dev) (f : Spare → Spare) : (d.updSpare f).hp = d.hp := rfl
@[simp] theorem Dev.updSpare_pl (d : Dev) (f : Spare → Spare) : (d.updSpare f).pl = d.pl := rfl
@[simp] theorem Dev.updSpare_pipes (d : Dev) (f : Spare → Spare) : (d.updSpare f).pipes = d.pipes := rfl
@[simp] theorem Dev.updSpare_wm (d : Dev) (f : Spare → Spare) : (d.updSpare f).wm = d.wm := rfl
@[simp] theorem Dev.updSpare_bv (d : Dev) (f : Spare → Spare) : (d.updSpare f).bv = d.bv := rfl
@[simp] theorem Dev.updSpare_vb (d : Dev) (f : Spare → Spare) : (d.updSpare f).vb = d.vb := rfl
@[simp] theorem Dev.updSpare_spare (d : Dev) (f : Spare → Spare) : (d.updSpare f).spare = f d.spare := rfl
@[simp] theorem Dev.updSpare_bl (d : Dev) (f : Spare → Spare) : (d.updSpare f).bl = d.bl := rfl
@[simp] theorem Dev.updSpare_safe (d : Dev) (f : Spare → Spare) : (d.updSpare f).safe = d.safe := rfl
@[simp] theorem Dev.updSpare_an (d : Dev) (f : Spare → Spare) : (d.updSpare f).an = d.an := rfl
@[simp] theorem Dev.updSpare_ana (d : Dev) (f : Spare → Spare) : (d.updSpare f).ana = d.ana := rfl
@[simp] theorem Dev.updSpare_sp (d : Dev) (f : Spare → Spare) : (d.updSpare f).sp = d.sp := rfl
@[simp] theorem Dev.updSpare_xip (d : Dev) (f : Spare → Spare) : (d.updSpare f).xip = d.xip := rfl
@[simp] theorem Dev.updSpare_sps (d : Dev) (f : Spare → Spare) : (d.updSpare f).sps = d.sps := rfl
@[simp] theorem Dev.updSpare_lt (d : Dev) (f : Spare → Spare) : (d.updSpare f).lt = d.lt := rfl
@[simp] theorem Dev.updSpare_tk (d : Dev) (f : Spare → Spare) : (d.updSpare f).tk = d.tk := rfl
@[simp] theorem Dev.updSpare_fab (d : Dev) (f : Spare → Spare) : (d.updSpare f).fab = d.fab := rfl
@[simp] theorem Dev.updSpare_hx (d : Dev) (f : Spare → Spare) : (d.updSpare f).hx = d.hx := rfl
@[simp] theorem Dev.updSpare_slots (d : Dev) (f : Spare → Spare) : (d.updSpare f).slots = d.slots := rfl
@[simp] theorem Dev.updSpare_trim (d : Dev) (f : Spare → Spare) : (d.updSpare f).trim = d.trim := rfl
@[simp] theorem Dev.updSpare_tap (d : Dev) (f : Spare → Spare) : (d.updSpare f).tap = d.tap := rfl

@[simp] theorem Dev.setBlink_regs (d : Dev) (b : Nat) (x : BankLink) : (d.setBlink b x).regs = d.regs := rfl
@[simp] theorem Dev.setBlink_free (d : Dev) (b : Nat) (x : BankLink) : (d.setBlink b x).free = d.free := rfl
@[simp] theorem Dev.setBlink_ev (d : Dev) (b : Nat) (x : BankLink) : (d.setBlink b x).ev = d.ev := rfl
@[simp] theorem Dev.setBlink_flt (d : Dev) (b : Nat) (x : BankLink) : (d.setBlink b x).flt = d.flt := rfl
@[simp] theorem Dev.setBlink_sent (d : Dev) (b : Nat) (x : BankLink) : (d.setBlink b x).sent = d.sent := rfl
@[simp] theorem Dev.setBlink_pw (d : Dev) (b : Nat) (x : BankLink) : (d.setBlink b x).pw = d.pw := rfl
@[simp] theorem Dev.setBlink_web (d : Dev) (b : Nat) (x : BankLink) : (d.setBlink b x).web = d.web := rfl
@[simp] theorem Dev.setBlink_hp (d : Dev) (b : Nat) (x : BankLink) : (d.setBlink b x).hp = d.hp := rfl
@[simp] theorem Dev.setBlink_pl (d : Dev) (b : Nat) (x : BankLink) : (d.setBlink b x).pl = d.pl := rfl
@[simp] theorem Dev.setBlink_pipes (d : Dev) (b : Nat) (x : BankLink) : (d.setBlink b x).pipes = d.pipes := rfl
@[simp] theorem Dev.setBlink_wm (d : Dev) (b : Nat) (x : BankLink) : (d.setBlink b x).wm = d.wm := rfl
@[simp] theorem Dev.setBlink_bv (d : Dev) (b : Nat) (x : BankLink) : (d.setBlink b x).bv = d.bv := rfl
@[simp] theorem Dev.setBlink_vb (d : Dev) (b : Nat) (x : BankLink) : (d.setBlink b x).vb = d.vb := rfl
@[simp] theorem Dev.setBlink_spare (d : Dev) (b : Nat) (x : BankLink) : (d.setBlink b x).spare = d.spare := rfl
@[simp] theorem Dev.setBlink_bl (d : Dev) (b : Nat) (x : BankLink) : (d.setBlink b x).bl = SMap.set BankLink.reset d.bl b x := rfl
@[simp] theorem Dev.setBlink_safe (d : Dev) (b : Nat) (x : BankLink) : (d.setBlink b x).safe = d.safe := rfl
@[simp] theorem Dev.setBlink_an (d : Dev) (b : Nat) (x : BankLink) : (d.setBlink b x).an = d.an := rfl
@[simp] theorem Dev.setBlink_ana (d : Dev) (b : Nat) (x : BankLink) : (d.setBlink b x).ana = d.ana := rfl
@[simp] theorem Dev.setBlink_sp (d : Dev) (b : Nat) (x : BankLink) : (d.setBlink b x).sp = d.sp := rfl
@[simp] theorem Dev.setBlink_xip (d : Dev) (b : Nat) (x : BankLink) : (d.setBlink b x).xip = d.xip := rfl
@[simp] theorem Dev.setBlink_sps (d : Dev) (b : Nat) (x : BankLink) : (d.setBlink b x).sps = d.sps := rfl
@[simp] theorem Dev.setBlink_lt (d : Dev) (b : Nat) (x : BankLink) : (d.setBlink b x).lt = d.lt := rfl
@[simp] theorem Dev.setBlink_tk (d : Dev) (b : Nat) (x : BankLink) : (d.setBlink b x).tk = d.tk := rfl
@[simp] theorem Dev.setBlink_fab (d : Dev) (b : Nat) (x : BankLink) : (d.setBlink b x).fab = d.fab := rfl
@[simp] theorem Dev.setBlink_hx (d : Dev) (b : Nat) (x : BankLink) : (d.setBlink b x).hx = d.hx := rfl
@[simp] theorem Dev.setBlink_slots (d : Dev) (b : Nat) (x : BankLink) : (d.setBlink b x).slots = d.slots := rfl
@[simp] theorem Dev.setBlink_trim (d : Dev) (b : Nat) (x : BankLink) : (d.setBlink b x).trim = d.trim := rfl
@[simp] theorem Dev.setBlink_tap (d : Dev) (b : Nat) (x : BankLink) : (d.setBlink b x).tap = d.tap := rfl

@[simp] theorem Dev.setAdc_regs (d : Dev) (x : Nat) (a : Adc) : (d.setAdc x a).regs = d.regs := rfl
@[simp] theorem Dev.setAdc_free (d : Dev) (x : Nat) (a : Adc) : (d.setAdc x a).free = d.free := rfl
@[simp] theorem Dev.setAdc_ev (d : Dev) (x : Nat) (a : Adc) : (d.setAdc x a).ev = d.ev := rfl
@[simp] theorem Dev.setAdc_flt (d : Dev) (x : Nat) (a : Adc) : (d.setAdc x a).flt = d.flt := rfl
@[simp] theorem Dev.setAdc_sent (d : Dev) (x : Nat) (a : Adc) : (d.setAdc x a).sent = d.sent := rfl
@[simp] theorem Dev.setAdc_pw (d : Dev) (x : Nat) (a : Adc) : (d.setAdc x a).pw = d.pw := rfl
@[simp] theorem Dev.setAdc_web (d : Dev) (x : Nat) (a : Adc) : (d.setAdc x a).web = d.web := rfl
@[simp] theorem Dev.setAdc_hp (d : Dev) (x : Nat) (a : Adc) : (d.setAdc x a).hp = d.hp := rfl
@[simp] theorem Dev.setAdc_pl (d : Dev) (x : Nat) (a : Adc) : (d.setAdc x a).pl = d.pl := rfl
@[simp] theorem Dev.setAdc_pipes (d : Dev) (x : Nat) (a : Adc) : (d.setAdc x a).pipes = d.pipes := rfl
@[simp] theorem Dev.setAdc_wm (d : Dev) (x : Nat) (a : Adc) : (d.setAdc x a).wm = d.wm := rfl
@[simp] theorem Dev.setAdc_bv (d : Dev) (x : Nat) (a : Adc) : (d.setAdc x a).bv = d.bv := rfl
@[simp] theorem Dev.setAdc_vb (d : Dev) (x : Nat) (a : Adc) : (d.setAdc x a).vb = d.vb := rfl
@[simp] theorem Dev.setAdc_spare (d : Dev) (x : Nat) (a : Adc) : (d.setAdc x a).spare = d.spare := rfl
@[simp] theorem Dev.setAdc_bl (d : Dev) (x : Nat) (a : Adc) : (d.setAdc x a).bl = d.bl := rfl
@[simp] theorem Dev.setAdc_safe (d : Dev) (x : Nat) (a : Adc) : (d.setAdc x a).safe = d.safe := rfl
@[simp] theorem Dev.setAdc_an (d : Dev) (x : Nat) (a : Adc) : (d.setAdc x a).an = SMap.set Adc.reset d.an x a := rfl
@[simp] theorem Dev.setAdc_ana (d : Dev) (x : Nat) (a : Adc) : (d.setAdc x a).ana = d.ana := rfl
@[simp] theorem Dev.setAdc_sp (d : Dev) (x : Nat) (a : Adc) : (d.setAdc x a).sp = d.sp := rfl
@[simp] theorem Dev.setAdc_xip (d : Dev) (x : Nat) (a : Adc) : (d.setAdc x a).xip = d.xip := rfl
@[simp] theorem Dev.setAdc_sps (d : Dev) (x : Nat) (a : Adc) : (d.setAdc x a).sps = d.sps := rfl
@[simp] theorem Dev.setAdc_lt (d : Dev) (x : Nat) (a : Adc) : (d.setAdc x a).lt = d.lt := rfl
@[simp] theorem Dev.setAdc_tk (d : Dev) (x : Nat) (a : Adc) : (d.setAdc x a).tk = d.tk := rfl
@[simp] theorem Dev.setAdc_fab (d : Dev) (x : Nat) (a : Adc) : (d.setAdc x a).fab = d.fab := rfl
@[simp] theorem Dev.setAdc_hx (d : Dev) (x : Nat) (a : Adc) : (d.setAdc x a).hx = d.hx := rfl
@[simp] theorem Dev.setAdc_slots (d : Dev) (x : Nat) (a : Adc) : (d.setAdc x a).slots = d.slots := rfl
@[simp] theorem Dev.setAdc_trim (d : Dev) (x : Nat) (a : Adc) : (d.setAdc x a).trim = d.trim := rfl
@[simp] theorem Dev.setAdc_tap (d : Dev) (x : Nat) (a : Adc) : (d.setAdc x a).tap = d.tap := rfl

@[simp] theorem Dev.updAna_regs (d : Dev) (f : Analogue → Analogue) : (d.updAna f).regs = d.regs := rfl
@[simp] theorem Dev.updAna_free (d : Dev) (f : Analogue → Analogue) : (d.updAna f).free = d.free := rfl
@[simp] theorem Dev.updAna_ev (d : Dev) (f : Analogue → Analogue) : (d.updAna f).ev = d.ev := rfl
@[simp] theorem Dev.updAna_flt (d : Dev) (f : Analogue → Analogue) : (d.updAna f).flt = d.flt := rfl
@[simp] theorem Dev.updAna_sent (d : Dev) (f : Analogue → Analogue) : (d.updAna f).sent = d.sent := rfl
@[simp] theorem Dev.updAna_pw (d : Dev) (f : Analogue → Analogue) : (d.updAna f).pw = d.pw := rfl
@[simp] theorem Dev.updAna_web (d : Dev) (f : Analogue → Analogue) : (d.updAna f).web = d.web := rfl
@[simp] theorem Dev.updAna_hp (d : Dev) (f : Analogue → Analogue) : (d.updAna f).hp = d.hp := rfl
@[simp] theorem Dev.updAna_pl (d : Dev) (f : Analogue → Analogue) : (d.updAna f).pl = d.pl := rfl
@[simp] theorem Dev.updAna_pipes (d : Dev) (f : Analogue → Analogue) : (d.updAna f).pipes = d.pipes := rfl
@[simp] theorem Dev.updAna_wm (d : Dev) (f : Analogue → Analogue) : (d.updAna f).wm = d.wm := rfl
@[simp] theorem Dev.updAna_bv (d : Dev) (f : Analogue → Analogue) : (d.updAna f).bv = d.bv := rfl
@[simp] theorem Dev.updAna_vb (d : Dev) (f : Analogue → Analogue) : (d.updAna f).vb = d.vb := rfl
@[simp] theorem Dev.updAna_spare (d : Dev) (f : Analogue → Analogue) : (d.updAna f).spare = d.spare := rfl
@[simp] theorem Dev.updAna_bl (d : Dev) (f : Analogue → Analogue) : (d.updAna f).bl = d.bl := rfl
@[simp] theorem Dev.updAna_safe (d : Dev) (f : Analogue → Analogue) : (d.updAna f).safe = d.safe := rfl
@[simp] theorem Dev.updAna_an (d : Dev) (f : Analogue → Analogue) : (d.updAna f).an = d.an := rfl
@[simp] theorem Dev.updAna_ana (d : Dev) (f : Analogue → Analogue) : (d.updAna f).ana = f d.ana := rfl
@[simp] theorem Dev.updAna_sp (d : Dev) (f : Analogue → Analogue) : (d.updAna f).sp = d.sp := rfl
@[simp] theorem Dev.updAna_xip (d : Dev) (f : Analogue → Analogue) : (d.updAna f).xip = d.xip := rfl
@[simp] theorem Dev.updAna_sps (d : Dev) (f : Analogue → Analogue) : (d.updAna f).sps = d.sps := rfl
@[simp] theorem Dev.updAna_lt (d : Dev) (f : Analogue → Analogue) : (d.updAna f).lt = d.lt := rfl
@[simp] theorem Dev.updAna_tk (d : Dev) (f : Analogue → Analogue) : (d.updAna f).tk = d.tk := rfl
@[simp] theorem Dev.updAna_fab (d : Dev) (f : Analogue → Analogue) : (d.updAna f).fab = d.fab := rfl
@[simp] theorem Dev.updAna_hx (d : Dev) (f : Analogue → Analogue) : (d.updAna f).hx = d.hx := rfl
@[simp] theorem Dev.updAna_slots (d : Dev) (f : Analogue → Analogue) : (d.updAna f).slots = d.slots := rfl
@[simp] theorem Dev.updAna_trim (d : Dev) (f : Analogue → Analogue) : (d.updAna f).trim = d.trim := rfl
@[simp] theorem Dev.updAna_tap (d : Dev) (f : Analogue → Analogue) : (d.updAna f).tap = d.tap := rfl

@[simp] theorem Dev.setPort_regs (d : Dev) (n : Nat) (x : SerialPort) : (d.setPort n x).regs = d.regs := rfl
@[simp] theorem Dev.setPort_free (d : Dev) (n : Nat) (x : SerialPort) : (d.setPort n x).free = d.free := rfl
@[simp] theorem Dev.setPort_ev (d : Dev) (n : Nat) (x : SerialPort) : (d.setPort n x).ev = d.ev := rfl
@[simp] theorem Dev.setPort_flt (d : Dev) (n : Nat) (x : SerialPort) : (d.setPort n x).flt = d.flt := rfl
@[simp] theorem Dev.setPort_sent (d : Dev) (n : Nat) (x : SerialPort) : (d.setPort n x).sent = d.sent := rfl
@[simp] theorem Dev.setPort_pw (d : Dev) (n : Nat) (x : SerialPort) : (d.setPort n x).pw = d.pw := rfl
@[simp] theorem Dev.setPort_web (d : Dev) (n : Nat) (x : SerialPort) : (d.setPort n x).web = d.web := rfl
@[simp] theorem Dev.setPort_hp (d : Dev) (n : Nat) (x : SerialPort) : (d.setPort n x).hp = d.hp := rfl
@[simp] theorem Dev.setPort_pl (d : Dev) (n : Nat) (x : SerialPort) : (d.setPort n x).pl = d.pl := rfl
@[simp] theorem Dev.setPort_pipes (d : Dev) (n : Nat) (x : SerialPort) : (d.setPort n x).pipes = d.pipes := rfl
@[simp] theorem Dev.setPort_wm (d : Dev) (n : Nat) (x : SerialPort) : (d.setPort n x).wm = d.wm := rfl
@[simp] theorem Dev.setPort_bv (d : Dev) (n : Nat) (x : SerialPort) : (d.setPort n x).bv = d.bv := rfl
@[simp] theorem Dev.setPort_vb (d : Dev) (n : Nat) (x : SerialPort) : (d.setPort n x).vb = d.vb := rfl
@[simp] theorem Dev.setPort_spare (d : Dev) (n : Nat) (x : SerialPort) : (d.setPort n x).spare = d.spare := rfl
@[simp] theorem Dev.setPort_bl (d : Dev) (n : Nat) (x : SerialPort) : (d.setPort n x).bl = d.bl := rfl
@[simp] theorem Dev.setPort_safe (d : Dev) (n : Nat) (x : SerialPort) : (d.setPort n x).safe = d.safe := rfl
@[simp] theorem Dev.setPort_an (d : Dev) (n : Nat) (x : SerialPort) : (d.setPort n x).an = d.an := rfl
@[simp] theorem Dev.setPort_ana (d : Dev) (n : Nat) (x : SerialPort) : (d.setPort n x).ana = d.ana := rfl
@[simp] theorem Dev.setPort_sp (d : Dev) (n : Nat) (x : SerialPort) : (d.setPort n x).sp = SMap.set SerialPort.reset d.sp n x := rfl
@[simp] theorem Dev.setPort_xip (d : Dev) (n : Nat) (x : SerialPort) : (d.setPort n x).xip = d.xip := rfl
@[simp] theorem Dev.setPort_sps (d : Dev) (n : Nat) (x : SerialPort) : (d.setPort n x).sps = d.sps := rfl
@[simp] theorem Dev.setPort_lt (d : Dev) (n : Nat) (x : SerialPort) : (d.setPort n x).lt = d.lt := rfl
@[simp] theorem Dev.setPort_tk (d : Dev) (n : Nat) (x : SerialPort) : (d.setPort n x).tk = d.tk := rfl
@[simp] theorem Dev.setPort_fab (d : Dev) (n : Nat) (x : SerialPort) : (d.setPort n x).fab = d.fab := rfl
@[simp] theorem Dev.setPort_hx (d : Dev) (n : Nat) (x : SerialPort) : (d.setPort n x).hx = d.hx := rfl
@[simp] theorem Dev.setPort_slots (d : Dev) (n : Nat) (x : SerialPort) : (d.setPort n x).slots = d.slots := rfl
@[simp] theorem Dev.setPort_trim (d : Dev) (n : Nat) (x : SerialPort) : (d.setPort n x).trim = d.trim := rfl
@[simp] theorem Dev.setPort_tap (d : Dev) (n : Nat) (x : SerialPort) : (d.setPort n x).tap = d.tap := rfl

@[simp] theorem Dev.updXip_regs (d : Dev) (f : Xip → Xip) : (d.updXip f).regs = d.regs := rfl
@[simp] theorem Dev.updXip_free (d : Dev) (f : Xip → Xip) : (d.updXip f).free = d.free := rfl
@[simp] theorem Dev.updXip_ev (d : Dev) (f : Xip → Xip) : (d.updXip f).ev = d.ev := rfl
@[simp] theorem Dev.updXip_flt (d : Dev) (f : Xip → Xip) : (d.updXip f).flt = d.flt := rfl
@[simp] theorem Dev.updXip_sent (d : Dev) (f : Xip → Xip) : (d.updXip f).sent = d.sent := rfl
@[simp] theorem Dev.updXip_pw (d : Dev) (f : Xip → Xip) : (d.updXip f).pw = d.pw := rfl
@[simp] theorem Dev.updXip_web (d : Dev) (f : Xip → Xip) : (d.updXip f).web = d.web := rfl
@[simp] theorem Dev.updXip_hp (d : Dev) (f : Xip → Xip) : (d.updXip f).hp = d.hp := rfl
@[simp] theorem Dev.updXip_pl (d : Dev) (f : Xip → Xip) : (d.updXip f).pl = d.pl := rfl
@[simp] theorem Dev.updXip_pipes (d : Dev) (f : Xip → Xip) : (d.updXip f).pipes = d.pipes := rfl
@[simp] theorem Dev.updXip_wm (d : Dev) (f : Xip → Xip) : (d.updXip f).wm = d.wm := rfl
@[simp] theorem Dev.updXip_bv (d : Dev) (f : Xip → Xip) : (d.updXip f).bv = d.bv := rfl
@[simp] theorem Dev.updXip_vb (d : Dev) (f : Xip → Xip) : (d.updXip f).vb = d.vb := rfl
@[simp] theorem Dev.updXip_spare (d : Dev) (f : Xip → Xip) : (d.updXip f).spare = d.spare := rfl
@[simp] theorem Dev.updXip_bl (d : Dev) (f : Xip → Xip) : (d.updXip f).bl = d.bl := rfl
@[simp] theorem Dev.updXip_safe (d : Dev) (f : Xip → Xip) : (d.updXip f).safe = d.safe := rfl
@[simp] theorem Dev.updXip_an (d : Dev) (f : Xip → Xip) : (d.updXip f).an = d.an := rfl
@[simp] theorem Dev.updXip_ana (d : Dev) (f : Xip → Xip) : (d.updXip f).ana = d.ana := rfl
@[simp] theorem Dev.updXip_sp (d : Dev) (f : Xip → Xip) : (d.updXip f).sp = d.sp := rfl
@[simp] theorem Dev.updXip_xip (d : Dev) (f : Xip → Xip) : (d.updXip f).xip = f d.xip := rfl
@[simp] theorem Dev.updXip_sps (d : Dev) (f : Xip → Xip) : (d.updXip f).sps = d.sps := rfl
@[simp] theorem Dev.updXip_lt (d : Dev) (f : Xip → Xip) : (d.updXip f).lt = d.lt := rfl
@[simp] theorem Dev.updXip_tk (d : Dev) (f : Xip → Xip) : (d.updXip f).tk = d.tk := rfl
@[simp] theorem Dev.updXip_fab (d : Dev) (f : Xip → Xip) : (d.updXip f).fab = d.fab := rfl
@[simp] theorem Dev.updXip_hx (d : Dev) (f : Xip → Xip) : (d.updXip f).hx = d.hx := rfl
@[simp] theorem Dev.updXip_slots (d : Dev) (f : Xip → Xip) : (d.updXip f).slots = d.slots := rfl
@[simp] theorem Dev.updXip_trim (d : Dev) (f : Xip → Xip) : (d.updXip f).trim = d.trim := rfl
@[simp] theorem Dev.updXip_tap (d : Dev) (f : Xip → Xip) : (d.updXip f).tap = d.tap := rfl

@[simp] theorem Dev.updSps_regs (d : Dev) (f : SpsPort → SpsPort) : (d.updSps f).regs = d.regs := rfl
@[simp] theorem Dev.updSps_free (d : Dev) (f : SpsPort → SpsPort) : (d.updSps f).free = d.free := rfl
@[simp] theorem Dev.updSps_ev (d : Dev) (f : SpsPort → SpsPort) : (d.updSps f).ev = d.ev := rfl
@[simp] theorem Dev.updSps_flt (d : Dev) (f : SpsPort → SpsPort) : (d.updSps f).flt = d.flt := rfl
@[simp] theorem Dev.updSps_sent (d : Dev) (f : SpsPort → SpsPort) : (d.updSps f).sent = d.sent := rfl
@[simp] theorem Dev.updSps_pw (d : Dev) (f : SpsPort → SpsPort) : (d.updSps f).pw = d.pw := rfl
@[simp] theorem Dev.updSps_web (d : Dev) (f : SpsPort → SpsPort) : (d.updSps f).web = d.web := rfl
@[simp] theorem Dev.updSps_hp (d : Dev) (f : SpsPort → SpsPort) : (d.updSps f).hp = d.hp := rfl
@[simp] theorem Dev.updSps_pl (d : Dev) (f : SpsPort → SpsPort) : (d.updSps f).pl = d.pl := rfl
@[simp] theorem Dev.updSps_pipes (d : Dev) (f : SpsPort → SpsPort) : (d.updSps f).pipes = d.pipes := rfl
@[simp] theorem Dev.updSps_wm (d : Dev) (f : SpsPort → SpsPort) : (d.updSps f).wm = d.wm := rfl
@[simp] theorem Dev.updSps_bv (d : Dev) (f : SpsPort → SpsPort) : (d.updSps f).bv = d.bv := rfl
@[simp] theorem Dev.updSps_vb (d : Dev) (f : SpsPort → SpsPort) : (d.updSps f).vb = d.vb := rfl
@[simp] theorem Dev.updSps_spare (d : Dev) (f : SpsPort → SpsPort) : (d.updSps f).spare = d.spare := rfl
@[simp] theorem Dev.updSps_bl (d : Dev) (f : SpsPort → SpsPort) : (d.updSps f).bl = d.bl := rfl
@[simp] theorem Dev.updSps_safe (d : Dev) (f : SpsPort → SpsPort) : (d.updSps f).safe = d.safe := rfl
@[simp] theorem Dev.updSps_an (d : Dev) (f : SpsPort → SpsPort) : (d.updSps f).an = d.an := rfl
@[simp] theorem Dev.updSps_ana (d : Dev) (f : SpsPort → SpsPort) : (d.updSps f).ana = d.ana := rfl
@[simp] theorem Dev.updSps_sp (d : Dev) (f : SpsPort → SpsPort) : (d.updSps f).sp = d.sp := rfl
@[simp] theorem Dev.updSps_xip (d : Dev) (f : SpsPort → SpsPort) : (d.updSps f).xip = d.xip := rfl
@[simp] theorem Dev.updSps_sps (d : Dev) (f : SpsPort → SpsPort) : (d.updSps f).sps = f d.sps := rfl
@[simp] theorem Dev.updSps_lt (d : Dev) (f : SpsPort → SpsPort) : (d.updSps f).lt = d.lt := rfl
@[simp] theorem Dev.updSps_tk (d : Dev) (f : SpsPort → SpsPort) : (d.updSps f).tk = d.tk := rfl
@[simp] theorem Dev.updSps_fab (d : Dev) (f : SpsPort → SpsPort) : (d.updSps f).fab = d.fab := rfl
@[simp] theorem Dev.updSps_hx (d : Dev) (f : SpsPort → SpsPort) : (d.updSps f).hx = d.hx := rfl
@[simp] theorem Dev.updSps_slots (d : Dev) (f : SpsPort → SpsPort) : (d.updSps f).slots = d.slots := rfl
@[simp] theorem Dev.updSps_trim (d : Dev) (f : SpsPort → SpsPort) : (d.updSps f).trim = d.trim := rfl
@[simp] theorem Dev.updSps_tap (d : Dev) (f : SpsPort → SpsPort) : (d.updSps f).tap = d.tap := rfl

@[simp] theorem Dev.setLth_regs (d : Dev) (h : Nat) (x : LtHead) : (d.setLth h x).regs = d.regs := rfl
@[simp] theorem Dev.setLth_free (d : Dev) (h : Nat) (x : LtHead) : (d.setLth h x).free = d.free := rfl
@[simp] theorem Dev.setLth_ev (d : Dev) (h : Nat) (x : LtHead) : (d.setLth h x).ev = d.ev := rfl
@[simp] theorem Dev.setLth_flt (d : Dev) (h : Nat) (x : LtHead) : (d.setLth h x).flt = d.flt := rfl
@[simp] theorem Dev.setLth_sent (d : Dev) (h : Nat) (x : LtHead) : (d.setLth h x).sent = d.sent := rfl
@[simp] theorem Dev.setLth_pw (d : Dev) (h : Nat) (x : LtHead) : (d.setLth h x).pw = d.pw := rfl
@[simp] theorem Dev.setLth_web (d : Dev) (h : Nat) (x : LtHead) : (d.setLth h x).web = d.web := rfl
@[simp] theorem Dev.setLth_hp (d : Dev) (h : Nat) (x : LtHead) : (d.setLth h x).hp = d.hp := rfl
@[simp] theorem Dev.setLth_pl (d : Dev) (h : Nat) (x : LtHead) : (d.setLth h x).pl = d.pl := rfl
@[simp] theorem Dev.setLth_pipes (d : Dev) (h : Nat) (x : LtHead) : (d.setLth h x).pipes = d.pipes := rfl
@[simp] theorem Dev.setLth_wm (d : Dev) (h : Nat) (x : LtHead) : (d.setLth h x).wm = d.wm := rfl
@[simp] theorem Dev.setLth_bv (d : Dev) (h : Nat) (x : LtHead) : (d.setLth h x).bv = d.bv := rfl
@[simp] theorem Dev.setLth_vb (d : Dev) (h : Nat) (x : LtHead) : (d.setLth h x).vb = d.vb := rfl
@[simp] theorem Dev.setLth_spare (d : Dev) (h : Nat) (x : LtHead) : (d.setLth h x).spare = d.spare := rfl
@[simp] theorem Dev.setLth_bl (d : Dev) (h : Nat) (x : LtHead) : (d.setLth h x).bl = d.bl := rfl
@[simp] theorem Dev.setLth_safe (d : Dev) (h : Nat) (x : LtHead) : (d.setLth h x).safe = d.safe := rfl
@[simp] theorem Dev.setLth_an (d : Dev) (h : Nat) (x : LtHead) : (d.setLth h x).an = d.an := rfl
@[simp] theorem Dev.setLth_ana (d : Dev) (h : Nat) (x : LtHead) : (d.setLth h x).ana = d.ana := rfl
@[simp] theorem Dev.setLth_sp (d : Dev) (h : Nat) (x : LtHead) : (d.setLth h x).sp = d.sp := rfl
@[simp] theorem Dev.setLth_xip (d : Dev) (h : Nat) (x : LtHead) : (d.setLth h x).xip = d.xip := rfl
@[simp] theorem Dev.setLth_sps (d : Dev) (h : Nat) (x : LtHead) : (d.setLth h x).sps = d.sps := rfl
@[simp] theorem Dev.setLth_lt (d : Dev) (h : Nat) (x : LtHead) : (d.setLth h x).lt = { d.lt with heads := SMap.set LtHead.reset d.lt.heads h x } := rfl
@[simp] theorem Dev.setLth_tk (d : Dev) (h : Nat) (x : LtHead) : (d.setLth h x).tk = d.tk := rfl
@[simp] theorem Dev.setLth_fab (d : Dev) (h : Nat) (x : LtHead) : (d.setLth h x).fab = d.fab := rfl
@[simp] theorem Dev.setLth_hx (d : Dev) (h : Nat) (x : LtHead) : (d.setLth h x).hx = d.hx := rfl
@[simp] theorem Dev.setLth_slots (d : Dev) (h : Nat) (x : LtHead) : (d.setLth h x).slots = d.slots := rfl
@[simp] theorem Dev.setLth_trim (d : Dev) (h : Nat) (x : LtHead) : (d.setLth h x).trim = d.trim := rfl
@[simp] theorem Dev.setLth_tap (d : Dev) (h : Nat) (x : LtHead) : (d.setLth h x).tap = d.tap := rfl

@[simp] theorem Dev.updLt_regs (d : Dev) (f : LastStore → LastStore) : (d.updLt f).regs = d.regs := rfl
@[simp] theorem Dev.updLt_free (d : Dev) (f : LastStore → LastStore) : (d.updLt f).free = d.free := rfl
@[simp] theorem Dev.updLt_ev (d : Dev) (f : LastStore → LastStore) : (d.updLt f).ev = d.ev := rfl
@[simp] theorem Dev.updLt_flt (d : Dev) (f : LastStore → LastStore) : (d.updLt f).flt = d.flt := rfl
@[simp] theorem Dev.updLt_sent (d : Dev) (f : LastStore → LastStore) : (d.updLt f).sent = d.sent := rfl
@[simp] theorem Dev.updLt_pw (d : Dev) (f : LastStore → LastStore) : (d.updLt f).pw = d.pw := rfl
@[simp] theorem Dev.updLt_web (d : Dev) (f : LastStore → LastStore) : (d.updLt f).web = d.web := rfl
@[simp] theorem Dev.updLt_hp (d : Dev) (f : LastStore → LastStore) : (d.updLt f).hp = d.hp := rfl
@[simp] theorem Dev.updLt_pl (d : Dev) (f : LastStore → LastStore) : (d.updLt f).pl = d.pl := rfl
@[simp] theorem Dev.updLt_pipes (d : Dev) (f : LastStore → LastStore) : (d.updLt f).pipes = d.pipes := rfl
@[simp] theorem Dev.updLt_wm (d : Dev) (f : LastStore → LastStore) : (d.updLt f).wm = d.wm := rfl
@[simp] theorem Dev.updLt_bv (d : Dev) (f : LastStore → LastStore) : (d.updLt f).bv = d.bv := rfl
@[simp] theorem Dev.updLt_vb (d : Dev) (f : LastStore → LastStore) : (d.updLt f).vb = d.vb := rfl
@[simp] theorem Dev.updLt_spare (d : Dev) (f : LastStore → LastStore) : (d.updLt f).spare = d.spare := rfl
@[simp] theorem Dev.updLt_bl (d : Dev) (f : LastStore → LastStore) : (d.updLt f).bl = d.bl := rfl
@[simp] theorem Dev.updLt_safe (d : Dev) (f : LastStore → LastStore) : (d.updLt f).safe = d.safe := rfl
@[simp] theorem Dev.updLt_an (d : Dev) (f : LastStore → LastStore) : (d.updLt f).an = d.an := rfl
@[simp] theorem Dev.updLt_ana (d : Dev) (f : LastStore → LastStore) : (d.updLt f).ana = d.ana := rfl
@[simp] theorem Dev.updLt_sp (d : Dev) (f : LastStore → LastStore) : (d.updLt f).sp = d.sp := rfl
@[simp] theorem Dev.updLt_xip (d : Dev) (f : LastStore → LastStore) : (d.updLt f).xip = d.xip := rfl
@[simp] theorem Dev.updLt_sps (d : Dev) (f : LastStore → LastStore) : (d.updLt f).sps = d.sps := rfl
@[simp] theorem Dev.updLt_lt (d : Dev) (f : LastStore → LastStore) : (d.updLt f).lt = f d.lt := rfl
@[simp] theorem Dev.updLt_tk (d : Dev) (f : LastStore → LastStore) : (d.updLt f).tk = d.tk := rfl
@[simp] theorem Dev.updLt_fab (d : Dev) (f : LastStore → LastStore) : (d.updLt f).fab = d.fab := rfl
@[simp] theorem Dev.updLt_hx (d : Dev) (f : LastStore → LastStore) : (d.updLt f).hx = d.hx := rfl
@[simp] theorem Dev.updLt_slots (d : Dev) (f : LastStore → LastStore) : (d.updLt f).slots = d.slots := rfl
@[simp] theorem Dev.updLt_trim (d : Dev) (f : LastStore → LastStore) : (d.updLt f).trim = d.trim := rfl
@[simp] theorem Dev.updLt_tap (d : Dev) (f : LastStore → LastStore) : (d.updLt f).tap = d.tap := rfl

@[simp] theorem Dev.setCore_regs (d : Dev) (k : Nat) (x : Core) : (d.setCore k x).regs = d.regs := rfl
@[simp] theorem Dev.setCore_free (d : Dev) (k : Nat) (x : Core) : (d.setCore k x).free = d.free := rfl
@[simp] theorem Dev.setCore_ev (d : Dev) (k : Nat) (x : Core) : (d.setCore k x).ev = d.ev := rfl
@[simp] theorem Dev.setCore_flt (d : Dev) (k : Nat) (x : Core) : (d.setCore k x).flt = d.flt := rfl
@[simp] theorem Dev.setCore_sent (d : Dev) (k : Nat) (x : Core) : (d.setCore k x).sent = d.sent := rfl
@[simp] theorem Dev.setCore_pw (d : Dev) (k : Nat) (x : Core) : (d.setCore k x).pw = d.pw := rfl
@[simp] theorem Dev.setCore_web (d : Dev) (k : Nat) (x : Core) : (d.setCore k x).web = d.web := rfl
@[simp] theorem Dev.setCore_hp (d : Dev) (k : Nat) (x : Core) : (d.setCore k x).hp = d.hp := rfl
@[simp] theorem Dev.setCore_pl (d : Dev) (k : Nat) (x : Core) : (d.setCore k x).pl = d.pl := rfl
@[simp] theorem Dev.setCore_pipes (d : Dev) (k : Nat) (x : Core) : (d.setCore k x).pipes = d.pipes := rfl
@[simp] theorem Dev.setCore_wm (d : Dev) (k : Nat) (x : Core) : (d.setCore k x).wm = d.wm := rfl
@[simp] theorem Dev.setCore_bv (d : Dev) (k : Nat) (x : Core) : (d.setCore k x).bv = d.bv := rfl
@[simp] theorem Dev.setCore_vb (d : Dev) (k : Nat) (x : Core) : (d.setCore k x).vb = d.vb := rfl
@[simp] theorem Dev.setCore_spare (d : Dev) (k : Nat) (x : Core) : (d.setCore k x).spare = d.spare := rfl
@[simp] theorem Dev.setCore_bl (d : Dev) (k : Nat) (x : Core) : (d.setCore k x).bl = d.bl := rfl
@[simp] theorem Dev.setCore_safe (d : Dev) (k : Nat) (x : Core) : (d.setCore k x).safe = d.safe := rfl
@[simp] theorem Dev.setCore_an (d : Dev) (k : Nat) (x : Core) : (d.setCore k x).an = d.an := rfl
@[simp] theorem Dev.setCore_ana (d : Dev) (k : Nat) (x : Core) : (d.setCore k x).ana = d.ana := rfl
@[simp] theorem Dev.setCore_sp (d : Dev) (k : Nat) (x : Core) : (d.setCore k x).sp = d.sp := rfl
@[simp] theorem Dev.setCore_xip (d : Dev) (k : Nat) (x : Core) : (d.setCore k x).xip = d.xip := rfl
@[simp] theorem Dev.setCore_sps (d : Dev) (k : Nat) (x : Core) : (d.setCore k x).sps = d.sps := rfl
@[simp] theorem Dev.setCore_lt (d : Dev) (k : Nat) (x : Core) : (d.setCore k x).lt = d.lt := rfl
@[simp] theorem Dev.setCore_tk (d : Dev) (k : Nat) (x : Core) : (d.setCore k x).tk = { d.tk with cores := SMap.set Core.reset d.tk.cores k x } := rfl
@[simp] theorem Dev.setCore_fab (d : Dev) (k : Nat) (x : Core) : (d.setCore k x).fab = d.fab := rfl
@[simp] theorem Dev.setCore_hx (d : Dev) (k : Nat) (x : Core) : (d.setCore k x).hx = d.hx := rfl
@[simp] theorem Dev.setCore_slots (d : Dev) (k : Nat) (x : Core) : (d.setCore k x).slots = d.slots := rfl
@[simp] theorem Dev.setCore_trim (d : Dev) (k : Nat) (x : Core) : (d.setCore k x).trim = d.trim := rfl
@[simp] theorem Dev.setCore_tap (d : Dev) (k : Nat) (x : Core) : (d.setCore k x).tap = d.tap := rfl

@[simp] theorem Dev.setTctx_regs (d : Dev) (c : Nat) (x : TaskCtx) : (d.setTctx c x).regs = d.regs := rfl
@[simp] theorem Dev.setTctx_free (d : Dev) (c : Nat) (x : TaskCtx) : (d.setTctx c x).free = d.free := rfl
@[simp] theorem Dev.setTctx_ev (d : Dev) (c : Nat) (x : TaskCtx) : (d.setTctx c x).ev = d.ev := rfl
@[simp] theorem Dev.setTctx_flt (d : Dev) (c : Nat) (x : TaskCtx) : (d.setTctx c x).flt = d.flt := rfl
@[simp] theorem Dev.setTctx_sent (d : Dev) (c : Nat) (x : TaskCtx) : (d.setTctx c x).sent = d.sent := rfl
@[simp] theorem Dev.setTctx_pw (d : Dev) (c : Nat) (x : TaskCtx) : (d.setTctx c x).pw = d.pw := rfl
@[simp] theorem Dev.setTctx_web (d : Dev) (c : Nat) (x : TaskCtx) : (d.setTctx c x).web = d.web := rfl
@[simp] theorem Dev.setTctx_hp (d : Dev) (c : Nat) (x : TaskCtx) : (d.setTctx c x).hp = d.hp := rfl
@[simp] theorem Dev.setTctx_pl (d : Dev) (c : Nat) (x : TaskCtx) : (d.setTctx c x).pl = d.pl := rfl
@[simp] theorem Dev.setTctx_pipes (d : Dev) (c : Nat) (x : TaskCtx) : (d.setTctx c x).pipes = d.pipes := rfl
@[simp] theorem Dev.setTctx_wm (d : Dev) (c : Nat) (x : TaskCtx) : (d.setTctx c x).wm = d.wm := rfl
@[simp] theorem Dev.setTctx_bv (d : Dev) (c : Nat) (x : TaskCtx) : (d.setTctx c x).bv = d.bv := rfl
@[simp] theorem Dev.setTctx_vb (d : Dev) (c : Nat) (x : TaskCtx) : (d.setTctx c x).vb = d.vb := rfl
@[simp] theorem Dev.setTctx_spare (d : Dev) (c : Nat) (x : TaskCtx) : (d.setTctx c x).spare = d.spare := rfl
@[simp] theorem Dev.setTctx_bl (d : Dev) (c : Nat) (x : TaskCtx) : (d.setTctx c x).bl = d.bl := rfl
@[simp] theorem Dev.setTctx_safe (d : Dev) (c : Nat) (x : TaskCtx) : (d.setTctx c x).safe = d.safe := rfl
@[simp] theorem Dev.setTctx_an (d : Dev) (c : Nat) (x : TaskCtx) : (d.setTctx c x).an = d.an := rfl
@[simp] theorem Dev.setTctx_ana (d : Dev) (c : Nat) (x : TaskCtx) : (d.setTctx c x).ana = d.ana := rfl
@[simp] theorem Dev.setTctx_sp (d : Dev) (c : Nat) (x : TaskCtx) : (d.setTctx c x).sp = d.sp := rfl
@[simp] theorem Dev.setTctx_xip (d : Dev) (c : Nat) (x : TaskCtx) : (d.setTctx c x).xip = d.xip := rfl
@[simp] theorem Dev.setTctx_sps (d : Dev) (c : Nat) (x : TaskCtx) : (d.setTctx c x).sps = d.sps := rfl
@[simp] theorem Dev.setTctx_lt (d : Dev) (c : Nat) (x : TaskCtx) : (d.setTctx c x).lt = d.lt := rfl
@[simp] theorem Dev.setTctx_tk (d : Dev) (c : Nat) (x : TaskCtx) : (d.setTctx c x).tk = { d.tk with ctxs := SMap.set TaskCtx.reset d.tk.ctxs c x } := rfl
@[simp] theorem Dev.setTctx_fab (d : Dev) (c : Nat) (x : TaskCtx) : (d.setTctx c x).fab = d.fab := rfl
@[simp] theorem Dev.setTctx_hx (d : Dev) (c : Nat) (x : TaskCtx) : (d.setTctx c x).hx = d.hx := rfl
@[simp] theorem Dev.setTctx_slots (d : Dev) (c : Nat) (x : TaskCtx) : (d.setTctx c x).slots = d.slots := rfl
@[simp] theorem Dev.setTctx_trim (d : Dev) (c : Nat) (x : TaskCtx) : (d.setTctx c x).trim = d.trim := rfl
@[simp] theorem Dev.setTctx_tap (d : Dev) (c : Nat) (x : TaskCtx) : (d.setTctx c x).tap = d.tap := rfl

@[simp] theorem Dev.updTk_regs (d : Dev) (f : Tasks → Tasks) : (d.updTk f).regs = d.regs := rfl
@[simp] theorem Dev.updTk_free (d : Dev) (f : Tasks → Tasks) : (d.updTk f).free = d.free := rfl
@[simp] theorem Dev.updTk_ev (d : Dev) (f : Tasks → Tasks) : (d.updTk f).ev = d.ev := rfl
@[simp] theorem Dev.updTk_flt (d : Dev) (f : Tasks → Tasks) : (d.updTk f).flt = d.flt := rfl
@[simp] theorem Dev.updTk_sent (d : Dev) (f : Tasks → Tasks) : (d.updTk f).sent = d.sent := rfl
@[simp] theorem Dev.updTk_pw (d : Dev) (f : Tasks → Tasks) : (d.updTk f).pw = d.pw := rfl
@[simp] theorem Dev.updTk_web (d : Dev) (f : Tasks → Tasks) : (d.updTk f).web = d.web := rfl
@[simp] theorem Dev.updTk_hp (d : Dev) (f : Tasks → Tasks) : (d.updTk f).hp = d.hp := rfl
@[simp] theorem Dev.updTk_pl (d : Dev) (f : Tasks → Tasks) : (d.updTk f).pl = d.pl := rfl
@[simp] theorem Dev.updTk_pipes (d : Dev) (f : Tasks → Tasks) : (d.updTk f).pipes = d.pipes := rfl
@[simp] theorem Dev.updTk_wm (d : Dev) (f : Tasks → Tasks) : (d.updTk f).wm = d.wm := rfl
@[simp] theorem Dev.updTk_bv (d : Dev) (f : Tasks → Tasks) : (d.updTk f).bv = d.bv := rfl
@[simp] theorem Dev.updTk_vb (d : Dev) (f : Tasks → Tasks) : (d.updTk f).vb = d.vb := rfl
@[simp] theorem Dev.updTk_spare (d : Dev) (f : Tasks → Tasks) : (d.updTk f).spare = d.spare := rfl
@[simp] theorem Dev.updTk_bl (d : Dev) (f : Tasks → Tasks) : (d.updTk f).bl = d.bl := rfl
@[simp] theorem Dev.updTk_safe (d : Dev) (f : Tasks → Tasks) : (d.updTk f).safe = d.safe := rfl
@[simp] theorem Dev.updTk_an (d : Dev) (f : Tasks → Tasks) : (d.updTk f).an = d.an := rfl
@[simp] theorem Dev.updTk_ana (d : Dev) (f : Tasks → Tasks) : (d.updTk f).ana = d.ana := rfl
@[simp] theorem Dev.updTk_sp (d : Dev) (f : Tasks → Tasks) : (d.updTk f).sp = d.sp := rfl
@[simp] theorem Dev.updTk_xip (d : Dev) (f : Tasks → Tasks) : (d.updTk f).xip = d.xip := rfl
@[simp] theorem Dev.updTk_sps (d : Dev) (f : Tasks → Tasks) : (d.updTk f).sps = d.sps := rfl
@[simp] theorem Dev.updTk_lt (d : Dev) (f : Tasks → Tasks) : (d.updTk f).lt = d.lt := rfl
@[simp] theorem Dev.updTk_tk (d : Dev) (f : Tasks → Tasks) : (d.updTk f).tk = f d.tk := rfl
@[simp] theorem Dev.updTk_fab (d : Dev) (f : Tasks → Tasks) : (d.updTk f).fab = d.fab := rfl
@[simp] theorem Dev.updTk_hx (d : Dev) (f : Tasks → Tasks) : (d.updTk f).hx = d.hx := rfl
@[simp] theorem Dev.updTk_slots (d : Dev) (f : Tasks → Tasks) : (d.updTk f).slots = d.slots := rfl
@[simp] theorem Dev.updTk_trim (d : Dev) (f : Tasks → Tasks) : (d.updTk f).trim = d.trim := rfl
@[simp] theorem Dev.updTk_tap (d : Dev) (f : Tasks → Tasks) : (d.updTk f).tap = d.tap := rfl

@[simp] theorem Dev.updFab_regs (d : Dev) (f : Fabric → Fabric) : (d.updFab f).regs = d.regs := rfl
@[simp] theorem Dev.updFab_free (d : Dev) (f : Fabric → Fabric) : (d.updFab f).free = d.free := rfl
@[simp] theorem Dev.updFab_ev (d : Dev) (f : Fabric → Fabric) : (d.updFab f).ev = d.ev := rfl
@[simp] theorem Dev.updFab_flt (d : Dev) (f : Fabric → Fabric) : (d.updFab f).flt = d.flt := rfl
@[simp] theorem Dev.updFab_sent (d : Dev) (f : Fabric → Fabric) : (d.updFab f).sent = d.sent := rfl
@[simp] theorem Dev.updFab_pw (d : Dev) (f : Fabric → Fabric) : (d.updFab f).pw = d.pw := rfl
@[simp] theorem Dev.updFab_web (d : Dev) (f : Fabric → Fabric) : (d.updFab f).web = d.web := rfl
@[simp] theorem Dev.updFab_hp (d : Dev) (f : Fabric → Fabric) : (d.updFab f).hp = d.hp := rfl
@[simp] theorem Dev.updFab_pl (d : Dev) (f : Fabric → Fabric) : (d.updFab f).pl = d.pl := rfl
@[simp] theorem Dev.updFab_pipes (d : Dev) (f : Fabric → Fabric) : (d.updFab f).pipes = d.pipes := rfl
@[simp] theorem Dev.updFab_wm (d : Dev) (f : Fabric → Fabric) : (d.updFab f).wm = d.wm := rfl
@[simp] theorem Dev.updFab_bv (d : Dev) (f : Fabric → Fabric) : (d.updFab f).bv = d.bv := rfl
@[simp] theorem Dev.updFab_vb (d : Dev) (f : Fabric → Fabric) : (d.updFab f).vb = d.vb := rfl
@[simp] theorem Dev.updFab_spare (d : Dev) (f : Fabric → Fabric) : (d.updFab f).spare = d.spare := rfl
@[simp] theorem Dev.updFab_bl (d : Dev) (f : Fabric → Fabric) : (d.updFab f).bl = d.bl := rfl
@[simp] theorem Dev.updFab_safe (d : Dev) (f : Fabric → Fabric) : (d.updFab f).safe = d.safe := rfl
@[simp] theorem Dev.updFab_an (d : Dev) (f : Fabric → Fabric) : (d.updFab f).an = d.an := rfl
@[simp] theorem Dev.updFab_ana (d : Dev) (f : Fabric → Fabric) : (d.updFab f).ana = d.ana := rfl
@[simp] theorem Dev.updFab_sp (d : Dev) (f : Fabric → Fabric) : (d.updFab f).sp = d.sp := rfl
@[simp] theorem Dev.updFab_xip (d : Dev) (f : Fabric → Fabric) : (d.updFab f).xip = d.xip := rfl
@[simp] theorem Dev.updFab_sps (d : Dev) (f : Fabric → Fabric) : (d.updFab f).sps = d.sps := rfl
@[simp] theorem Dev.updFab_lt (d : Dev) (f : Fabric → Fabric) : (d.updFab f).lt = d.lt := rfl
@[simp] theorem Dev.updFab_tk (d : Dev) (f : Fabric → Fabric) : (d.updFab f).tk = d.tk := rfl
@[simp] theorem Dev.updFab_fab (d : Dev) (f : Fabric → Fabric) : (d.updFab f).fab = f d.fab := rfl
@[simp] theorem Dev.updFab_hx (d : Dev) (f : Fabric → Fabric) : (d.updFab f).hx = d.hx := rfl
@[simp] theorem Dev.updFab_slots (d : Dev) (f : Fabric → Fabric) : (d.updFab f).slots = d.slots := rfl
@[simp] theorem Dev.updFab_trim (d : Dev) (f : Fabric → Fabric) : (d.updFab f).trim = d.trim := rfl
@[simp] theorem Dev.updFab_tap (d : Dev) (f : Fabric → Fabric) : (d.updFab f).tap = d.tap := rfl

@[simp] theorem Dev.updHx_regs (d : Dev) (f : HostUnit → HostUnit) : (d.updHx f).regs = d.regs := rfl
@[simp] theorem Dev.updHx_free (d : Dev) (f : HostUnit → HostUnit) : (d.updHx f).free = d.free := rfl
@[simp] theorem Dev.updHx_ev (d : Dev) (f : HostUnit → HostUnit) : (d.updHx f).ev = d.ev := rfl
@[simp] theorem Dev.updHx_flt (d : Dev) (f : HostUnit → HostUnit) : (d.updHx f).flt = d.flt := rfl
@[simp] theorem Dev.updHx_sent (d : Dev) (f : HostUnit → HostUnit) : (d.updHx f).sent = d.sent := rfl
@[simp] theorem Dev.updHx_pw (d : Dev) (f : HostUnit → HostUnit) : (d.updHx f).pw = d.pw := rfl
@[simp] theorem Dev.updHx_web (d : Dev) (f : HostUnit → HostUnit) : (d.updHx f).web = d.web := rfl
@[simp] theorem Dev.updHx_hp (d : Dev) (f : HostUnit → HostUnit) : (d.updHx f).hp = d.hp := rfl
@[simp] theorem Dev.updHx_pl (d : Dev) (f : HostUnit → HostUnit) : (d.updHx f).pl = d.pl := rfl
@[simp] theorem Dev.updHx_pipes (d : Dev) (f : HostUnit → HostUnit) : (d.updHx f).pipes = d.pipes := rfl
@[simp] theorem Dev.updHx_wm (d : Dev) (f : HostUnit → HostUnit) : (d.updHx f).wm = d.wm := rfl
@[simp] theorem Dev.updHx_bv (d : Dev) (f : HostUnit → HostUnit) : (d.updHx f).bv = d.bv := rfl
@[simp] theorem Dev.updHx_vb (d : Dev) (f : HostUnit → HostUnit) : (d.updHx f).vb = d.vb := rfl
@[simp] theorem Dev.updHx_spare (d : Dev) (f : HostUnit → HostUnit) : (d.updHx f).spare = d.spare := rfl
@[simp] theorem Dev.updHx_bl (d : Dev) (f : HostUnit → HostUnit) : (d.updHx f).bl = d.bl := rfl
@[simp] theorem Dev.updHx_safe (d : Dev) (f : HostUnit → HostUnit) : (d.updHx f).safe = d.safe := rfl
@[simp] theorem Dev.updHx_an (d : Dev) (f : HostUnit → HostUnit) : (d.updHx f).an = d.an := rfl
@[simp] theorem Dev.updHx_ana (d : Dev) (f : HostUnit → HostUnit) : (d.updHx f).ana = d.ana := rfl
@[simp] theorem Dev.updHx_sp (d : Dev) (f : HostUnit → HostUnit) : (d.updHx f).sp = d.sp := rfl
@[simp] theorem Dev.updHx_xip (d : Dev) (f : HostUnit → HostUnit) : (d.updHx f).xip = d.xip := rfl
@[simp] theorem Dev.updHx_sps (d : Dev) (f : HostUnit → HostUnit) : (d.updHx f).sps = d.sps := rfl
@[simp] theorem Dev.updHx_lt (d : Dev) (f : HostUnit → HostUnit) : (d.updHx f).lt = d.lt := rfl
@[simp] theorem Dev.updHx_tk (d : Dev) (f : HostUnit → HostUnit) : (d.updHx f).tk = d.tk := rfl
@[simp] theorem Dev.updHx_fab (d : Dev) (f : HostUnit → HostUnit) : (d.updHx f).fab = d.fab := rfl
@[simp] theorem Dev.updHx_hx (d : Dev) (f : HostUnit → HostUnit) : (d.updHx f).hx = f d.hx := rfl
@[simp] theorem Dev.updHx_slots (d : Dev) (f : HostUnit → HostUnit) : (d.updHx f).slots = d.slots := rfl
@[simp] theorem Dev.updHx_trim (d : Dev) (f : HostUnit → HostUnit) : (d.updHx f).trim = d.trim := rfl
@[simp] theorem Dev.updHx_tap (d : Dev) (f : HostUnit → HostUnit) : (d.updHx f).tap = d.tap := rfl

@[simp] theorem Dev.setSlot_regs (d : Dev) (a : Nat) (x : Slot) : (d.setSlot a x).regs = d.regs := rfl
@[simp] theorem Dev.setSlot_free (d : Dev) (a : Nat) (x : Slot) : (d.setSlot a x).free = d.free := rfl
@[simp] theorem Dev.setSlot_ev (d : Dev) (a : Nat) (x : Slot) : (d.setSlot a x).ev = d.ev := rfl
@[simp] theorem Dev.setSlot_flt (d : Dev) (a : Nat) (x : Slot) : (d.setSlot a x).flt = d.flt := rfl
@[simp] theorem Dev.setSlot_sent (d : Dev) (a : Nat) (x : Slot) : (d.setSlot a x).sent = d.sent := rfl
@[simp] theorem Dev.setSlot_pw (d : Dev) (a : Nat) (x : Slot) : (d.setSlot a x).pw = d.pw := rfl
@[simp] theorem Dev.setSlot_web (d : Dev) (a : Nat) (x : Slot) : (d.setSlot a x).web = d.web := rfl
@[simp] theorem Dev.setSlot_hp (d : Dev) (a : Nat) (x : Slot) : (d.setSlot a x).hp = d.hp := rfl
@[simp] theorem Dev.setSlot_pl (d : Dev) (a : Nat) (x : Slot) : (d.setSlot a x).pl = d.pl := rfl
@[simp] theorem Dev.setSlot_pipes (d : Dev) (a : Nat) (x : Slot) : (d.setSlot a x).pipes = d.pipes := rfl
@[simp] theorem Dev.setSlot_wm (d : Dev) (a : Nat) (x : Slot) : (d.setSlot a x).wm = d.wm := rfl
@[simp] theorem Dev.setSlot_bv (d : Dev) (a : Nat) (x : Slot) : (d.setSlot a x).bv = d.bv := rfl
@[simp] theorem Dev.setSlot_vb (d : Dev) (a : Nat) (x : Slot) : (d.setSlot a x).vb = d.vb := rfl
@[simp] theorem Dev.setSlot_spare (d : Dev) (a : Nat) (x : Slot) : (d.setSlot a x).spare = d.spare := rfl
@[simp] theorem Dev.setSlot_bl (d : Dev) (a : Nat) (x : Slot) : (d.setSlot a x).bl = d.bl := rfl
@[simp] theorem Dev.setSlot_safe (d : Dev) (a : Nat) (x : Slot) : (d.setSlot a x).safe = d.safe := rfl
@[simp] theorem Dev.setSlot_an (d : Dev) (a : Nat) (x : Slot) : (d.setSlot a x).an = d.an := rfl
@[simp] theorem Dev.setSlot_ana (d : Dev) (a : Nat) (x : Slot) : (d.setSlot a x).ana = d.ana := rfl
@[simp] theorem Dev.setSlot_sp (d : Dev) (a : Nat) (x : Slot) : (d.setSlot a x).sp = d.sp := rfl
@[simp] theorem Dev.setSlot_xip (d : Dev) (a : Nat) (x : Slot) : (d.setSlot a x).xip = d.xip := rfl
@[simp] theorem Dev.setSlot_sps (d : Dev) (a : Nat) (x : Slot) : (d.setSlot a x).sps = d.sps := rfl
@[simp] theorem Dev.setSlot_lt (d : Dev) (a : Nat) (x : Slot) : (d.setSlot a x).lt = d.lt := rfl
@[simp] theorem Dev.setSlot_tk (d : Dev) (a : Nat) (x : Slot) : (d.setSlot a x).tk = d.tk := rfl
@[simp] theorem Dev.setSlot_fab (d : Dev) (a : Nat) (x : Slot) : (d.setSlot a x).fab = d.fab := rfl
@[simp] theorem Dev.setSlot_hx (d : Dev) (a : Nat) (x : Slot) : (d.setSlot a x).hx = d.hx := rfl
@[simp] theorem Dev.setSlot_slots (d : Dev) (a : Nat) (x : Slot) : (d.setSlot a x).slots = SMap.set Slot.reset d.slots a x := rfl
@[simp] theorem Dev.setSlot_trim (d : Dev) (a : Nat) (x : Slot) : (d.setSlot a x).trim = d.trim := rfl
@[simp] theorem Dev.setSlot_tap (d : Dev) (a : Nat) (x : Slot) : (d.setSlot a x).tap = d.tap := rfl

end Sys2Proof.Machine
end

