-- ==== Sys2Proof/Laws/Commands.lean ====
section
/-! SUPPORT. Laws/Commands.lean: for each shared way in which a command acts on the state, everything it can do, said once. -/
namespace Sys2Proof.Machine

theorem State.act_law (s : State) (f : Now → Dev → Dev) :
    ∃ t, s.act f = .next t ∧ t.pending = s.pending ∧ t.clock = s.clock ∧ t.mem = s.mem ∧
      t.dev = (if s.running then f s.now s.dev else s.dev) := by
  refine ⟨_, rfl, ?_, ?_, ?_, ?_⟩ <;> split <;> rfl

theorem State.actMem_law (s : State) (f : Now → Mem → Dev → Dev) :
    ∃ t, s.actMem f = .next t ∧ t.pending = s.pending ∧ t.clock = s.clock ∧ t.mem = s.mem ∧
      t.dev = (if s.running then f s.now s.mem s.dev else s.dev) := by
  refine ⟨_, rfl, ?_, ?_, ?_, ?_⟩ <;> split <;> rfl

/-- A row that is due: the clock reaches its time. -/
theorem State.actDue_law (s : State) (due : Now → Dev → Option Nat) (f : Now → Dev → Dev) :
    ∃ t, s.actDue due f = .next t ∧ t.pending = s.pending ∧ t.mem = s.mem ∧
      (t = s ∨ ∃ x, due s.now s.dev = some x ∧ t.clock = s.clock.reach x ∧ t.dev = f (s.reach x).now s.dev) := by
  unfold State.actDue
  split
  · split
    · next x hx => exact ⟨_, rfl, rfl, rfl, .inr ⟨x, hx, rfl, rfl⟩⟩
    · exact ⟨_, rfl, rfl, rfl, .inl rfl⟩
  · exact ⟨_, rfl, rfl, rfl, .inl rfl⟩

theorem State.actWr_law (s : State) (req : Nat) (f : Now → Mem → Dev → Dev × List MemWrite) :
    ∃ t, s.actWr req f = .next t ∧ t.pending = s.pending ∧ t.clock = s.clock ∧
      (t = s ∨ t = s.write s.clock.dtime req (f s.now s.mem s.dev)) := by
  unfold State.actWr State.writeOrStall
  split
  · split
    · exact ⟨_, rfl, rfl, rfl, .inl rfl⟩
    · exact ⟨_, rfl, rfl, rfl, .inr rfl⟩
  · exact ⟨_, rfl, rfl, rfl, .inl rfl⟩

theorem State.actDueWr_law (s : State) (req : Nat) (due : Now → Dev → Option Nat) (f : Now → Mem → Dev → Dev × List MemWrite) :
    ∃ t, s.actDueWr req due f = .next t ∧ t.pending = s.pending ∧
      (t = s ∨ ∃ x, due s.now s.dev = some x ∧ t = (s.reach x).writeOrStall (s.reach x).clock.dtime req (f (s.reach x).now s.mem s.dev)) := by
  unfold State.actDueWr
  split
  · split
    · next x hx => exact ⟨_, rfl, by unfold State.writeOrStall; split <;> rfl, .inr ⟨x, hx, rfl⟩⟩
    · exact ⟨_, rfl, rfl, .inl rfl⟩
  · exact ⟨_, rfl, rfl, .inl rfl⟩

theorem State.actAll_law (s : State) (f : State → State) :
    ∃ t, s.actAll f = .next t ∧ (t = s ∨ t = f s) := by
  unfold State.actAll; split
  · exact ⟨_, rfl, .inr rfl⟩
  · exact ⟨_, rfl, .inl rfl⟩

/-- A host's request waits in a warm reset, and only then. -/
theorem State.fromHost_law (s : State) (i : Instr) (r : Result) :
    s.fromHost i r = r ∨ ((∃ c, s.dev.pw.phase = .warm c) ∧
      s.fromHost i r = .next { s with dev := { s.dev with hx := { s.dev.hx with waiting := s.dev.hx.waiting ++ [i] } } }) := by
  unfold State.fromHost
  split
  · next c hc => exact .inr ⟨⟨c, hc⟩, rfl⟩
  · exact .inl rfl
@[simp] theorem State.fromHost_running (s : State) (i : Instr) (r : Result) (h : s.running = true) : s.fromHost i r = r := by
  unfold State.running at h; unfold State.fromHost
  simp [of_decide_eq_true h]
@[simp] theorem State.fromSender_running (s : State) (who : Reader) (i : Instr) (r : Result) (h : s.running = true) : s.fromSender who i r = r := by
  cases who <;> simp [State.fromSender, h]

/-- A requester's writes keep the memories canonical. -/
theorem State.write_wf (s : State) (t req : Nat) (r : Dev × List MemWrite) (h : s.mem.wf) : (s.write t req r).mem.wf := Mem.wf_writes _ h

/-- A command's state, when it runs. -/
@[simp] theorem State.act_running (s : State) (f : Now → Dev → Dev) (h : s.running = true) :
    s.act f = .next { s with dev := f s.now s.dev } := by simp [State.act, h]
@[simp] theorem State.actMem_running (s : State) (f : Now → Mem → Dev → Dev) (h : s.running = true) :
    s.actMem f = .next { s with dev := f s.now s.mem s.dev } := by simp [State.actMem, h]
@[simp] theorem State.actWr_running (s : State) (req : Nat) (f : Now → Mem → Dev → Dev × List MemWrite) (h : s.running = true) :
    s.actWr req f = .next (s.writeOrStall s.clock.dtime req (f s.now s.mem s.dev)) := by simp [State.actWr, h]
theorem State.actWr_free (s : State) (req : Nat) (f : Now → Mem → Dev → Dev × List MemWrite) (h : s.running = true) (hf : s.dev.fab.held = []) :
    s.actWr req f = .next (s.write s.clock.dtime req (f s.now s.mem s.dev)) := by simp [State.actWr, h, hf]
@[simp] theorem State.actAll_running (s : State) (f : State → State) (h : s.running = true) : s.actAll f = .next (f s) := by
  simp [State.actAll, h]
theorem State.actDue_running (s : State) (due : Now → Dev → Option Nat) (f : Now → Dev → Dev) (x : Nat) (h : s.running = true)
    (hx : due s.now s.dev = some x) : s.actDue due f = .next { s.reach x with dev := f (s.reach x).now s.dev } := by
  simp [State.actDue, h, hx]
theorem State.actDueWr_running (s : State) (req : Nat) (due : Now → Dev → Option Nat) (f : Now → Mem → Dev → Dev × List MemWrite) (x : Nat)
    (h : s.running = true) (hx : due s.now s.dev = some x) :
    s.actDueWr req due f = .next ((s.reach x).writeOrStall (s.reach x).clock.dtime req (f (s.reach x).now s.mem s.dev)) := by
  simp [State.actDueWr, h, hx]

end Sys2Proof.Machine
end

