-- ==== Sys2Proof/Laws/Ops.lean ====
section
/-! SUPPORT. Laws/Ops.lean: for each shared operation of Machine/Ops.lean, what it leaves of every part of the device, and what it does to the
part it acts on. -/
namespace Sys2Proof.Machine

@[simp] theorem Dev.wrN_free (d : Dev) (a v : Nat) : (d.wrN a v).free = d.free := rfl
@[simp] theorem Dev.wrN_ev (d : Dev) (a v : Nat) : (d.wrN a v).ev = d.ev := rfl
@[simp] theorem Dev.wrN_flt (d : Dev) (a v : Nat) : (d.wrN a v).flt = d.flt := rfl
@[simp] theorem Dev.wrN_sent (d : Dev) (a v : Nat) : (d.wrN a v).sent = d.sent := rfl
@[simp] theorem Dev.wrN_pw (d : Dev) (a v : Nat) : (d.wrN a v).pw = d.pw := rfl
@[simp] theorem Dev.wrN_web (d : Dev) (a v : Nat) : (d.wrN a v).web = d.web := rfl
@[simp] theorem Dev.wrN_hp (d : Dev) (a v : Nat) : (d.wrN a v).hp = d.hp := rfl
@[simp] theorem Dev.wrN_pl (d : Dev) (a v : Nat) : (d.wrN a v).pl = d.pl := rfl
@[simp] theorem Dev.wrN_pipes (d : Dev) (a v : Nat) : (d.wrN a v).pipes = d.pipes := rfl
@[simp] theorem Dev.wrN_wm (d : Dev) (a v : Nat) : (d.wrN a v).wm = d.wm := rfl
@[simp] theorem Dev.wrN_bv (d : Dev) (a v : Nat) : (d.wrN a v).bv = d.bv := rfl
@[simp] theorem Dev.wrN_vb (d : Dev) (a v : Nat) : (d.wrN a v).vb = d.vb := rfl
@[simp] theorem Dev.wrN_spare (d : Dev) (a v : Nat) : (d.wrN a v).spare = d.spare := rfl
@[simp] theorem Dev.wrN_bl (d : Dev) (a v : Nat) : (d.wrN a v).bl = d.bl := rfl
@[simp] theorem Dev.wrN_safe (d : Dev) (a v : Nat) : (d.wrN a v).safe = d.safe := rfl
@[simp] theorem Dev.wrN_an (d : Dev) (a v : Nat) : (d.wrN a v).an = d.an := rfl
@[simp] theorem Dev.wrN_ana (d : Dev) (a v : Nat) : (d.wrN a v).ana = d.ana := rfl
@[simp] theorem Dev.wrN_sp (d : Dev) (a v : Nat) : (d.wrN a v).sp = d.sp := rfl
@[simp] theorem Dev.wrN_xip (d : Dev) (a v : Nat) : (d.wrN a v).xip = d.xip := rfl
@[simp] theorem Dev.wrN_sps (d : Dev) (a v : Nat) : (d.wrN a v).sps = d.sps := rfl
@[simp] theorem Dev.wrN_lt (d : Dev) (a v : Nat) : (d.wrN a v).lt = d.lt := rfl
@[simp] theorem Dev.wrN_tk (d : Dev) (a v : Nat) : (d.wrN a v).tk = d.tk := rfl
@[simp] theorem Dev.wrN_fab (d : Dev) (a v : Nat) : (d.wrN a v).fab = d.fab := rfl
@[simp] theorem Dev.wrN_hx (d : Dev) (a v : Nat) : (d.wrN a v).hx = d.hx := rfl
@[simp] theorem Dev.wrN_slots (d : Dev) (a v : Nat) : (d.wrN a v).slots = d.slots := rfl
@[simp] theorem Dev.wrN_trim (d : Dev) (a v : Nat) : (d.wrN a v).trim = d.trim := rfl
@[simp] theorem Dev.wrN_tap (d : Dev) (a v : Nat) : (d.wrN a v).tap = d.tap := rfl

@[simp] theorem Dev.wrI_free (d : Dev) (a : Nat) (v : Int) : (d.wrI a v).free = d.free := rfl
@[simp] theorem Dev.wrI_ev (d : Dev) (a : Nat) (v : Int) : (d.wrI a v).ev = d.ev := rfl
@[simp] theorem Dev.wrI_flt (d : Dev) (a : Nat) (v : Int) : (d.wrI a v).flt = d.flt := rfl
@[simp] theorem Dev.wrI_sent (d : Dev) (a : Nat) (v : Int) : (d.wrI a v).sent = d.sent := rfl
@[simp] theorem Dev.wrI_pw (d : Dev) (a : Nat) (v : Int) : (d.wrI a v).pw = d.pw := rfl
@[simp] theorem Dev.wrI_web (d : Dev) (a : Nat) (v : Int) : (d.wrI a v).web = d.web := rfl
@[simp] theorem Dev.wrI_hp (d : Dev) (a : Nat) (v : Int) : (d.wrI a v).hp = d.hp := rfl
@[simp] theorem Dev.wrI_pl (d : Dev) (a : Nat) (v : Int) : (d.wrI a v).pl = d.pl := rfl
@[simp] theorem Dev.wrI_pipes (d : Dev) (a : Nat) (v : Int) : (d.wrI a v).pipes = d.pipes := rfl
@[simp] theorem Dev.wrI_wm (d : Dev) (a : Nat) (v : Int) : (d.wrI a v).wm = d.wm := rfl
@[simp] theorem Dev.wrI_bv (d : Dev) (a : Nat) (v : Int) : (d.wrI a v).bv = d.bv := rfl
@[simp] theorem Dev.wrI_vb (d : Dev) (a : Nat) (v : Int) : (d.wrI a v).vb = d.vb := rfl
@[simp] theorem Dev.wrI_spare (d : Dev) (a : Nat) (v : Int) : (d.wrI a v).spare = d.spare := rfl
@[simp] theorem Dev.wrI_bl (d : Dev) (a : Nat) (v : Int) : (d.wrI a v).bl = d.bl := rfl
@[simp] theorem Dev.wrI_safe (d : Dev) (a : Nat) (v : Int) : (d.wrI a v).safe = d.safe := rfl
@[simp] theorem Dev.wrI_an (d : Dev) (a : Nat) (v : Int) : (d.wrI a v).an = d.an := rfl
@[simp] theorem Dev.wrI_ana (d : Dev) (a : Nat) (v : Int) : (d.wrI a v).ana = d.ana := rfl
@[simp] theorem Dev.wrI_sp (d : Dev) (a : Nat) (v : Int) : (d.wrI a v).sp = d.sp := rfl
@[simp] theorem Dev.wrI_xip (d : Dev) (a : Nat) (v : Int) : (d.wrI a v).xip = d.xip := rfl
@[simp] theorem Dev.wrI_sps (d : Dev) (a : Nat) (v : Int) : (d.wrI a v).sps = d.sps := rfl
@[simp] theorem Dev.wrI_lt (d : Dev) (a : Nat) (v : Int) : (d.wrI a v).lt = d.lt := rfl
@[simp] theorem Dev.wrI_tk (d : Dev) (a : Nat) (v : Int) : (d.wrI a v).tk = d.tk := rfl
@[simp] theorem Dev.wrI_fab (d : Dev) (a : Nat) (v : Int) : (d.wrI a v).fab = d.fab := rfl
@[simp] theorem Dev.wrI_hx (d : Dev) (a : Nat) (v : Int) : (d.wrI a v).hx = d.hx := rfl
@[simp] theorem Dev.wrI_slots (d : Dev) (a : Nat) (v : Int) : (d.wrI a v).slots = d.slots := rfl
@[simp] theorem Dev.wrI_trim (d : Dev) (a : Nat) (v : Int) : (d.wrI a v).trim = d.trim := rfl
@[simp] theorem Dev.wrI_tap (d : Dev) (a : Nat) (v : Int) : (d.wrI a v).tap = d.tap := rfl

@[simp] theorem Dev.wr64_free (d : Dev) (a v : Nat) : (d.wr64 a v).free = d.free := rfl
@[simp] theorem Dev.wr64_ev (d : Dev) (a v : Nat) : (d.wr64 a v).ev = d.ev := rfl
@[simp] theorem Dev.wr64_flt (d : Dev) (a v : Nat) : (d.wr64 a v).flt = d.flt := rfl
@[simp] theorem Dev.wr64_sent (d : Dev) (a v : Nat) : (d.wr64 a v).sent = d.sent := rfl
@[simp] theorem Dev.wr64_pw (d : Dev) (a v : Nat) : (d.wr64 a v).pw = d.pw := rfl
@[simp] theorem Dev.wr64_web (d : Dev) (a v : Nat) : (d.wr64 a v).web = d.web := rfl
@[simp] theorem Dev.wr64_hp (d : Dev) (a v : Nat) : (d.wr64 a v).hp = d.hp := rfl
@[simp] theorem Dev.wr64_pl (d : Dev) (a v : Nat) : (d.wr64 a v).pl = d.pl := rfl
@[simp] theorem Dev.wr64_pipes (d : Dev) (a v : Nat) : (d.wr64 a v).pipes = d.pipes := rfl
@[simp] theorem Dev.wr64_wm (d : Dev) (a v : Nat) : (d.wr64 a v).wm = d.wm := rfl
@[simp] theorem Dev.wr64_bv (d : Dev) (a v : Nat) : (d.wr64 a v).bv = d.bv := rfl
@[simp] theorem Dev.wr64_vb (d : Dev) (a v : Nat) : (d.wr64 a v).vb = d.vb := rfl
@[simp] theorem Dev.wr64_spare (d : Dev) (a v : Nat) : (d.wr64 a v).spare = d.spare := rfl
@[simp] theorem Dev.wr64_bl (d : Dev) (a v : Nat) : (d.wr64 a v).bl = d.bl := rfl
@[simp] theorem Dev.wr64_safe (d : Dev) (a v : Nat) : (d.wr64 a v).safe = d.safe := rfl
@[simp] theorem Dev.wr64_an (d : Dev) (a v : Nat) : (d.wr64 a v).an = d.an := rfl
@[simp] theorem Dev.wr64_ana (d : Dev) (a v : Nat) : (d.wr64 a v).ana = d.ana := rfl
@[simp] theorem Dev.wr64_sp (d : Dev) (a v : Nat) : (d.wr64 a v).sp = d.sp := rfl
@[simp] theorem Dev.wr64_xip (d : Dev) (a v : Nat) : (d.wr64 a v).xip = d.xip := rfl
@[simp] theorem Dev.wr64_sps (d : Dev) (a v : Nat) : (d.wr64 a v).sps = d.sps := rfl
@[simp] theorem Dev.wr64_lt (d : Dev) (a v : Nat) : (d.wr64 a v).lt = d.lt := rfl
@[simp] theorem Dev.wr64_tk (d : Dev) (a v : Nat) : (d.wr64 a v).tk = d.tk := rfl
@[simp] theorem Dev.wr64_fab (d : Dev) (a v : Nat) : (d.wr64 a v).fab = d.fab := rfl
@[simp] theorem Dev.wr64_hx (d : Dev) (a v : Nat) : (d.wr64 a v).hx = d.hx := rfl
@[simp] theorem Dev.wr64_slots (d : Dev) (a v : Nat) : (d.wr64 a v).slots = d.slots := rfl
@[simp] theorem Dev.wr64_trim (d : Dev) (a v : Nat) : (d.wr64 a v).trim = d.trim := rfl
@[simp] theorem Dev.wr64_tap (d : Dev) (a v : Nat) : (d.wr64 a v).tap = d.tap := rfl

@[simp] theorem Dev.setBits_free (d : Dev) (a m : Nat) : (d.setBits a m).free = d.free := rfl
@[simp] theorem Dev.setBits_ev (d : Dev) (a m : Nat) : (d.setBits a m).ev = d.ev := rfl
@[simp] theorem Dev.setBits_flt (d : Dev) (a m : Nat) : (d.setBits a m).flt = d.flt := rfl
@[simp] theorem Dev.setBits_sent (d : Dev) (a m : Nat) : (d.setBits a m).sent = d.sent := rfl
@[simp] theorem Dev.setBits_pw (d : Dev) (a m : Nat) : (d.setBits a m).pw = d.pw := rfl
@[simp] theorem Dev.setBits_web (d : Dev) (a m : Nat) : (d.setBits a m).web = d.web := rfl
@[simp] theorem Dev.setBits_hp (d : Dev) (a m : Nat) : (d.setBits a m).hp = d.hp := rfl
@[simp] theorem Dev.setBits_pl (d : Dev) (a m : Nat) : (d.setBits a m).pl = d.pl := rfl
@[simp] theorem Dev.setBits_pipes (d : Dev) (a m : Nat) : (d.setBits a m).pipes = d.pipes := rfl
@[simp] theorem Dev.setBits_wm (d : Dev) (a m : Nat) : (d.setBits a m).wm = d.wm := rfl
@[simp] theorem Dev.setBits_bv (d : Dev) (a m : Nat) : (d.setBits a m).bv = d.bv := rfl
@[simp] theorem Dev.setBits_vb (d : Dev) (a m : Nat) : (d.setBits a m).vb = d.vb := rfl
@[simp] theorem Dev.setBits_spare (d : Dev) (a m : Nat) : (d.setBits a m).spare = d.spare := rfl
@[simp] theorem Dev.setBits_bl (d : Dev) (a m : Nat) : (d.setBits a m).bl = d.bl := rfl
@[simp] theorem Dev.setBits_safe (d : Dev) (a m : Nat) : (d.setBits a m).safe = d.safe := rfl
@[simp] theorem Dev.setBits_an (d : Dev) (a m : Nat) : (d.setBits a m).an = d.an := rfl
@[simp] theorem Dev.setBits_ana (d : Dev) (a m : Nat) : (d.setBits a m).ana = d.ana := rfl
@[simp] theorem Dev.setBits_sp (d : Dev) (a m : Nat) : (d.setBits a m).sp = d.sp := rfl
@[simp] theorem Dev.setBits_xip (d : Dev) (a m : Nat) : (d.setBits a m).xip = d.xip := rfl
@[simp] theorem Dev.setBits_sps (d : Dev) (a m : Nat) : (d.setBits a m).sps = d.sps := rfl
@[simp] theorem Dev.setBits_lt (d : Dev) (a m : Nat) : (d.setBits a m).lt = d.lt := rfl
@[simp] theorem Dev.setBits_tk (d : Dev) (a m : Nat) : (d.setBits a m).tk = d.tk := rfl
@[simp] theorem Dev.setBits_fab (d : Dev) (a m : Nat) : (d.setBits a m).fab = d.fab := rfl
@[simp] theorem Dev.setBits_hx (d : Dev) (a m : Nat) : (d.setBits a m).hx = d.hx := rfl
@[simp] theorem Dev.setBits_slots (d : Dev) (a m : Nat) : (d.setBits a m).slots = d.slots := rfl
@[simp] theorem Dev.setBits_trim (d : Dev) (a m : Nat) : (d.setBits a m).trim = d.trim := rfl
@[simp] theorem Dev.setBits_tap (d : Dev) (a m : Nat) : (d.setBits a m).tap = d.tap := rfl

@[simp] theorem Dev.flag_free (d : Dev) (a i : Nat) : (d.flag a i).free = d.free := rfl
@[simp] theorem Dev.flag_ev (d : Dev) (a i : Nat) : (d.flag a i).ev = d.ev := rfl
@[simp] theorem Dev.flag_flt (d : Dev) (a i : Nat) : (d.flag a i).flt = d.flt := rfl
@[simp] theorem Dev.flag_sent (d : Dev) (a i : Nat) : (d.flag a i).sent = d.sent := rfl
@[simp] theorem Dev.flag_pw (d : Dev) (a i : Nat) : (d.flag a i).pw = d.pw := rfl
@[simp] theorem Dev.flag_web (d : Dev) (a i : Nat) : (d.flag a i).web = d.web := rfl
@[simp] theorem Dev.flag_hp (d : Dev) (a i : Nat) : (d.flag a i).hp = d.hp := rfl
@[simp] theorem Dev.flag_pl (d : Dev) (a i : Nat) : (d.flag a i).pl = d.pl := rfl
@[simp] theorem Dev.flag_pipes (d : Dev) (a i : Nat) : (d.flag a i).pipes = d.pipes := rfl
@[simp] theorem Dev.flag_wm (d : Dev) (a i : Nat) : (d.flag a i).wm = d.wm := rfl
@[simp] theorem Dev.flag_bv (d : Dev) (a i : Nat) : (d.flag a i).bv = d.bv := rfl
@[simp] theorem Dev.flag_vb (d : Dev) (a i : Nat) : (d.flag a i).vb = d.vb := rfl
@[simp] theorem Dev.flag_spare (d : Dev) (a i : Nat) : (d.flag a i).spare = d.spare := rfl
@[simp] theorem Dev.flag_bl (d : Dev) (a i : Nat) : (d.flag a i).bl = d.bl := rfl
@[simp] theorem Dev.flag_safe (d : Dev) (a i : Nat) : (d.flag a i).safe = d.safe := rfl
@[simp] theorem Dev.flag_an (d : Dev) (a i : Nat) : (d.flag a i).an = d.an := rfl
@[simp] theorem Dev.flag_ana (d : Dev) (a i : Nat) : (d.flag a i).ana = d.ana := rfl
@[simp] theorem Dev.flag_sp (d : Dev) (a i : Nat) : (d.flag a i).sp = d.sp := rfl
@[simp] theorem Dev.flag_xip (d : Dev) (a i : Nat) : (d.flag a i).xip = d.xip := rfl
@[simp] theorem Dev.flag_sps (d : Dev) (a i : Nat) : (d.flag a i).sps = d.sps := rfl
@[simp] theorem Dev.flag_lt (d : Dev) (a i : Nat) : (d.flag a i).lt = d.lt := rfl
@[simp] theorem Dev.flag_tk (d : Dev) (a i : Nat) : (d.flag a i).tk = d.tk := rfl
@[simp] theorem Dev.flag_fab (d : Dev) (a i : Nat) : (d.flag a i).fab = d.fab := rfl
@[simp] theorem Dev.flag_hx (d : Dev) (a i : Nat) : (d.flag a i).hx = d.hx := rfl
@[simp] theorem Dev.flag_slots (d : Dev) (a i : Nat) : (d.flag a i).slots = d.slots := rfl
@[simp] theorem Dev.flag_trim (d : Dev) (a i : Nat) : (d.flag a i).trim = d.trim := rfl
@[simp] theorem Dev.flag_tap (d : Dev) (a i : Nat) : (d.flag a i).tap = d.tap := rfl

@[simp] theorem Dev.clrBits_free (d : Dev) (a m : Nat) : (d.clrBits a m).free = d.free := rfl
@[simp] theorem Dev.clrBits_ev (d : Dev) (a m : Nat) : (d.clrBits a m).ev = d.ev := rfl
@[simp] theorem Dev.clrBits_flt (d : Dev) (a m : Nat) : (d.clrBits a m).flt = d.flt := rfl
@[simp] theorem Dev.clrBits_sent (d : Dev) (a m : Nat) : (d.clrBits a m).sent = d.sent := rfl
@[simp] theorem Dev.clrBits_pw (d : Dev) (a m : Nat) : (d.clrBits a m).pw = d.pw := rfl
@[simp] theorem Dev.clrBits_web (d : Dev) (a m : Nat) : (d.clrBits a m).web = d.web := rfl
@[simp] theorem Dev.clrBits_hp (d : Dev) (a m : Nat) : (d.clrBits a m).hp = d.hp := rfl
@[simp] theorem Dev.clrBits_pl (d : Dev) (a m : Nat) : (d.clrBits a m).pl = d.pl := rfl
@[simp] theorem Dev.clrBits_pipes (d : Dev) (a m : Nat) : (d.clrBits a m).pipes = d.pipes := rfl
@[simp] theorem Dev.clrBits_wm (d : Dev) (a m : Nat) : (d.clrBits a m).wm = d.wm := rfl
@[simp] theorem Dev.clrBits_bv (d : Dev) (a m : Nat) : (d.clrBits a m).bv = d.bv := rfl
@[simp] theorem Dev.clrBits_vb (d : Dev) (a m : Nat) : (d.clrBits a m).vb = d.vb := rfl
@[simp] theorem Dev.clrBits_spare (d : Dev) (a m : Nat) : (d.clrBits a m).spare = d.spare := rfl
@[simp] theorem Dev.clrBits_bl (d : Dev) (a m : Nat) : (d.clrBits a m).bl = d.bl := rfl
@[simp] theorem Dev.clrBits_safe (d : Dev) (a m : Nat) : (d.clrBits a m).safe = d.safe := rfl
@[simp] theorem Dev.clrBits_an (d : Dev) (a m : Nat) : (d.clrBits a m).an = d.an := rfl
@[simp] theorem Dev.clrBits_ana (d : Dev) (a m : Nat) : (d.clrBits a m).ana = d.ana := rfl
@[simp] theorem Dev.clrBits_sp (d : Dev) (a m : Nat) : (d.clrBits a m).sp = d.sp := rfl
@[simp] theorem Dev.clrBits_xip (d : Dev) (a m : Nat) : (d.clrBits a m).xip = d.xip := rfl
@[simp] theorem Dev.clrBits_sps (d : Dev) (a m : Nat) : (d.clrBits a m).sps = d.sps := rfl
@[simp] theorem Dev.clrBits_lt (d : Dev) (a m : Nat) : (d.clrBits a m).lt = d.lt := rfl
@[simp] theorem Dev.clrBits_tk (d : Dev) (a m : Nat) : (d.clrBits a m).tk = d.tk := rfl
@[simp] theorem Dev.clrBits_fab (d : Dev) (a m : Nat) : (d.clrBits a m).fab = d.fab := rfl
@[simp] theorem Dev.clrBits_hx (d : Dev) (a m : Nat) : (d.clrBits a m).hx = d.hx := rfl
@[simp] theorem Dev.clrBits_slots (d : Dev) (a m : Nat) : (d.clrBits a m).slots = d.slots := rfl
@[simp] theorem Dev.clrBits_trim (d : Dev) (a m : Nat) : (d.clrBits a m).trim = d.trim := rfl
@[simp] theorem Dev.clrBits_tap (d : Dev) (a m : Nat) : (d.clrBits a m).tap = d.tap := rfl

@[simp] theorem Dev.putFld_free (d : Dev) (a hi lo v : Nat) : (d.putFld a hi lo v).free = d.free := rfl
@[simp] theorem Dev.putFld_ev (d : Dev) (a hi lo v : Nat) : (d.putFld a hi lo v).ev = d.ev := rfl
@[simp] theorem Dev.putFld_flt (d : Dev) (a hi lo v : Nat) : (d.putFld a hi lo v).flt = d.flt := rfl
@[simp] theorem Dev.putFld_sent (d : Dev) (a hi lo v : Nat) : (d.putFld a hi lo v).sent = d.sent := rfl
@[simp] theorem Dev.putFld_pw (d : Dev) (a hi lo v : Nat) : (d.putFld a hi lo v).pw = d.pw := rfl
@[simp] theorem Dev.putFld_web (d : Dev) (a hi lo v : Nat) : (d.putFld a hi lo v).web = d.web := rfl
@[simp] theorem Dev.putFld_hp (d : Dev) (a hi lo v : Nat) : (d.putFld a hi lo v).hp = d.hp := rfl
@[simp] theorem Dev.putFld_pl (d : Dev) (a hi lo v : Nat) : (d.putFld a hi lo v).pl = d.pl := rfl
@[simp] theorem Dev.putFld_pipes (d : Dev) (a hi lo v : Nat) : (d.putFld a hi lo v).pipes = d.pipes := rfl
@[simp] theorem Dev.putFld_wm (d : Dev) (a hi lo v : Nat) : (d.putFld a hi lo v).wm = d.wm := rfl
@[simp] theorem Dev.putFld_bv (d : Dev) (a hi lo v : Nat) : (d.putFld a hi lo v).bv = d.bv := rfl
@[simp] theorem Dev.putFld_vb (d : Dev) (a hi lo v : Nat) : (d.putFld a hi lo v).vb = d.vb := rfl
@[simp] theorem Dev.putFld_spare (d : Dev) (a hi lo v : Nat) : (d.putFld a hi lo v).spare = d.spare := rfl
@[simp] theorem Dev.putFld_bl (d : Dev) (a hi lo v : Nat) : (d.putFld a hi lo v).bl = d.bl := rfl
@[simp] theorem Dev.putFld_safe (d : Dev) (a hi lo v : Nat) : (d.putFld a hi lo v).safe = d.safe := rfl
@[simp] theorem Dev.putFld_an (d : Dev) (a hi lo v : Nat) : (d.putFld a hi lo v).an = d.an := rfl
@[simp] theorem Dev.putFld_ana (d : Dev) (a hi lo v : Nat) : (d.putFld a hi lo v).ana = d.ana := rfl
@[simp] theorem Dev.putFld_sp (d : Dev) (a hi lo v : Nat) : (d.putFld a hi lo v).sp = d.sp := rfl
@[simp] theorem Dev.putFld_xip (d : Dev) (a hi lo v : Nat) : (d.putFld a hi lo v).xip = d.xip := rfl
@[simp] theorem Dev.putFld_sps (d : Dev) (a hi lo v : Nat) : (d.putFld a hi lo v).sps = d.sps := rfl
@[simp] theorem Dev.putFld_lt (d : Dev) (a hi lo v : Nat) : (d.putFld a hi lo v).lt = d.lt := rfl
@[simp] theorem Dev.putFld_tk (d : Dev) (a hi lo v : Nat) : (d.putFld a hi lo v).tk = d.tk := rfl
@[simp] theorem Dev.putFld_fab (d : Dev) (a hi lo v : Nat) : (d.putFld a hi lo v).fab = d.fab := rfl
@[simp] theorem Dev.putFld_hx (d : Dev) (a hi lo v : Nat) : (d.putFld a hi lo v).hx = d.hx := rfl
@[simp] theorem Dev.putFld_slots (d : Dev) (a hi lo v : Nat) : (d.putFld a hi lo v).slots = d.slots := rfl
@[simp] theorem Dev.putFld_trim (d : Dev) (a hi lo v : Nat) : (d.putFld a hi lo v).trim = d.trim := rfl
@[simp] theorem Dev.putFld_tap (d : Dev) (a hi lo v : Nat) : (d.putFld a hi lo v).tap = d.tap := rfl

@[simp] theorem Dev.bumpSat_free (d : Dev) (a n : Nat) : (d.bumpSat a n).free = d.free := rfl
@[simp] theorem Dev.bumpSat_ev (d : Dev) (a n : Nat) : (d.bumpSat a n).ev = d.ev := rfl
@[simp] theorem Dev.bumpSat_flt (d : Dev) (a n : Nat) : (d.bumpSat a n).flt = d.flt := rfl
@[simp] theorem Dev.bumpSat_sent (d : Dev) (a n : Nat) : (d.bumpSat a n).sent = d.sent := rfl
@[simp] theorem Dev.bumpSat_pw (d : Dev) (a n : Nat) : (d.bumpSat a n).pw = d.pw := rfl
@[simp] theorem Dev.bumpSat_web (d : Dev) (a n : Nat) : (d.bumpSat a n).web = d.web := rfl
@[simp] theorem Dev.bumpSat_hp (d : Dev) (a n : Nat) : (d.bumpSat a n).hp = d.hp := rfl
@[simp] theorem Dev.bumpSat_pl (d : Dev) (a n : Nat) : (d.bumpSat a n).pl = d.pl := rfl
@[simp] theorem Dev.bumpSat_pipes (d : Dev) (a n : Nat) : (d.bumpSat a n).pipes = d.pipes := rfl
@[simp] theorem Dev.bumpSat_wm (d : Dev) (a n : Nat) : (d.bumpSat a n).wm = d.wm := rfl
@[simp] theorem Dev.bumpSat_bv (d : Dev) (a n : Nat) : (d.bumpSat a n).bv = d.bv := rfl
@[simp] theorem Dev.bumpSat_vb (d : Dev) (a n : Nat) : (d.bumpSat a n).vb = d.vb := rfl
@[simp] theorem Dev.bumpSat_spare (d : Dev) (a n : Nat) : (d.bumpSat a n).spare = d.spare := rfl
@[simp] theorem Dev.bumpSat_bl (d : Dev) (a n : Nat) : (d.bumpSat a n).bl = d.bl := rfl
@[simp] theorem Dev.bumpSat_safe (d : Dev) (a n : Nat) : (d.bumpSat a n).safe = d.safe := rfl
@[simp] theorem Dev.bumpSat_an (d : Dev) (a n : Nat) : (d.bumpSat a n).an = d.an := rfl
@[simp] theorem Dev.bumpSat_ana (d : Dev) (a n : Nat) : (d.bumpSat a n).ana = d.ana := rfl
@[simp] theorem Dev.bumpSat_sp (d : Dev) (a n : Nat) : (d.bumpSat a n).sp = d.sp := rfl
@[simp] theorem Dev.bumpSat_xip (d : Dev) (a n : Nat) : (d.bumpSat a n).xip = d.xip := rfl
@[simp] theorem Dev.bumpSat_sps (d : Dev) (a n : Nat) : (d.bumpSat a n).sps = d.sps := rfl
@[simp] theorem Dev.bumpSat_lt (d : Dev) (a n : Nat) : (d.bumpSat a n).lt = d.lt := rfl
@[simp] theorem Dev.bumpSat_tk (d : Dev) (a n : Nat) : (d.bumpSat a n).tk = d.tk := rfl
@[simp] theorem Dev.bumpSat_fab (d : Dev) (a n : Nat) : (d.bumpSat a n).fab = d.fab := rfl
@[simp] theorem Dev.bumpSat_hx (d : Dev) (a n : Nat) : (d.bumpSat a n).hx = d.hx := rfl
@[simp] theorem Dev.bumpSat_slots (d : Dev) (a n : Nat) : (d.bumpSat a n).slots = d.slots := rfl
@[simp] theorem Dev.bumpSat_trim (d : Dev) (a n : Nat) : (d.bumpSat a n).trim = d.trim := rfl
@[simp] theorem Dev.bumpSat_tap (d : Dev) (a n : Nat) : (d.bumpSat a n).tap = d.tap := rfl

@[simp] theorem Dev.bumpFld_free (d : Dev) (a hi lo : Nat) : (d.bumpFld a hi lo).free = d.free := rfl
@[simp] theorem Dev.bumpFld_ev (d : Dev) (a hi lo : Nat) : (d.bumpFld a hi lo).ev = d.ev := rfl
@[simp] theorem Dev.bumpFld_flt (d : Dev) (a hi lo : Nat) : (d.bumpFld a hi lo).flt = d.flt := rfl
@[simp] theorem Dev.bumpFld_sent (d : Dev) (a hi lo : Nat) : (d.bumpFld a hi lo).sent = d.sent := rfl
@[simp] theorem Dev.bumpFld_pw (d : Dev) (a hi lo : Nat) : (d.bumpFld a hi lo).pw = d.pw := rfl
@[simp] theorem Dev.bumpFld_web (d : Dev) (a hi lo : Nat) : (d.bumpFld a hi lo).web = d.web := rfl
@[simp] theorem Dev.bumpFld_hp (d : Dev) (a hi lo : Nat) : (d.bumpFld a hi lo).hp = d.hp := rfl
@[simp] theorem Dev.bumpFld_pl (d : Dev) (a hi lo : Nat) : (d.bumpFld a hi lo).pl = d.pl := rfl
@[simp] theorem Dev.bumpFld_pipes (d : Dev) (a hi lo : Nat) : (d.bumpFld a hi lo).pipes = d.pipes := rfl
@[simp] theorem Dev.bumpFld_wm (d : Dev) (a hi lo : Nat) : (d.bumpFld a hi lo).wm = d.wm := rfl
@[simp] theorem Dev.bumpFld_bv (d : Dev) (a hi lo : Nat) : (d.bumpFld a hi lo).bv = d.bv := rfl
@[simp] theorem Dev.bumpFld_vb (d : Dev) (a hi lo : Nat) : (d.bumpFld a hi lo).vb = d.vb := rfl
@[simp] theorem Dev.bumpFld_spare (d : Dev) (a hi lo : Nat) : (d.bumpFld a hi lo).spare = d.spare := rfl
@[simp] theorem Dev.bumpFld_bl (d : Dev) (a hi lo : Nat) : (d.bumpFld a hi lo).bl = d.bl := rfl
@[simp] theorem Dev.bumpFld_safe (d : Dev) (a hi lo : Nat) : (d.bumpFld a hi lo).safe = d.safe := rfl
@[simp] theorem Dev.bumpFld_an (d : Dev) (a hi lo : Nat) : (d.bumpFld a hi lo).an = d.an := rfl
@[simp] theorem Dev.bumpFld_ana (d : Dev) (a hi lo : Nat) : (d.bumpFld a hi lo).ana = d.ana := rfl
@[simp] theorem Dev.bumpFld_sp (d : Dev) (a hi lo : Nat) : (d.bumpFld a hi lo).sp = d.sp := rfl
@[simp] theorem Dev.bumpFld_xip (d : Dev) (a hi lo : Nat) : (d.bumpFld a hi lo).xip = d.xip := rfl
@[simp] theorem Dev.bumpFld_sps (d : Dev) (a hi lo : Nat) : (d.bumpFld a hi lo).sps = d.sps := rfl
@[simp] theorem Dev.bumpFld_lt (d : Dev) (a hi lo : Nat) : (d.bumpFld a hi lo).lt = d.lt := rfl
@[simp] theorem Dev.bumpFld_tk (d : Dev) (a hi lo : Nat) : (d.bumpFld a hi lo).tk = d.tk := rfl
@[simp] theorem Dev.bumpFld_fab (d : Dev) (a hi lo : Nat) : (d.bumpFld a hi lo).fab = d.fab := rfl
@[simp] theorem Dev.bumpFld_hx (d : Dev) (a hi lo : Nat) : (d.bumpFld a hi lo).hx = d.hx := rfl
@[simp] theorem Dev.bumpFld_slots (d : Dev) (a hi lo : Nat) : (d.bumpFld a hi lo).slots = d.slots := rfl
@[simp] theorem Dev.bumpFld_trim (d : Dev) (a hi lo : Nat) : (d.bumpFld a hi lo).trim = d.trim := rfl
@[simp] theorem Dev.bumpFld_tap (d : Dev) (a hi lo : Nat) : (d.bumpFld a hi lo).tap = d.tap := rfl

@[simp] theorem Dev.setBoth_free (d : Dev) (a : Nat) (v : Word) : (d.setBoth a v).free = d.free := rfl
@[simp] theorem Dev.setBoth_ev (d : Dev) (a : Nat) (v : Word) : (d.setBoth a v).ev = d.ev := rfl
@[simp] theorem Dev.setBoth_flt (d : Dev) (a : Nat) (v : Word) : (d.setBoth a v).flt = d.flt := rfl
@[simp] theorem Dev.setBoth_sent (d : Dev) (a : Nat) (v : Word) : (d.setBoth a v).sent = d.sent := rfl
@[simp] theorem Dev.setBoth_pw (d : Dev) (a : Nat) (v : Word) : (d.setBoth a v).pw = d.pw := rfl
@[simp] theorem Dev.setBoth_web (d : Dev) (a : Nat) (v : Word) : (d.setBoth a v).web = d.web := rfl
@[simp] theorem Dev.setBoth_hp (d : Dev) (a : Nat) (v : Word) : (d.setBoth a v).hp = d.hp := rfl
@[simp] theorem Dev.setBoth_pl (d : Dev) (a : Nat) (v : Word) : (d.setBoth a v).pl = d.pl := rfl
@[simp] theorem Dev.setBoth_pipes (d : Dev) (a : Nat) (v : Word) : (d.setBoth a v).pipes = d.pipes := rfl
@[simp] theorem Dev.setBoth_wm (d : Dev) (a : Nat) (v : Word) : (d.setBoth a v).wm = d.wm := rfl
@[simp] theorem Dev.setBoth_bv (d : Dev) (a : Nat) (v : Word) : (d.setBoth a v).bv = d.bv := rfl
@[simp] theorem Dev.setBoth_vb (d : Dev) (a : Nat) (v : Word) : (d.setBoth a v).vb = d.vb := rfl
@[simp] theorem Dev.setBoth_spare (d : Dev) (a : Nat) (v : Word) : (d.setBoth a v).spare = d.spare := rfl
@[simp] theorem Dev.setBoth_bl (d : Dev) (a : Nat) (v : Word) : (d.setBoth a v).bl = d.bl := rfl
@[simp] theorem Dev.setBoth_safe (d : Dev) (a : Nat) (v : Word) : (d.setBoth a v).safe = d.safe := rfl
@[simp] theorem Dev.setBoth_an (d : Dev) (a : Nat) (v : Word) : (d.setBoth a v).an = d.an := rfl
@[simp] theorem Dev.setBoth_ana (d : Dev) (a : Nat) (v : Word) : (d.setBoth a v).ana = d.ana := rfl
@[simp] theorem Dev.setBoth_sp (d : Dev) (a : Nat) (v : Word) : (d.setBoth a v).sp = d.sp := rfl
@[simp] theorem Dev.setBoth_xip (d : Dev) (a : Nat) (v : Word) : (d.setBoth a v).xip = d.xip := rfl
@[simp] theorem Dev.setBoth_sps (d : Dev) (a : Nat) (v : Word) : (d.setBoth a v).sps = d.sps := rfl
@[simp] theorem Dev.setBoth_lt (d : Dev) (a : Nat) (v : Word) : (d.setBoth a v).lt = d.lt := rfl
@[simp] theorem Dev.setBoth_tk (d : Dev) (a : Nat) (v : Word) : (d.setBoth a v).tk = d.tk := rfl
@[simp] theorem Dev.setBoth_fab (d : Dev) (a : Nat) (v : Word) : (d.setBoth a v).fab = d.fab := rfl
@[simp] theorem Dev.setBoth_hx (d : Dev) (a : Nat) (v : Word) : (d.setBoth a v).hx = d.hx := rfl
@[simp] theorem Dev.setBoth_slots (d : Dev) (a : Nat) (v : Word) : (d.setBoth a v).slots = d.slots := rfl
@[simp] theorem Dev.setBoth_trim (d : Dev) (a : Nat) (v : Word) : (d.setBoth a v).trim = d.trim := rfl
@[simp] theorem Dev.setBoth_tap (d : Dev) (a : Nat) (v : Word) : (d.setBoth a v).tap = d.tap := rfl

@[simp] theorem Dev.bumpBy_ev (d : Dev) (a n : Nat) : (d.bumpBy a n).ev = d.ev := by unfold Dev.bumpBy Dev.fresh; dsimp only; split <;> rfl
@[simp] theorem Dev.bumpBy_flt (d : Dev) (a n : Nat) : (d.bumpBy a n).flt = d.flt := by unfold Dev.bumpBy Dev.fresh; dsimp only; split <;> rfl
@[simp] theorem Dev.bumpBy_sent (d : Dev) (a n : Nat) : (d.bumpBy a n).sent = d.sent := by unfold Dev.bumpBy Dev.fresh; dsimp only; split <;> rfl
@[simp] theorem Dev.bumpBy_pw (d : Dev) (a n : Nat) : (d.bumpBy a n).pw = d.pw := by unfold Dev.bumpBy Dev.fresh; dsimp only; split <;> rfl
@[simp] theorem Dev.bumpBy_web (d : Dev) (a n : Nat) : (d.bumpBy a n).web = d.web := by unfold Dev.bumpBy Dev.fresh; dsimp only; split <;> rfl
@[simp] theorem Dev.bumpBy_hp (d : Dev) (a n : Nat) : (d.bumpBy a n).hp = d.hp := by unfold Dev.bumpBy Dev.fresh; dsimp only; split <;> rfl
@[simp] theorem Dev.bumpBy_pl (d : Dev) (a n : Nat) : (d.bumpBy a n).pl = d.pl := by unfold Dev.bumpBy Dev.fresh; dsimp only; split <;> rfl
@[simp] theorem Dev.bumpBy_pipes (d : Dev) (a n : Nat) : (d.bumpBy a n).pipes = d.pipes := by unfold Dev.bumpBy Dev.fresh; dsimp only; split <;> rfl
@[simp] theorem Dev.bumpBy_wm (d : Dev) (a n : Nat) : (d.bumpBy a n).wm = d.wm := by unfold Dev.bumpBy Dev.fresh; dsimp only; split <;> rfl
@[simp] theorem Dev.bumpBy_bv (d : Dev) (a n : Nat) : (d.bumpBy a n).bv = d.bv := by unfold Dev.bumpBy Dev.fresh; dsimp only; split <;> rfl
@[simp] theorem Dev.bumpBy_vb (d : Dev) (a n : Nat) : (d.bumpBy a n).vb = d.vb := by unfold Dev.bumpBy Dev.fresh; dsimp only; split <;> rfl
@[simp] theorem Dev.bumpBy_spare (d : Dev) (a n : Nat) : (d.bumpBy a n).spare = d.spare := by unfold Dev.bumpBy Dev.fresh; dsimp only; split <;> rfl
@[simp] theorem Dev.bumpBy_bl (d : Dev) (a n : Nat) : (d.bumpBy a n).bl = d.bl := by unfold Dev.bumpBy Dev.fresh; dsimp only; split <;> rfl
@[simp] theorem Dev.bumpBy_safe (d : Dev) (a n : Nat) : (d.bumpBy a n).safe = d.safe := by unfold Dev.bumpBy Dev.fresh; dsimp only; split <;> rfl
@[simp] theorem Dev.bumpBy_an (d : Dev) (a n : Nat) : (d.bumpBy a n).an = d.an := by unfold Dev.bumpBy Dev.fresh; dsimp only; split <;> rfl
@[simp] theorem Dev.bumpBy_ana (d : Dev) (a n : Nat) : (d.bumpBy a n).ana = d.ana := by unfold Dev.bumpBy Dev.fresh; dsimp only; split <;> rfl
@[simp] theorem Dev.bumpBy_sp (d : Dev) (a n : Nat) : (d.bumpBy a n).sp = d.sp := by unfold Dev.bumpBy Dev.fresh; dsimp only; split <;> rfl
@[simp] theorem Dev.bumpBy_xip (d : Dev) (a n : Nat) : (d.bumpBy a n).xip = d.xip := by unfold Dev.bumpBy Dev.fresh; dsimp only; split <;> rfl
@[simp] theorem Dev.bumpBy_sps (d : Dev) (a n : Nat) : (d.bumpBy a n).sps = d.sps := by unfold Dev.bumpBy Dev.fresh; dsimp only; split <;> rfl
@[simp] theorem Dev.bumpBy_lt (d : Dev) (a n : Nat) : (d.bumpBy a n).lt = d.lt := by unfold Dev.bumpBy Dev.fresh; dsimp only; split <;> rfl
@[simp] theorem Dev.bumpBy_tk (d : Dev) (a n : Nat) : (d.bumpBy a n).tk = d.tk := by unfold Dev.bumpBy Dev.fresh; dsimp only; split <;> rfl
@[simp] theorem Dev.bumpBy_fab (d : Dev) (a n : Nat) : (d.bumpBy a n).fab = d.fab := by unfold Dev.bumpBy Dev.fresh; dsimp only; split <;> rfl
@[simp] theorem Dev.bumpBy_hx (d : Dev) (a n : Nat) : (d.bumpBy a n).hx = d.hx := by unfold Dev.bumpBy Dev.fresh; dsimp only; split <;> rfl
@[simp] theorem Dev.bumpBy_slots (d : Dev) (a n : Nat) : (d.bumpBy a n).slots = d.slots := by unfold Dev.bumpBy Dev.fresh; dsimp only; split <;> rfl
@[simp] theorem Dev.bumpBy_trim (d : Dev) (a n : Nat) : (d.bumpBy a n).trim = d.trim := by unfold Dev.bumpBy Dev.fresh; dsimp only; split <;> rfl
@[simp] theorem Dev.bumpBy_tap (d : Dev) (a n : Nat) : (d.bumpBy a n).tap = d.tap := by unfold Dev.bumpBy Dev.fresh; dsimp only; split <;> rfl

@[simp] theorem Dev.bump_ev (d : Dev) (a : Nat) : (d.bump a).ev = d.ev := Dev.bumpBy_ev d a 1
@[simp] theorem Dev.bump_flt (d : Dev) (a : Nat) : (d.bump a).flt = d.flt := Dev.bumpBy_flt d a 1
@[simp] theorem Dev.bump_sent (d : Dev) (a : Nat) : (d.bump a).sent = d.sent := Dev.bumpBy_sent d a 1
@[simp] theorem Dev.bump_pw (d : Dev) (a : Nat) : (d.bump a).pw = d.pw := Dev.bumpBy_pw d a 1
@[simp] theorem Dev.bump_web (d : Dev) (a : Nat) : (d.bump a).web = d.web := Dev.bumpBy_web d a 1
@[simp] theorem Dev.bump_hp (d : Dev) (a : Nat) : (d.bump a).hp = d.hp := Dev.bumpBy_hp d a 1
@[simp] theorem Dev.bump_pl (d : Dev) (a : Nat) : (d.bump a).pl = d.pl := Dev.bumpBy_pl d a 1
@[simp] theorem Dev.bump_pipes (d : Dev) (a : Nat) : (d.bump a).pipes = d.pipes := Dev.bumpBy_pipes d a 1
@[simp] theorem Dev.bump_wm (d : Dev) (a : Nat) : (d.bump a).wm = d.wm := Dev.bumpBy_wm d a 1
@[simp] theorem Dev.bump_bv (d : Dev) (a : Nat) : (d.bump a).bv = d.bv := Dev.bumpBy_bv d a 1
@[simp] theorem Dev.bump_vb (d : Dev) (a : Nat) : (d.bump a).vb = d.vb := Dev.bumpBy_vb d a 1
@[simp] theorem Dev.bump_spare (d : Dev) (a : Nat) : (d.bump a).spare = d.spare := Dev.bumpBy_spare d a 1
@[simp] theorem Dev.bump_bl (d : Dev) (a : Nat) : (d.bump a).bl = d.bl := Dev.bumpBy_bl d a 1
@[simp] theorem Dev.bump_safe (d : Dev) (a : Nat) : (d.bump a).safe = d.safe := Dev.bumpBy_safe d a 1
@[simp] theorem Dev.bump_an (d : Dev) (a : Nat) : (d.bump a).an = d.an := Dev.bumpBy_an d a 1
@[simp] theorem Dev.bump_ana (d : Dev) (a : Nat) : (d.bump a).ana = d.ana := Dev.bumpBy_ana d a 1
@[simp] theorem Dev.bump_sp (d : Dev) (a : Nat) : (d.bump a).sp = d.sp := Dev.bumpBy_sp d a 1
@[simp] theorem Dev.bump_xip (d : Dev) (a : Nat) : (d.bump a).xip = d.xip := Dev.bumpBy_xip d a 1
@[simp] theorem Dev.bump_sps (d : Dev) (a : Nat) : (d.bump a).sps = d.sps := Dev.bumpBy_sps d a 1
@[simp] theorem Dev.bump_lt (d : Dev) (a : Nat) : (d.bump a).lt = d.lt := Dev.bumpBy_lt d a 1
@[simp] theorem Dev.bump_tk (d : Dev) (a : Nat) : (d.bump a).tk = d.tk := Dev.bumpBy_tk d a 1
@[simp] theorem Dev.bump_fab (d : Dev) (a : Nat) : (d.bump a).fab = d.fab := Dev.bumpBy_fab d a 1
@[simp] theorem Dev.bump_hx (d : Dev) (a : Nat) : (d.bump a).hx = d.hx := Dev.bumpBy_hx d a 1
@[simp] theorem Dev.bump_slots (d : Dev) (a : Nat) : (d.bump a).slots = d.slots := Dev.bumpBy_slots d a 1
@[simp] theorem Dev.bump_trim (d : Dev) (a : Nat) : (d.bump a).trim = d.trim := Dev.bumpBy_trim d a 1
@[simp] theorem Dev.bump_tap (d : Dev) (a : Nat) : (d.bump a).tap = d.tap := Dev.bumpBy_tap d a 1

@[simp] theorem Dev.fault_ev (d : Dev) (t u c x : Nat) : (d.fault t u c x).ev = d.ev := by unfold Dev.fault; split <;> simp
@[simp] theorem Dev.fault_sent (d : Dev) (t u c x : Nat) : (d.fault t u c x).sent = d.sent := by unfold Dev.fault; split <;> simp
@[simp] theorem Dev.fault_pw (d : Dev) (t u c x : Nat) : (d.fault t u c x).pw = d.pw := by unfold Dev.fault; split <;> simp
@[simp] theorem Dev.fault_web (d : Dev) (t u c x : Nat) : (d.fault t u c x).web = d.web := by unfold Dev.fault; split <;> simp
@[simp] theorem Dev.fault_hp (d : Dev) (t u c x : Nat) : (d.fault t u c x).hp = d.hp := by unfold Dev.fault; split <;> simp
@[simp] theorem Dev.fault_pl (d : Dev) (t u c x : Nat) : (d.fault t u c x).pl = d.pl := by unfold Dev.fault; split <;> simp
@[simp] theorem Dev.fault_pipes (d : Dev) (t u c x : Nat) : (d.fault t u c x).pipes = d.pipes := by unfold Dev.fault; split <;> simp
@[simp] theorem Dev.fault_wm (d : Dev) (t u c x : Nat) : (d.fault t u c x).wm = d.wm := by unfold Dev.fault; split <;> simp
@[simp] theorem Dev.fault_bv (d : Dev) (t u c x : Nat) : (d.fault t u c x).bv = d.bv := by unfold Dev.fault; split <;> simp
@[simp] theorem Dev.fault_vb (d : Dev) (t u c x : Nat) : (d.fault t u c x).vb = d.vb := by unfold Dev.fault; split <;> simp
@[simp] theorem Dev.fault_spare (d : Dev) (t u c x : Nat) : (d.fault t u c x).spare = d.spare := by unfold Dev.fault; split <;> simp
@[simp] theorem Dev.fault_bl (d : Dev) (t u c x : Nat) : (d.fault t u c x).bl = d.bl := by unfold Dev.fault; split <;> simp
@[simp] theorem Dev.fault_safe (d : Dev) (t u c x : Nat) : (d.fault t u c x).safe = d.safe := by unfold Dev.fault; split <;> simp
@[simp] theorem Dev.fault_an (d : Dev) (t u c x : Nat) : (d.fault t u c x).an = d.an := by unfold Dev.fault; split <;> simp
@[simp] theorem Dev.fault_ana (d : Dev) (t u c x : Nat) : (d.fault t u c x).ana = d.ana := by unfold Dev.fault; split <;> simp
@[simp] theorem Dev.fault_sp (d : Dev) (t u c x : Nat) : (d.fault t u c x).sp = d.sp := by unfold Dev.fault; split <;> simp
@[simp] theorem Dev.fault_xip (d : Dev) (t u c x : Nat) : (d.fault t u c x).xip = d.xip := by unfold Dev.fault; split <;> simp
@[simp] theorem Dev.fault_sps (d : Dev) (t u c x : Nat) : (d.fault t u c x).sps = d.sps := by unfold Dev.fault; split <;> simp
@[simp] theorem Dev.fault_lt (d : Dev) (t u c x : Nat) : (d.fault t u c x).lt = d.lt := by unfold Dev.fault; split <;> simp
@[simp] theorem Dev.fault_tk (d : Dev) (t u c x : Nat) : (d.fault t u c x).tk = d.tk := by unfold Dev.fault; split <;> simp
@[simp] theorem Dev.fault_fab (d : Dev) (t u c x : Nat) : (d.fault t u c x).fab = d.fab := by unfold Dev.fault; split <;> simp
@[simp] theorem Dev.fault_hx (d : Dev) (t u c x : Nat) : (d.fault t u c x).hx = d.hx := by unfold Dev.fault; split <;> simp
@[simp] theorem Dev.fault_slots (d : Dev) (t u c x : Nat) : (d.fault t u c x).slots = d.slots := by unfold Dev.fault; split <;> simp
@[simp] theorem Dev.fault_trim (d : Dev) (t u c x : Nat) : (d.fault t u c x).trim = d.trim := by unfold Dev.fault; split <;> simp
@[simp] theorem Dev.fault_tap (d : Dev) (t u c x : Nat) : (d.fault t u c x).tap = d.tap := by unfold Dev.fault; split <;> simp

@[simp] theorem Dev.faultFlag_ev (d : Dev) (t u c x r i : Nat) : (d.faultFlag t u c x r i).ev = d.ev := by unfold Dev.faultFlag; simp
@[simp] theorem Dev.faultFlag_sent (d : Dev) (t u c x r i : Nat) : (d.faultFlag t u c x r i).sent = d.sent := by unfold Dev.faultFlag; simp
@[simp] theorem Dev.faultFlag_pw (d : Dev) (t u c x r i : Nat) : (d.faultFlag t u c x r i).pw = d.pw := by unfold Dev.faultFlag; simp
@[simp] theorem Dev.faultFlag_web (d : Dev) (t u c x r i : Nat) : (d.faultFlag t u c x r i).web = d.web := by unfold Dev.faultFlag; simp
@[simp] theorem Dev.faultFlag_hp (d : Dev) (t u c x r i : Nat) : (d.faultFlag t u c x r i).hp = d.hp := by unfold Dev.faultFlag; simp
@[simp] theorem Dev.faultFlag_pl (d : Dev) (t u c x r i : Nat) : (d.faultFlag t u c x r i).pl = d.pl := by unfold Dev.faultFlag; simp
@[simp] theorem Dev.faultFlag_pipes (d : Dev) (t u c x r i : Nat) : (d.faultFlag t u c x r i).pipes = d.pipes := by unfold Dev.faultFlag; simp
@[simp] theorem Dev.faultFlag_wm (d : Dev) (t u c x r i : Nat) : (d.faultFlag t u c x r i).wm = d.wm := by unfold Dev.faultFlag; simp
@[simp] theorem Dev.faultFlag_bv (d : Dev) (t u c x r i : Nat) : (d.faultFlag t u c x r i).bv = d.bv := by unfold Dev.faultFlag; simp
@[simp] theorem Dev.faultFlag_vb (d : Dev) (t u c x r i : Nat) : (d.faultFlag t u c x r i).vb = d.vb := by unfold Dev.faultFlag; simp
@[simp] theorem Dev.faultFlag_spare (d : Dev) (t u c x r i : Nat) : (d.faultFlag t u c x r i).spare = d.spare := by unfold Dev.faultFlag; simp
@[simp] theorem Dev.faultFlag_bl (d : Dev) (t u c x r i : Nat) : (d.faultFlag t u c x r i).bl = d.bl := by unfold Dev.faultFlag; simp
@[simp] theorem Dev.faultFlag_safe (d : Dev) (t u c x r i : Nat) : (d.faultFlag t u c x r i).safe = d.safe := by unfold Dev.faultFlag; simp
@[simp] theorem Dev.faultFlag_an (d : Dev) (t u c x r i : Nat) : (d.faultFlag t u c x r i).an = d.an := by unfold Dev.faultFlag; simp
@[simp] theorem Dev.faultFlag_ana (d : Dev) (t u c x r i : Nat) : (d.faultFlag t u c x r i).ana = d.ana := by unfold Dev.faultFlag; simp
@[simp] theorem Dev.faultFlag_sp (d : Dev) (t u c x r i : Nat) : (d.faultFlag t u c x r i).sp = d.sp := by unfold Dev.faultFlag; simp
@[simp] theorem Dev.faultFlag_xip (d : Dev) (t u c x r i : Nat) : (d.faultFlag t u c x r i).xip = d.xip := by unfold Dev.faultFlag; simp
@[simp] theorem Dev.faultFlag_sps (d : Dev) (t u c x r i : Nat) : (d.faultFlag t u c x r i).sps = d.sps := by unfold Dev.faultFlag; simp
@[simp] theorem Dev.faultFlag_lt (d : Dev) (t u c x r i : Nat) : (d.faultFlag t u c x r i).lt = d.lt := by unfold Dev.faultFlag; simp
@[simp] theorem Dev.faultFlag_tk (d : Dev) (t u c x r i : Nat) : (d.faultFlag t u c x r i).tk = d.tk := by unfold Dev.faultFlag; simp
@[simp] theorem Dev.faultFlag_fab (d : Dev) (t u c x r i : Nat) : (d.faultFlag t u c x r i).fab = d.fab := by unfold Dev.faultFlag; simp
@[simp] theorem Dev.faultFlag_hx (d : Dev) (t u c x r i : Nat) : (d.faultFlag t u c x r i).hx = d.hx := by unfold Dev.faultFlag; simp
@[simp] theorem Dev.faultFlag_slots (d : Dev) (t u c x r i : Nat) : (d.faultFlag t u c x r i).slots = d.slots := by unfold Dev.faultFlag; simp
@[simp] theorem Dev.faultFlag_trim (d : Dev) (t u c x r i : Nat) : (d.faultFlag t u c x r i).trim = d.trim := by unfold Dev.faultFlag; simp
@[simp] theorem Dev.faultFlag_tap (d : Dev) (t u c x r i : Nat) : (d.faultFlag t u c x r i).tap = d.tap := by unfold Dev.faultFlag; simp

@[simp] theorem Dev.mirrorEvt_ev (d : Dev) (t e n : Nat) : (d.mirrorEvt t e n).ev = d.ev := by unfold Dev.mirrorEvt; dsimp only; split_ifs <;> (try split) <;> simp
@[simp] theorem Dev.mirrorEvt_flt (d : Dev) (t e n : Nat) : (d.mirrorEvt t e n).flt = d.flt := by unfold Dev.mirrorEvt; dsimp only; split_ifs <;> (try split) <;> simp
@[simp] theorem Dev.mirrorEvt_sent (d : Dev) (t e n : Nat) : (d.mirrorEvt t e n).sent = d.sent := by unfold Dev.mirrorEvt; dsimp only; split_ifs <;> (try split) <;> simp
@[simp] theorem Dev.mirrorEvt_pw (d : Dev) (t e n : Nat) : (d.mirrorEvt t e n).pw = d.pw := by unfold Dev.mirrorEvt; dsimp only; split_ifs <;> (try split) <;> simp
@[simp] theorem Dev.mirrorEvt_hp (d : Dev) (t e n : Nat) : (d.mirrorEvt t e n).hp = d.hp := by unfold Dev.mirrorEvt; dsimp only; split_ifs <;> (try split) <;> simp
@[simp] theorem Dev.mirrorEvt_pl (d : Dev) (t e n : Nat) : (d.mirrorEvt t e n).pl = d.pl := by unfold Dev.mirrorEvt; dsimp only; split_ifs <;> (try split) <;> simp
@[simp] theorem Dev.mirrorEvt_pipes (d : Dev) (t e n : Nat) : (d.mirrorEvt t e n).pipes = d.pipes := by unfold Dev.mirrorEvt; dsimp only; split_ifs <;> (try split) <;> simp
@[simp] theorem Dev.mirrorEvt_wm (d : Dev) (t e n : Nat) : (d.mirrorEvt t e n).wm = d.wm := by unfold Dev.mirrorEvt; dsimp only; split_ifs <;> (try split) <;> simp
@[simp] theorem Dev.mirrorEvt_bv (d : Dev) (t e n : Nat) : (d.mirrorEvt t e n).bv = d.bv := by unfold Dev.mirrorEvt; dsimp only; split_ifs <;> (try split) <;> simp
@[simp] theorem Dev.mirrorEvt_vb (d : Dev) (t e n : Nat) : (d.mirrorEvt t e n).vb = d.vb := by unfold Dev.mirrorEvt; dsimp only; split_ifs <;> (try split) <;> simp
@[simp] theorem Dev.mirrorEvt_spare (d : Dev) (t e n : Nat) : (d.mirrorEvt t e n).spare = d.spare := by unfold Dev.mirrorEvt; dsimp only; split_ifs <;> (try split) <;> simp
@[simp] theorem Dev.mirrorEvt_bl (d : Dev) (t e n : Nat) : (d.mirrorEvt t e n).bl = d.bl := by unfold Dev.mirrorEvt; dsimp only; split_ifs <;> (try split) <;> simp
@[simp] theorem Dev.mirrorEvt_safe (d : Dev) (t e n : Nat) : (d.mirrorEvt t e n).safe = d.safe := by unfold Dev.mirrorEvt; dsimp only; split_ifs <;> (try split) <;> simp
@[simp] theorem Dev.mirrorEvt_an (d : Dev) (t e n : Nat) : (d.mirrorEvt t e n).an = d.an := by unfold Dev.mirrorEvt; dsimp only; split_ifs <;> (try split) <;> simp
@[simp] theorem Dev.mirrorEvt_ana (d : Dev) (t e n : Nat) : (d.mirrorEvt t e n).ana = d.ana := by unfold Dev.mirrorEvt; dsimp only; split_ifs <;> (try split) <;> simp
@[simp] theorem Dev.mirrorEvt_sp (d : Dev) (t e n : Nat) : (d.mirrorEvt t e n).sp = d.sp := by unfold Dev.mirrorEvt; dsimp only; split_ifs <;> (try split) <;> simp
@[simp] theorem Dev.mirrorEvt_xip (d : Dev) (t e n : Nat) : (d.mirrorEvt t e n).xip = d.xip := by unfold Dev.mirrorEvt; dsimp only; split_ifs <;> (try split) <;> simp
@[simp] theorem Dev.mirrorEvt_sps (d : Dev) (t e n : Nat) : (d.mirrorEvt t e n).sps = d.sps := by unfold Dev.mirrorEvt; dsimp only; split_ifs <;> (try split) <;> simp
@[simp] theorem Dev.mirrorEvt_lt (d : Dev) (t e n : Nat) : (d.mirrorEvt t e n).lt = d.lt := by unfold Dev.mirrorEvt; dsimp only; split_ifs <;> (try split) <;> simp
@[simp] theorem Dev.mirrorEvt_tk (d : Dev) (t e n : Nat) : (d.mirrorEvt t e n).tk = d.tk := by unfold Dev.mirrorEvt; dsimp only; split_ifs <;> (try split) <;> simp
@[simp] theorem Dev.mirrorEvt_fab (d : Dev) (t e n : Nat) : (d.mirrorEvt t e n).fab = d.fab := by unfold Dev.mirrorEvt; dsimp only; split_ifs <;> (try split) <;> simp
@[simp] theorem Dev.mirrorEvt_hx (d : Dev) (t e n : Nat) : (d.mirrorEvt t e n).hx = d.hx := by unfold Dev.mirrorEvt; dsimp only; split_ifs <;> (try split) <;> simp
@[simp] theorem Dev.mirrorEvt_slots (d : Dev) (t e n : Nat) : (d.mirrorEvt t e n).slots = d.slots := by unfold Dev.mirrorEvt; dsimp only; split_ifs <;> (try split) <;> simp
@[simp] theorem Dev.mirrorEvt_trim (d : Dev) (t e n : Nat) : (d.mirrorEvt t e n).trim = d.trim := by unfold Dev.mirrorEvt; dsimp only; split_ifs <;> (try split) <;> simp
@[simp] theorem Dev.mirrorEvt_tap (d : Dev) (t e n : Nat) : (d.mirrorEvt t e n).tap = d.tap := by unfold Dev.mirrorEvt; dsimp only; split_ifs <;> (try split) <;> simp

@[simp] theorem Dev.mirrorHsy_ev (d : Dev) (t e n : Nat) : (d.mirrorHsy t e n).ev = d.ev := by unfold Dev.mirrorHsy; dsimp only; split_ifs <;> simp
@[simp] theorem Dev.mirrorHsy_flt (d : Dev) (t e n : Nat) : (d.mirrorHsy t e n).flt = d.flt := by unfold Dev.mirrorHsy; dsimp only; split_ifs <;> simp
@[simp] theorem Dev.mirrorHsy_sent (d : Dev) (t e n : Nat) : (d.mirrorHsy t e n).sent = d.sent := by unfold Dev.mirrorHsy; dsimp only; split_ifs <;> simp
@[simp] theorem Dev.mirrorHsy_pw (d : Dev) (t e n : Nat) : (d.mirrorHsy t e n).pw = d.pw := by unfold Dev.mirrorHsy; dsimp only; split_ifs <;> simp
@[simp] theorem Dev.mirrorHsy_hp (d : Dev) (t e n : Nat) : (d.mirrorHsy t e n).hp = d.hp := by unfold Dev.mirrorHsy; dsimp only; split_ifs <;> simp
@[simp] theorem Dev.mirrorHsy_pl (d : Dev) (t e n : Nat) : (d.mirrorHsy t e n).pl = d.pl := by unfold Dev.mirrorHsy; dsimp only; split_ifs <;> simp
@[simp] theorem Dev.mirrorHsy_pipes (d : Dev) (t e n : Nat) : (d.mirrorHsy t e n).pipes = d.pipes := by unfold Dev.mirrorHsy; dsimp only; split_ifs <;> simp
@[simp] theorem Dev.mirrorHsy_wm (d : Dev) (t e n : Nat) : (d.mirrorHsy t e n).wm = d.wm := by unfold Dev.mirrorHsy; dsimp only; split_ifs <;> simp
@[simp] theorem Dev.mirrorHsy_bv (d : Dev) (t e n : Nat) : (d.mirrorHsy t e n).bv = d.bv := by unfold Dev.mirrorHsy; dsimp only; split_ifs <;> simp
@[simp] theorem Dev.mirrorHsy_vb (d : Dev) (t e n : Nat) : (d.mirrorHsy t e n).vb = d.vb := by unfold Dev.mirrorHsy; dsimp only; split_ifs <;> simp
@[simp] theorem Dev.mirrorHsy_spare (d : Dev) (t e n : Nat) : (d.mirrorHsy t e n).spare = d.spare := by unfold Dev.mirrorHsy; dsimp only; split_ifs <;> simp
@[simp] theorem Dev.mirrorHsy_bl (d : Dev) (t e n : Nat) : (d.mirrorHsy t e n).bl = d.bl := by unfold Dev.mirrorHsy; dsimp only; split_ifs <;> simp
@[simp] theorem Dev.mirrorHsy_safe (d : Dev) (t e n : Nat) : (d.mirrorHsy t e n).safe = d.safe := by unfold Dev.mirrorHsy; dsimp only; split_ifs <;> simp
@[simp] theorem Dev.mirrorHsy_an (d : Dev) (t e n : Nat) : (d.mirrorHsy t e n).an = d.an := by unfold Dev.mirrorHsy; dsimp only; split_ifs <;> simp
@[simp] theorem Dev.mirrorHsy_ana (d : Dev) (t e n : Nat) : (d.mirrorHsy t e n).ana = d.ana := by unfold Dev.mirrorHsy; dsimp only; split_ifs <;> simp
@[simp] theorem Dev.mirrorHsy_sp (d : Dev) (t e n : Nat) : (d.mirrorHsy t e n).sp = d.sp := by unfold Dev.mirrorHsy; dsimp only; split_ifs <;> simp
@[simp] theorem Dev.mirrorHsy_xip (d : Dev) (t e n : Nat) : (d.mirrorHsy t e n).xip = d.xip := by unfold Dev.mirrorHsy; dsimp only; split_ifs <;> simp
@[simp] theorem Dev.mirrorHsy_sps (d : Dev) (t e n : Nat) : (d.mirrorHsy t e n).sps = d.sps := by unfold Dev.mirrorHsy; dsimp only; split_ifs <;> simp
@[simp] theorem Dev.mirrorHsy_lt (d : Dev) (t e n : Nat) : (d.mirrorHsy t e n).lt = d.lt := by unfold Dev.mirrorHsy; dsimp only; split_ifs <;> simp
@[simp] theorem Dev.mirrorHsy_tk (d : Dev) (t e n : Nat) : (d.mirrorHsy t e n).tk = d.tk := by unfold Dev.mirrorHsy; dsimp only; split_ifs <;> simp
@[simp] theorem Dev.mirrorHsy_fab (d : Dev) (t e n : Nat) : (d.mirrorHsy t e n).fab = d.fab := by unfold Dev.mirrorHsy; dsimp only; split_ifs <;> simp
@[simp] theorem Dev.mirrorHsy_hx (d : Dev) (t e n : Nat) : (d.mirrorHsy t e n).hx = d.hx := by unfold Dev.mirrorHsy; dsimp only; split_ifs <;> simp
@[simp] theorem Dev.mirrorHsy_slots (d : Dev) (t e n : Nat) : (d.mirrorHsy t e n).slots = d.slots := by unfold Dev.mirrorHsy; dsimp only; split_ifs <;> simp
@[simp] theorem Dev.mirrorHsy_trim (d : Dev) (t e n : Nat) : (d.mirrorHsy t e n).trim = d.trim := by unfold Dev.mirrorHsy; dsimp only; split_ifs <;> simp
@[simp] theorem Dev.mirrorHsy_tap (d : Dev) (t e n : Nat) : (d.mirrorHsy t e n).tap = d.tap := by unfold Dev.mirrorHsy; dsimp only; split_ifs <;> simp

/-- A fold of updates that each leave a part of the device leaves it. -/
theorem Dev.foldl_keeps {α β : Type} (p : Dev → β) (f : Dev → α → Dev) (h : ∀ d x, p (f d x) = p d) (l : List α) (d : Dev) : p (l.foldl f d) = p d := by
  induction l generalizing d with
  | nil => rfl
  | cons x l ih => rw [List.foldl_cons, ih, h]

/-- A fold of updates keeps a property that each keeps. -/
theorem Dev.foldl_inv {α : Type} (p : Dev → Prop) (f : Dev → α → Dev) (h : ∀ d x, p d → p (f d x)) (l : List α) (d : Dev) (hd : p d) : p (l.foldl f d) := by
  induction l generalizing d with
  | nil => exact hd
  | cons x l ih => exact ih _ (h d x hd)

@[simp] theorem Dev.raise_flt (d : Dev) (t e w : Nat) : (d.raise t e w).flt = d.flt := by
  unfold Dev.raise; simp only; rw [Dev.foldl_keeps Dev.flt _ (by simp), Dev.foldl_keeps Dev.flt _ (by simp)]
@[simp] theorem Dev.raise_sent (d : Dev) (t e w : Nat) : (d.raise t e w).sent = d.sent := by
  unfold Dev.raise; simp only; rw [Dev.foldl_keeps Dev.sent _ (by simp), Dev.foldl_keeps Dev.sent _ (by simp)]
@[simp] theorem Dev.raise_pw (d : Dev) (t e w : Nat) : (d.raise t e w).pw = d.pw := by
  unfold Dev.raise; simp only; rw [Dev.foldl_keeps Dev.pw _ (by simp), Dev.foldl_keeps Dev.pw _ (by simp)]
@[simp] theorem Dev.raise_hp (d : Dev) (t e w : Nat) : (d.raise t e w).hp = d.hp := by
  unfold Dev.raise; simp only; rw [Dev.foldl_keeps Dev.hp _ (by simp), Dev.foldl_keeps Dev.hp _ (by simp)]
@[simp] theorem Dev.raise_pl (d : Dev) (t e w : Nat) : (d.raise t e w).pl = d.pl := by
  unfold Dev.raise; simp only; rw [Dev.foldl_keeps Dev.pl _ (by simp), Dev.foldl_keeps Dev.pl _ (by simp)]
@[simp] theorem Dev.raise_pipes (d : Dev) (t e w : Nat) : (d.raise t e w).pipes = d.pipes := by
  unfold Dev.raise; simp only; rw [Dev.foldl_keeps Dev.pipes _ (by simp), Dev.foldl_keeps Dev.pipes _ (by simp)]
@[simp] theorem Dev.raise_wm (d : Dev) (t e w : Nat) : (d.raise t e w).wm = d.wm := by
  unfold Dev.raise; simp only; rw [Dev.foldl_keeps Dev.wm _ (by simp), Dev.foldl_keeps Dev.wm _ (by simp)]
@[simp] theorem Dev.raise_bv (d : Dev) (t e w : Nat) : (d.raise t e w).bv = d.bv := by
  unfold Dev.raise; simp only; rw [Dev.foldl_keeps Dev.bv _ (by simp), Dev.foldl_keeps Dev.bv _ (by simp)]
@[simp] theorem Dev.raise_vb (d : Dev) (t e w : Nat) : (d.raise t e w).vb = d.vb := by
  unfold Dev.raise; simp only; rw [Dev.foldl_keeps Dev.vb _ (by simp), Dev.foldl_keeps Dev.vb _ (by simp)]
@[simp] theorem Dev.raise_spare (d : Dev) (t e w : Nat) : (d.raise t e w).spare = d.spare := by
  unfold Dev.raise; simp only; rw [Dev.foldl_keeps Dev.spare _ (by simp), Dev.foldl_keeps Dev.spare _ (by simp)]
@[simp] theorem Dev.raise_bl (d : Dev) (t e w : Nat) : (d.raise t e w).bl = d.bl := by
  unfold Dev.raise; simp only; rw [Dev.foldl_keeps Dev.bl _ (by simp), Dev.foldl_keeps Dev.bl _ (by simp)]
@[simp] theorem Dev.raise_safe (d : Dev) (t e w : Nat) : (d.raise t e w).safe = d.safe := by
  unfold Dev.raise; simp only; rw [Dev.foldl_keeps Dev.safe _ (by simp), Dev.foldl_keeps Dev.safe _ (by simp)]
@[simp] theorem Dev.raise_an (d : Dev) (t e w : Nat) : (d.raise t e w).an = d.an := by
  unfold Dev.raise; simp only; rw [Dev.foldl_keeps Dev.an _ (by simp), Dev.foldl_keeps Dev.an _ (by simp)]
@[simp] theorem Dev.raise_ana (d : Dev) (t e w : Nat) : (d.raise t e w).ana = d.ana := by
  unfold Dev.raise; simp only; rw [Dev.foldl_keeps Dev.ana _ (by simp), Dev.foldl_keeps Dev.ana _ (by simp)]
@[simp] theorem Dev.raise_sp (d : Dev) (t e w : Nat) : (d.raise t e w).sp = d.sp := by
  unfold Dev.raise; simp only; rw [Dev.foldl_keeps Dev.sp _ (by simp), Dev.foldl_keeps Dev.sp _ (by simp)]
@[simp] theorem Dev.raise_xip (d : Dev) (t e w : Nat) : (d.raise t e w).xip = d.xip := by
  unfold Dev.raise; simp only; rw [Dev.foldl_keeps Dev.xip _ (by simp), Dev.foldl_keeps Dev.xip _ (by simp)]
@[simp] theorem Dev.raise_sps (d : Dev) (t e w : Nat) : (d.raise t e w).sps = d.sps := by
  unfold Dev.raise; simp only; rw [Dev.foldl_keeps Dev.sps _ (by simp), Dev.foldl_keeps Dev.sps _ (by simp)]
@[simp] theorem Dev.raise_lt (d : Dev) (t e w : Nat) : (d.raise t e w).lt = d.lt := by
  unfold Dev.raise; simp only; rw [Dev.foldl_keeps Dev.lt _ (by simp), Dev.foldl_keeps Dev.lt _ (by simp)]
@[simp] theorem Dev.raise_tk (d : Dev) (t e w : Nat) : (d.raise t e w).tk = d.tk := by
  unfold Dev.raise; simp only; rw [Dev.foldl_keeps Dev.tk _ (by simp), Dev.foldl_keeps Dev.tk _ (by simp)]
@[simp] theorem Dev.raise_fab (d : Dev) (t e w : Nat) : (d.raise t e w).fab = d.fab := by
  unfold Dev.raise; simp only; rw [Dev.foldl_keeps Dev.fab _ (by simp), Dev.foldl_keeps Dev.fab _ (by simp)]
@[simp] theorem Dev.raise_hx (d : Dev) (t e w : Nat) : (d.raise t e w).hx = d.hx := by
  unfold Dev.raise; simp only; rw [Dev.foldl_keeps Dev.hx _ (by simp), Dev.foldl_keeps Dev.hx _ (by simp)]
@[simp] theorem Dev.raise_slots (d : Dev) (t e w : Nat) : (d.raise t e w).slots = d.slots := by
  unfold Dev.raise; simp only; rw [Dev.foldl_keeps Dev.slots _ (by simp), Dev.foldl_keeps Dev.slots _ (by simp)]
@[simp] theorem Dev.raise_trim (d : Dev) (t e w : Nat) : (d.raise t e w).trim = d.trim := by
  unfold Dev.raise; simp only; rw [Dev.foldl_keeps Dev.trim _ (by simp), Dev.foldl_keeps Dev.trim _ (by simp)]
@[simp] theorem Dev.raise_tap (d : Dev) (t e w : Nat) : (d.raise t e w).tap = d.tap := by
  unfold Dev.raise; simp only; rw [Dev.foldl_keeps Dev.tap _ (by simp), Dev.foldl_keeps Dev.tap _ (by simp)]
/-- An event joins the occurrences on their way to the scheduler (R30, R338). -/
@[simp] theorem Dev.raise_ev (d : Dev) (t e w : Nat) : (d.raise t e w).ev = d.ev ++ [⟨e, BitVec.ofNat 32 w, t⟩] := by
  unfold Dev.raise; simp only; rw [Dev.foldl_keeps Dev.ev _ (by simp), Dev.foldl_keeps Dev.ev _ (by simp)]

/-! ## What is written -/

@[simp] theorem Dev.rd_wrN_same (d : Dev) (a v : Nat) : (d.wrN a v).rd a = BitVec.ofNat 32 v := Dev.rd_wr_same _ _ _
theorem Dev.rd_wrN_other (d : Dev) {a b : Nat} (v : Nat) (h : b ≠ a) : (d.wrN a v).rd b = d.rd b := Dev.rd_wr_other _ _ h
theorem Dev.rd_setBits_other (d : Dev) {a b : Nat} (m : Nat) (h : b ≠ a) : (d.setBits a m).rd b = d.rd b := Dev.rd_wr_other _ _ h
theorem Dev.rd_flag_other (d : Dev) {a b : Nat} (i : Nat) (h : b ≠ a) : (d.flag a i).rd b = d.rd b := Dev.rd_wr_other _ _ h
theorem Dev.rd_clrBits_other (d : Dev) {a b : Nat} (m : Nat) (h : b ≠ a) : (d.clrBits a m).rd b = d.rd b := Dev.rd_wr_other _ _ h
theorem Dev.rd_putFld_other (d : Dev) {a b : Nat} (hi lo v : Nat) (h : b ≠ a) : (d.putFld a hi lo v).rd b = d.rd b := Dev.rd_wr_other _ _ h
theorem Dev.rd_bumpBy_other (d : Dev) {a b : Nat} (n : Nat) (h : b ≠ a) : (d.bumpBy a n).rd b = d.rd b := by
  unfold Dev.bumpBy; split
  · exact Dev.rd_wr_other _ _ h
  · exact Dev.rd_wr_other _ _ h
theorem Dev.rd_bump_other (d : Dev) {a b : Nat} (h : b ≠ a) : (d.bump a).rd b = d.rd b := Dev.rd_bumpBy_other _ _ h
theorem Dev.rd_fault_other (d : Dev) (t u c x : Nat) {b : Nat} (h : b ≠ Reg.SV_LOG_LOST) : (d.fault t u c x).rd b = d.rd b := by
  unfold Dev.fault; split
  · rfl
  · exact Dev.rd_bump_other _ h

/-- Setting a W1C flag (R5): the flag reads set. -/
theorem Dev.bit_flag (d : Dev) (a : Nat) {i : Nat} (h : i < 32) : (d.flag a i).bit a i = true := by
  have hlt : d.rdN a ||| 2 ^ i < 2 ^ 32 :=
    Nat.or_lt_two_pow (by unfold Dev.rdN; exact (d.rd a).isLt) (Nat.pow_lt_pow_right (by omega) h)
  simp only [Dev.bit, Dev.flag, Dev.setBits, Dev.rdN, Dev.rd_wrN_same, BitVec.toNat_ofNat]
  rw [Nat.mod_eq_of_lt (by simpa [Dev.rdN] using hlt), Nat.testBit_or, Nat.testBit_two_pow_self, Bool.or_true]

/-- A fault record (R461): it joins the queue of 64, or is counted as lost. -/
theorem Dev.fault_law (d : Dev) (t u c x : Nat) :
    (d.fault t u c x).flt.log = d.flt.log ∧
      if d.flt.queue.length < 64 then (d.fault t u c x).flt.queue = d.flt.queue ++ [⟨t, u, c, BitVec.ofNat 32 x⟩] ∧ (d.fault t u c x).flt.lost = d.flt.lost
      else (d.fault t u c x).flt.queue = d.flt.queue ∧ (d.fault t u c x).flt.lost = d.flt.lost + 1 := by
  unfold Dev.fault
  split
  · exact ⟨rfl, rfl, rfl⟩
  · simp

end Sys2Proof.Machine
end

