-- ==== Sys2Proof/Laws/Writes.lean ====
section
/-! SUPPORT. Laws/Writes.lean: what reaches the memories when nothing stands in a write's way, and what a word written as bytes reads as. -/
namespace Sys2Proof.Machine

theorem splitWrites_free (locked : List MemWrite → Bool) (h : ∀ w, locked w = false) (l : List (Nat × List MemWrite)) : splitWrites locked [] l = (l, []) := by
  induction l with
  | nil => rfl
  | cons x l ih => simp [splitWrites, h, ih]

/-- Beats hold the writes they are made of, in order. -/
@[simp] theorem beats_flatten (g : Nat) (l : List MemWrite) : (beats g l).flatten = l := by
  induction l with
  | nil => rfl
  | cons w l ih =>
    unfold beats
    split
    · next h => rw [h] at ih; simp at ih; simp [← ih]
    · next b r h => rw [h] at ih; split <;> simp [← ih]

theorem mirrored_none (l : List MemWrite) : mirrored none l = l := by
  induction l with
  | nil => rfl
  | cons w l ih => cases w <;> simp [mirrored, ih]

/-- With no write waiting, no bank locked, mirrored or retired and no word poisoned, a requester's writes all reach the memories, and the
device stays as the command left it. -/
theorem Dev.land_quiet (d : Dev) (t req : Nat) (ws : List MemWrite) (h1 : d.fab.held = []) (h2 : ∀ b, d.lockOwner b = none)
    (h3 : d.fab.mirror = none) (h4 : d.fab.retired = []) (h5 : d.fab.poisonFrame = []) : d.land t req ws = (d, ws) := by
  have hlock : ∀ w : List MemWrite, beatIn (fun b => (d.lockOwner b).isSome) w = false := by
    intro w; unfold beatIn; rw [List.any_eq_false]; intro x _; unfold MemWrite.inBank; split <;> simp [h2]
  have hgone : ∀ w : MemWrite, w.inBank (fun b => d.fab.retired.any (fun x => decide (x.2 = b))) = false := by
    intro w; unfold MemWrite.inBank; split <;> simp [h4]
  have hsplit := splitWrites_free (beatIn (fun b => (d.lockOwner b).isSome)) hlock
  have hfind : ws.find? (fun w => w.inBank (fun b => d.fab.retired.any (fun x => decide (x.2 = b)))) = none := by
    rw [List.find?_eq_none]; intro w _; simp [hgone]
  have hfilter : ws.filter (fun w => !w.inBank (fun b => d.fab.retired.any (fun x => decide (x.2 = b)))) = ws := by
    rw [List.filter_eq_self]; intro w _; simp [hgone]
  unfold Dev.land
  by_cases hw : ws = [] ∧ d.fab.held = []
  · rw [if_pos hw, hw.1]
  · rw [if_neg hw]
    have hd : (d.updFab fun f => { f with held := [] }) = d := by
      have : { d.fab with held := [] } = d.fab := by rw [← h1]
      unfold Dev.updFab; simp [this]
    have hdrain : d.drain 0 [] = (d, []) := rfl
    simp only [hfind, hfilter, h1, hsplit, h3, mirrored_none, List.map_nil, List.filter_nil, List.nil_append, List.append_nil, List.length_nil, hdrain, hd,
      List.map_map, Function.comp_def, List.map_id', beats_flatten]
    refine Prod.ext ?_ rfl
    have hr : ∀ l : List (Nat × List MemWrite), l.foldl (fun (d : Dev) x => d.repoison t (x.1 % 16) x.2) d = d := by
      intro l
      induction l with
      | nil => rfl
      | cons x l ih => simpa [Dev.repoison, h5] using ih
    exact hr _

theorem Mem.writes_cons (m : Mem) (w : MemWrite) (l : List MemWrite) : m.writes (w :: l) = (m.write w).writes l := rfl
theorem Mem.writes_append (m : Mem) (l k : List MemWrite) : m.writes (l ++ k) = (m.writes l).writes k := List.foldl_append

/-- Writes of local memory leave frame memory and last records. -/
theorem Mem.frameByte_writes_loc (l : List (Nat × Byte)) (m : Mem) (c : Nat) :
    (m.writes (l.map (fun p => .loc p.1 p.2))).frameByte c = m.frameByte c ∧ (m.writes (l.map (fun p => .loc p.1 p.2))).lastRec c = m.lastRec c := by
  induction l generalizing m with
  | nil => exact ⟨rfl, rfl⟩
  | cons p l ih => rw [List.map_cons, Mem.writes_cons]; have := ih (m.write (.loc p.1 p.2)); simpa using this

/-- The n bytes written at a read back; every other byte of frame memory, and every other memory, stands. -/
theorem Mem.frameWrites_read (m : Mem) (a n v c : Nat) :
    (m.writes (frameWrites a n v)).frameByte c =
      if a ≤ c ∧ c < a + n ∧ c < frameBytes then BitVec.ofNat 8 (v / 2 ^ (8 * (c - a))) else m.frameByte c := by
  induction n with
  | zero => simp [frameWrites, Mem.writes]; omega
  | succ n ih =>
    have e : frameWrites a (n + 1) v = frameWrites a n v ++ [.frame (a + n) (BitVec.ofNat 8 (v / 2 ^ (8 * n)))] := by
      simp [frameWrites, List.range_succ]
    rw [e, Mem.writes_append, Mem.writes_cons, show ∀ x : Mem, x.writes [] = x from fun _ => rfl]
    by_cases hc : c = a + n
    · subst hc
      by_cases hb : a + n < frameBytes
      · rw [if_pos ⟨by omega, by omega, hb⟩]
        rw [Mem.frameByte_frame_same _ _ _ hb]; congr 3; omega
      · rw [if_neg (by omega)]
        simp only [Mem.write, if_neg hb]
        rw [ih, if_neg (by omega)]
    · rw [Mem.frameByte_frame_other _ _ hc, ih]
      by_cases h : a ≤ c ∧ c < a + n ∧ c < frameBytes
      · rw [if_pos h, if_pos (by omega)]
      · rw [if_neg h, if_neg (by omega)]

theorem Mem.locWrites_read (m : Mem) (a n v c : Nat) :
    (m.writes (locWrites a n v)).locByte c =
      if a ≤ c ∧ c < a + n ∧ c < 2 ^ 20 then BitVec.ofNat 8 (v / 2 ^ (8 * (c - a))) else m.locByte c := by
  induction n with
  | zero => simp [locWrites, Mem.writes]; omega
  | succ n ih =>
    have e : locWrites a (n + 1) v = locWrites a n v ++ [.loc (a + n) (BitVec.ofNat 8 (v / 2 ^ (8 * n)))] := by
      simp [locWrites, List.range_succ]
    rw [e, Mem.writes_append, Mem.writes_cons, show ∀ x : Mem, x.writes [] = x from fun _ => rfl]
    by_cases hc : c = a + n
    · subst hc
      by_cases hb : a + n < 2 ^ 20
      · rw [if_pos ⟨by omega, by omega, hb⟩]
        rw [Mem.locByte_loc_same _ _ _ hb]; congr 3; omega
      · rw [if_neg (by omega)]
        simp only [Mem.write, if_neg hb]
        rw [ih, if_neg (by omega)]
    · rw [Mem.locByte_loc_other _ _ hc, ih]
      by_cases h : a ≤ c ∧ c < a + n ∧ c < 2 ^ 20
      · rw [if_pos h, if_pos (by omega)]
      · rw [if_neg h, if_neg (by omega)]

theorem Mem.frameWrites_keeps (m : Mem) (a n v c : Nat) :
    (m.writes (frameWrites a n v)).locByte c = m.locByte c ∧ (m.writes (frameWrites a n v)).lastRec c = m.lastRec c := by
  unfold frameWrites
  generalize List.range n = l
  induction l generalizing m with
  | nil => exact ⟨rfl, rfl⟩
  | cons i l ih => rw [List.map_cons, Mem.writes_cons]; have := ih (m.write (.frame (a + i) (BitVec.ofNat 8 (v / 2 ^ (8 * i))))); simpa using this

theorem Mem.locWrites_keeps (m : Mem) (a n v c : Nat) :
    (m.writes (locWrites a n v)).frameByte c = m.frameByte c ∧ (m.writes (locWrites a n v)).lastRec c = m.lastRec c := by
  unfold locWrites
  generalize List.range n = l
  induction l generalizing m with
  | nil => exact ⟨rfl, rfl⟩
  | cons i l ih => rw [List.map_cons, Mem.writes_cons]; have := ih (m.write (.loc (a + i) (BitVec.ofNat 8 (v / 2 ^ (8 * i))))); simpa using this

/-- A byte of a number put together from bytes. -/
theorem leNat_byte (l : List Byte) (i : Nat) (h : i < l.length) : BitVec.ofNat 8 (leNat l / 2 ^ (8 * i)) = l.getD i 0 := by
  induction l generalizing i with
  | nil => simp at h
  | cons b l ih =>
    cases i with
    | zero =>
      apply BitVec.eq_of_toNat_eq
      have := b.isLt
      simp [leNat]
      omega
    | succ i =>
      have e : leNat (b :: l) / 2 ^ (8 * (i + 1)) = leNat l / 2 ^ (8 * i) := by
        rw [show 8 * (i + 1) = 8 + 8 * i by ring, pow_add, ← Nat.div_div_eq_div_mul]
        congr 1
        have := b.isLt
        simp only [leNat]; omega
      rw [e]; simpa using ih i (by simpa using h)

end Sys2Proof.Machine
end

