-- ==== Sys2Proof/WellFormed.lean ====
section
/-! DEFINITION. WellFormed.lean: which commands a sender can form. The operand types of Syntax.lean hold unit numbers and register fields to
their widths; what is left are the lengths and the ranges of data that come from the outside. -/
namespace Sys2Proof

/-- Boot header: 32 bytes (R440). -/
def bootHeaderLength : Nat := 32
/-- A prefetch line of the flash: 64 bytes (R309). -/
def flashLineLength : Nat := 64

/-- A ring entry: 32 bytes (R411). -/
def ringEntryLength : Nat := 32

/-- A factory repair map names no more rows than the bank has spares: 8 of the last store, 16 of frame memory (R389, R430). -/
def ColdReport.wf (r : ColdReport) : Bool := r.factory.all (fun x => decide (x.2.2.val ≤ if x.1 then 8 else 16))

/-- No unit of a requester presents two beats at once (R390). -/
def distinctRequesters : List BeatReq → Bool
  | [] => true
  | r :: l => !l.any (fun x => decide (x.who = r.who ∧ x.unit = r.unit)) && distinctRequesters l

/-- A command that a sender can form. -/
def Instr.wf : Instr → Bool
  | .coldReset _ rep => rep.wf
  | .bootHeaderRead bytes => decide (bytes.length = bootHeaderLength)
  | .hpImageLine _ _ raw12 _ px => !raw12 || px.all (fun v => decide (v.toNat < 4096))
  | .plFault _ code _ _ => decide (code = 1 ∨ code = 2 ∨ code = 6)
  | .xipLineFillDone bytes => decide (bytes.length = flashLineLength)
  | .adcCalibrationDone _ meas => decide (meas.length = 8)
  | .ringEntryCopy _ entry _ => (entry.getD (List.replicate ringEntryLength 0)).length = ringEntryLength
  | .loaderWrite _ off bytes => decide (bytes ≠ []) && decide (off.toNat + bytes.length ≤ 2 ^ 20)
  | .enact _ _ _ kind _ => decide (kind.val ≤ 5)
  | .br _ cond _ => decide (cond ≠ 8)
  | .blTraining _ _ sent arrived => decide (sent ≤ arrived)
  | .fabricBeatGrant _ _ cycle _ => distinctRequesters cycle.reqs
  | .trimTick bg sens _ _ _ _ => decide (bg.length = 6) && decide (sens.length = 6)
  | _ => true

end Sys2Proof
end

