-- ==== Sys2Proof/Safety.lean ====
section
/-! DEFINITION. Safety.lean: what counts as a safe run: the memories in their canonical form, and the queue holding commands that a sender
can form. -/
namespace Sys2Proof.Machine

/-- The memories are in canonical form: addresses rising, no entry at the value that an unlisted address reads as. -/
def State.MemInv (s : State) : Prop := s.mem.wf

/-- Every waiting command is one that a sender can form. -/
def State.QueueInv (s : State) : Prop := ∀ c ∈ s.pending, c.wf = true

/-- A state that a run may reach. -/
def State.Safe (s : State) : Prop := s.MemInv ∧ s.QueueInv

end Sys2Proof.Machine
end

