-- ==== Sys2Proof/Certificates/Slice0/Obligations.lean ====
section
/-! DEFINITION. Certificates/Slice0/Obligations.lean: the statements for the provers. -/
open Sys2Proof Sys2Proof.Machine

/-! ## Words the statements share -/

namespace Sys2Proof.Claims

/-- What a command leaves of the machine outside the device: the waiting commands, the clock and the memories. -/
def deviceOnly (s t : State) : Prop := t.pending = s.pending ∧ t.clock = s.clock ∧ t.mem = s.mem

/-- Every fault record that was logged or queued stands, and `r` has joined the queue, or is counted as lost where the queue is full (R461). -/
def recorded (d e : Dev) (r : FaultRec) : Prop :=
  e.flt.log = d.flt.log ∧
    if d.flt.queue.length < 64 then e.flt.queue = d.flt.queue ++ [r] else e.flt.queue = d.flt.queue ∧ e.flt.lost = d.flt.lost + 1

/-- What the beginning of a cold reset with cause `c` leaves (R433). -/
def coldLeft (s t : State) (c : Nat) : Prop :=
  t.pending = s.pending ∧ t.clock = ⟨0, false, 0, 0⟩ ∧ (∀ a, t.mem.frameByte a = 0) ∧ (∀ a, t.mem.locByte a = 0) ∧ (∀ r, t.mem.lastRec r = 0) ∧
    (∀ a, t.dev.rd a = regReset a) ∧ (∀ x, t.dev.gen x = 0) ∧ t.dev.pw.rel0 = 0 ∧ t.dev.pw.rel1 = 0 ∧ t.dev.flt.log = [] ∧ t.dev.flt.queue = [] ∧
    t.dev.pw.core = false ∧ t.dev.pw.peri = false ∧ t.dev.pw.drive = false ∧ t.dev.pw.cause = c

/-- What the beginning of a warm reset with cause `c` leaves (R431, R433). -/
def warmLeft (s t : State) (c : Nat) : Prop :=
  t.pending = s.pending ∧ t.clock = s.clock ∧ t.mem = s.mem ∧ t.dev.pw.phase = .warm c ∧ t.dev.pw.rel0 = 0 ∧ t.dev.pw.rel1 = 0 ∧
    t.dev.flt.log = s.dev.flt.log ∧ t.dev.flt.queue = s.dev.flt.queue ∧
    (∀ a, a ≠ Reg.AN_REF_STATUS → t.dev.rd a = if keptReg a then s.dev.rd a else regReset a) ∧
    t.dev.fld Reg.AN_REF_STATUS 7 4 = s.dev.fld Reg.AN_REF_STATUS 7 4 ∧
    t.dev.pw.core = s.dev.pw.core ∧ t.dev.pw.peri = s.dev.pw.peri ∧ t.dev.pw.drive = s.dev.pw.drive ∧
    t.dev.web.enc = s.dev.web.enc ∧ t.dev.fab.retired = s.dev.fab.retired ∧ t.dev.hx.links = s.dev.hx.links ∧
    (∀ x, (t.dev.tctx x).state = .free) ∧ t.dev.tk = Tasks.reset ∧ t.dev.slots = []

/-- No shutter event is under way (R139). -/
def noShutter (d : Dev) : Prop := ∀ h, (d.lth h).shut = none

/-- Nothing stands between a write and the memories: no write waits, no bank is locked, mirrored or retired, no word is poisoned. -/
def quietMemory (d : Dev) : Prop :=
  d.fab.held = [] ∧ (∀ b, d.lockOwner b = none) ∧ d.fab.mirror = none ∧ d.fab.retired = [] ∧ d.fab.poisonFrame = []

/-- No word of frame memory reads uncorrectable: none is poisoned, and no range is retired (R387, R454). -/
def noBadWord (d : Dev) : Prop := d.fab.poisonFrame = [] ∧ d.fab.retired = []

/-- A doorbell that R411 allows: in steps of an entry or a slot, and not beyond what the ring holds. -/
def doorbellOk (d : Dev) (r : Nat) (v : Word) : Prop :=
  if d.ringIn r then v.toNat % 32 = 0 ∧ (v.toNat + 2 ^ 32 - d.rdN (Reg.HX_Rr_WR r)) % 2 ^ 32 ≤ d.ringSize r
  else v.toNat % 64 = 0 ∧ (v.toNat + 2 ^ 32 - d.rdN (Reg.HX_Rr_DB r)) % 2 ^ 32 ≤ (d.rdN (Reg.HX_Rr_WR r) + 2 ^ 32 - d.rdN (Reg.HX_Rr_DB r)) % 2 ^ 32

/-- Whether feature b is active once the window closes with acceptance words `acc` (R421). -/
def formed (acc : Nat → Nat) (d : Dev) (b : Nat) : Bool :=
  let on := fun (i : Nat) => (acc (i / 32)).testBit (i % 32) && (d.rdN (Reg.HX_FEAT_OFFERw (i / 32))).testBit (i % 32)
  decide (b = 0) || (if b = 8 then d.pw.strap else on b && (!decide (b = 5) || on 4))

/-- Nothing waits for a gap window: no swap, no activity of the ledger, and no head due for a shutter event (R137, R448). -/
def calmGap (d : Dev) : Prop := d.regs.swaps = [] ∧ d.slots = [] ∧ ∀ h, h < 8 → d.shutOn h = true → (d.lth h).due = false

/-- The gap window has opened at t's time (R45). -/
def gapOpened (s t : State) : Prop :=
  t.pending = s.pending ∧ t.dev.web.gapOpen = true ∧ t.dev.rd64 Reg.WP_GAP_T0_LO = t.clock.dtime % 2 ^ 64 ∧ t.dev.ev = s.dev.ev ++ [⟨28, 0, t.clock.dtime⟩]

/-- The gap window has closed at t's time (R45). -/
def gapClosed (s t : State) : Prop :=
  t.pending = s.pending ∧ t.dev.web.gapOpen = false ∧ t.dev.rd64 Reg.WP_GAP_T1_LO = t.clock.dtime % 2 ^ 64 ∧ t.dev.ev = s.dev.ev ++ [⟨29, 0, t.clock.dtime⟩]

/-- Pipeline p has stopped with its flag (R110). -/
def pipeStopped (t : State) (p flag : Nat) : Prop :=
  (t.dev.pipe p).faulted = true ∧ (t.dev.pipe p).cur = none ∧ (t.dev.pipe p).loading = [] ∧ t.dev.bit (Reg.PL_FAULT p) flag = true ∧
    ∀ c, c < 32 → (t.dev.ctx p c).work = none

/-- The rows that act before reset complete: supplies, PLLs, resets and what causes them, the host links, and the encoder edges, which a warm
reset lets run on (R429, R430, R432, R433). -/
def actsInReset : Instr → Bool
  | .powerOn | .supplyOutOfRange | .rstNAssert _ | .coldReset _ _ | .warmReset => true
  | .pllLock _ | .pllLockRetry _ | .pllLockLost _ | .drivePllLockLoss | .corePeriPllLockLoss _ => true
  | .glRstWrite _ _ | .watchdogExpiry | .functionLevelReset _ => true
  | .linkTrained _ _ _ | .linkLeavesActive _ | .d3hotChange _ _ | .msixUnmask _ _ => true
  | .encEdge _ _ _ _ _ => true
  | _ => false

/-- A memory request that a host makes over a link (R432). -/
def asksFromHost : Instr → Bool
  | .hostWriteReject _ _ _ _ | .loaderWrite _ _ _ | .loaderClose _ _ | .ringDoorbell _ _ _ | .ringCfgWrite _ _ _ _ | .hostBar0Read _ _ => true
  | .featAcceptWrite (.link _) _ _ | .featureCommit (.link _) _ | .contextSetup (.link _) _ _ _ | .contextRelease (.link _) _ => true
  | .contextStop (.link _) _ | .contextRestart (.link _) _ | .coreReturnToService (.link _) _ | .otherRegisterWrite (.link _) _ _ => true
  | _ => false

/-! ### Task cores -/

/-- Core k is about to execute an instruction of context c: the task runs there, its PC can be fetched, and no refused DST is on its way. -/
def issues (s : State) (k : Fin 4) (c : Nat) : Prop :=
  s.running = true ∧ s.dev.runs k = some c ∧ s.dev.fetchable (s.dev.tctx c).pc.toNat = true ∧ (s.dev.tctx c).refused = none

/-- What an instruction leaves of the machine beside context c: other contexts, other cores, and, where no write waits for a lock, the
registers, the memories and the fault records. -/
def completes (s t : State) (k : Fin 4) (c : Nat) : Prop :=
  t.pending = s.pending ∧ t.clock = s.clock ∧ (∀ e, e ≠ c → t.dev.tctx e = s.dev.tctx e) ∧
    t.dev.core k = { s.dev.core k with retired := s.clock.dtime } ∧ (∀ j, j ≠ k.val → t.dev.core j = s.dev.core j) ∧
    (s.dev.fab.held = [] → t.mem = s.mem ∧ (∀ a, t.dev.rd a = s.dev.rd a) ∧ t.dev.flt = s.dev.flt)

/-- From x to y: rd has taken v (g0 discards it), the PC has moved on, the flags are f, and nothing else of the context has changed (R322). -/
def took (x y : TaskCtx) (rd : Nat) (v : Word) (f : Flags) : Prop :=
  y.reg rd = (if rd = 0 then 0 else v) ∧ (∀ n, n ≠ rd → y.reg n = x.reg n) ∧ y.pc = x.pc + 4 ∧ y.flg = f ∧
    { y with g := x.g, pc := x.pc, flg := x.flg } = x

/-- From x to y: the PC has moved to pc and nothing else of the context has changed. -/
def jumped (x y : TaskCtx) (pc : Word) : Prop := y.pc = pc ∧ { y with pc := x.pc } = x

/-- Nothing beside the instruction stirs: no lock is held on core k, no write waits, no task is READY, and no release of c is pending. -/
def calmTask (s : State) (k : Fin 4) (c : Nat) : Prop :=
  issues s k c ∧ (s.dev.core k).locks = [] ∧ s.dev.fab.held = [] ∧ (∀ e, (s.dev.tctx e).state ≠ .ready) ∧ (s.dev.tctx c).pendAt = none

/-- Context c has taken a task fault on core k (R353, R354). -/
def faulted (s t : State) (k : Fin 4) (c code hi : Nat) (faddr : Word) : Prop :=
  t.pending = s.pending ∧ t.clock = s.clock ∧ t.mem = s.mem ∧ (t.dev.tctx c).state = .faulted ∧ (t.dev.tctx c).fpc = (s.dev.tctx c).pc ∧
    (t.dev.tctx c).pc = (s.dev.tctx c).pc ∧ (t.dev.tctx c).faddr = faddr ∧ (∀ n, (t.dev.tctx c).reg n = (s.dev.tctx c).reg n) ∧
    (t.dev.tctx c).flg = (s.dev.tctx c).flg ∧ (∀ e, e ≠ c → t.dev.tctx e = s.dev.tctx e) ∧ (t.dev.core k).ctx = none ∧
    recorded s.dev t.dev ⟨s.clock.dtime, uid 2 k 0, code, BitVec.ofNat 32 (c + hi % 2 ^ 16 * 2 ^ 16)⟩

/-- The flags after a result that clamps or not (R322, R330). -/
def clampFlags (f : Flags) (v : Word) (sat : Bool) : Flags :=
  { f with n := v.msb, z := decide (v = 0), v := sat, satn := if sat = true ∧ f.satn ≠ 0xFFFF then f.satn + 1 else f.satn }

/-- The n low bytes of v stand in frame memory from byte a, and no other byte of any memory has changed. -/
def frameStored (m m' : Mem) (a n v : Nat) : Prop :=
  (∀ i, i < n → m'.frameByte (a + i) = BitVec.ofNat 8 (v / 2 ^ (8 * i))) ∧ (∀ b, b < a ∨ a + n ≤ b → m'.frameByte b = m.frameByte b) ∧
    (∀ b, m'.locByte b = m.locByte b) ∧ ∀ r, m'.lastRec r = m.lastRec r

/-- The n low bytes of v stand in local memory from byte a, and no other byte of any memory has changed. -/
def locStored (m m' : Mem) (a n v : Nat) : Prop :=
  (∀ i, i < n → m'.locByte (a + i) = BitVec.ofNat 8 (v / 2 ^ (8 * i))) ∧ (∀ b, b < a ∨ a + n ≤ b → m'.locByte b = m.locByte b) ∧
    (∀ b, m'.frameByte b = m.frameByte b) ∧ ∀ r, m'.lastRec r = m.lastRec r

/-- Bank b is FAULTED: no fire waits, no channel is active, every gate of the next frame is off (R199, R215). -/
def bankDown (t : State) (b : Nat) : Prop :=
  (t.dev.bank b).state = 3 ∧ (t.dev.bank b).armed = false ∧ (t.dev.bank b).waiting = [] ∧ (t.dev.bank b).gates = 0 ∧ t.dev.bit (Reg.VB_FAULT b) 3 = true ∧
    ∀ c, c < 16 → (t.dev.chan b c).kind = 0 ∧ (t.dev.chan b c).run = none

/-! ### Lace engines -/

/-- Thread th of bank b may execute an instruction that is not its 64th without a WAIT (R225, R236). -/
def laceReady (s : State) (b th : Nat) : Prop :=
  s.running = true ∧ s.dev.vbOn b = true ∧ (s.dev.bank b).engineOk = true ∧ (s.dev.thread b th).run = .ready ∧ (s.dev.thread b th).since < 63

/-- The thread has become y, with one more instruction counted and its counter at the next word; the other threads stand. -/
def laceMoved (s t : State) (b th : Nat) (y : LaceThread) : Prop :=
  deviceOnly s t ∧ t.dev.thread b th = { y with pc := ((s.dev.thread b th).pc + 1) % 4096, since := (s.dev.thread b th).since + 1 } ∧
    ∀ o, o ≠ th → t.dev.thread b o = s.dev.thread b o

/-- A program error of a kind has stopped the thread, and quenches its channel (R236, R249, R250). -/
def laceFailed (s t : State) (b th kind : Nat) : Prop :=
  deviceOnly s t ∧ (t.dev.thread b th).run = .stopped ∧ (∀ o, o ≠ th → t.dev.thread b o = s.dev.thread b o) ∧
    t.dev.rd (Reg.LC_ERRPC b) = BitVec.ofNat 32 ((s.dev.thread b th).pc + 4096 * kind + 65536 * th) ∧ t.dev.bit (Reg.LC_FAULT b) 4 = true ∧
    (th < 16 → (t.dev.chan b th).kind = 5 ∧ ((s.dev.chan b th).command = false → (t.dev.chan b th).run = none))

/-- The share of core k that an item claims, in parts of 65,536 (R370). -/
def itemClaim (k : Nat) : Item → Nat
  | .task i => if i.core = k then ((i.c + 48) * 262144 + 15 * i.d - 1) / (15 * i.d) else 0
  | _ => 0

/-- The share of core k that the contracts held claim together (R370). -/
def coreClaim (d : Dev) (k : Nat) : Nat := (d.tk.contracts.map (fun c => (c.2.items.map (itemClaim k)).sum)).sum

end Sys2Proof.Claims
open Sys2Proof.Claims

/-! ## The machine as a whole -/

/-- A step runs the command at the front of the queue. What a step does on an empty queue is the model's choice (log 3). -/
def Obligations.StepRunsTheFrontCommand : Prop :=
  (∀ (c : Instr) (cs : List Instr) (s : State), step { s with pending := c :: cs } = exec c { s with pending := cs }) ∧
  ∀ s : State, s.pending = [] → ∃ t, step s = .next t ∧ t.pending = [] ∧ t.mem = s.mem ∧ t.dev = s.dev ∧ t.clock.wpos = s.clock.wpos ∧
    t.clock.dtime = s.clock.dtime + (if s.clock.drive then 1 else 0)

/-- No command faults or is refused, whatever the state, and none touches the queue. -/
def Obligations.EveryCommandAnswersNext : Prop :=
  ∀ (c : Instr) (s : State), ∃ t, exec c s = .next t ∧ t.pending = s.pending

/-- The canonical form of the memories is kept by every step, from every state that has it. -/
def Obligations.StepKeepsMemoriesCanonical : Prop :=
  ∀ s t : State, s.MemInv → step s = .next t → t.MemInv

/-- DTIME counts up, and stands while its PLL is out (R31); only a cold reset starts it again (R433). -/
def Obligations.DeviceTimeNeverRunsBack : Prop :=
  ∀ (c : Instr) (s t : State), exec c s = .next t →
    c ≠ .supplyOutOfRange → c ≠ .powerOn → (∀ ns, c ≠ .rstNAssert ns) → c ≠ .drivePllLockLoss →
    s.clock.dtime ≤ t.clock.dtime ∧ (s.clock.drive = false → t.clock.dtime = s.clock.dtime)

/-- What the spec gives of reset complete (R430, R433). -/
def Obligations.ResetLeavesTheDeviceEmpty : Prop :=
  State.reset.MemInv ∧ State.reset.pending = [] ∧ State.reset.running = true ∧
  State.reset.clock.dtime = 0 ∧ State.reset.clock.wpos = 0 ∧
  (∀ a, State.reset.mem.frameByte a = 0) ∧ (∀ a, State.reset.mem.locByte a = 0) ∧ (∀ r, State.reset.mem.lastRec r = 0) ∧
  State.reset.dev.pw.rel0 = 0 ∧ State.reset.dev.pw.rel1 = 0 ∧
  State.reset.dev.flt.log = [] ∧ State.reset.dev.flt.queue = [] ∧
  (∀ c, (State.reset.dev.tctx c).state = .free) ∧ (∀ l, (State.reset.dev.link l).active = false) ∧ State.reset.dev.hx.loader = true ∧
  State.reset.dev.regRead State.reset.mem State.reset.now .debug Reg.GL_STATUS = (61, State.reset.dev)

/-- Nothing but the rows named acts before reset complete. -/
def Obligations.NothingActsDuringReset : Prop :=
  (∀ (c : Instr) (s t : State), s.running = false → exec c s = .next t → actsInReset c = false →
    asksFromHost c = false ∨ (∀ x, s.dev.pw.phase ≠ .warm x) → t.dev = s.dev ∧ t.mem = s.mem ∧ t.clock.wpos = s.clock.wpos) ∧
  (∀ (c : Instr) (s : State) (x : Nat), s.dev.pw.phase = .warm x → asksFromHost c = true →
    exec c s = .next { s with dev := { s.dev with hx := { s.dev.hx with waiting := s.dev.hx.waiting ++ [c] } } }) ∧
  ∀ (c : Instr) (s : State) (x : Nat), s.dev.pw.phase = .warm x → asksFromHost c = true → s.dev.hx.waiting = [c] →
    s.dev.pw.core = true → s.dev.pw.peri = true →
    ∃ t, exec .warmReset { s with dev := { s.dev with hx := { s.dev.hx with waiting := [] } } } = .next t ∧ t.running = true ∧
      exec .warmReset s = exec c t

/-! ## Supplies, PLLs and resets (R426 to R444) -/

/-- The four beginnings of a cold reset, and what each leaves and the way to the state right after reset (R427, R428, R430, R433).
Rows stated to complete: SUPPLY_OUT_OF_RANGE, POWER_ON, RST_N_ASSERT, DRIVE_PLL_LOCK_LOSS, PLL_LOCK, COLD_RESET. -/
def Obligations.ColdCausesClearTheDevice : Prop :=
  ∀ s : State,
    (∃ t, exec .supplyOutOfRange s = .next t ∧ coldLeft s t 1 ∧ t.dev.pw.phase = .off) ∧
    (s.dev.pw.phase = .off → ∃ t, exec .powerOn s = .next t ∧ coldLeft s t 1 ∧ t.dev.pw.phase = .cold) ∧
    (∀ ns, 1000 ≤ ns → s.dev.pw.phase ≠ .off → ∃ t, exec (.rstNAssert ns) s = .next t ∧ coldLeft s t 2 ∧ t.dev.pw.phase = .cold) ∧
    (∀ ns, ns < 1000 → exec (.rstNAssert ns) s = .next s) ∧
    (s.dev.pw.phase ≠ .off → s.dev.pw.phase ≠ .cold ∨ s.clock.drive = true → s.dev.pw.drive = false →
      ∃ t, exec .drivePllLockLoss s = .next t ∧ coldLeft s t 3 ∧ t.dev.pw.phase = .cold) ∧
    ∀ (serial : Dword) (check : Byte), crc8 (leBytes 8 serial.toNat) = check.toNat → ∃ a b c d e t,
      exec .supplyOutOfRange s = .next a ∧ exec .powerOn a = .next b ∧
      exec (.pllLock 0) b = .next c ∧ exec (.pllLock 1) c = .next d ∧ exec (.pllLock 2) d = .next e ∧
      exec (.coldReset false ⟨serial, check, 0, [], []⟩) e = .next t ∧
      t = { State.reset with pending := s.pending, dev := { Dev.reset.linksTrain with sent := s.dev.sent, free := s.dev.free, pw := { Power.reset with serial := serial, check := check } } }

/-- Warm resets: causes, what is kept, and the end (R428, R431, R433).
Rows stated to complete: GL_RST_WRITE, FUNCTION_LEVEL_RESET, CORE_PERI_PLL_LOCK_LOSS, WARM_RESET. -/
def Obligations.WarmResetKeepsAndEnds : Prop :=
  (∀ (s : State) (k : Fin 4) (x : Nat), s.running = true → s.dev.pw.firstKey = some (.core k, x) → s.clock.dtime ≤ x + 400000 →
    ∃ t, exec (.glRstWrite (.core k) 0x5AA5) s = .next t ∧ warmLeft s t 4) ∧
  (∀ (s : State) (l : Fin 2), s.running = true → s.dev.bit Reg.GL_CFG 0 = true →
    ∃ t, exec (.functionLevelReset l) s = .next t ∧ t.clock = s.clock ∧ t.mem = s.mem ∧ t.pending = s.pending ∧ t.dev.pw.phase = .warm (6 + l) ∧
      t.dev.pw.rel0 = 0 ∧ t.dev.pw.rel1 = 0 ∧ (t.dev.link l).msix = [] ∧ (t.dev.link l).d3hot = false) ∧
  (∀ (s : State) (peri : Bool), s.running = true → s.dev.pw.locked (if peri then 1 else 0) = false →
    ∃ t, exec (.corePeriPllLockLoss peri) s = .next t ∧ warmLeft s t 8) ∧
  ∀ (s : State) (c : Nat), s.dev.pw.phase = .warm c → s.dev.pw.core = true → s.dev.pw.peri = true → s.dev.pw.strap = false →
    s.dev.hx.waiting = [] →
    ∃ t, exec .warmReset s = .next t ∧ deviceOnly s t ∧ t.running = true ∧ t.dev.pw.cause = c ∧
      t.dev.pw.warmCount = min 65535 (s.dev.pw.warmCount + 1) ∧ t.dev.hx.loader = true ∧
      recorded s.dev t.dev ⟨s.clock.dtime, uid 0 3 0, 1, BitVec.ofNat 32 c⟩

/-- The keys of GL_RST and the watchdog (R428, R443, R444).
Rows stated to complete: GL_RST_WRITE, GL_RST_PAIR_EXPIRE, WATCHDOG_WRITE, WATCHDOG_KICK, WATCHDOG_EXPIRY. -/
def Obligations.ResetKeysAndWatchdog : Prop :=
  ∀ s : State, s.running = true →
    (∀ k : Fin 4, ∃ t, exec (.glRstWrite (.core k) 0xA55A) s = .next t ∧ deviceOnly s t ∧
      t.dev = { s.dev with pw := { s.dev.pw with firstKey := some (.core k, s.clock.dtime) } }) ∧
    (∀ who v, v ≠ 0xA55A → v ≠ 0x5AA5 → ∃ t, exec (.glRstWrite who v) s = .next t ∧ deviceOnly s t ∧
      t.dev = { s.dev with pw := { s.dev.pw with firstKey := none } }) ∧
    (∀ who x, s.dev.pw.firstKey = some (who, x) → ∃ t, exec .glRstPairExpire s = .next t ∧ t.mem = s.mem ∧
      t.clock = s.clock.reach (x + 400000) ∧ t.dev = { s.dev with pw := { s.dev.pw with firstKey := none } }) ∧
    (∀ v, ∃ t, exec (.watchdogWrite v) s = .next t ∧ deviceOnly s t ∧ t.dev.rd Reg.GL_WDOG = (v &&& 0x80FFFFFF) ∧
      t.dev.pw = { s.dev.pw with wdogFrom := s.clock.dtime } ∧ ∀ a, a ≠ Reg.GL_WDOG → t.dev.rd a = s.dev.rd a) ∧
    (∀ v : Word, v.toNat % 65536 = 0xC0DE → ∃ t, exec (.watchdogKick v) s = .next t ∧ deviceOnly s t ∧
      t.dev = { s.dev with pw := { s.dev.pw with wdogFrom := s.clock.dtime } }) ∧
    (∀ v : Word, v.toNat % 65536 ≠ 0xC0DE → exec (.watchdogKick v) s = .next s) ∧
    ∀ n, s.dev.bit Reg.GL_WDOG 31 = true → s.dev.fld Reg.GL_WDOG 23 0 = n → 0 < n →
      ∃ t, exec .watchdogExpiry s = .next t ∧ t.mem = s.mem ∧ t.clock = s.clock.reach (s.dev.pw.wdogFrom + 65536 * n) ∧
        t.dev.pw.phase = .warm 5 ∧ t.dev.pw.rel0 = 0 ∧ t.dev.pw.rel1 = 0 ∧
        recorded s.dev t.dev ⟨t.clock.dtime, uid 0 3 0, 7, BitVec.ofNat 32 (t.clock.dtime % 2 ^ 32)⟩

/-- Pins, unit resets and PLLs (R430, R434, R436, R441, R443).
Rows stated to complete: PIN_RELEASE, PIN_HOLD, UNIT_RESET_REQUEST, UNIT_RESET_DONE, FUNCTION_LEVEL_RESET, PLL_LOCK, PLL_LOCK_RETRY, PLL_LOCK_LOST. -/
def Obligations.PinsUnitResetsAndPlls : Prop :=
  (∀ (s : State) (v : Word), s.running = true →
    (∃ t, exec (.pinRelease false v) s = .next t ∧ deviceOnly s t ∧
      t.dev = { s.dev with pw := { s.dev.pw with rel0 := s.dev.pw.rel0 ||| (v &&& ~~~(s.dev.pw.heldIn s.clock.dtime false) &&& 0xFFFFF) } }) ∧
    (∃ t, exec (.pinRelease true v) s = .next t ∧ deviceOnly s t ∧
      t.dev = { s.dev with pw := { s.dev.pw with rel1 := s.dev.pw.rel1 ||| (v &&& ~~~(s.dev.pw.heldIn s.clock.dtime true) &&& 0xFFFFFFF) } }) ∧
    (∃ t, exec (.pinHold false v) s = .next t ∧ deviceOnly s t ∧
      t.dev = { s.dev with pw := { s.dev.pw with rel0 := s.dev.pw.rel0 &&& ~~~v, holdAt := s.clock.dtime, hold0 := s.dev.pw.heldIn s.clock.dtime false ||| v, hold1 := s.dev.pw.heldIn s.clock.dtime true } }) ∧
    (∃ t, exec (.pinHold true v) s = .next t ∧ deviceOnly s t ∧
      t.dev = { s.dev with pw := { s.dev.pw with rel1 := s.dev.pw.rel1 &&& ~~~v, holdAt := s.clock.dtime, hold0 := s.dev.pw.heldIn s.clock.dtime false, hold1 := s.dev.pw.heldIn s.clock.dtime true ||| v } })) ∧
  (∀ (s : State) (v : Word), s.running = true → s.dev.pw.urst = none →
    ∃ t, exec (.unitResetRequest v) s = .next t ∧ deviceOnly s t ∧ t.dev.pw.urstUnit = v.toNat % 65536 / 32 * 32 ∧
      t.dev.pw.urstStat = (if hasUnitReset (v.toNat % 65536 / 32 * 32) = false then 2
        else if s.dev.inService (v.toNat % 65536 / 32 * 32) then 3 else 1) ∧
      (t.dev.pw.urstStat = 1 ↔ t.dev.pw.urst = some ⟨v.toNat % 65536 / 32 * 32⟩)) ∧
  (∀ (s : State) (v : Word), s.running = true → s.dev.pw.urst.isSome = true → exec (.unitResetRequest v) s = .next s) ∧
  (∀ (s : State) (n : Fin 4), s.running = true → s.dev.fab.held = [] → s.dev.pw.urst = some ⟨uid 12 (4 + n) 0⟩ →
    ∃ t, exec .unitResetDone s = .next t ∧ deviceOnly s t ∧ t.dev.pw.urst = none ∧ t.dev.pw.urstStat = 0) ∧
  (∀ (s : State) (l : Fin 2), s.running = true → s.dev.bit Reg.GL_CFG 0 = false → (s.dev.link l).active = false →
    ∃ t, exec (.functionLevelReset l) s = .next t ∧ deviceOnly s t ∧ t.running = true ∧ (t.dev.link l).msix = [] ∧ (t.dev.link l).d3hot = false) ∧
  ∀ (s : State) (p : Fin 3), s.dev.pw.phase ≠ .off →
    (s.dev.pw.locked p = false →
      (∃ t, exec (.pllLock p) s = .next t ∧ t.mem = s.mem ∧ t.dev.pw.locked p = true ∧ (∀ q : Fin 3, q ≠ p → t.dev.pw.locked q = s.dev.pw.locked q) ∧
        t.clock = { s.clock with drive := s.clock.drive || decide (p = 2) }) ∧
      ∃ t, exec (.pllLockRetry p) s = .next t ∧ deviceOnly s t ∧ t.dev.pw.attempts.getD p 1 = s.dev.pw.attempts.getD p 1 + (if p < s.dev.pw.attempts.length then 1 else 0)) ∧
    (s.dev.pw.locked p = true → ∃ t, exec (.pllLockLost p) s = .next t ∧ deviceOnly s t ∧ t.dev.pw.locked p = false ∧
      t.dev.bit Reg.GL_FAULT 4 = true ∧
      recorded s.dev t.dev ⟨s.clock.dtime, uid 0 0 (1 + p), 5, BitVec.ofNat 32 (s.dev.pw.attempts.getD p 1)⟩)

/-- The boot header (R440, R441).
Row stated to complete: BOOT_HEADER_READ. -/
def Obligations.BootHeaderStartsOrFallsBack : Prop :=
  ∀ (s : State) (bytes : List Byte), s.running = true → s.dev.pw.bootValid = false → s.dev.pw.bootFallback = false →
    (s.dev.pw.strap = false → exec (.bootHeaderRead bytes) s = .next s) ∧
    (s.dev.pw.strap = true → headerErrors bytes ≠ 0 → ∃ t, exec (.bootHeaderRead bytes) s = .next t ∧ deviceOnly s t ∧
      t.dev.pw.bootFallback = true ∧ t.dev.pw.bootValid = false ∧ t.dev.bit Reg.SP_XIP_CFG 0 = false ∧
      t.dev.pw.rel0 = (s.dev.pw.rel0 &&& 0xBFFFF) ∧ t.dev.pw.rel1 = (s.dev.pw.rel1 &&& 0xFEFFFFF) ∧
      recorded s.dev t.dev ⟨s.clock.dtime, uid 0 3 0, 6, BitVec.ofNat 32 (headerErrors bytes)⟩) ∧
    (s.dev.pw.strap = true → headerErrors bytes = 0 → ∃ t, exec (.bootHeaderRead bytes) s = .next t ∧ deviceOnly s t ∧
      t.dev.pw = { s.dev.pw with bootValid := true } ∧ t.dev.flt = s.dev.flt ∧
      (t.dev.tctx 0).entry = BitVec.ofNat 32 (0x40000000 + leNat ((bytes.drop 4).take 4)) ∧ (t.dev.tctx 0).pc = (t.dev.tctx 0).entry ∧
      (t.dev.tctx 0).core = 0 ∧ (t.dev.tctx 0).item = none ∧ (t.dev.tctx 0).releases = 1 ∧ (∀ n, (t.dev.tctx 0).reg n = 0) ∧
      (t.dev.tctx 0).flg = Flags.reset ∧ ((t.dev.tctx 0).state = .ready ∨ (t.dev.tctx 0).state = .running) ∧
      ((s.dev.core 0).ctx = none → (s.dev.core 0).service = true → (∀ k, (s.dev.core k).out = none) → (∀ e, (s.dev.tctx e).state ≠ .ready) →
        (t.dev.tctx 0).state = .running ∧ (t.dev.core 0).ctx = some 0 ∧ (∀ k, k ≠ 0 → t.dev.core k = s.dev.core k) ∧
        (∀ e, e ≠ 0 → t.dev.tctx e = s.dev.tctx e) ∧ ∀ a, a ≠ Reg.TK_CNT_SWITCH → t.dev.rd a = s.dev.rd a))

/-! ## Web position and rows (R31 to R53) -/

/-- ENC_EDGE (R33 to R35).
Row stated to complete: ENC_EDGE. -/
def Obligations.EncoderCountMovesWebPosition : Prop :=
  ∀ (s : State) (dt : Nat) (n : Fin 4) (a b : Bool) (stable : Nat), s.running = true → s.dev.takeEn = false →
    s.dev.fld (Reg.WP_ENCn_CFG n) 1 0 = 2 →
    let old := s.dev.encPins n
    let time := (s.clock.pass dt).dtime
    (stable < s.dev.fld (Reg.WP_ENCn_CFG n) 15 8 →
      ∃ t, exec (.encEdge dt n a b stable) s = .next t ∧ t.pending = s.pending ∧ t.mem = s.mem ∧ t.dev = s.dev ∧ t.clock = s.clock.pass dt) ∧
    (s.dev.fld (Reg.WP_ENCn_CFG n) 15 8 ≤ stable → (a = old.a ↔ b ≠ old.b) →
      ∃ t fwd, exec (.encEdge dt n a b stable) s = .next t ∧ t.pending = s.pending ∧ t.mem = s.mem ∧
        fwd = xor (if a = old.a then decide (a = b) else decide (a ≠ b)) (s.dev.bit (Reg.WP_ENCn_CFG n) 2) ∧
        t.clock.dtime = time ∧ t.dev.encPins n = ⟨a, b⟩ ∧
        t.dev.rd (Reg.WP_ENCn_COUNT n) = (if fwd then s.dev.rd (Reg.WP_ENCn_COUNT n) + 1 else s.dev.rd (Reg.WP_ENCn_COUNT n) - 1) ∧
        t.dev.rd (Reg.WP_ENCn_EDGE_LO n) = BitVec.ofNat 32 time ∧
        (if n.val = s.dev.source ∧ s.dev.wposEn = true then
          ∃ k : Int, 4096 * t.clock.wpos + t.clock.frac
            = 4096 * s.clock.wpos + s.clock.frac + (if fwd then 1 else -1) * s.dev.rdN (Reg.WP_ENCn_SCALE n) + k * 2 ^ 76 ∧ t.clock.frac < 4096 ∧
            -(2 ^ 63) ≤ t.clock.wpos ∧ t.clock.wpos < 2 ^ 63
        else t.clock.wpos = s.clock.wpos ∧ t.clock.frac = s.clock.frac)) ∧
    (s.dev.fld (Reg.WP_ENCn_CFG n) 15 8 ≤ stable → a ≠ old.a → b ≠ old.b → s.dev.rdN (Reg.WP_ENCn_ILLEGAL n) + 1 < 2 ^ 32 →
      ∃ t, exec (.encEdge dt n a b stable) s = .next t ∧ t.pending = s.pending ∧ t.mem = s.mem ∧ t.clock = s.clock.pass dt ∧ t.dev.encPins n = ⟨a, b⟩ ∧
        t.dev.rdN (Reg.WP_ENCn_ILLEGAL n) = s.dev.rdN (Reg.WP_ENCn_ILLEGAL n) + 1 ∧ t.dev.rd (Reg.WP_ENCn_COUNT n) = s.dev.rd (Reg.WP_ENCn_COUNT n))

/-- SPEED_STOP_TIMEOUT, EVT_PULSE_END, HSY_PULSE_END and ROW_EMIT (R36, R41, R42, R47, R48).
Rows stated to complete: SPEED_STOP_TIMEOUT, EVT_PULSE_END, HSY_PULSE_END, ROW_EMIT. -/
def Obligations.SpeedStopsPulsesEndRowsAreEmitted : Prop :=
  ∀ s : State, s.running = true →
    (s.dev.web.slip.stopped = false → ∃ t, exec .speedStopTimeout s = .next t ∧ t.mem = s.mem ∧
      t.clock = s.clock.reach (s.dev.web.slip.lastCount + 4194304) ∧ t.dev.rd Reg.WP_SPEED = 0 ∧ t.dev.web.slip.stopped = true ∧
      ∀ a, a ≠ Reg.WP_SPEED → t.dev.rd a = s.dev.rd a) ∧
    (s.dev.web.slip.stopped = true → exec .speedStopTimeout s = .next s) ∧
    (∀ (n : Fin 4) (x : Nat), (s.dev.evtPin n).pulseEnd = some x → ∃ t, exec (.evtPulseEnd n) s = .next t ∧ t.mem = s.mem ∧ t.clock = s.clock.reach x ∧
      t.dev.evtPin n = ⟨xor (s.dev.bit (Reg.WP_EVTn_CFG n) 10) (decide (s.dev.fld (Reg.WP_EVTn_CFG n) 9 8 = 3) && s.dev.web.gapOpen), none⟩ ∧ (∀ m : Fin 4, m ≠ n → t.dev.evtPin m = s.dev.evtPin m) ∧ (∀ m, t.dev.hsyPin m = s.dev.hsyPin m) ∧ t.dev.regs = s.dev.regs) ∧
    (∀ (n : Fin 8) (x : Nat), (s.dev.hsyPin n).pulseEnd = some x → ∃ t, exec (.hsyPulseEnd n) s = .next t ∧ t.mem = s.mem ∧ t.clock = s.clock.reach x ∧
      t.dev.hsyPin n = ⟨s.dev.bit (Reg.WP_HSYn_CFG n) 1, none⟩ ∧ (∀ m : Fin 8, m ≠ n → t.dev.hsyPin m = s.dev.hsyPin m) ∧ (∀ m, t.dev.evtPin m = s.dev.evtPin m) ∧ t.dev.regs = s.dev.regs) ∧
    ∀ (n : Fin 8) (p : Int), s.dev.regs.swaps = [] → (∀ b, b < 8 → s.dev.vbOn b = false) → (∀ l, l < 4 → (s.dev.layer l).on = false) →
      (s.dev.rowGen n).next = some p → s.dev.rgTime n = false → p ≤ s.clock.wpos → (s.dev.rowGen n).rows + 1 < 2 ^ 32 →
      ∃ t, exec (.rowEmit n) s = .next t ∧ t.pending = s.pending ∧ t.mem = s.mem ∧ t.clock.wpos = s.clock.wpos ∧
        t.clock = s.clock.reach (if (s.dev.rowGen n).since = 0 then s.clock.dtime else (s.dev.rowGen n).last + 1) ∧
        (t.dev.rowGen n).next = some (p + s.dev.rdN (Reg.WP_RGn_PITCH n)) ∧ (t.dev.rowGen n).pos = p ∧
        (t.dev.rowGen n).rows = (s.dev.rowGen n).rows + 1 ∧ t.dev.rdN (Reg.WP_RGn_ROWNUM n) = (s.dev.rowGen n).rows + 1 ∧
        t.dev.ev = s.dev.ev ++ [⟨16 + n.val, BitVec.ofNat 32 (s.dev.rowGen n).rows, t.clock.dtime⟩]

/-- GAP_SOFTWARE_OPEN, GAP_PLAN_DUE, TRG_EDGE, GAP_SOFTWARE_CLOSE, GAP_LENGTH_REACHED, GAP_FORCED_CLOSE and the plan's rows (R44 to R46, R52).
Rows stated to complete: GAP_PLAN_LO_WRITE, GAP_PLAN_HI_WRITE, GAP_PLAN_DISARM, GAP_SOFTWARE_OPEN, GAP_PLAN_DUE, TRG_EDGE, GAP_SOFTWARE_CLOSE, GAP_LENGTH_REACHED, GAP_FORCED_CLOSE. -/
def Obligations.GapWindowOpensAndCloses : Prop :=
  ∀ s : State, s.running = true →
    (∀ v : Word,
      (∃ t, exec (.gapPlanLoWrite v) s = .next t ∧ deviceOnly s t ∧ t.dev.web.planArmed = none ∧ t.dev.rd Reg.WP_GAP_PLAN_LO = v ∧
        ∀ a, a ≠ Reg.WP_GAP_PLAN_LO → t.dev.rd a = s.dev.rd a) ∧
      (∃ t, exec (.gapPlanHiWrite v) s = .next t ∧ deviceOnly s t ∧ t.dev.web.planArmed = some s.clock.dtime ∧ t.dev.rd Reg.WP_GAP_PLAN_HI = v ∧
        ∀ a, a ≠ Reg.WP_GAP_PLAN_HI → t.dev.rd a = s.dev.rd a) ∧
      ∃ t, exec .gapPlanDisarm s = .next t ∧ deviceOnly s t ∧ t.dev.web.planArmed = none ∧ t.dev.regs = s.dev.regs) ∧
    (calmGap s.dev →
    (∀ dt, 0 < dt → s.dev.web.gapOpen = false → ∃ t, exec (.gapSoftwareOpen dt) s = .next t ∧ t.mem = s.mem ∧ t.clock = s.clock.pass dt ∧ gapOpened s t) ∧
    (∀ x, s.dev.web.gapOpen = false → s.dev.web.gapLast = none → s.dev.web.planArmed = some x → s.clock.drive = true →
      (BitVec.ofNat 64 (s.dev.rd64 Reg.WP_GAP_PLAN_LO)).toInt ≤ s.clock.wpos →
      ∃ t, exec .gapPlanDue s = .next t ∧ t.mem = s.mem ∧ t.clock = s.clock.reach (x + 1) ∧ gapOpened s t ∧ t.dev.web.planArmed = none) ∧
    (∀ dt (n : Fin 4) level stable, 0 < dt → s.dev.web.gapOpen = false → level ≠ s.dev.trgLevel n → s.dev.fld (Reg.WP_TRGn_CFG n) 15 8 ≤ stable →
      s.dev.fld (Reg.WP_TRGn_CFG n) 1 0 = 0 → s.dev.fld Reg.WP_GAP_CFG 2 0 = n.val + 1 → s.dev.bit Reg.WP_GAP_CFG 3 = !level →
      s.dev.fld Reg.WP_GAP_CFG 6 4 ≠ n.val + 1 →
      ∃ t, exec (.trgEdge dt n level stable) s = .next t ∧ t.mem = s.mem ∧ t.clock = s.clock.pass dt ∧ gapOpened s t ∧ t.dev.trgLevel n = level) ∧
    (∀ dt (n : Fin 4) level stable, level ≠ s.dev.trgLevel n → stable < s.dev.fld (Reg.WP_TRGn_CFG n) 15 8 → s.dev.rdN (Reg.WP_TRGn_GLITCH n) + 1 < 2 ^ 32 →
      ∃ t, exec (.trgEdge dt n level stable) s = .next t ∧ t.mem = s.mem ∧ t.clock = s.clock.pass dt ∧ t.dev.web = s.dev.web ∧
        t.dev.rdN (Reg.WP_TRGn_GLITCH n) = s.dev.rdN (Reg.WP_TRGn_GLITCH n) + 1 ∧ ∀ a, a ≠ Reg.WP_TRGn_GLITCH n → t.dev.rd a = s.dev.rd a) ∧
    (∀ dt, 0 < dt → s.dev.web.gapOpen = true → ∃ t, exec (.gapSoftwareClose dt) s = .next t ∧ t.mem = s.mem ∧ t.clock = s.clock.pass dt ∧ gapClosed s t) ∧
    (s.dev.web.gapOpen = true → s.dev.bit Reg.WP_GAP_CFG 8 = true → s.dev.bit Reg.WP_GAP_CFG 9 = true → s.clock.drive = true →
      s.clock.dtime ≤ s.dev.rd64 Reg.WP_GAP_T0_LO + max 1 (s.dev.rdN Reg.WP_GAP_LEN) → s.dev.web.gapLast = some (s.dev.rd64 Reg.WP_GAP_T0_LO, true) →
      ∃ t, exec .gapLengthReached s = .next t ∧ t.mem = s.mem ∧ t.clock.dtime = s.dev.rd64 Reg.WP_GAP_T0_LO + max 1 (s.dev.rdN Reg.WP_GAP_LEN) ∧ gapClosed s t) ∧
    (s.dev.web.gapOpen = true → s.dev.rdN Reg.WP_GAP_MAX ≠ 0 → s.dev.bit Reg.WP_GAP_CFG 8 = false → s.dev.bit Reg.WP_GAP_CFG 9 = true → s.clock.drive = true →
      s.clock.dtime ≤ s.dev.rd64 Reg.WP_GAP_T0_LO + s.dev.rdN Reg.WP_GAP_MAX → s.dev.web.gapLast = some (s.dev.rd64 Reg.WP_GAP_T0_LO, true) →
      ∃ t, exec .gapForcedClose s = .next t ∧ t.mem = s.mem ∧ t.clock.dtime = s.dev.rd64 Reg.WP_GAP_T0_LO + s.dev.rdN Reg.WP_GAP_MAX ∧ gapClosed s t ∧
        recorded s.dev t.dev ⟨t.clock.dtime, uid 11 0 0, 5, BitVec.ofNat 32 (s.dev.rdN Reg.WP_GAP_MAX % 2 ^ 32)⟩) ∧
    ∀ dt, 0 < dt → s.dev.web.gapOpen = true → s.dev.rdN Reg.WP_GAP_REJECT + 1 < 2 ^ 32 →
      ∃ t, exec (.gapSoftwareOpen dt) s = .next t ∧ t.mem = s.mem ∧ t.clock = s.clock.pass dt ∧ t.dev.web = s.dev.web ∧ t.dev.ev = s.dev.ev ∧
        t.dev.rdN Reg.WP_GAP_REJECT = s.dev.rdN Reg.WP_GAP_REJECT + 1)

/-- TIMER_ARM, TIMER_TARGET_WRITE and TIMER_MATCH (R49, R50).
Rows stated to complete: TIMER_ARM, TIMER_TARGET_WRITE, TIMER_MATCH. -/
def Obligations.TimersArmFireAndDisarm : Prop :=
  ∀ (s : State) (n : Fin 128), s.running = true →
    (∀ v : Word, v.toNat.testBit 0 = true → ¬ (v.toNat.testBit 1 = true ∧ s.dev.rdN (Reg.WP_TMn_PERIOD n) < 4) →
      ∃ t, exec (.timerArm n v) s = .next t ∧ deviceOnly s t ∧ t.dev.tmArmed n = true ∧ t.dev.bit (Reg.WP_TMn_CTL n) 1 = v.toNat.testBit 1 ∧
        t.dev.bit (Reg.WP_TMn_CTL n) 2 = v.toNat.testBit 2 ∧ (t.dev.timer n).at_ = s.clock.dtime ∧
        ((t.dev.timer n).late = true ↔ t.dev.tmTarget n < t.dev.tmBase s.now n) ∧ ∀ a, a ≠ Reg.WP_TMn_CTL n → t.dev.rd a = s.dev.rd a) ∧
    (∀ v : Word, v.toNat.testBit 0 = true → v.toNat.testBit 1 = true → s.dev.rdN (Reg.WP_TMn_PERIOD n) < 4 →
      ∃ t, exec (.timerArm n v) s = .next t ∧ deviceOnly s t ∧ t.dev.tmArmed n = false ∧ t.dev.bit (Reg.WP_TMn_CTL n) 4 = true) ∧
    (∀ hi v, ∃ t, exec (.timerTargetWrite n hi v) s = .next t ∧ deviceOnly s t ∧
      t.dev.rd (if hi then Reg.WP_TMn_TGT_HI n else Reg.WP_TMn_TGT_LO n) = v ∧ t.dev.tmArmed n = false ∧
      (s.dev.tmArmed n = true → t.dev.bit (Reg.WP_TMn_CTL n) 4 = true)) ∧
    (s.dev.tmArmed n = true → (s.dev.timer n).late = false → s.dev.bit (Reg.WP_TMn_CTL n) 2 = false → s.clock.drive = true →
      s.clock.dtime ≤ s.dev.rd64 (Reg.WP_TMn_TGT_LO n) →
      ∃ t, exec (.timerMatch n) s = .next t ∧ t.pending = s.pending ∧ t.mem = s.mem ∧ t.clock.dtime = s.dev.rd64 (Reg.WP_TMn_TGT_LO n) ∧
        t.dev.tmArmed n = s.dev.bit (Reg.WP_TMn_CTL n) 1 ∧
        t.dev.rd64 (Reg.WP_TMn_TGT_LO n) = (if s.dev.bit (Reg.WP_TMn_CTL n) 1 then
          (s.dev.rd64 (Reg.WP_TMn_TGT_LO n) + s.dev.rdN (Reg.WP_TMn_PERIOD n)) % 2 ^ 64 else s.dev.rd64 (Reg.WP_TMn_TGT_LO n)) ∧
        t.dev.ev = s.dev.ev ++ [⟨128 + n.val, 0, t.clock.dtime⟩])

/-! ## Head ports (R54 to R77) -/

/-- HP_FRAME_START (R66, R71).
Row stated to complete: HP_FRAME_START. -/
def Obligations.FrameStartOpensAFrame : Prop :=
  ∀ (s : State) (dt : Nat) (n : Fin 8) (hdr : Hdr), s.running = true → hdr ≠ .lost → s.dev.regs.swaps = [] →
    (s.dev.hpOf n).state ≠ .disabled → (s.dev.hpOf n).out = false → ((s.dev.hpOf n).state = .absent → (s.dev.hpOf n).held = false) →
    (s.dev.hpOf n).openFrame = none →
    ∃ t f, exec (.hpFrameStart dt n hdr) s = .next t ∧ t.pending = s.pending ∧ t.clock = s.clock.pass dt ∧ t.mem = s.mem ∧
      (t.dev.hpOf n).seq = ((s.dev.hpOf n).seq + 1) % 2 ^ 32 ∧ (t.dev.hpOf n).lastStart = t.clock.dtime ∧
      (t.dev.hpOf n).openFrame = some f ∧ f.seq = (t.dev.hpOf n).seq ∧ f.dtime = t.clock.dtime ∧ f.wpos = t.clock.wpos ∧ f.lines = [] ∧
      f.cols = s.dev.fld (Reg.HP_GEOM n) 11 0 ∧ f.rows = s.dev.fld (Reg.HP_GEOM n) 27 16 ∧ f.blind = s.dev.fld (Reg.HP_BLIND n) 4 0 ∧
      (∀ c k, s.dev.carrier n = some c → f.slot = some k → s.dev.bit (Reg.PL_Sx_CFG c.1 c.2) 4 = false ∧ k < 2 ∧
        (∀ g ∈ (s.dev.hpOf n).frames, g.slot ≠ some k) ∧
        f.slotAt = s.dev.rdN (Reg.PL_Sx_SLOT c.1 c.2) + k * ((f.total * f.cols * 2 + 63) / 64 * 64)) ∧
      ((s.dev.hpOf n).state = .absent → (t.dev.hpOf n).state = .ident ∧ ((t.dev.hpOf n).ctl.head?.map CtlTrans.serial) = some true) ∧
      t.dev.ev = s.dev.ev ++ [⟨n.val, BitVec.ofNat 32 f.seq, t.clock.dtime⟩] ∧
      ∀ m : Fin 8, m ≠ n → t.dev.hpOf m = s.dev.hpOf m

/-- HP_IMAGE_LINE (R55, R68, R107).
Row stated to complete: HP_IMAGE_LINE. -/
def Obligations.ImageLineJoinsTheFrame : Prop :=
  ∀ (s : State) (n : Fin 8) (hdr : Hdr) (raw12 : Bool) (px : List (BitVec 14)) (f : HFrame), s.running = true → hdr ≠ .lost →
    s.dev.receiving n 0 = true → (s.dev.hpOf n).openFrame = some f → f.dropped = false → f.lost = 0 → (f.inline = true → (s.dev.hpOf n).lineQueue < 4) →
    raw12 = s.dev.bit (Reg.HP_CFG n) 2 → f.lines.length < f.total → px.length ≤ f.cols → quietMemory s.dev →
    let raw := px.map (fun v => if raw12 then v.toNat % 4096 * 4 else v.toNat)
    let line := raw ++ List.replicate (f.cols - raw.length) (s.dev.fld (Reg.HP_FILL n) 13 0)
    ∃ t g, exec (.hpImageLine n hdr raw12 true px) s = .next t ∧ t.pending = s.pending ∧ t.clock = s.clock ∧
      (t.dev.hpOf n).openFrame = some g ∧ g.lines.map HLine.px = f.lines.map HLine.px ++ [line] ∧ g.seq = f.seq ∧
      (px.length < f.cols → g.flags.testBit 3 = true ∧
        (s.dev.rdN (Reg.HP_CNT_PAD n) + 1 < 2 ^ 32 → t.dev.rdN (Reg.HP_CNT_PAD n) = s.dev.rdN (Reg.HP_CNT_PAD n) + 1)) ∧
      (px.length = f.cols → g.flags = f.flags) ∧
      (f.slot = none → t.mem = s.mem) ∧
      ∀ k, f.slot = some k →
        let base := f.slotAt + f.lines.length * f.cols * 2
        (∀ a, a < base ∨ base + 2 * f.cols ≤ a → t.mem.frameByte a = s.mem.frameByte a) ∧
        ∀ x, x < f.cols → base + 2 * x + 2 ≤ frameBytes → t.mem.frameNat (base + 2 * x) 2 = line.getD x 0 % 65536

/-- HP_FRAME_END, HP_FRAME_TIMEOUT, HP_ABSENT_TIMEOUT, HP_TELEMETRY_PACKET, HP_PACKET_DISCARD and HP_LANE_SOT_ERROR (R59, R66 to R73).
Rows stated to complete: HP_FRAME_END, HP_FRAME_TIMEOUT, HP_ABSENT_TIMEOUT, HP_TELEMETRY_PACKET, HP_PACKET_DISCARD, HP_LANE_SOT_ERROR. -/
def Obligations.FramesEndAndPortsGoAbsent : Prop :=
  ∀ (s : State) (n : Fin 8), s.running = true → s.dev.slots = [] →
    (∀ dt f, s.dev.receiving n 0 = true → (s.dev.hpOf n).openFrame = some f → f.dropped = false → f.lines.length = f.total →
      ∃ t, exec (.hpFrameEnd dt n .ok) s = .next t ∧ t.pending = s.pending ∧ t.mem = s.mem ∧ t.clock = s.clock.pass dt ∧ (t.dev.hpOf n).openFrame = none ∧
        t.dev.rd (Reg.HP_TAGw n 0) = BitVec.ofNat 32 f.seq ∧ t.dev.rd (Reg.HP_TAGw n 2) = BitVec.ofNat 32 f.dtime ∧
        t.dev.ev = s.dev.ev ++ [⟨8 + n.val, BitVec.ofNat 32 f.seq, t.clock.dtime⟩] ∧ ∀ m : Fin 8, m ≠ n → t.dev.hpOf m = s.dev.hpOf m) ∧
    (∀ f, (s.dev.hpOf n).openFrame = some f → f.dropped = false → s.dev.hpStrict n = false → s.dev.rdN (Reg.HP_CNT_PAD n) + 1 < 2 ^ 32 →
      ∃ t, exec (.hpFrameTimeout n) s = .next t ∧ t.pending = s.pending ∧ t.mem = s.mem ∧
        t.clock = s.clock.reach (f.dtime + 1024 * s.dev.fld (Reg.HP_FRAME_TO n) 15 0) ∧ (t.dev.hpOf n).openFrame = none ∧
        t.dev.rdN (Reg.HP_CNT_PAD n) = s.dev.rdN (Reg.HP_CNT_PAD n) + 1 ∧ t.dev.bit (Reg.HP_FAULT n) 2 = true ∧
        t.dev.ev = s.dev.ev ++ [⟨8 + n.val, BitVec.ofNat 32 f.seq, t.clock.dtime⟩]) ∧
    ((s.dev.hpOf n).state ≠ .disabled → (s.dev.hpOf n).state ≠ .absent → (s.dev.hpOf n).openFrame = none →
      ∃ t, exec (.hpAbsentTimeout n) s = .next t ∧ t.pending = s.pending ∧ t.mem = s.mem ∧
        t.clock = s.clock.reach ((s.dev.hpOf n).lastStart + 65536 * s.dev.fld (Reg.HP_FRAME_TO n) 31 16) ∧
        (t.dev.hpOf n).state = .absent ∧ (t.dev.hpOf n).held = !s.dev.feature 12 ∧ (t.dev.hpOf n).ctlStopped = true ∧
        t.dev.bit (Reg.HP_FAULT n) 3 = true ∧ recorded s.dev t.dev ⟨t.clock.dtime, uid 4 n 0, 4, BitVec.ofNat 32 (s.dev.hpOf n).seq⟩) ∧
    (∀ bytes, s.dev.receiving n 1 = true → ∃ t, exec (.hpTelemetryPacket n .ok true bytes) s = .next t ∧ deviceOnly s t ∧
      t.dev.hpOf n = { s.dev.hpOf n with telem := ((s.dev.hpOf n).telem ++ bytes).take 4096 } ∧ t.dev.regs = s.dev.regs) ∧
    (∀ (vc : Fin 16) (pkt : StrayPacket), s.dev.receiving n vc = true →
      (1 < vc.val → s.dev.rdN (Reg.HP_CNT_DT n) + 1 < 2 ^ 32 → s.dev.rdN (Reg.HP_CNT_CRC n) + 1 < 2 ^ 32 →
        ∃ t, exec (.hpPacketDiscard n .ok vc pkt) s = .next t ∧ deviceOnly s t ∧ t.dev.rdN (Reg.HP_CNT_DT n) = s.dev.rdN (Reg.HP_CNT_DT n) + 1 ∧
          t.dev.rdN (Reg.HP_CNT_CRC n) = s.dev.rdN (Reg.HP_CNT_CRC n) + (if 0x10 ≤ pkt.dtype.toNat ∧ pkt.crcOk = false then 1 else 0) ∧
          t.dev.hp = s.dev.hp ∧ ∀ a, a ≠ Reg.HP_CNT_DT n → a ≠ Reg.HP_CNT_CRC n → t.dev.rd a = s.dev.rd a) ∧
      (vc.val ≤ 1 → pkt.dtype = 2 ∨ pkt.dtype = 3 →
        ∃ t, exec (.hpPacketDiscard n .ok vc pkt) s = .next t ∧ deviceOnly s t ∧ t.dev.hp = s.dev.hp ∧ t.dev.regs = s.dev.regs)) ∧
    ∀ err : SotError, (s.dev.hpOf n).state ≠ .disabled → (s.dev.hpOf n).openFrame = none →
      ∃ t, exec (.hpLaneSotError n err) s = .next t ∧ deviceOnly s t ∧
        t.dev.fld (Reg.HP_CNT_LANE n) (8 * err.lane + 7) (8 * err.lane) = min 255 (s.dev.fld (Reg.HP_CNT_LANE n) (8 * err.lane + 7) (8 * err.lane) + 1) ∧
        ∀ l : Fin 4, l ≠ err.lane → t.dev.fld (Reg.HP_CNT_LANE n) (8 * l + 7) (8 * l) = s.dev.fld (Reg.HP_CNT_LANE n) (8 * l + 7) (8 * l)

/-- HP_CTL_DATA_WRITE, HP_CTL_SUBMIT, HP_CTL_COMPLETE, HP_CTL_RX_READ, HP_SERIAL_READ_DONE and HP_WORKING_SET_REPORT (R62, R64, R71, R72).
Rows stated to complete: HP_CTL_DATA_WRITE, HP_CTL_SUBMIT, HP_CTL_COMPLETE, HP_CTL_RX_READ, HP_SERIAL_READ_DONE, HP_WORKING_SET_REPORT. -/
def Obligations.HeadControlPath : Prop :=
  ∀ (s : State) (n : Fin 8), s.running = true →
    let h := s.dev.hpOf n
    (∀ v, ∃ t, exec (.hpCtlDataWrite n v) s = .next t ∧ deviceOnly s t ∧ t.dev.hpOf n = { h with staged := h.staged ++ leBytes 4 v.toNat } ∧
      t.dev.regs = s.dev.regs) ∧
    (∀ v : Word, 1 ≤ nfld v.toNat 8 0 → nfld v.toNat 8 0 ≤ 256 → nfld v.toNat 17 9 ≤ 256 → h.ctl.length < 4 →
      (h.ctl.map (fun c => c.tx.length)).sum + nfld v.toNat 8 0 ≤ 256 →
      ∃ t, exec (.hpCtlSubmit n v) s = .next t ∧ deviceOnly s t ∧ t.dev.regs = s.dev.regs ∧
        t.dev.hpOf n = { h with staged := [], ctl := h.ctl ++ [⟨h.staged.take (nfld v.toNat 8 0), nfld v.toNat 17 9, v.toNat.testBit 18, nfld v.toNat 31 24, false, s.dev.ctlNext n⟩] }) ∧
    (∀ v : Word, 4 ≤ h.ctl.length → ∃ t, exec (.hpCtlSubmit n v) s = .next t ∧ deviceOnly s t ∧
      t.dev.hpOf n = { h with staged := [] } ∧ t.dev.bit (Reg.HP_FAULT n) 11 = true) ∧
    (∀ dt c rest reply, h.ctlStopped = false → s.dev.ctlTurn n = true → h.ctl = c :: rest → c.serial = false →
      ∃ t, exec (.hpCtlComplete dt n true reply) s = .next t ∧ t.pending = s.pending ∧ t.mem = s.mem ∧ t.clock = s.clock.pass dt ∧
        (t.dev.hpOf n).ctl = rest ∧ (t.dev.hpOf n).reply = h.reply ++ reply.take c.rxLen ∧
        (t.dev.hpOf n).settingsGen = (if c.settings then (h.settingsGen + 1) % 65536 else h.settingsGen) ∧
        t.dev.ev = s.dev.ev ++ [⟨56 + s.dev.fld (Reg.HP_CTRL_CFG n) 1 0, 0, t.clock.dtime⟩]) ∧
    (∃ t, exec (.hpCtlRxRead n) s = .next t ∧ deviceOnly s t ∧ t.dev.hpOf n = { h with reply := h.reply.drop 4 } ∧ t.dev.regs = s.dev.regs) ∧
    (∀ c rest serial, h.ctlStopped = false → s.dev.ctlTurn n = true → h.ctl = c :: rest → c.serial = true →
      serial.toNat = s.dev.rd64 (Reg.HP_SERIAL_LO n) →
      ∃ t, exec (.hpSerialReadDone n true serial) s = .next t ∧ deviceOnly s t ∧ t.dev.flt = s.dev.flt ∧
        t.dev.hpOf n = { h with ctl := rest, ctlFailed := false, matched := true } ∧
        t.dev.ev = s.dev.ev ++ [⟨56 + s.dev.fld (Reg.HP_CTRL_CFG n) 1 0, 0, s.clock.dtime⟩]) ∧
    (∀ c rest serial, h.ctlStopped = false → s.dev.ctlTurn n = true → h.ctl = c :: rest → c.serial = true → h.retries < 3 →
      ∃ t, exec (.hpSerialReadDone n false serial) s = .next t ∧ deviceOnly s t ∧ t.dev.hpOf n = { h with retries := h.retries + 1 }) ∧
    (h.state = .provisional → ∃ t, exec (.hpWorkingSetReport n) s = .next t ∧ deviceOnly s t ∧ t.dev.hpOf n = { h with reported := true })

/-! ## Pixel pipelines (R78 to R114) -/

/-- PL_LINE_BOUNDARY (R104).
Row stated to complete: PL_LINE_BOUNDARY. -/
def Obligations.PipelineChoosesItsWork : Prop :=
  ∀ (s : State) (p : Fin 2), s.running = true → s.dev.bit (Reg.PL_CFG p) 0 = true → (s.dev.pipe p).faulted = false →
    ∃ t, exec (.plLineBoundary p) s = .next t ∧ deviceOnly s t ∧ t.dev.regs = s.dev.regs ∧ t.dev.pl = s.dev.pl ∧ t.dev.hp = s.dev.hp ∧
      (∀ c, c ∈ s.dev.candidates p true → ∃ b, (t.dev.pipe p).cur = some b ∧ b ∈ s.dev.candidates p true ∧ b ≤ c) ∧
      (s.dev.candidates p true = [] →
        (∀ c n, (s.dev.pipe p).stripe = some (c, n) → 0 < n → (s.dev.ctx p c).busy = true → c ∉ (s.dev.pipe p).loading →
          (t.dev.pipe p).cur = some c ∧ (t.dev.pipe p).stripe = some (c, n)) ∧
        ((s.dev.pipe p).stripe = none → ∀ c, c ∈ s.dev.candidates p false → ∃ b f g, (t.dev.pipe p).cur = some b ∧ (t.dev.pipe p).stripe = some (b, 64) ∧
          b ∈ s.dev.candidates p false ∧ s.dev.nextFrame (s.dev.ctxHead p b) = some f ∧ s.dev.nextFrame (s.dev.ctxHead p c) = some g ∧ f.dtime ≤ g.dtime) ∧
        ((s.dev.pipe p).stripe = none → s.dev.candidates p false = [] → (s.dev.pipe p).replays = [] → (t.dev.pipe p).cur = none))

/-- PL_FRAME_LATCH, PL_LINE_PROCESS and PL_FRAME_COMPLETE (R78, R82, R96).
Rows stated to complete: PL_FRAME_LATCH, PL_LINE_PROCESS, PL_FRAME_COMPLETE. -/
def Obligations.FramesLatchAdvanceAndComplete : Prop :=
  ∀ (s : State) (p : Fin 2) (c : Nat), s.running = true → c < 32 → (s.dev.pipe p).cur = some c → (s.dev.pipe p).faulted = false →
    quietMemory s.dev →
    (∀ f, (s.dev.ctx p c).work = none → s.dev.taken (s.dev.ctxHead p c) = false → (s.dev.ctx p c).active = true → (s.dev.ctx p c).arm = false →
      s.dev.ctxOn p c = true → s.dev.isReplay p c = false → (s.dev.ctx p c).held = none →
      (∀ k, k < 32 → s.dev.isInline p k = true → s.dev.waitsForLatch p k = true → k = c) → s.dev.latchable p c f = true →
      s.dev.bit (Reg.PL_Sx_CFG p c) 7 = false → s.dev.regs.swaps = [] → (s.dev.lth (s.dev.ctxHead p c)).shut = none →
      (s.dev.lth (s.dev.ctxHead p c)).ready = none → s.dev.nextFrame (s.dev.ctxHead p c) = some f → f.dropped = false →
      ∃ t w, exec (.plFrameLatch p) s = .next t ∧ t.pending = s.pending ∧ t.clock = s.clock ∧ (t.dev.ctx p c).work = some w ∧
        w.id = s.dev.frameId (s.dev.ctxHead p c) f ∧ w.total = f.total ∧ w.nextOut = 0) ∧
    (∀ w f, (s.dev.ctx p c).work = some w → w.own = none → s.dev.nextFrame (s.dev.ctxHead p c) = some f → f.dropped = false →
      (f.closed = true ∨ w.nextOut + 3 ≤ f.lines.length) → c ∉ (s.dev.pipe p).loading → w.nextOut < w.total → s.dev.lineCredit p w = true →
      ∃ t w', exec (.plLineProcess p) s = .next t ∧ t.pending = s.pending ∧ t.clock = s.clock ∧ (t.dev.ctx p c).work = some w' ∧ w'.id = w.id ∧
        w'.nextOut = w.nextOut + 1 ∧ (s.dev.nextFrame (s.dev.ctxHead p c)).map HFrame.seq = (t.dev.nextFrame (s.dev.ctxHead p c)).map HFrame.seq ∧
        (t.dev.nextFrame (s.dev.ctxHead p c)).map HFrame.freed = some (w.nextOut + 1)) ∧
    ∀ w, (s.dev.ctx p c).work = some w → w.kind ≠ .hold → w.total ≤ w.nextOut → w.taps = [] → (s.dev.lth (s.dev.ctxHead p c)).shut = none →
      (∀ f, w.own = none → s.dev.nextFrame (s.dev.ctxHead p c) = some f → f.dropped = false) →
      ∃ t, exec (.plFrameComplete p) s = .next t ∧ t.pending = s.pending ∧ t.clock = s.clock ∧ (t.dev.ctx p c).work = none ∧
        t.dev.rd (Reg.PL_Sx_SEQ p c) = BitVec.ofNat 32 w.id.seq ∧
        (s.dev.rdN (Reg.PL_CNT_FRAMES p) + 1 < 2 ^ 32 → t.dev.rdN (Reg.PL_CNT_FRAMES p) = s.dev.rdN (Reg.PL_CNT_FRAMES p) + 1) ∧
        ∀ f, w.own = none → s.dev.nextFrame (s.dev.ctxHead p c) = some f → f.closed = true →
          (t.dev.hpOf (s.dev.ctxHead p c)).frames = (s.dev.hpOf (s.dev.ctxHead p c)).frames.drop 1

/-- PL_FAULT, PL_TABLE_LOAD_DONE and PL_NO_PROGRESS (R85, R110, R112).
Rows stated to complete: PL_FAULT, PL_TABLE_LOAD_DONE, PL_NO_PROGRESS. -/
def Obligations.PipelineFaultsStopThePipeline : Prop :=
  ∀ (s : State) (p : Fin 2), s.running = true → quietMemory s.dev →
    (∀ (stage : Fin 10) (arg : Fin 32), (s.dev.pipe p).faulted = false →
      (∃ t, exec (.plFault p 1 stage arg) s = .next t ∧ t.clock = s.clock ∧ pipeStopped t p 0) ∧
      (∃ t, exec (.plFault p 2 stage arg) s = .next t ∧ t.clock = s.clock ∧ pipeStopped t p 1) ∧
      (∃ t, exec (.plFault p 6 stage arg) s = .next t ∧ t.clock = s.clock ∧ pipeStopped t p 5)) ∧
    (∀ (code : Fin 7) (stage : Fin 10) (arg : Fin 32), (s.dev.pipe p).faulted = true → exec (.plFault p code stage arg) s = .next s) ∧
    (∀ c rest, (s.dev.pipe p).loading = c :: rest →
      (∃ t, exec (.plTableLoadDone p false) s = .next t ∧ t.clock = s.clock ∧ pipeStopped t p 5) ∧
      ∃ t, exec (.plTableLoadDone p true) s = .next t ∧ t.clock = s.clock ∧ (t.dev.pipe p).loading = rest ∧ (t.dev.pipe p).faulted = (s.dev.pipe p).faulted) ∧
    ∀ c, c < 32 → (s.dev.pipe p).faulted = false → s.dev.hasWork p c = true →
      ∃ t, exec (.plNoProgress p) s = .next t ∧ t.clock = s.clock.reach ((s.dev.pipe p).last + 279621) ∧ pipeStopped t p 2

/-- PL_STANDBY_TAKEOVER, PL_HANDOVER, PL_HANDOVER_DONE and PL_REPLAY_SUBMIT (R108, R110, R111).
Rows stated to complete: PL_STANDBY_TAKEOVER, PL_HANDOVER, PL_HANDOVER_DONE, PL_REPLAY_SUBMIT. -/
def Obligations.StandbyHandoverAndReplay : Prop :=
  ∀ (s : State) (p : Fin 2), s.running = true →
    (∀ c, c < 32 → (s.dev.ctx p c).arm = true → (s.dev.nextFrame (s.dev.ctxHead p c)).isSome = true →
      ∃ t, exec (.plStandbyTakeover p) s = .next t ∧ deviceOnly s t ∧ t.dev.bit (Reg.PL_FAULT p) 3 = true ∧
        (∀ b, b < 32 → (t.dev.ctx p b).arm = ((s.dev.ctx p b).arm && (s.dev.nextFrame (s.dev.ctxHead p b)).isNone)) ∧
        ∃ mask, mask.testBit c = true ∧ recorded s.dev t.dev ⟨s.clock.dtime, uid 5 p 0, 4, BitVec.ofNat 32 mask⟩) ∧
    (∀ v : Word, v.toNat.testBit 8 = true →
      ∃ t, exec (.plHandover p v) s = .next t ∧ deviceOnly s t ∧
        (if s.dev.ctxOn p (v.toNat % 32) = true ∧ (s.dev.ctx p (v.toNat % 32)).active = true ∧ (s.dev.ctx p (v.toNat % 32)).handover = false ∧
            s.dev.isReplay p (v.toNat % 32) = false ∧ (s.dev.standbyOf p (v.toNat % 32)).isSome = true
          then t.dev.ctx p (v.toNat % 32) = { s.dev.ctx p (v.toNat % 32) with handover := true } ∧ t.dev.regs = s.dev.regs
          else t.dev.pl = s.dev.pl ∧ t.dev.bit (Reg.PL_FAULT p) 8 = true)) ∧
    (∀ c k, c < 32 → (s.dev.ctx p c).handover = true → (∀ b, b ≠ c → (s.dev.ctx p b).handover = false) → (s.dev.ctx p c).work = none →
      (s.dev.nextFrame (s.dev.ctxHead p c)).isSome = true → s.dev.standbyOf p c = some k →
      ∃ t, exec (.plHandoverDone p) s = .next t ∧ deviceOnly s t ∧ (t.dev.ctx p c).active = false ∧ (t.dev.ctx p c).handover = false ∧
        (t.dev.ctx (1 - p.val) k).active = true ∧ (t.dev.ctx (1 - p.val) k).takeover = true ∧
        recorded s.dev t.dev ⟨s.clock.dtime, uid 5 p 0, 8, BitVec.ofNat 32 (2 ^ c)⟩) ∧
    ∀ v : Word, ∃ t, exec (.plReplaySubmit p v) s = .next t ∧ deviceOnly s t ∧
      (if s.dev.ctxOn p (v.toNat % 32) = true ∧ s.dev.isReplay p (v.toNat % 32) = true ∧ (∀ r ∈ (s.dev.pipe p).replays, r.1 ≠ v.toNat % 32)
        then (t.dev.pipe p).replays = (s.dev.pipe p).replays ++ [(v.toNat % 32, s.dev.rdN (Reg.PL_REPLAY_ADDR p))] ∧ t.dev.regs = s.dev.regs
        else t.dev.pipes = s.dev.pipes ∧ t.dev.bit (Reg.PL_FAULT p) 8 = true)

/-! ## Last store (R115 to R150) -/

/-- LT_FULL_BUILD_CMD, LT_RESCAN_CMD, LT_BUILD_START and LT_BUILD_DONE (R118, R119, R122, R123, R126, R128).
Rows stated to complete: LT_FULL_BUILD_CMD, LT_RESCAN_CMD, LT_BUILD_START, LT_BUILD_DONE. -/
def Obligations.BuildsAreQueuedStartedAndDone : Prop :=
  ∀ s : State, s.running = true →
    (∀ h : Fin 8, ∃ t, exec (.ltFullBuildCmd h) s = .next t ∧
      (s.dev.ltOn h = false → t = s) ∧
      (s.dev.ltOn h = true → deviceOnly s t ∧ t.dev.regs = s.dev.regs ∧ t.dev.lt.cur = s.dev.lt.cur ∧ t.dev.lt.heads = s.dev.lt.heads ∧
        t.dev.lt.queue = if (∃ b ∈ s.dev.lt.queue, b.head = h ∧ b.kind = .full) then s.dev.lt.queue
          else s.dev.lt.queue ++ [⟨h, .full, s.dev.fld (Reg.HP_TAGw h 6) 15 0, 0⟩])) ∧
    (∃ t, exec .ltRescanCmd s = .next t ∧ deviceOnly s t ∧ (∀ i, i < 256 → t.dev.dirBad i = false) ∧
      ((∀ h, h < 8 → s.dev.wantsSet h = false) → t.dev.lt = s.dev.lt) ∧
      ∀ h, h < 8 → quietMemory s.dev → (∀ g, g < 8 → s.dev.wantsSet g = decide (g = h)) → s.dev.dirOf s.mem (s.dev.rd64 (Reg.HP_SERIAL_LO h)) = [] →
        (∃ b ∈ t.dev.lt.queue, b.head = h ∧ b.kind = .provisional) ∧
        t.dev.ev = s.dev.ev ++ [⟨66, BitVec.ofNat 32 h, s.clock.dtime⟩] ∧ t.dev.bit Reg.LT_FAULT 0 = true ∧
        recorded s.dev t.dev ⟨s.clock.dtime, uid 6 0 0, 1, BitVec.ofNat 32 (s.dev.rd64 (Reg.HP_SERIAL_LO h) % 2 ^ 32)⟩) ∧
    (∃ t, exec .ltBuildStart s = .next t ∧ deviceOnly s t ∧
      (∀ c, s.dev.lt.cur = some c → t.dev.lt.cur = some c ∧ t.dev.lt.queue = s.dev.lt.queue) ∧
      (s.dev.poolRule = false → s.dev.lt.poolLow = false → s.dev.lt.retiring = [] → t.dev.lt.cur = s.dev.lt.cur ∧ t.dev.bit Reg.LT_FAULT 3 = true ∧
        recorded s.dev t.dev ⟨s.clock.dtime, uid 6 0 0, 4, BitVec.ofNat 32 s.dev.poolFree⟩) ∧
      ∀ b rest, s.dev.lt.cur = none → s.dev.lt.queue = b :: rest →
        ((s.dev.lth b.head).ready ≠ none ∨ (s.dev.lth b.head).old ≠ [] → s.dev.ltOn b.head = true → t.dev.lt.cur = none ∧ t.dev.lt.queue = b :: rest) ∧
        (s.dev.ltOn b.head = false → t.dev.lt.queue = rest ∧ t.dev.lt.cur = none) ∧
        ∀ a, (s.dev.lth b.head).ready = none → (s.dev.lth b.head).old = [] → s.dev.ltOn b.head = true → s.dev.poolRule = true → b.kind = .provisional →
          allocGranules (fun k => decide (s.dev.bankHealthy k ≠ 0)) 8000 (granulesOf (s.dev.headRecords b.head)) s.dev.lt.rot s.dev.heldGranules [] = some a →
          ∃ r, t.dev.lt.cur = some ({ b with serial := s.dev.rd64 (Reg.HP_SERIAL_LO b.head) }, r) ∧ t.dev.lt.queue = rest ∧ r.kind = .provisional ∧ r.unity = true ∧ r.granules = a.1 ∧ r.base = b.temp ∧ r.serial = s.dev.rd64 (Reg.HP_SERIAL_LO b.head) ∧
            (r.cols, r.blind, r.rows) = s.dev.headGeom b.head) ∧
    ∀ (sets : List SetRead) (b : Build) (r : Region), s.dev.lt.cur = some (b, r) → s.dev.fab.held = [] → s.dev.lt.retiring = [] →
      ((s.dev.link s.dev.directLink).d3hot = true → ∀ x ∈ sets, x.recs = none) →
      ∃ t, exec (.ltBuildDone sets) s = .next t ∧ t.pending = s.pending ∧ t.clock = s.clock ∧ t.dev.lt.cur = none ∧
        (s.dev.ltOn b.head = false → t.mem = s.mem ∧ t.dev.lt.heads = s.dev.lt.heads) ∧
        (s.dev.ltOn b.head = true → b.kind = .provisional → (s.dev.lth b.head).promoted = [] → (∀ k, k < r.count → r.place k < 16 * 983040) →
          (t.dev.lth b.head).ready = some r ∧ (∀ k, k < r.count → t.mem.lastRec (r.place k) = Rec.unity.toBits) ∧
          (∀ x, (∀ k, k < r.count → r.place k ≠ x) → t.mem.lastRec x = s.mem.lastRec x) ∧ (∀ x, t.mem.frameByte x = s.mem.frameByte x) ∧
          ∀ x, t.mem.locByte x = s.mem.locByte x) ∧
        (s.dev.ltOn b.head = true → b.kind = .full → quietMemory s.dev → s.dev.setGood s.mem sets r.lo = false → setError sets r.lo = none →
          t.mem = s.mem ∧ t.dev.lt.heads = s.dev.lt.heads ∧ t.dev.dirBad r.lo = true ∧ t.dev.bit Reg.LT_FAULT 1 = true ∧
          recorded s.dev t.dev ⟨s.clock.dtime, uid 6 0 0, 2, BitVec.ofNat 32 (r.lo + 256 * b.head)⟩)

/-- LT_PROBE_EXPIRE, the LT_SHUTTER rows and the balance rows (R135, R137, R138, R144 to R146).
Rows stated to complete: LT_PROBE_EXPIRE, LT_SHUTTER_DUE, LT_SHUTTER_OVERDUE, LT_SHUTTER_GAP_CMD, LT_SHUTTER_FORCED_CMD, LT_SHUTTER_RETRY, LT_BALANCE_RESET_CMD, LT_BALANCE_WINDOW_END. -/
def Obligations.ProbesShutterPlanningAndBalance : Prop :=
  ∀ s : State, s.running = true →
    (∀ p : Fin 16, (s.dev.probe p).value.isSome = true → (s.dev.probe p).reported = false →
      ∃ t, exec (.ltProbeExpire p) s = .next t ∧ t.pending = s.pending ∧ t.mem = s.mem ∧
        t.clock = s.clock.reach (s.clock.dtime + ((s.dev.probe p).maxAge + 1 - (s.dev.probe p).age s.clock.dtime)) ∧
        t.dev.bit (Reg.LT_PRp_VAL p) 16 = false ∧ (t.dev.probe p).reported = true ∧
        t.dev.bit Reg.LT_FAULT 8 = true ∧
        (s.dev.probeUsers p = [] → recorded s.dev t.dev ⟨t.clock.dtime, uid 6 2 0, 9, BitVec.ofNat 32 p⟩) ∧
        ∀ u l, s.dev.probeUsers p = u :: l → recorded s.dev t.dev ⟨t.clock.dtime, uid 6 2 (u + 1), 9, BitVec.ofNat 32 p⟩) ∧
    (∀ h : Fin 8, s.dev.shutOn h = true →
      (s.dev.ltFld h (Reg.LT_HDh_SHDUE h) 15 0 ≠ 0 → (s.dev.lth h).due = false → (s.dev.lth h).shut = none →
        ∃ t, exec (.ltShutterDue h) s = .next t ∧ t.pending = s.pending ∧ t.mem = s.mem ∧ t.dev.regs = s.dev.regs ∧
          t.clock = (if s.dev.houseMoved s.clock.dtime h = true then s.clock
            else s.clock.reach ((s.dev.lth h).since + s.dev.ltFld h (Reg.LT_HDh_SHDUE h) 15 0 * 2 ^ 26)) ∧
          t.dev.lth h = { s.dev.lth h with due := true } ∧ ∀ g, g ≠ h.val → t.dev.lth g = s.dev.lth g) ∧
      (s.dev.ltFld h (Reg.LT_HDh_SHDUE h) 15 0 ≠ 0 → s.dev.ltFld h (Reg.LT_HDh_SHMAX h) 15 0 ≠ 0 → (s.dev.lth h).overdue = false →
        ∃ t, exec (.ltShutterOverdue h) s = .next t ∧ t.pending = s.pending ∧ t.mem = s.mem ∧
          t.clock = s.clock.reach ((s.dev.lth h).since + s.dev.ltFld h (Reg.LT_HDh_SHMAX h) 15 0 * 2 ^ 26) ∧
          (t.dev.lth h).due = true ∧ (t.dev.lth h).overdue = true ∧
          if s.dev.bit Reg.LT_CFG 5 = true ∧ s.dev.ltBit h (Reg.LT_HDh_CFG h) 3 = true then h.val ∈ t.dev.lt.forced.map Prod.fst
          else t.dev.bit Reg.LT_FAULT 7 = true ∧ recorded s.dev t.dev ⟨t.clock.dtime, uid 6 1 (h + 1), 8, BitVec.ofNat 32 h⟩)) ∧
    (∀ h : Fin 8,
      (∃ t, exec (.ltShutterGapCmd h) s = .next t ∧ (s.dev.shutOn h = false → t = s) ∧
        (s.dev.shutOn h = true → deviceOnly s t ∧ t.dev.regs = s.dev.regs ∧ t.dev.lth h = { s.dev.lth h with due := true } ∧
          ∀ g, g ≠ h.val → t.dev.lth g = s.dev.lth g)) ∧
      (∃ t, exec (.ltShutterForcedCmd h) s = .next t ∧ (s.dev.shutOn h = false → t = s) ∧
        (s.dev.shutOn h = true → deviceOnly s t ∧
          (t.dev.lt.forced.map Prod.fst = if h.val ∈ s.dev.lt.forced.map Prod.fst then s.dev.lt.forced.map Prod.fst
            else s.dev.lt.forced.map Prod.fst ++ [h.val]) ∧
          (s.dev.lt.forced = [] → s.dev.slots = [] → t.dev.tk.requests = s.dev.tk.requests ++ [.ledger 31] ∧
            t.dev.slot 31 = { Slot.reset with state := 1, kind := 8, target := uid 4 h 0, second := 1, planner := true }))) ∧
      ∀ x rest, s.dev.lt.forced = (h.val, x) :: rest → s.dev.slots = [] → s.clock.drive = true →
        ∃ t, exec (.ltShutterRetry h) s = .next t ∧ t.pending = s.pending ∧ t.mem = s.mem ∧ t.clock = s.clock.reach x ∧
          t.dev.tk.requests = s.dev.tk.requests ++ [.ledger 31] ∧
          t.dev.slot 31 = { Slot.reset with state := 1, kind := 8, target := uid 4 h 0, second := 1, planner := true }) ∧
    (∃ t, exec .ltBalanceResetCmd s = .next t ∧ deviceOnly s t ∧ ∀ h, h < 8 → (t.dev.lth h).corr = 0 ∧ (t.dev.lth h).g = 16384 ∧
      t.dev.rdN (Reg.LT_HDh_BALG h) = 16384 ∧ t.dev.rdN (Reg.LT_HDh_BALO h) = 0 ∧ t.dev.rdN (Reg.LT_HDh_CORR h) = 0) ∧
    ∃ t, exec .ltBalanceWindowEnd s = .next t ∧ deviceOnly s t ∧
      if s.dev.bit Reg.LT_CFG 0 = true ∧ s.dev.balBit Reg.LT_BAL_CFG 0 = true ∧ s.dev.balFld Reg.LT_BAL_CFG 31 16 ≤ s.dev.lt.winRows then
        t.dev.lt.welts = [] ∧ t.dev.lt.winRows = 0 ∧ t.dev.lt.winNo = s.dev.lt.winNo + 1 ∧
        (∀ h, h ∈ t.dev.lt.spoiled ↔ h < 8 ∧ (s.dev.shutRunning h = true ∨ s.dev.headProvisional h = true)) ∧
        t.dev.ev = s.dev.ev ++ [⟨68, 0, s.clock.dtime⟩] ∧
        (t.dev.lth (s.dev.balFld Reg.LT_BAL_CFG 3 1)).corr = 0 ∧ (t.dev.lth (s.dev.balFld Reg.LT_BAL_CFG 3 1)).g = 16384 ∧
        ∀ a b, a ≠ b → s.dev.balOrder = [a, b] → s.dev.balFld Reg.LT_BAL_CFG 3 1 = a →
          if s.dev.weltUsable 0 = true then
            (t.dev.lth b).corr = clampI (-(s.dev.balFld Reg.LT_BAL_MAX 15 0 : Int)) (s.dev.balFld Reg.LT_BAL_MAX 15 0)
              ((s.dev.lth b).corr + clampI (-(s.dev.balFld Reg.LT_BAL_STEP 15 0 : Int)) (s.dev.balFld Reg.LT_BAL_STEP 15 0)
                (-((2 * (((s.dev.welt 0).r : Int) - (s.dev.welt 0).l) + (s.dev.welt 0).n) / (2 * (s.dev.welt 0).n)))) ∧
            (s.dev.balBit Reg.LT_BAL_CFG 4 = false → (t.dev.lth b).g = (clampI (16384 - (s.dev.balFld Reg.LT_BAL_MAX 31 16 : Int))
              (16384 + (s.dev.balFld Reg.LT_BAL_MAX 31 16 : Int)) (s.dev.lth b).g).toNat)
          else t.dev.lth b = s.dev.lth b
      else t.dev.regs = s.dev.regs ∧ t.dev.lt = s.dev.lt ∧ t.dev.ev = s.dev.ev

/-! ## Web map and bloom (R151 to R198) -/

/-- The WM rows and the BV rows (R153 to R196).
Rows stated to complete: WM_GEOMETRY_LOAD_DONE, WM_FRAME_FIRST_LINE, WM_SAMPLE_BEAT, WM_ROW_FINALISE, WM_STATS_RECORD, BV_FIRE_RECORD, BV_BASELINE_ROW, BV_VERIFICATION_ROW, BV_RESET_JET, BV_END_FILL, BV_RESET_ALL. -/
def Obligations.MapAndBloomTakeTheirInputs : Prop :=
  ∀ s : State, s.running = true →
    (∀ (h : Fin 8) (ok : Bool), (s.dev.geomPending h = false → exec (.wmGeometryLoadDone h ok) s = .next s) ∧
      (s.dev.geomPending h = true → ∃ t, exec (.wmGeometryLoadDone h ok) s = .next t ∧ deviceOnly s t ∧ t.dev.geomPending h = false ∧
        (quietMemory s.dev → ok = true → t.dev.flt = s.dev.flt ∧ ∀ i, i < 2048 →
          (t.dev.mapHead h).table[i]? = some (some (sgn 32 (s.mem.frameNat ((s.dev.mapHead h).cfg.getD 1 0 + 4 * i) 4)))) ∧
        (ok = false → quietMemory s.dev → recorded s.dev t.dev ⟨s.clock.dtime, uid 7 0 0, 3, BitVec.ofNat 32 (4 * h + 32)⟩ ∧
          (∀ i, i < 2048 → (t.dev.mapHead h).table[i]? = some none)))) ∧
    (∀ (p : Fin 2) h hw q, h < 8 → s.dev.regs.swaps = [] → SMap.get [] s.dev.wm.queues p = .header h hw :: q →
      let dtime := hw.getD 3 0 + 2 ^ 32 * hw.getD 4 0
      let wpos := sgn 64 (hw.getD 5 0 + 2 ^ 32 * hw.getD 6 0)
      let waits := mapWaits h hw (SMap.get [] s.dev.wm.queues (1 - p.val))
      (waits = true → ∃ t, exec (.wmFrameFirstLine p) s = .next t ∧ deviceOnly s t ∧ SMap.get [] t.dev.wm.queues p = .header h hw :: q ∧
        t.dev.mapHead h = s.dev.mapHead h ∧ t.dev.regs = s.dev.regs) ∧
      (waits = false → hw.getD 11 0 % 65536 ≠ 0 → ∃ t, exec (.wmFrameFirstLine p) s = .next t ∧ deviceOnly s t ∧ SMap.get [] t.dev.wm.queues p = q ∧
        (t.dev.mapHead h).seq = hw.getD 0 0 ∧ (t.dev.mapHead h).prev = some (dtime, wpos) ∧ (t.dev.mapHead h).wpos = wpos ∧
        t.dev.rd (Reg.WM_Hh_SEQ h) = BitVec.ofNat 32 (hw.getD 0 0) ∧ t.dev.rd (Reg.WM_Hh_SPEED h) = BitVec.ofInt 32 (t.dev.mapHead h).v ∧
        (∀ pd pw, (s.dev.mapHead h).prev = some (pd, pw) → pd < dtime → dtime ≤ pd + 2 ^ 26 →
          (t.dev.mapHead h).v = clampI (-(2 ^ 31)) (2 ^ 31 - 1) (Int.tdiv ((wpos - pw) * 65536) ((dtime : Int) - pd)) ∧ t.dev.flt = s.dev.flt) ∧
        ((s.dev.mapHead h).prev = none → s.dev.rdN Reg.WM_CNT_NOSPEED + 1 < 2 ^ 32 →
          (t.dev.mapHead h).v = s.dev.rdI Reg.WP_SPEED ∧ t.dev.rdN Reg.WM_CNT_NOSPEED = s.dev.rdN Reg.WM_CNT_NOSPEED + 1)) ∧
      (waits = false → hw.getD 11 0 % 65536 = 0 → q = [] → ∃ t, exec (.wmFrameFirstLine p) s = .next t ∧ deviceOnly s t ∧ SMap.get [] t.dev.wm.queues p = [] ∧
        t.dev.mapHead h = { s.dev.mapHead h with prev := some (dtime, wpos) } ∧ t.dev.regs = s.dev.regs)) ∧
    (∀ (p : Fin 2) h y x0 ws q, h < 8 → quietMemory s.dev → SMap.get [] s.dev.wm.queues p = .line h y x0 ws :: q →
      let x := s.dev.mapHead h
      let l := nfld (x.cfg.getD 0 0) 2 1
      let on := (s.dev.layer l).on = true ∧ nbit (x.cfg.getD 0 0) 0 = true ∧ nbit (x.cfg.getD 8 0) 0 = true ∧ nbit (x.cfg.getD 9 0) 0 = true
      let k := (s.dev.layer l).rowOf (x.coord y)
      let last := (s.dev.layer l).kFirst + s.dev.layerOpen l - 1
      let rest := if ws.length ≤ 16 then q else .line h y (x0 + 16) (ws.drop 16) :: q
      (¬ on → ∃ t, exec (.wmSampleBeat p) s = .next t ∧ deviceOnly s t ∧ SMap.get [] t.dev.wm.queues p = rest ∧ t.dev.wm.layers = s.dev.wm.layers ∧
        (∀ a, t.dev.rd a = s.dev.rd a)) ∧
      (on → (s.dev.geomPending h = true ∨ (s.dev.layer l).drain.isSome = true) → exec (.wmSampleBeat p) s = .next s) ∧
      ∀ j T, on → s.dev.geomPending h = false → (s.dev.layer l).drain = none → x.sweet.1 ≤ y → y ≤ x.sweet.2 →
        s.dev.beatSamples h x0 (ws.take 16) = ([(j, .usable T)], 0) →
        let c := cellAt (s.dev.layer l).cells k j h
        let at_ := s.dev.storeCell l k j h
        ∃ t, exec (.wmSampleBeat p) s = .next t ∧ t.pending = s.pending ∧ t.clock = s.clock ∧
          (last < k ∨ k < (s.dev.layer l).kFirst → t.mem = s.mem) ∧ (∀ a, a < at_ ∨ at_ + 8 ≤ a → t.mem.frameByte a = s.mem.frameByte a) ∧
          (∀ a, t.mem.locByte a = s.mem.locByte a) ∧ (∀ i, t.mem.lastRec i = s.mem.lastRec i) ∧
          if last < k then
            SMap.get [] t.dev.wm.queues p = .line h y x0 ws :: q ∧ t.dev.wm.layers = s.dev.wm.layers ∧ p.val ∈ t.dev.wm.ahead ∧
            (p.val ∉ s.dev.wm.ahead → s.dev.rdN Reg.WM_CNT_AHEAD + 1 < 2 ^ 32 →
              t.dev.rdN Reg.WM_CNT_AHEAD = s.dev.rdN Reg.WM_CNT_AHEAD + 1 ∧ t.dev.bit Reg.WM_FAULT 1 = true)
          else SMap.get [] t.dev.wm.queues p = rest ∧ p.val ∉ t.dev.wm.ahead ∧
            if k < (s.dev.layer l).kFirst then t.dev.wm.layers = s.dev.wm.layers ∧
              (s.dev.rdN Reg.WM_CNT_BEHIND + 1 < 2 ^ 32 → t.dev.rdN Reg.WM_CNT_BEHIND = s.dev.rdN Reg.WM_CNT_BEHIND + 1)
            else (c.n < 255 → cellAt (t.dev.layer l).cells k j h = { c with n := c.n + 1, sum := c.sum + T, prov := c.prov || x.prov }) ∧
              ∀ k' j' h', (k', j', h') ≠ (k, j, h) → cellAt (t.dev.layer l).cells k' j' h' = cellAt (s.dev.layer l).cells k' j' h') ∧
    (∀ l : Fin 4,
      let y := s.dev.layer l
      let due := y.on = true ∧ (y.drain.isSome = true ∨ s.dev.frontsPassed l = true ∨ s.dev.flushPassed l = true)
      let forced := y.drain.isSome || !s.dev.frontsPassed l
      (¬ due → exec (.wmRowFinalise l) s = .next s) ∧
      (due → s.dev.rowCredit l = false → ∃ t, exec (.wmRowFinalise l) s = .next t ∧ deviceOnly s t ∧ t.dev.wm.layers = s.dev.wm.layers ∧
        t.dev.wm.rows = s.dev.wm.rows ∧ l.val ∈ t.dev.wm.wait) ∧
      (due → s.dev.rowCredit l = true → y.drain = none → s.dev.bit (Reg.WM_Ll_CFG l) 4 = false → quietMemory s.dev →
        ∃ t, exec (.wmRowFinalise l) s = .next t ∧ deviceOnly s t ∧ (t.dev.layer l).kFirst = y.kFirst + 1 ∧
          t.dev.rd64 (Reg.WM_Ll_NEXT_LO l) = unsgn 64 (y.kFirst + 1) ∧ t.dev.ev = s.dev.ev ++ [⟨72, BitVec.ofNat 32 l, s.clock.dtime⟩] ∧
          (s.dev.rdN Reg.WM_CNT_ROWS + 1 < 2 ^ 32 → t.dev.rdN Reg.WM_CNT_ROWS = s.dev.rdN Reg.WM_CNT_ROWS + 1) ∧
          (forced = true → s.dev.rdN Reg.WM_CNT_FORCED + 1 < 2 ^ 32 → t.dev.rdN Reg.WM_CNT_FORCED = s.dev.rdN Reg.WM_CNT_FORCED + 1) ∧
          (forced = false → t.dev.flt = s.dev.flt) ∧
          t.dev.wm.rows = if s.dev.bit (Reg.WM_Ll_CFG l) 10 = true
            then s.dev.wm.rows ++ [⟨l, y.kFirst, s.dev.rowRecord s.clock.dtime l forced (s.dev.rowCells l)⟩] else s.dev.wm.rows)) ∧
    (∀ (p : Fin 2) r rest, quietMemory s.dev → SMap.get [] s.dev.wm.stats p = r :: rest →
      let size := 2 ^ (nfld r.ring.1 11 8 + 16)
      let wr := s.dev.rdN (Reg.WM_SRp_WR p)
      ∃ t, exec (.wmStatsRecord p) s = .next t ∧ t.pending = s.pending ∧ t.clock = s.clock ∧
        (nbit r.ring.1 0 = false → SMap.get [] t.dev.wm.stats p = rest ∧ t.mem = s.mem ∧ t.dev.ev = s.dev.ev) ∧
        (nbit r.ring.1 0 = true → nbit r.ring.1 1 = false →
          if 4 * r.words.length ≤ frameRoom size wr (s.dev.rdN (Reg.WM_SRp_RD p)) then
            SMap.get [] t.dev.wm.stats p = rest ∧ t.dev.rd (Reg.WM_SRp_WR p) = BitVec.ofNat 32 ((wr + 4 * r.words.length) % size) ∧
            t.mem = s.mem.writes (frameRingWrites r.ring.2 size wr r.words) ∧
            t.dev.ev = s.dev.ev ++ [⟨if r.zone then 74 else 73, BitVec.ofNat 32 (r.head + 8 * p), s.clock.dtime⟩]
          else SMap.get [] t.dev.wm.stats p = { r with waited := true } :: rest ∧ t.mem = s.mem ∧ t.dev.ev = s.dev.ev ∧
            (r.waited = false → s.dev.rdN (Reg.WM_SRp_STALL p) + 1 < 2 ^ 32 → t.dev.rdN (Reg.WM_SRp_STALL p) = s.dev.rdN (Reg.WM_SRp_STALL p) + 1))) ∧
    (∀ (b : Fin 8) r rest, s.dev.bv.out = [] → s.dev.fab.held = [] → (s.dev.bank b).records = r :: rest → nbit (r.getD 1 0) 15 = false →
      let j := 16 * b.val + nfld (r.getD 1 0) 3 0
      let e := s.dev.jetEntry s.mem j
      let kc := (sgn 64 (r.getD 4 0 + 2 ^ 32 * r.getD 5 0) + e.aoff - sgn 64 (s.dev.rd64 (Reg.WP_RGn_ORIGIN_LO (s.dev.layerRg s.dev.bvLayer)))) /
        (s.dev.rgPitch (s.dev.layerRg s.dev.bvLayer) : Int)
      ∃ t, exec (.bvFireRecord b) s = .next t ∧ t.pending = s.pending ∧ t.clock = s.clock ∧ (t.dev.bank b).records = rest ∧
        (s.dev.bvOn = false ∨ nbit (r.getD 1 0) 10 = true → t.dev.bv = s.dev.bv) ∧
        (s.dev.bvOn = true → nbit (r.getD 1 0) 10 = false → quietMemory s.dev → e.scored = true → (s.dev.jet j).fill = false →
          (s.dev.bv.kNext ≤ kc - 1 → kc + 1 < s.dev.bv.kNext + s.dev.fld Reg.BV_DEPTH 11 0 →
            (∀ a, (∀ q ∈ s.dev.firePlaces j kc, a < q ∨ q + 4 ≤ a) → t.mem.frameByte a = s.mem.frameByte a) ∧
            (∀ a, t.mem.locByte a = s.mem.locByte a) ∧ (∀ i, t.mem.lastRec i = s.mem.lastRec i) ∧
            ∃ no, t.dev.bv.fires = s.dev.bv.fires ++ [⟨j, kc, some no, true⟩] ∧
              ((s.dev.jet j).wins = [] → no = (s.dev.jet j).winNo + 1 ∧
                (t.dev.jet j).wins = [⟨no, 1, if nbit (r.getD 1 0) 14 then 1 else 0, 0, 0, 0, false⟩] ∧ (t.dev.jet j).winNo = no) ∧
              ∀ w, (s.dev.jet j).wins = [w] → w.fires < s.dev.bvWindow → no = w.no ∧
                (t.dev.jet j).wins = [{ w with fires := w.fires + 1, dips := w.dips + if nbit (r.getD 1 0) 14 then 1 else 0 }]) ∧
          (kc - 1 < s.dev.bv.kNext → s.dev.rdN Reg.BV_CNT_LATE + 1 < 2 ^ 32 →
            t.dev.rdN Reg.BV_CNT_LATE = s.dev.rdN Reg.BV_CNT_LATE + 1 ∧ t.dev.bit Reg.BV_FAULT 2 = true))) ∧
    (∀ r rest, s.dev.bv.out = [] → s.dev.fab.held = [] → s.dev.bvOn = true → s.dev.wm.rows = r :: rest →
      (s.dev.bit Reg.BV_CFG 5 = false → r.layer = s.dev.bvBase → r.layer ≠ s.dev.bvLayer →
        ∃ t, exec .bvBaselineRow s = .next t ∧ t.pending = s.pending ∧ t.clock = s.clock ∧ t.dev.wm.rows = rest ∧
          t.dev.bv.base = (⟨sgn 64 (r.words.getD 1 0 + 2 ^ 32 * r.words.getD 2 0), (r.words.drop 16).take (r.words.getD 7 0 % 65536)⟩ ::
            s.dev.bv.base).take (s.dev.fld Reg.BV_DEPTH 23 16)) ∧
      (r.layer = s.dev.bvLayer →
        (∃ t, exec .bvBaselineRow s = .next t ∧ t.pending = s.pending ∧ t.clock = s.clock ∧ t.dev.wm.rows = r :: rest ∧ t.dev.bv = s.dev.bv) ∧
        ∃ t, exec .bvVerificationRow s = .next t ∧ t.pending = s.pending ∧ t.clock = s.clock ∧
          ((∃ b, b < 8 ∧ (s.dev.bank b).records ≠ []) → t.dev.wm.rows = r :: rest ∧ t.dev.bv = s.dev.bv) ∧
          ((∀ b, b < 8 → (s.dev.bank b).records = []) → s.dev.bit Reg.BV_CFG 5 = true →
            t.dev.wm.rows = rest ∧ t.dev.bv.kNext = r.k + 1 ∧ t.dev.rd Reg.BV_NEXT = BitVec.ofInt 32 (r.k + 1) ∧ t.dev.bv.scored = s.dev.bv.scored + 1 ∧
            (∀ f ∈ t.dev.bv.fires, r.k < f.kc + 1) ∧ (r.k ≠ s.dev.bv.kNext → t.dev.bit Reg.BV_FAULT 5 = true ∧ t.dev.bv.fires = []) ∧
            (s.dev.rdN Reg.BV_CNT_ROWS + 1 < 2 ^ 32 → t.dev.rdN Reg.BV_CNT_ROWS = s.dev.rdN Reg.BV_CNT_ROWS + 1)))) ∧
    (∀ j : Fin 128,
      (∃ t, exec (.bvResetJet j) s = .next t ∧ deviceOnly s t ∧
        t.dev.jet j = { s.dev.jet j with grade := 0, low := false, trim := 0, fill := false, limit := false, goodProbes := 0, pub := (t.dev.jet j).pub } ∧
        (∀ i, i ≠ j.val → t.dev.jet i = s.dev.jet i) ∧
        t.dev.ev = s.dev.ev ++ if (s.dev.jet j).fill then [⟨84, BitVec.ofNat 32 j, s.clock.dtime⟩] else []) ∧
      ∃ t, exec (.bvEndFill j) s = .next t ∧ deviceOnly s t ∧ (t.dev.jet j).fill = false ∧ (t.dev.jet j).trim = (s.dev.jet j).trim ∧
        (t.dev.jet j).grade = (s.dev.jet j).grade ∧ (∀ i, i ≠ j.val → t.dev.jet i = s.dev.jet i) ∧
        t.dev.ev = s.dev.ev ++ if (s.dev.jet j).fill then [⟨84, BitVec.ofNat 32 j, s.clock.dtime⟩] else []) ∧
    ∃ t, exec .bvResetAll s = .next t ∧ deviceOnly s t ∧ ∀ j, j < 128 →
      t.dev.jet j = { s.dev.jet j with grade := 0, low := false, trim := 0, fill := false, limit := false, goodProbes := 0, pub := (t.dev.jet j).pub }

/-! ## Valve banks (R199 to R224) and their channels (R227 to R248) -/

/-- VB_RING_FETCH, VB_RING_REFETCH, LACE_FRAME, FIRE_DURATION_LIMIT, QUENCH_END, BOOST_CUT, COIL_TICK and LC_CLEAR_TRIP. That a quench ends before its boundary's frame is the model's reading (log 207).
Rows stated to complete: VB_RING_FETCH, VB_RING_REFETCH, COIL_TICK, LACE_FRAME, FIRE_DURATION_LIMIT, QUENCH_END, BOOST_CUT, LC_CLEAR_TRIP. -/
def Obligations.FiresStartAndEndAndCoilsHeat : Prop :=
  ∀ (s : State) (b : Fin 8), s.running = true →
    let x := s.dev.bank b
    let valid := fun (q : Nat) => s.mem.frameNat (s.dev.entryAt b q + 16) 4 = q % 2 ^ 32 ∧
      s.mem.frameNat (s.dev.entryAt b q + 20) 4 = 2 ^ 32 - 1 - q % 2 ^ 32
    let l := s.dev.blink b
    (s.dev.vbOn b = false → exec (.vbRingFetch b) s = .next s ∧ (∀ i, exec (.vbRingRefetch b i) s = .next s) ∧ exec (.coilTick b) s = .next s ∧
      (l.on = false → l.swapAt = none → exec (.laceFrame b) s = .next s)) ∧
    (let q := s.dev.nextRowOf b
     s.dev.vbOn b = true → quietMemory s.dev → (∀ y ∈ x.look, y.1 ≠ q) → (∀ y ∈ x.missed, y.1 ≠ q) →
      ∃ t, exec (.vbRingFetch b) s = .next t ∧ deviceOnly s t ∧ t.dev.regs = s.dev.regs ∧
        (valid q → (t.dev.bank b).look = x.look ++ [(q, s.mem.frameNat (s.dev.entryAt b q) 16)] ∧ (t.dev.bank b).missed = x.missed) ∧
        (¬ valid q → (t.dev.bank b).look = x.look ∧ (t.dev.bank b).missed = x.missed ++ [(q, s.clock.dtime, false)])) ∧
    (∀ (i : Fin 64) e u, s.dev.vbOn b = true → quietMemory s.dev → x.missed = [(s.dev.nextRowOf b + i, e, u)] →
      let q := s.dev.nextRowOf b + i.val
      ∃ t, exec (.vbRingRefetch b i) s = .next t ∧ t.pending = s.pending ∧ t.mem = s.mem ∧ t.clock = s.clock.reach (e + 400) ∧
        (valid q → (t.dev.bank b).look = x.look ++ [(q, s.mem.frameNat (s.dev.entryAt b q) 16)] ∧ (t.dev.bank b).missed = []) ∧
        (¬ valid q → (t.dev.bank b).look = x.look ∧ (t.dev.bank b).missed = [(q, t.clock.dtime, false)])) ∧
    (s.dev.vbOn b = true ∨ l.on = true → s.clock.drive = true → x.lastFrame % 40 = 0 → noShutter s.dev →
      ∃ t, exec (.laceFrame b) s = .next t ∧ t.pending = s.pending ∧ t.mem = s.mem ∧ t.clock.dtime % 40 = 0 ∧ s.clock.dtime ≤ t.clock.dtime ∧
        x.lastFrame < t.clock.dtime ∧ (t.clock.dtime < s.clock.dtime + 40 ∨ t.clock.dtime = x.lastFrame + 40) ∧
        (t.dev.bank b).lastFrame = t.clock.dtime ∧ t.clock.wpos = s.clock.wpos ∧
        (s.dev.vbOn b = true → x.state ≠ 2 → (t.dev.bank b).gates = 0 ∧ (t.dev.bank b).quench = false) ∧
        (l.on = true → l.swapAt = none → l.state ≠ 1 → x.gates < 2 ^ 18 →
          ∃ f, (t.dev.blink b).down = some f ∧ f.payload % 2 ^ 18 = x.gates ∧ onesOf 24 f.payload % 2 = 1 ∧
            f.marker = if t.clock.dtime / 40 % 16 = 0 then (if x.quench then 6 else 5) else if x.quench then 2 else 1) ∧
        ∀ f w, s.dev.vbOn b = true → l.swapAt = none → x.state = 2 → x.engineOk = true → x.allOff = false → s.dev.indep b = false → x.threads = [] → x.heldStart = false → x.pairs = [] →
          (∀ c, x.chan c = Chan.reset) → x.waiting = [f] → f.due = none → f.ch < 16 → x.firstPhase f.entry = (0, some (2, w, 0, false, false)) →
          f.imax ≤ s.dev.budget b →
          let v := max (s.dev.rdI Reg.WP_SPEED) 0
          let lead := sar (((min (s.dev.rdN (Reg.VB_CHc_OD b f.ch)) (s.dev.fld (Reg.VB_ODMAX b) 19 0) : Nat) : Int) * v) 16
          let ext := min (sar (v * ((t.clock.dtime + 32 : Int) - s.dev.web.slip.lastCount)) 16)
            (sar ((s.clock.frac : Int) + s.dev.rdN (Reg.WP_ENCn_SCALE s.dev.source)) 12)
          (f.pos + f.off ≤ s.clock.wpos + ext + lead →
            (t.dev.bank b).waiting = [] ∧ (t.dev.chan b f.ch).kind = 2 ∧ (t.dev.chan b f.ch).target = min w f.imax ∧
            (t.dev.chan b f.ch).run.map (fun r => (r.fire, r.start)) = some ({ f with due := some (t.clock.dtime + 40) }, t.clock.dtime + 40) ∧
            (t.dev.thread b f.ch).run = .ready ∧ (t.dev.thread b f.ch).pc = (f.entry + 1) % 4096 ∧ (t.dev.bank b).gates = 2 ^ f.ch + 131072) ∧
          (s.clock.wpos + ext + lead < f.pos + f.off → (t.dev.bank b).waiting = [f] ∧ (t.dev.chan b f.ch).kind = 0 ∧ (t.dev.bank b).gates = 0)) ∧
    (∀ (c : Fin 16) r, (s.dev.chan b c).run = some r → (s.dev.chan b c).command = false → (s.dev.chan b c).quenchAt = none → (s.dev.chan b c).kind ≠ 5 →
      ∃ t, exec (.fireDurationLimit b c) s = .next t ∧ t.pending = s.pending ∧ t.mem = s.mem ∧ t.clock = s.clock.reach (r.start + 40 * r.fire.dur) ∧
        (t.dev.chan b c).kind = 5 ∧ (t.dev.chan b c).quenchAt = some (t.clock.dtime / 40 + 1) ∧ (t.dev.chan b c).run = none ∧
        (t.dev.thread b c).run = .stopped ∧ t.dev.bit (Reg.LC_FAULT b) 4 = true ∧
        t.dev.rd (Reg.LC_ERRPC b) = BitVec.ofNat 32 ((s.dev.thread b c).pc + 4096 * 5 + 65536 * c) ∧
        (x.records.length < 1024 → (t.dev.bank b).records.length = x.records.length + 1) ∧
        (s.dev.rdN (Reg.LC_CNT_CUT b) + 1 < 2 ^ 32 → t.dev.rdN (Reg.LC_CNT_CUT b) = s.dev.rdN (Reg.LC_CNT_CUT b) + 1)) ∧
    (∀ c : Fin 16,
      let u := s.dev.nextBoundary s.clock.dtime b
      let d := s.dev.takeFrames b (u / 40)
      let k := d.chan b c
      let ended := s.dev.vbOn b = true ∧ k.kind = 5 ∧ (s.dev.thread b c).run = .stopped ∧
        ∃ q, k.quenchAt = some q ∧ q ≤ u / 40 ∧ (d.fast b c = 0 ∨ q + 1024 ≤ u / 40)
      (¬ ended → exec (.quenchEnd b c) s = .next s) ∧
      (ended → k.command = false → ∃ t, exec (.quenchEnd b c) s = .next t ∧ t.pending = s.pending ∧ t.mem = s.mem ∧ t.clock = s.clock.reach u ∧
        (∀ a, a ≠ Reg.LC_CNT_NODIP b → t.dev.rd a = s.dev.rd a) ∧
        t.dev.chan b c = { Chan.reset with bits := k.bits, odRej := k.odRej, coil := k.coil } ∧ ∀ e, e ≠ c.val → t.dev.chan b e = d.chan b e)) ∧
    (∀ c y, x.token = some (c, none) → (s.dev.chan b c).kind = 1 → (s.dev.chan b c).boostFrom = some y →
      ∃ t, exec (.boostCut b) s = .next t ∧ t.pending = s.pending ∧ t.mem = s.mem ∧ t.dev.regs = s.dev.regs ∧
        t.clock = s.clock.reach (y + (s.dev.fld (Reg.VB_SLOT b) 15 0 - s.dev.fld (Reg.VB_SLOT b) 31 16)) ∧
        t.dev.chan b c = { s.dev.chan b c with kind := 2, run := (s.dev.chan b c).run.map (fun r => { r with boostCut := true }) } ∧
        (t.dev.bank b).token = some (c, some (t.clock.dtime + s.dev.fld (Reg.VB_SLOT b) 31 16)) ∧
        ∀ p q u v w, (s.dev.thread b c).run = .wait p q u v w → (t.dev.thread b c).run = .ready ∧ (t.dev.thread b c).t = true) ∧
    (s.dev.vbOn b = true → x.engineOk = true → s.clock.drive = true → x.lastTick % 400000 = 0 → quietMemory s.dev → noShutter s.dev →
      ∃ t, exec (.coilTick b) s = .next t ∧ t.pending = s.pending ∧ t.clock.dtime % 400000 = 0 ∧ s.clock.dtime ≤ t.clock.dtime ∧
        x.lastTick < t.clock.dtime ∧ (t.dev.bank b).lastTick = t.clock.dtime ∧ t.mem = s.mem.writes (t.dev.saveWrites t.clock.dtime b) ∧
        ∀ c : Fin 16,
          let q := (s.dev.chan b c).coil
          let s2 := match (s.dev.blink b).scale with
            | some z => z * z
            | none => 0
          let e : Int := (q.q * s2 : Int) * q.res / (65536 * 10 ^ 10)
          (s.dev.bit (Reg.LC_CHc_CFG b c) 4 = false → t.dev.chan b c = s.dev.chan b c) ∧
          (s.dev.bit (Reg.LC_CHc_CFG b c) 4 = true → q.on = true →
            (t.dev.chan b c).coil.tc = clampI 0 (2 ^ 42 - 1)
              (q.tc + e * s.dev.fld (Reg.LC_CHc_HC b c) 23 0 - sar ((q.tc - q.tb) * s.dev.fld (Reg.LC_CHc_ACB b c) 23 0) 24) ∧
            ((s.dev.fld (Reg.LC_CHc_LIM2 b c) 15 0 : Int) ≤ sar (t.dev.chan b c).coil.tc 26 → (t.dev.chan b c).coil.trip = true))) ∧
    ∀ c : Fin 16,
      let q := (s.dev.chan b c).coil
      ∃ t, exec (.lcClearTrip b c) s = .next t ∧ deviceOnly s t ∧ t.dev.regs = s.dev.regs ∧ (∀ e, e ≠ c.val → t.dev.chan b e = s.dev.chan b e) ∧
        t.dev.chan b c = if q.trip = true ∧ s.dev.bit (Reg.LC_CHc_CFG b c) 4 = true ∧ q.on = true ∧
            sar q.tc 26 < (s.dev.fld (Reg.LC_CHc_LIM1 b c) 15 0 : Int) - s.dev.fld (Reg.LC_CFG b) 23 16
          then { s.dev.chan b c with coil := { q with trip := false } } else s.dev.chan b c

/-! ## Lace engines (R224 to R250) -/

/-- LACE_END to LACE_ENGINE_FAULT (R224 to R250).
Rows stated to complete: LACE_LDI, LACE_ALU_ADD, LACE_ALU_SUB, LACE_ALU_MUL, LACE_ALU_MIN, LACE_ALU_MAX, LACE_ALU_MOVE, LACE_ALU_COMPARE, LACE_LDM, LACE_STP, LACE_SIG, LACE_BR, LACE_PHASE, LACE_WAIT, LACE_END, LACE_CODE_LOAD_DONE, LACE_ENGINE_FAULT. -/
def Obligations.LaceInstructionsAndErrors : Prop :=
  (∀ (s : State) (b : Fin 8) (th : Fin 17) (rd rs n : Fin 4) (imm : BitVec 24), laceReady s b th →
    let x := s.dev.thread b th
    let alu := fun (i : Instr) (v : Int) (store : Bool) =>
      let w := clampI (-8388608) 8388607 v
      ∃ t, exec i s = .next t ∧ laceMoved s t b th { x with a := if store then x.a.set rd w else x.a, z := decide (w = 0), n := decide (w < 0) } ∧
        t.dev.regs = s.dev.regs ∧ t.dev.flt = s.dev.flt ∧ ∀ c, t.dev.chan b c = s.dev.chan b c
    let A := x.reg rd
    let B := x.reg rs
    (∃ t, exec (.laceLdi b th rd imm) s = .next t ∧ laceMoved s t b th { x with a := x.a.set rd imm.toInt } ∧ t.dev.regs = s.dev.regs ∧
      t.dev.flt = s.dev.flt ∧ ∀ c, t.dev.chan b c = s.dev.chan b c) ∧
    alu (.laceAluAdd b th rd rs) (A + B) true ∧ alu (.laceAluSub b th rd rs) (A - B) true ∧ alu (.laceAluMul b th rd rs) (sar (A * B) 12) true ∧
    alu (.laceAluMin b th rd rs) (min A B) true ∧ alu (.laceAluMax b th rd rs) (max A B) true ∧ alu (.laceAluMove b th rd rs) B true ∧
    alu (.laceAluCompare b th rd rs) (A - B) false ∧
    (∀ (ch : Fin 32) (c : Nat), c = (if th.val < 16 then th.val else ch.val) →
      let k := s.dev.chan b c
      let par := fun (i : Nat) => s.dev.fld (if i < 2 then Reg.LC_CHc_PAR01 b c else Reg.LC_CHc_PAR23 b c) (16 * (i % 2) + 15) (16 * (i % 2))
      (c < 16 → ∀ p ∈ [((0 : Fin 16), (s.dev.fast b c : Int)), (1, s.dev.fine b c), (2, fastOf (s.dev.bank b).supply), (3, fastOf (s.dev.bank b).raised),
          (4, sar k.coil.tc 26), (5, s.dev.rdN (Reg.VB_CHc_OD b c)), (6, s.dev.runTrim b c), (7, k.coil.res), (8, par 0), (9, par 1), (10, par 2), (11, par 3)],
        ∃ t, exec (.laceLdm b th rd p.1 ch) s = .next t ∧ laceMoved s t b th { x with a := x.a.set rd (clampI (-8388608) 8388607 p.2) } ∧
          t.dev.regs = s.dev.regs) ∧
      (∀ src : Fin 16, 11 < src.val → ∃ t, exec (.laceLdm b th rd src ch) s = .next t ∧ laceFailed s t b th 1) ∧
      (16 ≤ c → ∀ src : Fin 16, src.val ≤ 11 → ∃ t v, exec (.laceLdm b th rd src ch) s = .next t ∧ laceMoved s t b th { x with a := x.a.set rd v } ∧
        t.dev.regs = s.dev.regs) ∧
      (∃ t, exec (.laceStp b th rs n ch) s = .next t ∧ laceMoved s t b th x ∧
        (c < 16 → t.dev.fld (if n.val < 2 then Reg.LC_CHc_PAR01 b c else Reg.LC_CHc_PAR23 b c) (16 * (n.val % 2) + 15) (16 * (n.val % 2)) = unsgn 16 B ∧
          ∀ a, a ≠ (if n.val < 2 then Reg.LC_CHc_PAR01 b c else Reg.LC_CHc_PAR23 b c) → t.dev.rd a = s.dev.rd a) ∧
        (16 ≤ c → t.dev.regs = s.dev.regs)) ∧
      (th.val = 16 → ∃ t, exec (.laceSig b th ch) s = .next t ∧ laceMoved s t b th x ∧ t.dev.regs = s.dev.regs ∧
        (ch.val < 16 → t.dev.chan b ch = { s.dev.chan b ch with signal := true }) ∧ ∀ o, o ≠ ch.val → t.dev.chan b o = s.dev.chan b o) ∧
      (th.val < 16 → ∃ t, exec (.laceSig b th ch) s = .next t ∧ laceFailed s t b th 1))) ∧
  (∀ (s : State) (b : Fin 8) (th : Fin 17) (address : BitVec 12), laceReady s b th →
    let x := s.dev.thread b th
    let k := s.dev.chan b th
    (∀ p ∈ [((0 : Fin 16), true), (1, x.t), (2, !x.t), (3, k.dip.found.isSome), (4, k.dip.found.isNone), (5, k.coil.derate), (6, k.released), (7, x.z), (8, x.n)],
      th.val < 16 ∨ p.1.val < 3 ∨ 6 < p.1.val → ∃ t, exec (.laceBr b th p.1 address) s = .next t ∧ t.dev.regs = s.dev.regs ∧ deviceOnly s t ∧
        t.dev.thread b th = { x with pc := if p.2 then address.toNat else (x.pc + 1) % 4096, since := x.since + 1 } ∧
        ∀ o, o ≠ th.val → t.dev.thread b o = s.dev.thread b o) ∧
    (∀ cond : Fin 16, 8 < cond.val ∨ (th.val = 16 ∧ 3 ≤ cond.val ∧ cond.val ≤ 6) →
      ∃ t, exec (.laceBr b th cond address) s = .next t ∧ laceFailed s t b th 1) ∧
    (∀ (kind : Fin 8) (target : BitVec 12) (band : BitVec 8) (watch par : Bool),
      let want := if par then s.dev.chanPar b th (target.toNat % 4) % 4096 else target.toNat
      (th.val = 16 ∨ kind.val = 0 ∨ 5 < kind.val → ∃ t, exec (.lacePhase b th kind target band watch par) s = .next t ∧ laceFailed s t b th 1) ∧
      (th.val < 16 → 1 ≤ kind.val → kind.val ≤ 5 → ∃ t, exec (.lacePhase b th kind target band watch par) s = .next t ∧ laceMoved s t b th x ∧
        (k.command = true → k.released = true → kind ≠ 5 → t.dev.chan b th = k ∧ t.dev.regs = s.dev.regs) ∧
        (k.command = false ∨ kind = 5 → (t.dev.chan b th).kind = (if kind.val = 1 then 2 else kind.val) ∧
          (t.dev.chan b th).target = min want (s.dev.chanImax b th) ∧ (t.dev.chan b th).band = band.toNat ∧ (t.dev.chan b th).watch = watch ∧
          (kind = 5 → k.kind ≠ 5 → (t.dev.chan b th).quenchAt = some (s.clock.dtime / 40 + 1)) ∧
          (kind = 1 → t.dev.bit (Reg.LC_FAULT b) 4 = true)))) ∧
    (∀ (cond : Fin 8) (trim : Bool) (arg : BitVec 24),
      let now := (s.dev.bank b).lastFrame / 40
      let frames := if trim then (sar ((arg.toNat : Int) * (256 + s.dev.runTrim b th) + 128) 8).toNat else arg.toNat
      (5 < cond.val ∨ (th.val = 16 ∧ cond.val ≠ 0) → ∃ t, exec (.laceWait b th cond trim arg) s = .next t ∧ laceFailed s t b th 1) ∧
      (cond.val = 0 ∨ (th.val < 16 ∧ cond.val ≤ 5) → ∃ t, exec (.laceWait b th cond trim arg) s = .next t ∧ deviceOnly s t ∧ t.dev.regs = s.dev.regs ∧
        (∀ o, o ≠ th.val → t.dev.thread b o = s.dev.thread b o) ∧
        t.dev.thread b th = { x with pc := (x.pc + 1) % 4096, since := 0, carried := false,
                                     run := if cond.val = 0 then .wait 0 0 (now + 1 + frames) 0 now
                                       else .wait cond (arg.toNat / 4096) 0 (if arg.toNat % 4096 = 0 then 0 else now + 1 + arg.toNat % 4096) now })) ∧
    ∃ t, exec (.laceEnd b th) s = .next t ∧ deviceOnly s t ∧ (t.dev.thread b th).run = .stopped ∧ (∀ o, o ≠ th.val → t.dev.thread b o = s.dev.thread b o) ∧
      (th.val = 16 ∨ k.command = true → t.dev.regs = s.dev.regs ∧ ∀ c, t.dev.chan b c = s.dev.chan b c) ∧
      (th.val < 16 → k.command = false → (t.dev.chan b th).run = none ∧ (k.run.isSome = true → (s.dev.bank b).records.length < 1024 →
        (t.dev.bank b).records.length = (s.dev.bank b).records.length + 1) ∧
        (k.kind = 5 → (t.dev.chan b th).kind = 5 ∧ (t.dev.chan b th).quenchAt = k.quenchAt) ∧
        (k.kind ≠ 5 → k.quenchAt = none → (t.dev.chan b th).kind = 5 ∧ (t.dev.chan b th).quenchAt = some (s.clock.dtime / 40 + 1) ∧
          t.dev.bit (Reg.LC_FAULT b) 4 = true))) ∧
  ∀ (s : State) (b : Fin 8), s.running = true →
    (∀ (th : Fin 17) (rd rs n : Fin 4) (imm arg : BitVec 24) (address : BitVec 12) (kind : Fin 8) (ch : Fin 32),
      ¬ (s.dev.vbOn b = true ∧ (s.dev.bank b).engineOk = true ∧ (s.dev.thread b th).run = .ready) →
      ∀ i ∈ [Instr.laceEnd b th, .lacePhase b th kind address 0 false false, .laceWait b th kind false arg, .laceBr b th 0 address, .laceLdi b th rd imm,
        .laceLdm b th rd 0 ch, .laceAluAdd b th rd rs, .laceAluSub b th rd rs, .laceAluMul b th rd rs, .laceAluMin b th rd rs, .laceAluMax b th rd rs,
        .laceAluCompare b th rd rs, .laceAluMove b th rd rs, .laceStp b th rs n ch, .laceSig b th ch], exec i s = .next s) ∧
    (∀ (th : Fin 17) (rd : Fin 4) (imm : BitVec 24), s.dev.vbOn b = true → (s.dev.bank b).engineOk = true → (s.dev.thread b th).run = .ready →
      63 ≤ (s.dev.thread b th).since → ∃ t, exec (.laceLdi b th rd imm) s = .next t ∧ laceFailed s t b th 4) ∧
    (s.dev.vbOn b = false ∨ (s.dev.bank b).loaded = true → exec (.laceCodeLoadDone b) s = .next s) ∧
    (s.dev.vbOn b = true → (s.dev.bank b).loaded = false → s.mem.wf → noBadWord s.dev → ∃ t, exec (.laceCodeLoadDone b) s = .next t ∧ deviceOnly s t ∧
      t.dev.regs = s.dev.regs ∧ (t.dev.bank b).loaded = true ∧
      ∀ i, i < 4096 → (SMap.get (0 : Word) (t.dev.bank b).code i).toNat = s.mem.frameNat (s.dev.rdN (Reg.LC_SAVE_BASE b) + 4 * i) 4) ∧
    ∀ address : Fin 4096,
      (s.dev.vbOn b = true → (s.dev.bank b).engineOk = true →
        ∃ t, exec (.laceEngineFault b address) s = .next t ∧ deviceOnly s t ∧ (t.dev.bank b).engineOk = false ∧ t.dev.bit (Reg.LC_FAULT b) 0 = true ∧
          recorded s.dev t.dev ⟨s.clock.dtime, uid 9 b 31, 0x10, BitVec.ofNat 32 address⟩ ∧
          ((s.dev.bank b).served = true → t.dev.spare.state = 3 ∧ t.dev.spare.healthy = false) ∧
          ((s.dev.bank b).served = false → t.dev.spare = s.dev.spare)) ∧
      (s.dev.vbOn b = false ∨ (s.dev.bank b).engineOk = false → exec (.laceEngineFault b address) s = .next s)

/-! ## Bank faults, pairs, the spare engine (R213 to R218) and the bank links (R256 to R271) -/

/-- VB_BANK_FAULT to SPARE_RETURN and the BL rows. That commands also go down while the uplink is lost is the model's reading (log 175).
Rows stated to complete: VB_BANK_FAULT, VB_CLEAR_FAULT, VB_PAIR_CLOSE, VB_PAIR_RELEASE, SPARE_TAKEOVER, SPARE_HANDOVER, SPARE_RETURN, SPARE_LOAD_DONE, BL_TRAINING, BL_TRAINING_RETRY, BL_UPLINK_FRAME, LACE_FRAME, BL_STATUS_MESSAGE, BL_DESC_MESSAGE, BL_SLOW_MESSAGE_DISCARD, BL_COMMAND_ACK_TIMEOUT, BL_STAGE_SILENT, BL_RETRAIN, BL_DISARM, BL_PHASE_TRIM. -/
def Obligations.BanksPairsSpareAndLinks : Prop :=
  ∀ (s : State) (b : Fin 8), s.running = true →
    let x := s.dev.bank b
    let k := s.dev.blink b
    let sp := s.dev.spare
    let on := s.dev.blOn b = true
    let up := 3 ≤ k.state ∧ k.state ≤ 5
    let sends := 3 ≤ k.state ∧ k.state ≤ 6
    let types := fun (t : State) => (t.dev.blink b).cmds.map LinkCmd.type
    (∀ cause : Fin 4,
      let faults := s.dev.vbOn b = true ∧ x.state ≠ 3 ∧
        (cause = 3 → x.engineOk = false ∧ x.engineFault = true ∧ s.dev.spareCan b = false ∧ s.dev.takingOver b = false)
      (noShutter s.dev → ¬ faults → exec (.vbBankFault b cause) s = .next s) ∧
      (noShutter s.dev → faults → ∃ t, exec (.vbBankFault b cause) s = .next t ∧ deviceOnly s t ∧ bankDown t b ∧
        t.dev.ev = s.dev.ev ++ [⟨40 + b, BitVec.ofNat 32 (cause + 1), s.clock.dtime⟩] ∧
        ((∀ c, c < 16 → (s.dev.chan b c).kind ≠ 4) → recorded s.dev t.dev ⟨s.clock.dtime, uid 9 b 31, 4, BitVec.ofNat 32 (cause + 1)⟩))) ∧
    (s.dev.vbOn b = false ∨ x.state ≠ 3 ∨ s.dev.safe = true → exec (.vbClearFault b) s = .next s) ∧
    (s.dev.vbOn b = true → x.state = 3 → s.dev.safe = false → ∃ t, exec (.vbClearFault b) s = .next t ∧ deviceOnly s t ∧
      (t.dev.bank b).state = 3 ∧ (t.dev.bank b).clearing = true ∧ (t.dev.bank b).armed = false ∧ (t.dev.bank b).engineFault = false ∧
      (¬ on → t.dev.bl = s.dev.bl) ∧
      (on → k.state = 6 → (t.dev.blink b).state = 1 ∧ (t.dev.blink b).since = s.clock.dtime ∧ types t = (types s).filter (fun v => v == 4) ++ [4]) ∧
      (on → up → (t.dev.blink b).state = 3 ∧ types t = types s ++ [4, 3, 3, 3])) ∧
    (∀ p : Fin 8,
      let y := s.dev.pair b p
      let c := s.dev.chan b p
      let mask : Byte := BitVec.ofNat 8 (2 ^ p.val)
      let why := (if s.dev.pairOwned b p then 1 else 0) + (if s.dev.chanCmd b p then 0 else 2)
      let refuses := fun (i : Instr) (n : Nat) => ∃ t, exec i s = .next t ∧ deviceOnly s t ∧ t.dev.vb = s.dev.vb ∧ t.dev.bit (Reg.VB_FAULT b) 8 = true ∧
        recorded s.dev t.dev ⟨s.clock.dtime, uid 9 b p, 9, BitVec.ofNat 32 n⟩
      (why ≠ 0 ∨ c.coil.trip = true → refuses (.vbPairClose b mask) (why + if c.coil.trip then 4 else 0)) ∧
      (why ≠ 0 → refuses (.vbPairRelease b mask) why) ∧
      (why = 0 → c.coil.trip = false → ∃ t, exec (.vbPairClose b mask) s = .next t ∧ deviceOnly s t ∧ t.dev.regs = s.dev.regs ∧
        (∀ q, q ≠ p.val → t.dev.pair b q = s.dev.pair b q) ∧ (s.dev.vbOn b = false ∨ y.on = true → t.dev.pair b p = y) ∧
        (s.dev.vbOn b = true → y.on = false → c.command = true → c.kind ≠ 0 → t.dev.pair b p = { y with held := true }) ∧
        (s.dev.vbOn b = true → y.on = false → c.command = false ∨ c.kind = 0 → t.dev.pair b p = { y with close := true })) ∧
      (why = 0 → ∃ t, exec (.vbPairRelease b mask) s = .next t ∧ deviceOnly s t ∧ (y.on = false ∨ c.kind ≠ 4 → t.dev.regs = s.dev.regs) ∧
        (∀ q, q ≠ p.val → t.dev.pair b q = s.dev.pair b q) ∧ (y.on = false → t.dev.pair b p = ⟨false, false, false⟩) ∧
        (y.on = true → t.dev.pair b p = { y with on := false } ∧ (t.dev.chan b p).kind = 5 ∧ (t.dev.chan b p).released = true ∧
          (t.dev.chan b p).watch = false ∧ (c.kind ≠ 5 → (t.dev.chan b p).quenchAt = some (s.clock.dtime / 40 + 1))))) ∧
    (let takes := s.dev.vbOn b = true ∧ x.engineFault = true ∧ x.served = false ∧ x.state ≠ 3 ∧ s.dev.bit Reg.VB_SP_CFG b = true ∧ sp.state = 0 ∧ sp.healthy = true
     (¬ takes → exec (.spareTakeover b) s = .next s) ∧
     (takes → ∃ t, exec (.spareTakeover b) s = .next t ∧ deviceOnly s t ∧
      t.dev.spare = { sp with state := 1, bank := b, rowsLost := 0, handover := false, ready := false, returning := false } ∧
      (t.dev.bank b).allOff = true ∧ (t.dev.bank b).waiting = [] ∧ (t.dev.bank b).gates = 0 ∧ ∀ c, c < 16 → (t.dev.chan b c).kind = 0)) ∧
    (let gives := sp.state = 0 ∧ sp.healthy = true ∧ s.dev.vbOn b = true ∧ x.state ≠ 3
     (¬ gives → exec (.spareHandover b) s = .next s) ∧
     (gives → ∃ t, exec (.spareHandover b) s = .next t ∧ deviceOnly s t ∧ t.dev.regs = s.dev.regs ∧ t.dev.vb = s.dev.vb ∧
      t.dev.spare = { sp with state := 1, bank := b, rowsLost := 0, handover := true, ready := false, returning := false })) ∧
    (sp.state ≠ 2 ∨ sp.ready = true → exec .spareReturn s = .next s) ∧
    (sp.state = 2 → sp.ready = false → ∃ t, exec .spareReturn s = .next t ∧ deviceOnly s t ∧ t.dev.spare.returning = true ∧ t.dev.spare.state = 2 ∧
      t.dev.vb = s.dev.vb ∧ (noBadWord s.dev → t.dev.regs = s.dev.regs)) ∧
    (noShutter s.dev → sp.state ≠ 1 ∨ sp.ready = true → ∀ ok, exec (.spareLoadDone ok) s = .next s) ∧
    (noShutter s.dev → sp.state = 1 → sp.ready = false → sp.bank = b →
      (∃ t, exec (.spareLoadDone true) s = .next t ∧ deviceOnly s t ∧ t.dev.spare.ready = true ∧ t.dev.spare.state = (if sp.handover then 1 else 2) ∧
        (sp.handover = true → t.dev.vb = s.dev.vb ∧ (noBadWord s.dev → t.dev.regs = s.dev.regs)) ∧
        (sp.handover = false → t.dev.bit Reg.VB_SP_FAULT 0 = true ∧ (t.dev.bank b).overflow = true ∧
          t.dev.bit (Reg.VB_FAULT b) 4 = true ∧ (noBadWord s.dev → recorded s.dev t.dev ⟨s.clock.dtime, uid 9 8 31, 5, BitVec.ofNat 32 sp.rowsLost⟩))) ∧
      ∃ t, exec (.spareLoadDone false) s = .next t ∧ deviceOnly s t ∧ t.dev.spare.state = 3 ∧ t.dev.spare.healthy = false ∧
        t.dev.bit Reg.VB_SP_FAULT 2 = true ∧ (sp.handover = false → s.dev.vbOn b = true → x.state ≠ 3 → bankDown t b) ∧
        (sp.handover = true → t.dev.vb = s.dev.vb)) ∧
    (∀ (dt sent arrived i j n m : Nat), on → k.state = 1 ∨ k.state = 2 → k.retryAt = none →
      longestRuns k.lane0.mask = ([i], n) → longestRuns k.lane1.mask = ([j], m) →
      let r := arrived - sent
      ∃ t, exec (.blTraining dt b sent arrived) s = .next t ∧ t.pending = s.pending ∧ t.mem = s.mem ∧
        (t.dev.blink b).lat = (if (r + 87) / 40 ≤ 6 then (r + 87) / 40 else 0) ∧
        t.clock = s.clock.reach (k.since + if k.cfg.testBit 1 then 640 * 8 + dt else 640 * 16 + dt) ∧
        (if k.cfg.testBit 1 then (t.dev.blink b).phase0 = k.cfg / 4 % 8 ∧ (t.dev.blink b).phase1 = k.cfg / 32 % 8
          else (t.dev.blink b).phase0 = (i + (n - 1) / 2) % 8 ∧ (t.dev.blink b).phase1 = (j + (m - 1) / 2) % 8) ∧
        if (r + 87) / 40 ≤ 6 ∧ (k.cfg.testBit 1 = true ∨ (3 ≤ n ∧ 3 ≤ m)) then
          (t.dev.blink b).state = 3 ∧ types t = types s ++ [3, 3, 3] ∧ t.dev.flt = s.dev.flt
        else (t.dev.blink b).state = 2 ∧ (t.dev.blink b).retryAt = some (t.clock.dtime + 640 * 64) ∧ t.dev.bit (Reg.BL_FAULT b) 0 = true) ∧
    (∀ y, on → k.retryAt = some y → ∃ t, exec (.blTrainingRetry b) s = .next t ∧ t.pending = s.pending ∧ t.mem = s.mem ∧ t.clock = s.clock.reach y ∧
      (t.dev.blink b).state = 1 ∧ (t.dev.blink b).since = t.clock.dtime ∧ (t.dev.blink b).retryAt = none ∧ (t.dev.blink b).desc = none ∧
      (t.dev.bank b).armed = false) ∧
    (∀ (mark0 mark1 : BitVec 10) (data0 data1 : BitVec 30), (noShutter s.dev → ¬ on → exec (.blUplinkFrame b mark0 data0 mark1 data1) s = .next s) ∧
      (noShutter s.dev → on →
        let acquire := decide (k.state = 1 ∨ k.state = 2)
        let line0 := (mark0 ++ data0).toNat
        let line1 := (mark1 ++ data1).toNat
        let v0 := (k.lane0.receive acquire line0).1
        let v1 := (k.lane1.receive acquire line1).1
        ∃ t, exec (.blUplinkFrame b mark0 data0 mark1 data1) s = .next t ∧ deviceOnly s t ∧
        (∀ pos w, ¬ acquire → k.lane0.pos = some pos → w < 2 ^ 24 → onesOf 24 w % 2 = 1 →
          line0 = (encodeFrame k.lane0.rd (if pos % 16 = 15 then 5 else 1) w).1 → v0 = some w) ∧
        (t.dev.blink b).bad0 = (if v0.isSome then 0 else k.bad0 + 1) ∧ (t.dev.blink b).bad1 = (if v1.isSome then 0 else k.bad1 + 1) ∧
        (v0 = none → t.dev.fld (Reg.BL_CNT_UPERR b) 15 0 = min 65535 (s.dev.fld (Reg.BL_CNT_UPERR b) 15 0 + 1)) ∧
        (v1 = none → t.dev.fld (Reg.BL_CNT_UPERR b) 31 16 = min 65535 (s.dev.fld (Reg.BL_CNT_UPERR b) 31 16 + 1)) ∧
        if up ∧ ((v0 = none ∧ 2 ≤ k.bad0) ∨ (v1 = none ∧ 2 ≤ k.bad1)) then
          (t.dev.blink b).state = 6 ∧ t.dev.bit (Reg.BL_FAULT b) 1 = true ∧ (s.dev.vbOn b = true → x.state ≠ 3 → bankDown t b)
        else (t.dev.blink b).state = k.state ∧ t.dev.flt = s.dev.flt ∧ t.dev.vb = s.dev.vb ∧ (¬ up → (t.dev.blink b).inbox = k.inbox) ∧
          (up → ∃ j, (t.dev.blink b).inbox = k.inbox ++ [⟨j, v0, v1⟩]))) ∧
    (∀ j v0 v1, on → k.swapAt = none → k.inbox = [⟨j, v0, v1⟩] → s.clock.drive = true → x.lastFrame % 40 = 0 → noShutter s.dev →
      x.threads = [] → x.heldStart = false → x.waiting = [] → x.pairs = [] →
      ∃ t, exec (.laceFrame b) s = .next t ∧ t.pending = s.pending ∧ t.mem = s.mem ∧
        (t.clock.dtime / 40 < j → (t.dev.blink b).inbox = k.inbox ∧ ∀ c, c < 16 → (t.dev.chan b c).bits = (s.dev.chan b c).bits) ∧
        (j ≤ t.clock.dtime / 40 → (t.dev.blink b).inbox = [] ∧ ∀ c, c < 16 →
          let l := (s.dev.chan b c).bits
          let i := if c < 9 then c else c - 9
          (t.dev.chan b c).bits = (match if c < 9 then v0 else v1 with
            | some w => w.testBit (2 * i + 1) :: w.testBit (2 * i) :: l
            | none => l.getD 0 false :: l.getD 1 false :: l).take 94)) ∧
    (∀ dt, noShutter s.dev → k.first 1 = none → exec (.blStatusMessage dt b) s = .next (s.pass dt)) ∧
    (∀ dt, k.first 2 = none → exec (.blDescMessage dt b) s = .next (s.pass dt)) ∧
    (∀ (dt : Nat) (msg : List Byte) (rest : List (Option (List Byte))), k.msgs = some msg :: rest →
      let stage := (msg.getD 1 0).toNat % 4
      (noShutter s.dev → messageType msg = 1 → ¬ up → ∃ t, exec (.blStatusMessage dt b) s = .next t ∧ deviceOnly (s.pass dt) t ∧ t.dev.vb = s.dev.vb ∧
        t.dev.regs = s.dev.regs ∧ t.dev.blink b = { k with msgs := rest }) ∧
      (noShutter s.dev → messageType msg = 1 → up → ∃ t, exec (.blStatusMessage dt b) s = .next t ∧ deviceOnly (s.pass dt) t ∧ (t.dev.blink b).msgs = rest ∧
        (t.dev.blink b).stage = stage ∧ (t.dev.blink b).chal = (msg.getD 2 0).toNat + 256 * (msg.getD 3 0).toNat ∧
        (x.clearing = true → stage ≠ 2 → (t.dev.bank b).state = 1 ∧ (t.dev.bank b).clearing = false) ∧
        (k.state = 4 → stage = 1 → (t.dev.blink b).state = 5 ∧ (t.dev.bank b).armed = true) ∧ (k.state = 3 → (t.dev.blink b).state = 3) ∧
        (k.state = 5 → stage = 2 → (t.dev.blink b).state = 4 ∧ t.dev.bit (Reg.BL_FAULT b) 5 = true ∧ (s.dev.vbOn b = true → x.state = 2 → bankDown t b)) ∧
        (k.state = 5 → stage = 0 ∨ stage = 3 → (t.dev.blink b).state = 4 ∧ t.dev.bit (Reg.BL_FAULT b) 6 = true ∧
          (x.clearing = false → s.dev.vbOn b = true → x.state = 2 → bankDown t b)) ∧
        (k.state = 5 → stage = 1 → x.clearing = false → (msg.getD 6 0).toNat.testBit 5 = false →
          (t.dev.blink b).state = 5 ∧ t.dev.vb = s.dev.vb)) ∧
      (messageType msg = 2 → k.state ≠ 3 ∨ 2 < (msg.getD 1 0).toNat → ∃ t, exec (.blDescMessage dt b) s = .next t ∧ deviceOnly (s.pass dt) t ∧
        t.dev.vb = s.dev.vb ∧ t.dev.regs = s.dev.regs ∧ t.dev.blink b = { k with msgs := rest }) ∧
      ∀ p0 p1 : List Byte, messageType msg = 2 → msg.length = 10 → k.state = 3 → (msg.getD 1 0).toNat = 2 → p0 ≠ [] → p1 ≠ [] →
        SMap.get [] k.pages 0 = p0 → SMap.get [] k.pages 1 = p1 →
        let l := p0 ++ p1 ++ (msg.drop 2).take 7
        ∃ t, exec (.blDescMessage dt b) s = .next t ∧ deviceOnly (s.pass dt) t ∧ (t.dev.blink b).msgs = rest ∧
          if descReject l (s.dev.indep b) = 0 then
            (t.dev.blink b).desc = some l ∧ t.dev.flt = s.dev.flt ∧ (s.dev.bankOut b = false → (t.dev.blink b).state = 4 ∧ types t = types s ++ [1]) ∧
              (s.dev.bankOut b = true → (t.dev.blink b).state = 3 ∧ types t = types s)
          else (t.dev.blink b).state = 3 ∧ (t.dev.blink b).desc = none ∧ t.dev.bit (Reg.BL_FAULT b) 2 = true ∧
            recorded s.dev t.dev ⟨t.clock.dtime, uid 10 b 4, 3, BitVec.ofNat 32 (descReject l (s.dev.indep b))⟩) ∧
    ((∀ rest, k.msgs ≠ none :: rest) → exec (.blSlowMessageDiscard b) s = .next s) ∧
    (∀ rest, k.msgs = none :: rest → s.dev.rdN (Reg.BL_CNT_CRC b) + 1 < 2 ^ 32 → ∃ t, exec (.blSlowMessageDiscard b) s = .next t ∧ deviceOnly s t ∧
      t.dev.rdN (Reg.BL_CNT_CRC b) = s.dev.rdN (Reg.BL_CNT_CRC b) + 1 ∧ (∀ a, a ≠ Reg.BL_CNT_CRC b → t.dev.rd a = s.dev.rd a) ∧
      t.dev.blink b = { k with msgs := rest } ∧ t.dev.vb = s.dev.vb) ∧
    (∀ c rest u, on → sends → k.cmds = c :: rest → c.since = some u → s.dev.rdN (Reg.BL_CNT_RETX b) + 1 < 2 ^ 32 → ∃ t, exec (.blCommandAckTimeout b) s = .next t ∧
      t.pending = s.pending ∧ t.mem = s.mem ∧ t.clock = s.clock.reach (u + 640 * 16) ∧ (t.dev.blink b).cmds = { c with since := some t.clock.dtime } :: rest ∧
      t.dev.rdN (Reg.BL_CNT_RETX b) = s.dev.rdN (Reg.BL_CNT_RETX b) + 1 ∧ t.dev.bit (Reg.BL_FAULT b) 3 = true ∧
      recorded s.dev t.dev ⟨t.clock.dtime, uid 10 b 4, 4, BitVec.ofNat 32 (c.type + 16 * c.seq)⟩) ∧
    (noShutter s.dev → on → x.state = 2 → s.dev.vbOn b = true → ∃ t, exec (.blStageSilent b) s = .next t ∧ t.pending = s.pending ∧ t.mem = s.mem ∧
      t.clock = s.clock.reach (k.lastMsg + 640 * 16) ∧ bankDown t b ∧ t.dev.bit (Reg.BL_FAULT b) 4 = true) ∧
    (noShutter s.dev → on → ∃ t, exec (.blRetrain b) s = .next t ∧ deviceOnly s t ∧ (t.dev.blink b).state = 1 ∧ (t.dev.blink b).since = s.dev.nextBoundary s.clock.dtime b + 640 ∧
      (t.dev.blink b).cmds = [] ∧ (t.dev.blink b).desc = none ∧ (t.dev.bank b).armed = false ∧ (x.state = 2 → s.dev.vbOn b = true → bankDown t b)) ∧
    (on → sends → ∃ t, exec (.blDisarm b) s = .next t ∧ deviceOnly s t ∧ t.dev.regs = s.dev.regs ∧ t.dev.vb = s.dev.vb ∧
      t.dev.blink b = { k with seq := (k.seq + 1) % 16, cmds := k.cmds ++ [⟨2, (k.seq + 1) % 16, List.replicate 8 0, none⟩] }) ∧
    (¬ (on ∧ sends) → exec (.blDisarm b) s = .next s) ∧
    (¬ (on ∧ sends) ∨ k.cmds = [] ∨ (∃ c rest, k.cmds = c :: rest ∧ c.since = none) → exec (.blCommandAckTimeout b) s = .next s) ∧
    (¬ on → noShutter s.dev → exec (.blRetrain b) s = .next s) ∧
    ∀ lat : Fin 8,
      (∀ p, k.trimNext = some p → 2 ≤ lat.val → lat.val ≤ 6 → k.lane0.pos = some 15 → ∃ t, exec (.blPhaseTrim b lat) s = .next t ∧ deviceOnly s t ∧ t.dev.vb = s.dev.vb ∧
        t.dev.blink b = { k with phase0 := p.1, phase1 := p.2, lat := lat, trimNext := none }) ∧
      (k.trimNext = none ∨ lat.val < 2 ∨ 6 < lat.val ∨ k.lane0.pos ≠ some 15 → exec (.blPhaseTrim b lat) s = .next s)

/-! ## Precision analogue inputs (R273 to R299) -/

/-- The ADC rows, EXTERNAL_REFERENCE_LOW and EXCITATION_AT_COMPLIANCE.
Rows stated to complete: ADC_SOFTWARE_TRIGGER, ADC_SELF_CALIBRATE, ADC_TRIGGER_SEEN, ADC_CONVERSION_DONE, ADC_CONVERTER_FAULT, ADC_CALIBRATION_DONE, ADC_RESULT_WRITE, ADC_SEQUENCE_END, ADC_TRIGGER_TICK, ADC_DELAY_EMIT, ADC_REFERENCE_READY, EXTERNAL_REFERENCE_LOW, EXCITATION_AT_COMPLIANCE. -/
def Obligations.ConvertersTriggerConvertAndCalibrate : Prop :=
  (∀ (s : State) (mask : BitVec 4), s.running = true →
    (∃ t, exec (.adcSoftwareTrigger mask) s = .next t ∧ deviceOnly s t ∧ t.dev.regs = s.dev.regs ∧ ∀ x, x < 4 →
      t.dev.adc x = if mask.toNat.testBit x then { s.dev.adc x with sent := (s.dev.adc x).sent ++ [false] } else s.dev.adc x) ∧
    ∃ t, exec (.adcSelfCalibrate mask) s = .next t ∧ deviceOnly s t ∧ t.dev.regs = s.dev.regs ∧ ∀ x, x < 4 →
      let a := s.dev.adc x
      t.dev.adc x = if mask.toNat.testBit x = true ∧ a.faulted = false ∧ a.calFrom = none then
          (if a.running = false ∧ s.dev.bit Reg.AN_REF_CFG 0 = true ∧ s.dev.bit Reg.AN_REF_STATUS 0 = true
            then { a with calWanted := false, calFrom := some s.clock.dtime } else { a with calWanted := true })
        else a) ∧
  (∀ (s : State) (x : Fin 4) (dt : Nat), s.running = true →
    let a := s.dev.adc x
    let own := (List.range (s.dev.fld (Reg.AN_Cx_CFG x) 4 1 + 1)).map (fun e => (x.val, e))
    let t0 := (s.clock.pass dt).dtime
    let skips := a.calFrom.isSome = true ∨ a.out = true ∨ a.faulted = true
    (∃ t, exec (.adcTriggerSeen dt x) s = .next t ∧ t.pending = s.pending ∧ t.mem = s.mem ∧ t.clock = s.clock.pass dt ∧ t.dev.flt.log = s.dev.flt.log ∧
      (a.sent = [] → t.dev = s.dev) ∧
      ∀ common more, a.sent = common :: more →
        (s.dev.adcOn x = false → t.dev.adc x = { a with sent := more } ∧ t.dev.regs = s.dev.regs) ∧
        (s.dev.adcOn x = true → skips → s.dev.rdN (Reg.AN_Cx_SKIP x) + 1 < 2 ^ 32 → t.dev.adc x = { a with sent := more } ∧
          t.dev.rdN (Reg.AN_Cx_SKIP x) = s.dev.rdN (Reg.AN_Cx_SKIP x) + 1) ∧
        (s.dev.adcOn x = true → ¬ skips → a.running = false → a.guest = none →
          (t.dev.adc x).running = true ∧ (t.dev.adc x).items = own ∧ (t.dev.adc x).start = true ∧ (t.dev.adc x).count = 0 ∧ (t.dev.adc x).sum = 0 ∧
          (t.dev.adc x).sent = more ∧ t.dev.rd (Reg.AN_Cx_START x) = BitVec.ofNat 32 t0) ∧
        (s.dev.adcOn x = true → ¬ skips → a.running = true → a.pending = false → t.dev.adc x = { a with sent := more, pending := true } ∧
          (common = true → s.dev.rdN Reg.AN_CNT_DESYNC + 1 < 2 ^ 32 → t.dev.rdN Reg.AN_CNT_DESYNC = s.dev.rdN Reg.AN_CNT_DESYNC + 1)) ∧
        (s.dev.adcOn x = true → ¬ skips → a.running = true → a.pending = true → s.dev.rdN (Reg.AN_Cx_OVR x) + 1 < 2 ^ 32 →
          t.dev.rdN (Reg.AN_Cx_OVR x) = s.dev.rdN (Reg.AN_Cx_OVR x) + 1 ∧ t.dev.bit (Reg.AN_Cx_FAULT x) 0 = true ∧ (t.dev.adc x).pending = true)) ∧
    (∀ (c : BitVec 24) (overload : Bool) o e rest, a.running = true → a.items = (o, e) :: rest →
      let z := s.dev.adcEntry o e
      let raw := sar ((c.toInt - sgn 24 (s.dev.fld (Reg.AN_Cx_OFFg x z.gain) 23 0)) * (s.dev.fld (Reg.AN_Cx_FSg x z.gain) 23 0 : Int) + 2097152) 22
      let v := clampI (-8388608) 8388607 raw
      let counts := z.k - 1 + z.disc ≤ a.count
      let last := z.k - 1 + z.disc + z.n ≤ a.count + 1
      z.keep = false →
      ∃ t, exec (.adcConversionDone dt x c overload) s = .next t ∧ t.pending = s.pending ∧ t.mem = s.mem ∧ t.clock = s.clock.pass dt ∧
        (¬ last → t.dev.regs = s.dev.regs ∧ (t.dev.adc x).count = a.count + 1 ∧ (t.dev.adc x).items = a.items ∧
          (t.dev.adc x).sum = (if counts then a.sum + v else a.sum)) ∧
        (last → z.chop = true → a.first = none → (t.dev.adc x).count = 0 ∧ (t.dev.adc x).items = a.items ∧
          (t.dev.adc x).first = some ((2 * (a.sum + v) + z.n) / (2 * z.n))) ∧
        (last → z.chop = false → a.first = none → e < 16 → a.queue.length < 16 → (s.dev.adc o).genMark = none → (s.dev.adc o).moveMark = none →
          (t.dev.adc x).items = rest ∧ (t.dev.adc x).count = 0 ∧ (t.dev.adc x).start = false ∧
          ∃ w, (t.dev.adc x).queue = a.queue ++ [.pair o w (t0 % 2 ^ 32) true] ∧ w / 256 = unsgn 24 ((2 * (a.sum + v) + z.n) / (2 * z.n)) ∧
            w / 16 % 16 = e ∧ w % 2 = if a.start then 1 else 0)) ∧
    (a.running = false ∨ a.items = [] → ∀ (c : BitVec 24) (overload : Bool),
      ∃ t, exec (.adcConversionDone dt x c overload) s = .next t ∧ t.clock = s.clock.pass dt ∧ t.dev.an = s.dev.an ∧ t.dev.regs = s.dev.regs ∧
        (s.dev.ana.told.length = 2 → t.dev = s.dev)) ∧
    (∀ cause : Fin 3, (a.faulted = true → s.dev.ana.told.length = 2 → exec (.adcConverterFault x cause) s = .next s) ∧
      (a.faulted = false → ∃ t, exec (.adcConverterFault x cause) s = .next t ∧ deviceOnly s t ∧ (t.dev.adc x).faulted = true ∧
        (t.dev.adc x).running = false ∧ (t.dev.adc x).items = [] ∧ (t.dev.adc x).sent = [] ∧ (t.dev.adc x).delay = none ∧
        t.dev.bit (Reg.AN_Cx_FAULT x) 2 = true ∧ (s.dev.adcOn x = false → (∀ o, o < 4 → (s.dev.adc o).back = false) →
          recorded s.dev t.dev ⟨s.clock.dtime, uid 12 x 0, 3, BitVec.ofNat 32 (cause + 1)⟩))) ∧
    (∀ (y : Nat) (meas : List (BitVec 24 × BitVec 24)), a.calFrom = some y → a.out = false →
      ∃ t, exec (.adcCalibrationDone x meas) s = .next t ∧ t.pending = s.pending ∧ t.mem = s.mem ∧
        t.clock = s.clock.reach (y + (1351680 * 3125 + 47) / 48) ∧ (t.dev.adc x).calFrom = none ∧ (t.dev.adc x).cals = a.cals + 1 ∧
        ∀ g, g < 8 →
          let p := (meas.getD g (0, 0)).1.toInt
          let q := (meas.getD g (0, 0)).2.toInt - p
          if p.natAbs ≤ 2 ^ 20 ∧ 6606029 ≤ q ∧ q ≤ 8074035 then
            t.dev.rd (Reg.AN_Cx_OFFg x g) = BitVec.ofNat 32 (unsgn 24 p) ∧
            t.dev.rdN (Reg.AN_Cx_FSg x g) = (2 * (7340032 * 2 ^ 22) + q.toNat) / (2 * q.toNat)
          else t.dev.rd (Reg.AN_Cx_OFFg x g) = s.dev.rd (Reg.AN_Cx_OFFg x g) ∧ t.dev.rd (Reg.AN_Cx_FSg x g) = s.dev.rd (Reg.AN_Cx_FSg x g) ∧
            t.dev.bit (Reg.AN_Cx_FAULT x) 3 = true) ∧
    (∀ (o : Fin 4) word stamp result rest, quietMemory s.dev → a.queue = .pair o word stamp result :: rest →
      let size := 4096 * 2 ^ s.dev.fld (Reg.AN_Cx_CFG o) 11 8
      let wr := s.dev.rdN (Reg.AN_Cx_WR o)
      let rd := s.dev.rdN (Reg.AN_Cx_RD o)
      let buf := s.dev.rdN (Reg.AN_Cx_BUF o)
      ∃ t, exec (.adcResultWrite x) s = .next t ∧ t.pending = s.pending ∧ t.clock = s.clock ∧
        t.mem = s.mem.writes (frameWrites (buf + wr) 4 word ++ frameWrites (buf + wr + 4) 4 stamp) ∧
        t.dev.rdN (Reg.AN_Cx_WR o) = (wr + 8) % size ∧ t.dev.rdN (Reg.AN_Cx_RD o) = (if (wr + 8) % size = rd then (rd + 8) % size else rd) ∧
        ((wr + 8) % size = rd → s.dev.rdN (Reg.AN_Cx_LOST o) + 1 < 2 ^ 32 → t.dev.rdN (Reg.AN_Cx_LOST o) = s.dev.rdN (Reg.AN_Cx_LOST o) + 1) ∧
        (result = true → ⟨48 + o, BitVec.ofNat 32 word, s.clock.dtime⟩ ∈ t.dev.ev) ∧ (rest = [] → (t.dev.adc x).queue = []) ∧
        (rest = [.seqEnd] → (t.dev.adc x).queue = [] ∧ ⟨52, BitVec.ofNat 32 x, s.clock.dtime⟩ ∈ t.dev.ev)) ∧
    (a.queue = [] → s.dev.fab.held = [] → exec (.adcResultWrite x) s = .next s) ∧
    (a.running = false ∨ a.items ≠ [] → exec (.adcSequenceEnd x) s = .next s) ∧
    (a.running = true → a.items = [] → a.queue = [] → a.guest = none → (∀ o, o < 4 → (s.dev.adc o).back = false) → a.rolling = false → a.calWanted = false → ¬ skips → s.dev.regs.swaps = [] →
      ∃ t, exec (.adcSequenceEnd x) s = .next t ∧ deviceOnly s t ∧ t.dev.ev = s.dev.ev ++ [⟨52, BitVec.ofNat 32 x, s.clock.dtime⟩] ∧
        (t.dev.adc x).seqs = a.seqs + 1 ∧ (t.dev.adc x).pending = false ∧
        if s.dev.adcOn x = true ∧ (a.pending = true ∨ (s.dev.adcCommon x = false ∧ s.dev.fld (Reg.AN_Cx_TRIG x) 1 0 = 3)) then
          (t.dev.adc x).running = true ∧ (t.dev.adc x).items = own ∧ t.dev.rd (Reg.AN_Cx_START x) = BitVec.ofNat 32 s.clock.dtime
        else (t.dev.adc x).running = false)) ∧
  (∀ (s : State) (who : Fin 5) (src : AdcSource), s.running = true →
    let f := fun (hi lo : Nat) => s.dev.fld (if who = 4 then Reg.AN_COMMON else Reg.AN_Cx_TRIG who) hi lo
    let named := match src with
      | .event n => f 1 0 = 1 ∧ f 9 2 = n
      | .lace b c what => f 1 0 = 2 ∧ f 12 10 = b ∧ f 16 13 = c ∧ f 19 17 = what
    (¬ named → exec (.adcTriggerTick ⟨who, src⟩) s = .next s) ∧
    (named →
      (who = 4 → s.dev.ana.delay = none → ∃ t, exec (.adcTriggerTick ⟨who, src⟩) s = .next t ∧ deviceOnly s t ∧ t.dev.regs = s.dev.regs ∧ t.dev.an = s.dev.an ∧
        t.dev.ana.delay = some (s.clock.dtime + s.dev.fld Reg.AN_COMMON_DELAY 24 0)) ∧
      (who = 4 → s.dev.ana.delay.isSome = true → ∃ t, exec (.adcTriggerTick ⟨who, src⟩) s = .next t ∧ deviceOnly s t ∧ t.dev.ana = s.dev.ana ∧
        ∀ x, x < 4 → s.dev.adcCommon x = true → s.dev.adcOn x = true → s.dev.rdN (Reg.AN_Cx_OVR x) + 1 < 2 ^ 32 →
          t.dev.rdN (Reg.AN_Cx_OVR x) = s.dev.rdN (Reg.AN_Cx_OVR x) + 1 ∧ t.dev.bit (Reg.AN_Cx_FAULT x) 0 = true) ∧
      (who ≠ 4 → s.dev.adcCommon who = true ∨ s.dev.adcOn who = false → exec (.adcTriggerTick ⟨who, src⟩) s = .next s) ∧
      (who ≠ 4 → s.dev.adcCommon who = false → s.dev.adcOn who = true → ∃ t, exec (.adcTriggerTick ⟨who, src⟩) s = .next t ∧ deviceOnly s t ∧
        ((s.dev.adc who).skips = true → s.dev.rdN (Reg.AN_Cx_SKIP who) + 1 < 2 ^ 32 → t.dev.an = s.dev.an ∧
          t.dev.rdN (Reg.AN_Cx_SKIP who) = s.dev.rdN (Reg.AN_Cx_SKIP who) + 1) ∧
        ((s.dev.adc who).skips = false → (s.dev.adc who).delay = none →
          t.dev.adc who = { s.dev.adc who with delay := some (s.clock.dtime + s.dev.fld (Reg.AN_Cx_DELAY who) 24 0) } ∧ t.dev.regs = s.dev.regs) ∧
        ((s.dev.adc who).skips = false → (s.dev.adc who).delay.isSome = true → s.dev.rdN (Reg.AN_Cx_OVR who) + 1 < 2 ^ 32 →
          t.dev.rdN (Reg.AN_Cx_OVR who) = s.dev.rdN (Reg.AN_Cx_OVR who) + 1 ∧ t.dev.bit (Reg.AN_Cx_FAULT who) 0 = true))) ∧
    ∀ y, s.dev.emitDue who = some y → ∃ t, exec (.adcDelayEmit who) s = .next t ∧ t.pending = s.pending ∧ t.mem = s.mem ∧ t.clock = s.clock.reach y ∧
      t.dev.regs = s.dev.regs ∧ (who ≠ 4 → t.dev.adc who = { s.dev.adc who with delay := none, sent := (s.dev.adc who).sent ++ [false] }) ∧
      (who = 4 → t.dev.ana.delay = none ∧ ∀ x, x < 4 →
        t.dev.adc x = if s.dev.adcCommon x then { s.dev.adc x with sent := (s.dev.adc x).sent ++ [true] } else s.dev.adc x)) ∧
  ∀ s : State, s.running = true →
    (∀ y, s.dev.ana.extAt = some y → ∃ t, exec (.adcReferenceReady true) s = .next t ∧ t.pending = s.pending ∧ t.mem = s.mem ∧ t.clock = s.clock.reach y ∧
      t.dev.bit Reg.AN_REF_STATUS 1 = true ∧ t.dev.ana.extAt = none ∧ t.dev.an = s.dev.an) ∧
    (∀ y, s.dev.ana.intAt = some y → ∃ t, exec (.adcReferenceReady false) s = .next t ∧ t.pending = s.pending ∧ t.mem = s.mem ∧ t.clock = s.clock.reach y ∧
      t.dev.bit Reg.AN_REF_STATUS 0 = true ∧ t.dev.ana.intAt = none ∧ ∀ x, x < 4 →
        let a := s.dev.adc x
        t.dev.adc x = if a.calWanted = true ∧ a.running = false ∧ a.faulted = false ∧ a.calFrom = none ∧ s.dev.bit Reg.AN_REF_CFG 0 = true
          then { a with calWanted := false, calFrom := some t.clock.dtime } else a) ∧
    (∃ t, exec (.externalReferenceLow true) s = .next t ∧ deviceOnly s t ∧ t.dev.bit Reg.AN_REF_STATUS 2 = true ∧ t.dev.bit Reg.AN_FAULT 0 = true ∧
      recorded s.dev t.dev ⟨s.clock.dtime, uid 12 4 5, 8, 2⟩) ∧
    (∃ t, exec (.externalReferenceLow false) s = .next t ∧ deviceOnly s t ∧ t.dev.bit Reg.AN_REF_STATUS 2 = false ∧ t.dev.flt = s.dev.flt) ∧
    ∀ (n : Fin 2) (at_ : Bool), ∃ t, exec (.excitationAtCompliance n at_) s = .next t ∧ deviceOnly s t ∧ t.dev.ana.comply = s.dev.ana.comply.set n at_ ∧
      (at_ = false ∨ s.dev.ana.told.getD n false = true → t.dev.flt = s.dev.flt) ∧
      (at_ = true → t.dev.bit Reg.AN_FAULT 1 = true ∧ (s.dev.ana.told.getD n false = false →
        recorded s.dev t.dev ⟨s.clock.dtime, uid 12 5 (n + 1), 9, BitVec.ofNat 32 (s.dev.iexPin n)⟩))


/-! ## Serial ports, execute-in-place, the slave port and the pins (R300 to R318) -/

/-- The SP, XIP, SPS and GP rows. That a transfer's bits follow the nominal SCK time is the model's choice (log 209), that data changed since
the select's fall are free too (log 210).
Rows stated to complete: SP_START, SP_TX_WRITE, SP_RX_READ, SP_ABORT, SP_TRANSFER_COMPLETE, SP_GUARD_STOP, SP_READY_CHANGE, SP_BYTE_RESUME, SP_READY_TIMEOUT, SP_STATUS_FIRST_RETRY, XIP_INVALIDATE, XIP_LINE_FILL_DONE, XIP_FETCH, SPS_SELECT_FALL, SPS_STATUS, SPS_FAULT, SPS_IDENT, SPS_ARM, SPS_STOP, SPS_MALFORMED, SPS_ARM_EXPIRE, SAFE_STOP_CLEAR, GP_SET, GP_CLR, GP_INPUT_EDGE. -/
def Obligations.SerialPortsSafeStopAndPins : Prop :=
  (∀ (s : State) (n : Fin 4), s.running = true →
    let x := s.dev.port n
    let accessed := n = 0 ∧ s.dev.xip.cur.isSome = true
    let wait := fun (t : Nat) => if s.dev.notReady n then SpPause.ready t else .none
    let from_ := fun (t : Nat) => if s.dev.bit (Reg.SP_Mn_SEL n) 0 = true ∧ x.select = false then t + 2 * s.dev.fld (Reg.SP_Mn_SEL n) 23 16 else t
    let ends := fun (i : Instr) (outcome left received now : Nat) => ∃ t, exec i s = .next t ∧ t.pending = s.pending ∧ t.mem = s.mem ∧ t.clock = s.clock.reach now ∧
      t.dev.port n = { t.dev.port n with cur := none, next := none, pause := .none, tx := x.tx.drop left, select := false, done := x.done + 1 } ∧
      (∃ got : List Byte, got.length = received ∧ (t.dev.port n).rx = x.rx ++ got) ∧
      (s.dev.rdN (Reg.SP_Mn_CNT_ABORT n) + 1 < 2 ^ 32 → t.dev.rdN (Reg.SP_Mn_CNT_ABORT n) = s.dev.rdN (Reg.SP_Mn_CNT_ABORT n) + 1) ∧
      t.dev.ev = s.dev.ev ++ [⟨56 + n, BitVec.ofNat 32 outcome, t.clock.dtime⟩]
    let logs := fun (i : Instr) (code flag detail : Nat) => ∃ t, exec i s = .next t ∧ t.dev.bit (Reg.SP_Mn_FAULT n) flag = true ∧
      (SMap.get none x.recAt code = none → recorded s.dev t.dev ⟨t.clock.dtime, uid 13 n 0, code, BitVec.ofNat 32 detail⟩)
    (∀ v : Word,
      let len := s.dev.fld (Reg.SP_Mn_LEN n) 12 0
      let dir := v.toNat / 4 % 4
      let quad := v.toNat.testBit 5
      let q : SpTransfer := ⟨len, dir, v.toNat.testBit 4, quad, 0, 0, 0, 0, 0⟩
      let bad := s.dev.portOn n = false ∨ len = 0 ∨ 4096 < len ∨ dir = 3 ∨ (quad = true ∧ (n ≠ 0 ∨ dir = 0 ∨ len % 4 ≠ 0)) ∨ x.next.isSome = true
      (bad → ∃ t, exec (.spStart n v) s = .next t ∧ deviceOnly s t ∧ t.dev.sp = s.dev.sp ∧ t.dev.bit (Reg.SP_Mn_FAULT n) 6 = true ∧ t.dev.flt = s.dev.flt ∧
        ∀ a, a ≠ Reg.SP_Mn_FAULT n → t.dev.rd a = s.dev.rd a) ∧
      (¬ bad → x.cur.isSome = true ∨ accessed → ∃ t, exec (.spStart n v) s = .next t ∧ deviceOnly s t ∧ t.dev.port n = { x with next := some q } ∧
        t.dev.regs = s.dev.regs ∧ t.dev.xip = s.dev.xip) ∧
      (¬ bad → x.cur = none → ¬ accessed → ∃ t, exec (.spStart n v) s = .next t ∧ deviceOnly s t ∧
        t.dev.port n = { x with cur := some { q with from_ := from_ s.clock.dtime }, select := s.dev.bit (Reg.SP_Mn_SEL n) 0, pause := wait s.clock.dtime } ∧
        (n ≠ 0 ∨ s.dev.xip.cont = false → t.dev.regs = s.dev.regs) ∧ (n ≠ 0 → t.dev.xip = s.dev.xip) ∧
        (n = 0 → t.dev.xip = { s.dev.xip with cont := false, wait := s.dev.xip.wait.map (fun w => (w.1, false)) } ∧
          (s.dev.xip.cont = true → s.dev.rdN Reg.SP_XIP_CNT_EXIT + 1 < 2 ^ 32 →
            t.dev.rdN Reg.SP_XIP_CNT_EXIT = s.dev.rdN Reg.SP_XIP_CNT_EXIT + 1))) ∧
      ∃ t, exec (.spTxWrite n v) s = .next t ∧ deviceOnly s t ∧
        (x.tx.length ≤ 508 → t.dev.port n = { x with tx := x.tx ++ leBytes 4 v.toNat } ∧ t.dev.regs = s.dev.regs) ∧
        (508 < x.tx.length → t.dev.sp = s.dev.sp ∧ t.dev.bit (Reg.SP_Mn_FAULT n) 4 = true)) ∧
    (∃ t, exec (.spRxRead n) s = .next t ∧ deviceOnly s t ∧
      (x.rx ≠ [] → t.dev.port n = { x with rx := x.rx.drop 4 } ∧ t.dev.regs = s.dev.regs) ∧
      (x.rx = [] → t.dev.sp = s.dev.sp ∧ t.dev.bit (Reg.SP_Mn_FAULT n) 5 = true)) ∧
    (x.cur = none → ∃ t, exec (.spAbort n) s = .next t ∧ deviceOnly s t ∧ t.dev.port n = { x with next := none } ∧ t.dev.regs = s.dev.regs) ∧
    (x.cur = none ∨ x.pause ≠ .none → ∀ rx, exec (.spTransferComplete n rx) s = .next s) ∧
    (∀ bits, s.dev.bit (Reg.SP_Mn_SEL n) 0 = false ∨ x.cur = none ∨ x.select = false → exec (.spGuardStop n bits) s = .next s) ∧
    (∀ level : Bool,
      let nr := s.dev.bit (Reg.SP_Mn_SEL n) 7 && decide (level ≠ s.dev.bit (Reg.SP_Mn_SEL n) 13)
      ∃ t, exec (.spReadyChange n level) s = .next t ∧ deviceOnly s t ∧ t.dev.regs = s.dev.regs ∧
        (x.cur = none ∨ x.pause = .fifo ∨ (∃ y, x.pause = .retry y) ∨ (x.pause = .none ∧ nr = false) ∨ ((∃ y, x.pause = .ready y) ∧ nr = true) →
          t.dev.port n = { x with ready := level }) ∧
        (∀ r, x.cur = some r → x.pause = .none → nr = true →
          let g := if s.dev.bit (Reg.SP_Mn_SEL n) 14 then r.step else 8
          let bits := (s.dev.spBits s.clock.dtime n r + g - 1) / g * g
          let y := max s.clock.dtime (r.from_ + (bits - r.bit0) / r.step * s.dev.sckTicks n)
          t.dev.port n = if min r.bits (8 * (r.pos + s.dev.spRoom n r)) ≤ bits then { x with ready := level }
            else { x with ready := level, cur := some { r with bit0 := bits, from_ := y }, pause := .ready y }) ∧
        ∀ r y, x.cur = some r → x.pause = .ready y → nr = false →
          t.dev.port n = { x with ready := level, pause := .none, cur := some { r with from_ := if s.clock.dtime < y then r.from_ else max r.from_ (s.clock.dtime + 6) } }) ∧
    (∀ r, x.cur = some r → x.pause ≠ .fifo ∨ s.dev.spRoom n r = 0 → exec (.spByteResume n) s = .next s) ∧
    ((∀ y, x.pause ≠ .ready y) ∨ s.dev.fld (Reg.SP_Mn_TIMES n) 15 0 = 0 → exec (.spReadyTimeout n) s = .next s) ∧
    ((∀ y, x.pause ≠ .retry y) → exec (.spStatusFirstRetry n) s = .next s) ∧
    ∀ r, x.cur = some r →
      let sf := s.dev.bit (Reg.SP_Mn_SF n) 0
      let left := if sf then r.words else r.words - r.pos
      let received := fun (bits : Nat) => if r.dir = 1 then 0 else min (bits / 8 - r.pos) (s.dev.spRoom n r)
      (x.next = none → ends (.spAbort n) 1 left (received (s.dev.spBits s.clock.dtime n r)) s.clock.dtime) ∧
      (∀ bits, x.next = none → s.dev.bit (Reg.SP_Mn_SEL n) 0 = true → x.select = true →
        ends (.spGuardStop n bits) 1 left (received bits) s.clock.dtime ∧ logs (.spGuardStop n bits) 1 0 bits) ∧
      (∀ y, x.pause = .ready y → s.dev.fld (Reg.SP_Mn_TIMES n) 15 0 ≠ 0 → x.next = none →
        ends (.spReadyTimeout n) 2 left (received r.bit0) (y + 512 * s.dev.fld (Reg.SP_Mn_TIMES n) 15 0) ∧ logs (.spReadyTimeout n) 2 1 r.bit0) ∧
      (x.pause = .fifo → 0 < s.dev.spRoom n r → ∃ t, exec (.spByteResume n) s = .next t ∧ deviceOnly s t ∧ t.dev.regs = s.dev.regs ∧
        t.dev.port n = { x with cur := some { r with from_ := s.clock.dtime }, pause := wait s.clock.dtime }) ∧
      (∀ y, x.pause = .retry y → ∃ t, exec (.spStatusFirstRetry n) s = .next t ∧ t.pending = s.pending ∧ t.mem = s.mem ∧ t.clock = s.clock.reach y ∧
        t.dev.port n = { x with cur := some { r with pos := 0, bit0 := 0, from_ := from_ t.clock.dtime, retries := r.retries + 1 },
                                select := s.dev.bit (Reg.SP_Mn_SEL n) 0, pause := wait t.clock.dtime } ∧
        (s.dev.rdN (Reg.SP_Mn_CNT_RETRY n) + 1 < 2 ^ 32 → t.dev.rdN (Reg.SP_Mn_CNT_RETRY n) = s.dev.rdN (Reg.SP_Mn_CNT_RETRY n) + 1)) ∧
      ∀ rx : List Byte, x.pause = .none →
        (sf = false → r.pos = 0 → 0 < r.bits → r.dir ≤ 2 → (r.dir ≠ 2 → (r.bits + 7) / 8 ≤ x.tx.length) → (r.dir ≠ 1 → x.rx.length + (r.bits + 7) / 8 ≤ 512) →
          ∃ t, exec (.spTransferComplete n rx) s = .next t ∧ deviceOnly s t ∧ t.dev.ev = s.dev.ev ++ [⟨56 + n, 0, s.clock.dtime⟩] ∧
            (∀ q, x.next = some q → n ≠ 0 ∨ (s.dev.xip.cur = none ∧ (s.dev.xip.wait = [] ∨ r.hold = true)) →
              ∃ y, s.clock.dtime ≤ y ∧ (t.dev.port n).cur = some { q with from_ := y }) ∧
            (∀ line l, n = 0 → s.dev.xip.wait = (line, false) :: l → r.hold = false → t.dev.xip.cur = some (line, false) ∧ (t.dev.port n).cur = none) ∧
            (x.next = none → t.dev.port n = { x with cur := none, tx := x.tx.drop (if r.dir = 2 then 0 else ((r.bits + 7) / 8 + 3) / 4 * 4),
                                                     rx := if r.dir = 1 then x.rx else x.rx ++ (List.range ((r.bits + 7) / 8)).map (fun i => spByte (s.dev.bit (Reg.SP_Mn_CFG n) 3) r.bits i (rx.getD i 0)),
                                                     select := x.select && r.hold, done := x.done + 1 })) ∧
        (sf = false → r.dir = 1 → r.pos + x.tx.length < (r.bits + 7) / 8 → ∃ t, exec (.spTransferComplete n rx) s = .next t ∧ deviceOnly s t ∧
          t.dev.regs = s.dev.regs ∧ t.dev.ev = s.dev.ev ∧ (t.dev.port n).pause = .fifo ∧ (t.dev.port n).tx = [] ∧ (t.dev.port n).rx = x.rx ∧
          (t.dev.port n).cur.map SpTransfer.pos = some (r.pos + x.tx.length)) ∧
        (sf = true → r.pos = 0 → 0 < s.dev.spRoom n r →
          let first := (spByte (s.dev.bit (Reg.SP_Mn_CFG n) 3) r.bits 0 (rx.getD 0 0)).toNat
          first &&& s.dev.fld (Reg.SP_Mn_SF n) 15 8 = s.dev.fld (Reg.SP_Mn_SF n) 23 16 →
          (r.retries < s.dev.fld (Reg.SP_Mn_SF n) 27 24 → ∃ t, exec (.spTransferComplete n rx) s = .next t ∧ deviceOnly s t ∧ t.dev.regs = s.dev.regs ∧
            t.dev.port n = { x with cur := some { r with status := first }, select := false, pause := .retry (s.clock.dtime + 512 * s.dev.fld (Reg.SP_Mn_TIMES n) 31 16) }) ∧
          (s.dev.fld (Reg.SP_Mn_SF n) 27 24 ≤ r.retries → x.next = none →
            ends (.spTransferComplete n rx) 2 r.words 0 s.clock.dtime ∧ logs (.spTransferComplete n rx) 3 2 first))) ∧
  (∀ s : State, s.running = true →
    let z := s.dev.xip
    (∃ t, exec .xipInvalidate s = .next t ∧ deviceOnly s t ∧ t.dev = { s.dev with xip := { z with lines := [] } }) ∧
    (∀ bytes : List Byte,
      (z.cur = none → exec (.xipLineFillDone bytes) s = .next s) ∧
      ∀ line pre, z.cur = some (line, pre) → bytes.length = 64 → ∃ t, exec (.xipLineFillDone bytes) s = .next t ∧ deviceOnly s t ∧
        t.dev.xip.lines = ((line, bytes) :: z.lines.filter (fun y => decide (y.1 ≠ line))).take 8 ∧
        (pre = true ∨ (∃ l ∈ t.dev.xip.lines, l.1 = line + 1) →
          (z.wait = [] → (s.dev.port 0).next = none → t.dev.xip.cur = none ∧ t.dev.xip.cont = z.cont ∧ t.dev.regs = s.dev.regs) ∧
          ∀ q, z.wait = [] → (s.dev.port 0).cur = none → (s.dev.port 0).next = some q → t.dev.xip.cur = none ∧
            ∃ y, s.clock.dtime ≤ y ∧ (t.dev.port 0).cur = some { q with from_ := y }) ∧
        (∀ l rest, z.wait = (l, false) :: rest → t.dev.xip.cur = some (l, false) ∧ t.dev.xip.wait = rest.filter (fun w => decide (w.1 ≠ l))) ∧
        (pre = false → z.wait = [] → (∀ l ∈ t.dev.xip.lines, l.1 ≠ line + 1) →
          t.dev.xip.cur = some (line + 1, true) ∧ t.dev.xip.cont = z.cont ∧ t.dev.regs = s.dev.regs)) ∧
    ∀ (k : Fin 4) (offset : BitVec 26), s.dev.fab.held = [] →
      let a := offset.toNat + s.dev.fld Reg.SP_XIP_OFF 25 0
      let inFlash := a < 2 ^ s.dev.fld Reg.SP_XIP_CFG 28 24
      (s.dev.runs k = none → exec (.xipFetch k offset) s = .next s) ∧
      ∀ c, s.dev.runs k = some c →
        (∀ l, s.dev.bit Reg.SP_XIP_CFG 0 = true → inFlash → z.lines.find? (fun l => decide (l.1 = a / 64)) = some l →
          ∃ t, exec (.xipFetch k offset) s = .next t ∧ deviceOnly s t ∧
            t.dev = { s.dev with xip := { z with lines := l :: z.lines.filter (fun y => decide (y.1 ≠ a / 64)) } }) ∧
        (s.dev.bit Reg.SP_XIP_CFG 0 = true → inFlash → (∀ l ∈ z.lines, l.1 ≠ a / 64) →
          let waits := z.cur = some (a / 64, false) ∨ ∃ w ∈ z.wait, w.1 = a / 64
          let p := s.dev.port 0
          let reading := ∃ y, z.cur = some (y, false)
          (waits → exec (.xipFetch k offset) s = .next s) ∧
          (¬ waits → s.dev.rdN Reg.SP_XIP_CNT_MISS + 1 < 2 ^ 32 →
          ∃ t, exec (.xipFetch k offset) s = .next t ∧ deviceOnly s t ∧ t.dev.rdN Reg.SP_XIP_CNT_MISS = s.dev.rdN Reg.SP_XIP_CNT_MISS + 1 ∧
            (reading ∨ z.wait ≠ [] ∨ p.cur.isSome = true ∨ p.select = true → t.dev.xip.wait = z.wait ++ [(a / 64, p.next.isSome)] ∧
              t.dev.xip.lines = z.lines ∧ t.dev.sp = s.dev.sp ∧ (reading → t.dev.xip.cur = z.cur) ∧ (¬ reading → t.dev.xip.cur = none)) ∧
            (¬ reading → z.wait = [] → p.cur = none → p.select = false →
              (p.next = none → t.dev.xip = { z with cur := some (a / 64, false), cont := s.dev.bit Reg.SP_XIP_CFG 5 }) ∧
              ∀ q, p.next = some q → (∃ y, s.clock.dtime ≤ y ∧ (t.dev.port 0).cur = some { q with from_ := y }) ∧ t.dev.xip.cur = none ∧ t.dev.xip.wait = [(a / 64, false)]))) ∧
        (s.dev.bit Reg.SP_XIP_CFG 0 = true → ¬ inFlash → (s.dev.core k).locks = [] → (∀ e, (s.dev.tctx e).state ≠ .ready) → (s.dev.tctx c).pendAt = none →
          ∃ t, exec (.xipFetch k offset) s = .next t ∧ t.mem = s.mem ∧ (t.dev.tctx c).state = .faulted ∧ t.dev.bit (Reg.SP_Mn_FAULT 0) 3 = true)) ∧
  (∀ (s : State) (extra : Nat) (key : BitVec 16), s.running = true →
    let z := s.dev.sps
    let st : Byte := BitVec.ofNat 8 z.status
    let statusData := [if s.dev.safe then 2 else 1, if s.dev.flt.active then 1 else 0] ++ leBytes 2 (min 65535 s.dev.flt.count) ++ leBytes 2 s.dev.dieMax ++
      leBytes 2 (s.clock.dtime / 2 ^ 22)
    let faultData := match s.dev.flt.log with
      | r :: _ => leBytes 8 r.dtime ++ leBytes 2 r.unit ++ leBytes 2 r.code ++ leBytes 4 r.detail.toNat
      | [] => List.replicate 16 0
    let released := s.dev.pw.rel1.toNat.testBit 24
    let answers := fun (t : State) (cmd : Nat) (reply : List Byte) => deviceOnly s t ∧
      t.dev.sent = (if released then .sps (st :: st :: reply ++ List.replicate extra 0) :: s.dev.sent else s.dev.sent) ∧
      t.dev.sps.select = false ∧ t.dev.sps.error = false ∧ t.dev.sps.transactions = z.transactions + 1 ∧
      (extra ≠ 0 → s.dev.rdN Reg.SP_SPS_CNT_LONG + 1 < 2 ^ 32 → t.dev.rdN Reg.SP_SPS_CNT_LONG = s.dev.rdN Reg.SP_SPS_CNT_LONG + 1) ∧
      (⟨60, BitVec.ofNat 32 cmd, s.clock.dtime⟩ : EventOcc) ∈ t.dev.ev
    let spoilt := fun (t : State) (reg n : Nat) (unknown : Bool) => deviceOnly s t ∧ t.dev.sps.select = false ∧ t.dev.sps.error = true ∧ t.dev.sps.armed = none ∧
      (∃ l : List Byte, t.dev.sent = (if released then .sps l :: s.dev.sent else s.dev.sent) ∧ l.length = n ∧ (∀ i, i < 2 → i < n → l[i]? = some st) ∧
        (unknown = true → ∀ i, 2 ≤ i → i < n → l[i]? = some 0)) ∧
      t.dev.bit Reg.SP_SPS_FAULT 0 = true ∧ (s.dev.rdN reg + 1 < 2 ^ 32 → t.dev.rdN reg = s.dev.rdN reg + 1)
    let works := s.dev.bit Reg.SP_SPS_CFG 1 = true ∧ s.dev.fld Reg.SP_SPS_KEY 15 0 ≠ 0
    let keyOk := key.toNat = s.dev.fld Reg.SP_SPS_KEY 15 0
    (s.dev.bit Reg.SP_SPS_CFG 0 = false → exec .spsSelectFall s = .next s) ∧
    (s.dev.bit Reg.SP_SPS_CFG 0 = true → ∃ t, exec .spsSelectFall s = .next t ∧ deviceOnly s t ∧
      let b := 128 + (if s.dev.safe then 32 else 0) + (if z.armed.isSome then 16 else 0) + (if z.error then 8 else 0) + (if s.dev.flt.active then 4 else 0) + 2 +
        (if s.dev.feature 11 then 1 else 0)
      t.dev.sps = { z with select := true, status := b, mirror := statusData ++ faultData } ∧ t.dev.fld Reg.SP_SPS_STATUS 7 0 = b ∧ ∀ a, a ≠ Reg.SP_SPS_STATUS → t.dev.rd a = s.dev.rd a) ∧
    (z.select = false → (∀ i ∈ [Instr.spsStatus extra, .spsFault extra, .spsIdent extra, .spsArm extra key], exec i s = .next s) ∧
      (noShutter s.dev → exec (.spsStop extra key) s = .next s)) ∧
    (z.select = true →
      (∃ t reply, exec (.spsStatus extra) s = .next t ∧ t.dev.sps.armed = z.armed ∧ answers t 0x11 reply ∧ reply.length = 8 ∧
        ∀ i, i < 8 → z.mirror[i]? = statusData[i]? → reply[i]? = statusData[i]?) ∧
      (∃ t reply, exec (.spsFault extra) s = .next t ∧ t.dev.sps.armed = none ∧ answers t 0x12 reply ∧ reply.length = 16 ∧
        ∀ i, i < 16 → z.mirror[8 + i]? = faultData[i]? → reply[i]? = faultData[i]?) ∧
      (∃ t, exec (.spsIdent extra) s = .next t ∧ t.dev.sps.armed = none ∧ answers t 0x13 (leBytes 8 s.dev.pw.serial.toNat ++ [s.dev.pw.check])) ∧
      (s.dev.feature 11 = true →
        (∃ t, exec (.spsArm extra key) s = .next t ∧ answers t 0x21 [0, 0] ∧ t.dev.safe = s.dev.safe ∧
          t.dev.sps.armed = (if works ∧ keyOk then some (s.clock.dtime + 400000) else none) ∧
          (works → ¬ keyOk → s.dev.rdN Reg.SP_SPS_CNT_KEY + 1 < 2 ^ 32 → t.dev.rdN Reg.SP_SPS_CNT_KEY = s.dev.rdN Reg.SP_SPS_CNT_KEY + 1)) ∧
        (noShutter s.dev → ∃ t, exec (.spsStop extra key) s = .next t ∧ answers t 0x22 [0, 0] ∧
          (¬ works ∨ (keyOk ∧ z.armed = none) → t.dev.safe = s.dev.safe ∧ t.dev.vb = s.dev.vb ∧ t.dev.sps.armed = z.armed) ∧
          (works → ¬ keyOk → t.dev.safe = s.dev.safe ∧ t.dev.vb = s.dev.vb ∧ t.dev.sps.armed = none ∧
            (s.dev.rdN Reg.SP_SPS_CNT_KEY + 1 < 2 ^ 32 → t.dev.rdN Reg.SP_SPS_CNT_KEY = s.dev.rdN Reg.SP_SPS_CNT_KEY + 1)) ∧
          (works → keyOk → z.armed.isSome = true → t.dev.safe = true ∧ t.dev.sps.armed = none ∧ t.dev.bit Reg.SP_SPS_FAULT 1 = true ∧
            ∀ b, b < 8 → s.dev.vbOn b = true → (t.dev.bank b).state = 3 ∧ ((s.dev.bank b).state ≠ 3 → bankDown t b)))) ∧
      (s.dev.feature 11 = false → noShutter s.dev → ∀ i ∈ [Instr.spsArm extra key, .spsStop extra key], ∃ t, exec i s = .next t ∧
        spoilt t Reg.SP_SPS_CNT_BADCMD (4 + extra) true ∧ t.dev.vb = s.dev.vb ∧ t.dev.safe = s.dev.safe) ∧
      ∀ (kind : Fin 3) (cmd : Byte) (n : Nat), ∃ t, exec (.spsMalformed ⟨kind, n⟩ cmd) s = .next t ∧
        spoilt t (if kind = 0 then Reg.SP_SPS_CNT_PART else if kind = 1 then Reg.SP_SPS_CNT_SHORT else Reg.SP_SPS_CNT_BADCMD) n (decide (kind = 2)) ∧ t.dev.vb = s.dev.vb ∧
        (z.recAt = none → recorded s.dev t.dev ⟨s.clock.dtime, uid 13 4 0, 5, BitVec.ofNat 32 (cmd.toNat + 256 * (kind.val + 1))⟩)) ∧
    (z.armed = none → exec .spsArmExpire s = .next s) ∧
    (∀ y, z.armed = some y → ∃ t, exec .spsArmExpire s = .next t ∧ t.pending = s.pending ∧ t.mem = s.mem ∧ t.clock = s.clock.reach y ∧
      t.dev = { s.dev with sps := { z with armed := none } }) ∧
    ∃ t, exec .safeStopClear s = .next t ∧ deviceOnly s t ∧ t.dev = { s.dev with safe := false }) ∧
  ∀ (s : State) (v : Word), s.running = true →
    let takes := fun (p : Nat) => v.toNat.testBit p = true ∧ s.dev.pinOwner p = 0
    let denied := ∃ p, p < 20 ∧ v.toNat.testBit p = true ∧ s.dev.pinOwner p ≠ 0
    (∀ i ∈ [(Instr.gpSet v, true), (.gpClr v, false)], ∃ t, exec i.1 s = .next t ∧ deviceOnly s t ∧
      (∀ p, p < 20 → (takes p → t.dev.bit Reg.GP_OUT p = i.2) ∧ (¬ takes p → t.dev.bit Reg.GP_OUT p = s.dev.bit Reg.GP_OUT p)) ∧
      (¬ denied → ∀ a, a ≠ Reg.GP_OUT → t.dev.rd a = s.dev.rd a) ∧
      (denied → s.dev.rdN Reg.GP_CNT_DENY + 1 < 2 ^ 32 → t.dev.rdN Reg.GP_CNT_DENY = s.dev.rdN Reg.GP_CNT_DENY + 1 ∧
        ∀ a, a ≠ Reg.GP_OUT → a ≠ Reg.GP_CNT_DENY → t.dev.rd a = s.dev.rd a)) ∧
    ∀ (p : Fin 20) (level : Bool) (stable : Nat),
      let chosen := s.dev.bit (Reg.GP_Pp_CFG p) (if level then 2 else 3)
      (stable < s.dev.fld (Reg.GP_Pp_CFG p) 19 12 ∨ s.dev.bit Reg.GP_IN p = level → exec (.gpInputEdge p level stable) s = .next s) ∧
      (s.dev.fld (Reg.GP_Pp_CFG p) 19 12 ≤ stable → s.dev.bit Reg.GP_IN p ≠ level → ∃ t, exec (.gpInputEdge p level stable) s = .next t ∧ deviceOnly s t ∧
        t.dev.bit Reg.GP_IN p = level ∧ (∀ q, q ≠ p.val → t.dev.bit Reg.GP_IN q = s.dev.bit Reg.GP_IN q) ∧
        (chosen = true → t.dev.bit Reg.GP_EDGE p = true ∧ ∀ q, q ≠ p.val → q < 32 → t.dev.bit Reg.GP_EDGE q = s.dev.bit Reg.GP_EDGE q) ∧
        (chosen = false → t.dev.rd Reg.GP_EDGE = s.dev.rd Reg.GP_EDGE) ∧
        t.dev.ev = s.dev.ev ++ (if chosen = true ∧ s.dev.bit (Reg.GP_Pp_CFG p) 4 = true then
          [⟨96 + s.dev.fld (Reg.GP_Pp_CFG p) 9 5, BitVec.ofNat 32 p, s.clock.dtime⟩] else []))

/-! ## The task cores' instructions (R322 to R352) -/

/-- The ALU functions that do not clamp, and the immediates (R329, R330).
Rows stated to complete: AND, OR, XOR, ANDI, ORI, XORI, SHL, SHR, SAR, MUL, MULH, MULHU, MIN, MAX, MINU, MAXU, ADD, ADC, ADDI, SUB, SBC, CLZ, LUI. -/
def Obligations.AluResultsAndFlags : Prop :=
  ∀ (s : State) (k : Fin 4) (c : Nat) (rd ra rb : Fin 16) (sh : BitVec 5) (imm : BitVec 18) (up : BitVec 22), issues s k c →
    let x := s.dev.tctx c
    let a := x.reg ra
    let b := x.reg rb
    let i := imm.signExtend 32
    let z := imm.zeroExtend 32
    let n := (b.toNat + sh.toNat) % 32
    let cy := if x.flg.c then 1 else 0
    let out := fun (v : Int) => decide (v < -2 ^ 31) || decide (2 ^ 31 ≤ v)
    (∀ p ∈ [(Instr.and k rd ra rb, a &&& b), (.or k rd ra rb, a ||| b), (.xor k rd ra rb, a ^^^ b), (.andi k rd ra imm, a &&& z),
        (.ori k rd ra imm, a ||| z), (.xori k rd ra imm, a ^^^ z), (.shl k rd ra rb sh, a <<< n), (.shr k rd ra rb sh, a >>> n),
        (.sar k rd ra rb sh, a.sshiftRight n), (.mul k rd ra rb, BitVec.ofNat 32 (a.toNat * b.toNat)),
        (.mulh k rd ra rb, BitVec.ofInt 32 (a.toInt * b.toInt / 2 ^ 32)), (.mulhu k rd ra rb, BitVec.ofNat 32 (a.toNat * b.toNat / 2 ^ 32)),
        (.min k rd ra rb, BitVec.ofInt 32 (min a.toInt b.toInt)), (.max k rd ra rb, BitVec.ofInt 32 (max a.toInt b.toInt)),
        (.minu k rd ra rb, BitVec.ofNat 32 (min a.toNat b.toNat)), (.maxu k rd ra rb, BitVec.ofNat 32 (max a.toNat b.toNat))],
      ∃ t, exec p.1 s = .next t ∧ completes s t k c ∧ took x (t.dev.tctx c) rd p.2 { x.flg with n := p.2.msb, z := decide (p.2 = 0) }) ∧
    (∀ p ∈ [(Instr.add k rd ra rb, b, 0), (.adc k rd ra rb, b, cy), (.addi k rd ra imm, i, 0)],
      ∃ t, exec p.1 s = .next t ∧ completes s t k c ∧
        let v := BitVec.ofNat 32 (a.toNat + p.2.1.toNat + p.2.2)
        took x (t.dev.tctx c) rd v ⟨v.msb, decide (v = 0), decide (2 ^ 32 ≤ a.toNat + p.2.1.toNat + p.2.2), out (a.toInt + p.2.1.toInt + p.2.2),
          x.flg.satn⟩) ∧
    (∀ p ∈ [(Instr.sub k rd ra rb, 0), (.sbc k rd ra rb, cy)],
      ∃ t, exec p.1 s = .next t ∧ completes s t k c ∧
        let v := BitVec.ofInt 32 (a.toInt - b.toInt - p.2)
        took x (t.dev.tctx c) rd v ⟨v.msb, decide (v = 0), decide (a.toNat < b.toNat + p.2), out (a.toInt - b.toInt - p.2), x.flg.satn⟩) ∧
    (∃ t v, exec (.clz k rd ra) s = .next t ∧ completes s t k c ∧ v ≤ 32 ∧ (∀ j, 32 - v ≤ j → a.getLsbD j = false) ∧
      (v < 32 → a.getLsbD (31 - v) = true) ∧
      took x (t.dev.tctx c) rd (BitVec.ofNat 32 v) { x.flg with n := false, z := decide (v = 0) }) ∧
    ∃ t, exec (.lui k rd up) s = .next t ∧ completes s t k c ∧ took x (t.dev.tctx c) rd (up.zeroExtend 32 <<< 10) x.flg

/-- The ALU functions that clamp (R322, R330, R331).
Rows stated to complete: ADDS, SUBS, SATS, SATU, QMUL, QMULU. -/
def Obligations.AluClampsToItsLimits : Prop :=
  ∀ (s : State) (k : Fin 4) (c : Nat) (rd ra rb : Fin 16) (sh : BitVec 5), issues s k c →
    let x := s.dev.tctx c
    let a := x.reg ra
    let b := x.reg rb
    let q := fun (p : Int) => if sh = 0 then p else (p + 2 ^ (sh.toNat - 1)) / 2 ^ sh.toNat
    ∀ p ∈ [(Instr.adds k rd ra rb, -2 ^ 31, 2 ^ 31 - 1, a.toInt + b.toInt), (.subs k rd ra rb, -2 ^ 31, 2 ^ 31 - 1, a.toInt - b.toInt),
        (.sats k rd ra sh, -2 ^ sh.toNat, 2 ^ sh.toNat - 1, a.toInt), (.satu k rd ra sh, 0, 2 ^ (sh.toNat + 1) - 1, a.toInt),
        (.qmul k rd ra rb sh, -2 ^ 31, 2 ^ 31 - 1, q (a.toInt * b.toInt)),
        (.qmulu k rd ra rb sh, 0, 2 ^ 32 - 1, q ((a.toNat : Int) * b.toNat))],
      ∃ t, exec p.1 s = .next t ∧ completes s t k c ∧
        let e := p.2.2.2
        let w := BitVec.ofInt 32 (if e < p.2.1 then p.2.1 else if p.2.2.1 < e then p.2.2.1 else e)
        took x (t.dev.tctx c) rd w (clampFlags x.flg w (decide (e < p.2.1) || decide (p.2.2.1 < e)))

/-- DIV and DIVU (R332).
Rows stated to complete: DIV, DIVU. -/
def Obligations.DivisionAndItsCorners : Prop :=
  ∀ (s : State) (k : Fin 4) (c : Nat) (rd ra rb : Fin 16), issues s k c →
    let x := s.dev.tctx c
    let a := x.reg ra
    let b := x.reg rb
    (∃ t, exec (.div k rd ra rb) s = .next t ∧ completes s t k c ∧
      (b = 0 → 0 ≤ a.toInt → took x (t.dev.tctx c) rd 0x7FFFFFFF (clampFlags x.flg 0x7FFFFFFF true)) ∧
      (b = 0 → a.toInt < 0 → took x (t.dev.tctx c) rd 0x80000000 (clampFlags x.flg 0x80000000 true)) ∧
      (a = 0x80000000 → b = 0xFFFFFFFF → took x (t.dev.tctx c) rd 0x7FFFFFFF (clampFlags x.flg 0x7FFFFFFF true)) ∧
      (b ≠ 0 → ¬ (a = 0x80000000 ∧ b = 0xFFFFFFFF) →
        ∃ q : Int, q.natAbs = a.toInt.natAbs / b.toInt.natAbs ∧ (q ≠ 0 → (0 < q ↔ (0 < a.toInt ↔ 0 < b.toInt))) ∧
          took x (t.dev.tctx c) rd (BitVec.ofInt 32 q) (clampFlags x.flg (BitVec.ofInt 32 q) false))) ∧
    ∃ t, exec (.divu k rd ra rb) s = .next t ∧ completes s t k c ∧
      (b = 0 → took x (t.dev.tctx c) rd 0xFFFFFFFF (clampFlags x.flg 0xFFFFFFFF true)) ∧
      (b ≠ 0 → took x (t.dev.tctx c) rd (BitVec.ofNat 32 (a.toNat / b.toNat)) (clampFlags x.flg (BitVec.ofNat 32 (a.toNat / b.toNat)) false))

/-- Control flow and its faults (R326, R333, R351 to R354).
Rows stated to complete: BR, BL, JALR, NOP, SYNC, YIELD, FETCH_FAULT, HALT, TRAP, ILLEGAL_INSTRUCTION. -/
def Obligations.BranchesSysAndTraps : Prop :=
  (∀ (s : State) (k : Fin 4) (c : Nat) (rd ra : Fin 16) (o : BitVec 22) (j : BitVec 26) (imm : BitVec 18), issues s k c →
    let x := s.dev.tctx c
    let f := x.flg
    (∀ p ∈ [((0 : Fin 16), true), (1, f.z), (2, f.c), (3, f.n), (4, f.v), (5, !f.c && !f.z), (6, f.n != f.v), (7, f.z || f.n != f.v),
        (9, !f.z), (10, !f.c), (11, !f.n), (12, !f.v), (13, f.c || f.z), (14, f.n == f.v), (15, !f.z && f.n == f.v)],
      ∃ t, exec (.br k p.1 o) s = .next t ∧ completes s t k c ∧
        jumped x (t.dev.tctx c) (if p.2 = true then x.pc + 4 * o.signExtend 32 else x.pc + 4)) ∧
    (∃ t, exec (.bl k j) s = .next t ∧ completes s t k c ∧ (t.dev.tctx c).reg 15 = x.pc + 4 ∧ (∀ n, n ≠ 15 → (t.dev.tctx c).reg n = x.reg n) ∧
      jumped { x with g := (t.dev.tctx c).g } (t.dev.tctx c) (x.pc + 4 * j.signExtend 32)) ∧
    (∃ t, exec (.jalr k rd ra imm) s = .next t ∧ completes s t k c ∧ (t.dev.tctx c).reg rd = (if rd = 0 then 0 else x.pc + 4) ∧
      (∀ n, n ≠ rd.val → (t.dev.tctx c).reg n = x.reg n) ∧
      jumped { x with g := (t.dev.tctx c).g } (t.dev.tctx c) (x.reg ra + imm.signExtend 32)) ∧
    (∃ t, exec (.nop k) s = .next t ∧ completes s t k c ∧ jumped x (t.dev.tctx c) (x.pc + 4)) ∧
    ((s.dev.fab.held.any (fun h => h.1 = k.val)) = false →
      ∃ t, exec (.sync k) s = .next t ∧ completes s t k c ∧ jumped x (t.dev.tctx c) (x.pc + 4)) ∧
    ((s.dev.core k).locks = [] → ∃ t, exec (.yield k) s = .next t ∧ (t.dev.tctx c).pc = x.pc + 4 ∧ (t.dev.tctx c).flg = x.flg ∧
      (∀ n, (t.dev.tctx c).reg n = x.reg n) ∧ ((t.dev.tctx c).state = .ready ∨ (t.dev.tctx c).state = .running)) ∧
    (s.dev.fab.held = [] → ∃ t, exec (.fetchFault k false) s = .next t ∧ deviceOnly s t ∧ t.dev = s.dev)) ∧
  (∀ (s : State) (k : Fin 4) (c : Nat) (o : BitVec 22) (op : BitVec 6) (code : BitVec 16), calmTask s k c →
    (∃ t, exec (.halt k) s = .next t ∧ t.mem = s.mem ∧ (t.dev.tctx c).pc = (s.dev.tctx c).pc + 4 ∧ (t.dev.tctx c).state = .idle ∧
      (∀ n, (t.dev.tctx c).reg n = (s.dev.tctx c).reg n) ∧ (t.dev.core k).ctx = none ∧ ∀ e, e ≠ c → t.dev.tctx e = s.dev.tctx e) ∧
    (∃ t, exec (.br k 8 o) s = .next t ∧ faulted s t k c 0x101 0x13 0) ∧
    (∃ t, exec (.trap k code) s = .next t ∧ faulted s t k c 0x10B code.toNat 0) ∧
    (∃ t, exec (.illegalInstruction k op) s = .next t ∧ faulted s t k c 0x101 op.toNat 0) ∧
    ∃ t, exec (.fetchFault k true) s = .next t ∧ faulted s t k c 0x102 ((s.dev.tctx c).pc.toNat / 4) 0) ∧
  (∀ (s : State) (k : Fin 4) (c : Nat), s.running = true → s.dev.runs k = some c → s.dev.fetchable (s.dev.tctx c).pc.toNat = false →
    (s.dev.core k).locks = [] → s.dev.fab.held = [] → (∀ e, (s.dev.tctx e).state ≠ .ready) → (s.dev.tctx c).pendAt = none →
    let a := (s.dev.tctx c).pc.toNat
    let beyond := 0x40000000 ≤ a ∧ a < 0x44000000 ∧ s.dev.bit Reg.SP_XIP_CFG 0 = true ∧ s.dev.xipByte (a - 0x40000000) = none
    (¬ beyond → ∃ t, exec (.nop k) s = .next t ∧ faulted s t k c 0x102 (a / 4) 0) ∧
    (beyond → ∃ t u, exec (.nop k) s = .next t ∧ faulted u t k c 0x102 (a / 4) 0 ∧ deviceOnly s u ∧ u.dev.bit (Reg.SP_Mn_FAULT 0) 3 = true ∧
      recorded s.dev u.dev ⟨s.clock.dtime, uid 13 0 0, 4, BitVec.ofNat 32 (a - 0x40000000 + s.dev.fld Reg.SP_XIP_OFF 25 0)⟩ ∧
      ∀ e, u.dev.tctx e = s.dev.tctx e)) ∧
  ∀ (s : State) (k : Fin 4) (c a : Nat), s.running = true → s.dev.runs k = some c → s.dev.fetchable (s.dev.tctx c).pc.toNat = true →
    (s.dev.tctx c).refused = some (a, true) → (s.dev.core k).locks = [] → s.dev.fab.held = [] → (∀ e, (s.dev.tctx e).state ≠ .ready) →
    (s.dev.tctx c).pendAt = none → ∃ t, exec (.nop k) s = .next t ∧ faulted s t k c 0x105 a (BitVec.ofNat 32 a)

/-- MFS and MTS (R323, R324, R338).
Rows stated to complete: MFS, MTS. -/
def Obligations.SpecialRegisters : Prop :=
  (∀ (s : State) (k : Fin 4) (c : Nat) (rd ra : Fin 16), issues s k c →
    let x := s.dev.tctx c
    let a := x.reg ra
    let w := fun (n : Nat) => BitVec.ofNat 32 n
    (∀ p ∈ [((0 : Fin 32), w (c + 4096 * k)), (1, w x.dln), (3, x.tmo), (4, w x.evg), (5, x.evm), (6, x.evp), (7, x.evrec), (8, x.evtime),
        (9, x.evcnt), (10, w s.clock.dtime), (12, BitVec.ofInt 32 s.clock.wpos), (17, x.fpc), (18, x.faddr)],
      ∃ t, exec (.mfs k rd p.1) s = .next t ∧ completes s t k c ∧ took x (t.dev.tctx c) rd p.2 x.flg) ∧
    (∀ p ∈ [((2 : Fin 32), w (x.dln / 2 ^ 32)), (11, w (s.clock.dtime / 2 ^ 32)), (13, BitVec.ofInt 32 (s.clock.wpos / 2 ^ 32))],
      ∃ t, exec (.mfs k rd p.1) s = .next t ∧ completes s t k c ∧ took x (t.dev.tctx c) rd ((s.dev.heldOf (.core k)).getD p.2) x.flg ∧
        t.dev.heldOf (.core k) = none) ∧
    (∀ p ∈ [((1 : Fin 32), w (x.dln / 2 ^ 32)), (10, w (s.clock.dtime / 2 ^ 32)), (12, BitVec.ofInt 32 (s.clock.wpos / 2 ^ 32))],
      ∃ t, exec (.mfs k rd p.1) s = .next t ∧ t.dev.heldOf (.core k) = some p.2) ∧
    (s.dev.coreOf c = some k.val → ∃ t, exec (.mfs k rd 14) s = .next t ∧ completes s t k c ∧
      took x (t.dev.tctx c) rd (w (min (2 ^ 32 - 1) (x.cyc + (s.clock.dtime * 15 / 4 - (s.dev.core k).since * 15 / 4)))) x.flg) ∧
    (∃ t v, exec (.mfs k rd 15) s = .next t ∧ completes s t k c ∧ took x (t.dev.tctx c) rd v x.flg ∧ v.getLsbD 0 = x.flg.n ∧
      v.getLsbD 1 = x.flg.z ∧ v.getLsbD 2 = x.flg.c ∧ v.getLsbD 3 = x.flg.v ∧ (∀ i, 4 ≤ i → i < 16 → v.getLsbD i = false) ∧
      ∀ i, i < 16 → v.getLsbD (16 + i) = x.flg.satn.getLsbD i) ∧
    ((s.dev.core k).locks = [] → ∃ t, exec (.mfs k rd 16) s = .next t ∧ completes s t k c ∧ took x (t.dev.tctx c) rd 0 x.flg) ∧
    (∀ l ls, (s.dev.core k).locks = l :: ls → ls.length < 2 → l.rank < 16 → l.accesses < 256 →
      ∃ t v, exec (.mfs k rd 16) s = .next t ∧ completes s t k c ∧ took x (t.dev.tctx c) rd (w v) x.flg ∧ v < 2 ^ 25 ∧ nfld v 1 0 = ls.length + 1 ∧
        nfld v 7 4 = l.rank ∧ nfld v 15 8 = l.accesses ∧ nfld v 24 16 = (s.clock.dtime * 15 / 4 - l.since * 15 / 4) % 512) ∧
    (∀ p ∈ [((3 : Fin 32), { x with tmo := a }), (4, { x with evg := a.toNat % 8, evm := 0, evp := 0 }), (5, { x with evm := a, evp := x.evp &&& a }),
        (15, { x with flg := ⟨a.getLsbD 0, a.getLsbD 1, a.getLsbD 2, a.getLsbD 3, a.extractLsb' 16 16⟩ })],
      ∃ t, exec (.mts k p.1 ra) s = .next t ∧ completes s t k c ∧ t.dev.tctx c = { p.2 with pc := x.pc + 4 })) ∧
  ∀ (s : State) (k : Fin 4) (c : Nat) (rd ra : Fin 16) (sr : Fin 32), calmTask s k c →
    (19 ≤ sr.val → ∃ t, exec (.mfs k rd sr) s = .next t ∧ faulted s t k c 0x101 7 0) ∧
    (sr ≠ 3 → sr ≠ 4 → sr ≠ 5 → sr ≠ 15 → ∃ t, exec (.mts k sr ra) s = .next t ∧ faulted s t k c 0x101 8 0)

/-- Loads that complete (R325, R334).
Rows stated to complete: LDW, LDH, LDHU, LDB, LDBU. -/
def Obligations.LoadsReadTheirSpace : Prop :=
  ∀ (s : State) (k : Fin 4) (c : Nat) (rd ra : Fin 16) (imm : BitVec 18), issues s k c → (s.dev.core k).locks = [] → s.dev.fab.held = [] →
    (∀ e, (s.dev.tctx e).state ≠ .ready) →
    let x := s.dev.tctx c
    let a := (x.reg ra + imm.signExtend 32).toNat
    let byte := fun (v : Nat) => BitVec.ofNat 8 v
    let half := fun (v : Nat) => BitVec.ofNat 16 v
    ∀ p ∈ [(Instr.ldw k rd ra imm, 4, fun v => BitVec.ofNat 32 v), (.ldh k rd ra imm, 2, fun v => (half v).signExtend 32),
        (.ldhu k rd ra imm, 2, fun v => (half v).zeroExtend 32), (.ldb k rd ra imm, 1, fun v => (byte v).signExtend 32),
        (.ldbu k rd ra imm, 1, fun v => (byte v).zeroExtend 32)],
      a % p.2.1 = 0 →
        (a < 0x40000 → ∃ t, exec (p.1 false) s = .next t ∧ completes s t k c ∧
          took x (t.dev.tctx c) rd (p.2.2 (s.mem.locNat (k * 0x40000 + a) p.2.1)) x.flg) ∧
        (0x10000000 ≤ a → a < 0x13000000 → s.dev.poisoned (a - 0x10000000) p.2.1 = false →
          ∃ t, exec (p.1 false) s = .next t ∧ completes s t k c ∧
            took x (t.dev.tctx c) rd (p.2.2 (s.mem.frameNat (a - 0x10000000) p.2.1)) x.flg) ∧
        ∀ f, 0x40000000 ≤ a → a < 0x44000000 → s.dev.bit Reg.SP_XIP_CFG 0 = true → s.dev.xipByte (a - 0x40000000) = some f →
          (∀ l, s.dev.xip.lines.find? (fun l => decide (l.1 = f / 64)) = some l → ∃ t, exec (p.1 false) s = .next t ∧ t.mem = s.mem ∧
            took x (t.dev.tctx c) rd (p.2.2 (leNat ((List.range p.2.1).map (fun i => l.2.getD (f % 64 + i) 0)))) x.flg) ∧
          (s.dev.xip.lines.find? (fun l => decide (l.1 = f / 64)) = none → s.dev.xip.cur = none → s.dev.xip.wait = [] →
            (s.dev.port 0).cur = none → (s.dev.port 0).next = none → (s.dev.port 0).select = false →
            ∃ t, exec (p.1 false) s = .next t ∧ t.mem = s.mem ∧ t.dev.tctx c = x ∧ t.dev.xip.cur = some (f / 64, false) ∧
              (s.dev.rdN Reg.SP_XIP_CNT_MISS + 1 < 2 ^ 32 → t.dev.rdN Reg.SP_XIP_CNT_MISS = s.dev.rdN Reg.SP_XIP_CNT_MISS + 1))

/-- Stores that complete, DLD and DST (R334, R335).
Rows stated to complete: STW, STH, STB, DLD, DST, OTHER_REGISTER_WRITE, DST_REFUSED. -/
def Obligations.StoresWriteTheirBytes : Prop :=
  (∀ (s : State) (k : Fin 4) (c : Nat) (rs ra : Fin 16) (imm : BitVec 18), issues s k c → (s.dev.core k).locks = [] → quietMemory s.dev →
    let x := s.dev.tctx c
    let a := (x.reg ra + imm.signExtend 32).toNat
    (∀ p ∈ [(Instr.stw k rs ra imm, 4), (.sth k rs ra imm, 2), (.stb k rs ra imm, 1)], a % p.2 = 0 →
      (a < 0x40000 → ∃ t, exec p.1 s = .next t ∧ t.pending = s.pending ∧ t.clock = s.clock ∧ jumped x (t.dev.tctx c) (x.pc + 4) ∧
        (∀ e, e ≠ c → t.dev.tctx e = s.dev.tctx e) ∧ (∀ r, t.dev.rd r = s.dev.rd r) ∧
        locStored s.mem t.mem (k * 0x40000 + a) p.2 (x.reg rs).toNat) ∧
      (0x10000000 ≤ a → a < 0x13000000 → ∃ t, exec p.1 s = .next t ∧ t.pending = s.pending ∧ t.clock = s.clock ∧
        jumped x (t.dev.tctx c) (x.pc + 4) ∧ (∀ e, e ≠ c → t.dev.tctx e = s.dev.tctx e) ∧ (∀ r, t.dev.rd r = s.dev.rd r) ∧
        frameStored s.mem t.mem (a - 0x10000000) p.2 (x.reg rs).toNat)) ∧
    (a % 4 = 0 → a < 0x100000 →
      (∃ t, exec (.dld k rs ra imm) s = .next t ∧ t.pending = s.pending ∧ t.clock = s.clock ∧ t.mem = s.mem ∧
        took x (t.dev.tctx c) rs (s.dev.regRead s.mem s.now (.core k) a).1 x.flg) ∧
      (s.dev.swapBusy a = true → ∃ t, exec (.dst k rs ra imm) s = .next t ∧ deviceOnly s t ∧ (∀ r, t.dev.rd r = s.dev.rd r) ∧
        t.dev.tctx c = { x with pc := x.pc + 4, refused := some (a, false) }) ∧
      (s.dev.swapBusy a = false → ∃ t u, exec (.dst k rs ra imm) s = .next t ∧ exec (.otherRegisterWrite (.core k) (BitVec.ofNat 20 a) (x.reg rs)) u = .next t ∧
        deviceOnly s u ∧ jumped x (u.dev.tctx c) (x.pc + 4) ∧ completes s u k c))) ∧
  ∀ (s : State) (c : Fin 1024) (a : Nat) (b : Bool), s.running = true → (s.dev.tctx c).refused = some (a, b) →
    ∃ t, exec (.dstRefused c) s = .next t ∧ deviceOnly s t ∧ t.dev.tctx c = { s.dev.tctx c with refused := some (a, true) } ∧
      (∀ e, e ≠ c.val → t.dev.tctx e = s.dev.tctx e) ∧ ∀ r, t.dev.rd r = s.dev.rd r

/-- Loads, stores, DLD and DST that fault (R334, R335, R354). -/
def Obligations.AccessesThatFault : Prop :=
  ∀ (s : State) (k : Fin 4) (c : Nat) (rd ra : Fin 16) (imm : BitVec 18) (bad : Bool), calmTask s k c →
    let x := s.dev.tctx c
    let w := x.reg ra + imm.signExtend 32
    let a := w.toNat
    let data := a < 0x40000 ∨ (0x10000000 ≤ a ∧ a < 0x13000000)
    let none_ := 0x40000 ≤ a ∧ (a < 0x10000000 ∨ 0x13000000 ≤ a) ∧ (a < 0x40000000 ∨ 0x44000000 ≤ a ∨ s.dev.bit Reg.SP_XIP_CFG 0 = false)
    (∀ p ∈ [(Instr.ldw k rd ra imm bad, 4), (.stw k rd ra imm, 4), (.ldh k rd ra imm bad, 2), (.ldhu k rd ra imm bad, 2), (.sth k rd ra imm, 2)],
      data → a % p.2 ≠ 0 → ∃ t, exec p.1 s = .next t ∧ faulted s t k c 0x103 a w) ∧
    (∀ i ∈ [Instr.ldw k rd ra imm bad, .ldh k rd ra imm bad, .ldhu k rd ra imm bad, .ldb k rd ra imm bad, .ldbu k rd ra imm bad,
        .stw k rd ra imm, .sth k rd ra imm, .stb k rd ra imm],
      none_ → ∃ t, exec i s = .next t ∧ faulted s t k c 0x104 a w) ∧
    (∀ i ∈ [Instr.stw k rd ra imm, .sth k rd ra imm, .stb k rd ra imm], 0x40000000 ≤ a → a < 0x44000000 →
      ∃ t, exec i s = .next t ∧ faulted s t k c 0x104 a w) ∧
    (∀ p ∈ [(Instr.ldw k rd ra imm true, 4), (.ldh k rd ra imm true, 2), (.ldhu k rd ra imm true, 2), (.ldb k rd ra imm true, 1),
        (.ldbu k rd ra imm true, 1)], a % p.2 = 0 →
      (a < 0x40000 → ∃ t, exec p.1 s = .next t ∧ faulted s t k c 0x106 a w) ∧
      (0x10000000 ≤ a → a < 0x13000000 → ∃ t, exec p.1 s = .next t ∧ t.mem = s.mem ∧ (t.dev.tctx c).state = .faulted ∧
        (t.dev.tctx c).faddr = w ∧ (∀ n, (t.dev.tctx c).reg n = x.reg n) ∧
        (s.dev.rdN Reg.FB_CNT_UE + 1 < 2 ^ 32 → t.dev.rdN Reg.FB_CNT_UE = s.dev.rdN Reg.FB_CNT_UE + 1))) ∧
    ∀ i ∈ [Instr.dld k rd ra imm, .dst k rd ra imm], a % 4 ≠ 0 ∨ 0x100000 ≤ a → ∃ t, exec i s = .next t ∧ faulted s t k c 0x105 a w

/-- LOCK, LOCK_GRANT, UNLOCK, LOCK_LIMIT_BREAK and LOCK_PREEMPT (R341 to R343, R395 to R399).
Rows stated to complete: LOCK, LOCK_GRANT, STW, LDW, UNLOCK, LOCK_LIMIT_BREAK, LOCK_PREEMPT. -/
def Obligations.LockedSequences : Prop :=
  (∀ (s : State) (k : Fin 4) (c : Nat) (rd ra rank : Fin 16), issues s k c → (s.dev.core k).locks = [] → s.dev.fab.held = [] →
    let x := s.dev.tctx c
    let a := (x.reg ra).toNat
    let b := bankOf (a - 0x10000000)
    0x10000000 ≤ a → a < 0x13000000 → rank.val = s.dev.bankRank b → s.dev.fab.waiters = [] →
      (s.dev.lockOwner b = none → ∃ t, exec (.lock k rd ra rank) s = .next t ∧ t.mem = s.mem ∧ t.clock = s.clock ∧
        took { x with wait := .none } (t.dev.tctx c) rd (if s.dev.fab.abandoned.contains b then 1 else 0) { x.flg with z := true } ∧
        (t.dev.core k).locks = [⟨b, rank, s.clock.dtime, 0, [], 0⟩] ∧ t.dev.fab.abandoned = s.dev.fab.abandoned.erase b ∧
        (∀ e, e ≠ c → t.dev.tctx e = s.dev.tctx e)) ∧
      (∀ j, s.dev.lockOwner b = some j → ∃ t, exec (.lock k rd ra rank) s = .next t ∧ t.mem = s.mem ∧
        t.dev.tctx c = { x with wait := .lock rd b rank, state := .suspended } ∧ (t.dev.core k).ctx = some c ∧ (t.dev.core k).locks = [] ∧
        exec (.lockGrant k) t = .next t)) ∧
  (∀ (s : State) (k : Fin 4), s.running = true →
    (s.dev.lockWaitsFor k = none → exec (.lockGrant k) s = .next s) ∧
    ∀ (c b rank : Nat) (rd : Fin 16), (s.dev.core k).ctx = some c → (s.dev.tctx c).wait = .lock rd b rank →
      let x := s.dev.tctx c
      let first := (s.dev.fab.waiters.filter (fun j => decide (s.dev.lockWaitsFor j = some b))).head? = some k.val
      let drained := ∀ h ∈ s.dev.fab.held, beatIn (fun y => decide (y = b)) h.2 = false
      (s.dev.lockOwner b = none → drained → first → ∃ t, exec (.lockGrant k) s = .next t ∧ deviceOnly s t ∧
        took { x with wait := .none, state := .running } (t.dev.tctx c) rd (if s.dev.fab.abandoned.contains b then 1 else 0) { x.flg with z := true } ∧
        (t.dev.core k).ctx = some c ∧ (t.dev.core k).locks = ⟨b, rank, s.clock.dtime, 0, [], 0⟩ :: (s.dev.core k).locks ∧
        t.dev.fab = { s.dev.fab with abandoned := s.dev.fab.abandoned.erase b, waiters := s.dev.fab.waiters.erase k } ∧
        (s.dev.rdN Reg.FB_CNT_LOCK + 1 < 2 ^ 32 → t.dev.rdN Reg.FB_CNT_LOCK = s.dev.rdN Reg.FB_CNT_LOCK + 1) ∧
        (∀ a, a ≠ Reg.FB_CNT_LOCK → t.dev.rd a = s.dev.rd a) ∧ (∀ j, j ≠ k.val → t.dev.core j = s.dev.core j) ∧ ∀ e, e ≠ c → t.dev.tctx e = s.dev.tctx e) ∧
      (s.dev.lockOwner b ≠ none ∨ ¬ drained ∨ ¬ first → exec (.lockGrant k) s = .next s)) ∧
  (∀ (s : State) (k : Fin 4) (c : Nat) (rs rd ra : Fin 16) (imm : BitVec 18) (l : Lock), issues s k c → (s.dev.core k).locks = [l] →
    s.dev.fab.held = [] → s.dev.fab.mirror = none → s.dev.fab.retired = [] → s.dev.fab.poisonFrame = [] →
    (∀ j, j < 4 → j ≠ k.val → (s.dev.core j).locks = []) → (∀ e, (s.dev.tctx e).state ≠ .ready) →
    let x := s.dev.tctx c
    let a := (x.reg ra + imm.signExtend 32).toNat
    (l.broken = 0 → l.cycles s.clock.dtime < 256 → l.accesses < 16 → 0x10000000 ≤ a → a < 0x13000000 → a % 4 = 0 → bankOf (a - 0x10000000) = l.bank →
      (∃ t, exec (.stw k rs ra imm) s = .next t ∧ t.mem = s.mem ∧ jumped x (t.dev.tctx c) (x.pc + 4) ∧
        (t.dev.core k).locks = [{ l with accesses := l.accesses + 1, writes := l.writes ++ [(a - 0x10000000, 4, (x.reg rs).toNat)] }]) ∧
      (∀ ws v, l.writes = ws ++ [(a - 0x10000000, 4, v)] →
        ∃ t, exec (.ldw k rd ra imm false) s = .next t ∧ t.mem = s.mem ∧ took x (t.dev.tctx c) rd (BitVec.ofNat 32 v) x.flg)) ∧
    (l.broken = 0 → l.cycles s.clock.dtime ≤ 256 →
      ∃ t, exec (.unlock k rd) s = .next t ∧ took x (t.dev.tctx c) rd 0 { x.flg with z := true } ∧ (t.dev.core k).locks = [] ∧
        t.mem = s.mem.writes ((l.writes.map (fun w => frameWrites w.1 w.2.1 w.2.2)).flatten)) ∧
    (l.broken ≠ 0 → ∃ t, exec (.unlock k rd) s = .next t ∧ took x (t.dev.tctx c) rd (BitVec.ofNat 32 l.broken) { x.flg with z := false } ∧
      (t.dev.core k).locks = [] ∧ t.mem = s.mem)) ∧
  (∀ (s : State) (k : Fin 4) (l : Lock) (b : Fin 16) (debug : Bool), s.running = true → (s.dev.core k).locks = [l] → l.broken = 0 →
    s.dev.fab.held = [] → (∀ e, (s.dev.tctx e).state ≠ .ready) → (∀ j, j < 4 → j ≠ k.val → (s.dev.core j).locks = []) →
    s.dev.rdN Reg.FB_CNT_BREAK + 1 < 2 ^ 32 →
    (s.clock.drive = true → ∃ t, exec (.lockLimitBreak k) s = .next t ∧ t.mem = s.mem ∧
      (t.dev.core k).locks = [{ l with broken := 2, writes := [] }] ∧ t.dev.rdN Reg.FB_CNT_BREAK = s.dev.rdN Reg.FB_CNT_BREAK + 1 ∧
      t.clock.dtime = max s.clock.dtime (((l.since * 15 / 4 + 256) * 4 + 14) / 15)) ∧
    (l.bank = b.val → ∃ t, exec (.lockPreempt b debug) s = .next t ∧ t.mem = s.mem ∧
      (t.dev.core k).locks = [{ l with broken := 1, writes := [] }] ∧ t.dev.rdN Reg.FB_CNT_BREAK = s.dev.rdN Reg.FB_CNT_BREAK + 1)) ∧
  ∀ (s : State) (k : Fin 4) (c : Nat) (rd ra rank : Fin 16), calmTask s k c →
    let w := (s.dev.tctx c).reg ra
    let a := w.toNat
    (a < 0x10000000 ∨ 0x13000000 ≤ a → ∃ t, exec (.lock k rd ra rank) s = .next t ∧ faulted s t k c 0x104 a w) ∧
    (0x10000000 ≤ a → a < 0x13000000 → rank.val ≠ s.dev.bankRank (bankOf (a - 0x10000000)) →
      ∃ t, exec (.lock k rd ra rank) s = .next t ∧ faulted s t k c 0x107 rank 0) ∧
    ∃ t, exec (.unlock k rd) s = .next t ∧ faulted s t k c 0x109 0 0

/-- ENACT and its cancel form (R345, R346).
Rows stated to complete: ENACT, ENACT_CANCEL. -/
def Obligations.EnactAnswersInOrder : Prop :=
  (∀ (s : State) (k : Fin 4) (c : Nat) (rd ra : Fin 16) (kind n : Fin 8), issues s k c → s.dev.fab.held = [] → kind.val < 6 →
    let x := s.dev.tctx c
    let id := (x.reg ra).toNat
    let answers := fun (i : Instr) (st g : Nat) (swaps : List Swap) =>
      ∃ t, exec i s = .next t ∧ completes s t k c ∧ t.dev.regs.swaps = swaps ∧
        took x (t.dev.tctx c) rd (BitVec.ofNat 32 (st + 65536 * g)) { x.flg with z := decide (st = 0 ∨ st = 8) }
    (idSet id = none → answers (.enact k rd ra kind n) 7 0 s.dev.regs.swaps ∧ answers (.enactCancel k rd ra) 7 0 s.dev.regs.swaps) ∧
    ∀ u, idSet id = some u →
      let g := s.dev.gen u % 65536
      let refused := fun (st : Nat) => answers (.enact k rd ra kind n) st g s.dev.regs.swaps
      (2 ≤ kind.val → n ≠ 0 → refused 2) ∧
      (∀ b, boundaryOf kind n = some b →
        (s.dev.accepts u b = false → refused 2) ∧
        (s.dev.accepts u b = true →
          (s.dev.inService (id % 65536) = true → refused 6) ∧
          (s.dev.inService (id % 65536) = false →
            (s.dev.swapOf u ≠ none → refused 1) ∧
            (s.dev.swapOf u = none →
              (s.dev.bound u = true → refused 3) ∧
              (s.dev.bound u = false → s.dev.wantsFeature u = true → refused 4) ∧
              (s.dev.bound u = false → s.dev.wantsFeature u = false → s.dev.invalidSetting u = true → refused 5) ∧
              (s.dev.bound u = false → s.dev.wantsFeature u = false → s.dev.invalidSetting u = false →
                answers (.enact k rd ra kind n) 0 ((s.dev.gen u + 1) % 65536) (s.dev.regs.swaps ++ [⟨u, b, s.clock.dtime⟩])))))) ∧
      (s.dev.swapOf u = none → answers (.enactCancel k rd ra) 9 g s.dev.regs.swaps) ∧
      (s.dev.swapOf u ≠ none → answers (.enactCancel k rd ra) 8 g (s.dev.regs.swaps.filter (fun w => decide (w.set ≠ u))))) ∧
  ∀ (s : State) (k : Fin 4) (c : Nat) (rd ra : Fin 16) (kind n : Fin 8), calmTask s k c → 6 ≤ kind.val →
    ∃ t, exec (.enact k rd ra kind n) s = .next t ∧ faulted s t k c 0x101 0x1C 0

/-- QPUT, QGET, QUEUE_RESUME, QUEUE_TIMEOUT, QUEUE_BIND, QUEUE_UNBIND and QBASE_WRITE (R337, R364).
Rows stated to complete: QPUT, QGET, QUEUE_RESUME, QUEUE_TIMEOUT, QUEUE_BIND, QUEUE_UNBIND, QBASE_WRITE. -/
def Obligations.TaskQueues : Prop :=
  (∀ (s : State) (k : Fin 4) (c : Nat) (r ra : Fin 16) (qi : Byte) (blk : Bool), issues s k c → (s.dev.core k).locks = [] → quietMemory s.dev →
    let x := s.dev.tctx c
    let q := ((x.reg ra).toNat + qi.toNat) % 256
    let y := s.dev.queue q
    let at_ := fun (i : Nat) => s.dev.rdN Reg.TK_QBASE + q * 1024 + i % y.depth * 4
    (y.bound = true → y.producer = c →
      (y.put - y.got < y.depth → ∃ t, exec (.qput k r ra qi blk) s = .next t ∧ t.dev.queue q = { y with put := y.put + 1 } ∧
        (∀ p, p ≠ q → t.dev.queue p = s.dev.queue p) ∧ t.dev.tctx c = { x with pc := x.pc + 4, flg := { x.flg with z := true } } ∧
        (at_ y.put + 4 ≤ frameBytes → frameStored s.mem t.mem (at_ y.put) 4 (x.reg r).toNat)) ∧
      (y.depth ≤ y.put - y.got → blk = false ∨ x.tmo = 0 → ∃ t, exec (.qput k r ra qi blk) s = .next t ∧ completes s t k c ∧
        t.dev.queue q = y ∧ t.dev.tctx c = { x with pc := x.pc + 4, flg := { x.flg with z := false } }) ∧
      (y.depth ≤ y.put - y.got → blk = true → x.tmo ≠ 0 → (∀ e, (s.dev.tctx e).state ≠ .ready) →
        ∃ t, exec (.qput k r ra qi blk) s = .next t ∧ t.mem = s.mem ∧ t.dev.queue q = y ∧ (t.dev.tctx c).state = .suspended ∧
          (t.dev.tctx c).pc = x.pc ∧ (t.dev.core k).ctx = none ∧
          (t.dev.tctx c).wait = .put q (x.reg r) (if x.tmo = 0xFFFFFFFF then none else some (s.clock.dtime + x.tmo.toNat)))) ∧
    (y.bound = true → y.consumer = c →
      (0 < y.put - y.got → ∃ t, exec (.qget k r ra qi blk) s = .next t ∧ t.mem = s.mem ∧ t.dev.queue q = { y with got := y.got + 1 } ∧
        took x (t.dev.tctx c) r (BitVec.ofNat 32 (s.mem.frameNat (at_ y.got) 4)) { x.flg with z := true }) ∧
      (y.put - y.got = 0 → blk = false ∨ x.tmo = 0 → ∃ t, exec (.qget k r ra qi blk) s = .next t ∧ completes s t k c ∧
        t.dev.queue q = y ∧ t.dev.tctx c = { x with pc := x.pc + 4, flg := { x.flg with z := false } }) ∧
      (y.put - y.got = 0 → blk = true → x.tmo ≠ 0 → (∀ e, (s.dev.tctx e).state ≠ .ready) →
        ∃ t, exec (.qget k r ra qi blk) s = .next t ∧ t.mem = s.mem ∧ t.dev.queue q = y ∧ (t.dev.tctx c).state = .suspended ∧
          (t.dev.core k).ctx = none ∧
          (t.dev.tctx c).wait = .get q r (if x.tmo = 0xFFFFFFFF then none else some (s.clock.dtime + x.tmo.toNat)))) ∧
    ((∀ e, (s.dev.tctx e).state ≠ .ready) → x.pendAt = none →
      (y.bound = false ∨ y.producer ≠ c → ∃ t, exec (.qput k r ra qi blk) s = .next t ∧ faulted s t k c 0x10A q 0) ∧
      (y.bound = false ∨ y.consumer ≠ c → ∃ t, exec (.qget k r ra qi blk) s = .next t ∧ faulted s t k c 0x10A q 0))) ∧
  (∀ (s : State) (c : Fin 1024) (q : Nat) (w : Word) (rd : Nat) (u : Option Nat), s.running = true → quietMemory s.dev →
    let x := s.dev.tctx c
    let y := s.dev.queue q
    let at_ := fun (i : Nat) => s.dev.rdN Reg.TK_QBASE + q * 1024 + i % y.depth * 4
    (x.wait = .put q w u → y.put - y.got < y.depth → ∃ t, exec (.queueResume c) s = .next t ∧ t.dev.queue q = { y with put := y.put + 1 } ∧
      (t.dev.tctx c).pc = x.pc + 4 ∧ (t.dev.tctx c).flg = { x.flg with z := true } ∧
      (at_ y.put + 4 ≤ frameBytes → frameStored s.mem t.mem (at_ y.put) 4 w.toNat)) ∧
    (x.wait = .get q rd u → 0 < y.put - y.got → ∃ t, exec (.queueResume c) s = .next t ∧ t.dev.queue q = { y with got := y.got + 1 } ∧
      (t.dev.tctx c).pc = x.pc + 4 ∧ (t.dev.tctx c).flg = { x.flg with z := true } ∧
      (rd ≠ 0 → (t.dev.tctx c).reg rd = BitVec.ofNat 32 (s.mem.frameNat (at_ y.got) 4))) ∧
    (∀ v, (x.wait = .put q w (some v) ∧ y.depth ≤ y.put - y.got) ∨ (x.wait = .get q rd (some v) ∧ y.put - y.got = 0) →
      ∃ t, exec (.queueTimeout c) s = .next t ∧ t.mem = s.mem ∧ t.clock = s.clock.reach v ∧ t.dev.queue q = y ∧ (t.dev.tctx c).pc = x.pc + 4 ∧
        (t.dev.tctx c).flg = { x.flg with z := false } ∧ ∀ n, (t.dev.tctx c).reg n = x.reg n)) ∧
  ∀ (s : State) (q depth : Fin 256) (p c : Fin 1024) (v : Word), s.running = true →
    ((s.dev.queue q).bound = false → ∃ t, exec (.queueBind q p c depth) s = .next t ∧ deviceOnly s t ∧
      t.dev.queue q = ⟨true, p, c, depth + 1, 0, 0⟩ ∧ (∀ r, r ≠ q.val → t.dev.queue r = s.dev.queue r) ∧ ∀ e, t.dev.tctx e = s.dev.tctx e) ∧
    ((s.dev.queue q).bound = true → ∃ t, exec (.queueBind q p c depth) s = .next t ∧ deviceOnly s t ∧
      t.dev.queue q = s.dev.queue q ∧ t.dev.bit Reg.TK_FAULT 10 = true) ∧
    (∃ t, exec (.queueUnbind q) s = .next t ∧ t.mem = s.mem ∧ (t.dev.queue q).bound = false ∧ (t.dev.queue q).put = (t.dev.queue q).got) ∧
    ((∀ w ∈ s.dev.tk.queues, w.2.bound = false) → ∃ t, exec (.qbaseWrite v) s = .next t ∧ deviceOnly s t ∧
      t.dev.rdN Reg.TK_QBASE = (v.toNat &&& regMask Reg.TK_QBASE) ∧ ∀ a, a ≠ Reg.TK_QBASE → t.dev.rd a = s.dev.rd a) ∧
    ∀ w ∈ s.dev.tk.queues, w.2.bound = true → ∃ t, exec (.qbaseWrite v) s = .next t ∧ deviceOnly s t ∧
      t.dev.rd Reg.TK_QBASE = s.dev.rd Reg.TK_QBASE ∧ t.dev.bit Reg.TK_FAULT 10 = true

/-- EVENT_LATCH, WAIT, WAIT_DELIVER, WAIT_TIMEOUT and POST (R338 to R340).
Rows stated to complete: EVENT_LATCH, WAIT, POST, WAIT_DELIVER, WAIT_TIMEOUT. -/
def Obligations.EventsAndWaiting : Prop :=
  (∀ (s : State) (o : EventOcc) (os : List EventOcc) (c : Nat), s.running = true → s.dev.ev = o :: os →
    ∃ t, exec .eventLatch s = .next t ∧ deviceOnly s t ∧ t.dev.ev = os ∧
      t.dev.eventRec o.num = ⟨o.word, o.dtime, ((s.dev.eventRec o.num).count + 1) % 2 ^ 32⟩ ∧
      (∀ e, e ≠ o.num → t.dev.eventRec e = s.dev.eventRec e) ∧
      (t.dev.tctx c).evp = (if (s.dev.tctx c).evg = o.num / 32 ∧ (s.dev.tctx c).evm.getLsbD (o.num % 32) = true
        then (s.dev.tctx c).evp ||| ((1 : Word) <<< (o.num % 32)) else (s.dev.tctx c).evp) ∧
      ((∀ i, i < 16 → s.dev.bit (Reg.HX_EVMAPi i) 15 = false) → ∀ a, t.dev.rd a = s.dev.rd a)) ∧
  (∀ (s : State) (k : Fin 4) (c : Nat) (rd ra : Fin 16) (n : Fin 32), issues s k c →
    let x := s.dev.tctx c
    (∀ b, b < 32 → x.evp.getLsbD b = true →
      (∀ e, e < 32 → x.evp.getLsbD e = true → (b + 31 - x.last % 32) % 32 ≤ (e + 31 - x.last % 32) % 32) → (s.dev.core k).locks = [] ∨ x.reg ra = 0 →
      let r := s.dev.eventRec (32 * x.evg + b)
      ∃ t, exec (.wait k rd ra) s = .next t ∧ completes s t k c ∧ (t.dev.tctx c).reg rd = (if rd = 0 then 0 else BitVec.ofNat 32 (32 * x.evg + b)) ∧
        (∀ m, m ≠ rd.val → (t.dev.tctx c).reg m = x.reg m) ∧ (t.dev.tctx c).pc = x.pc + 4 ∧ (t.dev.tctx c).flg = { x.flg with z := true } ∧
        (∀ e, e < 32 → (t.dev.tctx c).evp.getLsbD e = (x.evp.getLsbD e && decide (e ≠ b))) ∧ (t.dev.tctx c).last = b ∧
        (t.dev.tctx c).evrec = r.word ∧ (t.dev.tctx c).evtime = BitVec.ofNat 32 r.dtime ∧ (t.dev.tctx c).evcnt = BitVec.ofNat 32 r.count) ∧
    (x.evp = 0 → x.reg ra = 0 → ∃ t, exec (.wait k rd ra) s = .next t ∧ completes s t k c ∧
      t.dev.tctx c = { x with pc := x.pc + 4, flg := { x.flg with z := false } }) ∧
    (x.evp = 0 → x.reg ra ≠ 0 → (s.dev.core k).locks = [] → (∀ e, (s.dev.tctx e).state ≠ .ready) →
      ∃ t, exec (.wait k rd ra) s = .next t ∧ (t.dev.tctx c).state = .suspended ∧ (t.dev.tctx c).pc = x.pc ∧ (t.dev.core k).ctx = none ∧
        (t.dev.tctx c).wait = .event rd (if x.reg ra = 0xFFFFFFFF then none else some (s.clock.dtime + (x.reg ra).toNat))) ∧
    (s.dev.fab.held = [] → ∃ t, exec (.post k ra n) s = .next t ∧ t.mem = s.mem ∧ jumped x (t.dev.tctx c) (x.pc + 4) ∧
      t.dev.ev = s.dev.ev ++ [⟨96 + n, x.reg ra, s.clock.dtime⟩])) ∧
  ∀ (s : State) (c : Fin 1024) (rd : Nat) (u : Option Nat), s.running = true → (s.dev.tctx c).wait = .event rd u →
    let x := s.dev.tctx c
    (∀ b, b < 32 → x.evp.getLsbD b = true →
      (∀ e, e < 32 → x.evp.getLsbD e = true → (b + 31 - x.last % 32) % 32 ≤ (e + 31 - x.last % 32) % 32) →
      ∃ t, exec (.waitDeliver c) s = .next t ∧ (t.dev.tctx c).pc = x.pc + 4 ∧ (t.dev.tctx c).flg = { x.flg with z := true } ∧
        (t.dev.tctx c).evp.getLsbD b = false ∧ (rd ≠ 0 → (t.dev.tctx c).reg rd = BitVec.ofNat 32 (32 * x.evg + b)) ∧
        (t.dev.tctx c).wait = .none) ∧
    ∀ v, u = some v → x.evp = 0 → ∃ t, exec (.waitTimeout c) s = .next t ∧ t.clock = s.clock.reach v ∧ (t.dev.tctx c).pc = x.pc + 4 ∧
      (t.dev.tctx c).flg = { x.flg with z := false } ∧ ∀ n, (t.dev.tctx c).reg n = x.reg n

/-- DMA and DMA_TRANSFER_DONE (R349, R350).
Rows stated to complete: DMA, DMA_TRANSFER_DONE. -/
def Obligations.DmaQueuesAndCopies : Prop :=
  (∀ (s : State) (k : Fin 4) (c : Nat) (rd ra : Fin 16), issues s k c → s.dev.fab.held = [] →
    let x := s.dev.tctx c
    let a := (x.reg ra).toNat
    let y := dmaDesc s.mem (k * 0x40000 + a)
    let answers := fun (r : Nat) (q : List DmaDesc) => ∃ t, exec (.dma k rd ra) s = .next t ∧ t.mem = s.mem ∧ t.clock = s.clock ∧
      took x (t.dev.tctx c) rd (BitVec.ofNat 32 r) { x.flg with z := decide (r = 0) } ∧ (t.dev.core k).dma = q ∧
      (∀ e, e ≠ c → t.dev.tctx e = s.dev.tctx e) ∧ ∀ r, t.dev.rd r = s.dev.rd r
    (a % 32 = 0 → a < 0x40000 → y.valid = true → (s.dev.core k).dma.length < 16 → answers 0 ((s.dev.core k).dma ++ [y])) ∧
    (a % 32 = 0 → a < 0x40000 → y.valid = true → 16 ≤ (s.dev.core k).dma.length → answers 1 (s.dev.core k).dma) ∧
    (a % 32 ≠ 0 ∨ 0x40000 ≤ a ∨ y.valid = false → answers 2 (s.dev.core k).dma)) ∧
  ∀ (s : State) (k : Fin 4) (x : DmaDesc) (rest : List DmaDesc), s.running = true → quietMemory s.dev → (s.dev.core k).dma = x :: rest →
    x.valid = true → x.srcSpace < 2 → x.dstSpace < 2 → x.srcCore < 4 → x.dstCore < 4 →
    ∃ t, exec (.dmaTransferDone k ⟨none, none⟩ false) s = .next t ∧ t.pending = s.pending ∧ t.clock = s.clock ∧ (t.dev.core k).dma = rest ∧
      (∀ n, x.post = some n → t.dev.ev = s.dev.ev ++ [⟨96 + n, 0, s.clock.dtime⟩]) ∧ (x.post = none → t.dev.ev = s.dev.ev) ∧
      let byte := fun (m : Mem) (i : Nat) => if x.srcSpace = 0 then m.locByte (x.srcCore * 0x40000 + x.src + i) else m.frameByte (x.src + i)
      let word := 1 + 65536 * (x.tag % 65536)
      (x.dstSpace = 1 → (∀ i, i < x.len → t.mem.frameByte (x.dst + i) = byte s.mem i) ∧
        ∀ b, b < x.dst ∨ x.dst + x.len ≤ b → t.mem.frameByte b = s.mem.frameByte b) ∧
      (x.dstSpace = 0 → (∀ b, t.mem.frameByte b = s.mem.frameByte b) ∧
        (x.done = 0 → ∀ i, i < x.len → t.mem.locByte (x.dstCore * 0x40000 + x.dst + i) = byte s.mem i) ∧
        (x.done = 0 → ∀ b, b < x.dstCore * 0x40000 + x.dst ∨ x.dstCore * 0x40000 + x.dst + x.len ≤ b → t.mem.locByte b = s.mem.locByte b)) ∧
      (x.done ≠ 0 → t.mem.locNat (k * 0x40000 + x.done) 4 = word)


/-! ## Tasks, contracts and admission (R348, R355 to R381) -/

/-- CONTEXT_SETUP, CONTEXT_RELEASE, CONTEXT_STOP, CONTEXT_RESTART and CORE_RETURN_TO_SERVICE (R357, R363).
Rows stated to complete: CONTEXT_SETUP, CONTEXT_RELEASE, CONTEXT_STOP, CONTEXT_RESTART, CORE_RETURN_TO_SERVICE. -/
def Obligations.ContextCommandsAndResults : Prop :=
  ∀ (s : State) (who : Reader) (c : Fin 1024) (core k : Fin 4) (auto : Bool), s.running = true →
    let x := s.dev.tctx c
    let res := fun (t : State) => lookupD 0 t.dev.tk.cmdRes who
    let fails := fun (i : Instr) (r : Nat) => ∃ t, exec i s = .next t ∧ t.pending = s.pending ∧ t.clock = s.clock ∧ res t = r ∧
      (∀ e, t.dev.tctx e = s.dev.tctx e) ∧ ∀ j, t.dev.core j = s.dev.core j
    let entry := match who with
      | .link _ => s.dev.rd Reg.HX_TKDB_ENTRY
      | _ => s.dev.rd Reg.TK_ENTRY
    (x.state = .free → ∃ t, exec (.contextSetup who c core auto) s = .next t ∧ deviceOnly s t ∧ res t = 0 ∧
      let y := t.dev.tctx c
      (∀ n, y.reg n = 0) ∧ y.flg = ⟨false, false, false, false, 0⟩ ∧ y.evg = 0 ∧ y.evm = 0 ∧ y.evp = 0 ∧ y.tmo = 0xFFFFFFFF ∧ y.pc = entry ∧
        y.entry = entry ∧ y.core = core.val ∧ y.autoRestart = auto ∧ y.state = .idle ∧ y.releases = 0 ∧
        (∀ e, e ≠ c.val → t.dev.tctx e = s.dev.tctx e) ∧ (∀ j, t.dev.core j = s.dev.core j) ∧ ∀ a, t.dev.rd a = s.dev.rd a) ∧
    (x.state ≠ .free → fails (.contextSetup who c core auto) 1) ∧
    (x.admitted = true → fails (.contextRelease who c) 2 ∧ (s.dev.fab.held = [] → fails (.contextStop who c) 2)) ∧
    (x.admitted = false → x.state ≠ .idle → fails (.contextRelease who c) 1) ∧
    (x.admitted = false → x.state = .idle → ∃ t, exec (.contextRelease who c) s = .next t ∧ t.mem = s.mem ∧ t.clock = s.clock ∧ res t = 0 ∧
      (t.dev.tctx c).releases = (x.releases + 1) % 2 ^ 32 ∧ (t.dev.tctx c).pc = x.pc ∧ (∀ n, (t.dev.tctx c).reg n = x.reg n) ∧
      ((t.dev.tctx c).state = .ready ∨ (t.dev.tctx c).state = .running) ∧
      (c ≠ 0 ∨ s.dev.hx.xipStart = none → t.dev.hx.window ≠ 0) ∧
      (∀ l, who = .link l → t.dev.hx.loader = false) ∧
      (x.item = none → (∀ e, (s.dev.tctx e).state ≠ .ready) → (∀ j, j < 4 → (s.dev.core j).out = none) →
        (s.dev.core k).service = true → (s.dev.core k).ctx = none → (∀ j, j < k.val → (s.dev.core j).service = false ∨ (s.dev.core j).ctx ≠ none) →
        (t.dev.core k).ctx = some c.val ∧ (t.dev.tctx c).state = .running)) ∧
    (x.admitted = false → (∀ e, (s.dev.tctx e).state ≠ .ready) → s.dev.fab.held = [] →
      ∃ t, exec (.contextStop who c) s = .next t ∧ t.mem = s.mem ∧ t.clock = s.clock ∧ res t = 0 ∧ (t.dev.tctx c).state = .free ∧
        (∀ e, e ≠ c.val → t.dev.tctx e = s.dev.tctx e) ∧
        ∀ j, s.dev.coreOf c = some j → (t.dev.core j).ctx = none ∧ (t.dev.core j).locks = []) ∧
    (x.state = .faulted → ∃ t, exec (.contextRestart who c) s = .next t ∧ deviceOnly s t ∧ res t = 0 ∧ (t.dev.tctx c).state = .idle ∧
      (t.dev.tctx c).pc = x.entry ∧ (∀ n, (t.dev.tctx c).reg n = x.reg n) ∧ (∀ e, e ≠ c.val → t.dev.tctx e = s.dev.tctx e) ∧
      ∀ a, t.dev.rd a = s.dev.rd a) ∧
    (x.state ≠ .faulted → fails (.contextRestart who c) 1) ∧
    ((s.dev.core k).service = true → fails (.coreReturnToService who k) 1) ∧
    ((s.dev.core k).service = false → s.dev.coreHeld k = false → (s.dev.core k).out = none →
      ∃ t, exec (.coreReturnToService who k) s = .next t ∧ deviceOnly s t ∧ res t = 0 ∧ (t.dev.core k).service = true ∧
        (t.dev.core k).faulted = false ∧ ∀ j, j ≠ k.val → (t.dev.core j).service = (s.dev.core j).service)

/-- TASK_RELEASE_PERIODIC and TASK_RELEASE_EVENT (R358 to R360).
Rows stated to complete: TASK_RELEASE_PERIODIC, TASK_RELEASE_EVENT. -/
def Obligations.ReleasesFallDue : Prop :=
  ∀ (s : State) (c : Fin 1024) (i : TaskItem) (o : Nat) (os : List Nat), s.running = true → s.clock.drive = true → (s.dev.tctx c).item = some i →
    let x := s.dev.tctx c
    let atEvent := match x.lastRel with
      | some l => max o (l + i.t)
      | none => o
    ∀ p ∈ [(Instr.taskReleasePeriodic c, x.nextRel), (.taskReleaseEvent c, atEvent)],
      (p.1 = .taskReleasePeriodic c → x.admitted = true ∧ i.event = none) → (p.1 = .taskReleaseEvent c → x.evDue = o :: os) →
      ∃ t, exec p.1 s = .next t ∧ t.mem = s.mem ∧ t.clock.dtime = max s.clock.dtime p.2 ∧
        let y := t.dev.tctx c
        y.lastRel = some p.2 ∧ (p.1 = .taskReleasePeriodic c → y.nextRel = x.nextRel + i.t) ∧ (p.1 = .taskReleaseEvent c → y.evDue = os) ∧
        (x.state = .idle → y.dln = p.2 + i.d ∧ y.releases = (x.releases + 1) % 2 ^ 32 ∧ y.pc = x.pc ∧ y.flagged = false ∧ y.demoted = false ∧
          (y.state = .ready ∨ y.state = .running)) ∧
        (x.inProgress = true → x.pendAt = none → y.pendAt = some p.2 ∧ y.dln = x.dln ∧ y.releases = x.releases) ∧
        (x.inProgress = true → x.pendAt ≠ none → s.dev.rdN Reg.TK_CNT_MISS + 1 < 2 ^ 32 →
          t.dev.rdN Reg.TK_CNT_MISS = s.dev.rdN Reg.TK_CNT_MISS + 1 ∧ y.pendAt = x.pendAt ∧ y.releases = x.releases) ∧
        (x.state = .faulted → x.autoRestart = true → y.pc = x.entry ∧ y.dln = p.2 + i.d ∧ (y.state = .ready ∨ y.state = .running) ∧
          (s.dev.rdN Reg.TK_CNT_RESTART + 1 < 2 ^ 32 → t.dev.rdN Reg.TK_CNT_RESTART = s.dev.rdN Reg.TK_CNT_RESTART + 1)) ∧
        (x.state = .faulted → x.autoRestart = false → y.state = .faulted ∧
          (s.dev.rdN Reg.TK_CNT_MISS + 1 < 2 ^ 32 → t.dev.rdN Reg.TK_CNT_MISS = s.dev.rdN Reg.TK_CNT_MISS + 1)) ∧
        ∀ (k : Fin 4) (e : Nat), x.state = .idle → x.core = k.val → e ≠ c.val → (s.dev.core k).ctx = some e → (s.dev.core k).service = true →
          (∀ j, j < 4 → (s.dev.core j).out = none) → (s.dev.core k).locks = [] → s.dev.fab.waiters = [] →
          (s.dev.tctx e).state = .running → (s.dev.tctx e).item ≠ none → (s.dev.tctx e).core = k.val → p.2 + i.d < (s.dev.tctx e).dln →
          (∀ j, (s.dev.tctx j).state ≠ .ready) → (∀ j, j ≠ k.val → (s.dev.core j).ctx ≠ some e) →
          (t.dev.core k).ctx = some c.val ∧ y.state = .running ∧ (t.dev.tctx e).state = .ready

/-- DEADLINE_REACHED, BUDGET_EXHAUSTED, GRACE_EXPIRED and SLICE_EXPIRED (R361, R362).
Rows stated to complete: DEADLINE_REACHED, BUDGET_EXHAUSTED, GRACE_EXPIRED, SLICE_EXPIRED. -/
def Obligations.OverrunsAndSlices : Prop :=
  (∀ (s : State) (c : Fin 1024) (i : TaskItem), s.running = true → s.clock.drive = true → (s.dev.tctx c).item = some i →
    let x := s.dev.tctx c
    let fresh := fun (code : Nat) => ∀ p ∈ x.recAt, p.1 ≠ code
    (x.inProgress = true → x.flagged = false → ∃ t, exec (.deadlineReached c) s = .next t ∧ t.mem = s.mem ∧
      t.clock.dtime = max s.clock.dtime x.dln ∧ (t.dev.tctx c).flagged = true ∧
      (t.dev.tctx c).graceAt = some (x.dln + s.dev.fld Reg.TK_CFG 15 0 * 1024) ∧ (t.dev.tctx c).state = x.state ∧
      (∀ e, e ≠ c.val → t.dev.tctx e = s.dev.tctx e) ∧ (∀ j, t.dev.core j = s.dev.core j) ∧
      (s.dev.rdN Reg.TK_CNT_FLAG + 1 < 2 ^ 32 → t.dev.rdN Reg.TK_CNT_FLAG = s.dev.rdN Reg.TK_CNT_FLAG + 1) ∧
      (fresh 2 → recorded s.dev t.dev ⟨t.clock.dtime, uid 2 x.core 0, 2, BitVec.ofNat 32 c⟩)) ∧
    (∀ k : Fin 4, s.dev.coreOf c = some k.val → x.demoted = false → ∃ t, exec (.budgetExhausted c) s = .next t ∧ t.mem = s.mem ∧
        t.clock.dtime = max s.clock.dtime ((((s.dev.core k).since * 15 / 4 + (i.c - x.cyc)) * 4 + 14) / 15) ∧ (t.dev.tctx c).demoted = true ∧
        (s.dev.rdN Reg.TK_CNT_BUDGET + 1 < 2 ^ 32 → t.dev.rdN Reg.TK_CNT_BUDGET = s.dev.rdN Reg.TK_CNT_BUDGET + 1) ∧
        (fresh 5 → recorded s.dev t.dev ⟨t.clock.dtime, uid 2 x.core 0, 5, BitVec.ofNat 32 c⟩)) ∧
    (∀ g (k : Fin 4), x.inProgress = true → x.graceAt = some g → s.dev.coreOf c = some k.val → (s.dev.core k).locks = [] → s.dev.fab.held = [] →
      (∀ e, (s.dev.tctx e).state ≠ .ready) → x.pendAt = none →
      ∃ t, exec (.graceExpired c) s = .next t ∧ t.mem = s.mem ∧ t.clock.dtime = max s.clock.dtime g ∧ (t.dev.tctx c).state = .idle ∧
        (t.dev.tctx c).pc = x.entry ∧ (t.dev.tctx c).graceAt = none ∧ (∀ n, (t.dev.tctx c).reg n = x.reg n) ∧ (t.dev.core k).ctx = none ∧
        (∀ e, e ≠ c.val → t.dev.tctx e = s.dev.tctx e) ∧
        (s.dev.rdN Reg.TK_CNT_ABORT + 1 < 2 ^ 32 → t.dev.rdN Reg.TK_CNT_ABORT = s.dev.rdN Reg.TK_CNT_ABORT + 1) ∧
        (fresh 3 → recorded s.dev t.dev ⟨t.clock.dtime, uid 2 x.core 0, 3, BitVec.ofNat 32 c⟩))) ∧
  ∀ (s : State) (k : Fin 4) (c e : Nat), s.running = true → s.clock.drive = true → s.dev.runs k = some c → (s.dev.tctx c).item = none →
    (s.dev.core k).locks = [] → s.dev.fab.waiters = [] → (s.dev.core k).service = true → (∀ j, j < 4 → (s.dev.core j).out = none) →
    (∀ j, j < 4 → j ≠ k.val → (s.dev.core j).service = false) → c < 1024 → e < 1024 → e ≠ c →
    (s.dev.tctx e).state = .ready → (s.dev.tctx e).item = none → (∀ j, j ≠ e → (s.dev.tctx j).state ≠ .ready) →
    ∃ t, exec (.sliceExpired k) s = .next t ∧ t.mem = s.mem ∧
        t.clock.dtime = max s.clock.dtime ((((s.dev.core k).since * 15 / 4 + (s.dev.core k).slice) * 4 + 14) / 15) ∧
        (t.dev.core k).ctx = some e ∧ (t.dev.tctx e).state = .running ∧ (t.dev.tctx c).state = .ready ∧
        (t.dev.tctx c).pc = (s.dev.tctx c).pc ∧ (∀ n, (t.dev.tctx c).reg n = (s.dev.tctx c).reg n) ∧
        (t.dev.core k).slice = s.dev.fld Reg.TK_CFG 31 16 * 1024

/-- CORE_FAULT and CORE_NO_PROGRESS (R363).
Rows stated to complete: CORE_FAULT, CORE_NO_PROGRESS. -/
def Obligations.CoresAreLost : Prop :=
  (∀ (s : State) (k : Fin 4) (saving : Bool), s.running = true → (s.dev.core k).service = false → (s.dev.core k).out = none → s.dev.fab.held = [] →
    exec (.coreFault k saving) s = .next s) ∧
  (∀ (s : State) (k : Fin 4), s.running = true → (s.dev.core k).service = true → (s.dev.core k).locks = [] → s.dev.fab.held = [] →
    (∀ e, (s.dev.tctx e).state ≠ .ready) → (∀ e, (s.dev.tctx e).item = none ∨ (s.dev.tctx e).core ≠ k.val) →
    let lost := fun (t : State) (cause : Nat) => t.mem = s.mem ∧ (t.dev.core k).service = false ∧ (t.dev.core k).faulted = true ∧
      (t.dev.core k).ctx = none ∧ t.dev.bit Reg.TK_FAULT k = true ∧ (∀ j, j ≠ k.val → t.dev.core j = s.dev.core j) ∧
      recorded s.dev t.dev ⟨t.clock.dtime, uid 2 k 0, 1, BitVec.ofNat 32 cause⟩
    let aborted := fun (t : State) (c : Nat) => (t.dev.tctx c).state = .idle ∧ (t.dev.tctx c).pc = (s.dev.tctx c).entry ∧
      (t.dev.tctx c).g = (s.dev.core k).saved ∧ (∀ e, e ≠ c → t.dev.tctx e = s.dev.tctx e) ∧
      (s.dev.rdN Reg.TK_CNT_ABORT + 1 < 2 ^ 32 → t.dev.rdN Reg.TK_CNT_ABORT = s.dev.rdN Reg.TK_CNT_ABORT + 1)
    (∀ p ∈ [(Instr.coreFault k false, 1), (.coreFault k true, 2)],
      ((s.dev.core k).ctx = none → ∃ t, exec p.1 s = .next t ∧ t.clock = s.clock ∧ lost t p.2 ∧ ∀ e, t.dev.tctx e = s.dev.tctx e) ∧
      (∀ c, s.dev.coreOf c = some k.val → (s.dev.tctx c).item = none → ∃ t, exec p.1 s = .next t ∧ t.clock = s.clock ∧ lost t p.2 ∧ aborted t c)) ∧
    ∀ c, s.clock.drive = true → s.dev.runs k = some c → s.dev.coreOf c = some k.val → (s.dev.tctx c).item = none → ∃ t, exec (.coreNoProgress k) s = .next t ∧
      t.clock.dtime = max s.clock.dtime ((((s.dev.core k).retired * 15 / 4 + 1048576) * 4 + 14) / 15) ∧ lost t 3 ∧ aborted t c) ∧
  ∀ (s : State) (k : Fin 4) (e : Nat) (saving : Bool), s.running = true → (s.dev.core k).service = true → (s.dev.core k).ctx = none →
    s.dev.fab.held = [] → (∀ x, (s.dev.tctx x).state ≠ .ready) →
    (∀ x, x ≠ e → (s.dev.tctx x).item = none ∨ (s.dev.tctx x).core ≠ k.val) → (s.dev.tctx e).item ≠ none → (s.dev.tctx e).core = k.val →
    (s.dev.tctx e).admitted = true → (s.dev.tctx e).state = .idle → (s.dev.tctx e).pendAt = none → (s.dev.tctx e).alt ≠ k.val →
    (s.dev.core (s.dev.tctx e).alt).service = true → s.dev.flt.queue.length + 2 ≤ 64 →
    ∃ t, exec (.coreFault k saving) s = .next t ∧ t.mem = s.mem ∧ (t.dev.core k).service = false ∧
      (t.dev.tctx e).core = (s.dev.tctx e).alt ∧ (t.dev.tctx e).state = .idle ∧
      (∃ n, (⟨s.clock.dtime, uid 2 k 0, 1, BitVec.ofNat 32 ((if saving then 2 else 1) + 256 * n)⟩ : FaultRec) ∈ t.dev.flt.queue) ∧
      (⟨s.clock.dtime, uid 2 k 0, 6, BitVec.ofNat 32 (e + (s.dev.tctx e).alt * 2 ^ 16)⟩ : FaultRec) ∈ t.dev.flt.queue

/-- ADMIT_SUBMIT, ADMIT_RELEASE and ADMISSION_ANSWER (R348, R365 to R369).
Rows stated to complete: ADMIT_SUBMIT, ADMIT_RELEASE, ADMISSION_ANSWER. -/
def Obligations.AdmissionOfContracts : Prop :=
  (∀ (s : State) (k : Fin 4) (c : Nat) (rd ra : Fin 16), calmTask s k c →
    ∀ p ∈ [(Instr.admitSubmit k rd ra, true), (.admitRelease k rd ra, false)],
      ∃ t, exec p.1 s = .next t ∧ t.mem = s.mem ∧ t.clock = s.clock ∧ (t.dev.tctx c).state = .suspended ∧ (t.dev.tctx c).wait = .admission rd ∧
        (t.dev.tctx c).pc = (s.dev.tctx c).pc ∧ (t.dev.core k).ctx = none ∧ (∀ e, e ≠ c → t.dev.tctx e = s.dev.tctx e) ∧
        t.dev.tk.requests = s.dev.tk.requests ++ [.task c k p.2 ((s.dev.tctx c).reg ra)]) ∧
  (∀ (s : State) (k : Fin 4) (c : Nat) (rd ra : Fin 16), issues s k c → (s.dev.core k).locks ≠ [] → s.dev.fab.held = [] →
    (∀ e, (s.dev.tctx e).state ≠ .ready) → (s.dev.tctx c).pendAt = none →
    ∀ i ∈ [Instr.admitSubmit k rd ra, .admitRelease k rd ra], ∃ t, exec i s = .next t ∧ (t.dev.tctx c).state = .faulted ∧
      (t.dev.core k).locks = [] ∧ t.dev.tk.requests = s.dev.tk.requests) ∧
  ∀ (s : State) (c rd k : Nat) (submit : Bool) (arg : Word) (reqs : List AdmRequest), s.running = true →
    s.dev.tk.requests = .task c k submit arg :: reqs → (submit = true → s.dev.hx.window ≠ 0) → (s.dev.tctx c).wait = .admission rd →
    let x := s.dev.tctx c
    let d := s.dev.updTk (fun y => { y with requests := reqs })
    let slots := s.dev.tk.contracts
    let resumed := fun (t : State) (code handle : Nat) => t.pending = s.pending ∧ t.clock = s.clock ∧ t.mem = s.mem ∧ t.dev.tk.requests = reqs ∧
      (t.dev.tctx c).pc = x.pc + 4 ∧ (t.dev.tctx c).flg = { x.flg with z := decide (code = 0) } ∧ (t.dev.tctx c).wait = .none ∧
      (t.dev.tctx c).reg rd = (if rd = 0 then 0 else BitVec.ofNat 32 (code + 65536 * handle)) ∧
      (∀ n, n ≠ rd → (t.dev.tctx c).reg n = x.reg n) ∧ t.dev.rdN Reg.AM_LAST = (code + 65536 * handle) % 2 ^ 32
    (submit = true →
      (∀ o, d.checkSubmit s.mem k arg.toNat = .error o → ∃ t, exec .admissionAnswer s = .next t ∧ resumed t o.code 0 ∧
        t.dev.tk.contracts = slots ∧
        (s.dev.rdN Reg.AM_CNT_REFUSE + 1 < 2 ^ 32 → t.dev.rdN Reg.AM_CNT_REFUSE = s.dev.rdN Reg.AM_CNT_REFUSE + 1)) ∧
      (arg.toNat % 32 ≠ 0 ∨ (arg.toNat < 0x40000 ∧ s.mem.locByte (k * 0x40000 + arg.toNat) ≠ 1) →
        ∃ t xx, exec .admissionAnswer s = .next t ∧ resumed t (0xE00 + xx % 256) 0 ∧ t.dev.tk.contracts = slots) ∧
      (∀ items, d.checkSubmit s.mem k arg.toNat = .ok (items, none) → slots.length < 64 →
        ∃ t h slot snap, exec .admissionAnswer s = .next t ∧ resumed t 0 h ∧ h ≠ 0 ∧ (∀ y ∈ slots, y.2.handle ≠ h ∧ y.1 ≠ slot) ∧ slot < 64 ∧
          t.dev.tk.contracts = slots ++ [(slot, ⟨h, items, snap⟩)] ∧
          (s.dev.rdN Reg.AM_CNT_ACCEPT + 1 < 2 ^ 32 → t.dev.rdN Reg.AM_CNT_ACCEPT = s.dev.rdN Reg.AM_CNT_ACCEPT + 1))) ∧
    (submit = false → ∀ y ∈ slots, y.2.handle = arg.toNat → (∀ z ∈ slots, z.2.handle = arg.toNat ∨ z.1 = y.1 → z = y) →
      y.2.items.all (fun i => !s.dev.freedBusy i) = true →
      ∃ t, exec .admissionAnswer s = .next t ∧ resumed t 0 0 ∧ t.dev.tk.contracts = slots.filter (fun z => decide (z.1 ≠ y.1)) ∧
        ∀ e ∈ taskCtxs y.2.items, (t.dev.tctx e).admitted = false)

/-- The limit of R370 on the admitted tasks of a core holds from answer to answer. -/
def Obligations.AdmittedTasksFitTheirCores : Prop :=
  ∀ (s t : State) (k : Fin 4), exec .admissionAnswer s = .next t → coreClaim s.dev k ≤ 58982 → coreClaim t.dev k ≤ 58982


/-! ## Fabric and memories (R382 to R404) -/

/-- FABRIC_BEAT_GRANT, SCRUB_PATROL and ROW_REPAIR (R387 to R395).
Rows stated to complete: FABRIC_BEAT_GRANT, SCRUB_PATROL, ROW_REPAIR. -/
def Obligations.BeatsPatrolAndRowRepair : Prop :=
  (∀ (s : State) (target : Fin 17) (gap : Nat) (reqs : List BeatReq) (answered : List (Fin 15)) (w : BeatReq), s.running = true →
    (reqs.map BeatReq.who).Nodup → w ∈ reqs →
    let cyc := (s.dev.target target).cycle + gap
    let urgent := fun (r : BeatReq) => r.emergency = true ∧ 13 ≤ r.who.val
    let held := fun (r : BeatReq) => s.dev.credit r.who target
    let slots := fun (v : Fin 15) => s.dev.readSlots v - answered.count v
    let credit := fun (r : BeatReq) => if r.again then 0 < (if r.write then (held r).writes else (held r).reads)
      else if r.write then (urgent r ∧ (held r).writes < 6) ∨ (held r).writes < 4 else slots r.who < 16
    let shown := fun (r : BeatReq) => credit r ∧ (s.dev.lossOf r.who target).from_ ≤ cyc
    let present := fun (r : BeatReq) => shown r ∧ (urgent r ∨ ¬ (target.val < 16 ∧ s.dev.lockOwner target ≠ none ∧ r.write = true))
    let guarded := fun (r : BeatReq) => s.dev.fld Reg.FB_GUARD 4 0 ≤ (s.dev.lossOf r.who target).row
    let rank := fun (r : BeatReq) => s.dev.grantRank r.who
    let turn := fun (r : BeatReq) => (r.who.val + 15 - (SMap.get 14 (s.dev.target target).last (rank w) + 1) % 15) % 15
    let granted := ∃ t, exec (.fabricBeatGrant target gap ⟨reqs, answered⟩ none) s = .next t ∧ deviceOnly s t ∧ t.dev.lossOf w.who target = ⟨0, 0, 0⟩ ∧
      (∀ r ∈ reqs, present r → r.who ≠ w.who → t.dev.lossOf r.who target =
        ⟨min 6 ((s.dev.lossOf r.who target).k + 1), cyc + 2 ^ (s.dev.lossOf r.who target).k, (s.dev.lossOf r.who target).row + 1⟩) ∧
      (∀ v : Fin 15, (∀ r ∈ reqs, r.who = v → ¬ present r) → v ≠ w.who → t.dev.lossOf v target = s.dev.lossOf v target) ∧
      (t.dev.target target).cycle = cyc ∧
      (∀ r ∈ reqs, ¬ shown r → t.dev.credit r.who target = held r ∧ t.dev.readSlots r.who = slots r.who) ∧
      (∀ r ∈ reqs, shown r → r.who ≠ w.who → t.dev.credit r.who target = (if r.again then held r
          else if r.write then ⟨(held r).writes + 1, (held r).reads⟩ else ⟨(held r).writes, (held r).reads + 1⟩)) ∧
      (∀ r ∈ reqs, shown r → t.dev.readSlots r.who = slots r.who + if r.again = false ∧ r.write = false then 1 else 0) ∧
      t.dev.credit w.who target = (if w.again = false then held w
        else if w.write then ⟨(held w).writes - 1, (held w).reads⟩ else ⟨(held w).writes, (held w).reads - 1⟩)
    (present w → urgent w → w.who = 13 ∨ (∀ r ∈ reqs, present r → urgent r → r.who = w.who) → granted) ∧
    ((∀ r ∈ reqs, present r → ¬ urgent r) → present w → guarded w → (∀ r ∈ reqs, present r → guarded r → r.who = w.who) →
      granted ∧ (s.dev.rdN Reg.FB_CNT_GUARD + 1 < 2 ^ 32 → ∃ t, exec (.fabricBeatGrant target gap ⟨reqs, answered⟩ none) s = .next t ∧
        t.dev.rdN Reg.FB_CNT_GUARD = s.dev.rdN Reg.FB_CNT_GUARD + 1)) ∧
    ((∀ r ∈ reqs, present r → ¬ urgent r) → (∀ r ∈ reqs, present r → ¬ guarded r) → present w → (∀ r ∈ reqs, present r → rank r ≤ rank w) →
      (∀ r ∈ reqs, present r → rank r = rank w → turn w ≤ turn r) →
      granted ∧ ∃ t, exec (.fabricBeatGrant target gap ⟨reqs, answered⟩ none) s = .next t ∧ (∀ a, t.dev.rd a = s.dev.rd a) ∧ t.dev.flt = s.dev.flt)) ∧
  (∀ (s : State) (target : Fin 17) (gap : Nat) (reqs : List BeatReq) (w : BeatReq), s.running = true → w ∈ reqs → (reqs.map BeatReq.unit).Nodup →
    (∀ r ∈ reqs, r.who = w.who ∧ r.emergency = false ∧ r.again = true ∧ r.write = w.write) →
    0 < (if w.write then (s.dev.credit w.who target).writes else (s.dev.credit w.who target).reads) →
    (s.dev.lossOf w.who target).from_ ≤ (s.dev.target target).cycle + gap → (target.val < 16 → s.dev.lockOwner target = none) →
    let last := SMap.get 15 s.dev.fab.turns (17 * w.who + target)
    let turn := fun (r : BeatReq) => (r.unit.val + 16 - (last + 1) % 16) % 16
    (∀ r ∈ reqs, turn w ≤ turn r) → ∃ t, exec (.fabricBeatGrant target gap ⟨reqs, []⟩ none) s = .next t ∧ deviceOnly s t ∧
      SMap.get 15 t.dev.fab.turns (17 * w.who + target) = w.unit ∧ t.dev.lossOf w.who target = ⟨0, 0, 0⟩ ∧
      t.dev.credit w.who target = if w.write then ⟨(s.dev.credit w.who target).writes - 1, (s.dev.credit w.who target).reads⟩
        else ⟨(s.dev.credit w.who target).writes, (s.dev.credit w.who target).reads - 1⟩) ∧
  (∀ (s : State) (b : Fin 16) (off : BitVec 22) (who : Fin 15) (k : Fin 4) (l : Lock), s.running = true → s.clock.drive = true →
    s.dev.bit Reg.FB_CFG 0 = true → s.dev.fab.held = [] → (s.dev.core k).locks = [l] → l.broken = 0 →
    (∀ j, j < 4 → j ≠ k.val → (s.dev.core j).locks = []) → (∀ e, (s.dev.tctx e).state ≠ .ready) →
    s.dev.rdN (Reg.FB_FMb_CE b) + 1 < 2 ^ 32 → s.dev.rdN Reg.FB_CNT_CE + 1 < 2 ^ 32 →
    ∃ t, exec (.scrubPatrol [⟨false, b, off, false, who⟩]) s = .next t ∧ t.mem = s.mem ∧
      t.clock.dtime = max s.clock.dtime (((s.dev.fab.patrol * 15 / 4 + s.dev.fld Reg.FB_CFG 31 16 * 256) * 4 + 14) / 15) ∧
      t.dev.fab.patrol = t.clock.dtime ∧ t.dev.fab.lines = s.dev.fab.lines + 1 ∧
      t.dev.rdN (Reg.FB_FMb_CE b) = s.dev.rdN (Reg.FB_FMb_CE b) + 1 ∧ t.dev.rdN Reg.FB_CNT_CE = s.dev.rdN Reg.FB_CNT_CE + 1 ∧
      (l.bank = b.val → (t.dev.core k).locks = [{ l with broken := 1, writes := [] }]) ∧ (l.bank ≠ b.val → (t.dev.core k).locks = [l])) ∧
  ∀ (s : State) (last : Bool) (bank : Fin 16) (row : BitVec 12), s.running = true → s.dev.fab.held = [] → (∀ b, s.dev.lockOwner b = none) →
    (last = true → s.dev.bit Reg.SV_CFG 0 = false) →
    let b := bank.val + (if last then 16 else 0)
    let unit := if last then 18 + bank.val else bank.val
    let spares := if last then 8 else 16
    let due := ∃ r ∈ s.dev.fab.rows, r.bank = b ∧ r.row = row.toNat ∧ (r.ue = true ∨ s.dev.fld Reg.FB_CFG 11 8 ≤ r.ce)
    (due → s.dev.sparesUsed b < spares → ∃ t, exec (.rowRepair last bank row) s = .next t ∧ t.mem = s.mem ∧ t.clock = s.clock ∧
      t.dev.sparesUsed b = s.dev.sparesUsed b + 1 ∧ (∀ r ∈ t.dev.fab.rows, ¬ (r.bank = b ∧ r.row = row.toNat)) ∧
      (s.dev.rdN Reg.FB_CNT_REPAIR + 1 < 2 ^ 32 → t.dev.rdN Reg.FB_CNT_REPAIR = s.dev.rdN Reg.FB_CNT_REPAIR + 1) ∧
      recorded s.dev t.dev ⟨s.clock.dtime, uid 3 unit 0, 1, BitVec.ofNat 32 (row.toNat + 4096 * ((s.dev.sparesUsed b + 1) % 16))⟩) ∧
    (due → spares ≤ s.dev.sparesUsed b → ∃ t, exec (.rowRepair last bank row) s = .next t ∧ t.mem = s.mem ∧ t.clock = s.clock ∧
      t.dev.sparesUsed b = s.dev.sparesUsed b ∧ recorded s.dev t.dev ⟨s.clock.dtime, uid 3 unit 0, 3, BitVec.ofNat 32 row.toNat⟩) ∧
    (¬ due → ∃ t, exec (.rowRepair last bank row) s = .next t ∧ deviceOnly s t ∧ t.dev = s.dev)

/-! ## Host attachment (R405 to R425) -/

/-- RING_DOORBELL, RING_CFG_WRITE and WRITEBACK_CONFIRM (R411, R412, R418).
Rows stated to complete: RING_DOORBELL, RING_CFG_WRITE, WRITEBACK_CONFIRM. -/
def Obligations.HostRingRegisters : Prop :=
  ∀ (s : State) (l : Fin 2) (r : Fin 32) (v : Word), s.running = true →
    (doorbellOk s.dev r v → ∃ t, exec (.ringDoorbell l r v) s = .next t ∧ deviceOnly s t ∧ t.dev.rd (Reg.HX_Rr_DB r) = v ∧
      ∀ a, a ≠ Reg.HX_Rr_DB r → t.dev.rd a = s.dev.rd a) ∧
    (¬ doorbellOk s.dev r v → ∃ t, exec (.ringDoorbell l r v) s = .next t ∧ deviceOnly s t ∧ t.dev.rd (Reg.HX_Rr_DB r) = s.dev.rd (Reg.HX_Rr_DB r) ∧
      t.dev.rdN Reg.HX_WR_REJECT = min (2 ^ 32 - 1) (s.dev.rdN Reg.HX_WR_REJECT + 1) ∧ t.dev.bit Reg.HX_FAULT 3 = true) ∧
    (∀ f : Fin 7, f ≠ 0 → s.dev.bit (Reg.HX_Rr_CFG r) 0 = false → ringBadValue f (v.toNat &&& regMask (ringReg r f)) = false →
      ∃ t, exec (.ringCfgWrite l r f v) s = .next t ∧ deviceOnly s t ∧
        t.dev.rdN (ringReg r f) = (v.toNat &&& regMask (ringReg r f)) ∧ ∀ a, a ≠ ringReg r f → t.dev.rd a = s.dev.rd a) ∧
    (∀ f : Fin 7, f ≠ 0 → s.dev.bit (Reg.HX_Rr_CFG r) 0 = true →
      ∃ t, exec (.ringCfgWrite l r f v) s = .next t ∧ deviceOnly s t ∧ t.dev.rd (ringReg r f) = s.dev.rd (ringReg r f) ∧
        t.dev.rdN Reg.HX_WR_REJECT = min (2 ^ 32 - 1) (s.dev.rdN Reg.HX_WR_REJECT + 1)) ∧
    (s.dev.bit (Reg.HX_Rr_CFG r) 0 = false → v.toNat.testBit 0 = true → v.toNat.testBit 1 = false → 12 ≤ nfld v.toNat 12 8 → nfld v.toNat 12 8 ≤ 30 →
      ∃ t, exec (.ringCfgWrite l r 0 v) s = .next t ∧ deviceOnly s t ∧ t.dev.bit (Reg.HX_Rr_CFG r) 0 = true ∧
        t.dev.rd (Reg.HX_Rr_WR r) = 0 ∧ t.dev.rd (Reg.HX_Rr_DB r) = 0 ∧ t.dev.rd (Reg.HX_Rr_SEQ r) = 0) ∧
    (∀ n, ringFree n = ringFree (s.dev.rdN (Reg.HX_Rr_CFG r)) → n = (v.toNat &&& regMask (Reg.HX_Rr_CFG r)) → s.dev.bit (Reg.HX_Rr_CFG r) 0 = true →
      ringBadValue 0 n = false → ∃ t, exec (.ringCfgWrite l r 0 v) s = .next t ∧ deviceOnly s t ∧ t.dev.rdN (Reg.HX_Rr_CFG r) = n ∧
        (t.dev.ring r).link = (if n.testBit 2 then 1 else 0) ∧ ∀ a, a ≠ Reg.HX_Rr_CFG r → t.dev.rd a = s.dev.rd a) ∧
    (∀ err, (s.dev.ring r).reading = none → exec (.writebackConfirm ⟨r, err⟩) s = .next s) ∧
    ∀ n, (s.dev.ring r).reading = some n →
      (∃ t, exec (.writebackConfirm ⟨r, none⟩) s = .next t ∧ deviceOnly s t ∧
        (t.dev.ring r).unconf = (s.dev.ring r).unconf.drop n ∧ (t.dev.ring r).reading = none) ∧
      ∀ c : Fin 3, ∃ t, exec (.writebackConfirm ⟨r, some c⟩) s = .next t ∧ deviceOnly s t ∧
        (t.dev.ring r).unconf = (s.dev.ring r).unconf ∧ (t.dev.ring r).reading = none ∧
        recorded s.dev t.dev ⟨s.clock.dtime, uid 1 (s.dev.ring r).link 0, 3, BitVec.ofNat 32 (c + 1 + 256 * r)⟩

/-- RING_RECORD_WRITE and RING_ENTRY_COPY (R413, R414).
Rows stated to complete: RING_RECORD_WRITE, RING_ENTRY_COPY. -/
def Obligations.HostRingsCarryRecordsAndEntries : Prop :=
  (∀ (s : State) (r : Fin 32) (x : RingRec), s.running = true → s.dev.hx.recs.find? (fun y => decide (y.ring = r.val)) = some x →
    x.count ≠ some (Reg.HX_Rr_WR r) → x.count ≠ some (Reg.HX_Rr_SEQ r) →
    let ws := x.words
    s.dev.ringTooBig r (4 * ws.length) = false → s.dev.ringRoom r (4 * ws.length) 0 = true → (s.dev.link (s.dev.ring r).link).active = true →
    ∃ t, exec (.ringRecordWrite r) s = .next t ∧ deviceOnly s t ∧
      t.dev.rd (Reg.HX_Rr_WR r) = BitVec.ofNat 32 (s.dev.rdN (Reg.HX_Rr_WR r) + 4 * ws.length) ∧
      t.dev.rd (Reg.HX_Rr_SEQ r) = BitVec.ofNat 32 (s.dev.rdN (Reg.HX_Rr_SEQ r) + 1) ∧
      t.dev.hx.recs = s.dev.hx.recs.eraseP (fun y => decide (y.ring = r.val)) ∧
      t.dev.ev = s.dev.ev ++ x.events.map (fun e => ⟨e.1, BitVec.ofNat 32 e.2, s.clock.dtime⟩) ∧
      (x.events = [] → (∀ c, x.count = some c → s.dev.rdN c + 1 < 2 ^ 32 → t.dev.rdN c = s.dev.rdN c + 1) ∧
        ∀ a, a ≠ Reg.HX_Rr_WR r → a ≠ Reg.HX_Rr_SEQ r → x.count ≠ some a → t.dev.rd a = s.dev.rd a)) ∧
  ∀ (s : State) (r : Fin 32) (bs : List Byte) (c : Fin 3), s.running = true → quietMemory s.dev → bs.length = 32 →
    s.dev.ringEn r = true → s.dev.ringIn r = true → (s.dev.ring r).stopped = false → (s.dev.link (s.dev.ring r).link).carries = true →
    s.dev.rdN (Reg.HX_Rr_WR r) ≠ s.dev.rdN (Reg.HX_Rr_DB r) →
    ∃ t, exec (.ringEntryCopy r (some bs) c) s = .next t ∧ t.pending = s.pending ∧ t.clock = s.clock ∧
      t.dev.rd (Reg.HX_Rr_WR r) = BitVec.ofNat 32 (s.dev.rdN (Reg.HX_Rr_WR r) + 32) ∧
      let a := s.dev.rdN (Reg.HX_Rr_TGT r) + s.dev.rdN (Reg.HX_Rr_WR r) / 32 % 2 ^ s.dev.fld (Reg.HX_Rr_TGTSZ r) 4 0 * 32
      (∀ i, i < 32 → a + i < frameBytes → t.mem.frameByte (a + i) = bs.getD i 0) ∧
      (∀ c, c < a ∨ a + 32 ≤ c → t.mem.frameByte c = s.mem.frameByte c) ∧
      (∀ c, t.mem.locByte c = s.mem.locByte c) ∧ ∀ c, t.mem.lastRec c = s.mem.lastRec c

/-- LINK_TRAINED, LINK_LEAVES_ACTIVE, LINK_FAIL, D3HOT_CHANGE, MSIX_UNMASK, FEAT_ACCEPT_WRITE, FEATURE_COMMIT and FEATURE_WINDOW_TIMEOUT
(R405, R406, R416, R417, R419 to R421). That messages of unmasked vectors wait while the link carries no requests is the model's reading (log 215).
Rows stated to complete: LINK_TRAINED, LINK_LEAVES_ACTIVE, LINK_FAIL, D3HOT_CHANGE, MSIX_UNMASK, FEAT_ACCEPT_WRITE, FEATURE_COMMIT, FEATURE_WINDOW_TIMEOUT. -/
def Obligations.LinksAndTheFeatureWindow : Prop :=
  ∀ (s : State) (l : Fin 2), s.running = true →
    (∀ (rate : Fin 6) (lanes : Fin 16), s.dev.pw.core = true → ∃ t, exec (.linkTrained l rate lanes) s = .next t ∧ deviceOnly s t ∧
      (t.dev.link l).active = true ∧ (t.dev.link l).rate = rate.val ∧ (t.dev.link l).repaired = lanes.val ∧
      (∀ k : Fin 2, k ≠ l → t.dev.link k = s.dev.link k) ∧
      ((s.dev.link l).state = 3 ∨ (s.dev.link l).state = 4 → s.dev.rdN (Reg.HX_Ll_CNT_RETRAIN l) + 1 < 2 ^ 32 →
        t.dev.rdN (Reg.HX_Ll_CNT_RETRAIN l) = s.dev.rdN (Reg.HX_Ll_CNT_RETRAIN l) + 1)) ∧
    ((s.dev.link l).active = true → s.dev.pw.core = true → ∃ t, exec (.linkLeavesActive l) s = .next t ∧ deviceOnly s t ∧
      t.dev.link l = { s.dev.link l with state := 3, left := some s.clock.dtime } ∧ ∀ a, t.dev.rd a = s.dev.rd a) ∧
    (∀ x, (s.dev.link l).state = 3 → (s.dev.link l).left = some x → (∀ r, (s.dev.ring r).link = l.val → s.dev.ringEn r = false) →
      ∃ t, exec (.linkFail l 0) s = .next t ∧ t.mem = s.mem ∧ t.clock = s.clock.reach (x + 400 * s.dev.fld Reg.HX_CFG 23 8) ∧
        (t.dev.link l).state = 4 ∧ recorded s.dev t.dev ⟨t.clock.dtime, uid 1 l 0, 1, 1⟩) ∧
    (∀ c : Fin 3, c ≠ 0 → (s.dev.link l).active = true → (∀ r, (s.dev.ring r).link = l.val → s.dev.ringEn r = false) →
      ∃ t, exec (.linkFail l c) s = .next t ∧ t.mem = s.mem ∧ (t.dev.link l).state = 4 ∧
        recorded s.dev t.dev ⟨t.clock.dtime, uid 1 l 0, 1, BitVec.ofNat 32 (c + 1)⟩) ∧
    (∀ on, s.dev.pw.core = true → ∃ t, exec (.d3hotChange l on) s = .next t ∧ deviceOnly s t ∧ (t.dev.link l).d3hot = on ∧
      (t.dev.link l).state = (s.dev.link l).state ∧
      (on = true ∨ (s.dev.link l).active = false ∨ ((s.dev.link l).later = [] ∧ ∀ r, (s.dev.ring r).repeat_ = none) →
        t.dev.link l = { s.dev.link l with d3hot := on } ∧ t.dev.sent = s.dev.sent ∧ ∀ a, t.dev.rd a = s.dev.rd a) ∧
      ∀ v, on = false → (s.dev.link l).active = true → (s.dev.link l).later = [v] → (∀ r, (s.dev.ring r).repeat_ = none) →
        ((s.dev.link l).entry v).masked = false → (t.dev.link l).later = [] ∧
          t.dev.sent = .msix l v ((s.dev.link l).entry v).addr ((s.dev.link l).entry v).data :: s.dev.sent) ∧
    (∀ w : MsixWrite, s.dev.pw.core = true → ∃ t, exec (.msixUnmask l w) s = .next t ∧ deviceOnly s t ∧
      let x := s.dev.link l
      let y := t.dev.link l
      y.entry w.v = ⟨w.addr.toNat, w.data, w.masked⟩ ∧ (∀ u, u ≠ w.v.val → y.entry u = x.entry u) ∧ (∀ a, t.dev.rd a = s.dev.rd a) ∧
      (w.masked = false → x.pend.contains w.v.val = true → y.pend.contains w.v.val = false ∧
        (x.carries = true → t.dev.sent = .msix l w.v w.addr.toNat w.data :: s.dev.sent ∧ y.later = x.later) ∧
        (x.carries = false → t.dev.sent = s.dev.sent ∧ y.later = x.later ++ [w.v.val])) ∧
      (w.masked = true ∨ x.pend.contains w.v.val = false → t.dev.sent = s.dev.sent ∧ y.pend = x.pend ∧ y.later = x.later)) ∧
    (s.dev.hx.window = 0 →
      (∀ (who : Reader) (w : Fin 7) (v : Word), s.dev.featWriter who = true → ∃ t, exec (.featAcceptWrite who w v) s = .next t ∧ deviceOnly s t ∧
        SMap.get 0 t.dev.hx.accept w = v ∧ (∀ w', w' ≠ w.val → SMap.get 0 t.dev.hx.accept w' = SMap.get 0 s.dev.hx.accept w') ∧
        ∀ a, t.dev.rd a = s.dev.rd a) ∧
      (∀ (who : Reader) (v : Word), s.dev.featWriter who = true → ∃ t, exec (.featureCommit who v) s = .next t ∧ deviceOnly s t ∧ t.dev.hx.window = 1 ∧
        ∀ b, b < 256 → t.dev.feature b = formed (fun w => if w = 7 then v.toNat else (SMap.get (0 : Word) s.dev.hx.accept w).toNat) s.dev b) ∧
      (∀ x, s.dev.featDue = some x → ∃ t, exec .featureWindowTimeout s = .next t ∧ t.mem = s.mem ∧ t.clock = s.clock.reach x ∧ t.dev.hx.window = 2 ∧
        ∀ b, b < 256 → t.dev.feature b = formed (fun w => if w = 0 then 0x841 else 0) s.dev b)) ∧
    ∀ (who : Reader) (w : Fin 7) (v : Word), ∀ i ∈ [Instr.featAcceptWrite who w v, .featureCommit who v],
      (s.dev.hx.window ≠ 0 → s.dev.featWriter who = true → ∃ t, exec i s = .next t ∧ deviceOnly s t ∧
        t.dev.hx.accept = s.dev.hx.accept ∧ t.dev.rdN Reg.HX_WR_REJECT = min (2 ^ 32 - 1) (s.dev.rdN Reg.HX_WR_REJECT + 1)) ∧
      (s.dev.featWriter who = false → ∃ t, exec i s = .next t ∧ deviceOnly s t ∧
        t.dev.hx = s.dev.hx ∧ (s.dev.rdN Reg.HX_DST_REJECT + 1 < 2 ^ 32 → t.dev.rdN Reg.HX_DST_REJECT = s.dev.rdN Reg.HX_DST_REJECT + 1))

/-- LOADER_WRITE, LOADER_CLOSE and HOST_WRITE_REJECT (R16, R17, R409).
Rows stated to complete: LOADER_WRITE, HOST_BAR0_READ, LOADER_CLOSE, HOST_WRITE_REJECT. -/
def Obligations.LoaderWindowAndRejectedWrites : Prop :=
  ∀ (s : State) (l : Fin 2) (off : BitVec 20), s.running = true →
    (∀ bytes : List Byte, s.dev.hx.loader = true → quietMemory s.dev → off.toNat + bytes.length ≤ 2 ^ 20 →
      ∃ t, exec (.loaderWrite l off bytes) s = .next t ∧ t.pending = s.pending ∧ t.clock = s.clock ∧ t.dev = s.dev ∧
        (∀ i, i < bytes.length → t.mem.locByte (off.toNat + i) = bytes.getD i 0) ∧
        (∀ c, c < off.toNat ∨ off.toNat + bytes.length ≤ c → t.mem.locByte c = s.mem.locByte c) ∧
        (∀ c, t.mem.frameByte c = s.mem.frameByte c) ∧ ∀ c, t.mem.lastRec c = s.mem.lastRec c) ∧
    (∀ bytes : List Byte, s.dev.hx.loader = false → quietMemory s.dev →
      ∃ t, exec (.loaderWrite l off bytes) s = .next t ∧ deviceOnly s t ∧
        t.dev.rdN Reg.HX_WR_REJECT = min (2 ^ 32 - 1) (s.dev.rdN Reg.HX_WR_REJECT + 1) ∧ ∀ a, a ≠ Reg.HX_WR_REJECT → t.dev.rd a = s.dev.rd a) ∧
    (off.toNat = Reg.HX_WR_REJECT → ∃ t, exec (.hostBar0Read l off) s = .next t ∧ deviceOnly s t ∧
      t.dev.sent = .completion l (s.dev.rd Reg.HX_WR_REJECT) :: s.dev.sent ∧ t.dev.rd Reg.HX_WR_REJECT = 0) ∧
    (∀ v : Word, ∃ t, exec (.loaderClose l v) s = .next t ∧ deviceOnly s t ∧ t.dev.hx.loader = (s.dev.hx.loader && !v.toNat.testBit 0) ∧
      ∀ a, t.dev.rd a = s.dev.rd a) ∧
    ∀ v : Word, s.dev.hostMayWrite off.toNat = false → ∃ t, exec (.hostWriteReject l false off v) s = .next t ∧ deviceOnly s t ∧
      t.dev.sent = s.dev.sent ∧
      t.dev.rdN Reg.HX_WR_REJECT = min (2 ^ 32 - 1) (s.dev.rdN Reg.HX_WR_REJECT + 1) ∧ ∀ a, a ≠ Reg.HX_WR_REJECT → t.dev.rd a = s.dev.rd a


/-! ## Registers, shadow sets, the host's reads and the TAP (R5 to R10, R16 to R21, R407, R465, R466) -/

/-- SHADOW_SWAP (R7, R18, R19).
Row stated to complete: SHADOW_SWAP. -/
def Obligations.SwapsCopyTheWholeSet : Prop :=
  ∀ (s : State) (x : SetId), s.running = true →
    (s.dev.swapOf x = none → exec (.shadowSwap x) s = .next s) ∧
    (∀ b, s.dev.swapOf x = some b → s.dev.atBoundary x b = false → exec (.shadowSwap x) s = .next s) ∧
    ∀ b, s.dev.swapOf x = some b → s.dev.atBoundary x b = true →
      x ∈ ([.wp 1, .wp 2, .wp 3, .wp 4, .wp 13, .wp 14, .wp 15, .wp 16, .wp 17, .sps, .gpio, .tk, .am, .fb, .hx, .gl, .sv, .tr, .db, .spare] : List SetId) →
      ∃ t, exec (.shadowSwap x) s = .next t ∧ t.pending = s.pending ∧ t.mem = s.mem ∧ t.clock = s.clock.reach (s.dev.swapFrom x) ∧ t.dev.swapOf x = none ∧ (∀ y, y ≠ x → t.dev.swapOf y = s.dev.swapOf y) ∧
        t.dev.gen x = (s.dev.gen x + 1) % 65536 ∧ (∀ y, y ≠ x → ¬ (x = .tk ∧ y = .am) → t.dev.gen y = s.dev.gen y) ∧
        (x = .tk → t.dev.gen .am = (s.dev.gen .am + 1) % 65536) ∧
        (∀ a, t.dev.rd a = if regSet a = some x then s.dev.srd a else s.dev.rd a) ∧ ∀ a, t.dev.srd a = s.dev.srd a

/-- OTHER_REGISTER_WRITE (R5, R6, R20).
Row stated to complete: OTHER_REGISTER_WRITE. -/
def Obligations.RegisterWritesFollowTheirAccess : Prop :=
  ∀ (s : State) (who : Reader) (off : BitVec 20) (v : Word), s.running = true → s.dev.fab.held = [] → (∀ l, who ≠ .link l) →
    let a := off.toNat
    let writes := fun (p : State → Prop) => ∃ t, exec (.otherRegisterWrite who off v) s = .next t ∧ deviceOnly s t ∧ p t
    (s.dev.swapBusy a = true → writes (fun t => (∀ r, t.dev.rd r = s.dev.rd r) ∧ ∀ r, t.dev.srd r = s.dev.srd r)) ∧
    (s.dev.swapBusy a = false → a ≠ Reg.GL_RST → a ≠ Reg.WP_GAP_CMD → s.dev.ownWrite s.mem s.now who a v = none →
      (∀ r, regRow a = some r → r.acc = .rw → writes (fun t => t.dev.rdN a = (v.toNat &&& r.mask) ∧ (∀ b, b ≠ a → t.dev.rd b = s.dev.rd b) ∧
        ∀ b, t.dev.srd b = s.dev.srd b)) ∧
      (∀ r, regRow a = some r → r.acc = .w1c → writes (fun t => (∀ i, t.dev.bit a i = (s.dev.bit a i && !v.toNat.testBit i)) ∧
        (∀ b, b ≠ a → t.dev.rd b = s.dev.rd b) ∧ ∀ b, t.dev.srd b = s.dev.srd b)) ∧
      (∀ r, regRow a = some r → r.acc ≠ .rw → r.acc ≠ .w1c → writes (fun t => t.dev = s.dev)) ∧
      (∀ l, regRow a = none → shadowAt a = some l → writes (fun t => (t.dev.srd l).toNat = (v.toNat &&& regMask l) ∧
        (∀ b, b ≠ l → t.dev.srd b = s.dev.srd b) ∧ ∀ b, t.dev.rd b = s.dev.rd b)) ∧
      (regRow a = none → shadowAt a = none → writes (fun t => t.dev = s.dev)))

/-- HOST_BAR0_READ (R5, R9, R10, R407).
Row stated to complete: HOST_BAR0_READ. -/
def Obligations.HostReadsAndHoldingRegisters : Prop :=
  ∀ (s : State) (l : Fin 2) (off : BitVec 20), s.running = true →
    let a := off.toNat
    let reads := fun (v : Word) (p : State → Prop) => ∃ t, exec (.hostBar0Read l off) s = .next t ∧ deviceOnly s t ∧
      t.dev.sent = .completion l v :: s.dev.sent ∧ (∀ r, r ≠ .link l → t.dev.heldOf r = s.dev.heldOf r) ∧ p t
    (a = Reg.WP_DTIME_LO → reads (BitVec.ofNat 32 s.clock.dtime) (fun t => t.dev.heldOf (.link l) = some (BitVec.ofNat 32 (s.clock.dtime / 2 ^ 32)) ∧
      ∀ b, t.dev.rd b = s.dev.rd b)) ∧
    (a = Reg.WP_DTIME_HI → reads ((s.dev.heldOf (.link l)).getD (BitVec.ofNat 32 (s.clock.dtime / 2 ^ 32)))
      (fun t => t.dev.heldOf (.link l) = none ∧ ∀ b, t.dev.rd b = s.dev.rd b)) ∧
    (a = Reg.HX_WR_REJECT → reads (s.dev.rd Reg.HX_WR_REJECT) (fun t => t.dev.rd Reg.HX_WR_REJECT = 0 ∧
      ∀ b, b ≠ Reg.HX_WR_REJECT → t.dev.rd b = s.dev.rd b)) ∧
    (regRow a = none → shadowAt a = none → lowWord a = false → (4 ≤ a → lowWord (a - 4) = false) → reads 0 (fun t => ∀ b, t.dev.rd b = s.dev.rd b)) ∧
    ∀ r, regRow a = some r → r.acc = .rw → s.dev.statusWord s.mem s.now (.link l) a = none → lowWord a = false →
      (4 ≤ a → lowWord (a - 4) = false) → reads (s.dev.rd a) (fun t => ∀ b, t.dev.rd b = s.dev.rd b)

/-- TAP_DEVICE_READ, TAP_DEVICE_WRITE, TAP_FORCED_WRITE, TAP_RESET_UPDATE and TAP_INSTRUCTION_UPDATE (R465, R466).
Rows stated to complete: TAP_INSTRUCTION_UPDATE, TAP_DEVICE_READ, TAP_DEVICE_WRITE, TAP_FORCED_WRITE, OTHER_REGISTER_WRITE, TAP_RESET_UPDATE. -/
def Obligations.TapOperations : Prop :=
  ∀ (s : State), s.running = true →
    let counts := fun (t : State) (r : Nat) => s.dev.rdN r + 1 < 2 ^ 32 → t.dev.rdN r = s.dev.rdN r + 1
    let denied := fun (i : Instr) => ∃ t, exec i s = .next t ∧ deviceOnly s t ∧ t.dev.sent = .tap 0 true :: s.dev.sent ∧ counts t Reg.DB_CNT_DENY ∧
      ∀ a, a ≠ Reg.DB_CNT_DENY → a ≠ Reg.HX_DST_REJECT → t.dev.rd a = s.dev.rd a
    (∀ ir : BitVec 5, ∃ t, exec (.tapInstructionUpdate ir) s = .next t ∧ deviceOnly s t ∧ t.dev.tap.ir = ir.toNat ∧
      t.dev.tap.key = (s.dev.tap.key && decide (ir = 0xA) && decide (s.dev.tap.ir = 0xA)) ∧ ∀ a, t.dev.rd a = s.dev.rd a) ∧
    (∀ (addr data : Word), s.dev.tap.ir ≠ 9 → s.dev.fab.held = [] → ∀ i ∈ [Instr.tapDeviceRead addr, .tapDeviceWrite addr data, .tapForcedWrite addr data],
      ∃ t, exec i s = .next t ∧ deviceOnly s t ∧ t.dev = s.dev) ∧
    (∀ (addr data : Word), s.dev.tap.ir = 9 →
      let a := addr.toNat
      (a % 4 = 0 → a < 0x100000 → ∃ t v e, exec (.tapDeviceRead addr) s = .next t ∧ deviceOnly s t ∧
        s.dev.regRead s.mem s.now .debug a = (v, e) ∧ t.dev.sent = .tap v false :: e.sent ∧ ∀ r, t.dev.rd r = (e.bump Reg.DB_CNT_OP).rd r) ∧
      (a % 4 ≠ 0 ∨ 0x100000 ≤ a → denied (.tapDeviceRead addr) ∧ denied (.tapDeviceWrite addr data)) ∧
      (s.dev.bit Reg.DB_CFG 0 = false ∨ a = Reg.DB_CFG ∨ a = Reg.DB_CFG + 0x800 ∨ s.dev.swapBusy a = true ∨ hostReg a = true →
        denied (.tapDeviceWrite addr data)) ∧
      (s.dev.debugRefuses a = false → hostReg a = false → ∃ t u, exec (.tapDeviceWrite addr data) s = .next t ∧
        exec (.otherRegisterWrite .debug (BitVec.ofNat 20 a) data) u = .next t ∧ deviceOnly s u ∧ u.dev.sent = .tap 0 false :: s.dev.sent ∧
        counts u Reg.DB_CNT_OP ∧ ∀ r, r ≠ Reg.DB_CNT_OP → u.dev.rd r = s.dev.rd r) ∧
      (s.dev.bit Reg.DB_CFG 0 = true → a % 4 = 0 → a < frameBytes → quietMemory s.dev →
        ∃ t, exec (.tapForcedWrite addr data) s = .next t ∧ t.clock = s.clock ∧ frameStored s.mem t.mem a 4 data.toNat ∧
          t.dev.sent = .tap 0 false :: s.dev.sent ∧ counts t Reg.DB_CNT_OP) ∧
      (s.dev.bit Reg.DB_CFG 0 = false ∨ a % 4 ≠ 0 ∨ frameBytes ≤ a → s.dev.fab.held = [] → denied (.tapForcedWrite addr data))) ∧
    (∀ v : BitVec 16, s.dev.tap.ir = 0xA → s.dev.bit Reg.DB_CFG 1 = true →
      (s.dev.tap.key = true → v = 0x5AA5 → ∃ t, exec (.tapResetUpdate v) s = .next t ∧ warmLeft s t 9) ∧
      (s.dev.tap.key = false ∨ v ≠ 0x5AA5 → ∃ t, exec (.tapResetUpdate v) s = .next t ∧ deviceOnly s t ∧
        t.dev.tap = ⟨0xA, decide (v = 0xA55A)⟩ ∧ ∀ a, t.dev.rd a = s.dev.rd a)) ∧
    ∀ v : BitVec 16, s.dev.tap.ir ≠ 0xA ∨ s.dev.bit Reg.DB_CFG 1 = false → exec (.tapResetUpdate v) s = .next s


/-! ## The maintenance ledger, the trim engine and the fault log (R445 to R463) -/

/-- The ACTIVITY, FM_RETIRE and FLT rows, TRIM_TICK, FAULT_RECORD_ENTER and ADMISSION_ANSWER of a ledger request. Which steps cannot complete
is the model's reading (log 213).
Rows stated to complete: ACTIVITY_REQUEST, ADMISSION_ANSWER, ACTIVITY_START, ACTIVITY_END, ACTIVITY_ABORT, ACTIVITY_FREE, ACTIVITY_SELF_END, ACTIVITY_FAIL, FM_RETIRE_COPY_LINE, FM_RETIRE_SWITCH, TRIM_TICK, FLT_SET, FLT_CLEAR, FAULT_RECORD_ENTER. -/
def Obligations.LedgerTrimAndFaultLog : Prop :=
  (∀ (s : State) (a : Fin 32), s.running = true →
    let x := s.dev.slot a
    let u := x.unit
    let live := x.state = 2 ∨ x.state = 3
    let others := fun (t : State) => ∀ b, b ≠ a.val → t.dev.slot b = s.dev.slot b
    let told := fun (t : State) (unit code mid : Nat) => t.dev.bit Reg.SV_FAULT (code - 1) = true ∧
      recorded s.dev t.dev ⟨s.clock.dtime, uid 14 unit 0, code, BitVec.ofNat 32 (a + 256 * mid + 65536 * x.target)⟩
    let posts := fun (t : State) (state : Nat) => t.dev.ev = s.dev.ev ++
      (if s.dev.bit (Reg.SV_Aa_CFG a) 5 = true ∧ x.planner = false then
        [⟨96 + s.dev.fld (Reg.SV_Aa_CFG a) 10 6, BitVec.ofNat 32 (a + 256 * state), s.clock.dtime⟩] else [])
    let selfEnds := fun (i : Instr) => ∃ t, exec i s = .next t ∧ deviceOnly s t ∧ t.dev.slot a = { x with state := 4 } ∧ others t ∧ told t 0 2 x.kind ∧ posts t 4
    (x.state ≠ 0 → exec (.activityRequest a) s = .next s) ∧
    (x.state = 0 → ∃ t, exec (.activityRequest a) s = .next t ∧ deviceOnly s t ∧ t.dev.regs = s.dev.regs ∧ others t ∧
      t.dev.slot a = { Slot.reset with state := 1, kind := s.dev.fld (Reg.SV_Aa_CFG a) 3 0, target := s.dev.rdN (Reg.SV_Aa_TGT a) % 65536,
                                       second := s.dev.rdN (Reg.SV_Aa_TGT a) / 65536 } ∧
      t.dev.tk = { s.dev.tk with requests := s.dev.tk.requests ++ [.ledger a] }) ∧
    (∀ rest, s.dev.tk.requests = .ledger a :: rest →
      let live := s.dev.slotsIn Slot.live
      (s.dev.activityValid x = false → x.kind ≠ 8 → x.planner = false → ∃ t, exec .admissionAnswer s = .next t ∧ deviceOnly s t ∧ t.dev.regs = s.dev.regs ∧
        t.dev.tk.requests = rest ∧ others t ∧ t.dev.slot a = { x with state := 5, code := 0x0E00 + a, cause := 1 }) ∧
      (∀ c, s.dev.activityValid x = true → x.kind ≠ 8 → x.planner = false → live = [c] → s.dev.conflict x (s.dev.slot c) = true →
        ∃ t, exec .admissionAnswer s = .next t ∧ deviceOnly s t ∧ t.dev.regs = s.dev.regs ∧
          t.dev.tk.requests = rest ∧ others t ∧ t.dev.slot a = { x with state := 5, code := 0x0D00 + c, cause := 2 }) ∧
      (s.dev.activityValid x = true → live = [] → x.kind = 9 → ({ s.dev with tk := { s.dev.tk with requests := rest } } : Dev).activityFits [x] x = true →
        ∃ t, exec .admissionAnswer s = .next t ∧ deviceOnly s t ∧ t.dev.regs = s.dev.regs ∧ t.dev.tk.requests = rest ∧ others t ∧
          t.dev.slot a = { x with state := 2, gapDone := if s.dev.bit (Reg.SV_Aa_CFG a) 4 = true ∧ x.planner = false then x.gapDone else true })) ∧
    (x.state ≠ 2 ∨ x.gapDone = false ∨ x.line = 9 → exec (.activityStart a) s = .next s) ∧
    (x.state = 2 → x.gapDone = true → x.kind = 9 → x.line = 1 → ∃ t, exec (.activityStart a) s = .next t ∧ deviceOnly s t ∧ others t ∧
      t.dev.slot a = { x with state := 3, step := (t.dev.slot a).step } ∧ told t 0 1 9 ∧ posts t 3) ∧
    (x.state = 2 → x.gapDone = true → x.kind = 6 → x.line = 0 → ∃ t, exec (.activityStart a) s = .next t ∧ deviceOnly s t ∧ others t ∧
      t.dev.slot a = { x with state := 3, step := 1 } ∧ told t 0 1 6 ∧ posts t 3 ∧ t.dev.fab = { s.dev.fab with mirror := some (u, x.second) }) ∧
    (x.state = 2 → x.gapDone = true → x.kind = 2 → x.line = 0 → s.dev.runs u = none → s.dev.pinned u = false → (∀ e, (s.dev.tctx e).state ≠ .ready) →
      ∃ t, exec (.activityStart a) s = .next t ∧ t.mem = s.mem ∧ (t.dev.slot a).state = 3 ∧ (t.dev.core u).service = false ∧
        (t.dev.core u).out = some x.second ∧ told t 0 1 2) ∧
    (¬ live ∨ ¬ (x.kind = 1 ∨ x.kind = 2 ∨ x.kind = 3 ∨ x.kind = 9 ∨ x.kind = 10) ∨ x.line = 9 → exec (.activityEnd a) s = .next s) ∧
    (live → x.line ≠ 9 → x.kind = 1 ∨ x.kind = 2 ∨ x.kind = 3 ∨ x.kind = 9 ∨ x.kind = 10 → ∃ t, exec (.activityEnd a) s = .next t ∧ t.mem = s.mem ∧
      (t.dev.slot a).line = 9 ∧ ((t.dev.slot a).state = x.state ∨ (t.dev.slot a).state = 4) ∧
      (x.kind = 9 → (t.dev.slot a).state = 4 ∧ (t.dev.hpOf u).out = false ∧ told t 0 2 9 ∧ posts t 4)) ∧
    (¬ live ∨ x.kind ≠ 6 → exec (.activityAbort a) s = exec (.activityEnd a) s) ∧
    (live → x.kind = 6 → (∀ r ∈ s.dev.fab.retired, r.1 ≠ u) → selfEnds (.activityAbort a) ∧
      ∃ t, exec (.activityAbort a) s = .next t ∧ t.dev.fab = { s.dev.fab with mirror := none }) ∧
    (live → x.kind = 6 → (∃ r ∈ s.dev.fab.retired, r.1 = u) → exec (.activityAbort a) s = .next s) ∧
    (x.state < 4 → exec (.activityFree a) s = .next s) ∧
    (4 ≤ x.state → ∃ t, exec (.activityFree a) s = .next t ∧ deviceOnly s t ∧ t.dev.regs = s.dev.regs ∧ t.dev.slot a = Slot.reset ∧ others t) ∧
    (x.state = 3 → (x.kind = 5 ∧ (s.dev.link u).active = true) ∨ (x.kind = 6 ∧ ∃ r ∈ s.dev.fab.retired, r.1 = u) ∨
      (x.kind = 7 ∧ s.dev.bit (Reg.FB_LSb_STATUS (u - 18)) 4 = true) → selfEnds (.activitySelfEnd a)) ∧
    (x.state = 3 → (x.kind = 5 ∧ (s.dev.link u).active = false) ∨ (x.kind = 6 ∧ ∀ r ∈ s.dev.fab.retired, r.1 ≠ u) ∨
      (x.kind = 7 ∧ s.dev.bit (Reg.FB_LSb_STATUS (u - 18)) 4 = false) → exec (.activitySelfEnd a) s = .next s) ∧
    (x.state = 2 → x.gapDone = true → x.kind = 7 → x.line = 0 → 18 ≤ u → u < 34 → s.dev.bit (Reg.FB_LSb_STATUS (u - 18)) 4 = false →
      (∀ g ∈ s.dev.heldGranules, g / 240 ≠ u - 18) → ∃ t, exec (.activityStart a) s = .next t ∧ t.mem = s.mem ∧ others t ∧ (t.dev.slot a).state = 3 ∧
        t.dev.bit (Reg.FB_LSb_STATUS (u - 18)) 4 = true ∧ t.dev.fld (Reg.FB_LSb_STATUS (u - 18)) 23 16 = 0 ∧ t.dev.bit Reg.SV_FAULT 6 = true) ∧
    (x.state ≠ 2 → x.state ≠ 3 → exec (.activitySelfEnd a) s = .next s ∧ (x.kind ≠ 8 → exec (.activityFail a) s = .next s)) ∧
    (x.state = 3 → x.kind = 5 → x.line ≠ 9 →
      ((s.dev.link u).state ≠ 4 → exec (.activityFail a) s = .next s) ∧
      ((s.dev.link u).state = 4 → ∃ t, exec (.activityFail a) s = .next t ∧ deviceOnly s t ∧ t.dev.slot a = { x with state := 6 } ∧ others t ∧
        told t 1 3 x.step ∧ posts t 6)) ∧
    (x.state = 3 → x.kind = 3 → x.line = 9 → s.dev.spare.bank = u → s.dev.spare.state = 3 → ∃ t, exec (.activityFail a) s = .next t ∧ deviceOnly s t ∧
      t.dev.slot a = { x with state := 6 } ∧ others t ∧ told t 1 3 x.step ∧ posts t 6) ∧
    (s.dev.fab.held = [] →
      (s.dev.fab.mirror = none → exec .fmRetireCopyLine s = .next s ∧ exec .fmRetireSwitch s = .next s) ∧
      ∀ b e, s.dev.fab.mirror = some (b, e) → s.dev.retireSlot = some a.val →
        (49152 ≤ x.line → exec .fmRetireCopyLine s = .next s) ∧
        (x.line < 49152 → b < 16 → e < 16 → b ≠ e → (∀ y, s.dev.lockOwner y = none) → s.dev.fab.retired = [] → s.dev.fab.poisonFrame = [] →
          ∃ t, exec .fmRetireCopyLine s = .next t ∧ t.pending = s.pending ∧ t.clock = s.clock ∧ t.dev.regs = s.dev.regs ∧ others t ∧
            t.dev.slot a = { x with line := x.line + 1, step := if x.line + 1 = 49152 then 3 else 2 } ∧
            (∀ j, j < 64 → t.mem.frameByte (e * 0x300000 + 64 * x.line + j) = s.mem.frameByte (b * 0x300000 + 64 * x.line + j)) ∧
            (∀ c, c < e * 0x300000 + 64 * x.line ∨ e * 0x300000 + 64 * x.line + 64 ≤ c → t.mem.frameByte c = s.mem.frameByte c) ∧
            (∀ c, t.mem.locByte c = s.mem.locByte c) ∧ ∀ r, t.mem.lastRec r = s.mem.lastRec r) ∧
        (x.line ≠ 49152 ∨ s.dev.lockOwner b ≠ none → exec .fmRetireSwitch s = .next s) ∧
        (x.line = 49152 → s.dev.lockOwner b = none → s.dev.fab.waiters = [] → ∃ t, exec .fmRetireSwitch s = .next t ∧ deviceOnly s t ∧ others t ∧
          t.dev.slot a = { x with step := 4 } ∧ t.dev.fab = { s.dev.fab with retired := s.dev.fab.retired ++ [(b, e)], mirror := none } ∧
          t.dev.bit Reg.SV_FAULT 6 = true ∧ recorded s.dev t.dev ⟨s.clock.dtime, uid 14 1 0, 7, BitVec.ofNat 32 b⟩))) ∧
  (∀ (s : State) (bg : List (BitVec 16)) dev term phase lanes, s.running = true →
    (s.dev.bit Reg.TR_CFG 0 = false → ∀ sens, exec (.trimTick bg sens dev term phase lanes) s = .next s) ∧
    ∀ a b c d e f : BitVec 16, s.dev.bit Reg.TR_CFG 0 = true → (∀ k w, k < 5 → w < 4 → s.dev.rd (Reg.TR_SETk_Ww k w) = 0) → s.dev.trim.out = [] →
      a.toNat ≤ b.toNat → b.toNat ≤ c.toNat → c.toNat ≤ d.toNat → d.toNat ≤ e.toNat → e.toNat ≤ f.toNat →
      ∃ t, exec (.trimTick bg [a, b, c, d, e, f] dev term phase lanes) s = .next t ∧ t.pending = s.pending ∧ t.mem = s.mem ∧
        t.clock = s.clock.reach (s.dev.trim.last + 2 ^ 24) ∧ t.dev.trim.last = t.clock.dtime ∧
        t.dev.rdN Reg.TR_DIE = (c.toNat + d.toNat) / 2 + 65536 * 63 ∧
        ∀ i, i < 6 → t.dev.rdN (Reg.TR_SENSs i) = ([a, b, c, d, e, f].getD i 0).toNat) ∧
  ∀ s : State, s.running = true →
    (∃ t, exec .fltSet s = .next t ∧ deviceOnly s t ∧ t.dev = { s.dev with flt := { s.dev.flt with active := true, setAt := some s.clock.dtime } }) ∧
    (s.dev.flt.setAt.map coreCycles = some (coreCycles s.clock.dtime) → exec .fltClear s = .next s) ∧
    (s.dev.flt.setAt.map coreCycles ≠ some (coreCycles s.clock.dtime) →
      ∃ t, exec .fltClear s = .next t ∧ deviceOnly s t ∧ t.dev = { s.dev with flt := { s.dev.flt with active := false } }) ∧
    (s.dev.flt.queue = [] → exec .faultRecordEnter s = .next s) ∧
    ∀ (h r : FaultRec) (l q : List FaultRec), s.dev.flt.queue = h :: l → firstRec s.dev.flt.queue = some (r, q) →
      (r ∈ h :: l ∧ q = (h :: l).erase r ∧ coreCycles r.dtime = coreCycles h.dtime ∧
        ∀ y ∈ h :: l.takeWhile (fun z => decide (coreCycles z.dtime = coreCycles h.dtime)), r.unit ≤ y.unit) ∧
      (s.dev.bit Reg.SV_CFG 1 = false → s.dev.bit Reg.HX_CFG 30 = false →
      let newest := r :: s.dev.flt.log.take 511
      ((∀ e, e < 32 → s.dev.bit (Reg.SV_ESCe e) 31 = false) →
        (s.dev.flt.lost = 0 → ∃ t, exec .faultRecordEnter s = .next t ∧ deviceOnly s t ∧
          t.dev = { s.dev with flt := { s.dev.flt with queue := q, log := newest, count := s.dev.flt.count + 1 } }) ∧
        (0 < s.dev.flt.lost → ∃ t, exec .faultRecordEnter s = .next t ∧ deviceOnly s t ∧ t.dev.bit Reg.SV_FAULT 7 = true ∧ t.dev.flt.lost = 0 ∧
          t.dev.flt.queue = q ∧ t.dev.flt.log = r :: ⟨s.clock.dtime, uid 14 0 0, 8, BitVec.ofNat 32 (min (2 ^ 32 - 1) s.dev.flt.lost)⟩ :: s.dev.flt.log.take 510)) ∧
      ∀ e, e < 32 → s.dev.flt.lost = 0 → s.dev.bit (Reg.SV_ESCe e) 31 = true → s.dev.fld (Reg.SV_ESCe e) 19 16 = r.unit / 2048 →
        s.dev.bit (Reg.SV_ESCe e) 22 = true ∨ s.dev.fld (Reg.SV_ESCe e) 15 0 = r.code → (∀ i, i < e → s.dev.bit (Reg.SV_ESCe i) 31 = false) →
        (s.dev.fld (Reg.SV_ESCe e) 21 20 = 1 → ∃ t, exec .faultRecordEnter s = .next t ∧ deviceOnly s t ∧
          t.dev = { s.dev with flt := { s.dev.flt with queue := q, log := newest, count := s.dev.flt.count + 1, active := true, setAt := some s.clock.dtime } }) ∧
        (s.dev.fld (Reg.SV_ESCe e) 21 20 = 2 → noShutter s.dev → ∃ t, exec .faultRecordEnter s = .next t ∧ deviceOnly s t ∧ t.dev.flt.active = true ∧ t.dev.flt.log = newest ∧
          ∀ b, b < 8 → s.dev.vbOn b = true → (t.dev.bank b).state = 3 ∧ ((s.dev.bank b).state ≠ 3 → bankDown t b)) ∧
        (s.dev.fld (Reg.SV_ESCe e) 21 20 = 3 → ∃ t, exec .faultRecordEnter s = .next t ∧ t.dev.pw.phase = .warm 10 ∧ t.dev.flt.log = newest))
end

