-- ==== Sys2Proof/Machine/Pins.lean ====
section
/-! DEFINITION. Machine/Pins.lean: what every output pin but GP0 to GP19 (`Dev.gpDrive`) drives before and after its release (R435, R436). -/
namespace Sys2Proof.Machine

/-- What a pin does: high impedance, a level, or the bits that the transfer or the frame in progress shifts out. -/
inductive PinOut where
  | highZ
  | level (high : Bool)
  | shifts
  deriving DecidableEq, Repr

/-- A pin of GL_PIN_REL1 drives what it is given once it is released, and nothing before (R435, R436). -/
def Dev.released (d : Dev) (bit : Nat) (x : PinOut) : PinOut := if d.pw.rel1.toNat.testBit bit then x else .highZ

/-- HSYn and EVTn: the inactive level, then as R47 and R48 state. -/
def Dev.hsyDrive (d : Dev) (n : Nat) : PinOut := d.released n (.level (d.hsyPin n).level)
def Dev.evtDrive (d : Dev) (n : Nat) : PinOut := d.released (8 + n) (.level (d.evtPin n).level)

/-- The downlink of BLn: the line of its frame, and a constant 0 while the link is off or its downlink has stopped. -/
def Dev.blDrive (d : Dev) (b : Nat) : PinOut :=
  d.released (12 + b) (if (d.blink b).on = true ∧ (d.blink b).down.isSome = true then .shifts else .level false)

/-- SP0 carries an XIP access. -/
def Dev.xipShifts (d : Dev) (n : Nat) : Bool := decide (n = 0) && d.xip.cur.isSome
/-- A transfer of SPn shifts, and has no select setup, pause or retry to wait for. -/
def Dev.spShifts (d : Dev) (t n : Nat) : Bool := match (d.port n).cur with
  | some x => decide ((d.port n).pause = .none) && decide (x.from_ ≤ t)
  | none => d.xipShifts n
/-- SCK of SPn: the idle level of the live mode but for a transfer that shifts. -/
def Dev.sckDrive (d : Dev) (t n : Nat) : PinOut :=
  d.released (20 + n) (if d.spShifts t n then .shifts else .level (d.bit (Reg.SP_Mn_CFG n) 2))
/-- Line i of SPn: data out (0) is 0 at rest and every line high in a receive-only transfer (R302); IO2 and IO3 of SP0 are 1 except in
quad transfers, whose lines turn to input where they receive (R307). -/
def Dev.ioDrive (d : Dev) (t n i : Nat) : PinOut :=
  d.released (20 + n) (match (d.port n).cur with
    | some x =>
      if x.quad then (if x.dir = 2 then .highZ else .shifts)
      else if i = 0 then (if x.dir = 2 then .level true else if d.spShifts t n then .shifts else .level false)
      else if i = 1 then .highZ else .level true
    | none => if d.xipShifts n then .shifts else if i = 0 then .level false else if i = 1 then .highZ else .level true)

/-- SPS MISO drives only while its select is active (R311). -/
def Dev.misoDrive (d : Dev) : PinOut := d.released 24 (if d.sps.select then .shifts else .highZ)
/-- FLT_N is open-drain: low while SV_FLT.active is set (R463). -/
def Dev.fltDrive (d : Dev) : PinOut := d.released 25 (if d.flt.active then .level false else .highZ)

end Sys2Proof.Machine
end

