-- ==== Sys2Proof/Tests/Slice0.lean ====
section
/-! SUPPORT. Tests/Slice0.lean: the model's own tests: an ill-formed command for each check of WellFormed.lean; worked examples of the manual; and
for each statement of Certificates/Slice0/Obligations.lean concrete states and operands that meet the hypotheses of its clauses, with what
the command answers there. Expected values are the manual's, or follow from its words by hand. -/
open Sys2Proof Sys2Proof.Machine Sys2Proof.Claims
set_option Elab.async false

namespace Sys2Proof.Tests

/-! ## Small states and checks -/

/-- The machine right after reset, its chip with the serial number 0, whose CRC-8 is 33 (R437). -/
def fresh : State := { State.reset with dev := { Dev.reset with pw := { Power.reset with serial := 0, check := 33 } } }
/-- The machine right after reset, with these registers written. -/
def withRegs (l : List (Nat × Nat)) (s : State := fresh) : State := { s with dev := l.foldl (fun (d : Dev) x => d.wrN x.1 x.2) s.dev }
/-- The machine with its device changed. -/
def on (f : Dev → Dev) (s : State := fresh) : State := { s with dev := f s.dev }
/-- The machine at a DTIME. -/
def at_ (t : Nat) (s : State) : State := { s with clock := { s.clock with dtime := t } }
/-- The device runs, the hypotheses hold, and the command answers a next state of which p holds. -/
def meets (s : State) (hyps : List Bool) (i : Instr) (p : State → Bool) : Bool :=
  s.running && hyps.all id && match exec i s with
    | .next t => p t
    | .fault _ => false
    | .refused _ => false
/-- The same, and the command changes nothing. -/
def stays (s : State) (hyps : List Bool) (i : Instr) : Bool := meets s hyps i (fun t => decide (t = s))
/-- Every check of a list holds. -/
def checks (l : List Bool) : Bool := l.all id
/-- The record that joins an empty queue. -/
def logs (t : State) (unit code detail : Nat) : Bool := t.dev.flt.queue.any (fun r => decide (r.unit = unit ∧ r.code = code ∧ r.detail.toNat = detail))
/-- The events raised, by number and word. -/
def events (t : State) : List (Nat × Nat) := t.dev.ev.map (fun e => (e.num, e.word.toNat))
/-- What every entry of a sparse map meets, and what is read where there is none, is met everywhere. -/
theorem getAll {β : Type} (P : β → Prop) (d : β) (m : SMap β) (hd : P d) (hm : ∀ x ∈ m, P x.2) : ∀ e, P (SMap.get d m e) := by
  intro e
  induction m with
  | nil => exact hd
  | cons x m ih =>
    obtain ⟨k, v⟩ := x
    simp only [SMap.get, SMap.find]
    split
    · exact hm (k, v) (by simp)
    · exact ih (fun y hy => hm y (by simp [hy]))

/-- Memory is quiet where the fabric is as at reset and no core holds a lock. -/
theorem quiet_of (d : Dev) (f : d.fab = Fabric.reset) (c : d.tk.cores = []) : quietMemory d := by
  refine ⟨by rw [f]; rfl, fun b => ?_, by rw [f]; rfl, by rw [f]; rfl, by rw [f]; rfl⟩
  simp [Dev.lockOwner, Dev.core, c, SMap.get, SMap.find, Core.reset]

/-- No shutter event is under way where no head has any state. -/
theorem noShutter_of (d : Dev) (h : d.lt.heads = []) : noShutter d := fun _ => by
  simp [Dev.lth, h, SMap.get, SMap.find, LtHead.reset]

/-! ## WellFormed -/

theorem test_wf_cold_reset : Instr.wf (.coldReset false ⟨0, 0, 0, [(true, 0, 9)], []⟩) = false := by decide +kernel
theorem test_wf_boot_header : Instr.wf (.bootHeaderRead []) = false := by decide +kernel
theorem test_wf_image_line : Instr.wf (.hpImageLine 0 .ok true true [4096]) = false := by decide +kernel
theorem test_wf_pl_fault : Instr.wf (.plFault 0 3 0 0) = false := by decide +kernel
theorem test_wf_line_fill : Instr.wf (.xipLineFillDone [1]) = false := by decide +kernel
theorem test_wf_calibration : Instr.wf (.adcCalibrationDone 0 []) = false := by decide +kernel
theorem test_wf_ring_entry : Instr.wf (.ringEntryCopy 0 (some [1]) 0) = false := by decide +kernel
theorem test_wf_loader_empty : Instr.wf (.loaderWrite 0 0 []) = false := by decide +kernel
theorem test_wf_loader_end : Instr.wf (.loaderWrite 0 0xFFFFF [1, 2]) = false := by decide +kernel
theorem test_wf_enact : Instr.wf (.enact 0 1 2 6 0) = false := by decide +kernel
theorem test_wf_br : Instr.wf (.br 0 8 0) = false := by decide +kernel
theorem test_wf_beats : Instr.wf (.fabricBeatGrant 0 1 ⟨[⟨3, 0, false, false, false⟩, ⟨3, 0, true, false, false⟩], []⟩ none) = false := by decide +kernel
theorem test_wf_round_trip : Instr.wf (.blTraining 0 1 7 6) = false := by decide +kernel
theorem test_wf_trim : Instr.wf (.trimTick [] [] [] [] [] []) = false := by decide +kernel
theorem test_wf_plain : Instr.wf (.add 0 1 2 3) = true := by decide +kernel
/-- The table gives its rows no bits: only a word of 32 bits spells a command, an instruction of the Ercel cores (R328 to R341). -/
theorem test_no_word_spells : decodeTableWord 16 5 = none ∧ fresh.withFetchWord 16 5 = fresh := by decide +kernel
/-- QMUL g3, g1, g2, 14 by the fields of R328: opcode 1, rd 3, ra 1, rb 2, function 0x17, sh 14. -/
theorem test_decode_qmul : decodeTableWord 32 0x04C49770 = some (.qmul 0 3 1 2 14) := by decide +kernel

/-! ## The machine as a whole -/

theorem witness_StepRunsTheFrontCommand : (fresh).pending = [] ∧ (on (fun d => { d with safe := true })).pending = [] := by decide +kernel
theorem test_step : (match step { fresh with pending := [.gpSet 5, .gpClr 1] } with | .next t => decide (t.pending = [.gpClr 1] ∧ t.dev.rdN Reg.GP_OUT = 5) | .fault _ => false | .refused _ => false) = true := by decide +kernel
theorem witness_StepKeepsMemoriesCanonical : fresh.MemInv ∧ ∃ t, step { fresh with pending := [.loaderWrite 0 4 [1, 0, 2]] } = .next t ∧ t.mem.loc.length = 2 := by
  refine ⟨by show fresh.mem.wf; decide +kernel, _, rfl, by decide +kernel⟩
theorem witness_DeviceTimeNeverRunsBack : ∃ t, exec (.fireDurationLimit 0 0) fresh = .next t := ⟨_, rfl⟩
/-- A device in a warm reset. -/
theorem witness_NothingActsDuringReset : (on (fun d => { d with pw := { d.pw with phase := .warm 9 } })).running = false ∧ actsInReset (.gpSet 5) = false ∧
    ∃ t, exec (.gpSet 5) (on (fun d => { d with pw := { d.pw with phase := .warm 9 } })) = .next t ∧ t.dev.rdN Reg.GP_OUT = 0 := by
  refine ⟨by decide +kernel, by decide +kernel, _, rfl, by decide +kernel⟩

/-! ## Reset, keys, watchdog, pins, boot (R426 to R444) -/

theorem witness_ColdCausesClearTheDevice :
    (∃ s : State, s.dev.pw.phase = .off) ∧ (∃ s : State, s.dev.pw.phase ≠ .off ∧ s.dev.pw.phase ≠ .cold ∧ s.dev.pw.drive = false) ∧
      (∃ s : State, s.dev.pw.phase = .cold ∧ s.clock.drive = true ∧ s.dev.pw.drive = false) ∧
      crc8 (leBytes 8 (0 : Dword).toNat) = (33 : Byte).toNat :=
  ⟨⟨on (fun d => d.updPw (fun p => { p with phase := .off })), by decide +kernel⟩,
    ⟨on (fun d => d.updPw (fun p => { p with drive := false })), by decide +kernel⟩,
    ⟨on (fun d => d.updPw (fun p => { p with phase := .cold, drive := false })), by decide +kernel⟩, by decide +kernel⟩
/-- R427: RST_N counts from 1 µs. -/
theorem test_rst_n_boundary : checks [
    meets fresh [] (.rstNAssert 1000) (fun t => decide (t.dev.pw.phase = .cold ∧ t.dev.pw.cause = 2)),
    stays fresh [] (.rstNAssert 999)] := by decide +kernel
/-- R428: two keys of one writer within 400,000 ticks, an FLR with flr_reset, a PLL that stays out, and the end of a warm reset. -/
theorem witness_WarmResetKeepsAndEnds : checks [
    (let s := at_ 400010 (on (fun d => d.updPw (fun p => { p with firstKey := some (.core 2, 10) })));
     meets s [decide (s.clock.dtime ≤ 10 + 400000)] (.glRstWrite (.core 2) 0x5AA5) (fun t => decide (t.dev.pw.phase = .warm 4))),
    (let s := withRegs [(Reg.GL_CFG, 1)];
     meets s [s.dev.bit Reg.GL_CFG 0] (.functionLevelReset 1) (fun t => decide (t.dev.pw.phase = .warm 7))),
    (let s := on (fun d => d.updPw (fun p => { p with core := false }));
     meets s [!s.dev.pw.locked 0] (.corePeriPllLockLoss false) (fun t => decide (t.dev.pw.phase = .warm 8))),
    (let s := on (fun d => d.updPw (fun p => { p with phase := .warm 5 }));
     match exec .warmReset s with
     | .next t => decide (s.dev.pw.core = true ∧ s.dev.pw.peri = true ∧ s.dev.pw.strap = false ∧ s.dev.hx.waiting = [] ∧ t.running = true ∧ t.dev.pw.cause = 5) && logs t (uid 0 3 0) 1 5
     | _ => false)] := by decide +kernel
/-- R428: beyond the 400,000 ticks the second key does nothing. -/
theorem test_second_key_late : checks [
    meets (at_ 400011 (on (fun d => d.updPw (fun p => { p with firstKey := some (.core 2, 10) })))) [] (.glRstWrite (.core 2) 0x5AA5) (fun t => t.running)] := by decide +kernel
theorem witness_ResetKeysAndWatchdog : checks [
    meets fresh [] (.glRstWrite (.core 0) 0xA55A) (fun t => decide (t.dev.pw.firstKey = some (.core 0, 0))),
    (let s := on (fun d => d.updPw (fun p => { p with firstKey := some (.core 0, 7) }));
     meets s [] .glRstPairExpire (fun t => decide (t.clock.dtime = 400007 ∧ t.dev.pw.firstKey = none)) &&
     meets s [] (.glRstWrite (.link 1) 3) (fun t => decide (t.dev.pw.firstKey = none))),
    meets fresh [] (.watchdogWrite 0xFF000002) (fun t => decide (t.dev.rd Reg.GL_WDOG = 0x80000002)),
    meets (at_ 9 fresh) [] (.watchdogKick 0x1C0DE) (fun t => decide (t.dev.pw.wdogFrom = 9)),
    stays (at_ 9 fresh) [] (.watchdogKick 0xC0DF),
    (let s := withRegs [(Reg.GL_WDOG, 2 ^ 31 + 2)];
     meets s [s.dev.bit Reg.GL_WDOG 31, decide (s.dev.fld Reg.GL_WDOG 23 0 = 2)] .watchdogExpiry
       (fun t => decide (t.clock.dtime = 131072 ∧ t.dev.pw.phase = .warm 5) && logs t (uid 0 3 0) 7 131072))] := by decide +kernel
theorem witness_PinsUnitResetsAndPlls : checks [
    meets fresh [] (.pinRelease false 0xFFFFFFFF) (fun t => decide (t.dev.pw.rel0 = 0xFFFFF)),
    meets fresh [] (.pinRelease true 0xFFFFFFFF) (fun t => decide (t.dev.pw.rel1 = 0xFFFFFFF)),
    meets (on (fun d => d.updPw (fun p => { p with rel0 := 7 }))) [] (.pinHold false 2) (fun t => decide (t.dev.pw.rel0 = 5)),
    meets (on (fun d => d.updPw (fun p => { p with holdAt := 0, hold0 := 1 }))) [] (.pinRelease false 3) (fun t => decide (t.dev.pw.rel0 = 2)),
    meets fresh [decide (fresh.dev.pw.urst = none)] (.unitResetRequest (BitVec.ofNat 32 (uid 12 4 0)))
      (fun t => decide (t.dev.pw.urstStat = 1 ∧ t.dev.pw.urst = some ⟨uid 12 4 0⟩)),
    (let s := on (fun d => d.updPw (fun p => { p with urst := some ⟨uid 12 7 0⟩, urstStat := 1 }));
     stays s [] (.unitResetRequest 5) && meets s [] .unitResetDone (fun t => decide (t.dev.pw.urst = none ∧ t.dev.pw.urstStat = 0))),
    (let s := withRegs [(Reg.GL_CFG, 0)];
     meets s [!s.dev.bit Reg.GL_CFG 0, !(s.dev.link 1).active] (.functionLevelReset 1) (fun t => t.running)),
    (let s := on (fun d => d.updPw (fun p => { p with drive := false }));
     meets s [!s.dev.pw.locked 2] (.pllLock 2) (fun t => t.dev.pw.locked 2 && t.clock.drive) &&
     meets s [] (.pllLockRetry 2) (fun t => decide (t.dev.pw.attempts = [1, 1, 2]))),
    meets fresh [] (.pllLockLost 1) (fun t => !t.dev.pw.locked 1 && t.dev.bit Reg.GL_FAULT 4 && logs t (uid 0 0 2) 5 1)] := by decide +kernel
/-- A valid header of an image that is entered 256 bytes after its start; its CRC is worked out here from the polynomial of R117. -/
def bootHeader : List Byte :=
  let body := leBytes 4 0x54425A4D ++ leBytes 4 256 ++ List.replicate 20 0
  body ++ leBytes 4 (crc32 body)
/-- R117: the check value of this CRC over the digits 1 to 9. -/
theorem test_crc32 : crc32 ((List.range 9).map (fun i => BitVec.ofNat 8 (49 + i))) = 0xCBF43926 := by decide +kernel
/-- R440, R441: a header of zeros has no magic number and falls back; a valid one starts context 0 on T0; host boot reads none. -/
theorem witness_BootHeaderStartsOrFallsBack : checks [
    stays fresh [!fresh.dev.pw.strap] (.bootHeaderRead (List.replicate 32 0)),
    (let s := on (fun d => d.updPw (fun p => { p with strap := true }));
     meets s [decide (headerErrors (List.replicate 32 0) ≠ 0)] (.bootHeaderRead (List.replicate 32 0)) (fun t => t.dev.pw.bootFallback) &&
     meets s [decide (headerErrors bootHeader = 0 ∧ (s.dev.core 0).ctx = none), (s.dev.core 0).service, decide (s.dev.tk.cores = [] ∧ s.dev.tk.ctxs = [])]
       (.bootHeaderRead bootHeader) (fun t => t.dev.pw.bootValid && decide ((t.dev.tctx 0).state = .running ∧ (t.dev.tctx 0).pc = 0x40000100 ∧
         (t.dev.core 0).ctx = some 0)))] := by decide +kernel

/-! ## Web position, rows, gap, timers (R31 to R53) -/

/-- ENC0 of the example line: quadrature, scale 0x0005_0000 (R34). -/
def encoder : State := withRegs [(Reg.WP_ENCn_CFG 0, 2 + 256), (Reg.WP_ENCn_SCALE 0, 327680), (Reg.WP_CFG, 64)]

/-- R33, R34: A rises with B low, and one count of scale 327,680 moves WPOS by 80 units. -/
theorem witness_EncoderCountMovesWebPosition : checks [
    meets encoder [!encoder.dev.takeEn, decide (encoder.dev.fld (Reg.WP_ENCn_CFG 0) 1 0 = 2), decide (encoder.dev.source = 0), encoder.dev.wposEn]
      (.encEdge 5 0 true false 1) (fun t => decide ((t.clock.wpos = 80 ∨ t.clock.wpos = -80) ∧ t.clock.frac = 0 ∧ t.clock.dtime = 5) && t.dev.encPins 0 == ⟨true, false⟩),
    meets encoder [] (.encEdge 5 0 true false 0) (fun t => decide (t.dev = encoder.dev ∧ t.clock.dtime = 5)),
    meets encoder [] (.encEdge 0 0 true true 1) (fun t => decide (t.dev.rdN (Reg.WP_ENCn_ILLEGAL 0) = 1 ∧ t.clock.wpos = 0))] := by decide +kernel
theorem witness_SpeedStopsPulsesEndRowsAreEmitted : checks [
    (let s := on (fun d => { d with web := { d.web with slip := { d.web.slip with stopped := false, lastCount := 3 } } }) (withRegs [(Reg.WP_SPEED, 9)]);
     meets s [!s.dev.web.slip.stopped] .speedStopTimeout (fun t => decide (t.dev.rd Reg.WP_SPEED = 0 ∧ t.clock.dtime = 4194307))),
    stays fresh [fresh.dev.web.slip.stopped] .speedStopTimeout,
    (let s := on (fun d => (d.setEvt 3 ⟨true, some 50⟩).setHsy 7 ⟨true, some 60⟩);
     meets s [] (.evtPulseEnd 3) (fun t => decide (t.dev.evtPin 3 = ⟨false, none⟩ ∧ t.clock.dtime = 50 ∧ t.dev.hsyPin 7 = ⟨true, some 60⟩)) &&
     meets s [] (.hsyPulseEnd 7) (fun t => decide (t.dev.hsyPin 7 = ⟨false, none⟩ ∧ t.clock.dtime = 60 ∧ t.dev.evtPin 3 = ⟨true, some 50⟩))),
    (let s := on (fun d => { d with web := { d.web with rg := [(7, { RowGen.reset with next := some 0, rows := 4 })] } })
       (withRegs [(Reg.WP_RGn_PITCH 7, 1600)]);
     meets s [decide (s.dev.regs.swaps = []), (List.range 8).all (fun b => !s.dev.vbOn b), (List.range 4).all (fun l => !(s.dev.layer l).on),
         !s.dev.rgTime 7, decide (0 ≤ s.clock.wpos)] (.rowEmit 7)
       (fun t => decide ((t.dev.rowGen 7).next = some 1600 ∧ (t.dev.rowGen 7).rows = 5 ∧ events t = [(23, 4)])))] := by decide +kernel
/-- R44 to R46, R52. -/
theorem witness_GapWindowOpensAndCloses : checks [
    meets fresh [] (.gapPlanLoWrite 7) (fun t => t.dev.web.planArmed.isNone && t.dev.rd Reg.WP_GAP_PLAN_LO == 7),
    meets (at_ 30 fresh) [] (.gapPlanHiWrite 1) (fun t => t.dev.web.planArmed == some 30),
    meets (on (fun d => { d with web := { d.web with planArmed := some 0 } })) [] .gapPlanDisarm (fun t => t.dev.web.planArmed.isNone),
    meets fresh [decide (fresh.dev.regs.swaps = [] ∧ fresh.dev.slots = []), (List.range 8).all (fun h => !fresh.dev.shutOn h || !(fresh.dev.lth h).due), !fresh.dev.web.gapOpen] (.gapSoftwareOpen 1)
      (fun t => t.dev.web.gapOpen && decide (events t = [(28, 0)] ∧ t.dev.rd64 Reg.WP_GAP_T0_LO = 1)),
    (let s := on (fun d => { d with web := { d.web with planArmed := some 30 } });
     meets s [decide (s.dev.web.gapLast = none), s.clock.drive] .gapPlanDue (fun t => t.dev.web.gapOpen && t.dev.web.planArmed.isNone && t.clock.dtime == 31)),
    (let s := withRegs [(Reg.WP_GAP_CFG, 4), (Reg.WP_TRGn_CFG 3, 2 * 256)];
     meets s [decide (s.dev.fld Reg.WP_GAP_CFG 2 0 = 4), !s.dev.bit Reg.WP_GAP_CFG 3, decide (s.dev.fld Reg.WP_GAP_CFG 6 4 ≠ 4)]
       (.trgEdge 1 3 true 2) (fun t => t.dev.web.gapOpen && t.dev.trgLevel 3) &&
     meets s [] (.trgEdge 1 3 true 1) (fun t => !t.dev.web.gapOpen && decide (t.dev.rdN (Reg.WP_TRGn_GLITCH 3) = 1))),
    (let s := on (fun d => { d with web := { d.web with gapOpen := true, gapLast := some (0, true) } })
       (withRegs [(Reg.WP_GAP_CFG, 0x300), (Reg.WP_GAP_LEN, 40), (Reg.WP_GAP_MAX, 0)]);
     meets s [s.dev.bit Reg.WP_GAP_CFG 8, s.dev.bit Reg.WP_GAP_CFG 9] .gapLengthReached
       (fun t => !t.dev.web.gapOpen && decide (t.clock.dtime = 40 ∧ events t = [(29, 0)])) &&
     meets s [] (.gapSoftwareClose 6) (fun t => !t.dev.web.gapOpen && decide (t.dev.rd64 Reg.WP_GAP_T1_LO = 6)) &&
     meets s [] (.gapSoftwareOpen 6) (fun t => t.dev.web.gapOpen && decide (t.dev.rdN Reg.WP_GAP_REJECT = 1))),
    (let s := on (fun d => { d with web := { d.web with gapOpen := true, gapLast := some (0, true) } })
       (withRegs [(Reg.WP_GAP_CFG, 0x200), (Reg.WP_GAP_MAX, 77)]);
     meets s [!s.dev.bit Reg.WP_GAP_CFG 8, s.dev.bit Reg.WP_GAP_CFG 9] .gapForcedClose
       (fun t => !t.dev.web.gapOpen && decide (t.clock.dtime = 77) && logs t (uid 11 0 0) 5 77))] := by decide +kernel
/-- R49, R50: a period of 4 is the smallest a repeating timer takes. -/
theorem witness_TimersArmFireAndDisarm : checks [
    (let s := withRegs [(Reg.WP_TMn_PERIOD 127, 4), (Reg.WP_TMn_TGT_LO 127, 90)];
     meets s [] (.timerArm 127 3) (fun t => t.dev.tmArmed 127 && !(t.dev.timer 127).late && t.dev.bit (Reg.WP_TMn_CTL 127) 1)),
    (let s := withRegs [(Reg.WP_TMn_PERIOD 127, 3)];
     meets s [] (.timerArm 127 3) (fun t => !t.dev.tmArmed 127 && t.dev.bit (Reg.WP_TMn_CTL 127) 4)),
    meets fresh [] (.timerTargetWrite 0 true 5) (fun t => decide (t.dev.rd (Reg.WP_TMn_TGT_HI 0) = 5)),
    (let s := withRegs [(Reg.WP_TMn_PERIOD 127, 4), (Reg.WP_TMn_TGT_LO 127, 90), (Reg.WP_TMn_CTL 127, 3)];
     meets s [s.dev.tmArmed 127, !(s.dev.timer 127).late, !s.dev.bit (Reg.WP_TMn_CTL 127) 2] (.timerMatch 127)
       (fun t => decide (t.clock.dtime = 90 ∧ t.dev.rd64 (Reg.WP_TMn_TGT_LO 127) = 94 ∧ events t = [(255, 0)]) && t.dev.tmArmed 127))] := by decide +kernel

/-! ## Head ports (R54 to R77) -/

/-- A frame of 4 columns and 2 rows, with these lines. -/
def frame (lines : List HLine) : HFrame := ⟨7, 11, 0, 0, 0, 4, 0, 2, false, 0, 0, false, none, 0, false, lines, 0, 0, 0, false, []⟩
/-- Head port 2 present, with these frames. -/
def port (frames : List HFrame) : State :=
  withRegs [(Reg.HP_CFG 2, 1), (Reg.HP_GEOM 2, 4 + 2 * 65536)] (on (fun d => d.setHp 2 { HeadPort.reset with state := .present, frames := frames, seq := 6 }))

theorem witness_FrameStartOpensAFrame : checks [
    meets (port []) [decide ((port []).dev.regs.swaps = []), decide (((port []).dev.hpOf 2).openFrame = none)] (.hpFrameStart 9 2 .fixed)
      (fun t => decide (((t.dev.hpOf 2).openFrame.map (fun f => (f.seq, f.dtime, f.cols, f.rows))) = some (7, 9, 4, 2) ∧ events t = [(2, 7)])),
    (let s := on (fun d => d.updHp 2 (fun h => { h with state := .absent })) (port []);
     meets s [] (.hpFrameStart 0 2 .ok) (fun t => decide ((t.dev.hpOf 2).state = .ident ∧ (t.dev.hpOf 2).ctl.map CtlTrans.serial = [true])))] := by decide +kernel
/-- R68: a short line is padded with the fill value, one of full length is not. -/
theorem witness_ImageLineJoinsTheFrame : checks [
    (let s := withRegs [(Reg.HP_FILL 2, 99)] (port [frame []]);
     meets s [s.dev.receiving 2 0, decide ((s.dev.hpOf 2).openFrame = some (frame []) ∧ (frame []).total = 2)] (.hpImageLine 2 .ok false true [1, 2, 3])
       (fun t => decide (((t.dev.hpOf 2).openFrame.map (fun f => f.lines.map HLine.px)) = some [[1, 2, 3, 99]] ∧ t.dev.rdN (Reg.HP_CNT_PAD 2) = 1)) &&
     meets s [] (.hpImageLine 2 .ok false true [1, 2, 3, 16383])
       (fun t => decide (((t.dev.hpOf 2).openFrame.map (fun f => f.lines.map HLine.px)) = some [[1, 2, 3, 16383]] ∧ t.dev.rdN (Reg.HP_CNT_PAD 2) = 0)))] := by
  decide +kernel
theorem witness_ImageLineJoinsTheFrame_quiet : quietMemory (port [frame []]).dev := quiet_of _ (by decide +kernel) (by decide +kernel)
/-- R68: a line of a frame with slot 1 stands in frame memory, two bytes a column. -/
theorem witness_ImageLineJoinsTheFrame_slot : checks [
    (let s := port [{ frame [] with slot := some 1, slotAt := 4160 }];
     meets s [s.dev.receiving 2 0] (.hpImageLine 2 .ok false true [1, 2, 3, 0x1234])
       (fun t => decide (t.mem.frameNat 4166 2 = 0x1234 ∧ t.mem.frameNat 4160 2 = 1 ∧ t.mem.frameByte 4159 = 0 ∧ t.mem.frameByte 4168 = 0))),
    (let s := on (fun d => d.setCtx 0 0 { Ctx.reset with active := true })
       (withRegs [(Reg.PL_CFG 0, 1), (Reg.PL_Sx_CFG 0 0, 1 + 2 * 2), (Reg.PL_Sx_SLOT 0 0, 4096)] (port [{ frame [] with slot := some 0, closed := true }]));
     meets s [decide (s.dev.carrier 2 = some (0, 0) ∧ (s.dev.hpOf 2).openFrame = none)] (.hpFrameStart 1 2 .ok)
       (fun t => decide (((t.dev.hpOf 2).openFrame.map (fun f => (f.slot, f.slotAt))) = some (some 1, 4160))))] := by
  decide +kernel
theorem witness_FramesEndAndPortsGoAbsent : checks [
    (let s := port [frame [⟨[1, 2, 3, 4], 4⟩, ⟨[5, 6, 7, 8], 4⟩]];
     meets s [decide (s.dev.slots = []), s.dev.receiving 2 0] (.hpFrameEnd 3 2 .ok)
       (fun t => decide ((t.dev.hpOf 2).openFrame = none ∧ events t = [(10, 7)] ∧ t.dev.rdN (Reg.HP_TAGw 2 0) = 7 ∧ t.dev.rdN (Reg.HP_TAGw 2 2) = 11))),
    (let s := withRegs [(Reg.HP_FRAME_TO 2, 3)] (port [frame [⟨[1, 2, 3, 4], 4⟩]]);
     meets s [!s.dev.hpStrict 2] (.hpFrameTimeout 2)
       (fun t => decide ((t.dev.hpOf 2).openFrame = none ∧ t.clock.dtime = 11 + 3072 ∧ t.dev.rdN (Reg.HP_CNT_PAD 2) = 1) && t.dev.bit (Reg.HP_FAULT 2) 2)),
    (let s := withRegs [(Reg.HP_FRAME_TO 2, 65536)] (port []);
     meets s [] (.hpAbsentTimeout 2) (fun t => decide ((t.dev.hpOf 2).state = .absent ∧ t.clock.dtime = 65536) && logs t (uid 4 2 0) 4 6) &&
     meets s [s.dev.receiving 2 1] (.hpTelemetryPacket 2 .ok true [1, 2]) (fun t => decide ((t.dev.hpOf 2).telem = [1, 2])) &&
     meets s [s.dev.receiving 2 2] (.hpPacketDiscard 2 .ok 2 ⟨0x2E, true⟩) (fun t => decide (t.dev.rdN (Reg.HP_CNT_DT 2) = 1)) &&
     meets s [] (.hpPacketDiscard 2 .ok 2 ⟨0x2E, false⟩) (fun t => decide (t.dev.rdN (Reg.HP_CNT_CRC 2) = 1)) &&
     stays s [s.dev.receiving 2 0] (.hpPacketDiscard 2 .ok 0 ⟨2, true⟩) &&
     meets s [] (.hpLaneSotError 2 ⟨3, false⟩) (fun t => decide (t.dev.rdN (Reg.HP_CNT_LANE 2) = 0x01000000)))] := by decide +kernel
theorem witness_HeadControlPath : checks [
    (let s := on (fun d => d.updHp 2 (fun h => { h with staged := [1, 2, 3, 4], reply := [9, 8, 7, 6, 5] })) (port []);
     meets s [] (.hpCtlDataWrite 2 0x08070605) (fun t => decide ((t.dev.hpOf 2).staged = [1, 2, 3, 4, 5, 6, 7, 8])) &&
     meets s [] (.hpCtlSubmit 2 (BitVec.ofNat 32 (3 + 5 * 512 + 2 ^ 18 + 0xAB * 2 ^ 24)))
       (fun t => decide ((t.dev.hpOf 2).ctl = [⟨[1, 2, 3], 5, true, 0xAB, false, s.dev.ctlNext 2⟩] ∧ (t.dev.hpOf 2).staged = [])) &&
     meets s [] (.hpCtlRxRead 2) (fun t => decide ((t.dev.hpOf 2).reply = [5]))),
    (let c : CtlTrans := ⟨[], 2, true, 3, false, 0⟩;
     let s := withRegs [(Reg.HP_CTRL_CFG 2, 3)] (on (fun d => d.updHp 2 (fun h => { h with ctl := [c, c, c, c] })) (port []));
     meets s [] (.hpCtlSubmit 2 1) (fun t => t.dev.bit (Reg.HP_FAULT 2) 11 && decide ((t.dev.hpOf 2).ctl.length = 4)) &&
     meets s [s.dev.ctlTurn 2] (.hpCtlComplete 1 2 true [7, 7, 7]) (fun t => decide ((t.dev.hpOf 2).ctl.length = 3 ∧ (t.dev.hpOf 2).reply = [7, 7] ∧
       (t.dev.hpOf 2).settingsGen = 1 ∧ events t = [(59, 0)]))),
    (let s := withRegs [(Reg.HP_CTRL_CFG 2, 3), (Reg.HP_SERIAL_LO 2, 5), (Reg.HP_SERIAL_HI 2, 1)]
       (on (fun d => d.updHp 2 (fun h => { h with state := .ident, ctl := [⟨[], 8, false, 0, true, 0⟩], retries := 2 })) (port []));
     meets s [s.dev.ctlTurn 2] (.hpSerialReadDone 2 true 0x100000005) (fun t => (t.dev.hpOf 2).matched && decide ((t.dev.hpOf 2).ctl = [] ∧ events t = [(59, 0)])) &&
     meets s [] (.hpSerialReadDone 2 false 0) (fun t => decide ((t.dev.hpOf 2).retries = 3))),
    meets (on (fun d => d.updHp 2 (fun h => { h with state := .provisional })) (port [])) [] (.hpWorkingSetReport 2) (fun t => (t.dev.hpOf 2).reported)] := by
  decide +kernel

/-! ## Pixel pipelines (R78 to R114) -/

/-- Context 1 of PL-A carries head 2. -/
def stream (s : State) : State :=
  on (fun d => d.setCtx 0 1 { Ctx.reset with active := true }) (withRegs [(Reg.PL_CFG 0, 1), (Reg.PL_Sx_CFG 0 1, 1 + 2 * 2)] s)
/-- A frame in progress of 4 columns and 2 rows, output single, whose next line to leave is `out`. -/
def work (out : Nat) : Work :=
  ⟨⟨7, 0, 0, 11, 0, 0, 0, 0, false⟩, .single, none, 4, 0, 2, false, 0, 0, 5 :: List.replicate 14 0, 0, 0, none, true, 0, none, [], [], [0, 0, 0, 0], 0, 16384, 0,
    List.replicate 4 (65535, 0), false, false, out, out, [], [], (0, 0), false, false, false, false, [], none, [], [], [], none⟩
/-- The two lines of its frame. -/
def twoLines : List HLine := [⟨[1, 2, 3, 4], 4⟩, ⟨[5, 6, 7, 8], 4⟩]
/-- PL-A works at context 1, whose frame is closed. -/
def working (w : Option Work) : State :=
  on (fun d => (d.updCtx 0 1 (fun c => { c with work := w })).updPipe 0 (fun p => { p with cur := some 1 })) (stream (port [{ frame twoLines with closed := true, tag := [7, 0, 11, 0, 0, 0, 0, 0] }]))

theorem witness_PipelineChoosesItsWork : checks [
    (let s := stream (port [{ frame twoLines with closed := true, tag := [7, 0, 11, 0, 0, 0, 0, 0] }]);
     meets s [!(s.dev.pipe 0).faulted, decide (s.dev.candidates 0 true = []), decide (s.dev.candidates 0 false = [1])] (.plLineBoundary 0)
       (fun t => decide ((t.dev.pipe 0).cur = some 1 ∧ (t.dev.pipe 0).stripe = some (1, 64)))),
    (let s := stream (port []);
     meets s [decide (s.dev.candidates 0 false = [])] (.plLineBoundary 0) (fun t => decide ((t.dev.pipe 0).cur = none))),
    (let s := on (fun d => d.updPipe 0 (fun p => { p with stripe := some (1, 5) })) (working (some (work 0)));
     meets s [(s.dev.ctx 0 1).busy] (.plLineBoundary 0) (fun t => decide ((t.dev.pipe 0).stripe = some (1, 5)))),
    (let s := withRegs [(Reg.PL_Sx_CFG 0 1, 1 + 2 * 2 + 16)] (working none);
     meets s [decide (s.dev.candidates 0 true = [1])] (.plLineBoundary 0) (fun t => decide ((t.dev.pipe 0).cur = some 1)))] := by decide +kernel
theorem witness_FramesLatchAdvanceAndComplete : checks [
    (let s := working none;
     meets s [s.dev.ctxOn 0 1, !s.dev.isReplay 0 1, !s.dev.taken 2, !(s.dev.ctx 0 1).arm, decide (s.dev.ctxHead 0 1 = 2), decide ((s.dev.lth 2).shut = none ∧ (s.dev.lth 2).ready = none)]
       (.plFrameLatch 0) (fun t => decide (((t.dev.ctx 0 1).work.map (fun w => (w.id.seq, w.total, w.nextOut))) = some (7, 2, 0)))),
    (let s := working (some (work 0));
     meets s [s.dev.lineCredit 0 (work 0), decide ((work 0).total = 2)] (.plLineProcess 0)
       (fun t => decide (((t.dev.ctx 0 1).work.map (fun w => w.nextOut)) = some 1 ∧ ((t.dev.nextFrame 2).map (fun f => f.freed)) = some 1))),
    (let s := working (some (work 2));
     meets s [] (.plFrameComplete 0)
       (fun t => decide ((t.dev.ctx 0 1).work = none ∧ t.dev.rdN (Reg.PL_Sx_SEQ 0 1) = 7 ∧ t.dev.rdN (Reg.PL_CNT_FRAMES 0) = 1 ∧ (t.dev.hpOf 2).frames = [])))] := by
  decide +kernel
theorem witness_PipelineFaultsStopThePipeline : checks [
    meets (working none) [] (.plFault 0 1 3 4) (fun t => (t.dev.pipe 0).faulted && t.dev.bit (Reg.PL_FAULT 0) 0),
    meets (working none) [] (.plFault 1 6 9 31) (fun t => (t.dev.pipe 1).faulted && t.dev.bit (Reg.PL_FAULT 1) 5),
    (let s := on (fun d => d.updPipe 0 (fun p => { p with faulted := true }));
     stays s [decide (s.dev.fab.held = [])] (.plFault 0 2 0 0)),
    (let s := on (fun d => d.updPipe 0 (fun p => { p with loading := [1, 4] })) (working none);
     meets s [] (.plTableLoadDone 0 false) (fun t => (t.dev.pipe 0).faulted && t.dev.bit (Reg.PL_FAULT 0) 5) &&
     meets s [] (.plTableLoadDone 0 true) (fun t => !(t.dev.pipe 0).faulted && decide ((t.dev.pipe 0).loading = [4]))),
    meets (working (some (work 0))) [(working (some (work 0))).dev.lineArrived 0 1 (work 0), (working (some (work 0))).dev.lineCredit 0 (work 0)] (.plNoProgress 0) (fun t => (t.dev.pipe 0).faulted && t.dev.bit (Reg.PL_FAULT 0) 2 && decide (t.clock.dtime = 279621))] := by
  decide +kernel
theorem witness_StandbyHandoverAndReplay : checks [
    (let s := on (fun d => d.updCtx 0 1 (fun c => { c with arm := true })) (working none);
     meets s [(s.dev.nextFrame 2).isSome] (.plStandbyTakeover 0) (fun t => !(t.dev.ctx 0 1).arm && t.dev.bit (Reg.PL_FAULT 0) 3 && logs t (uid 5 0 0) 4 2)),
    (let s := withRegs [(Reg.PL_CFG 1, 1), (Reg.PL_Sx_CFG 1 3, 1 + 2 * 2)] (working none);
     meets s [decide (s.dev.standbyOf 0 1 = some 3)] (.plHandover 0 0x101) (fun t => (t.dev.ctx 0 1).handover) &&
     meets s [] (.plHandover 0 0x102) (fun t => t.dev.bit (Reg.PL_FAULT 0) 8 && !(t.dev.ctx 0 2).handover) &&
     meets (on (fun d => d.updCtx 0 1 (fun c => { c with handover := true })) s) [] (.plHandoverDone 0)
       (fun t => !(t.dev.ctx 0 1).active && (t.dev.ctx 1 3).active && (t.dev.ctx 1 3).takeover && logs t (uid 5 0 0) 8 2)),
    (let s := withRegs [(Reg.PL_Sx_CFG 0 4, 1 + 64), (Reg.PL_REPLAY_ADDR 0, 0x8000)] (working none);
     meets s [s.dev.isReplay 0 4] (.plReplaySubmit 0 4) (fun t => decide ((t.dev.pipe 0).replays = [(4, 0x8000)])) &&
     meets s [] (.plReplaySubmit 0 5) (fun t => decide ((t.dev.pipe 0).replays = []) && t.dev.bit (Reg.PL_FAULT 0) 8))] := by decide +kernel

/-! ## Last store (R115 to R150) -/

/-- Head 3's calibration is on; its frames have 4 columns and 2 rows. -/
def head3 (l : List (Nat × Nat)) : State :=
  withRegs ([(Reg.LT_CFG, 1), (Reg.LT_HDh_CFG 3, 1), (Reg.HP_GEOM 3, 4 + 2 * 65536), (Reg.HP_TAGw 3 6, 19200)] ++ l)
/-- A region of one granule for it. -/
def region (kind : BuildKind) : Region := ⟨kind, 4, 0, 2, [5], 0, 0, 0, 9, 9, 0, true, none, 0⟩
/-- Its build runs. -/
def building (kind : BuildKind) : State := on (fun d => d.updLt (fun l => { l with cur := some (⟨3, kind, 0, 0⟩, region kind) })) (head3 [])

theorem witness_BuildsAreQueuedStartedAndDone_queue : checks [
    meets (head3 []) [(head3 []).dev.ltOn 3] (.ltFullBuildCmd 3) (fun t => decide (t.dev.lt.queue = [⟨3, .full, 19200, 0⟩])),
    stays (head3 []) [!(head3 []).dev.ltOn 4] (.ltFullBuildCmd 4),
    (let s := on (fun d => d.setHp 3 { HeadPort.reset with state := .ident }) (head3 [(Reg.HP_SERIAL_LO 3, 77), (Reg.LT_DIR_BAD 0, 5)]);
     meets s [s.dev.wantsSet 3, decide (s.dev.dirOf s.mem 77 = [])] .ltRescanCmd
       (fun t => t.dev.lt.queue.any (fun b => decide (b.head = 3 ∧ b.kind = .provisional)) && !t.dev.dirBad 0 && logs t (uid 6 0 0) 1 77 && decide (events t = [(66, 3)]))),
    (let s := on (fun d => d.updLt (fun l => { l with queue := [⟨3, .provisional, 0, 0⟩] })) (head3 []);
     meets s [s.dev.poolRule] .ltBuildStart
       (fun t => decide (t.dev.lt.queue = [] ∧ t.dev.lt.cur.map (fun c => (c.2.kind, c.2.cols, c.2.rows, c.2.granules.length)) = some (.provisional, 4, 2, 1)))),
    (let s := on (fun d => (d.updLt (fun l => { l with queue := [⟨3, .provisional, 0, 0⟩, ⟨4, .full, 0, 0⟩] })).updLth 3 (fun x => { x with old := [region .full] })) (head3 []);
     meets s [] .ltBuildStart (fun t => decide (t.dev.lt.queue = s.dev.lt.queue ∧ t.dev.lt.cur = none))),
    (let s := on (fun d => d.updLt (fun l => { l with queue := [⟨4, .full, 0, 0⟩] })) (head3 []);
     meets s [] .ltBuildStart (fun t => decide (t.dev.lt.queue = [] ∧ t.dev.lt.cur = none))),
    (let s := on (fun d => (List.range 16).foldl (fun (d : Dev) b => d.wrN (Reg.FB_LSb_STATUS b) 0) d) (head3 []);
     meets s [!s.dev.poolRule] .ltBuildStart (fun t => t.dev.bit Reg.LT_FAULT 3 && logs t (uid 6 0 0) 4 0))] := by decide +kernel
/-- R123, R125: a PROVISIONAL build writes unity records; R118: a set that cannot be read marks its directory entry. -/
theorem witness_BuildsAreQueuedStartedAndDone_done : checks [
    (let s := building .provisional;
     meets s [decide (s.dev.fab.held = []), decide ((region .provisional).count = 8), (List.range 8).all (fun k => decide ((region .provisional).place k = 20480 + k))]
       (.ltBuildDone []) (fun t => decide (t.dev.lt.cur = none ∧ (t.dev.lth 3).ready = some (region .provisional) ∧ t.mem.lastRec 20487 = Rec.unity.toBits ∧
         t.mem.lastRec 20488 = 0))),
    (let s := building .full;
     meets s [!s.dev.setGood s.mem [⟨9, none, none⟩] 9] (.ltBuildDone [⟨9, none, none⟩]) (fun t => t.dev.dirBad 9 && logs t (uid 6 0 0) 2 (9 + 256 * 3)))] := by decide +kernel
/-- R135, R137: a probe outlives max_age one tick after it; a head is due or overdue at its time. -/
theorem witness_ProbesShutterPlanningAndBalance_heads : checks [
    (let s := at_ 100 (on (fun d => d.setProbe 15 ⟨some 5, 100, 0, false, 131072⟩) (head3 [(Reg.LT_PRp_LIM 15, 2), (Reg.LT_HDh_PROBE 3, 15), (Reg.LT_PRp_VAL 15, 65536)]));
     meets s [decide (s.dev.probeUsers 15 = [3])] (.ltProbeExpire 15)
       (fun t => decide (t.clock.dtime = 100 + 131072 + 1) && (t.dev.probe 15).reported && logs t (uid 6 2 4) 9 15)),
    (let s := head3 [(Reg.LT_HDh_CFG 3, 5), (Reg.LT_HDh_SHDUE 3, 2), (Reg.LT_HDh_SHMAX 3, 3)];
     meets s [s.dev.shutOn 3, !(s.dev.lth 3).due, !s.dev.houseMoved 0 3] (.ltShutterDue 3) (fun t => (t.dev.lth 3).due && decide (t.clock.dtime = 2 ^ 27)) &&
     meets s [!(s.dev.lth 3).overdue, !s.dev.bit Reg.LT_CFG 5] (.ltShutterOverdue 3)
       (fun t => (t.dev.lth 3).overdue && decide (t.clock.dtime = 3 * 2 ^ 26) && logs t (uid 6 1 4) 8 3) &&
     meets (withRegs [(Reg.LT_CFG, 33), (Reg.LT_HDh_CFG 3, 13)] s) [] (.ltShutterOverdue 3) (fun t => decide (3 ∈ t.dev.lt.forced.map Prod.fst)) &&
     meets s [] (.ltShutterGapCmd 3) (fun t => (t.dev.lth 3).due && decide (t.clock.dtime = 0)) && stays s [!s.dev.shutOn 2] (.ltShutterGapCmd 2) &&
     meets s [decide (s.dev.lt.forced = []), decide (s.dev.slots = [])] (.ltShutterForcedCmd 3)
       (fun t => decide (t.dev.tk.requests = [.ledger 31] ∧ (t.dev.slot 31).kind = 8 ∧ (t.dev.slot 31).target = uid 4 3 0)) &&
     meets (on (fun d => d.updLt (fun l => { l with forced := [(3, 50)] })) s) [] (.ltShutterRetry 3)
       (fun t => decide (t.clock.dtime = 50 ∧ t.dev.tk.requests = [.ledger 31])))] := by decide +kernel
/-- R145: welt 0 between H2 (the reference) and H3, 16 cells with a mean step of 3. -/
def balance : State :=
  on (fun d => d.updLt (fun l => { l with welts := [(0, ⟨16, 1600, 1648, 0, 0, 0⟩)], winRows := 8 }))
    (head3 [(Reg.LT_BAL_CFG, 1 + 2 * 2 + 256 + 8 * 65536), (Reg.LT_BAL_ORDER, 0xFFFFFF32), (Reg.LT_BAL_MAX, 100 + 65536 * 50), (Reg.LT_BAL_STEP, 2)])
theorem witness_ProbesShutterPlanningAndBalance_balance : checks [
    meets balance [decide (balance.dev.balOrder = [2, 3]), balance.dev.weltUsable 0, decide (balance.dev.fld Reg.LT_BAL_CFG 3 1 = 2)] .ltBalanceWindowEnd
      (fun t => decide ((t.dev.lth 3).corr = -2 ∧ (t.dev.lth 2).corr = 0 ∧ t.dev.lt.winNo = 1 ∧ t.dev.lt.welts = [] ∧ events t = [(68, 0)])),
    (let s := on (fun d => d.updLt (fun l => { l with winRows := 7 })) balance;
     meets s [] .ltBalanceWindowEnd (fun t => decide (t.dev = s.dev))),
    (let s := on (fun d => d.updLth 3 (fun x => { x with corr := 9, g := 5 })) (head3 []);
     meets s [] .ltBalanceResetCmd (fun t => decide ((t.dev.lth 3).corr = 0 ∧ (t.dev.lth 3).g = 16384 ∧ t.dev.rdN (Reg.LT_HDh_BALG 3) = 16384)))] := by decide +kernel

/-! ## Web map and bloom (R151 to R198) -/

/-- Head 1 maps into layer 2: span columns 0 to 3, sweet rows 0 to 7, rows of 16 units. -/
def mapped (q : List MapItem) : State :=
  on (fun d => ((d.updWm (fun w => { w with queues := [(0, q)] })).setMapHead 1
      { MapHead.reset with cfg := [1 + 2 * 2, 0x1000, 3 * 65536, 7 * 65536, 0, 0, 0, 0, 1, 1 + 4 * 65536, 0, 80], loaded := some 0x1000, table := List.replicate 2048 (some 160) }).setLayer 2
      { Layer.reset with on := true, kFirst := 0, pitch := 16 })
    (withRegs [(Reg.WM_CFG, 1), (Reg.WM_Ll_CFG 2, 1 + 4 * 65536), (Reg.WM_Ll_XPITCH 2, 80), (Reg.WM_Ll_OPEN 2, 64), (Reg.WM_Ll_FLUSH 2, 0)])
/-- A header of head 1: frame 9 of 2 lines, DTIME 4000, WPOS 320. -/
def header : List Nat := [9, 0, 0, 4000, 0, 320, 0, 0, 0, 0, 0, 2]

theorem witness_MapAndBloomTakeTheirInputs_map : checks [
    stays (mapped []) [!(mapped []).dev.geomPending 1] (.wmGeometryLoadDone 1 true),
    (let s := on (fun d => d.setMapHead 1 { d.mapHead 1 with loaded := none }) (mapped []);
     meets s [s.dev.geomPending 1] (.wmGeometryLoadDone 1 true) (fun t => decide ((t.dev.mapHead 1).table[2047]? = some (some 0)) && !t.dev.geomPending 1) &&
     meets s [] (.wmGeometryLoadDone 1 false) (fun t => decide ((t.dev.mapHead 1).table[2047]? = some none) && logs t (uid 7 0 0) 3 36)),
    (let s := on (fun d => d.setMapHead 1 { d.mapHead 1 with prev := some (2000, 0) }) (mapped [.header 1 header]);
     meets s [decide (s.dev.regs.swaps = [])] (.wmFrameFirstLine 0)
       (fun t => decide ((t.dev.mapHead 1).v = 320 * 65536 / 2000 ∧ (t.dev.mapHead 1).seq = 9 ∧ (t.dev.mapHead 1).prev = some (4000, 320) ∧ t.dev.rdN (Reg.WM_Hh_SEQ 1) = 9))),
    (let s := withRegs [(Reg.WP_SPEED, 77)] (mapped [.header 1 header]);
     meets s [decide ((s.dev.mapHead 1).prev = none)] (.wmFrameFirstLine 0) (fun t => decide ((t.dev.mapHead 1).v = 77 ∧ t.dev.rdN Reg.WM_CNT_NOSPEED = 1))),
    meets (mapped [.header 1 (header.take 11 ++ [0])]) [] (.wmFrameFirstLine 0) (fun t => decide ((t.dev.mapHead 1).prev = some (4000, 320) ∧ (t.dev.mapHead 1).seq = 0)),
    (let s := mapped [.line 1 0 0 [300 * 65536]];
     meets s [decide (s.dev.beatSamples 1 0 [300 * 65536] = ([(2, .usable 300)], 0)), (s.dev.layer 2).on] (.wmSampleBeat 0)
       (fun t => decide (cellAt (t.dev.layer 2).cells 0 2 1 = ⟨1, 300, 0, false, false⟩ ∧ SMap.get [] t.dev.wm.queues 0 = []))),
    (let s := on (fun d => d.setLayer 2 { d.layer 2 with kFirst := -64 }) (mapped [.line 1 0 0 [300 * 65536]]);
     meets s [] (.wmSampleBeat 0) (fun t => decide (0 ∈ t.dev.wm.ahead ∧ t.dev.rdN Reg.WM_CNT_AHEAD = 1) && t.dev.bit Reg.WM_FAULT 1) &&
     meets (on (fun d => d.setLayer 2 { d.layer 2 with kFirst := 1 }) s) [] (.wmSampleBeat 0) (fun t => decide (t.dev.rdN Reg.WM_CNT_BEHIND = 1 ∧ t.dev.wm.ahead = []))),
    (let s := on (fun d => d.setMapHead 1 { d.mapHead 1 with loaded := none }) (mapped [.line 1 0 0 [300 * 65536]]);
     stays s [s.dev.geomPending 1] (.wmSampleBeat 0)),
    meets (withRegs [(Reg.WM_CFG, 0)] (mapped [.line 1 0 0 (List.replicate 17 0)])) [] (.wmSampleBeat 0)
      (fun t => decide (SMap.get [] t.dev.wm.queues 0 = [.line 1 0 16 [0]]))] := by decide +kernel
theorem witness_MapAndBloomTakeTheirInputs_rows : checks [
    stays (mapped []) [!(mapped []).dev.flushPassed 2, !(mapped []).dev.frontsPassed 2] (.wmRowFinalise 2),
    (let s := on (fun d => d.setLayer 2 { d.layer 2 with event := some 16 }) (mapped []);
     meets s [s.dev.flushPassed 2, !s.dev.frontsPassed 2, s.dev.rowCredit 2] (.wmRowFinalise 2)
       (fun t => decide ((t.dev.layer 2).kFirst = 1 ∧ t.dev.rdN Reg.WM_CNT_ROWS = 1 ∧ t.dev.rdN Reg.WM_CNT_FORCED = 1 ∧ events t = [(72, 2)]))),
    (let s := on (fun d => (d.setLayer 2 { d.layer 2 with event := some 16 }).updWm (fun w => { w with rows := List.replicate 256 ⟨0, 0, []⟩ }))
       (withRegs [(Reg.WM_Ll_CFG 2, 1 + 1024 + 4 * 65536)] (mapped []));
     meets s [!s.dev.rowCredit 2] (.wmRowFinalise 2) (fun t => decide (2 ∈ t.dev.wm.wait ∧ (t.dev.layer 2).kFirst = 0))),
    (let s := on (fun d => d.updWm (fun w => { w with stats := [(1, [⟨3, false, List.replicate 32 7, false, 1, 0x10000⟩])] }));
     meets s [] (.wmStatsRecord 1) (fun t => decide (t.dev.rdN (Reg.WM_SRp_WR 1) = 128 ∧ t.mem.frameNat 0x1007C 4 = 7 ∧ t.mem.frameByte 0x10080 = 0 ∧ events t = [(73, 11)])) &&
     meets (on (fun d => d.updWm (fun w => { w with stats := [(1, [⟨3, false, List.replicate 32 7, false, 0, 0⟩])] })) s) [] (.wmStatsRecord 1) (fun t => decide (SMap.get [] t.dev.wm.stats 1 = [] ∧ t.mem = Mem.reset)) &&
     meets (withRegs [(Reg.WM_SRp_WR 1, 65408)] s) [] (.wmStatsRecord 1) (fun t => decide (t.dev.rdN (Reg.WM_SRp_STALL 1) = 1)))] := by decide +kernel
theorem witness_MapAndBloomTakeTheirInputs_quiet : quietMemory fresh.dev := quiet_of _ rfl rfl
/-- A fire record of bank 1, channel 4, with a dip, at WPOS 1600. -/
def fireRec : List Nat := [0, 4 + 2 ^ 14, 0, 0, 1600, 0, 0, 0]
/-- Bloom on with windows of 256 fires; jet 20 is enabled, of width 1. -/
def bloom (rs : List (List Nat)) : State :=
  let s := on (fun d => d.setBank 1 { Bank.reset with records := rs })
    (withRegs [(Reg.BV_CFG, 1 + 2 * 2 + 8), (Reg.BV_WIN, 256), (Reg.BV_DEPTH, 1024 + 64 * 65536), (Reg.WP_RGn_PITCH 0, 160), (Reg.WM_Ll_CFG 2, 1), (Reg.BV_JET_BASE, 0x4000)])
  { s with mem := s.mem.writes [.frame (0x4000 + 64 * 20 + 6) 1, .frame (0x4000 + 64 * 20 + 7) 1] }
/-- A map row of layer l, row 5. -/
def row (l : Nat) : MapRow := ⟨l, 5, [5, 80, 0, 0, 0, 0, 0, 2, 0, 0, 0, 0, 0, 0, 0, 0, 11, 12]⟩
theorem witness_MapAndBloomTakeTheirInputs_bloom : checks [
    (let s := bloom [fireRec];
     meets s [s.dev.bvOn, (s.dev.jetEntry s.mem 20).scored, !(s.dev.jet 20).fill, decide (s.dev.bv.kNext ≤ 9)] (.bvFireRecord 1)
       (fun t => decide (t.dev.bv.fires = [⟨20, 10, some 1, true⟩] ∧ (t.dev.jet 20).wins = [⟨1, 1, 1, 0, 0, 0, false⟩] ∧ (t.dev.bank 1).records = [])) &&
     meets (on (fun d => d.updBv (fun v => { v with kNext := 10 })) s) [] (.bvFireRecord 1) (fun t => decide (t.dev.rdN Reg.BV_CNT_LATE = 1) && t.dev.bit Reg.BV_FAULT 2) &&
     meets (withRegs [(Reg.BV_CFG, 0)] s) [] (.bvFireRecord 1) (fun t => decide (t.dev.bv = s.dev.bv ∧ (t.dev.bank 1).records = []))),
    (let s := on (fun d => d.updWm (fun w => { w with rows := [row 1] })) (bloom []);
     meets s [decide (s.dev.bvBase = 1 ∧ s.dev.bvLayer = 2)] .bvBaselineRow (fun t => decide (t.dev.bv.base = [⟨80, [11, 12]⟩] ∧ t.dev.wm.rows = []))),
    (let s := on (fun d => d.updWm (fun w => { w with rows := [row 2] })) (bloom []);
     meets s [] .bvBaselineRow (fun t => decide (t.dev.wm.rows = [row 2] ∧ t.dev.bv = s.dev.bv)) &&
     meets (withRegs [(Reg.BV_CFG, 1 + 2 * 2 + 8 + 32)] s) [] .bvVerificationRow (fun t => decide (t.dev.bv.kNext = 6 ∧ t.dev.rdN Reg.BV_NEXT = 6 ∧ t.dev.rdN Reg.BV_CNT_ROWS = 1) && t.dev.bit Reg.BV_FAULT 5) &&
     meets (on (fun d => d.setBank 1 { Bank.reset with records := [fireRec] }) s) [] .bvVerificationRow (fun t => decide (t.dev.wm.rows = [row 2]))),
    (let s := on (fun d => d.setJet 127 { BvJet.reset with fill := true, grade := 2, trim := 9 });
     meets s [] (.bvResetJet 127) (fun t => decide (t.dev.jet 127 = { BvJet.reset with pub := (t.dev.jet 127).pub } ∧ events t = [(84, 127)])) &&
     meets s [] (.bvEndFill 127) (fun t => decide ((t.dev.jet 127).trim = 9 ∧ (t.dev.jet 127).grade = 2 ∧ events t = [(84, 127)]) && !(t.dev.jet 127).fill) &&
     meets s [] .bvResetAll (fun t => decide (t.dev.jet 127 = { BvJet.reset with pub := (t.dev.jet 127).pub })))] := by decide +kernel

/-! ## Valve banks and channels (R199 to R248) -/

/-- R232: the words of "A fire on jet 57". -/
theorem test_lace_words :
    [0x124B0200, 0x222580F0, 0x144B0200, 0x2000012C, 0x16578010, 0x260004B0, 0x1812C100, 0x210007D0, 0x1A000000, 0x2400F12C, 0].map laceDecode =
      [.phase 1 600 16 false false, .wait 1 false (600 * 4096 + 240), .phase 2 600 16 false false, .wait 0 false 300, .phase 3 700 0 true false,
       .wait 3 false 1200, .phase 4 150 8 false false, .wait 0 true 2000, .phase 5 0 0 false false, .wait 2 false (15 * 4096 + 300), .end_] := by decide +kernel
/-- Bank 3 on, with these fields changed, and a descriptor of scale 256 and a budget of 4,096 codes. -/
def bank3 (f : Bank → Bank) (l : List (Nat × Nat)) : State :=
  on (fun d => (d.setBank 3 (f { Bank.reset with state := 2, loaded := true, code := [(7, 0x144B0200)] })).setBlink 3
    { BankLink.reset with state := 5, desc := some ([0, 0, 0, 0, 0, 0, 0, 0, 1, 0, 1, 0, 16] ++ List.replicate 12 0) })
    (withRegs ([(Reg.VB_CFG 3, 1), (Reg.VB_RING_BASE 3, 0x10000), (Reg.VB_RING 3, 4)] ++ l))
/-- A fire of channel 9 at WPOS 1000. -/
def fire : Fire := ⟨5, 9, 0, 0, 1000, 0, 100, 0, 0, 7, 700, 4200, 64, none, 0⟩
/-- A made fire of channel 9 from boundary 400. -/
def made : Run := ⟨{ fire with due := some 400 }, 400, 1000, 0, 0, false, false, false, 0, none⟩
/-- Entry q of the ring, with these bits. -/
def entry (q bits : Nat) : List MemWrite :=
  frameWrites (0x10000 + 32 * (q % 16)) 16 bits ++ frameWrites (0x10000 + 32 * (q % 16) + 16) 4 q ++ frameWrites (0x10000 + 32 * (q % 16) + 20) 4 (2 ^ 32 - 1 - q)

theorem witness_FiresStartAndEndAndCoilsHeat_quiet : quietMemory (bank3 id []).dev := quiet_of _ (by decide +kernel) (by decide +kernel)
theorem witness_FiresStartAndEndAndCoilsHeat_noShutter : noShutter (bank3 id []).dev := noShutter_of _ (by decide +kernel)
theorem witness_FiresStartAndEndAndCoilsHeat_rows : checks [
    (let s := withRegs [(Reg.VB_CFG 3, 0)] (bank3 id []);
     stays s [] (.vbRingFetch 3) && stays s [] (.vbRingRefetch 3 0) && stays s [] (.laceFrame 3) && stays s [] (.coilTick 3)),
    (let s := bank3 (fun x => { x with taken := some 16 }) [];
     let s := { s with mem := s.mem.writes (entry 17 (2 ^ 57)) };
     meets s [decide (s.dev.nextRowOf 3 = 17)] (.vbRingFetch 3) (fun t => decide ((t.dev.bank 3).look = [(17, 2 ^ 57)] ∧ (t.dev.bank 3).missed = [])) &&
     meets (on (fun d => d.updBank 3 (fun x => { x with missed := [(17, 50, false)] })) s) [] (.vbRingRefetch 3 0)
       (fun t => decide ((t.dev.bank 3).look = [(17, 2 ^ 57)] ∧ (t.dev.bank 3).missed = [] ∧ t.clock.dtime = 450))),
    (let s := bank3 (fun x => { x with taken := some 16 }) [];
     meets s [] (.vbRingFetch 3) (fun t => decide ((t.dev.bank 3).look = [] ∧ (t.dev.bank 3).missed = [(17, 0, false)])) &&
     meets (on (fun d => d.updBank 3 (fun x => { x with missed := [(80, 50, false)] })) s) [] (.vbRingRefetch 3 63)
       (fun t => decide ((t.dev.bank 3).missed = [(80, 450, false)])))] := by decide +kernel
/-- R205, R206: the fire is due once WPOS has reached its position, and drives from the next boundary. -/
theorem witness_FiresStartAndEndAndCoilsHeat_frames : checks [
    meets (at_ 390 (bank3 (fun x => { x with lastFrame := 360, state := 1 }) [])) [] (.laceFrame 3)
      (fun t => decide (t.clock.dtime = 400 ∧ (t.dev.bank 3).lastFrame = 400 ∧ (t.dev.bank 3).gates = 0)),
    (let s := at_ 640 (on (fun d => d.setBlink 3 { d.blink 3 with on := true }) (bank3 (fun x => { x with lastFrame := 600 }) []));
     meets s [(s.dev.blink 3).on, decide ((s.dev.blink 3).swapAt = none ∧ (s.dev.blink 3).state = 5)] (.laceFrame 3)
       (fun t => decide ((t.dev.blink 3).down.map (fun f => (f.marker, f.payload % 2 ^ 18)) = some (5, 0)))),
    (let s := bank3 (fun x => { x with waiting := [fire] }) [];
     let s := { s with clock := { s.clock with wpos := 1000 } };
     meets s [(s.dev.bank 3).engineOk, decide ((s.dev.bank 3).firstPhase 7 = (0, some (2, 600, 16, false, false))), decide (700 ≤ s.dev.budget 3), !s.dev.indep 3]
       (.laceFrame 3) (fun t => decide (t.clock.dtime = 40 ∧ (t.dev.bank 3).waiting = [] ∧ (t.dev.chan 3 9).kind = 2 ∧ (t.dev.chan 3 9).target = 600 ∧
         (t.dev.chan 3 9).run.map (fun r => r.start) = some 80 ∧ (t.dev.thread 3 9).pc = 8 ∧ (t.dev.bank 3).gates = 2 ^ 9 + 131072)) &&
     meets { s with clock := { s.clock with wpos := 999 } } [] (.laceFrame 3) (fun t => decide ((t.dev.bank 3).waiting = [fire] ∧ (t.dev.bank 3).gates = 0))),
    (let s := bank3 (fun x => (x.setChan 9 { Chan.reset with kind := 2, run := some made }).setThread 9 { LaceThread.reset with run := .ready, pc := 8 }) [];
     meets s [decide ((s.dev.chan 3 9).quenchAt = none)] (.fireDurationLimit 3 9)
       (fun t => decide (t.clock.dtime = 400 + 40 * 4200 ∧ (t.dev.chan 3 9).kind = 5 ∧ (t.dev.chan 3 9).run = none ∧ (t.dev.thread 3 9).run = .stopped ∧
         t.dev.rdN (Reg.LC_ERRPC 3) = 8 + 4096 * 5 + 65536 * 9 ∧ t.dev.rdN (Reg.LC_CNT_CUT 3) = 1 ∧ (t.dev.bank 3).records.length = 1))),
    (let s := bank3 (fun x => { x.setChan 9 { Chan.reset with kind := 5, quenchAt := some 10 } with lastFrame := 360 }) [];
     meets s [decide (s.dev.fast 3 9 = 0)] (.quenchEnd 3 9) (fun t => decide (t.dev.chan 3 9 = Chan.reset ∧ t.clock.dtime = 400)) && stays s [] (.quenchEnd 3 8) &&
     stays (on (fun d => d.updBank 3 (fun x => { x with lastFrame := 320 })) s) [] (.quenchEnd 3 9)),
    (let s := bank3 (fun x => { (x.setChan 9 { Chan.reset with kind := 1, boostFrom := some 400, run := some made }).setThread 9
       { LaceThread.reset with run := .wait 1 600 0 0 0 } with token := some (9, none) }) [(Reg.VB_SLOT 3, 12000 + 2400 * 65536)];
     meets s [] (.boostCut 3) (fun t => decide (t.clock.dtime = 400 + 9600 ∧ (t.dev.chan 3 9).kind = 2 ∧ (t.dev.bank 3).token = some (9, some 12400) ∧
       (t.dev.thread 3 9).run = .ready) && (t.dev.thread 3 9).t))] := by decide +kernel
/-- A coil of channel 9: T − T0 of 100 K in 2^-26 of 1/64 K, with heat to come. -/
def hot : Coil := { Coil.reset with on := true, tc := 6400 * 2 ^ 26, tb := 0, res := 40000, q := 10 ^ 7, trip := true }
theorem witness_FiresStartAndEndAndCoilsHeat_coils : checks [
    (let s := bank3 (fun x => x.setChan 9 { Chan.reset with coil := { hot with trip := false } })
       [(Reg.LC_CHc_CFG 3 9, 16), (Reg.LC_CHc_HC 3 9, 10737), (Reg.LC_CHc_ACB 3 9, 13981), (Reg.LC_CHc_LIM2 3 9, 6400), (Reg.LC_SAVE_BASE 3, 0x20000)];
     meets s [(s.dev.bank 3).engineOk, decide ((s.dev.blink 3).scale = some 256)] (.coilTick 3)
       (fun t => decide (t.clock.dtime = 400000 ∧ (t.dev.chan 3 9).coil.tc = 6400 * 2 ^ 26 + (10 ^ 7 * 65536 * 40000 : Int) / (65536 * 10 ^ 10) * 10737 - (6400 * 2 ^ 26 * 13981 : Int) / 2 ^ 24 ∧
         t.mem.frameNat (0x20000 + 0x4000 + 32 * 9 + 16) 4 = t.dev.rdN (Reg.VB_CHc_OD 3 9)) && (t.dev.chan 3 9).coil.trip == decide (6400 ≤ sar (t.dev.chan 3 9).coil.tc 26))),
    (let s := bank3 (fun x => x.setChan 9 { Chan.reset with coil := hot }) [(Reg.LC_CHc_CFG 3 9, 16), (Reg.LC_CHc_LIM1 3 9, 6411), (Reg.LC_CFG 3, 10 * 65536)];
     meets s [] (.lcClearTrip 3 9) (fun t => !(t.dev.chan 3 9).coil.trip) &&
     meets (withRegs [(Reg.LC_CHc_LIM1 3 9, 6410)] s) [] (.lcClearTrip 3 9) (fun t => (t.dev.chan 3 9).coil.trip))] := by decide +kernel

/-! ## Lace engines (R224 to R250) -/

/-- Thread `th` of bank 3 is ready at word 20 with accumulators 5, -3, 4096 and the largest value. -/
def laced (th : Nat) (f : LaceThread → LaceThread := id) (l : List (Nat × Nat) := []) : State :=
  bank3 (fun x => x.setThread th (f ⟨20, [5, -3, 4096, 8388607], true, false, false, .ready, true, 3⟩)) l
/-- The thread's accumulators, counter and flags. -/
def acc (t : State) (th : Nat) : List Int × Nat × Bool × Bool := ((t.dev.thread 3 th).a, (t.dev.thread 3 th).pc, (t.dev.thread 3 th).z, (t.dev.thread 3 th).n)
/-- A program error of a kind of thread `th` at word 20. -/
def laceError (t : State) (th kind : Nat) : Bool :=
  decide ((t.dev.thread 3 th).run = .stopped ∧ t.dev.rdN (Reg.LC_ERRPC 3) = 20 + 4096 * kind + 65536 * th) && t.dev.bit (Reg.LC_FAULT 3) 4

theorem witness_LaceInstructionsAndErrors_ready : laceReady (laced 9) 3 9 ∧ laceReady (laced 16) 3 16 ∧
    laceReady (laced 9 (fun x => { x with since := 62 })) 3 9 := by
  unfold laceReady; decide +kernel
/-- R232: accumulators saturate at 24 bits; MUL shifts by 12, rounding down; a compare leaves them. -/
theorem witness_LaceInstructionsAndErrors_alu : checks [
    meets (laced 9) [] (.laceLdi 3 9 1 0xFFFFFE) (fun t => decide (acc t 9 = ([5, -2, 4096, 8388607], 21, false, false))),
    meets (laced 9) [] (.laceAluAdd 3 9 3 0) (fun t => decide (acc t 9 = ([5, -3, 4096, 8388607], 21, false, false))),
    meets (laced 9) [] (.laceAluSub 3 9 0 1) (fun t => decide (acc t 9 = ([8, -3, 4096, 8388607], 21, false, false))),
    meets (laced 9) [] (.laceAluMul 3 9 1 0) (fun t => decide (acc t 9 = ([5, -1, 4096, 8388607], 21, false, true))),
    meets (laced 9) [] (.laceAluMin 3 9 2 1) (fun t => decide (acc t 9 = ([5, -3, -3, 8388607], 21, false, true))),
    meets (laced 9) [] (.laceAluMax 3 9 1 2) (fun t => decide (acc t 9 = ([5, 4096, 4096, 8388607], 21, false, false))),
    meets (laced 9) [] (.laceAluMove 3 9 0 0) (fun t => decide (acc t 9 = ([5, -3, 4096, 8388607], 21, false, false))),
    meets (laced 9) [] (.laceAluCompare 3 9 2 2) (fun t => decide (acc t 9 = ([5, -3, 4096, 8388607], 21, true, false)))] := by decide +kernel
/-- R232, R234, R236: sources and parameters; a source above 11 and a SIG of a channel thread are errors. -/
theorem witness_LaceInstructionsAndErrors_move : checks [
    meets (laced 9 id [(Reg.VB_CHc_OD 3 9, 48000)]) [] (.laceLdm 3 9 0 5 0) (fun t => decide (acc t 9 = ([48000, -3, 4096, 8388607], 21, false, false))),
    meets (laced 9 id [(Reg.LC_CHc_PAR23 3 9, 7 + 8 * 65536)]) [] (.laceLdm 3 9 0 11 0) (fun t => decide (acc t 9 = ([8, -3, 4096, 8388607], 21, false, false))),
    meets (laced 16 id [(Reg.LC_CHc_PAR01 3 15, 99)]) [] (.laceLdm 3 16 0 8 15) (fun t => decide (acc t 16 = ([99, -3, 4096, 8388607], 21, false, false))),
    meets (laced 9) [] (.laceLdm 3 9 0 12 0) (fun t => laceError t 9 1),
    meets (laced 9) [] (.laceStp 3 9 1 3 0) (fun t => decide (t.dev.rdN (Reg.LC_CHc_PAR23 3 9) = 65533 * 65536 ∧ (t.dev.thread 3 9).pc = 21)),
    meets (laced 16) [] (.laceSig 3 16 15) (fun t => (t.dev.chan 3 15).signal && decide ((t.dev.thread 3 16).pc = 21)),
    meets (laced 16) [] (.laceSig 3 16 16) (fun t => decide ((t.dev.thread 3 16).pc = 21 ∧ (t.dev.bank 3).chans = [])),
    meets (laced 9) [] (.laceSig 3 9 0) (fun t => laceError t 9 1)] := by decide +kernel
/-- R233, R236: conditions, and those that thread 16 does not have. -/
theorem witness_LaceInstructionsAndErrors_flow : checks [
    meets (laced 9) [] (.laceBr 3 9 1 0xFFF) (fun t => decide ((t.dev.thread 3 9).pc = 4095)),
    meets (laced 9) [] (.laceBr 3 9 2 0xFFF) (fun t => decide ((t.dev.thread 3 9).pc = 21)),
    meets (laced 9) [] (.laceBr 3 9 4 0x100) (fun t => decide ((t.dev.thread 3 9).pc = 256)),
    meets (laced 9) [] (.laceBr 3 9 9 0) (fun t => laceError t 9 1),
    meets (laced 16) [] (.laceBr 3 16 3 0) (fun t => laceError t 16 1),
    meets (laced 9) [] (.lacePhase 3 9 4 150 8 true false)
      (fun t => decide ((t.dev.chan 3 9).kind = 4 ∧ (t.dev.chan 3 9).band = 8 ∧ (t.dev.thread 3 9).pc = 21) && (t.dev.chan 3 9).watch),
    meets (laced 9) [] (.lacePhase 3 9 5 0 0 false false) (fun t => decide ((t.dev.chan 3 9).kind = 5 ∧ (t.dev.chan 3 9).quenchAt = some 1)),
    meets (laced 9) [] (.lacePhase 3 9 6 0 0 false false) (fun t => laceError t 9 1),
    meets (laced 16) [] (.lacePhase 3 16 2 0 0 false false) (fun t => laceError t 16 1),
    meets (laced 9) [] (.laceWait 3 9 0 false 300) (fun t => decide ((t.dev.thread 3 9).run = .wait 0 0 301 0 0 ∧ (t.dev.thread 3 9).since = 0)),
    meets (laced 9) [] (.laceWait 3 9 5 false (BitVec.ofNat 24 (600 * 4096 + 240))) (fun t => decide ((t.dev.thread 3 9).run = .wait 5 600 0 241 0)),
    meets (laced 9) [] (.laceWait 3 9 6 false 0) (fun t => laceError t 9 1),
    meets (laced 16) [] (.laceWait 3 16 1 false 0) (fun t => laceError t 16 1),
    meets (laced 16) [] (.laceEnd 3 16) (fun t => decide ((t.dev.thread 3 16).run = .stopped ∧ t.dev.regs = (laced 16).dev.regs)),
    meets (on (fun d => d.setChan 3 9 { Chan.reset with kind := 5, quenchAt := some 0, run := some made }) (laced 9)) [] (.laceEnd 3 9)
      (fun t => decide ((t.dev.chan 3 9).kind = 5 ∧ (t.dev.chan 3 9).run = none ∧ (t.dev.bank 3).records.length = 1)),
    meets (on (fun d => d.setChan 3 9 { Chan.reset with kind := 4, run := some made }) (laced 9)) [] (.laceEnd 3 9)
      (fun t => decide ((t.dev.chan 3 9).quenchAt = some 1) && t.dev.bit (Reg.LC_FAULT 3) 4)] := by decide +kernel
theorem witness_LaceInstructionsAndErrors_engine : checks [
    stays (laced 8) [decide (((laced 8).dev.thread 3 9).run ≠ .ready)] (.laceAluAdd 3 9 0 0),
    meets (laced 9 (fun x => { x with since := 63 })) [] (.laceLdi 3 9 0 0) (fun t => laceError t 9 4),
    stays (laced 9) [((laced 9).dev.bank 3).loaded] (.laceCodeLoadDone 3),
    (let s := bank3 (fun x => { x with loaded := false, code := [] }) [(Reg.LC_SAVE_BASE 3, 0x20000)];
     let s := { s with mem := s.mem.writes (frameWrites 0x23FFC 4 0x80000001 ++ frameWrites 0x20000 4 5) };
     meets s [] (.laceCodeLoadDone 3) (fun t => (t.dev.bank 3).loaded && decide ((t.dev.bank 3).code = [(0, 5), (4095, 0x80000001)])) &&
     stays s [] (.laceEngineFault 3 0)),
    meets (laced 9) [] (.laceEngineFault 3 4095) (fun t => (t.dev.bank 3).engineFault && t.dev.bit (Reg.LC_FAULT 3) 0 && logs t (uid 9 3 31) 0x10 4095),
    (let s := on (fun d => { d.updBank 3 (fun x => { x with engineFault := true, served := true }) with spare := { Spare.reset with state := 2, bank := 3 } }) (laced 9);
     meets s [(s.dev.bank 3).engineOk] (.laceEngineFault 3 1) (fun t => decide (t.dev.spare.state = 3) && !t.dev.spare.healthy && !(t.dev.bank 3).engineOk))] := by
  decide +kernel
theorem witness_LaceInstructionsAndErrors_wf : (bank3 (fun x => { x with loaded := false }) []).mem.wf := by decide +kernel

/-! ## Bank faults, pairs, the spare engine (R213 to R218) and the bank links (R256 to R271) -/

/-- R262: the check value for the ASCII bytes "123456789". -/
theorem test_crc8 : crc8 [0x31, 0x32, 0x33, 0x34, 0x35, 0x36, 0x37, 0x38, 0x39] = 0xDF := by decide +kernel
/-- R266: all phases clean select phase 3, and of an even run the lower centre. -/
theorem test_runs : longestRuns 0xFF = ([0], 8) ∧ longestRuns 0x3C = ([2], 4) ∧ longestRuns 0x83 = ([7], 3) ∧ longestRuns 0x66 = ([1, 5], 2) := by decide +kernel
/-- The manual's frame: payload 0x5B0210 as K28.1, D16.0, D2.0, D27.2; the marker reads 001111 1001 from negative running disparity (R252, R254, R256). -/
theorem test_link_frame : withParity 0x5B0210 = 0x5B0210 ∧ withParity 0x5B0211 = 0xDB0211 ∧ (encodeFrame false 1 0x5B0210).1 / 2 ^ 30 = 0b0011111001 ∧
    (decodeFrame false (encodeFrame false 1 0x5B0210).1).1 = [some (true, 28 + 32), some (false, 16), some (false, 2), some (false, 27 + 64)] := by decide +kernel
/-- Every marker and every byte comes back from the line code, from both disparities, and the receiver ends where the sender did. -/
theorem test_line_code : ∀ rd : Bool, (∀ y ∈ [1, 2, 5, 6], decodeSymbol rd (encodeSymbol rd true (28 + 32 * y)).1 = (some (true, 28 + 32 * y), (encodeSymbol rd true (28 + 32 * y)).2)) ∧
    ∀ v : Fin 256, decodeSymbol rd (encodeSymbol rd false v).1 = (some (false, v.val), (encodeSymbol rd false v).2) := by decide +kernel
/-- R262: a message goes out in the slow bits of 16 frames and comes back. -/
theorem test_slow_bits :
    let msg := messageOf 2 9 [1, 2, 3, 4, 5, 6, 7, 8]
    crcHolds msg = true ∧ slowBytes ((List.range 16).map (fun f => (List.range 5).map (fun i => nbit (slowBits msg f) i))).flatten = msg := by decide +kernel
/-- Bank 3 and its link, with these fields of the link changed. -/
def linked (g : BankLink → BankLink) (f : Bank → Bank := id) : State :=
  on (fun d => d.updBlink 3 (fun x => g { x with on := true })) (bank3 f [(Reg.BL_CFG 3, 1)])
/-- A lane with 16 valid frames at these phases. -/
def phases (m : Nat) : UpLane := { UpLane.reset with clean := (List.range 8).map (fun i => if nbit m i then 16 else 15) }
/-- The line of a frame in a superframe position other than 0. -/
def upMark (payload : Nat) : BitVec 10 := BitVec.ofNat 10 ((encodeFrame false 1 (withParity payload)).1 / 2 ^ 30)
def upData (payload : Nat) : BitVec 30 := BitVec.ofNat 30 (encodeFrame false 1 (withParity payload)).1
/-- A message of nine bytes with its CRC. -/
def message (l : List Byte) : List Byte := l ++ [BitVec.ofNat 8 (crc8 l)]
/-- Types of the commands that wait on the link of bank 3. -/
def waits (t : State) : List Nat := (t.dev.blink 3).cmds.map LinkCmd.type

theorem witness_BanksPairsSpareAndLinks_faults : checks [
    (let s := linked id;
     meets s [decide ((s.dev.bank 3).state = 2)] (.vbBankFault 3 1) (fun t => decide ((t.dev.bank 3).state = 3 ∧ events t = [(43, 2)]) && logs t (uid 9 3 31) 4 2) &&
     stays s [decide ((s.dev.bank 3).engineFault = false)] (.vbBankFault 3 3) && stays s [] (.vbBankFault 2 0) && stays s [] (.vbClearFault 3) &&
     meets (linked id (fun x => { x with engineFault := true })) [] (.vbBankFault 3 3) (fun t => logs t (uid 9 3 31) 4 4)),
    (let s := linked id (fun x => { x with state := 3, engineFault := true });
     meets s [!s.dev.safe] (.vbClearFault 3) (fun t => decide ((t.dev.bank 3).state = 3 ∧ (t.dev.blink 3).state = 3 ∧ waits t = [4, 3, 3, 3]) && (t.dev.bank 3).clearing && !(t.dev.bank 3).engineFault) &&
     meets (on (fun d => d.updBlink 3 (fun x => { x with state := 6 })) (at_ 70 s)) [] (.vbClearFault 3)
       (fun t => decide ((t.dev.blink 3).state = 1 ∧ (t.dev.blink 3).since = 70 ∧ waits t = [4])) &&
     meets (on (fun d => d.updBlink 3 (fun x => { x with on := false })) s) [] (.vbClearFault 3) (fun t => (t.dev.bank 3).clearing && decide (waits t = [])))] := by decide +kernel
theorem witness_BanksPairsSpareAndLinks_pairs : checks [
    (let s := withRegs [(Reg.VB_CFG 3, 3), (Reg.VB_CHc_CFG 3 0, 3)] (linked id (fun x => x.setChan 0 { Chan.reset with command := true }));
     stays s [] (.vbPairClose 2 0) &&
     meets s [decide (s.dev.pairOwned 3 0 = false), s.dev.chanCmd 3 0] (.vbPairClose 3 1) (fun t => decide (t.dev.pair 3 0 = { s.dev.pair 3 0 with close := true })) &&
     meets (on (fun d => d.updBank 3 (fun x => x.setChan 0 { Chan.reset with command := true, kind := 5 })) s) [] (.vbPairClose 3 1)
       (fun t => decide (t.dev.pair 3 0 = { s.dev.pair 3 0 with held := true })) &&
     meets (on (fun d => d.updBank 3 (fun x => x.setChan 0 { Chan.reset with command := true, coil := { Coil.reset with trip := true } })) s) [] (.vbPairClose 3 1)
       (fun t => logs t (uid 9 3 0) 9 4 && decide (t.dev.vb ≠ [])) &&
     meets s [decide (s.dev.chanCmd 3 7 = false)] (.vbPairRelease 3 128) (fun t => logs t (uid 9 3 7) 9 2 && t.dev.bit (Reg.VB_FAULT 3) 8) &&
     meets (on (fun d => d.setPair 3 0 ⟨true, false, false⟩) s) [] (.vbPairRelease 3 1)
       (fun t => decide ((t.dev.pair 3 0).on = false ∧ (t.dev.chan 3 0).kind = 5 ∧ (t.dev.chan 3 0).quenchAt = some 1))),
    (let s := withRegs [(Reg.VB_SP_CFG, 8)] (linked id (fun x => { x with engineFault := true, waiting := [fire] }));
     meets s [] (.spareTakeover 3) (fun t => decide (t.dev.spare.state = 1 ∧ t.dev.spare.bank = 3 ∧ (t.dev.bank 3).waiting = []) && (t.dev.bank 3).allOff) &&
     stays (withRegs [(Reg.VB_SP_CFG, 0)] s) [] (.spareTakeover 3) && meets s [] (.spareHandover 3) (fun t => t.dev.spare.handover && decide (t.dev.spare.state = 1)) &&
     stays s [] (.spareHandover 2) && stays s [] .spareReturn && stays s [] (.spareLoadDone true)),
    (let s := on (fun d => { d with spare := { Spare.reset with state := 1, bank := 3, rowsLost := 6 } }) (linked id);
     meets s [] (.spareLoadDone true) (fun t => decide (t.dev.spare.state = 2) && t.dev.spare.ready && logs t (uid 9 8 31) 5 6) &&
     meets s [] (.spareLoadDone false) (fun t => decide (t.dev.spare.state = 3 ∧ (t.dev.bank 3).state = 3) && t.dev.bit Reg.VB_SP_FAULT 2) &&
     meets (on (fun d => { d with spare := { d.spare with handover := true } }) s) [] (.spareLoadDone true) (fun t => decide (t.dev.spare.state = 1 ∧ t.dev.regs = s.dev.regs)) &&
     meets (on (fun d => { d with spare := { d.spare with state := 2 } }) s) [] .spareReturn (fun t => t.dev.spare.returning))] := by decide +kernel
/-- R266: 16 superframes of 640 ticks of training; lat of a round trip of 192 ticks is 6, of 193 is 7. -/
theorem witness_BanksPairsSpareAndLinks_training : checks [
    (let s := linked (fun x => { x with state := 1, since := 100, desc := none, lane0 := phases 0xFF, lane1 := phases 0x3C });
     meets s [decide ((s.dev.blink 3).lane0.mask = 0xFF ∧ (s.dev.blink 3).lane1.mask = 0x3C)] (.blTraining 0 3 1000 1192) (fun t => decide (t.clock.dtime = 100 + 10240 ∧ (t.dev.blink 3).phase0 = 3 ∧ (t.dev.blink 3).phase1 = 3 ∧
       (t.dev.blink 3).lat = 6 ∧ (t.dev.blink 3).state = 3 ∧ waits t = [3, 3, 3])) &&
     meets (on (fun d => d.updBlink 3 (fun x => { x with lane0 := phases 0x83 })) s) [] (.blTraining 0 3 1000 1193) (fun t => decide ((t.dev.blink 3).phase0 = 0 ∧ (t.dev.blink 3).lat = 0 ∧ (t.dev.blink 3).retryAt = some (100 + 10240 + 40960) ∧ (t.dev.blink 3).state = 2) &&
       t.dev.bit (Reg.BL_FAULT 3) 0) &&
     meets (on (fun d => d.updBlink 3 (fun x => { x with lane1 := phases 0x03 })) s) [] (.blTraining 0 3 1000 1100) (fun t => decide ((t.dev.blink 3).state = 2) && logs t (uid 10 3 3) 1 (3 + 25600)) &&
     meets (on (fun d => d.updBlink 3 (fun x => { x with cfg := 3 + 4 * 6 + 32 * 5 })) s) [] (.blTraining 0 3 1000 1100)
       (fun t => decide (t.clock.dtime = 100 + 5120 ∧ (t.dev.blink 3).phase0 = 6 ∧ (t.dev.blink 3).phase1 = 5 ∧ (t.dev.blink 3).state = 3))),
    (let s := linked (fun x => { x with state := 2, retryAt := some 9000 });
     meets s [] (.blTrainingRetry 3) (fun t => decide (t.clock.dtime = 9000 ∧ (t.dev.blink 3).state = 1 ∧ (t.dev.blink 3).since = 9000 ∧ (t.dev.blink 3).desc = none))),
    (let s := linked (fun x => { x with bad1 := 2, lane0 := { UpLane.reset with pos := some 3 }, lane1 := { UpLane.reset with pos := some 3 } });
     meets s [] (.blUplinkFrame 3 (upMark 0x20001) (upData 0x20001) (upMark 3) (upData 3)) (fun t => decide ((t.dev.blink 3).bad1 = 0 ∧
       (t.dev.blink 3).inbox.map (fun f => (f.lane0, f.lane1)) = [(some (withParity 0x20001), some (withParity 3))])) &&
     meets s [] (.blUplinkFrame 3 0 0 (upMark 0) (upData 0)) (fun t => decide ((t.dev.blink 3).bad0 = 1 ∧ (t.dev.blink 3).state = 5 ∧ t.dev.rdN (Reg.BL_CNT_UPERR 3) = 1 ∧
       (t.dev.blink 3).inbox.map UpFrame.lane0 = [none])) &&
     meets s [] (.blUplinkFrame 3 (upMark 0) (upData 0) 0 0) (fun t => decide ((t.dev.blink 3).state = 6 ∧ (t.dev.bank 3).state = 3 ∧ t.dev.rdN (Reg.BL_CNT_UPERR 3) = 65536) &&
       logs t (uid 10 3 3) 2 3) &&
     meets (on (fun d => d.updBlink 3 (fun x => { x with state := 2 })) s) [] (.blUplinkFrame 3 (upMark 1) (upData 1) (upMark 1) (upData 1)) (fun t => decide ((t.dev.blink 3).inbox = [])) &&
     stays (on (fun d => d.updBlink 3 (fun x => { x with on := false })) s) [] (.blUplinkFrame 3 (upMark 1) (upData 1) (upMark 1) (upData 1))),
    (let s := linked (fun x => { x with inbox := [⟨1, some 0x20001, some 3⟩] });
     meets s [decide ((s.dev.bank 3).threads = [] ∧ (s.dev.bank 3).pairs = [])] (.laceFrame 3)
       (fun t => decide ((t.dev.blink 3).inbox = [] ∧ ((t.dev.chan 3 0).bits.take 2) = [false, true] ∧ ((t.dev.chan 3 8).bits.take 2) = [true, false] ∧
         ((t.dev.chan 3 9).bits.take 2) = [true, true])) &&
     meets (on (fun d => d.updBlink 3 (fun x => { x with inbox := [⟨2, none, none⟩] })) s) [] (.laceFrame 3)
       (fun t => decide ((t.dev.blink 3).inbox.length = 1 ∧ (t.dev.chan 3 9).bits = [])))] := by decide +kernel
/-- The link of bank 3 has received a message. -/
def received (msg : List Byte) (g : BankLink → BankLink := id) (f : Bank → Bank := id) : State := linked (fun x => g { x with msgs := [some msg] }) f
theorem witness_BanksPairsSpareAndLinks_messages : checks [
    (let good := message [0x11, 1, 0x34, 0x12, 0, 0x40, 0, 6, 2];
     let armed := fun x => { x with state := 4, cmds := [⟨1, 6, [], some 0⟩] };
     meets (received good armed) [decide (messageType good = 1)] (.blStatusMessage 7 3) (fun t => decide ((t.dev.blink 3).state = 5 ∧
       (t.dev.blink 3).chal = 0x1234 ∧ (t.dev.blink 3).msgs = [] ∧ waits t = []) && (t.dev.bank 3).armed) &&
     stays (received good) [] (.blDescMessage 0 3) && stays (linked id) [] (.blStatusMessage 0 3) &&
     meets (received good (fun x => { x with state := 2 })) [] (.blStatusMessage 7 3) (fun t => decide ((t.dev.blink 3).state = 2 ∧ (t.dev.blink 3).msgs = [])) &&
     meets (received (message [1, 2, 0, 0, 0, 0, 1, 0, 0])) [] (.blStatusMessage 7 3) (fun t => decide ((t.dev.bank 3).state = 3 ∧ (t.dev.blink 3).state = 4) && logs t (uid 10 3 4) 6 1) &&
     meets (received (message [1, 0, 0, 0, 0, 0, 0, 0, 0])) [] (.blStatusMessage 7 3) (fun t => decide ((t.dev.bank 3).state = 3) && logs t (uid 10 3 4) 7 0) &&
     meets (received (message [1, 1, 0, 0, 0, 0, 0x1F, 0, 0])) [] (.blStatusMessage 7 3) (fun t => decide ((t.dev.blink 3).state = 5)) &&
     meets (received (message [1, 0, 0, 0, 0, 0, 0, 0, 0]) (fun x => { x with state := 3 }) (fun x => { x with state := 3, clearing := true })) [] (.blStatusMessage 7 3)
       (fun t => decide ((t.dev.bank 3).state = 1 ∧ (t.dev.blink 3).state = 3) && !(t.dev.bank 3).clearing)),
    (let paged := fun x => { x with state := 3, desc := none, chal := 0x1234, pages := [(0, [1, 0, 9, 9, 9, 9, 5]), (1, [0, 1, 0, 2, 0xE8, 3, 0])] };
     let last := message [2, 2, 40, 0, 0x58, 0, 0, 0, 0];
     meets (received last paged) [decide (messageType last = 2)] (.blDescMessage 7 3) (fun t => decide ((t.dev.blink 3).state = 4 ∧ waits t = [1] ∧ (t.dev.blink 3).scale = some 256 ∧
       t.dev.rdN (Reg.BL_DESCw 3 0) = 1 + 9 * 65536 + 9 * 2 ^ 24 ∧
       (t.dev.blink 3).cmds.map LinkCmd.payload = [[0x34, 0x12, 0xCB, 0xED, 3, 0, 0, 0]])) &&
     meets (on (fun d => d.setSlot 4 { Slot.reset with state := 3, kind := 10, target := uid 9 3 31, line := 1 }) (received last paged)) [] (.blDescMessage 7 3)
       (fun t => decide ((t.dev.blink 3).state = 3 ∧ waits t = [] ∧ (t.dev.blink 3).scale = some 256)) &&
     meets (received (message [2, 2, 41, 0, 0x58, 0, 0, 0, 0]) paged) [] (.blDescMessage 7 3) (fun t => decide ((t.dev.blink 3).state = 3 ∧ (t.dev.blink 3).desc = none) && logs t (uid 10 3 4) 3 3) &&
     meets (received (message [2, 3, 0, 0, 0, 0, 0, 0, 0]) paged) [] (.blDescMessage 7 3) (fun t => decide ((t.dev.blink 3).state = 3 ∧ (t.dev.blink 3).msgs = [])))] := by decide +kernel
theorem witness_BanksPairsSpareAndLinks_link : checks [
    (let s := linked (fun x => { x with cmds := [⟨4, 6, [], some 50⟩, ⟨3, 7, [], none⟩], lane0 := { UpLane.reset with pos := some 15 }, lastMsg := 200, trimNext := some (5, 4), seq := 15, msgs := [none, none] });
     meets s [] (.blSlowMessageDiscard 3) (fun t => decide (t.dev.rdN (Reg.BL_CNT_CRC 3) = 1 ∧ (t.dev.blink 3).msgs = [none])) && stays (received []) [] (.blSlowMessageDiscard 3) &&
     meets s [] (.blCommandAckTimeout 3) (fun t => decide (t.clock.dtime = 50 + 10240 ∧ t.dev.rdN (Reg.BL_CNT_RETX 3) = 1 ∧ waits t = [4, 3]) && logs t (uid 10 3 4) 4 (4 + 16 * 6)) &&
     meets s [decide ((s.dev.bank 3).state = 2)] (.blStageSilent 3) (fun t => decide (t.clock.dtime = 200 + 10240 ∧ (t.dev.bank 3).state = 3)) &&
     meets s [] (.blRetrain 3) (fun t => decide ((t.dev.blink 3).since = s.dev.nextBoundary 0 3 + 640 ∧ (t.dev.bank 3).state = 3 ∧ waits t = [])) &&
     meets s [] (.blDisarm 3) (fun t => decide (waits t = [4, 3, 2] ∧ (t.dev.blink 3).seq = 0)) && stays s [] (.blDisarm 1) && stays s [] (.blRetrain 1) &&
     meets s [] (.blPhaseTrim 3 6) (fun t => decide ((t.dev.blink 3).phase0 = 5 ∧ (t.dev.blink 3).phase1 = 4 ∧ (t.dev.blink 3).lat = 6)) && stays s [] (.blPhaseTrim 3 7))] := by decide +kernel

/-! ## Precision analogue inputs (R273 to R299) -/

/-- Converter 1 on with two entries, its internal reference ready, gain 0 of offset 100 and factor 1.0, changed so. -/
def conv (f : Adc → Adc) (l : List (Nat × Nat) := []) : State :=
  on (fun d => d.updAdc 1 f) (withRegs ([(Reg.AN_Cx_CFG 1, 3), (Reg.AN_REF_CFG, 1), (Reg.AN_REF_STATUS, 1), (Reg.AN_Cx_OFFg 1 0, 100), (Reg.AN_Cx_FSg 1 0, 2 ^ 22),
    (Reg.AN_Cx_BUF 1, 0x30000)] ++ l))

theorem witness_ConvertersTriggerConvertAndCalibrate_quiet : quietMemory (conv id).dev := quiet_of _ (by decide +kernel) (by decide +kernel)
theorem witness_ConvertersTriggerConvertAndCalibrate_triggers : checks [
    (let s := conv id;
     meets s [] (.adcSoftwareTrigger 2) (fun t => decide ((t.dev.adc 1).sent = [false] ∧ (t.dev.adc 0).sent = [])) &&
     meets (at_ 50 s) [] (.adcSelfCalibrate 3) (fun t => decide ((t.dev.adc 1).calFrom = some 50 ∧ (t.dev.adc 0).calFrom = some 50)) &&
     meets (withRegs [(Reg.AN_REF_STATUS, 0)] s) [] (.adcSelfCalibrate 2) (fun t => (t.dev.adc 1).calWanted) &&
     stays (conv (fun a => { a with faulted := true })) [] (.adcSelfCalibrate 2)),
    (let s := conv (fun a => { a with sent := [true, false] });
     meets s [] (.adcTriggerSeen 7 1) (fun t => decide (t.clock.dtime = 7 ∧ (t.dev.adc 1).sent = [false] ∧ (t.dev.adc 1).items = [(1, 0), (1, 1)] ∧ t.dev.rdN (Reg.AN_Cx_START 1) = 7) && (t.dev.adc 1).running && (t.dev.adc 1).start) &&
     meets (conv id) [] (.adcTriggerSeen 7 1) (fun t => decide (t.dev = (conv id).dev)) &&
     meets (withRegs [(Reg.AN_Cx_CFG 1, 2)] s) [] (.adcTriggerSeen 0 1) (fun t => decide ((t.dev.adc 1).sent = [false] ∧ t.dev.regs = (withRegs [(Reg.AN_Cx_CFG 1, 2)] s).dev.regs)) &&
     meets (on (fun d => d.updAdc 1 (fun a => { a with calFrom := some 0 })) s) [] (.adcTriggerSeen 0 1) (fun t => decide (t.dev.rdN (Reg.AN_Cx_SKIP 1) = 1)) &&
     meets (on (fun d => d.updAdc 1 (fun a => { a with running := true })) s) [] (.adcTriggerSeen 0 1) (fun t => (t.dev.adc 1).pending && decide (t.dev.rdN Reg.AN_CNT_DESYNC = 1)) &&
     meets (on (fun d => d.updAdc 1 (fun a => { a with running := true, pending := true })) s) [] (.adcTriggerSeen 0 1)
       (fun t => decide (t.dev.rdN (Reg.AN_Cx_OVR 1) = 1) && t.dev.bit (Reg.AN_Cx_FAULT 1) 0)),
    (let s := conv id [(Reg.AN_COMMON, 1), (Reg.AN_COMMON_DELAY, 30), (Reg.AN_Cx_TRIG 1, 2), (Reg.AN_Cx_DELAY 1, 2 ^ 25 - 1)];
     meets (at_ 10 s) [] (.adcTriggerTick ⟨4, .event 0⟩) (fun t => decide (t.dev.ana.delay = some 40)) &&
     meets (withRegs [(Reg.AN_COMMON, 2 ^ 25 + 2)] (on (fun d => { d with ana := { d.ana with delay := some 40 } }) s)) [] (.adcTriggerTick ⟨4, .lace 0 0 0⟩)
       (fun t => decide (t.dev.rdN (Reg.AN_Cx_OVR 1) = 1 ∧ t.dev.ana.delay = some 40)) &&
     stays s [decide (s.dev.trigKind 0 = 0)] (.adcTriggerTick ⟨0, .event 0⟩) && stays (withRegs [(Reg.AN_COMMON, 2 ^ 25 + 1)] s) [] (.adcTriggerTick ⟨1, .lace 0 0 0⟩) &&
     meets s [] (.adcTriggerTick ⟨1, .lace 0 0 0⟩) (fun t => decide ((t.dev.adc 1).delay = some (2 ^ 25 - 1))) &&
     meets (on (fun d => d.updAdc 1 (fun a => { a with delay := some 5 })) s) [] (.adcTriggerTick ⟨1, .lace 0 0 0⟩) (fun t => decide (t.dev.rdN (Reg.AN_Cx_OVR 1) = 1)) &&
     meets (on (fun d => d.updAdc 1 (fun a => { a with out := true })) s) [] (.adcTriggerTick ⟨1, .lace 0 0 0⟩) (fun t => decide (t.dev.rdN (Reg.AN_Cx_SKIP 1) = 1)) &&
     meets (on (fun d => d.updAdc 1 (fun a => { a with delay := some 5, sent := [true] })) s) [] (.adcDelayEmit 1) (fun t => decide (t.clock.dtime = 5 ∧ (t.dev.adc 1).sent = [true, false])) &&
     meets (withRegs [(Reg.AN_COMMON, 2 ^ 25 + 2)] (on (fun d => { d with ana := { d.ana with delay := some 40 } }) s)) [] (.adcDelayEmit 4)
       (fun t => decide (t.clock.dtime = 40 ∧ (t.dev.adc 1).sent = [true] ∧ (t.dev.adc 2).sent = [])))] := by decide +kernel
/-- R276: an entry of K 3, N 1: two conversions settle the filter, and the third gives the result. -/
theorem witness_ConvertersTriggerConvertAndCalibrate_conversions : checks [
    (let s := conv (fun a => { a with running := true, start := true, items := [(1, 0), (1, 1)] });
     meets s [decide ((s.dev.adcEntry 1 0).keep = false)] (.adcConversionDone 100 1 1100 false) (fun t => decide (t.clock.dtime = 100 ∧ (t.dev.adc 1).count = 1 ∧ (t.dev.adc 1).sum = 0 ∧ t.dev.regs = s.dev.regs)) &&
     meets (on (fun d => d.updAdc 1 (fun a => { a with count := 2 })) s) [] (.adcConversionDone 100 1 1100 false) (fun t => decide ((t.dev.adc 1).items = [(1, 1)] ∧
       (t.dev.adc 1).queue.map (fun x => match x with | .pair o w c r => (o, w / 256, w / 16 % 16, w % 2, c, r) | .seqEnd => (9, 0, 0, 0, 0, false)) = [(1, 1000, 0, 1, 100, true)])) &&
     meets (withRegs [(Reg.AN_Cx_Ee_IN 1 0, 32768)] (on (fun d => d.updAdc 1 (fun a => { a with count := 2 })) s)) [] (.adcConversionDone 0 1 1100 false)
       (fun t => decide ((t.dev.adc 1).first = some 1000 ∧ (t.dev.adc 1).count = 0)) &&
     meets (conv id) [] (.adcConversionDone 3 1 0 false) (fun t => decide (t.dev = (conv id).dev)) &&
     meets s [] (.adcConverterFault 1 2) (fun t => (t.dev.adc 1).faulted && t.dev.bit (Reg.AN_Cx_FAULT 1) 2) &&
     meets fresh [] (.adcConverterFault 1 2) (fun t => logs t (uid 12 1 0) 3 3) &&
     stays (conv (fun a => { a with faulted := true })) [] (.adcConverterFault 1 0)),
    (let s := conv (fun a => { a with calFrom := some 5 });
     let m : List (BitVec 24 × BitVec 24) := [(1000, 7341032), (0, 6606029), (0, 6606028), (0, 8074035), (0, 8074036), (1048576, 8388608), (1048577, 8388608), (0, 7340032)];
     meets s [] (.adcCalibrationDone 1 m) (fun t => decide (t.clock.dtime = 88000005 ∧ (t.dev.adc 1).cals = 1 ∧ t.dev.rdN (Reg.AN_Cx_OFFg 1 0) = 1000) &&
       decide (t.dev.rdN (Reg.AN_Cx_FSg 1 0) = 2 ^ 22) && t.dev.bit (Reg.AN_Cx_FAULT 1) 3 && decide (t.dev.rdN (Reg.AN_Cx_FSg 1 7) = 2 ^ 22)))] := by decide +kernel
theorem witness_ConvertersTriggerConvertAndCalibrate_results : checks [
    (let s := conv (fun a => { a with queue := [.pair 1 0x12345601 77 true, .seqEnd] }) [(Reg.AN_Cx_WR 1, 4088), (Reg.AN_Cx_RD 1, 0)];
     meets s [] (.adcResultWrite 1) (fun t => decide (t.mem.frameNat 0x30FF8 4 = 0x12345601 ∧ t.mem.frameNat 0x30FFC 4 = 77 ∧ t.dev.rdN (Reg.AN_Cx_WR 1) = 0 ∧
       t.dev.rdN (Reg.AN_Cx_RD 1) = 8 ∧ t.dev.rdN (Reg.AN_Cx_LOST 1) = 1 ∧ (49, 0x12345601) ∈ events t ∧ (52, 1) ∈ events t)) &&
     stays (conv id) [decide ((conv id).dev.fab.held = [])] (.adcResultWrite 1) && stays (conv id) [] (.adcSequenceEnd 1)),
    (let s := at_ 60 (conv (fun a => { a with running := true, pending := true }));
     meets s [decide (s.dev.regs.swaps = [])] (.adcSequenceEnd 1) (fun t => decide (events t = [(52, 1)] ∧ (t.dev.adc 1).items = [(1, 0), (1, 1)] ∧ (t.dev.adc 1).seqs = 1 ∧ t.dev.rdN (Reg.AN_Cx_START 1) = 60)) &&
     meets (on (fun d => d.updAdc 1 (fun a => { a with pending := false })) s) [] (.adcSequenceEnd 1) (fun t => !(t.dev.adc 1).running) &&
     meets (withRegs [(Reg.AN_Cx_TRIG 1, 3)] (on (fun d => d.updAdc 1 (fun a => { a with pending := false })) s)) [] (.adcSequenceEnd 1) (fun t => (t.dev.adc 1).running)),
    (let s := on (fun d => { d with ana := { d.ana with extAt := some 8, intAt := some 9 } }) (conv (fun a => { a with calWanted := true }) [(Reg.AN_IEXn_CFG 1, 5 + 16 + 64 * 19)]);
     meets s [] (.adcReferenceReady true) (fun t => decide (t.clock.dtime = 8) && t.dev.bit Reg.AN_REF_STATUS 1) &&
     meets s [] (.adcReferenceReady false) (fun t => decide (t.clock.dtime = 9 ∧ (t.dev.adc 1).calFrom = some 9 ∧ (t.dev.adc 0).calFrom = none)) &&
     meets s [] (.externalReferenceLow true) (fun t => t.dev.bit Reg.AN_FAULT 0 && logs t (uid 12 4 5) 8 2) &&
     meets s [] (.externalReferenceLow false) (fun t => !t.dev.bit Reg.AN_REF_STATUS 2) &&
     meets s [] (.excitationAtCompliance 1 true) (fun t => decide (t.dev.ana.comply = [false, true]) && logs t (uid 12 5 2) 9 19) &&
     meets s [] (.excitationAtCompliance 0 false) (fun t => decide (t.dev.flt = s.dev.flt)))] := by decide +kernel

/-! ## Serial ports, execute-in-place, the slave port and the pins (R300 to R318) -/

/-- Port 1 on, its select bound, and changed so. -/
def serial (f : SerialPort → SerialPort) (l : List (Nat × Nat) := []) : State :=
  on (fun d => d.setPort 1 (f (d.port 1))) (withRegs ([(Reg.SP_Mn_CFG 1, 1), (Reg.SP_Mn_SEL 1, 1), (Reg.SP_Mn_LEN 1, 13)] ++ l))
/-- A full duplex transfer of 13 bits. -/
def bits13 : SpTransfer := ⟨13, 0, false, false, 0, 0, 0, 0, 0⟩
/-- The task of context 5 on core 2, at PC 0x100, changed so. -/
def task (f : TaskCtx → TaskCtx := id) (s : State := fresh) : State :=
  on (fun d => (d.setTctx 5 (f { TaskCtx.reset with state := .running, pc := 0x100, core := 2 })).updCore 2 (fun x => { x with ctx := some 5 })) s

theorem witness_SerialPortsSafeStopAndPins_starts : checks [
    (let s := serial id;
     meets s [s.dev.portOn 1] (.spStart 1 0) (fun t => decide ((t.dev.port 1).cur = some bits13 ∧ t.dev.regs = s.dev.regs) && (t.dev.port 1).select) &&
     meets (withRegs [(Reg.SP_Mn_LEN 1, 4096)] (serial (fun x => { x with cur := some bits13 }))) [] (.spStart 1 0x18)
       (fun t => decide ((t.dev.port 1).next = some ⟨4096, 2, true, false, 0, 0, 0, 0, 0⟩)) &&
     meets (withRegs [(Reg.SP_Mn_LEN 1, 4097)] s) [] (.spStart 1 0) (fun t => t.dev.bit (Reg.SP_Mn_FAULT 1) 6 && decide ((t.dev.port 1).cur = none)) &&
     meets s [] (.spStart 1 0x0C) (fun t => t.dev.bit (Reg.SP_Mn_FAULT 1) 6) && meets s [] (.spStart 0 0) (fun t => t.dev.bit (Reg.SP_Mn_FAULT 0) 6) &&
     meets (on (fun d => { d with xip := { d.xip with cont := true } }) (withRegs [(Reg.SP_Mn_CFG 0, 1), (Reg.SP_Mn_LEN 0, 8)] s)) [] (.spStart 0 0)
       (fun t => !t.dev.xip.cont && decide (t.dev.rdN Reg.SP_XIP_CNT_EXIT = 1))),
    (let s := serial (fun x => { x with tx := List.replicate 508 0, rx := [1, 2, 3, 4, 5] });
     meets s [] (.spTxWrite 1 0x04030201) (fun t => decide ((t.dev.port 1).tx.drop 508 = [1, 2, 3, 4])) &&
     meets (serial (fun x => { x with tx := List.replicate 509 0 })) [] (.spTxWrite 1 7) (fun t => t.dev.bit (Reg.SP_Mn_FAULT 1) 4 && decide ((t.dev.port 1).tx.length = 509)) &&
     meets s [] (.spRxRead 1) (fun t => decide ((t.dev.port 1).rx = [5])) && meets (serial id) [] (.spRxRead 1) (fun t => t.dev.bit (Reg.SP_Mn_FAULT 1) 5)),
    (let s := serial id;
     meets (on (fun d => d.setPort 1 { d.port 1 with next := some bits13 }) s) [] (.spAbort 1) (fun t => decide ((t.dev.port 1).next = none)) &&
     stays s [] (.spTransferComplete 1 []) && stays s [] (.spGuardStop 1 4) && stays (serial (fun x => { x with cur := some bits13 })) [] (.spByteResume 1) &&
     stays s [] (.spReadyTimeout 1) && stays s [] (.spStatusFirstRetry 1) && meets s [] (.spReadyChange 1 true) (fun t => (t.dev.port 1).ready))] := by decide +kernel
/-- R301: 13 bits are two bytes, of the second the five bits that were shifted. -/
theorem witness_SerialPortsSafeStopAndPins_transfers : checks [
    (let s := serial (fun x => { x with cur := some bits13, tx := [9, 9, 0, 0, 7], select := true });
     meets s [] (.spTransferComplete 1 [0xAB, 0xFF]) (fun t => decide ((t.dev.port 1).cur = none ∧ (t.dev.port 1).tx = [7] ∧ (t.dev.port 1).rx = [0xAB, 0xF8] ∧ events t = [(57, 0)])) &&
     meets (serial (fun x => { x with cur := some { bits13 with dir := 1 }, tx := [9] })) [] (.spTransferComplete 1 []) (fun t => decide ((t.dev.port 1).pause = .fifo ∧ events t = [])) &&
     meets s [] (.spAbort 1) (fun t => decide ((t.dev.port 1).tx.length = 1 ∧ events t = [(57, 1)] ∧ t.dev.rdN (Reg.SP_Mn_CNT_ABORT 1) = 1)) &&
     meets s [] (.spGuardStop 1 4) (fun t => t.dev.bit (Reg.SP_Mn_FAULT 1) 0 && logs t (uid 13 1 0) 1 4 && decide (events t = [(57, 1)]))),
    (let s := withRegs [(Reg.SP_Mn_SEL 1, 1 + 128 + 8192), (Reg.SP_Mn_TIMES 1, 3 + 65536 * 2)] (serial (fun x => { x with cur := some bits13, tx := [1, 2, 3, 4], ready := true, select := true }));
     meets (at_ 9 s) [decide (s.dev.sckTicks 1 = 4)] (.spReadyChange 1 false)
       (fun t => decide ((t.dev.port 1).pause = .ready 32 ∧ (t.dev.port 1).cur = some { bits13 with bit0 := 8, from_ := 32 })) &&
     meets (on (fun d => d.setPort 1 { d.port 1 with pause := .ready 9, ready := false }) s) [] (.spReadyTimeout 1)
       (fun t => decide (t.clock.dtime = 9 + 1536 ∧ events t = [(57, 2)]) && logs t (uid 13 1 0) 2 0) &&
     meets (at_ 20 (on (fun d => d.setPort 1 { d.port 1 with pause := .ready 9, ready := false }) s)) [] (.spReadyChange 1 true)
       (fun t => decide ((t.dev.port 1).pause = .none ∧ (t.dev.port 1).cur = some { bits13 with from_ := 26 })) &&
     meets (on (fun d => d.setPort 1 { d.port 1 with pause := .fifo, tx := [1] }) s) [] (.spByteResume 1) (fun t => decide ((t.dev.port 1).pause = .none)) &&
     meets (on (fun d => d.setPort 1 { d.port 1 with pause := .retry 70 }) s) [] (.spStatusFirstRetry 1)
       (fun t => decide (t.clock.dtime = 70 ∧ (t.dev.port 1).cur = some { bits13 with retries := 1, from_ := 70 } ∧ t.dev.rdN (Reg.SP_Mn_CNT_RETRY 1) = 1))),
    (let s := serial (fun x => { x with cur := some { bits13 with bits := 16, dir := 2 }, select := true }) [(Reg.SP_Mn_SF 1, 1 + 256 * 0x80 + 65536 * 0x80 + 2 ^ 24), (Reg.SP_Mn_TIMES 1, 65536 * 2)];
     meets s [] (.spTransferComplete 1 [0x80, 0]) (fun t => decide ((t.dev.port 1).pause = .retry 1024) && !(t.dev.port 1).select) &&
     meets (on (fun d => d.setPort 1 { d.port 1 with cur := some { bits13 with bits := 16, dir := 2, retries := 1 } }) s) [] (.spTransferComplete 1 [0x80, 0])
       (fun t => logs t (uid 13 1 0) 3 0x80 && decide (events t = [(57, 2)])))] := by decide +kernel
theorem witness_SerialPortsSafeStopAndPins_calm : ∀ e, ((task).dev.tctx e).state ≠ .ready := getAll (fun (x : TaskCtx) => x.state ≠ .ready) _ _ (by decide) (by decide +kernel)
theorem witness_SerialPortsSafeStopAndPins_xip : checks [
    (let s := on (fun d => { d with xip := ⟨[(4, []), (9, [7])], none, false, []⟩ }) (withRegs [(Reg.SP_XIP_CFG, 1 + 2 ^ 24 * 16), (Reg.SP_XIP_OFF, 64)] task);
     meets s [decide (s.dev.fab.held = []), decide (s.dev.runs 2 = some 5)] (.xipFetch 2 512) (fun t => decide (t.dev.xip.lines = [(9, [7]), (4, [])])) &&
     meets s [] (.xipFetch 2 65471) (fun t => decide (t.dev.rdN Reg.SP_XIP_CNT_MISS = 1 ∧ t.dev.xip.cur = some (1023, false))) &&
     meets s [decide ((s.dev.core 2).locks = []), decide ((s.dev.tctx 5).pendAt = none)] (.xipFetch 2 65472)
       (fun t => decide ((t.dev.tctx 5).state = .faulted) && t.dev.bit (Reg.SP_Mn_FAULT 0) 3) &&
     stays s [] (.xipFetch 0 0) && meets s [] .xipInvalidate (fun t => decide (t.dev.xip.lines = [])) && stays s [] (.xipLineFillDone []) &&
     meets (on (fun d => { d with xip := { d.xip with cur := some (8, false) } }) s) [] (.xipLineFillDone (List.replicate 64 1))
       (fun t => decide (t.dev.xip.lines.map Prod.fst = [8, 4, 9] ∧ t.dev.xip.cur = none)) &&
     meets (on (fun d => { d with xip := { d.xip with cur := some (5, false) } }) s) [] (.xipLineFillDone (List.replicate 64 1))
       (fun t => decide (t.dev.xip.cur = some (6, true))) &&
     meets (on (fun d => { d with xip := { d.xip with cur := some (8, false), wait := [(20, false)] } }) s) [] (.xipLineFillDone (List.replicate 64 1))
       (fun t => decide (t.dev.xip.cur = some (20, false) ∧ t.dev.xip.wait = [])) &&
     meets (on (fun d => { d.setPort 0 { d.port 0 with next := some bits13 } with xip := { d.xip with cur := some (8, false) } }) s) [] (.xipLineFillDone (List.replicate 64 1))
       (fun t => decide (t.dev.xip.cur = none ∧ (t.dev.port 0).cur = some bits13)) &&
     meets (on (fun d => d.setPort 0 { d.port 0 with cur := some bits13 }) s) [] (.xipFetch 2 1000) (fun t => decide (t.dev.xip.wait = [(16, false)] ∧ t.dev.xip.cur = none)) &&
     meets (on (fun d => d.setPort 0 { d.port 0 with next := some bits13 }) s) [] (.xipFetch 2 1000)
       (fun t => decide (t.dev.xip.wait = [(16, false)] ∧ (t.dev.port 0).cur = some bits13)) &&
     meets (on (fun d => { d with xip := { d.xip with cur := some (8, false) } }) s) [] (.xipFetch 2 1000) (fun t => decide (t.dev.xip.wait = [(16, false)] ∧ t.dev.rdN Reg.SP_XIP_CNT_MISS = 1)) &&
     stays (on (fun d => { d with xip := { d.xip with cur := some (16, false) } }) s) [] (.xipFetch 2 1000) &&
     meets (on (fun d => { d with xip := { d.xip with cur := some (8, true) } }) (withRegs [(Reg.SP_Mn_CFG 0, 1), (Reg.SP_Mn_LEN 0, 8)] s)) [] (.spStart 0 0)
       (fun t => decide ((t.dev.port 0).next.isSome ∧ (t.dev.port 0).cur = none)))] := by decide +kernel
theorem witness_SerialPortsSafeStopAndPins_next : checks [
    (let s := on (fun d => { d with xip := { d.xip with wait := [(20, false)] } }) (withRegs [(Reg.SP_Mn_CFG 0, 1)]
       (on (fun d => d.setPort 0 { d.port 0 with cur := some { bits13 with dir := 2 }, next := some bits13 })));
     meets s [] (.spTransferComplete 0 [1, 2]) (fun t => decide (t.dev.xip.cur = some (20, false) ∧ (t.dev.port 0).cur = none)) &&
     meets (on (fun d => { d with xip := { d.xip with wait := [] } }) s) [] (.spTransferComplete 0 [1, 2]) (fun t => decide ((t.dev.port 0).cur = some bits13)))] := by
  decide +kernel
/-- The slave port on, MISO released, with the key of the example line. -/
def slave (f : SpsPort → SpsPort) : State :=
  on (fun d => { d.updPw (fun p => { p with rel1 := 2 ^ 24 }) with sps := f { d.sps with mirror := 1 :: List.replicate 23 0 } }) (withRegs [(Reg.HX_FEAT_ACTIVEw 0, 0x3EBF), (Reg.SP_SPS_CFG, 3), (Reg.SP_SPS_KEY, 0x5A3C), (Reg.VB_CFG 3, 1)])
theorem witness_SerialPortsSafeStopAndPins_noShutter : noShutter (slave id).dev := noShutter_of _ (by decide +kernel)
/-- R314, "On the example line": status bytes 0x83, 0x93, 0xA3, and the window of 1 ms from the select release at 1.28 µs. -/
theorem witness_SerialPortsSafeStopAndPins_slave : checks [
    (let s := slave id;
     meets s [s.dev.feature 11] .spsSelectFall (fun t => decide (t.dev.sps.status = 0x83 ∧ t.dev.fld Reg.SP_SPS_STATUS 7 0 = 0x83) && t.dev.sps.select) &&
     meets (slave (fun x => { x with armed := some 400512 })) [] .spsSelectFall (fun t => decide (t.dev.sps.status = 0x93)) &&
     meets (on (fun d => { d with safe := true }) s) [] .spsSelectFall (fun t => decide (t.dev.sps.status = 0xA3)) && stays (withRegs [(Reg.SP_SPS_CFG, 2)] s) [] .spsSelectFall &&
     stays s [] (.spsArm 0 0x5A3C) && stays s [] (.spsStatus 2) && stays s [] .spsArmExpire),
    (let s := slave (fun x => { x with select := true, status := 0x83 });
     meets (at_ 512 s) [] (.spsArm 0 0x5A3C) (fun t => decide (t.dev.sps.armed = some 400512 ∧ t.dev.sent = [.sps [0x83, 0x83, 0, 0]] ∧ (60, 0x21) ∈ events t)) &&
     meets s [] (.spsArm 3 0x5A3D) (fun t => decide (t.dev.sps.armed = none ∧ t.dev.rdN Reg.SP_SPS_CNT_KEY = 1 ∧ t.dev.rdN Reg.SP_SPS_CNT_LONG = 1)) &&
     meets s [] (.spsStatus 0) (fun t => decide (t.dev.sent = [.sps [0x83, 0x83, 1, 0, 0, 0, 0, 0, 0, 0]])) &&
     meets s [decide (s.dev.flt.log = [])] (.spsFault 0) (fun t => decide (t.dev.sent = [.sps ([0x83, 0x83] ++ List.replicate 16 0)])) &&
     meets s [] (.spsStop 0 0x5A3C) (fun t => !t.dev.safe && decide (t.dev.vb = s.dev.vb)) &&
     meets s [] (.spsMalformed ⟨1, 3⟩ 0x21) (fun t => decide (t.dev.rdN Reg.SP_SPS_CNT_SHORT = 1) && t.dev.sps.error && logs t (uid 13 4 0) 5 (0x21 + 512)) &&
     meets (withRegs [(Reg.HX_FEAT_ACTIVEw 0, 0)] s) [] (.spsStop 0 0x5A3C) (fun t => decide (t.dev.rdN Reg.SP_SPS_CNT_BADCMD = 1))),
    (let s := slave (fun x => { x with select := true, status := 0x93, armed := some 400512 });
     meets s [s.dev.vbOn 3] (.spsStop 0 0x5A3C) (fun t => t.dev.safe && decide ((t.dev.bank 3).state = 3 ∧ t.dev.sps.armed = none) && t.dev.bit Reg.SP_SPS_FAULT 1) &&
     meets s [] (.spsStop 0 1) (fun t => !t.dev.safe && decide (t.dev.sps.armed = none ∧ t.dev.rdN Reg.SP_SPS_CNT_KEY = 1)) &&
     meets s [] .spsArmExpire (fun t => decide (t.clock.dtime = 400512 ∧ t.dev.sps.armed = none)) &&
     meets (on (fun d => { d with safe := true }) s) [] .safeStopClear (fun t => !t.dev.safe))] := by decide +kernel
/-- SPS_IDENT answers with what the fuses hold, whatever it is. -/
theorem witness_SerialPortsSafeStopAndPins_ident : (slave (fun x => { x with select := true })).dev.sps.select = true := by decide +kernel
theorem witness_SerialPortsSafeStopAndPins_pins : checks [
    (let s := withRegs [(Reg.SP_Mn_CFG 1, 1), (Reg.SP_Mn_SEL 1, 1 + 2 * 7), (Reg.GP_OUT, 2)];
     meets s [decide (s.dev.pinOwner 7 = 2)] (.gpSet 0x81) (fun t => decide (t.dev.rdN Reg.GP_OUT = 3 ∧ t.dev.rdN Reg.GP_CNT_DENY = 1)) &&
     meets s [] (.gpClr 3) (fun t => decide (t.dev.rdN Reg.GP_OUT = 0 ∧ t.dev.rdN Reg.GP_CNT_DENY = 0))),
    (let s := withRegs [(Reg.GP_Pp_CFG 19, 4 + 16 + 32 * 9 + 4096 * 3)];
     meets s [] (.gpInputEdge 19 true 3) (fun t => t.dev.bit Reg.GP_IN 19 && t.dev.bit Reg.GP_EDGE 19 && decide (events t = [(105, 19)])) &&
     stays s [] (.gpInputEdge 19 true 2) && stays s [] (.gpInputEdge 19 false 3) &&
     meets (withRegs [(Reg.GP_IN, 2 ^ 19)] s) [] (.gpInputEdge 19 false 3) (fun t => !t.dev.bit Reg.GP_IN 19 && decide (t.dev.rdN Reg.GP_EDGE = 0 ∧ events t = [])))] := by decide +kernel
/-- R311, R436, R463: MISO drives while released and selected; FLT_N is low while a fault is active and not held. -/
theorem test_pins_drive :
    (slave id).dev.misoDrive = .highZ ∧ (slave (fun x => { x with select := true })).dev.misoDrive = .shifts ∧ (on (fun d => { d with sps := { d.sps with select := true } })).dev.misoDrive = .highZ ∧
      (on (fun d => { d.updPw (fun p => { p with rel1 := 2 ^ 25 }) with flt := { d.flt with active := true } })).dev.fltDrive = .level false := by decide +kernel

/-! ## The task cores' instructions (R322 to R352) -/

/-- g1 to g4 of the task, in this order; g5 on hold 0. -/
def regs (a b : Word) (c : Word := 0) (e : Word := 0) (x : TaskCtx) : TaskCtx := (((x.setReg 1 a).setReg 2 b).setReg 3 c).setReg 4 e
/-- N, Z, C, V and SATN. -/
def flags (t : State) : Bool × Bool × Bool × Bool × Nat := let f := (t.dev.tctx 5).flg; (f.n, f.z, f.c, f.v, f.satn.toNat)
/-- The instruction, with A in g1 and B in g2, and all flags set, puts v into g3, gives these flags and moves on. -/
def gives (a b : Word) (i : Instr) (v : Word) (n z c o : Bool) (satn : Nat := 65534) : Bool :=
  meets (task (fun x => { regs a b 7 0 x with flg := ⟨true, true, true, true, 65534⟩ })) [] i
    (fun t => decide ((t.dev.tctx 5).reg 3 = v ∧ (t.dev.tctx 5).pc = 0x104 ∧ flags t = (n, z, c, o, satn) ∧ (t.dev.tctx 5).reg 1 = a))
/-- Context 5 of core 2 takes the task fault of a code and detail. -/
def faults (s : State) (i : Instr) (code hi : Nat) (faddr : Word) : Bool :=
  meets s [decide (s.dev.runs 2 = some 5), decide ((s.dev.core 2).locks = []), decide (s.dev.fab.held = []), decide ((s.dev.tctx 5).pendAt = none)] i
    (fun t => decide ((t.dev.tctx 5).state = .faulted ∧ (t.dev.tctx 5).fpc = (s.dev.tctx 5).pc ∧ (t.dev.tctx 5).faddr = faddr ∧ (t.dev.core 2).ctx = none) &&
      logs t (uid 2 2 0) code (5 + hi % 65536 * 65536))
/-- A running task, before its instruction: what `issues` asks. -/
theorem witness_issues : issues task 2 5 := by
  refine ⟨by decide +kernel, by decide +kernel, by decide +kernel, by decide +kernel⟩
/-- Nothing else stirs: what `calmTask` asks. -/
theorem witness_calm : calmTask task 2 5 := by
  refine ⟨witness_issues, by decide +kernel, by decide +kernel, witness_SerialPortsSafeStopAndPins_calm, by decide +kernel⟩
/-- Frame memory is quiet while no core holds a lock. -/
theorem witness_quiet : quietMemory task.dev := by
  refine ⟨by decide +kernel, fun b => ?_, by decide +kernel, by decide +kernel, by decide +kernel⟩
  have h : ∀ k, (task.dev.core k).locks = [] := getAll (fun (x : Core) => x.locks = []) _ _ (by decide) (by decide +kernel)
  simp [Dev.lockOwner, h]

theorem witness_AluResultsAndFlags : checks [
    gives 5 7 (.and 2 3 1 2) 5 false false true true && gives 5 10 (.or 2 3 1 2) 15 false false true true && gives 5 5 (.xor 2 3 1 2) 0 false true true true,
    gives 5 0 (.andi 2 3 1 0x3FFFF) 5 false false true true && gives 0 0 (.ori 2 3 1 0x20000) 0x20000 false false true true && gives 5 0 (.xori 2 3 1 5) 0 false true true true,
    gives 1 31 (.shl 2 3 1 2 0) 0x80000000 true false true true && gives 0x80000000 0 (.shr 2 3 1 0 31) 1 false false true true &&
      gives 0x80000000 33 (.sar 2 3 1 2 0) 0xC0000000 true false true true,
    gives 0xFFFFFFFF 0xFFFFFFFF (.mul 2 3 1 2) 1 false false true true && gives 0xFFFFFFFF 0xFFFFFFFF (.mulh 2 3 1 2) 0 false true true true &&
      gives 0xFFFFFFFF 0xFFFFFFFF (.mulhu 2 3 1 2) 0xFFFFFFFE true false true true,
    gives 0x80000000 1 (.min 2 3 1 2) 0x80000000 true false true true && gives 0x80000000 1 (.max 2 3 1 2) 1 false false true true &&
      gives 0x80000000 1 (.minu 2 3 1 2) 1 false false true true && gives 0x80000000 1 (.maxu 2 3 1 2) 0x80000000 true false true true,
    gives 0x7FFFFFFF 1 (.add 2 3 1 2) 0x80000000 true false false true && gives 0xFFFFFFFF 1 (.add 2 3 1 2) 0 false true true false &&
      gives 0xFFFFFFFF 0 (.adc 2 3 1 2) 0 false true true false && gives 1 0 (.addi 2 3 1 0x3FFFF) 0 false true true false,
    gives 0x80000000 1 (.sub 2 3 1 2) 0x7FFFFFFF false false false true && gives 0 1 (.sub 2 3 1 2) 0xFFFFFFFF true false true false && gives 1 1 (.sbc 2 3 1 2) 0xFFFFFFFF true false true false,
    gives 0 0 (.clz 2 3 1) 32 false false true true && gives 0x80000000 0 (.clz 2 3 1) 0 false true true true && gives 0 0 (.lui 2 3 0x3FFFFF) 0xFFFFFC00 true true true true,
    meets (task (regs 5 7)) [] (.add 2 0 1 2) (fun t => decide ((t.dev.tctx 5).reg 0 = 0 ∧ flags t = (false, false, false, false, 0)))] := by decide +kernel
/-- R331's example of QMUL; R330: SATU with sh 13 clamps to 14 bits. -/
theorem witness_AluClampsToItsLimits : checks [
    gives 1223393 16998 (.qmul 2 3 1 2 14) 1269240 false false true false && gives 0x80000000 0x80000000 (.qmul 2 3 1 2 0) 0x7FFFFFFF false false true true 65535 &&
      gives 0xFFFFFFFF 0xFFFFFFFF (.qmulu 2 3 1 2 31) 0xFFFFFFFF true false true true 65535 && gives 3 1 (.qmulu 2 3 1 2 1) 2 false false true false,
    gives 0x7FFFFFFF 1 (.adds 2 3 1 2) 0x7FFFFFFF false false true true 65535 && gives 0x80000000 1 (.subs 2 3 1 2) 0x80000000 true false true true 65535 &&
      gives 5 5 (.subs 2 3 1 2) 0 false true true false,
    gives 16384 0 (.satu 2 3 1 13) 16383 false false true true 65535 && gives 0xFFFFFFFF 0 (.satu 2 3 1 13) 0 false true true true 65535 &&
      gives 16383 0 (.satu 2 3 1 13) 16383 false false true false && gives 8192 0 (.sats 2 3 1 13) 8191 false false true true 65535 &&
      gives 0xFFFFE000 0 (.sats 2 3 1 13) 0xFFFFE000 true false true false] := by decide +kernel
theorem witness_DivisionAndItsCorners : checks [
    gives 0 0 (.div 2 3 1 2) 0x7FFFFFFF false false true true 65535 && gives 0xFFFFFFFF 0 (.div 2 3 1 2) 0x80000000 true false true true 65535,
    gives 0x80000000 0xFFFFFFFF (.div 2 3 1 2) 0x7FFFFFFF false false true true 65535 && gives 0xFFFFFFF9 2 (.div 2 3 1 2) 0xFFFFFFFD true false true false,
    gives 7 0 (.divu 2 3 1 2) 0xFFFFFFFF true false true true 65535 && gives 0xFFFFFFF9 2 (.divu 2 3 1 2) 0x7FFFFFFC false false true false] := by decide +kernel

/-- The task with these flags, before a branch of 8 instructions back. -/
def branches (n z c v : Bool) (cond : Fin 16) (takes : Bool) : Bool :=
  meets (task (fun x => { x with flg := ⟨n, z, c, v, 0⟩ })) [] (.br 2 cond 0x3FFFF8) (fun t => decide ((t.dev.tctx 5).pc = if takes then 0xE0 else 0x104))
theorem witness_BranchesSysAndTraps : checks [
    branches false false false false 0 true && branches false true false false 1 true && branches false false true false 2 true && branches true false false false 3 true &&
      branches false false false true 4 true && branches false false false false 5 true && branches false true false false 5 false && branches true false false false 6 true &&
      branches true false false true 6 false && branches false false false true 7 true && branches false true false false 9 false && branches false false true false 10 false &&
      branches true false false false 11 false && branches false false false true 12 false && branches false true false false 13 true && branches true false false true 14 true &&
      branches false false false false 15 true && branches true false false false 15 false,
    (let s := task (regs 0x200 0);
     meets s [] (.bl 2 0x3FFFFFF) (fun t => decide ((t.dev.tctx 5).pc = 0xFC ∧ (t.dev.tctx 5).reg 15 = 0x104)) &&
     meets s [] (.jalr 2 1 1 0x3FFFC) (fun t => decide ((t.dev.tctx 5).pc = 0x1FC ∧ (t.dev.tctx 5).reg 1 = 0x104)) &&
     meets s [] (.jalr 2 0 1 0) (fun t => decide ((t.dev.tctx 5).pc = 0x200 ∧ (t.dev.tctx 5).reg 0 = 0)) &&
     meets s [] (.nop 2) (fun t => decide ((t.dev.tctx 5).pc = 0x104)) && meets s [] (.sync 2) (fun t => decide ((t.dev.tctx 5).pc = 0x104)) &&
     meets s [] (.yield 2) (fun t => decide ((t.dev.tctx 5).pc = 0x104)) && meets s [] (.halt 2) (fun t => decide ((t.dev.tctx 5).state = .idle ∧ (t.dev.core 2).ctx = none)) &&
     meets s [] (.fetchFault 2 false) (fun t => decide (t.dev = s.dev))),
    faults task (.br 2 8 0) 0x101 0x13 0 && faults task (.trap 2 0xBEEF) 0x10B 0xBEEF 0 && faults task (.illegalInstruction 2 0x3F) 0x101 0x3F 0 && faults task (.fetchFault 2 true) 0x102 0x40 0,
    faults (task (fun x => { x with pc := 0x40000 })) (.nop 2) 0x102 0x10000 0 && faults (task (fun x => { x with refused := some (0xC0020, true) })) (.nop 2) 0x105 0xC0020 0xC0020] := by decide +kernel
theorem witness_SpecialRegisters : checks [
    (let s := at_ (2 ^ 32 + 5) (task (fun x => { regs 0xFFFF000A 0 7 0 x with evg := 4, evm := 6, evp := 3, last := 9, dln := 2 ^ 33, tmo := 8, fpc := 0x44, flg := ⟨false, true, false, true, 3⟩ }));
     let reads := fun (i : Fin 32) (v : Word) => meets s [decide (s.dev.coreOf 5 = some 2)] (.mfs 2 3 i) (fun t => decide ((t.dev.tctx 5).reg 3 = v));
     reads 0 0x2005 && reads 1 0 && reads 3 8 && reads 4 4 && reads 5 6 && reads 6 3 && reads 10 5 && reads 11 1 && reads 2 2 && reads 13 0 && reads 15 0x3000A && reads 16 0 && reads 17 0x44 &&
     reads 14 0xFFFFFFFF &&
     meets s [] (.mfs 2 3 10) (fun t => decide (t.dev.heldOf (.core 2) = some 1)) &&
     meets s [] (.mts 2 15 1) (fun t => decide (flags t = (false, true, false, true, 65535))) && meets s [] (.mts 2 4 1) (fun t => decide ((t.dev.tctx 5).evg = 2 ∧ (t.dev.tctx 5).evp = 0)) &&
     meets s [] (.mts 2 5 1) (fun t => decide ((t.dev.tctx 5).evm = 0xFFFF000A ∧ (t.dev.tctx 5).evp = 2)) && meets s [] (.mts 2 3 1) (fun t => decide ((t.dev.tctx 5).tmo = 0xFFFF000A))),
    (let s := at_ 40 (on (fun d => d.updCore 2 (fun x => { x with locks := [⟨3, 9, 0, 17, [], 0⟩] })) task);
     meets s [] (.mfs 2 3 16) (fun t => decide ((t.dev.tctx 5).reg 3 = 1 + 16 * 9 + 256 * 17 + 65536 * 150))),
    faults task (.mfs 2 3 19) 0x101 7 0 && faults task (.mts 2 0 1) 0x101 8 0 && faults task (.mts 2 31 1) 0x101 8 0] := by decide +kernel

/-- The task with an address in g1 and a word in g2, over these writes to memory. -/
def loads (a b : Word) (w : List MemWrite) : State := { task (regs a b) with mem := fresh.mem.writes w }
theorem witness_LoadsReadTheirSpace : checks [
    (let s := loads 0x3FFF0 0 (locWrites (2 * 0x40000 + 0x3FFFC) 4 0x80818283);
     let reads := fun (i : Instr) (v : Word) => meets s [] i (fun t => decide ((t.dev.tctx 5).reg 3 = v ∧ (t.dev.tctx 5).pc = 0x104));
     reads (.ldw 2 3 1 12 false) 0x80818283 && reads (.ldh 2 3 1 14 false) 0xFFFF8081 && reads (.ldhu 2 3 1 14 false) 0x8081 && reads (.ldb 2 3 1 15 false) 0xFFFFFF80 && reads (.ldbu 2 3 1 15 false) 0x80),
    (let s := loads 0x13000000 0 (frameWrites 0x2FFFFFC 4 0x01020304);
     meets s [!s.dev.poisoned 0x2FFFFFC 4] (.ldw 2 3 1 0x3FFFC false) (fun t => decide ((t.dev.tctx 5).reg 3 = 0x01020304)) && meets s [] (.ldb 2 3 1 0x3FFFF false) (fun t => decide ((t.dev.tctx 5).reg 3 = 1))),
    (let s := on (fun d => { d with xip := ⟨[(2, List.replicate 60 0 ++ [1, 2, 3, 4])], none, false, []⟩ }) (withRegs [(Reg.SP_XIP_CFG, 1 + 2 ^ 24 * 16)] (loads 0x40000000 0 []));
     meets s [decide (s.dev.xipByte 0xBC = some 0xBC)] (.ldw 2 3 1 0xBC false) (fun t => decide ((t.dev.tctx 5).reg 3 = 0x04030201)) &&
     meets s [] (.ldw 2 3 1 0xC0 false) (fun t => decide ((t.dev.tctx 5).pc = 0x100 ∧ t.dev.xip.cur = some (3, false) ∧ t.dev.rdN Reg.SP_XIP_CNT_MISS = 1)))] := by decide +kernel
theorem witness_StoresWriteTheirBytes : checks [
    (let s := loads 0x3FFFC 0x11223344 [];
     meets s [] (.stw 2 2 1 0) (fun t => decide (t.mem.locNat (2 * 0x40000 + 0x3FFFC) 4 = 0x11223344 ∧ t.mem.loc.length = 4)) &&
     meets s [] (.sth 2 2 1 2) (fun t => decide (t.mem.locNat (2 * 0x40000 + 0x3FFFE) 2 = 0x3344 ∧ t.mem.loc.length = 2)) && meets s [] (.stb 2 2 1 3) (fun t => decide (t.mem.locNat (2 * 0x40000 + 0x3FFFF) 1 = 0x44 ∧ t.mem.loc.length = 1))),
    (let s := loads 0x10000000 0x11223344 [];
     meets s [] (.stw 2 2 1 8) (fun t => decide (t.mem.frameNat 8 4 = 0x11223344 ∧ t.mem.frame.length = 4)) && meets s [] (.stb 2 2 1 9) (fun t => decide (t.mem.frameNat 9 1 = 0x44 ∧ t.mem.frame.length = 1))),
    (let s := loads 0xC0410 0x11223344 [];
     meets (withRegs [(Reg.GP_IN, 0x801)] s) [] (.dld 2 3 1 0x3FFF0) (fun t => decide ((t.dev.tctx 5).reg 3 = 0x801 ∧ (t.dev.tctx 5).pc = 0x104)) &&
     meets (withRegs [(Reg.GP_OUT, 0x800)] s) [!s.dev.swapBusy 0xC0408] (.dst 2 2 1 0x3FFF8) (fun t => decide (t.dev.rdN Reg.GP_OUT = 0x800 ||| (0x11223344 % 2 ^ 20) ∧ (t.dev.tctx 5).pc = 0x104)) &&
     (let s := on (fun d => { d with regs := { d.regs with swaps := [⟨.gpio, .now, 0⟩] } }) s;
      meets s [s.dev.swapBusy (Reg.GP_Pp_CFG 4 + 0x800)] (.dst 2 2 1 0x900) (fun t => decide ((t.dev.tctx 5).refused = some (0xC0D10, false)))) &&
     meets (task (fun x => { x with refused := some (0xC0D10, false) })) [] (.dstRefused 5) (fun t => decide ((t.dev.tctx 5).refused = some (0xC0D10, true))))] := by decide +kernel
theorem witness_AccessesThatFault : checks [
    faults (loads 0x10000002 0 []) (.ldw 2 3 1 0 false) 0x103 2 0x10000002 && faults (loads 0x3FFFE 0 []) (.stw 2 3 1 0) 0x103 0xFFFE 0x3FFFE && faults (loads 1 0 []) (.ldhu 2 3 1 0 true) 0x103 1 1,
    faults (loads 0x40000 0 []) (.ldw 2 3 1 0 false) 0x104 0 0x40000 && faults (loads 0x13000001 0 []) (.stb 2 3 1 0) 0x104 1 0x13000001 && faults (loads 0x43FFFFFF 0 []) (.sth 2 3 1 0) 0x104 0xFFFF 0x43FFFFFF &&
      faults (loads 0x44000001 0 []) (.ldh 2 3 1 0 false) 0x104 1 0x44000001,
    faults (loads 4 0 []) (.ldb 2 3 1 0 true) 0x106 4 4 && meets (loads 0x10000004 0 []) [] (.ldw 2 3 1 0 true) (fun t => decide ((t.dev.tctx 5).state = .faulted ∧ (t.dev.tctx 5).faddr = 0x10000004 ∧ t.dev.rdN Reg.FB_CNT_UE = 1)),
    faults (loads 0x100000 0 []) (.dld 2 3 1 0) 0x105 0 0x100000 && faults (loads 0xC0402 0 []) (.dst 2 3 1 0) 0x105 0x402 0xC0402] := by decide +kernel

/-- The task that holds a lock of bank 3. -/
def locked (l : Lock) (a : Word := 0x10900004) : State := on (fun d => d.updCore 2 (fun x => { x with locks := [l] })) (loads a 0xAABBCCDD [])
theorem witness_LockedSequences : checks [
    (let s := withRegs [(Reg.FB_LKRANK0, 0x76543210)] (loads 0x10900004 0 []);
     meets s [decide (s.dev.bankRank 3 = 3), decide (s.dev.lockOwner 3 = none)] (.lock 2 3 1 3) (fun t => decide ((t.dev.tctx 5).reg 3 = 0 ∧ (t.dev.core 2).locks = [⟨3, 3, 0, 0, [], 0⟩]) && (t.dev.tctx 5).flg.z) &&
     meets (on (fun d => d.updFab (fun f => { f with abandoned := [3] })) s) [] (.lock 2 3 1 3) (fun t => decide ((t.dev.tctx 5).reg 3 = 1 ∧ t.dev.fab.abandoned = [])) &&
     meets (on (fun d => d.updCore 0 (fun x => { x with locks := [⟨3, 3, 0, 0, [], 0⟩] })) s) [] (.lock 2 3 1 3)
       (fun t => decide ((t.dev.tctx 5).wait = .lock 3 3 3 ∧ (t.dev.tctx 5).state = .suspended) && stays t [] (.lockGrant 2)) &&
     (let g := on (fun d => (d.updTctx 5 (fun x => { x with wait := .lock 3 3 3, state := .suspended })).updFab (fun f => { f with waiters := [2], abandoned := [3] })) s;
      meets g [decide (g.dev.lockWaitsFor 2 = some 3), decide (g.dev.lockOwner 3 = none), decide ((g.dev.core 2).ctx = some 5)] (.lockGrant 2)
        (fun t => decide ((t.dev.tctx 5).state = .running ∧ (t.dev.tctx 5).reg 3 = 1 ∧ (t.dev.tctx 5).pc = 0x104 ∧ (t.dev.core 2).locks = [⟨3, 3, 0, 0, [], 0⟩] ∧
          t.dev.fab.waiters = [] ∧ t.dev.rdN Reg.FB_CNT_LOCK = 1) && (t.dev.tctx 5).flg.z) && stays g [decide (g.dev.lockWaitsFor 1 = none)] (.lockGrant 1) &&
      stays (on (fun d => d.updFab (fun f => { f with waiters := [0, 2] })) (on (fun d => (d.updTctx 6 (fun x => { x with wait := .lock 1 3 3 })).updCore 0 (fun x => { x with ctx := some 6 })) g)) [] (.lockGrant 2)) &&
     faults s (.lock 2 3 1 4) 0x107 4 0 && faults s (.unlock 2 3) 0x109 0 0 && faults (loads 0xFFFFFFF 0 []) (.lock 2 3 1 4) 0x104 0xFFFF 0xFFFFFFF),
    (let s := locked ⟨3, 3, 0, 15, [], 0⟩;
     meets s [] (.stw 2 2 1 0) (fun t => decide ((t.dev.core 2).locks = [⟨3, 3, 0, 16, [(0x900004, 4, 0xAABBCCDD)], 0⟩] ∧ t.mem = s.mem)) &&
     meets (locked ⟨3, 3, 0, 1, [(0x900004, 4, 77)], 0⟩) [] (.ldw 2 3 1 0 false) (fun t => decide ((t.dev.tctx 5).reg 3 = 77)) &&
     meets (locked ⟨3, 3, 0, 1, [(0x900004, 4, 77)], 0⟩) [] (.unlock 2 3) (fun t => decide (t.mem.frameNat 0x900004 4 = 77 ∧ (t.dev.core 2).locks = [] ∧ (t.dev.tctx 5).reg 3 = 0)) &&
     meets (locked ⟨3, 3, 0, 1, [], 2⟩) [] (.unlock 2 3) (fun t => decide ((t.dev.tctx 5).reg 3 = 2 ∧ t.mem = s.mem) && !(t.dev.tctx 5).flg.z)),
    (let s := locked ⟨3, 3, 0, 1, [(0x900004, 4, 77)], 0⟩;
     meets s [s.clock.drive] (.lockLimitBreak 2) (fun t => decide (t.clock.dtime = 69 ∧ (t.dev.core 2).locks = [⟨3, 3, 0, 1, [], 2⟩] ∧ t.dev.rdN Reg.FB_CNT_BREAK = 1)) &&
     meets s [] (.lockPreempt 3 false) (fun t => decide ((t.dev.core 2).locks = [⟨3, 3, 0, 1, [], 1⟩] ∧ t.mem = s.mem)))] := by decide +kernel

/-- The task with an ENACT identifier in g1, its shadow copies written so. -/
def enacts (id : Nat) (l : List (Nat × Word)) : State := on (fun d => l.foldl (fun (d : Dev) x => d.swr x.1 x.2) d) (loads (BitVec.ofNat 32 id) 0 [])
/-- ENACT of the set at a kind and n answers a status. -/
def answers (s : State) (kind n : Fin 8) (st : Nat) : Bool := meets s [] (.enact 2 3 1 kind n) (fun t => decide (((t.dev.tctx 5).reg 3).toNat % 65536 = st) && (t.dev.tctx 5).flg.z == decide (st = 0))
theorem witness_EnactAnswersInOrder : checks [
    (let e := uid 11 1 0;
     answers (enacts (uid 11 1 0) []) 4 0 0 && answers (enacts e []) 4 1 2 && answers (enacts e []) 0 0 2 && answers (enacts (uid 11 17 0) []) 4 0 7 && answers (enacts e [(Reg.WP_ENCn_CFG 0, 3)]) 4 0 5 &&
     answers (enacts (uid 6 0 0) [(Reg.LT_HDh_CFG 2, 2)]) 4 0 4 && answers (enacts (uid 7 0 0) [(Reg.WM_Hh_CFG 2, 1)]) 4 0 3 &&
     answers (on (fun d => { d with regs := { d.regs with swaps := [⟨.wp 1, .gap, 0⟩] } }) (enacts e [])) 4 0 1),
    (let e := uid 11 1 0;
     let s := on (fun d => { d with regs := { d.regs with swaps := [⟨.wp 1, .gap, 0⟩, ⟨.wp 2, .gap, 0⟩] } }) (enacts e []);
     meets s [] (.enactCancel 2 3 1) (fun t => decide ((t.dev.tctx 5).reg 3 = 8 ∧ t.dev.regs.swaps = [⟨.wp 2, .gap, 0⟩])) && meets (enacts e []) [] (.enactCancel 2 3 1) (fun t => decide ((t.dev.tctx 5).reg 3 = 9)) &&
     meets (enacts (uid 17 0 0) []) [] (.enactCancel 2 3 1) (fun t => decide ((t.dev.tctx 5).reg 3 = 7)) &&
     meets (enacts e []) [] (.enact 2 3 1 4 0) (fun t => decide ((t.dev.tctx 5).reg 3 = 65536 ∧ t.dev.regs.swaps = [⟨.wp 1, .gap, 0⟩]))),
    faults task (.enact 2 3 1 6 0) 0x101 0x1C 0] := by decide +kernel

/-- The task before a queue instruction on queue 9, of depth 2, which context 5 fills or drains. -/
def queued (p c put got : Nat) (tmo : Word) : State :=
  on (fun d => { d.updTctx 5 (fun x => { x with tmo := tmo }) with tk := { (d.updTctx 5 (fun x => { x with tmo := tmo })).tk with queues := [(9, ⟨true, p, c, 2, put, got⟩)] } })
    (withRegs [(Reg.TK_QBASE, 0x100000)] (loads 4 0xAABBCCDD (frameWrites 0x102400 4 5 ++ frameWrites 0x102404 4 6)))
theorem witness_TaskQueues : checks [
    meets (queued 5 6 3 2 0) [] (.qput 2 2 1 5 true) (fun t => decide (t.dev.queue 9 = ⟨true, 5, 6, 2, 4, 2⟩ ∧ t.mem.frameNat 0x102404 4 = 0xAABBCCDD) && (t.dev.tctx 5).flg.z) &&
      meets (queued 5 6 4 2 0) [] (.qput 2 2 1 5 true) (fun t => decide ((t.dev.tctx 5).pc = 0x104) && !(t.dev.tctx 5).flg.z) &&
      meets (queued 5 6 4 2 9) [] (.qput 2 2 1 5 true) (fun t => decide ((t.dev.tctx 5).wait = .put 9 0xAABBCCDD (some 9) ∧ (t.dev.core 2).ctx = none)) && faults (queued 6 5 3 2 0) (.qput 2 2 1 5 true) 0x10A 9 0,
    meets (queued 6 5 3 2 0) [] (.qget 2 3 1 5 true) (fun t => decide (t.dev.queue 9 = ⟨true, 6, 5, 2, 3, 3⟩ ∧ (t.dev.tctx 5).reg 3 = 5) && (t.dev.tctx 5).flg.z) &&
      meets (queued 6 5 3 3 7) [] (.qget 2 3 1 5 false) (fun t => decide ((t.dev.tctx 5).reg 3 = 0) && !(t.dev.tctx 5).flg.z) &&
      meets (queued 6 5 3 3 0xFFFFFFFF) [] (.qget 2 3 1 5 true) (fun t => decide ((t.dev.tctx 5).wait = .get 9 3 none ∧ (t.dev.tctx 5).state = .suspended)) && faults (queued 6 5 3 2 0) (.qget 2 3 1 6 true) 0x10A 10 0,
    (let w := fun (put got : Nat) (x : TaskWait) => on (fun d => (d.updTctx 5 (fun y => { y with wait := x, state := .suspended })).updCore 2 (fun y => { y with ctx := none })) (queued 5 5 put got 9);
     meets (w 3 2 (.put 9 77 (some 9))) [] (.queueResume 5) (fun t => decide (t.mem.frameNat 0x102404 4 = 77 ∧ (t.dev.tctx 5).pc = 0x104) && (t.dev.tctx 5).flg.z) &&
     meets (w 3 2 (.get 9 3 (some 9))) [] (.queueResume 5) (fun t => decide ((t.dev.tctx 5).reg 3 = 5)) &&
     meets (w 4 2 (.put 9 77 (some 9))) [] (.queueTimeout 5) (fun t => decide (t.clock.dtime = 9 ∧ (t.dev.tctx 5).pc = 0x104) && !(t.dev.tctx 5).flg.z) &&
     meets (w 2 2 (.get 9 3 (some 9))) [] (.queueTimeout 5) (fun t => decide (t.clock.dtime = 9))),
    meets fresh [] (.queueBind 255 1023 0 255) (fun t => decide (t.dev.queue 255 = ⟨true, 1023, 0, 256, 0, 0⟩)) && meets (queued 5 6 0 0 0) [] (.queueBind 9 1 2 3) (fun t => t.dev.bit Reg.TK_FAULT 10) &&
      meets (queued 5 6 3 2 0) [] (.queueUnbind 9) (fun t => decide ((t.dev.queue 9).bound = false)) && meets (queued 5 6 0 0 0) [] (.qbaseWrite 0) (fun t => decide (t.dev.rdN Reg.TK_QBASE = 0x100000)) &&
      meets fresh [] (.qbaseWrite 0x200000) (fun t => decide (t.dev.rdN Reg.TK_QBASE = 0x200000))] := by decide +kernel
theorem witness_EventsAndWaiting : checks [
    (let s := on (fun d => { d with ev := [⟨97, 5, 60⟩, ⟨1, 0, 61⟩] }) (task (fun x => { x with evg := 3, evm := 2 }));
     meets s [] .eventLatch (fun t => decide (t.dev.eventRec 97 = ⟨5, 60, 1⟩ ∧ t.dev.ev = [⟨1, 0, 61⟩] ∧ (t.dev.tctx 5).evp = 2))),
    (let e := fun (x : State) => on (fun d => { d with tk := { d.tk with evTab := [(98, ⟨5, 60, 3⟩)] } }) x;
     let s := e (task (fun x => { regs 0 0 0 0 x with evg := 3, evm := 7, evp := 7, last := 1 }));
     meets s [] (.wait 2 3 1) (fun t => decide ((t.dev.tctx 5).reg 3 = 98 ∧ (t.dev.tctx 5).evp = 3 ∧ (t.dev.tctx 5).evrec = 5 ∧ (t.dev.tctx 5).evtime = 60 ∧ (t.dev.tctx 5).evcnt = 3) && (t.dev.tctx 5).flg.z) &&
     meets (e (task (fun x => { regs 0 0 0 0 x with evg := 3, evp := 7, last := 2 }))) [] (.wait 2 3 1) (fun t => decide ((t.dev.tctx 5).reg 3 = 96)) &&
     meets (task (regs 0 0)) [] (.wait 2 3 1) (fun t => decide ((t.dev.tctx 5).pc = 0x104) && !(t.dev.tctx 5).flg.z) &&
     meets (at_ 10 (task (regs 7 0))) [] (.wait 2 3 1) (fun t => decide ((t.dev.tctx 5).wait = .event 3 (some 17) ∧ (t.dev.core 2).ctx = none)) &&
     meets (task (regs 7 0)) [] (.post 2 1 31) (fun t => decide (events t = [(127, 7)]))),
    (let w := fun (p : Word) => on (fun d => d.updTctx 5 (fun x => { x with wait := .event 3 (some 17), state := .suspended, evp := p, evg := 3, last := 31 })) fresh;
     meets (w 1) [] (.waitDeliver 5) (fun t => decide ((t.dev.tctx 5).reg 3 = 96 ∧ (t.dev.tctx 5).evp = 0 ∧ (t.dev.tctx 5).wait = .none)) &&
     meets (w 0) [] (.waitTimeout 5) (fun t => decide (t.clock.dtime = 17) && !(t.dev.tctx 5).flg.z))] := by decide +kernel
/-- A copy of 8 bytes from frame memory to the local memory of core 2, with a post and a completion word. -/
def copy : DmaDesc := ⟨0x100, 0x200, 8, 1, 0, 0, 2, some 4, 0x300, 0x12345⟩
theorem witness_DmaQueuesAndCopies : checks [
    (let d := locWrites (2 * 0x40000 + 0x20) 8 0x100 ++ locWrites (2 * 0x40000 + 0x28) 8 0x200 ++ locWrites (2 * 0x40000 + 0x30) 4 8 ++ locWrites (2 * 0x40000 + 0x34) 4 (1 + 16 + 256 * 4 + 65536 * 8) ++
       locWrites (2 * 0x40000 + 0x38) 4 0x300 ++ locWrites (2 * 0x40000 + 0x3C) 4 0x12345;
     let s := loads 0x20 0 d;
     meets s [(dmaDesc s.mem (2 * 0x40000 + 0x20)).valid] (.dma 2 3 1) (fun t => decide ((t.dev.core 2).dma = [copy] ∧ (t.dev.tctx 5).reg 3 = 0)) &&
     meets (on (fun d => d.updCore 2 (fun x => { x with dma := List.replicate 16 copy })) s) [] (.dma 2 3 1) (fun t => decide ((t.dev.core 2).dma.length = 16 ∧ (t.dev.tctx 5).reg 3 = 1)) &&
     meets (loads 0x24 0 d) [] (.dma 2 3 1) (fun t => decide ((t.dev.tctx 5).reg 3 = 2) && !(t.dev.tctx 5).flg.z) && meets (loads 0x40 0 d) [] (.dma 2 3 1) (fun t => decide ((t.dev.tctx 5).reg 3 = 2))),
    (let s := on (fun d => d.updCore 2 (fun x => { x with dma := [copy, copy] })) { fresh with mem := fresh.mem.writes (frameWrites 0x100 8 0x0807060504030201) };
     meets s [copy.valid] (.dmaTransferDone 2 ⟨none, none⟩ false) (fun t => decide (t.mem.locNat (2 * 0x40000 + 0x200) 8 = 0x0807060504030201 ∧ t.mem.locNat (2 * 0x40000 + 0x300) 4 = 1 + 65536 * 0x2345 ∧
       events t = [(100, 0)] ∧ (t.dev.core 2).dma = [copy])))] := by decide +kernel

/-! ## Tasks, contracts and admission (R348, R355 to R381) -/

/-- A bank supervisor's item (the table of "Admitting the example line"): T and D of 222,250 ticks, C of 20,000 cycles, on core 2. -/
def super : TaskItem := ⟨5, 2, 1, none, 222250, 222250, 20000, 0⟩
/-- Context 5 in a state, of the item, with nothing on any core. -/
def idle (f : TaskCtx → TaskCtx) : State := on (fun d => d.setTctx 5 (f { TaskCtx.reset with state := .idle, core := 2, alt := 1, entry := 0x40, admitted := true, item := some super }))
/-- TK_CMDRES of a sender. -/
def result (t : State) (who : Reader) : Nat := lookupD 0 t.dev.tk.cmdRes who

theorem witness_ContextCommandsAndResults_calm : ∀ e, ((idle id).dev.tctx e).state ≠ .ready := getAll (fun (x : TaskCtx) => x.state ≠ .ready) _ _ (by decide) (by decide +kernel)
theorem witness_ContextCommandsAndResults : checks [
    (let s := withRegs [(Reg.TK_ENTRY, 0x200), (Reg.HX_TKDB_ENTRY, 0x300)];
     meets s [decide ((s.dev.tctx 1023).state = .free)] (.contextSetup (.core 1) 1023 2 true) (fun t => decide ((t.dev.tctx 1023).pc = 0x200 ∧ (t.dev.tctx 1023).core = 2 ∧ (t.dev.tctx 1023).state = .idle ∧ (t.dev.tctx 1023).tmo = 0xFFFFFFFF)) &&
     meets s [] (.contextSetup (.link 0) 0 3 false) (fun t => decide ((t.dev.tctx 0).pc = 0x300)) && meets (idle id) [] (.contextSetup (.core 1) 5 2 true) (fun t => decide (result t (.core 1) = 1))),
    (let s := idle (fun x => { x with admitted := false, item := none, pc := 0x44 });
     meets (idle id) [] (.contextRelease (.core 1) 5) (fun t => decide (result t (.core 1) = 2)) && meets (idle id) [] (.contextStop (.core 1) 5) (fun t => decide (result t (.core 1) = 2)) &&
     meets (task) [] (.contextRelease (.core 1) 5) (fun t => decide (result t (.core 1) = 1)) &&
     meets s [] (.contextRelease (.link 0) 5) (fun t => decide (result t (.link 0) = 0 ∧ (t.dev.core 0).ctx = some 5 ∧ (t.dev.tctx 5).state = .running ∧ (t.dev.tctx 5).pc = 0x44 ∧ t.dev.hx.window ≠ 0) && !t.dev.hx.loader) &&
     meets (task) [] (.contextStop (.core 1) 5) (fun t => decide ((t.dev.tctx 5).state = .free ∧ (t.dev.core 2).ctx = none))),
    (let s := idle (fun x => { x with state := .faulted, pc := 0x44 });
     meets s [] (.contextRestart (.core 1) 5) (fun t => decide ((t.dev.tctx 5).state = .idle ∧ (t.dev.tctx 5).pc = 0x40)) && meets (idle id) [] (.contextRestart (.core 1) 5) (fun t => decide (result t (.core 1) = 1)) &&
     meets s [] (.coreReturnToService (.core 1) 2) (fun t => decide (result t (.core 1) = 1)) &&
     meets (on (fun d => d.updCore 2 (fun x => { x with service := false, faulted := true })) s) [] (.coreReturnToService (.core 1) 2) (fun t => (t.dev.core 2).service && !(t.dev.core 2).faulted))] := by decide +kernel
theorem witness_ReleasesFallDue : checks [
    (let s := idle (fun x => { x with nextRel := 1000 });
     meets s [s.clock.drive] (.taskReleasePeriodic 5) (fun t => decide (t.clock.dtime = 1000 ∧ (t.dev.tctx 5).nextRel = 223250 ∧ (t.dev.tctx 5).dln = 223250 ∧ (t.dev.tctx 5).state = .running ∧ (t.dev.tctx 5).releases = 1)) &&
     meets (idle (fun x => { x with nextRel := 1000, state := .suspended })) [] (.taskReleasePeriodic 5) (fun t => decide ((t.dev.tctx 5).pendAt = some 1000)) &&
     meets (idle (fun x => { x with nextRel := 1000, state := .suspended, pendAt := some 3 })) [] (.taskReleasePeriodic 5) (fun t => decide (t.dev.rdN Reg.TK_CNT_MISS = 1)) &&
     meets (idle (fun x => { x with nextRel := 1000, state := .faulted, autoRestart := true })) [] (.taskReleasePeriodic 5) (fun t => decide ((t.dev.tctx 5).pc = 0x40 ∧ t.dev.rdN Reg.TK_CNT_RESTART = 1)) &&
     meets (idle (fun x => { x with nextRel := 1000, state := .faulted })) [] (.taskReleasePeriodic 5) (fun t => decide ((t.dev.tctx 5).state = .faulted ∧ t.dev.rdN Reg.TK_CNT_MISS = 1))),
    meets (idle (fun x => { x with item := some { super with event := some 97 }, evDue := [500], lastRel := some 400 })) [] (.taskReleaseEvent 5)
      (fun t => decide (t.clock.dtime = 222650 ∧ (t.dev.tctx 5).evDue = [] ∧ (t.dev.tctx 5).dln = 444900)),
    (let s := on (fun d => (d.setTctx 6 { TaskCtx.reset with state := .running, core := 2, item := some super, dln := 223251 }).updCore 2 (fun x => { x with ctx := some 6 })) (idle (fun x => { x with nextRel := 1000 }));
     meets s [] (.taskReleasePeriodic 5) (fun t => decide ((t.dev.core 2).ctx = some 5 ∧ (t.dev.tctx 6).state = .ready)))] := by decide +kernel
theorem witness_OverrunsAndSlices : checks [
    (let s := withRegs [(Reg.TK_CFG, 3 + 65536 * 2)] (idle (fun x => { x with state := .running, dln := 900 }));
     meets s [] (.deadlineReached 5) (fun t => decide (t.clock.dtime = 900 ∧ (t.dev.tctx 5).graceAt = some 3972 ∧ t.dev.rdN Reg.TK_CNT_FLAG = 1) && logs t (uid 2 2 0) 2 5) &&
     (let s := on (fun d => (d.updTctx 5 (fun x => { x with cyc := 5000, graceAt := some 3972 })).updCore 2 (fun x => { x with ctx := some 5 })) s;
      meets s [decide (s.dev.coreOf 5 = some 2)] (.budgetExhausted 5) (fun t => decide (t.clock.dtime = 4000 ∧ t.dev.rdN Reg.TK_CNT_BUDGET = 1) && (t.dev.tctx 5).demoted && logs t (uid 2 2 0) 5 5) &&
      meets s [] (.graceExpired 5) (fun t => decide (t.clock.dtime = 3972 ∧ (t.dev.tctx 5).state = .idle ∧ (t.dev.tctx 5).pc = 0x40 ∧ (t.dev.core 2).ctx = none ∧ t.dev.rdN Reg.TK_CNT_ABORT = 1) && logs t (uid 2 2 0) 3 5))),
    (let s := on (fun d => { (([0, 1, 3].foldl (fun (d : Dev) k => d.updCore k (fun x => { x with service := false })) d).updCore 2 (fun x => { x with slice := 2048 })).setTctx 9 { TaskCtx.reset with state := .ready } with
       tk := { ((([0, 1, 3].foldl (fun (d : Dev) k => d.updCore k (fun x => { x with service := false })) d).updCore 2 (fun x => { x with slice := 2048 })).setTctx 9 { TaskCtx.reset with state := .ready }).tk with rot := 5 } })
       (withRegs [(Reg.TK_CFG, 3 + 65536 * 2)] task);
     meets s [decide (s.dev.runs 2 = some 5), decide (s.dev.tk.rot = 5)] (.sliceExpired 2) (fun t => decide (t.clock.dtime = 547 ∧ (t.dev.core 2).ctx = some 9 ∧ (t.dev.tctx 5).state = .ready ∧ (t.dev.core 2).slice = 2048)))] := by decide +kernel
theorem witness_CoresAreLost : checks [
    (let s := on (fun d => d.updCore 2 (fun x => { x with saved := [(1, 77)], retired := 40 })) (task (fun x => { regs 5 0 0 0 x with entry := 0x40 }));
     meets s [decide (s.dev.coreOf 5 = some 2)] (.coreFault 2 false) (fun t => decide ((t.dev.tctx 5).state = .idle ∧ (t.dev.tctx 5).reg 1 = 77 ∧ (t.dev.tctx 5).pc = 0x40 ∧ t.dev.rdN Reg.TK_CNT_ABORT = 1) && !(t.dev.core 2).service && logs t (uid 2 2 0) 1 1) &&
     meets s [] (.coreNoProgress 2) (fun t => decide (t.clock.dtime = 279661) && logs t (uid 2 2 0) 1 3) &&
     meets fresh [] (.coreFault 0 true) (fun t => (t.dev.core 0).faulted && logs t (uid 2 0 0) 1 2)),
    meets (idle id) [] (.coreFault 2 false) (fun t => decide ((t.dev.tctx 5).core = 1 ∧ t.dev.flt.queue.length = 2) && logs t (uid 2 2 0) 6 (5 + 65536))] := by decide +kernel

/-- A descriptor of one TASK item at local address 0x100 of core 2: context 5 on core 1, its alternate core 2, T and D of 222,250 ticks, C of c cycles. -/
def descriptor (c : Nat) : List MemWrite :=
  locWrites (2 * 0x40000 + 0x100) 2 0x0101 ++ locWrites (2 * 0x40000 + 0x120) 2 1 ++ locWrites (2 * 0x40000 + 0x122) 2 5 ++ locWrites (2 * 0x40000 + 0x124) 1 (1 + 4 * 2) ++
    locWrites (2 * 0x40000 + 0x128) 4 222250 ++ locWrites (2 * 0x40000 + 0x12C) 4 222250 ++ locWrites (2 * 0x40000 + 0x130) 4 c
/-- Context 6 waits for the answer of the admission unit to a request. -/
def asks (submit : Bool) (arg : Word) (c : Nat) : State :=
  on (fun d => (d.setTctx 6 { TaskCtx.reset with state := .suspended, wait := .admission 3, pc := 0x100 }).updTk (fun y => { y with requests := [.task 6 2 submit arg] }))
    (on (fun d => d.updHx (fun h => { h with window := 1 })) { (idle (fun x => { x with admitted := false, item := none })) with mem := fresh.mem.writes (descriptor c) })
theorem witness_AdmissionOfContracts : checks [
    meets (task (regs 0x100 0)) [] (.admitSubmit 2 3 1) (fun t => decide (t.dev.tk.requests = [.task 5 2 true 0x100] ∧ (t.dev.tctx 5).wait = .admission 3 ∧ (t.dev.core 2).ctx = none)) &&
      meets (task (regs 0x100 0)) [] (.admitRelease 2 3 1) (fun t => decide (t.dev.tk.requests = [.task 5 2 false 0x100])) &&
      meets (locked ⟨3, 3, 0, 1, [], 0⟩) [] (.admitRelease 2 3 1) (fun t => decide ((t.dev.tctx 5).state = .faulted ∧ (t.dev.core 2).locks = [] ∧ t.dev.tk.requests = [])),
    (let s := asks true 0x100 20000;
     meets s [decide (s.dev.hx.window ≠ 0)] .admissionAnswer (fun t => decide ((t.dev.tctx 6).reg 3 = 65536 ∧ (t.dev.tctx 6).pc = 0x104 ∧ t.dev.tk.contracts.map Prod.fst = [0] ∧ t.dev.rdN Reg.AM_CNT_ACCEPT = 1) && (t.dev.tctx 6).flg.z && (t.dev.tctx 5).admitted)),
    (let s := asks true 0x110 20000; s.running && decide (s.dev.hx.window ≠ 0 ∧ s.dev.tk.requests = [.task 6 2 true 0x110] ∧ (s.dev.tctx 6).wait = .admission 3 ∧ (0x110 : Word).toNat % 32 ≠ 0)),
    (let s := asks true 0x140 20000; s.running && decide (s.dev.tk.requests = [.task 6 2 true 0x140] ∧ s.mem.locByte (2 * 0x40000 + 0x140) ≠ 1)),
    (let s := on (fun d => d.updTk (fun y => { y with contracts := [(4, ⟨9, [.task super], []⟩)] })) (asks false 9 0);
     meets s [] .admissionAnswer (fun t => decide (t.dev.tk.contracts = [] ∧ (t.dev.tctx 6).reg 3 = 0) && !(t.dev.tctx 5).admitted))] := by decide +kernel
/-- The example line: u of a bank supervisor is 1,577 (R370). A task of 750,040 cycles takes exactly 58,982, and one cycle more is refused. -/
theorem witness_AdmittedTasksFitTheirCores : checks [
    meets (asks true 0x100 20000) [decide (coreClaim (asks true 0x100 20000).dev 1 ≤ 58982)] .admissionAnswer (fun t => decide (coreClaim t.dev 1 = 1577 ∧ coreClaim t.dev 2 = 0)),
    meets (asks true 0x100 750040) [] .admissionAnswer (fun t => decide (coreClaim t.dev 1 = 58982)),
    meets (asks true 0x100 750041) [] .admissionAnswer (fun t => decide ((t.dev.tctx 6).reg 3 = 0x0301 ∧ coreClaim t.dev 1 = 0))] := by decide +kernel

/-! ## Fabric and memories (R382 to R404) -/

/-- Requester 1 of rank 5 and requester 8 of rank 9, the guard at four losses. -/
def fabric (f : Fabric → Fabric := id) : State := on (fun d => d.updFab f) (withRegs [(Reg.FB_RANK0, 0x50), (Reg.FB_RANK1, 9), (Reg.FB_GUARD, 4), (Reg.FB_CFG, 1 + 256 * 3 + 65536 * 4)])
/-- Losses of a requester at target 2: count k, the cycle from which it is back, losses in a row. -/
def losses (t : State) (who : Nat) : Nat × Nat × Nat := let x := t.dev.lossOf who 2; (x.k, x.from_, x.row)
theorem witness_BeatsPatrolAndRowRepair_quiet : ∀ b, (fabric).dev.lockOwner b = none := (quiet_of _ (by decide +kernel) (by decide +kernel) : quietMemory fresh.dev).2.1
theorem witness_BeatsPatrolAndRowRepair_beats : checks [
    meets fabric [decide (fabric.dev.grantRank 1 = 5), decide (fabric.dev.grantRank 8 = 9)] (.fabricBeatGrant 2 7 ⟨[⟨1, 0, false, false, false⟩, ⟨8, 0, true, false, false⟩], []⟩ none)
      (fun t => decide (losses t 8 = (0, 0, 0) ∧ losses t 1 = (1, 8, 1) ∧ (t.dev.target 2).cycle = 7)),
    (let s := on (fun d => (d.setLoss 1 2 ⟨6, 0, 4⟩)) fabric;
     meets s [decide (losses s 1 = (6, 0, 4))] (.fabricBeatGrant 2 0 ⟨[⟨1, 0, false, false, false⟩, ⟨8, 0, true, false, false⟩], []⟩ none) (fun t => decide (losses t 1 = (0, 0, 0) ∧ t.dev.rdN Reg.FB_CNT_GUARD = 1))),
    (let s := on (fun d => (d.setLoss 8 2 ⟨6, 9, 3⟩)) fabric;
     meets s [] (.fabricBeatGrant 2 8 ⟨[⟨1, 0, false, false, false⟩, ⟨8, 0, true, false, false⟩], []⟩ none) (fun t => decide (losses t 1 = (0, 0, 0) ∧ losses t 8 = (6, 9, 3))) &&
     meets s [] (.fabricBeatGrant 2 9 ⟨[⟨1, 0, false, false, false⟩, ⟨8, 0, true, false, false⟩, ⟨13, 0, false, true, false⟩], []⟩ none) (fun t => decide (losses t 13 = (0, 0, 0) ∧ losses t 8 = (6, 73, 4) ∧ losses t 1 = (1, 10, 1)))),
    meets fabric [] (.fabricBeatGrant 2 0 ⟨[⟨14, 0, true, true, false⟩, ⟨13, 0, false, false, false⟩], []⟩ none) (fun t => decide (losses t 14 = (0, 0, 0) ∧ losses t 13 = (1, 1, 1))),
    (let s := on (fun d => d.setLoss 14 2 ⟨2, 5, 2⟩) fabric;
     meets s [] (.fabricBeatGrant 2 4 ⟨[⟨14, 0, true, true, false⟩, ⟨13, 0, false, false, false⟩], []⟩ none) (fun t => decide (losses t 13 = (0, 0, 0) ∧ losses t 14 = (2, 5, 2)))),
    (let s := on (fun d => d.updFab (fun f => { f with turns := [(17 * 8 + 2, 3)] })) (on (fun d => d.setCredit 8 2 ⟨0, 4⟩) fabric);
     meets s [] (.fabricBeatGrant 2 0 ⟨[⟨8, 3, false, false, true⟩, ⟨8, 4, false, false, true⟩], []⟩ none)
       (fun t => decide (SMap.get 15 t.dev.fab.turns (17 * 8 + 2) = 4 ∧ t.dev.credit 8 2 = ⟨0, 3⟩ ∧ losses t 8 = (0, 0, 0)))),
    (let s := on (fun d => (d.setCredit 8 2 ⟨4, 0⟩).setSlots 1 15) fabric;
     meets s [!s.dev.hasCredit 2 ⟨8, 0, true, false, false⟩] (.fabricBeatGrant 2 0 ⟨[⟨1, 0, false, false, false⟩, ⟨8, 0, true, false, false⟩], []⟩ none)
       (fun t => decide (losses t 8 = (0, 0, 0) ∧ t.dev.credit 8 2 = ⟨4, 0⟩ ∧ t.dev.credit 1 2 = ⟨0, 0⟩ ∧ t.dev.readSlots 1 = 16)) &&
     meets s [s.dev.hasCredit 2 ⟨8, 0, true, false, true⟩] (.fabricBeatGrant 2 0 ⟨[⟨1, 0, false, false, false⟩, ⟨8, 0, true, false, true⟩], [1]⟩ none)
       (fun t => decide (losses t 8 = (0, 0, 0) ∧ t.dev.credit 8 2 = ⟨3, 0⟩ ∧ t.dev.credit 1 2 = ⟨0, 1⟩ ∧ t.dev.readSlots 1 = 15 ∧ losses t 1 = (1, 1, 1))))] := by decide +kernel
theorem witness_BeatsPatrolAndRowRepair_rows : checks [
    (let s := on (fun d => d.updCore 2 (fun x => { x with locks := [⟨3, 3, 0, 1, [(0x900004, 4, 77)], 0⟩] })) fabric;
     meets s [s.clock.drive] (.scrubPatrol [⟨false, 3, 64, false, 13⟩]) (fun t => decide (t.clock.dtime = 274 ∧ t.dev.fab.patrol = 274 ∧ t.dev.rdN (Reg.FB_FMb_CE 3) = 1 ∧ t.dev.rdN Reg.FB_CNT_CE = 1 ∧
       (t.dev.core 2).locks = [⟨3, 3, 0, 1, [], 1⟩])) &&
     meets s [] (.scrubPatrol [⟨false, 4, 64, false, 13⟩]) (fun t => decide ((t.dev.core 2).locks = (s.dev.core 2).locks))),
    (let s := fabric (fun f => { f with rows := [⟨5, 17, 3, false⟩, ⟨5, 18, 2, false⟩, ⟨21, 19, 0, true⟩] });
     meets s [] (.rowRepair false 5 17) (fun t => decide (t.dev.sparesUsed 5 = 1 ∧ t.dev.fab.rows = [⟨5, 18, 2, false⟩, ⟨21, 19, 0, true⟩] ∧ t.dev.rdN Reg.FB_CNT_REPAIR = 1) && logs t (uid 3 5 0) 1 (17 + 4096)) &&
     meets s [] (.rowRepair false 5 18) (fun t => decide (t.dev = s.dev)) && meets s [!s.dev.bit Reg.SV_CFG 0] (.rowRepair true 5 19) (fun t => decide (t.dev.sparesUsed 21 = 1)) &&
     meets (on (fun d => d.updFab (fun f => { f with spares := [(5, 16)] })) s) [] (.rowRepair false 5 17) (fun t => decide (t.dev.sparesUsed 5 = 16) && logs t (uid 3 5 0) 3 17))] := by decide +kernel

/-! ## Host attachment (R405 to R425) -/

/-- Link 1 active, ring 4 to the host and ring 5 from it over link 1, both of 4,096 bytes. -/
def hosted (f : HostLink → HostLink := id) (l : List (Nat × Nat) := []) : State :=
  on (fun d => ((d.updLink 1 (fun x => f { x with state := 2 })).updRing 4 (fun r => { r with link := 1 })).updRing 5 (fun r => { r with link := 1 }))
    (withRegs ([(Reg.HX_Rr_CFG 4, 1 + 256 * 12), (Reg.HX_Rr_CFG 5, 3 + 256 * 12), (Reg.HX_Rr_TGT 5, 0x40000), (Reg.HX_Rr_TGTSZ 5, 2), (Reg.HX_CFG, 256 * 50)] ++ l))

theorem witness_HostRingRegisters : checks [
    (let s := hosted id [(Reg.HX_Rr_WR 4, 64)];
     meets s [] (.ringDoorbell 1 4 64) (fun t => decide (t.dev.rdN (Reg.HX_Rr_DB 4) = 64)) && meets s [] (.ringDoorbell 1 4 128) (fun t => decide (t.dev.rdN (Reg.HX_Rr_DB 4) = 0 ∧ t.dev.rdN Reg.HX_WR_REJECT = 1) && t.dev.bit Reg.HX_FAULT 3) &&
     meets s [] (.ringDoorbell 1 5 4096) (fun t => decide (t.dev.rdN (Reg.HX_Rr_DB 5) = 4096)) && meets s [] (.ringDoorbell 1 5 4128) (fun t => decide (t.dev.rdN Reg.HX_WR_REJECT = 1)) &&
     meets s [] (.ringDoorbell 1 5 16) (fun t => decide (t.dev.rdN Reg.HX_WR_REJECT = 1))),
    (let s := hosted id;
     meets s [!s.dev.bit (Reg.HX_Rr_CFG 6) 0] (.ringCfgWrite 1 6 2 0x1234) (fun t => decide (t.dev.rdN (ringReg 6 2) = 0x1234 &&& regMask (ringReg 6 2))) &&
     meets s [] (.ringCfgWrite 1 4 2 0x1000) (fun t => decide (t.dev.rdN (ringReg 4 2) = 0 ∧ t.dev.rdN Reg.HX_WR_REJECT = 1)) &&
     meets (withRegs [(Reg.HX_Rr_WR 6, 8), (Reg.HX_Rr_SEQ 6, 8)] s) [] (.ringCfgWrite 1 6 0 (1 + 256 * 30)) (fun t => decide (t.dev.rdN (Reg.HX_Rr_WR 6) = 0 ∧ t.dev.rdN (Reg.HX_Rr_SEQ 6) = 0) && t.dev.bit (Reg.HX_Rr_CFG 6) 0) &&
     meets (on (fun d => d.updRing 4 (fun r => { r with unconf := [(0, [], []), (64, [], [])], reading := some 1 })) s) [] (.writebackConfirm ⟨4, none⟩) (fun t => decide ((t.dev.ring 4).unconf = [(64, [], [])] ∧ (t.dev.ring 4).reading = none)) &&
     meets (on (fun d => d.updRing 4 (fun r => { r with reading := some 1 })) s) [] (.writebackConfirm ⟨4, some 2⟩) (fun t => decide ((t.dev.ring 4).reading = none) && logs t (uid 1 1 0) 3 (3 + 256 * 4)) &&
     stays s [] (.writebackConfirm ⟨4, none⟩) &&
     meets (on (fun d => d.updRing 4 (fun r => { r with link := 0 })) s) [s.dev.bit (Reg.HX_Rr_CFG 4) 0, !ringBadValue 0 (1 + 256 * 12 + 4)] (.ringCfgWrite 1 4 0 (1 + 256 * 12 + 4))
       (fun t => decide ((t.dev.ring 4).link = 1 ∧ t.dev.rdN (Reg.HX_Rr_CFG 4) = 1 + 256 * 12 + 4)))] := by decide +kernel
theorem witness_HostRingsCarryRecordsAndEntries_quiet : quietMemory (hosted id).dev := quiet_of _ (by decide +kernel) (by decide +kernel)
theorem witness_HostRingsCarryRecordsAndEntries : checks [
    (let r := List.replicate 16 (7 : Word);
     let s := on (fun d => d.updHx (fun h => { h with recs := [⟨3, [], [], none⟩, ⟨4, r, [(73, 4)], some (Reg.WM_SRp_STALL 0)⟩, ⟨4, r, [], none⟩] })) (hosted id [(Reg.HX_Rr_WR 4, 4032), (Reg.HX_Rr_DB 4, 64)]);
     meets s [!s.dev.ringTooBig 4 64, s.dev.ringRoom 4 64 0] (.ringRecordWrite 4) (fun t => decide (t.dev.rdN (Reg.HX_Rr_WR 4) = 4096 ∧ t.dev.rdN (Reg.HX_Rr_SEQ 4) = 1 ∧ t.dev.hx.recs = [⟨3, [], [], none⟩, ⟨4, r, [], none⟩] ∧ events t = [(73, 4)] ∧ t.dev.rdN (Reg.WM_SRp_STALL 0) = 1))),
    (let s := hosted id [(Reg.HX_Rr_WR 5, 32 * 5), (Reg.HX_Rr_DB 5, 32 * 6)];
     meets s [] (.ringEntryCopy 5 (some ((List.range 32).map (fun i => BitVec.ofNat 8 (i + 1)))) 0) (fun t => decide (t.dev.rdN (Reg.HX_Rr_WR 5) = 192 ∧ t.mem.frameNat 0x40020 4 = 0x04030201 ∧ t.mem.frame.length = 32)))] := by decide +kernel
/-- Link 1 active, and no ring uses it. -/
def linkOn : State := at_ 9 (on (fun d => d.updLink 1 (fun x => { x with state := 2 })) (withRegs [(Reg.HX_CFG, 256 * 50)]))
theorem witness_LinksAndTheFeatureWindow_unbound : ∀ r, (linkOn.dev.ring r).link = 1 → linkOn.dev.ringEn r = false := by
  intro r h
  have : (linkOn.dev.ring r).link = 0 := by simp [Dev.ring, linkOn, at_, on, withRegs, Dev.updLink, Dev.setLink, Dev.updHx, Dev.wrN, Dev.wr, fresh, Dev.reset, HostUnit.reset, SMap.get, SMap.find, HostRing.reset]
  omega
theorem witness_LinksAndTheFeatureWindow : checks [
    meets (on (fun d => d.updLink 0 (fun x => { x with state := 4 }))) [] (.linkTrained 0 4 3) (fun t => (t.dev.link 0).active && decide ((t.dev.link 0).rate = 4 ∧ (t.dev.link 0).repaired = 3 ∧ t.dev.rdN (Reg.HX_Ll_CNT_RETRAIN 0) = 1)),
    (let s := linkOn;
     meets s [] (.linkLeavesActive 1) (fun t => decide ((t.dev.link 1).state = 3 ∧ (t.dev.link 1).left = some 9)) &&
     meets s [] (.linkFail 1 2) (fun t => decide ((t.dev.link 1).state = 4) && logs t (uid 1 1 0) 1 3) && meets s [] (.d3hotChange 1 true) (fun t => (t.dev.link 1).d3hot) &&
     meets (on (fun d => d.updLink 1 (fun x => { x with state := 3, left := some 9 })) s) [] (.linkFail 1 0) (fun t => decide (t.clock.dtime = 20009) && logs t (uid 1 1 0) 1 1) &&
     meets (on (fun d => d.updLink 1 (fun x => { x with pend := [3, 63] })) s) [s.dev.pw.core] (.msixUnmask 1 ⟨63, 0xFEE00000, 9, false⟩)
       (fun t => decide (t.dev.sent = [.msix 1 63 0xFEE00000 9] ∧ (t.dev.link 1).pend = [3] ∧ (t.dev.link 1).entry 63 = ⟨0xFEE00000, 9, false⟩)) &&
     meets (on (fun d => d.updLink 1 (fun x => { x with pend := [3], d3hot := true })) s) [] (.msixUnmask 1 ⟨3, 16, 9, false⟩)
       (fun t => decide (t.dev.sent = [] ∧ (t.dev.link 1).later = [3])) &&
     meets (on (fun d => d.updLink 1 (fun x => { x with later := [3], d3hot := true, msix := [(3, ⟨16, 9, false⟩)] })) s) [] (.d3hotChange 1 false)
       (fun t => decide (t.dev.sent = [.msix 1 3 16 9] ∧ (t.dev.link 1).later = []))),
    (let s := on (fun d => d.updHx (fun h => { h with firstActive := some 100, accept := [(0, 0x3EBF)] })) fresh;
     meets s [decide (s.dev.hx.window = 0)] (.featAcceptWrite (.link 0) 6 5) (fun t => decide (SMap.get 0 t.dev.hx.accept 6 = 5)) &&
     meets s [] (.featureCommit (.link 1) 0) (fun t => decide (t.dev.rdN (Reg.HX_FEAT_ACTIVEw 0) = 0x3EBF ∧ t.dev.hx.window = 1)) &&
     meets (on (fun d => d.updHx (fun h => { h with accept := [(0, 0x20 + 2 ^ 20)] })) s) [] (.featureCommit (.link 1) 0)
       (fun t => decide (t.dev.rdN (Reg.HX_FEAT_ACTIVEw 0) = 1 ∧ t.dev.rdN (Reg.HX_FEAT_DROPPEDw 0) = 0x20 ∧ t.dev.rdN (Reg.HX_FEAT_UNKNOWNw 0) = 2 ^ 20)) &&
     meets s [] .featureWindowTimeout (fun t => decide (t.clock.dtime = 2000000100 ∧ t.dev.rdN (Reg.HX_FEAT_ACTIVEw 0) = 0x841 ∧ t.dev.hx.window = 2)) &&
     meets (on (fun d => d.updHx (fun h => { h with window := 1 })) s) [] (.featAcceptWrite (.link 0) 0 5) (fun t => decide (t.dev.hx.accept = [(0, 0x3EBF)] ∧ t.dev.rdN Reg.HX_WR_REJECT = 1)) &&
     meets s [!s.dev.featWriter (.core 1)] (.featAcceptWrite (.core 1) 0 5) (fun t => decide (t.dev.hx.accept = s.dev.hx.accept ∧ t.dev.rdN Reg.HX_DST_REJECT = 1)))] := by decide +kernel
theorem witness_LoaderWindowAndRejectedWrites : checks [
    meets fresh [fresh.dev.hx.loader] (.loaderWrite 0 0xFFFFE [1, 2]) (fun t => decide (t.mem.locNat 0xFFFFE 2 = 0x201 ∧ t.mem.loc.length = 2)),
    (let s := withRegs [(Reg.HX_WR_REJECT, 2 ^ 32 - 1)] (on (fun d => d.updHx (fun h => { h with loader := false })) fresh);
     meets s [] (.loaderWrite 0 0 [1]) (fun t => decide (t.mem = s.mem ∧ t.dev.rdN Reg.HX_WR_REJECT = 2 ^ 32 - 1)) &&
     meets s [] (.hostBar0Read 1 (BitVec.ofNat 20 Reg.HX_WR_REJECT)) (fun t => decide (t.dev.sent = [.completion 1 0xFFFFFFFF] ∧ t.dev.rdN Reg.HX_WR_REJECT = 0))),
    meets fresh [] (.loaderClose 0 1) (fun t => !t.dev.hx.loader) && meets fresh [] (.loaderClose 0 2) (fun t => t.dev.hx.loader) &&
      meets fresh [!fresh.dev.hostMayWrite Reg.GP_SET] (.hostWriteReject 0 false (BitVec.ofNat 20 Reg.GP_SET) 1) (fun t => decide (t.dev.rdN Reg.HX_WR_REJECT = 1 ∧ t.dev.rdN Reg.GP_OUT = 0))] := by decide +kernel

/-! ## Registers, shadow sets, the host's reads and the TAP -/

theorem witness_SwapsCopyTheWholeSet : checks [
    (let s := on (fun d => { ((d.swr (Reg.WP_ENCn_CFG 0) 2).swr (Reg.WP_ENCn_CFG 1) 1) with regs := { ((d.swr (Reg.WP_ENCn_CFG 0) 2).swr (Reg.WP_ENCn_CFG 1) 1).regs with swaps := [⟨.wp 1, .now, 0⟩, ⟨.wp 2, .gap, 0⟩] } }) fresh;
     meets s [decide (s.dev.swapOf (.wp 1) = some .now), s.dev.atBoundary (.wp 1) .now] (.shadowSwap (.wp 1))
       (fun t => decide (t.dev.rdN (Reg.WP_ENCn_CFG 0) = 2 ∧ t.dev.rdN (Reg.WP_ENCn_CFG 1) = 0x402 ∧ t.dev.gen (.wp 1) = 1 ∧ t.dev.swapOf (.wp 1) = none ∧ t.dev.swapOf (.wp 2) = some .gap)) &&
     stays s [!s.dev.atBoundary (.wp 2) .gap] (.shadowSwap (.wp 2)) && stays s [] (.shadowSwap .gpio)),
    (let s := on (fun d => { d with regs := { d.regs with swaps := [⟨.tk, .now, 0⟩], gens := [(.am, 65535)] } }) fresh;
     meets s [] (.shadowSwap .tk) (fun t => decide (t.dev.gen .tk = 1 ∧ t.dev.gen .am = 0)))] := by decide +kernel
theorem witness_RegisterWritesFollowTheirAccess : checks [
    (let w := fun (s : State) (a v : Nat) (p : State → Bool) => meets s [(s.dev.ownWrite s.mem s.now (.core 1) a (BitVec.ofNat 32 v)).isNone, !s.dev.swapBusy a] (.otherRegisterWrite (.core 1) (BitVec.ofNat 20 a) (BitVec.ofNat 32 v)) p;
     w fresh (Reg.SP_Mn_LEN 2) 0xFFFFFFFF (fun t => decide (t.dev.rdN (Reg.SP_Mn_LEN 2) = 0x1FFF)) &&
     w (withRegs [(Reg.SP_Mn_FAULT 2, 0x33)]) (Reg.SP_Mn_FAULT 2) 0x11 (fun t => decide (t.dev.rdN (Reg.SP_Mn_FAULT 2) = 0x22)) &&
     w fresh (Reg.GP_IN) 5 (fun t => decide (t = fresh)) && w fresh (Reg.WP_ENCn_CFG 0) 2 (fun t => decide (t = fresh)) &&
     w fresh (Reg.WP_ENCn_CFG 0 + 0x800) 2 (fun t => decide (t.dev.srd (Reg.WP_ENCn_CFG 0) = 2 ∧ t.dev.rd (Reg.WP_ENCn_CFG 0) = 0x402)) && w fresh 0xFFFFC 2 (fun t => decide (t = fresh))),
    (let s := on (fun d => { d with regs := { d.regs with swaps := [⟨.wp 1, .gap, 0⟩] } }) fresh;
     meets s [s.dev.swapBusy (Reg.WP_ENCn_CFG 0 + 0x800)] (.otherRegisterWrite (.core 1) (BitVec.ofNat 20 (Reg.WP_ENCn_CFG 0 + 0x800)) 2) (fun t => decide (t.dev.srd (Reg.WP_ENCn_CFG 0) = 0x402)))] := by decide +kernel
theorem witness_HostReadsAndHoldingRegisters : checks [
    (let s := at_ (7 * 2 ^ 32 + 5) fresh;
     meets s [] (.hostBar0Read 1 (BitVec.ofNat 20 Reg.WP_DTIME_LO)) (fun t => decide (t.dev.sent = [.completion 1 5] ∧ t.dev.heldOf (.link 1) = some 7 ∧ t.dev.heldOf (.link 0) = none) &&
       meets { t with clock := { t.clock with dtime := 0 } } [] (.hostBar0Read 1 (BitVec.ofNat 20 Reg.WP_DTIME_HI)) (fun u => decide (u.dev.sent.head? = some (.completion 1 7) ∧ u.dev.heldOf (.link 1) = none))) &&
     meets s [] (.hostBar0Read 0 (BitVec.ofNat 20 Reg.WP_DTIME_HI)) (fun t => decide (t.dev.sent = [.completion 0 7])) && meets s [] (.hostBar0Read 0 0xFFFFC) (fun t => decide (t.dev.sent = [.completion 0 0]))),
    meets (withRegs [(Reg.SP_Mn_LEN 2, 0x1234)]) [] (.hostBar0Read 0 (BitVec.ofNat 20 (Reg.SP_Mn_LEN 2))) (fun t => decide (t.dev.sent = [.completion 0 0x1234]))] := by decide +kernel
/-- The TAP with an instruction selected. -/
def tapped (ir : Nat) (key : Bool) (l : List (Nat × Nat)) : State := on (fun d => { d with tap := ⟨ir, key⟩ }) (withRegs l)
theorem witness_TapOperations_quiet : quietMemory (tapped 9 false [(Reg.DB_CFG, 1)]).dev := quiet_of _ (by decide +kernel) (by decide +kernel)
theorem witness_TapOperations : checks [
    (let s := tapped 9 false [(Reg.DB_CFG, 1), (Reg.GP_IN, 9)];
     let denied := fun (s : State) (i : Instr) => meets s [] i (fun t => decide (t.dev.sent = [.tap 0 true] ∧ t.dev.rdN Reg.DB_CNT_DENY = 1));
     meets s [] (.tapDeviceRead (BitVec.ofNat 32 Reg.GP_IN)) (fun t => decide (t.dev.sent = [.tap 9 false] ∧ t.dev.rdN Reg.DB_CNT_OP = 1)) && denied s (.tapDeviceRead 0x100000) && denied s (.tapDeviceWrite 2 0) &&
     meets s [!s.dev.debugRefuses Reg.GP_SET] (.tapDeviceWrite (BitVec.ofNat 32 Reg.GP_SET) 6) (fun t => decide (t.dev.rdN Reg.GP_OUT = 6 ∧ t.dev.sent = [.tap 0 false])) &&
     denied s (.tapDeviceWrite (BitVec.ofNat 32 Reg.DB_CFG) 0) && denied (tapped 9 false []) (.tapDeviceWrite (BitVec.ofNat 32 Reg.GP_SET) 6) &&
     meets s [] (.tapForcedWrite 0x2FFFFFC 0x01020304) (fun t => decide (t.mem.frameNat 0x2FFFFFC 4 = 0x01020304 ∧ t.mem.frame.length = 4)) && denied s (.tapForcedWrite 0x3000000 1) && denied (tapped 9 false []) (.tapForcedWrite 0 1)),
    (let s := tapped 0xA false [(Reg.DB_CFG, 2)];
     meets s [] (.tapResetUpdate 0xA55A) (fun t => t.dev.tap.key) && meets s [] (.tapResetUpdate 0x5AA5) (fun t => !t.dev.tap.key && decide (t.dev.pw.phase = .running)) &&
     meets (tapped 0xA true [(Reg.DB_CFG, 2)]) [] (.tapResetUpdate 0x5AA5) (fun t => decide (t.dev.pw.phase = .warm 9)) && stays (tapped 0xA true [(Reg.DB_CFG, 1)]) [] (.tapResetUpdate 0x5AA5) &&
     meets (tapped 0xA true []) [] (.tapInstructionUpdate 0xA) (fun t => t.dev.tap.key) && meets (tapped 0xA true []) [] (.tapInstructionUpdate 9) (fun t => !t.dev.tap.key && decide (t.dev.tap.ir = 9)) &&
     meets s [] (.tapForcedWrite 0 1) (fun t => decide (t.dev = s.dev)) && meets s [] (.tapDeviceRead 0) (fun t => decide (t.dev = s.dev)) && meets s [] (.tapDeviceWrite 0 1) (fun t => decide (t.dev = s.dev)))] := by decide +kernel

/-! ## The maintenance ledger, the trim engine and the fault log (R445 to R463) -/

/-- Slot 31 of the ledger in this form. -/
def slotted (x : Slot) (l : List (Nat × Nat) := []) : State := on (fun d => d.setSlot 31 x) (withRegs l)
/-- HEAD_OUT of head 2: running, at its hold. -/
def headOut : Slot := ⟨3, 0, 1, 0, true, 9, 2048 * 4 + 32 * 2, 0, 1, false⟩
/-- FM_RETIRE of bank 3 to bank 7. -/
def retire : Slot := ⟨3, 0, 1, 0, true, 6, 2048 * 3 + 32 * 3, 7, 0, false⟩
/-- The slot of an activity after a command. -/
def slot31 (t : State) : Slot := t.dev.slot 31

theorem witness_LedgerTrimAndFaultLog_slots : checks [
    (let s := withRegs [(Reg.SV_Aa_CFG 31, 9), (Reg.SV_Aa_TGT 31, headOut.target + 65536 * 5)];
     meets s [] (.activityRequest 31) (fun t => decide (slot31 t = { Slot.reset with state := 1, kind := 9, target := headOut.target, second := 5 } ∧ t.dev.tk.requests = [.ledger 31])) && stays (slotted headOut) [] (.activityRequest 31)),
    (let s := fun (x : Slot) => on (fun d => d.updTk (fun y => { y with requests := [.ledger 31] })) (slotted x);
     let x := { headOut with state := 1, gapDone := false };
     meets (s { x with target := 2048 * 5 }) [] .admissionAnswer (fun t => decide ((slot31 t).state = 5 ∧ (slot31 t).code = 0x0E1F ∧ (slot31 t).cause = 1)) &&
     meets (on (fun d => d.setSlot 4 headOut) (s { x with kind := 9 })) [(s x).dev.conflict x headOut] .admissionAnswer (fun t => decide ((slot31 t).code = 0x0D04 ∧ (slot31 t).cause = 2)) &&
     meets (s x) [] .admissionAnswer (fun t => decide ((slot31 t).state = 2 ∧ t.dev.tk.requests = []) && (slot31 t).gapDone)),
    (let x := { headOut with state := 2 };
     meets (slotted x [(Reg.SV_Aa_CFG 31, 32 + 64 * 7)]) [] (.activityStart 31) (fun t => decide ((slot31 t).state = 3 ∧ events t = [(103, 31 + 256 * 3)]) && logs t (uid 14 0 0) 1 (31 + 256 * 9 + 65536 * x.target)) &&
     stays (slotted { x with gapDone := false }) [] (.activityStart 31) &&
     meets (slotted { retire with state := 2 }) [] (.activityStart 31) (fun t => decide (t.dev.fab.mirror = some (3, 7) ∧ (slot31 t).step = 1)) &&
     meets (slotted { headOut with state := 2, kind := 2, target := 2048 * 2 + 32, second := 1023, line := 0 }) [] (.activityStart 31) (fun t => decide ((t.dev.core 1).out = some 1023) && !(t.dev.core 1).service)),
    meets (on (fun d => d.updHp 2 (fun h => { h with out := true })) (slotted headOut)) [] (.activityEnd 31) (fun t => decide ((slot31 t).state = 4 ∧ (slot31 t).line = 9) && !(t.dev.hpOf 2).out && logs t (uid 14 0 0) 2 (31 + 256 * 9 + 65536 * headOut.target)) &&
      stays (slotted { headOut with state := 4 }) [] (.activityEnd 31) && stays (slotted { headOut with kind := 6 }) [] (.activityEnd 31) &&
      meets (on (fun d => d.updFab (fun f => { f with mirror := some (3, 7) })) (slotted retire)) [] (.activityAbort 31) (fun t => decide ((slot31 t).state = 4 ∧ t.dev.fab.mirror = none)) &&
      stays (on (fun d => d.updFab (fun f => { f with retired := [(3, 7)] })) (slotted retire)) [] (.activityAbort 31) &&
      meets (slotted { headOut with state := 4 }) [] (.activityFree 31) (fun t => decide (t.dev.slots = [])) && stays (slotted headOut) [] (.activityFree 31),
    (let x : Slot := { headOut with kind := 5, target := 2048 + 32 };
     meets (on (fun d => d.updLink 1 (fun y => { y with state := 2 })) (slotted x)) [] (.activitySelfEnd 31) (fun t => decide ((slot31 t).state = 4)) && stays (slotted x) [] (.activitySelfEnd 31) &&
     meets (on (fun d => d.updLink 1 (fun y => { y with state := 4 })) (slotted x)) [] (.activityFail 31) (fun t => decide ((slot31 t).state = 6) && logs t (uid 14 1 0) 3 (31 + 256 + 65536 * x.target)) && stays (slotted x) [] (.activityFail 31) &&
     meets (on (fun d => d.updFab (fun f => { f with retired := [(3, 7)] })) (slotted retire)) [] (.activitySelfEnd 31) (fun t => decide ((slot31 t).state = 4)) &&
     (let s := slotted { headOut with state := 2, kind := 7, target := 2048 * 3 + 32 * 33, line := 0 };
      meets s [decide (s.dev.heldGranules.all (fun g => decide (g / 240 ≠ 15)))] (.activityStart 31) (fun t => t.dev.bit (Reg.FB_LSb_STATUS 15) 4 && t.dev.bit Reg.SV_FAULT 6)) &&
     (let s := slotted { headOut with kind := 7, target := 2048 * 3 + 32 * 33, line := 0 } [(Reg.FB_LSb_STATUS 15, 16)];
      meets s [] (.activitySelfEnd 31) (fun t => decide ((slot31 t).state = 4)) && stays (withRegs [(Reg.FB_LSb_STATUS 15, 0)] s) [] (.activitySelfEnd 31)) &&
     meets (on (fun d => { d with spare := { Spare.reset with state := 3, bank := 3 } }) (slotted { headOut with kind := 3, target := uid 9 3 31, line := 9 })) [] (.activityFail 31)
       (fun t => decide ((slot31 t).state = 6) && t.dev.bit Reg.SV_FAULT 2))] := by decide +kernel
theorem witness_LedgerTrimAndFaultLog_locks : ∀ y, ((on (fun d => d.updFab (fun f => { f with mirror := some (3, 7) })) (slotted retire))).dev.lockOwner y = none := by
  intro y
  simp [Dev.lockOwner, Dev.core, on, slotted, withRegs, Dev.setSlot, Dev.updFab, fresh, Dev.reset, Tasks.reset, SMap.get, SMap.find, Core.reset]
theorem witness_LedgerTrimAndFaultLog_copy : checks [
    (let s := fun (n : Nat) => { (on (fun d => d.updFab (fun f => { f with mirror := some (3, 7) })) (slotted { retire with line := n })) with mem := fresh.mem.writes (frameWrites (3 * 0x300000 + 64 * 49151) 8 0x0807060504030201) };
     meets (s 49151) [decide ((s 49151).dev.retireSlot = some 31)] .fmRetireCopyLine (fun t => decide (t.mem.frameNat (7 * 0x300000 + 64 * 49151) 8 = 0x0807060504030201 ∧ (slot31 t).line = 49152 ∧ (slot31 t).step = 3)) &&
     stays (s 49152) [] .fmRetireCopyLine && stays (s 49151) [] .fmRetireSwitch && stays fresh [] .fmRetireCopyLine &&
     meets (s 49152) [] .fmRetireSwitch (fun t => decide (t.dev.fab.retired = [(3, 7)] ∧ t.dev.fab.mirror = none ∧ (slot31 t).step = 4) && logs t (uid 14 1 0) 7 3))] := by decide +kernel
/-- The trim engine on, over trim sets of zeros. -/
def trimmed : State := on (fun d => { d with regs := { d.regs with live := (Reg.TR_CFG, 1) :: (List.range 20).map (fun i => (Reg.TR_SETk_Ww (i / 4) (i % 4), 0)) } })
theorem witness_LedgerTrimAndFaultLog_sets : ∀ k, k < 5 → ∀ w, w < 4 → trimmed.dev.rd (Reg.TR_SETk_Ww k w) = 0 := by decide +kernel
theorem witness_LedgerTrimAndFaultLog_records : checks [
    (let s := trimmed;
     s.running && s.dev.bit Reg.TR_CFG 0 && decide (s.dev.trim.out = []) && decide ((19200 : BitVec 16).toNat ≤ (19301 : BitVec 16).toNat) &&
     stays (withRegs [(Reg.TR_CFG, 0)]) [] (.trimTick [] [] [] [] [] [])),
    (let r : FaultRec := ⟨5, uid 9 3 31, 4, 2⟩;
     let q := fun (s : State) => on (fun d => { d with flt := { d.flt with queue := [r, r] } }) s;
     let esc := fun (act : Nat) => q (withRegs [(Reg.SV_ESCe 0, 2 ^ 31 + 2 ^ 20 * act + 65536 * 9 + 4), (Reg.VB_CFG 3, 1)]);
     meets (q fresh) [] .faultRecordEnter (fun t => decide (t.dev.flt = ⟨[r], 0, [r], 1, false, none⟩)) && stays fresh [] .faultRecordEnter &&
     meets (on (fun d => { d with flt := { d.flt with lost := 7 } }) (q fresh)) [] .faultRecordEnter (fun t => decide (t.dev.flt.log = [r, ⟨0, uid 14 0 0, 8, 7⟩] ∧ t.dev.flt.lost = 0) && t.dev.bit Reg.SV_FAULT 7) &&
     meets (esc 1) [] .faultRecordEnter (fun t => t.dev.flt.active && !t.dev.safe) && meets (esc 2) [] .faultRecordEnter (fun t => t.dev.flt.active && decide ((t.dev.bank 3).state = 3)) &&
     meets (esc 3) [] .faultRecordEnter (fun t => decide (t.dev.pw.phase = .warm 10)) && meets fresh [] .fltSet (fun t => t.dev.flt.active) &&
     meets (on (fun d => { d with flt := { d.flt with active := true } })) [] .fltClear (fun t => decide (t = fresh)) &&
     stays (on (fun d => { d with flt := { d.flt with active := true, setAt := some 0 } })) [] .fltClear),
    (let a : FaultRec := ⟨5, uid 9 3 31, 4, 2⟩;
     let b : FaultRec := ⟨5, uid 3 1 0, 1, 0⟩;
     let c : FaultRec := ⟨9, uid 0 0 0, 1, 0⟩;
     decide (firstRec [a, b, c] = some (b, [a, c])))] := by decide +kernel
theorem witness_LedgerTrimAndFaultLog_noShutter : noShutter (withRegs [(Reg.SV_ESCe 0, 2 ^ 31 + 2 ^ 21 + 65536 * 9 + 4), (Reg.VB_CFG 3, 1)]).dev :=
  noShutter_of _ (by decide +kernel)

end Sys2Proof.Tests
end

section
/-! ## The register file: generations, pending swaps, holding registers and W1C bits -/

namespace Sys2Proof.Machine

theorem lookupD_assign {α β : Type} [DecidableEq α] (d : β) (l : List (α × β)) (a b : α) (v : β) :
    lookupD d (assign l a v) b = if b = a then v else lookupD d l b := by
  induction l with
  | nil => simp [assign, lookupD, eq_comm]
  | cons p l ih =>
    obtain ⟨k, w⟩ := p
    by_cases hk : k = a
    · subst hk; by_cases hb : b = k <;> simp [assign, lookupD, hb, eq_comm]
    · by_cases hb : k = b
      · subst hb; simp [assign, lookupD, hk]
      · simp [assign, lookupD, hk, hb, ih]

theorem Dev.gen_setGen (d : Dev) (x y : SetId) (g : Nat) : (d.setGen x g).gen y = if y = x then g % 65536 else d.gen y := lookupD_assign ..

theorem Dev.heldOf_setHeld (d : Dev) (w r : Reader) (v : Option Word) : (d.setHeld w v).heldOf r = if r = w then v else d.heldOf r :=
  lookupD_assign ..

@[simp] theorem Dev.gen_dropSwap (d : Dev) (x y : SetId) : (d.dropSwap x).gen y = d.gen y := rfl
@[simp] theorem Dev.swapOf_setGen (d : Dev) (x y : SetId) (g : Nat) : (d.setGen x g).swapOf y = d.swapOf y := rfl
@[simp] theorem Dev.rd_setGen (d : Dev) (x : SetId) (g a : Nat) : (d.setGen x g).rd a = d.rd a := rfl
@[simp] theorem Dev.srd_setGen (d : Dev) (x : SetId) (g a : Nat) : (d.setGen x g).srd a = d.srd a := rfl
@[simp] theorem Dev.rd_dropSwap (d : Dev) (x : SetId) (a : Nat) : (d.dropSwap x).rd a = d.rd a := rfl
@[simp] theorem Dev.srd_dropSwap (d : Dev) (x : SetId) (a : Nat) : (d.dropSwap x).srd a = d.srd a := rfl
@[simp] theorem Dev.rd_setHeld (d : Dev) (w : Reader) (v : Option Word) (a : Nat) : (d.setHeld w v).rd a = d.rd a := rfl
@[simp] theorem Dev.heldOf_send (d : Dev) (x : Sent) (r : Reader) : (d.send x).heldOf r = d.heldOf r := rfl
@[simp] theorem Dev.heldOf_wr (d : Dev) (a : Nat) (v : Word) (r : Reader) : (d.wr a v).heldOf r = d.heldOf r := rfl

@[simp] theorem Dev.swapOf_dropSwap_same (d : Dev) (x : SetId) : (d.dropSwap x).swapOf x = none := by
  have hnone : (d.regs.swaps.filter (fun w => decide (w.set ≠ x))).find? (fun w => decide (w.set = x)) = none := by
    rw [List.find?_eq_none]; intro w hw; simpa using (List.mem_filter.mp hw).2
  simp only [Dev.swapOf, Dev.dropSwap_regs, hnone, Option.map_none]

theorem Dev.swapOf_dropSwap_other (d : Dev) {x y : SetId} (h : y ≠ x) : (d.dropSwap x).swapOf y = d.swapOf y := by
  have hpred : ∀ w : Swap, (w.set ≠ x ∧ w.set = y) ↔ w.set = y := fun w => ⟨And.right, fun hw => ⟨hw ▸ h, hw⟩⟩
  simp only [Dev.swapOf, Dev.dropSwap_regs, List.find?_filter, decide_eq_true_eq, hpred]

/-- The bits of a word inside and outside a mask. -/
theorem Word.toNat_eq_and_add_and_not (x v : Word) : x.toNat = (x.toNat &&& v.toNat) + (x &&& ~~~v).toNat := by
  have hdisjoint : (x &&& v) &&& (x &&& ~~~v) = 0#32 := by ext i hi; grind
  have hunion : (x &&& v) ||| (x &&& ~~~v) = x := by ext i hi; grind
  rw [← BitVec.toNat_and, ← BitVec.toNat_add_of_and_eq_zero hdisjoint, BitVec.add_eq_or_of_and_eq_zero _ _ hdisjoint, hunion]

/-- Clearing W1C bits (R5): the 1 bits of the written word read zero, the others stand. -/
theorem Dev.rd_clrBits_same (d : Dev) (a : Nat) (v : Word) : (d.clrBits a v.toNat).rd a = d.rd a &&& ~~~v := by
  have hsum := Word.toNat_eq_and_add_and_not (d.rd a) v
  rw [Dev.clrBits, Dev.rd_wrN_same, Dev.rdN, show (d.rd a).toNat - ((d.rd a).toNat &&& v.toNat) = (d.rd a &&& ~~~v).toNat by omega,
    BitVec.ofNat_toNat, BitVec.setWidth_eq]

theorem Dev.bit_clrBits (d : Dev) (a i : Nat) (v : Word) : (d.clrBits a v.toNat).bit a i = (d.bit a i && !v.toNat.testBit i) := by
  simp only [Dev.bit, Dev.rdN, Dev.rd_clrBits_same, BitVec.testBit_toNat, BitVec.getLsbD_and, BitVec.getLsbD_not]
  by_cases hi : i < 32
  · simp [hi]
  · simp [BitVec.getLsbD_of_ge _ _ (Nat.le_of_not_lt hi)]

/-- A command that writes no memory, where no write waits, changes the device alone. -/
theorem State.write_nothing (s : State) (t req : Nat) (d : Dev) (h : d.fab.held = []) : s.write t req (d, []) = s.withDev d := by
  simp [State.write, Dev.land, h, State.withDev, Mem.writes]

end Sys2Proof.Machine
end

section
/-! ## Shadow swaps (R7, R18, R19) -/

namespace Sys2Proof.Machine

theorem SMap.get_of_not_mem {β : Type} (d : β) (m : SMap β) {k : Nat} (h : k ∉ m.map Prod.fst) : SMap.get d m k = d := by
  induction m with
  | nil => rfl
  | cons p m ih =>
    obtain ⟨j, w⟩ := p
    simp only [List.map_cons, List.mem_cons, not_or] at h
    simpa [SMap.get, SMap.find, Ne.symm h.1] using ih h.2

/-- Writing some registers each with the value that a function gives it. -/
theorem Dev.rd_foldl_wr (f : Nat → Word) (l : List Nat) (d : Dev) (b : Nat) :
    (l.foldl (fun (e : Dev) a => e.wr a (f a)) d).rd b = if b ∈ l then f b else d.rd b := by
  induction l generalizing d with
  | nil => simp
  | cons a l ih =>
    rw [List.foldl_cons, ih, Dev.rd_wr]
    by_cases hb : b = a
    · subst hb; simp
    · simp [hb]

theorem Dev.rd_copySet (d : Dev) (x : SetId) (b : Nat) : (d.copySet x).rd b = if regSet b = some x then d.srd b else d.rd b := by
  rw [Dev.copySet, Dev.rd_foldl_wr]
  by_cases hx : regSet b = some x
  · by_cases hb : b ∈ d.regs.live.map Prod.fst ++ d.regs.shadow.map Prod.fst
    · rw [if_pos (List.mem_filter.mpr ⟨List.mem_eraseDups.mpr hb, by simpa using hx⟩), if_pos hx]
    · -- A register that neither copy lists stands at its reset value in both.
      have hlive : d.rd b = regReset b := SMap.get_of_not_mem _ _ fun h => hb (List.mem_append_left _ h)
      have hshadow : d.srd b = regReset b := SMap.get_of_not_mem _ _ fun h => hb (List.mem_append_right _ h)
      rw [hlive, hshadow, ite_self, ite_self]
  · rw [if_neg (fun h => hx (by simpa using (List.mem_filter.mp h).2)), if_neg hx]

@[simp] theorem Dev.srd_copySet (d : Dev) (x : SetId) (b : Nat) : (d.copySet x).srd b = d.srd b :=
  Dev.foldl_keeps (fun e => e.srd b) (fun e a => e.wr a (d.srd a)) (fun _ _ => rfl) _ d
@[simp] theorem Dev.gen_copySet (d : Dev) (x y : SetId) : (d.copySet x).gen y = d.gen y :=
  Dev.foldl_keeps (fun e => e.gen y) (fun e a => e.wr a (d.srd a)) (fun _ _ => rfl) _ d
@[simp] theorem Dev.swapOf_copySet (d : Dev) (x y : SetId) : (d.copySet x).swapOf y = d.swapOf y :=
  Dev.foldl_keeps (fun e => e.swapOf y) (fun e a => e.wr a (d.srd a)) (fun _ _ => rfl) _ d

/-- A set's swap, but for the generation of a unit that swaps with it. -/
def Dev.swapAlone (d : Dev) (x : SetId) : Dev := ((d.copySet x).dropSwap x).setGen x (d.gen x + 1)

theorem Dev.rd_swapAlone (d : Dev) (x : SetId) (b : Nat) : (d.swapAlone x).rd b = if regSet b = some x then d.srd b else d.rd b := by
  simp [Dev.swapAlone, Dev.rd_copySet]
@[simp] theorem Dev.srd_swapAlone (d : Dev) (x : SetId) (b : Nat) : (d.swapAlone x).srd b = d.srd b := by simp [Dev.swapAlone]
@[simp] theorem Dev.swapOf_swapAlone_same (d : Dev) (x : SetId) : (d.swapAlone x).swapOf x = none := by simp [Dev.swapAlone]
theorem Dev.swapOf_swapAlone_other (d : Dev) {x y : SetId} (h : y ≠ x) : (d.swapAlone x).swapOf y = d.swapOf y := by
  simp [Dev.swapAlone, Dev.swapOf_dropSwap_other _ h]
theorem Dev.gen_swapAlone (d : Dev) (x y : SetId) : (d.swapAlone x).gen y = if y = x then (d.gen x + 1) % 65536 else d.gen y := by
  simp [Dev.swapAlone, Dev.gen_setGen]

/-- The admission unit's generation advances with the scheduler's (R380, R381). -/
theorem Dev.swapCopy_tk (d : Dev) : d.swapCopy .tk = (d.swapAlone .tk).setGen .am (d.gen .am + 1) := by
  have ham : (d.swapAlone .tk).gen .am = d.gen .am := by simp [Dev.gen_swapAlone]
  rw [← ham]; rfl

theorem Dev.swapCopy_alone (d : Dev) {x : SetId} (htk : x ≠ .tk) (hvb : ∀ b, x ≠ .vb b) : d.swapCopy x = d.swapAlone x := by
  cases x with
  | vb b => exact absurd rfl (hvb b)
  | tk => exact absurd rfl htk
  | _ => rfl

/-- The sets whose swap does nothing to their unit beyond the copy. -/
def quietSets : List SetId :=
  [.wp 1, .wp 2, .wp 3, .wp 4, .wp 13, .wp 14, .wp 15, .wp 16, .wp 17, .sps, .gpio, .tk, .am, .fb, .hx, .gl, .sv, .tr, .db, .spare]

theorem quietSets_wp : ∀ u : Fin 20, SetId.wp u ∈ quietSets → u.val ≠ 0 ∧ ¬ (5 ≤ u.val ∧ u.val < 13) ∧ ¬ 18 ≤ u.val := by decide
theorem quietSets_ne_vb : ∀ x ∈ quietSets, ∀ b, x ≠ .vb b := by decide

theorem swapEffect_quiet (now : Now) {x : SetId} (o : Dev) (cd : Clock × Dev) (hx : x ∈ quietSets) : swapEffect now x o cd = cd := by
  cases x with
  | wp u =>
    obtain ⟨h0, hrg, hout⟩ := quietSets_wp u hx
    simp only [swapEffect, if_neg h0, if_neg hrg, if_neg hout]
  | sps | gpio | tk | am | fb | hx | gl | sv | tr | db | spare | bl => rfl
  | hp | pl | lt | wm | bv | vb | ana | anc | spm => simp [quietSets] at hx

theorem State.shadowSwap_none (s : State) {x : SetId} (h : s.dev.swapOf x = none) : s.shadowSwap x = s := by
  simp only [State.shadowSwap, h]
theorem State.shadowSwap_waits (s : State) {x : SetId} {b : Boundary} (h : s.dev.swapOf x = some b) (hb : s.dev.atBoundary x b = false) :
    s.shadowSwap x = s := by
  simp [State.shadowSwap, h, hb]
theorem State.shadowSwap_quiet (s : State) {x : SetId} {b : Boundary} (h : s.dev.swapOf x = some b) (hb : s.dev.atBoundary x b = true)
    (hx : x ∈ quietSets) : s.shadowSwap x = (s.reach (s.dev.swapFrom x)).withDev (s.dev.swapCopy x) := by
  simp [State.shadowSwap, h, hb, swapSet, swapEffect_quiet _ _ _ hx, State.withDev]

theorem exec_shadowSwap (s : State) (x : SetId) (hr : s.running = true) : exec (.shadowSwap x) s = .next (s.shadowSwap x) := by
  simp [exec, execShadowSwap, hr]

/-- What a swap of set x leaves of the register file (R7, R19), d before and e after. -/
def swapped (d e : Dev) (x : SetId) : Prop :=
  e.swapOf x = none ∧ (∀ y, y ≠ x → e.swapOf y = d.swapOf y) ∧ e.gen x = (d.gen x + 1) % 65536 ∧
    (∀ y, y ≠ x → ¬ (x = .tk ∧ y = .am) → e.gen y = d.gen y) ∧ (x = .tk → e.gen .am = (d.gen .am + 1) % 65536) ∧
    (∀ a, e.rd a = if regSet a = some x then d.srd a else d.rd a) ∧ ∀ a, e.srd a = d.srd a

theorem swapCopy_swapped (d : Dev) {x : SetId} (hx : x ∈ quietSets) : swapped d (d.swapCopy x) x := by
  by_cases htk : x = .tk
  · subst htk
    rw [Dev.swapCopy_tk]
    refine ⟨Dev.swapOf_swapAlone_same d _, fun y hy => Dev.swapOf_swapAlone_other d hy, ?_, fun y hy ham => ?_, fun _ => ?_,
      Dev.rd_swapAlone d _, Dev.srd_swapAlone d _⟩
    · simp [Dev.gen_setGen, Dev.gen_swapAlone]
    · have hyam : y ≠ .am := fun h => ham ⟨rfl, h⟩
      simp [Dev.gen_setGen, Dev.gen_swapAlone, hyam, hy]
    · simp [Dev.gen_setGen]
  · rw [Dev.swapCopy_alone d htk (quietSets_ne_vb x hx)]
    refine ⟨Dev.swapOf_swapAlone_same d x, fun y hy => Dev.swapOf_swapAlone_other d hy, ?_, fun y hy _ => ?_, fun h => absurd h htk,
      Dev.rd_swapAlone d x, Dev.srd_swapAlone d x⟩
    · rw [Dev.gen_swapAlone, if_pos rfl]
    · rw [Dev.gen_swapAlone, if_neg hy]

/-- Settles O56: a quiet set's swap is the copy of its shadow registers at the reached tick, and no other swap is done. -/
theorem swapsCopyTheWholeSet : Obligations.SwapsCopyTheWholeSet := by
  intro s x hr
  refine ⟨fun hnone => ?_, fun b hb haway => ?_, fun b hb hhere hx => ?_⟩
  · rw [exec_shadowSwap s x hr, State.shadowSwap_none s hnone]
  · rw [exec_shadowSwap s x hr, State.shadowSwap_waits s hb haway]
  · refine ⟨_, exec_shadowSwap s x hr, ?_⟩
    rw [State.shadowSwap_quiet s hb hhere hx]
    exact ⟨rfl, rfl, rfl, swapCopy_swapped s.dev hx⟩

end Sys2Proof.Machine
end

section
/-! ## Register writes by access code (R5, R6, R20) -/

namespace Sys2Proof.Machine
open Sys2Proof.Claims

theorem Dev.plainWrite_rw (d : Dev) {a : Nat} {r : RegRow} (v : Word) (hrow : regRow a = some r) (h : r.acc = .rw) :
    d.plainWrite a v = d.wrN a (v.toNat &&& r.mask) := by simp only [Dev.plainWrite, hrow, h]
theorem Dev.plainWrite_w1c (d : Dev) {a : Nat} {r : RegRow} (v : Word) (hrow : regRow a = some r) (h : r.acc = .w1c) :
    d.plainWrite a v = d.clrBits a v.toNat := by simp only [Dev.plainWrite, hrow, h]
theorem Dev.plainWrite_ignored (d : Dev) {a : Nat} {r : RegRow} (v : Word) (hrow : regRow a = some r) (hrw : r.acc ≠ .rw) (hw1c : r.acc ≠ .w1c) :
    d.plainWrite a v = d := by
  cases hacc : r.acc with
  | rw => exact absurd hacc hrw
  | w1c => exact absurd hacc hw1c
  | ro | rws | wo | rc => simp only [Dev.plainWrite, hrow, hacc]
theorem Dev.plainWrite_shadow (d : Dev) {a l : Nat} (v : Word) (hrow : regRow a = none) (h : shadowAt a = some l) :
    d.plainWrite a v = d.swr l (v &&& BitVec.ofNat 32 (regMask l)) := by simp only [Dev.plainWrite, hrow, h]
theorem Dev.plainWrite_reserved (d : Dev) {a : Nat} (v : Word) (hrow : regRow a = none) (h : shadowAt a = none) : d.plainWrite a v = d := by
  simp only [Dev.plainWrite, hrow, h]

@[simp] theorem Dev.plainWrite_fab (d : Dev) (a : Nat) (v : Word) : (d.plainWrite a v).fab = d.fab := by
  unfold Dev.plainWrite
  split
  · split <;> rfl
  · split <;> rfl

theorem Dev.srd_wrN (d : Dev) (a b v : Nat) : (d.wrN a v).srd b = d.srd b := rfl
theorem Dev.srd_clrBits (d : Dev) (a b m : Nat) : (d.clrBits a m).srd b = d.srd b := rfl

/-- A word without reserved bits, as a register holds it. -/
theorem Dev.rdN_wrN_masked (d : Dev) (a mask : Nat) (v : Word) : (d.wrN a (v.toNat &&& mask)).rdN a = v.toNat &&& mask := by
  rw [Dev.rdN, Dev.rd_wrN_same, BitVec.toNat_ofNat, Nat.mod_eq_of_lt (Nat.lt_of_le_of_lt Nat.and_le_left v.isLt)]

theorem Word.toNat_masked (v : Word) (mask : Nat) : (v &&& BitVec.ofNat 32 mask).toNat = v.toNat &&& mask := by
  rw [BitVec.toNat_and, BitVec.toNat_ofNat]
  apply Nat.eq_of_testBit_eq
  intro i
  by_cases hi : i < 32
  · rw [Nat.testBit_and, Nat.testBit_and, Nat.testBit_mod_two_pow, decide_eq_true hi, Bool.true_and]
  · simp [BitVec.testBit_toNat, BitVec.getLsbD_of_ge v i (Nat.le_of_not_lt hi)]

theorem State.regWrite_plain (s : State) {who : Reader} {a : Nat} {v : Word} (hheld : s.dev.fab.held = []) (hrst : a ≠ Reg.GL_RST)
    (hgap : a ≠ Reg.WP_GAP_CMD) (hown : s.dev.ownWrite s.mem s.now who a v = none) :
    s.regWrite who a v = s.withDev (s.dev.plainWrite a v) := by
  simp only [State.regWrite, if_neg hrst, if_neg hgap, hown, Option.getD_none]
  exact State.write_nothing s _ _ _ (by rw [Dev.plainWrite_fab, hheld])

theorem State.senderWrite_free (s : State) {who : Reader} {a : Nat} (v : Word) (hwho : ∀ l, who ≠ .link l) (hbusy : s.dev.swapBusy a = false) :
    s.senderWrite who a v = s.regWrite who a v := by
  cases who with
  | link l => exact absurd rfl (hwho l)
  | core k => simp [State.senderWrite, hbusy]
  | sps => simp [State.senderWrite, hbusy]
  | debug => simp [State.senderWrite, hbusy]

/-- A write refused for a pending swap (R20) leaves the register file; at most the context that a task core runs hears of it. -/
theorem State.senderWrite_busy (s : State) {who : Reader} {a : Nat} (v : Word) (hwho : ∀ l, who ≠ .link l) (hbusy : s.dev.swapBusy a = true) :
    ∃ d, s.senderWrite who a v = s.withDev d ∧ d.regs = s.dev.regs := by
  cases who with
  | link l => exact absurd rfl (hwho l)
  | core k =>
    cases hruns : s.dev.runs k with
    | some c => exact ⟨s.dev.refuse c a, by simp [State.senderWrite, hbusy, hruns], rfl⟩
    | none => exact ⟨s.dev, by simp [State.senderWrite, hbusy, hruns, State.withDev], rfl⟩
  | sps => exact ⟨s.dev, by simp [State.senderWrite, hbusy, State.withDev], rfl⟩
  | debug => exact ⟨s.dev, by simp [State.senderWrite, hbusy, State.withDev], rfl⟩

theorem exec_otherRegisterWrite (s : State) (who : Reader) (off : BitVec 20) (v : Word) (hr : s.running = true) :
    exec (.otherRegisterWrite who off v) s = .next (s.senderWrite who off.toNat v) := by
  simp [exec, execOtherRegisterWrite, hr]

/-- A command that only changes the device. -/
theorem deviceOnly_withDev (s : State) (d : Dev) : deviceOnly s (s.withDev d) := ⟨rfl, rfl, rfl⟩

/-- Settles O57: a write without an effect of its own comes to what the access code of its address gives. -/
theorem registerWritesFollowTheirAccess : Obligations.RegisterWritesFollowTheirAccess := by
  intro s who off v hr hheld hwho a writes
  refine ⟨fun hbusy => ?_, fun hfree hrst hgap hown => ?_⟩
  · obtain ⟨d, hd, hregs⟩ := State.senderWrite_busy s v hwho hbusy
    refine ⟨s.withDev d, by rw [exec_otherRegisterWrite s who off v hr, hd], deviceOnly_withDev s d, fun r => ?_, fun r => ?_⟩
    · rw [State.withDev_dev, Dev.rd, hregs]; rfl
    · rw [State.withDev_dev, Dev.srd, hregs]; rfl
  · have hexec : exec (.otherRegisterWrite who off v) s = .next (s.withDev (s.dev.plainWrite a v)) := by
      rw [exec_otherRegisterWrite s who off v hr, State.senderWrite_free s v hwho hfree, State.regWrite_plain s hheld hrst hgap hown]
    have hwrites : ∀ p : State → Prop, p (s.withDev (s.dev.plainWrite a v)) → writes p :=
      fun p hp => ⟨_, hexec, deviceOnly_withDev s _, hp⟩
    refine ⟨fun r hrow hacc => hwrites _ ?_, fun r hrow hacc => hwrites _ ?_, fun r hrow hrw hw1c => hwrites _ ?_,
      fun l hrow hl => hwrites _ ?_, fun hrow hl => hwrites _ ?_⟩
    · rw [Dev.plainWrite_rw _ v hrow hacc]
      exact ⟨Dev.rdN_wrN_masked _ a _ v, fun b hb => Dev.rd_wrN_other _ _ hb, fun b => Dev.srd_wrN _ a b _⟩
    · rw [Dev.plainWrite_w1c _ v hrow hacc]
      exact ⟨fun i => Dev.bit_clrBits _ a i v, fun b hb => Dev.rd_clrBits_other _ _ hb, fun b => Dev.srd_clrBits _ a b _⟩
    · exact Dev.plainWrite_ignored _ v hrow hrw hw1c
    · rw [Dev.plainWrite_shadow _ v hrow hl]
      exact ⟨(congrArg BitVec.toNat (Dev.srd_swr_same _ l _)).trans (Word.toNat_masked v _), fun b hb => Dev.srd_swr_other _ _ hb,
        fun b => Dev.rd_swr _ l b _⟩
    · exact Dev.plainWrite_reserved _ v hrow hl

end Sys2Proof.Machine
end

section
/-! ## Host reads (R5, R9, R10, R407) -/

namespace Sys2Proof.Machine

theorem idxIn_none {f : Nat → Nat} {n a : Nat} (h : ∀ i < n, f i ≠ a) : idxIn f n a = none :=
  List.find?_eq_none.mpr fun i hi => by simpa using h i (List.mem_range.mp hi)

/-- Every FIFO that a read takes from is a register that reading clears. -/
theorem regRow_ctlRx : ∀ n < 8, (regRow (Reg.HP_CTL_RX n)).map RegRow.acc = some .rc := by decide +kernel
theorem regRow_spRx : ∀ n < 4, (regRow (Reg.SP_Mn_RX n)).map RegRow.acc = some .rc := by decide +kernel

/-- No FIFO is read at an address. -/
def noFifo (a : Nat) : Prop := idxIn Reg.HP_CTL_RX 8 a = none ∧ idxIn Reg.SP_Mn_RX 4 a = none

theorem noFifo_of_not_rc {a : Nat} (h : (regRow a).map RegRow.acc ≠ some .rc) : noFifo a :=
  ⟨idxIn_none fun n hn ha => h (ha ▸ regRow_ctlRx n hn), idxIn_none fun n hn ha => h (ha ▸ regRow_spRx n hn)⟩

/-! ### What a read gives, by the kind of its address -/

theorem Dev.regRead_low (d : Dev) (m : Mem) (now : Now) (who : Reader) {a : Nat} (h : lowWord a = true) :
    d.regRead m now who a = (d.regValue m now who a, d.setHeld who (some (d.regValue m now who (a + 4)))) := by
  simp [Dev.regRead, h]

theorem Dev.regRead_high (d : Dev) (m : Mem) (now : Now) (who : Reader) {a : Nat} (h : lowWord a = false) (ha : 4 ≤ a)
    (hlow : lowWord (a - 4) = true) :
    d.regRead m now who a = ((d.heldOf who).getD (d.regValue m now who a), d.setHeld who none) := by
  simp [Dev.regRead, h, ha, hlow]

/-- An address of no 64-bit quantity and of no FIFO. -/
def plainRead (a : Nat) : Prop := lowWord a = false ∧ ¬ (4 ≤ a ∧ lowWord (a - 4) = true) ∧ noFifo a

theorem plainRead_of_not_rc {a : Nat} (hlow : lowWord a = false) (hhigh : 4 ≤ a → lowWord (a - 4) = false)
    (hacc : (regRow a).map RegRow.acc ≠ some .rc) : plainRead a :=
  ⟨hlow, fun h => Bool.false_ne_true ((hhigh h.1).symm.trans h.2), noFifo_of_not_rc hacc⟩

section
variable (d : Dev) (m : Mem) (now : Now) (who : Reader) {a : Nat}

theorem Dev.regRead_rc {r : RegRow} (h : plainRead a) (hrow : regRow a = some r) (hrc : r.acc = .rc) :
    d.regRead m now who a = (d.regValue m now who a, d.clearRc now.dtime a) := by
  obtain ⟨hlow, hhigh, hctl, hsp⟩ := h
  simp [Dev.regRead, hlow, if_neg hhigh, hctl, hsp, hrow, hrc]

theorem Dev.regRead_stored {r : RegRow} (h : plainRead a) (hrow : regRow a = some r) (hrc : r.acc ≠ .rc) :
    d.regRead m now who a = (d.regValue m now who a, d.readUses a) := by
  obtain ⟨hlow, hhigh, hctl, hsp⟩ := h
  simp [Dev.regRead, hlow, if_neg hhigh, hctl, hsp, hrow, hrc]

theorem Dev.regRead_reserved (h : plainRead a) (hrow : regRow a = none) : d.regRead m now who a = (d.regValue m now who a, d) := by
  obtain ⟨hlow, hhigh, hctl, hsp⟩ := h
  simp [Dev.regRead, hlow, if_neg hhigh, hctl, hsp, hrow]

end

theorem Dev.regValue_reserved (d : Dev) (m : Mem) (now : Now) (who : Reader) {a : Nat} (hrow : regRow a = none) (hsh : shadowAt a = none) :
    d.regValue m now who a = 0 := by simp [Dev.regValue, hrow, hsh]

theorem Dev.regValue_live (d : Dev) (m : Mem) (now : Now) (who : Reader) {a : Nat} {r : RegRow} (hrow : regRow a = some r) (hwo : r.acc ≠ .wo)
    (hst : d.statusWord m now who a = none) : d.regValue m now who a = d.rd a := by simp [Dev.regValue, hrow, hwo, hst]

theorem Dev.regValue_status (d : Dev) (m : Mem) (now : Now) (who : Reader) {a v : Nat} {r : RegRow} (hrow : regRow a = some r) (hwo : r.acc ≠ .wo)
    (hst : d.statusWord m now who a = some v) : d.regValue m now who a = BitVec.ofNat 32 v := by simp [Dev.regValue, hrow, hwo, hst]

@[simp] theorem Dev.rd_readUses (d : Dev) (a b : Nat) : (d.readUses a).rd b = d.rd b := by unfold Dev.readUses; split <;> rfl
@[simp] theorem Dev.heldOf_readUses (d : Dev) (a : Nat) (r : Reader) : (d.readUses a).heldOf r = d.heldOf r := by
  unfold Dev.readUses; split <;> rfl
@[simp] theorem Dev.sent_readUses (d : Dev) (a : Nat) : (d.readUses a).sent = d.sent := by unfold Dev.readUses; split <;> rfl

/-! ### DTIME and HX_WR_REJECT -/

theorem regRow_dtimeLo : regRow Reg.WP_DTIME_LO = some ⟨0xA0000, [], .ro, 0, 0⟩ := by decide +kernel
theorem regRow_dtimeHi : regRow Reg.WP_DTIME_HI = some ⟨0xA0004, [], .ro, 0, 0⟩ := by decide +kernel
theorem regRow_wrReject : regRow Reg.HX_WR_REJECT = some ⟨0x30014, [], .rc, 0, 0⟩ := by decide +kernel
theorem dtimeLo_next : Reg.WP_DTIME_LO + 4 = Reg.WP_DTIME_HI := rfl
theorem lowWord_dtimeLo : lowWord Reg.WP_DTIME_LO = true := by decide +kernel
theorem lowWord_dtimeHi : lowWord Reg.WP_DTIME_HI = false := by decide +kernel

theorem plainRead_wrReject : plainRead Reg.HX_WR_REJECT :=
  ⟨by decide +kernel, by decide +kernel, ⟨by decide +kernel, by decide +kernel⟩⟩

theorem Dev.regValue_dtimeLo (d : Dev) (m : Mem) (now : Now) (who : Reader) :
    d.regValue m now who Reg.WP_DTIME_LO = BitVec.ofNat 32 now.dtime :=
  Dev.regValue_status d m now who regRow_dtimeLo (by decide) rfl
theorem Dev.regValue_dtimeHi (d : Dev) (m : Mem) (now : Now) (who : Reader) :
    d.regValue m now who Reg.WP_DTIME_HI = BitVec.ofNat 32 (now.dtime / 2 ^ 32) :=
  Dev.regValue_status d m now who regRow_dtimeHi (by decide) rfl
theorem Dev.regValue_wrReject (d : Dev) (m : Mem) (now : Now) (who : Reader) :
    d.regValue m now who Reg.HX_WR_REJECT = d.rd Reg.HX_WR_REJECT :=
  Dev.regValue_live d m now who regRow_wrReject (by decide) rfl

theorem Dev.clearRc_wrReject (d : Dev) (t : Nat) : d.clearRc t Reg.HX_WR_REJECT = d.wr Reg.HX_WR_REJECT 0 := rfl

theorem exec_hostBar0Read (s : State) (l : Fin 2) (off : BitVec 20) (hr : s.running = true) {v : Word} {e : Dev}
    (hread : s.dev.regRead s.mem s.now (.link l) off.toNat = (v, e)) :
    exec (.hostBar0Read l off) s = .next (s.withDev (e.send (.completion l v))) := by
  simp [exec, execHostBar0Read, hr, hread, State.withDev]

/-- Settles O58: each clause is what a read of that kind of address gives, sent as the link's completion. -/
theorem hostReadsAndHoldingRegisters : Obligations.HostReadsAndHoldingRegisters := by
  intro s l off hr a reads
  -- What a read gives, sent as the link's completion, is what the command leaves.
  have hreads : ∀ (v : Word) (e : Dev) (p : State → Prop), s.dev.regRead s.mem s.now (.link l) a = (v, e) → e.sent = s.dev.sent →
      (∀ r, r ≠ .link l → e.heldOf r = s.dev.heldOf r) → p (s.withDev (e.send (.completion l v))) → reads v p :=
    fun v e p hread hsent hheld hp => ⟨_, exec_hostBar0Read s l off hr hread, deviceOnly_withDev s _, congrArg _ hsent, hheld, hp⟩
  have hothers : ∀ (v : Option Word) (r : Reader), r ≠ .link l → (s.dev.setHeld (.link l) v).heldOf r = s.dev.heldOf r :=
    fun v r h => by rw [Dev.heldOf_setHeld, if_neg h]
  refine ⟨fun ha => ?_, fun ha => ?_, fun ha => ?_, fun hrow hsh hlow hhigh => ?_, fun r hrow hacc hst hlow hhigh => ?_⟩
  · refine hreads _ (s.dev.setHeld (.link l) (some (BitVec.ofNat 32 (s.clock.dtime / 2 ^ 32)))) _ ?_ rfl (hothers _) ⟨?_, Dev.rd_setHeld _ _ _⟩
    · rw [ha, Dev.regRead_low _ _ _ _ lowWord_dtimeLo, Dev.regValue_dtimeLo, dtimeLo_next, Dev.regValue_dtimeHi, State.now_dtime]
    · simp [Dev.heldOf_setHeld]
  · refine hreads _ (s.dev.setHeld (.link l) none) _ ?_ rfl (hothers _) ⟨?_, Dev.rd_setHeld _ _ _⟩
    · rw [ha, Dev.regRead_high _ _ _ _ lowWord_dtimeHi (by decide) lowWord_dtimeLo, Dev.regValue_dtimeHi, State.now_dtime]
    · simp [Dev.heldOf_setHeld]
  · refine hreads _ (s.dev.wr Reg.HX_WR_REJECT 0) _ ?_ rfl (fun r _ => Dev.heldOf_wr _ _ _ r) ⟨Dev.rd_wr_same _ _ _, fun b hb => Dev.rd_wr_other _ _ hb⟩
    rw [ha, Dev.regRead_rc _ _ _ _ plainRead_wrReject regRow_wrReject rfl, Dev.regValue_wrReject, Dev.clearRc_wrReject]
  · refine hreads _ s.dev _ ?_ rfl (fun r _ => rfl) fun b => rfl
    rw [Dev.regRead_reserved _ _ _ _ (plainRead_of_not_rc hlow hhigh (by simp [hrow])) hrow, Dev.regValue_reserved _ _ _ _ hrow hsh]
  · refine hreads _ (s.dev.readUses a) _ ?_ (Dev.sent_readUses _ a) (fun r _ => Dev.heldOf_readUses _ a r) fun b => Dev.rd_readUses _ a b
    rw [Dev.regRead_stored _ _ _ _ (plainRead_of_not_rc hlow hhigh (by simp [hrow, hacc])) hrow (by simp [hacc]),
      Dev.regValue_live _ _ _ _ hrow (by simp [hacc]) hst]

end Sys2Proof.Machine
end

section
/-! ## The loader window and rejected host writes (R16, R17, R409) -/

namespace Sys2Proof.Machine
open Sys2Proof.Claims

/-! ### The count of rejected writes -/

theorem Dev.rd_bumpSat_other (d : Dev) {a b : Nat} (n : Nat) (h : b ≠ a) : (d.bumpSat a n).rd b = d.rd b := Dev.rd_wrN_other _ _ h

/-- A saturating counter reads the capped sum: the cap is a word, so none of it is lost. -/
theorem Dev.rdN_bumpSat_same (d : Dev) (a n : Nat) : (d.bumpSat a n).rdN a = min (2 ^ 32 - 1) (d.rdN a + n) := by
  rw [Dev.bumpSat, Dev.rdN, Dev.rd_wrN_same, BitVec.toNat_ofNat, Nat.mod_eq_of_lt (by omega)]

theorem Dev.hostReject_counts (d : Dev) :
    d.hostReject.rdN Reg.HX_WR_REJECT = min (2 ^ 32 - 1) (d.rdN Reg.HX_WR_REJECT + 1) ∧
      ∀ a, a ≠ Reg.HX_WR_REJECT → d.hostReject.rd a = d.rd a :=
  ⟨Dev.rdN_bumpSat_same d _ 1, fun _ ha => Dev.rd_bumpSat_other d 1 ha⟩

/-! ### The window -/

/-- Through the open window, bytes that fit are the little-endian writes of the number they make. -/
theorem Dev.loaderWrite_open (d : Dev) {off : Nat} {bytes : List Byte} (hopen : d.hx.loader = true) (hfit : off + bytes.length ≤ 2 ^ 20) :
    d.loaderWrite off bytes = (d, locWrites off bytes.length (leNat bytes)) := by
  have hall : (List.range bytes.length).filter (fun i => decide (off + i < 2 ^ 20)) = List.range bytes.length :=
    List.filter_eq_self.mpr fun i hi => by have := List.mem_range.mp hi; exact decide_eq_true (by omega)
  rw [Dev.loaderWrite, if_pos hopen, hall, locWrites]
  exact congrArg (Prod.mk d) (List.map_congr_left fun i hi => by rw [leNat_byte bytes i (List.mem_range.mp hi)])

theorem Dev.loaderWrite_closed (d : Dev) (off : Nat) (bytes : List Byte) (h : d.hx.loader = false) :
    d.loaderWrite off bytes = (d.hostReject, []) := by
  simp [Dev.loaderWrite, h]

theorem Dev.loaderClose_loader (d : Dev) (v : Word) : (d.loaderClose v).hx.loader = (d.hx.loader && !v.toNat.testBit 0) := by
  unfold Dev.loaderClose
  split
  · next h => rw [h, Bool.not_true, Bool.and_false]; rfl
  · next h => rw [Bool.eq_false_of_not_eq_true h, Bool.not_false, Bool.and_true]

theorem Dev.rd_loaderClose (d : Dev) (v : Word) (a : Nat) : (d.loaderClose v).rd a = d.rd a := by
  unfold Dev.loaderClose
  split <;> rfl

/-- The bytes of a list, written to local memory as one number, read back one by one; every other byte and record stands. -/
theorem Mem.writes_bytes_loc (m : Mem) {off : Nat} {bytes : List Byte} (hfit : off + bytes.length ≤ 2 ^ 20) :
    let m' := m.writes (locWrites off bytes.length (leNat bytes))
    (∀ i, i < bytes.length → m'.locByte (off + i) = bytes.getD i 0) ∧
      (∀ c, c < off ∨ off + bytes.length ≤ c → m'.locByte c = m.locByte c) ∧
      (∀ c, m'.frameByte c = m.frameByte c) ∧ ∀ c, m'.lastRec c = m.lastRec c := by
  refine ⟨fun i hi => ?_, fun c hc => ?_, fun c => (Mem.locWrites_keeps m off _ _ c).1, fun c => (Mem.locWrites_keeps m off _ _ c).2⟩
  · rw [Mem.locWrites_read, if_pos (by omega), Nat.add_sub_cancel_left, leNat_byte bytes i hi]
  · rw [Mem.locWrites_read, if_neg (by omega)]

/-! ### The commands, while the device runs -/

section
variable (s : State) (l : Fin 2) (off : BitVec 20) (hr : s.running = true)
include hr

theorem exec_loaderWrite (bytes : List Byte) (hheld : s.dev.fab.held = []) :
    exec (.loaderWrite l off bytes) s = .next (s.write s.clock.dtime 12 (s.dev.loaderWrite off.toNat bytes)) := by
  rw [exec, execLoaderWrite, State.fromHost_running _ _ _ hr, State.actWr_free _ _ _ hr hheld]

theorem exec_loaderWrite_open {bytes : List Byte} (hopen : s.dev.hx.loader = true) (hquiet : quietMemory s.dev)
    (hfit : off.toNat + bytes.length ≤ 2 ^ 20) :
    exec (.loaderWrite l off bytes) s = .next { s with mem := s.mem.writes (locWrites off.toNat bytes.length (leNat bytes)) } := by
  obtain ⟨hheld, hlock, hmirror, hretired, hpoison⟩ := hquiet
  rw [exec_loaderWrite s l off hr bytes hheld, Dev.loaderWrite_open _ hopen hfit, State.write, Dev.land_quiet _ _ _ _ hheld hlock hmirror hretired hpoison]

theorem exec_loaderWrite_closed (bytes : List Byte) (hclosed : s.dev.hx.loader = false) (hheld : s.dev.fab.held = []) :
    exec (.loaderWrite l off bytes) s = .next (s.withDev s.dev.hostReject) := by
  rw [exec_loaderWrite s l off hr bytes hheld, Dev.loaderWrite_closed _ _ _ hclosed, State.write_nothing s _ _ s.dev.hostReject hheld]

theorem exec_loaderClose (v : Word) : exec (.loaderClose l v) s = .next (s.withDev (s.dev.loaderClose v)) := by
  rw [exec, execLoaderClose, State.fromHost_running _ _ _ hr, State.act_running _ _ hr, State.withDev]

theorem exec_hostWriteReject_bar0 (v : Word) (h : s.dev.hostMayWrite off.toNat = false) :
    exec (.hostWriteReject l false off v) s = .next (s.withDev s.dev.hostReject) := by
  simp [exec, execHostWriteReject, hr, h, State.withDev]

end

/-- Settles O55: a write through the open window is a write of the bytes' number, every refused write is HX_WR_REJECT's count, and the
read of that count is O58's. -/
theorem loaderWindowAndRejectedWrites : Obligations.LoaderWindowAndRejectedWrites := by
  intro s l off hr
  refine ⟨fun bytes hopen hquiet hfit => ?_, fun bytes hclosed ⟨hheld, _⟩ => ?_, fun hoff => ?_, fun v => ?_, fun v hrefused => ?_⟩
  · exact ⟨_, exec_loaderWrite_open s l off hr hopen hquiet hfit, rfl, rfl, rfl, Mem.writes_bytes_loc s.mem hfit⟩
  · exact ⟨_, exec_loaderWrite_closed s l off hr bytes hclosed hheld, deviceOnly_withDev s _, Dev.hostReject_counts s.dev⟩
  · obtain ⟨-, -, hreject, -⟩ := hostReadsAndHoldingRegisters s l off hr
    obtain ⟨t, hexec, honly, hsent, -, hclear, -⟩ := hreject hoff
    exact ⟨t, hexec, honly, hsent, hclear⟩
  · exact ⟨_, exec_loaderClose s l hr v, deviceOnly_withDev s _, Dev.loaderClose_loader s.dev v, Dev.rd_loaderClose s.dev v⟩
  · exact ⟨_, exec_hostWriteReject_bar0 s l off hr v hrefused, deviceOnly_withDev s _, rfl, Dev.hostReject_counts s.dev⟩

end Sys2Proof.Machine
end

section
/-! ## The clock: DTIME never runs back (R31, R433) -/

namespace Sys2Proof.Machine

theorem Clock.pass_dtime (c : Clock) (dt : Nat) : (c.pass dt).dtime = c.dtime + if c.drive then dt else 0 := by
  unfold Clock.pass; split <;> rfl
theorem Clock.reach_dtime (c : Clock) (t : Nat) : (c.reach t).dtime = if c.drive then max c.dtime t else c.dtime := by
  unfold Clock.reach; split <;> rfl

/-- Settles O1: the first half is the definition of a step, the second one tick of an idle device. -/
theorem stepRunsTheFrontCommand : Obligations.StepRunsTheFrontCommand := by
  refine ⟨fun c cs s => rfl, fun s hempty => ⟨s.idle, ?_, hempty, rfl, rfl, Clock.pass_wpos _ _, Clock.pass_dtime _ _⟩⟩
  rw [step, hempty]

/-- From c to e: DTIME has not run back, its PLL is as it was, and with the PLL out DTIME stands (R31). -/
def Clock.runsOn (c e : Clock) : Prop := c.dtime ≤ e.dtime ∧ e.drive = c.drive ∧ (c.drive = false → e.dtime = c.dtime)

/-- From c to e: DTIME and its PLL stand; WPOS and its fraction may move. -/
def Clock.sameTime (c e : Clock) : Prop := e.dtime = c.dtime ∧ e.drive = c.drive

theorem Clock.sameTime_refl (c : Clock) : c.sameTime c := ⟨rfl, rfl⟩
theorem Clock.sameTime.trans {c e f : Clock} (h : c.sameTime e) (h' : e.sameTime f) : c.sameTime f := ⟨h'.1.trans h.1, h'.2.trans h.2⟩
theorem Clock.sameTime.runsOn {c e : Clock} (h : c.sameTime e) : c.runsOn e := ⟨h.1.ge, h.2, fun _ => h.1⟩
theorem Clock.runsOn_refl (c : Clock) : c.runsOn c := (Clock.sameTime_refl c).runsOn
theorem Clock.runsOn_of_eq {c e : Clock} (h : e = c) : c.runsOn e := h ▸ (Clock.sameTime_refl c).runsOn
theorem Clock.runsOn.trans {c e f : Clock} (h : c.runsOn e) (h' : e.runsOn f) : c.runsOn f := by
  obtain ⟨hle, hdrive, hstand⟩ := h
  obtain ⟨hle', hdrive', hstand'⟩ := h'
  exact ⟨hle.trans hle', hdrive'.trans hdrive, fun hout => (hstand' (hdrive.trans hout)).trans (hstand hout)⟩
theorem Clock.runsOn_pass (c : Clock) (dt : Nat) : c.runsOn (c.pass dt) := by
  refine ⟨?_, Clock.pass_drive c dt, fun hout => ?_⟩ <;> rw [Clock.pass_dtime]
  · exact Nat.le_add_right _ _
  · simp [hout]
theorem Clock.runsOn_reach (c : Clock) (t : Nat) : c.runsOn (c.reach t) := by
  refine ⟨?_, Clock.reach_drive c t, fun hout => ?_⟩ <;> rw [Clock.reach_dtime]
  · split
    · exact le_max_left _ _
    · exact le_rfl
  · simp [hout]

/-! ### The encoders and the swaps work on the clock, and leave DTIME -/

theorem takeover_sameTime (cd : Clock × Dev) : cd.1.sameTime (takeover cd).1 := by
  unfold takeover; dsimp only; split <;> exact ⟨rfl, rfl⟩

theorem illegalEdge_sameTime (n : Nat) (cd : Clock × Dev) : cd.1.sameTime (illegalEdge n cd).1 := by
  unfold illegalEdge; dsimp only
  split_ifs
  · exact takeover_sameTime _
  all_goals exact Clock.sameTime_refl _

theorem secondaryCount_sameTime (travel : Int) (cd : Clock × Dev) : cd.1.sameTime (secondaryCount travel cd).1 := by
  unfold secondaryCount; dsimp only
  split
  · exact takeover_sameTime _
  · exact Clock.sameTime_refl _

/-- The travel of one count of encoder n (R34). -/
def Dev.countTravel (d : Dev) (n : Nat) (fwd : Bool) : Int := (if fwd then 1 else -1) * d.rdN (Reg.WP_ENCn_SCALE n)
/-- A count of encoder n in its own registers (R33). -/
def Dev.countEdge (d : Dev) (t n : Nat) (fwd : Bool) : Dev :=
  (d.wrI (Reg.WP_ENCn_COUNT n) (d.rdI (Reg.WP_ENCn_COUNT n) + if fwd then 1 else -1)).wr64 (Reg.WP_ENCn_EDGE_LO n) t
/-- What a count of the encoder that feeds WPOS moves (R34 to R36, R42). -/
def sourceCount (travel : Int) (fwd : Bool) (cd : Clock × Dev) : Clock × Dev :=
  let e := if cd.2.wposEn then cd.1.move travel else cd.1
  let d := cd.2.speedCount cd.1.dtime e.wpos (!fwd)
  (e, if e.wpos = cd.1.wpos then d else d.webMoved cd.1.wpos false)

/-- A count, stage by stage: the encoder's registers, the source's position, the primary's watch, the secondary's. -/
theorem encCount_eq (n : Nat) (fwd : Bool) (c : Clock) (d : Dev) :
    encCount n fwd (c, d) =
      let e := d.countEdge c.dtime n fwd
      let r := if n = e.source then sourceCount (d.countTravel n fwd) fwd (c, e) else (c, e)
      let r := if n = e.primary then (r.1, r.2.primaryCount c.dtime (d.countTravel n fwd)) else r
      if n = e.secondary then secondaryCount (d.countTravel n fwd) r else r := rfl

theorem sourceCount_sameTime (travel : Int) (fwd : Bool) (cd : Clock × Dev) : cd.1.sameTime (sourceCount travel fwd cd).1 := by
  unfold sourceCount; dsimp only; split <;> exact ⟨rfl, rfl⟩

theorem encCount_sameTime (n : Nat) (fwd : Bool) (c : Clock) (d : Dev) : c.sameTime (encCount n fwd (c, d)).1 := by
  rw [encCount_eq]
  extract_lets e r q
  have hr : c.sameTime r.1 := by
    unfold r; split
    · exact sourceCount_sameTime _ _ _
    · exact Clock.sameTime_refl c
  have hq : q.1 = r.1 := by unfold q; split <;> rfl
  split
  · exact hr.trans (hq ▸ secondaryCount_sameTime _ q)
  · exact hq ▸ hr

theorem encEdge_sameTime (n : Nat) (new : EncPins) (stable : Nat) (cd : Clock × Dev) : cd.1.sameTime (encEdge n new stable cd).1 := by
  unfold encEdge; dsimp only
  split
  · exact Clock.sameTime_refl _
  · split
    · exact Clock.sameTime_refl _
    · exact illegalEdge_sameTime n _
    · exact encCount_sameTime n _ _ _

theorem Clock.sameTime_clearFrac (c : Clock) (p : Prop) [Decidable p] : c.sameTime (if p then { c with frac := 0 } else c) := by
  split <;> exact ⟨rfl, rfl⟩

theorem wpCfgSwap_sameTime (old : Nat) (cd : Clock × Dev) : cd.1.sameTime (wpCfgSwap old cd).1 := by
  unfold wpCfgSwap; dsimp only; exact Clock.sameTime_clearFrac _ _

theorem swapEffect_sameTime (now : Now) (x : SetId) (o : Dev) (cd : Clock × Dev) : cd.1.sameTime (swapEffect now x o cd).1 := by
  cases x with
  | wp u =>
    unfold swapEffect; dsimp only
    split_ifs
    · exact wpCfgSwap_sameTime _ _
    all_goals exact Clock.sameTime_refl _
  | _ => unfold swapEffect; exact Clock.sameTime_refl cd.1

theorem swapSet_sameTime (now : Now) (x : SetId) (cd : Clock × Dev) : cd.1.sameTime (swapSet now x cd).1 := swapEffect_sameTime now x cd.2 _

theorem swapAt_sameTime (now : Now) (b : Boundary) (p : SetId → Bool) (cd : Clock × Dev) : cd.1.sameTime (swapAt now b p cd).1 := by
  unfold swapAt
  generalize List.map Swap.set _ = sets
  induction sets generalizing cd with
  | nil => exact Clock.sameTime_refl _
  | cons x sets ih => exact (swapSet_sameTime now x cd).trans (ih _)

theorem State.runsOn_swapsAt {c : Clock} {s : State} (h : c.runsOn s.clock) (b : Boundary) (p : SetId → Bool) : c.runsOn (s.swapsAt b p).clock :=
  h.trans (swapAt_sameTime s.now b p (s.clock, s.dev)).runsOn

theorem State.withDev_runsOn (s : State) (d : Dev) : s.clock.runsOn (s.withDev d).clock := Clock.runsOn_refl _

/-! ### The rows that act on the whole state -/

theorem State.shadowSwap_runsOn (s : State) (x : SetId) : s.clock.runsOn (s.shadowSwap x).clock := by
  unfold State.shadowSwap; dsimp only
  split
  · split
    · exact (Clock.runsOn_reach _ _).trans (swapSet_sameTime _ x (_, _)).runsOn
    · exact Clock.runsOn_refl _
  · exact Clock.runsOn_refl _

theorem State.rowEmit_runsOn (s : State) (n : Fin 8) : s.clock.runsOn (s.rowEmit n).clock := by
  unfold State.rowEmit; dsimp only
  split
  · exact Clock.runsOn_refl _
  · next t _ =>
    refine State.runsOn_swapsAt ?_ _ _
    rw [State.withDev_clock]
    exact State.runsOn_swapsAt (Clock.runsOn_reach s.clock t) _ _

theorem State.afterGap_runsOn (s : State) (r : Dev × Bool) : s.clock.runsOn (s.afterGap r).clock := by
  unfold State.afterGap; dsimp only
  split
  · rw [State.withDev_clock]
    exact State.runsOn_swapsAt (State.withDev_runsOn s _) _ _
  · exact Clock.runsOn_refl _

theorem State.headStart_runsOn (s : State) (n : Fin 8) (hdr : Hdr) : s.clock.runsOn (s.headStart n hdr).clock := by
  unfold State.headStart; dsimp only
  split_ifs
  · exact Clock.runsOn_refl _
  · exact Clock.runsOn_refl _
  · exact Clock.runsOn_refl _
  · exact State.runsOn_swapsAt (State.withDev_runsOn s _) _ _
  all_goals
    rw [State.withDev_clock]
    exact State.runsOn_swapsAt (State.withDev_runsOn s _) _ _

theorem State.pipeLatch_runsOn (s : State) (p : Fin 2) : s.clock.runsOn (s.pipeLatch p).clock := by
  unfold State.pipeLatch; dsimp only
  split
  · exact Clock.runsOn_refl _
  · rw [State.write_clock]
    exact State.runsOn_swapsAt (Clock.runsOn_refl _) _ _

theorem State.mapFirstLine_runsOn (s : State) (p : Fin 2) : s.clock.runsOn (s.mapFirstLine p).clock := by
  unfold State.mapFirstLine; dsimp only
  rw [State.withDev_clock]
  split
  · exact State.runsOn_swapsAt (Clock.runsOn_refl _) _ _
  · exact Clock.runsOn_refl _

theorem State.sequenceEnd_runsOn (s : State) (x : Fin 4) : s.clock.runsOn (s.sequenceEnd x).clock := by
  unfold State.sequenceEnd; dsimp only
  split
  · exact Clock.runsOn_refl _
  · rw [State.withDev_clock]
    split
    · exact State.withDev_runsOn s _
    · exact State.runsOn_swapsAt (State.withDev_runsOn s _) _ _

@[simp] theorem State.warmStart_clock (s : State) (cause : Nat) : (s.warmStart cause).clock = s.clock := by
  unfold State.warmStart; dsimp only
  split
  · rfl
  · simp only [apply_ite State.clock, ite_self]
  · rfl
  · rfl

@[simp] theorem State.pllRetry_clock (s : State) (p : Nat) : (s.pllRetry p).clock = s.clock := by unfold State.pllRetry; split <;> rfl
@[simp] theorem State.pllLost_clock (s : State) (p : Nat) : (s.pllLost p).clock = s.clock := by unfold State.pllLost; split <;> rfl

@[simp] theorem State.rstWrite_clock (s : State) (who : Reader) (v : Word) : (s.rstWrite who v).clock = s.clock := by
  unfold State.rstWrite
  simp only [apply_ite State.clock, State.warmStart_clock, ite_self]

theorem State.wdogExpire_runsOn (s : State) (t : Nat) : s.clock.runsOn (s.wdogExpire t).clock := by
  unfold State.wdogExpire; dsimp only
  split_ifs
  · rw [State.warmStart_clock]; exact Clock.runsOn_reach _ _
  · rw [State.warmStart_clock]; exact Clock.runsOn_refl _
  · exact Clock.runsOn_refl _

@[simp] theorem State.flr_clock (s : State) (l : Nat) : (s.flr l).clock = s.clock := by
  unfold State.flr; dsimp only
  split_ifs
  · exact State.warmStart_clock _ _
  · rfl
  · rfl

@[simp] theorem State.enterRec_clock (s : State) : s.enterRec.clock = s.clock := by
  unfold State.enterRec; dsimp only
  split
  · exact State.warmStart_clock _ _
  · rfl

@[simp] theorem State.tapReset_clock (s : State) (v : BitVec 16) : (s.tapReset v).clock = s.clock := by
  unfold State.tapReset; dsimp only
  split_ifs
  · rfl
  · exact State.warmStart_clock _ _
  · rfl

theorem State.gapCommand_runsOn (s : State) (v : Nat) : s.clock.runsOn (s.gapCommand v).clock := by
  unfold State.gapCommand; dsimp only
  refine .trans ?_ (State.afterGap_runsOn _ _)
  split <;> exact Clock.runsOn_refl _

theorem State.regWrite_runsOn (s : State) (who : Reader) (a : Nat) (v : Word) : s.clock.runsOn (s.regWrite who a v).clock := by
  unfold State.regWrite
  split_ifs
  · exact Clock.runsOn_of_eq (State.rstWrite_clock s who v)
  · exact State.gapCommand_runsOn s _
  · exact Clock.runsOn_refl _

theorem State.senderWrite_runsOn (s : State) (who : Reader) (a : Nat) (v : Word) : s.clock.runsOn (s.senderWrite who a v).clock := by
  have hwrite := State.regWrite_runsOn s who a v
  have hstay : s.clock.runsOn s.clock := Clock.runsOn_refl _
  cases who with
  | link l => unfold State.senderWrite; dsimp only; split; exacts [hwrite, hstay]
  | core k =>
    unfold State.senderWrite; dsimp only
    split
    · split <;> exact hstay
    · exact hwrite
  | _ => unfold State.senderWrite; dsimp only; split; exacts [hstay, hwrite]

theorem State.dst_runsOn (s : State) (k : Fin 4) (rs ra : Fin 16) (imm : BitVec 18) : s.clock.runsOn (s.dst k rs ra imm).clock := by
  unfold State.dst; dsimp only
  split
  · exact Clock.runsOn_refl _
  · split_ifs
    · exact Clock.runsOn_of_eq (State.write_clock _ _ _ _)
    · exact Clock.runsOn_of_eq (State.write_clock _ _ _ _)
    · exact Clock.runsOn_of_eq (State.write_clock _ _ _ _)
    · exact Clock.runsOn_refl _
    · exact (State.withDev_runsOn s _).trans (State.senderWrite_runsOn _ _ _ _)

theorem State.tapWrite_runsOn (s : State) (a : Nat) (v : Word) : s.clock.runsOn (s.tapWrite a v).clock := by
  unfold State.tapWrite
  split_ifs
  · exact Clock.runsOn_refl _
  · exact Clock.runsOn_refl _
  · exact (State.withDev_runsOn s _).trans (State.senderWrite_runsOn _ _ _ _)

/-! ### The shared ways in which a command acts -/

/-- DTIME runs on from s to whatever next state the result gives. -/
def State.timeKept (s : State) (r : Result) : Prop := ∀ t, r = .next t → s.clock.runsOn t.clock

theorem State.timeKept_next {s t : State} (h : s.clock.runsOn t.clock) : s.timeKept (.next t) := fun u hu => by cases hu; exact h
theorem State.timeKept_of_clock {s t : State} (h : t.clock = s.clock) : s.timeKept (.next t) := State.timeKept_next (Clock.runsOn_of_eq h)

/-- Time passes, and then the command acts. -/
theorem State.timeKept.of_pass {s : State} {dt : Nat} {r : Result} (h : (s.pass dt).timeKept r) : s.timeKept r :=
  fun t ht => (Clock.runsOn_pass s.clock dt).trans (h t ht)

theorem State.act_timeKept (s : State) (f : Now → Dev → Dev) : s.timeKept (s.act f) := by
  obtain ⟨t, ht, -, hclock, -⟩ := State.act_law s f
  exact ht ▸ State.timeKept_of_clock hclock

theorem State.actMem_timeKept (s : State) (f : Now → Mem → Dev → Dev) : s.timeKept (s.actMem f) := by
  obtain ⟨t, ht, -, hclock, -⟩ := State.actMem_law s f
  exact ht ▸ State.timeKept_of_clock hclock

theorem State.actWr_timeKept (s : State) (req : Nat) (f : Now → Mem → Dev → Dev × List MemWrite) : s.timeKept (s.actWr req f) := by
  obtain ⟨t, ht, -, hclock, -⟩ := State.actWr_law s req f
  exact ht ▸ State.timeKept_of_clock hclock

theorem State.ercel_timeKept (s : State) (k : Fin 4) (f : Now → Mem → Nat → TaskCtx → Dev → Dev × List MemWrite) : s.timeKept (s.ercel k f) := by
  unfold State.ercel; exact State.actWr_timeKept s _ _
theorem State.ercelAfter_timeKept (s : State) (k : Fin 4) (f : Now → Mem → Nat → TaskCtx → Dev → Dev × List MemWrite) : s.timeKept (s.ercelAfter k f) := by
  unfold State.ercelAfter; exact State.actWr_timeKept s _ _
theorem State.ercelReg_timeKept (s : State) (k : Fin 4) (f : TaskCtx → TaskCtx) : s.timeKept (s.ercelReg k f) := by
  unfold State.ercelReg; exact State.ercel_timeKept s k _
theorem State.alu_timeKept (s : State) (k : Fin 4) (rd ra rb : Fin 16) (f : Flags → Word → Word → AluOut) : s.timeKept (s.alu k rd ra rb f) := by
  unfold State.alu; exact State.ercelReg_timeKept s k _
theorem State.aluImm_timeKept (s : State) (k : Fin 4) (rd ra : Fin 16) (f : Flags → Word → AluOut) : s.timeKept (s.aluImm k rd ra f) := by
  unfold State.aluImm; exact State.ercelReg_timeKept s k _
theorem State.loadOp_timeKept (s : State) (k : Fin 4) (rd ra : Fin 16) (imm : BitVec 18) (n : Nat) (ext : Nat → Word) (bad : Bool) :
    s.timeKept (s.loadOp k rd ra imm n ext bad) := by
  unfold State.loadOp; exact State.ercel_timeKept s k _
theorem State.storeOp_timeKept (s : State) (k : Fin 4) (rs ra : Fin 16) (imm : BitVec 18) (n : Nat) : s.timeKept (s.storeOp k rs ra imm n) := by
  unfold State.storeOp; exact State.ercel_timeKept s k _

theorem State.actDue_timeKept (s : State) (due : Now → Dev → Option Nat) (f : Now → Dev → Dev) : s.timeKept (s.actDue due f) := by
  obtain ⟨t, ht, -, -, rfl | ⟨x, -, hclock, -⟩⟩ := State.actDue_law s due f
  · exact ht ▸ State.timeKept_of_clock rfl
  · exact ht ▸ State.timeKept_next (hclock ▸ Clock.runsOn_reach _ x)

theorem State.writeOrStall_clock (s : State) (t req : Nat) (r : Dev × List MemWrite) : (s.writeOrStall t req r).clock = s.clock := by
  unfold State.writeOrStall; split <;> rfl

theorem State.actDueWr_timeKept (s : State) (req : Nat) (due : Now → Dev → Option Nat) (f : Now → Mem → Dev → Dev × List MemWrite) :
    s.timeKept (s.actDueWr req due f) := by
  obtain ⟨t, ht, -, rfl | ⟨x, -, rfl⟩⟩ := State.actDueWr_law s req due f
  · exact ht ▸ State.timeKept_of_clock rfl
  · exact ht ▸ State.timeKept_next (by rw [State.writeOrStall_clock]; exact Clock.runsOn_reach _ x)

theorem State.actAll_timeKept {s : State} {f : State → State} (h : s.clock.runsOn (f s).clock) : s.timeKept (s.actAll f) := by
  obtain ⟨t, ht, rfl | rfl⟩ := State.actAll_law s f
  · exact ht ▸ State.timeKept_of_clock rfl
  · exact ht ▸ State.timeKept_next h

theorem State.actLink_timeKept (s : State) (f : Now → Dev → Dev) : s.timeKept (s.actLink f) := by
  unfold State.actLink; split <;> exact State.timeKept_of_clock rfl

theorem State.fromHost_timeKept {s : State} (i : Instr) {r : Result} (h : s.timeKept r) : s.timeKept (s.fromHost i r) := by
  obtain hr | ⟨-, hwait⟩ := State.fromHost_law s i r
  · exact hr.symm ▸ h
  · exact hwait.symm ▸ State.timeKept_of_clock rfl

theorem State.fromSender_timeKept {s : State} (who : Reader) (i : Instr) {r : Result} (h : s.timeKept r) : s.timeKept (s.fromSender who i r) := by
  cases who with
  | link l => exact State.fromHost_timeKept i h
  | _ => exact h

/-! ### Every command -/

theorem hostRequest_timeKept (s : State) (i : Instr) : s.timeKept (hostRequest s i) := by
  cases i with
  | hostWriteReject | loaderClose | ringDoorbell | ringCfgWrite => exact State.fromHost_timeKept _ (State.act_timeKept s _)
  | loaderWrite => exact State.fromHost_timeKept _ (State.actWr_timeKept s _ _)
  | hostBar0Read => exact State.fromHost_timeKept _ (State.actMem_timeKept s _)
  | featAcceptWrite | featureCommit | contextSetup | contextRelease | contextRestart | coreReturnToService =>
    exact State.fromSender_timeKept _ _ (State.act_timeKept s _)
  | contextStop => exact State.fromSender_timeKept _ _ (State.actWr_timeKept s _ _)
  | otherRegisterWrite => exact State.fromSender_timeKept _ _ (State.actAll_timeKept (State.senderWrite_runsOn s _ _ _))
  | _ => exact State.timeKept_of_clock rfl

theorem State.afterRequest_runsOn (s : State) (i : Instr) : s.clock.runsOn (s.afterRequest i).clock := by
  unfold State.afterRequest
  split
  · next t ht => exact hostRequest_timeKept s i t ht
  · exact Clock.runsOn_refl _

theorem State.afterRequests_runsOn (l : List Instr) (s : State) : s.clock.runsOn (l.foldl State.afterRequest s).clock := by
  induction l generalizing s with
  | nil => exact Clock.runsOn_refl _
  | cons i l ih => exact (State.afterRequest_runsOn s i).trans (ih _)

theorem execEncEdge_timeKept (s : State) (dt : Nat) (n : Fin 4) (a b : Bool) (stable : Nat) : s.timeKept (execEncEdge dt n a b stable s) := by
  refine State.timeKept.of_pass (dt := dt) ?_
  unfold execEncEdge; dsimp only
  split
  · exact State.timeKept_of_clock rfl
  · exact State.timeKept_of_clock rfl
  · exact State.timeKept_next (encEdge_sameTime n ⟨a, b⟩ stable (_, _)).runsOn

theorem execRowEmit_timeKept (s : State) (n : Fin 8) : s.timeKept (execRowEmit n s) :=
  State.actAll_timeKept (f := (State.rowEmit · n)) (State.rowEmit_runsOn s n)
theorem execPlFrameLatch_timeKept (s : State) (p : Fin 2) : s.timeKept (execPlFrameLatch p s) :=
  State.actAll_timeKept (f := (State.pipeLatch · p)) (State.pipeLatch_runsOn s p)
theorem execWmFrameFirstLine_timeKept (s : State) (p : Fin 2) : s.timeKept (execWmFrameFirstLine p s) :=
  State.actAll_timeKept (f := (State.mapFirstLine · p)) (State.mapFirstLine_runsOn s p)
theorem execAdcSequenceEnd_timeKept (s : State) (x : Fin 4) : s.timeKept (execAdcSequenceEnd x s) :=
  State.actAll_timeKept (f := (State.sequenceEnd · x)) (State.sequenceEnd_runsOn s x)
theorem execDst_timeKept (s : State) (k : Fin 4) (rs ra : Fin 16) (imm : BitVec 18) : s.timeKept (execDst k rs ra imm s) :=
  State.actAll_timeKept (f := (State.dst · k rs ra imm)) (State.dst_runsOn s k rs ra imm)
theorem execTapResetUpdate_timeKept (s : State) (v : BitVec 16) : s.timeKept (execTapResetUpdate v s) :=
  State.actAll_timeKept (f := (State.tapReset · v)) (Clock.runsOn_of_eq (State.tapReset_clock s v))
theorem execHpFrameStart_timeKept (s : State) (dt : Nat) (n : Fin 8) (hdr : Hdr) : s.timeKept (execHpFrameStart dt n hdr s) :=
  (State.actAll_timeKept (s := s.pass dt) (f := (State.headStart · n hdr)) (State.headStart_runsOn _ n hdr)).of_pass

theorem execTapDeviceWrite_timeKept (s : State) (addr data : Word) : s.timeKept (execTapDeviceWrite addr data s) := by
  unfold execTapDeviceWrite
  refine State.actAll_timeKept ?_
  split
  · exact State.tapWrite_runsOn s _ _
  · exact Clock.runsOn_refl _

theorem execTrgEdge_timeKept (s : State) (dt : Nat) (n : Fin 4) (level : Bool) (stable : Nat) : s.timeKept (execTrgEdge dt n level stable s) := by
  unfold execTrgEdge
  exact (State.actAll_timeKept (State.afterGap_runsOn (s.pass dt) _)).of_pass

theorem execGapSoftwareOpen_timeKept (s : State) (dt : Nat) : s.timeKept (execGapSoftwareOpen dt s) := by
  unfold execGapSoftwareOpen
  exact (State.actAll_timeKept (State.afterGap_runsOn (s.pass dt) _)).of_pass

theorem execGapPlanDue_timeKept (s : State) : s.timeKept (execGapPlanDue s) := by
  unfold execGapPlanDue
  refine State.actAll_timeKept ?_
  split
  · next t _ => exact (Clock.runsOn_reach s.clock t).trans (State.afterGap_runsOn (s.reach t) _)
  · exact Clock.runsOn_refl _

theorem execWarmReset_timeKept (s : State) : s.timeKept (execWarmReset s) := by
  refine State.timeKept_next ?_
  dsimp only
  split
  · split
    · exact (State.withDev_runsOn s _).trans (State.afterRequests_runsOn _ _)
    · exact Clock.runsOn_refl _
  · exact Clock.runsOn_refl _

theorem execWatchdogExpiry_timeKept (s : State) : s.timeKept (execWatchdogExpiry s) := by
  refine State.timeKept_next ?_
  split
  · split
    · exact State.wdogExpire_runsOn s _
    · exact Clock.runsOn_refl _
  · exact Clock.runsOn_refl _

/-- Commands that begin a cold reset, and the lock of a PLL, which starts DTIME. -/
def restartsTime : Instr → Bool
  | .supplyOutOfRange | .powerOn | .rstNAssert _ | .drivePllLockLoss | .pllLock _ => true
  | _ => false

theorem exec_timeKept (c : Instr) (s : State) (h : restartsTime c = false) : s.timeKept (exec c s) := by
  have hhost := hostRequest_timeKept s c
  cases c with
  | supplyOutOfRange | powerOn | rstNAssert | drivePllLockLoss | pllLock => exact absurd h (by simp [restartsTime])
  | coldReset strap rep => exact State.timeKept_of_clock (by split <;> rfl)
  | pllLockRetry p => exact State.timeKept_of_clock (State.pllRetry_clock s p)
  | pllLockLost p => exact State.timeKept_of_clock (State.pllLost_clock s p)
  | corePeriPllLockLoss peri => exact State.timeKept_of_clock (by split; exacts [rfl, State.warmStart_clock s 8])
  | glRstWrite who v => exact State.timeKept_of_clock (by split; exacts [State.rstWrite_clock s who v, rfl])
  | functionLevelReset l => exact State.timeKept_of_clock (by split; exacts [State.flr_clock s l, rfl])
  | faultRecordEnter => exact State.timeKept_of_clock (by split; exacts [State.enterRec_clock s, rfl])
  | watchdogExpiry => exact execWatchdogExpiry_timeKept s
  | warmReset => exact execWarmReset_timeKept s
  | shadowSwap x => exact State.timeKept_next (by split; exacts [State.shadowSwap_runsOn s x, Clock.runsOn_refl _])
  | encEdge dt n a b stable => exact execEncEdge_timeKept s dt n a b stable
  | rowEmit n => exact execRowEmit_timeKept s n
  | gapPlanDue => exact execGapPlanDue_timeKept s
  | plFrameLatch p => exact execPlFrameLatch_timeKept s p
  | wmFrameFirstLine p => exact execWmFrameFirstLine_timeKept s p
  | adcSequenceEnd x => exact execAdcSequenceEnd_timeKept s x
  | dst k rs ra imm => exact execDst_timeKept s k rs ra imm
  | tapDeviceWrite addr data => exact execTapDeviceWrite_timeKept s addr data
  | tapResetUpdate v => exact execTapResetUpdate_timeKept s v
  | trgEdge dt n level stable => exact execTrgEdge_timeKept s dt n level stable
  | gapSoftwareOpen dt => exact execGapSoftwareOpen_timeKept s dt
  | hpFrameStart dt n hdr => exact execHpFrameStart_timeKept s dt n hdr
  | contextSetup | contextRelease | contextStop | contextRestart | coreReturnToService | hostWriteReject | hostBar0Read | loaderWrite |
      loaderClose | ringDoorbell | ringCfgWrite | featAcceptWrite | featureCommit | otherRegisterWrite =>
    exact hhost
  | watchdogWrite | watchdogKick | unitResetRequest | pinRelease | pinHold | bootHeaderRead | gapPlanDisarm | gapPlanLoWrite | gapPlanHiWrite |
      timerArm | timerTargetWrite | hpTelemetryPacket | hpPacketDiscard | hpLaneSotError | hpCtlDataWrite | hpCtlSubmit | hpCtlRxRead |
      hpWorkingSetReport | plLineBoundary | plStandbyTakeover | plHandover | plHandoverDone | plReplaySubmit | ltFullBuildCmd | ltBalanceResetCmd |
      ltShutterGapCmd | ltShutterForcedCmd | ltBalanceWindowEnd | wmRowFinalise | bvResetJet | bvResetAll | bvEndFill | lcClearTrip | laceEnd |
      lacePhase | laceWait | laceBr | laceLdi | laceLdm | laceAluAdd | laceAluSub | laceAluMul | laceAluMin | laceAluMax | laceAluCompare |
      laceAluMove | laceStp | laceSig | laceEngineFault | vbBankFault | vbClearFault | vbPairClose | vbPairRelease | spareTakeover |
      spareHandover | blUplinkFrame | blSlowMessageDiscard | blRetrain | blDisarm | blPhaseTrim | adcSelfCalibrate | adcSoftwareTrigger |
      adcTriggerTick | adcConverterFault | spStart | spAbort | spTxWrite | spRxRead | spTransferComplete | spByteResume | spGuardStop |
      spReadyChange | xipLineFillDone | xipInvalidate | spsSelectFall | spsStatus | spsFault | spsIdent | spsArm | spsStop | spsMalformed |
      safeStopClear | gpSet | gpClr | gpInputEdge | dstRefused | eventLatch | waitDeliver | lockGrant | queueBind | queueUnbind | qbaseWrite |
      fabricBeatGrant | ringRecordWrite | writebackConfirm | activityRequest | activityFree | activityStart | activitySelfEnd | fmRetireSwitch |
      fltSet | fltClear | externalReferenceLow | excitationAtCompliance | tapInstructionUpdate =>
    unfold exec; exact State.act_timeKept s _
  | gapSoftwareClose | hpFrameEnd | hpCtlComplete | blStatusMessage | blDescMessage | adcTriggerSeen | adcConversionDone =>
    unfold exec; exact (State.act_timeKept _ _).of_pass
  | hpSerialReadDone | ltRescanCmd | ltBuildStart | wmGeometryLoadDone | vbRingFetch | laceCodeLoadDone | spareLoadDone | spareReturn |
      admissionAnswer | activityEnd | activityAbort | activityFail | tapDeviceRead =>
    unfold exec; exact State.actMem_timeKept s _
  | glRstPairExpire | speedStopTimeout | gapLengthReached | gapForcedClose | evtPulseEnd | hsyPulseEnd | timerMatch | hpFrameTimeout |
      hpAbsentTimeout | ltProbeExpire | ltShutterDue | ltShutterOverdue | ltShutterRetry | laceFrame | fireDurationLimit | quenchEnd | boostCut |
      blTraining | blTrainingRetry | blCommandAckTimeout | blStageSilent | adcDelayEmit | adcCalibrationDone | adcReferenceReady | spReadyTimeout |
      spStatusFirstRetry | spsArmExpire | waitTimeout | taskReleasePeriodic | taskReleaseEvent | budgetExhausted | deadlineReached | sliceExpired |
      linkFail | featureWindowTimeout | trimTick =>
    unfold exec; exact State.actDue_timeKept s _ _
  | plNoProgress | vbRingRefetch | coilTick | queueTimeout | lockLimitBreak | graceExpired | coreNoProgress | scrubPatrol =>
    unfold exec; exact State.actDueWr_timeKept s _ _ _
  | linkTrained | d3hotChange | msixUnmask | linkLeavesActive => unfold exec; exact State.actLink_timeKept s _
  | add | sub | adc | sbc | and | or | xor | shl | shr | sar | mul | mulh | mulhu | div | divu | min | max | minu | maxu | adds | subs | sats |
      satu | qmul | qmulu | clz =>
    unfold exec; exact State.alu_timeKept s _ _ _ _ _
  | addi | andi | ori | xori => unfold exec; exact State.aluImm_timeKept s _ _ _ _
  | ldw | ldh | ldhu | ldb | ldbu => unfold exec; exact State.loadOp_timeKept s _ _ _ _ _ _ _
  | stw | sth | stb => unfold exec; exact State.storeOp_timeKept s _ _ _ _ _
  | lui | bl | jalr | nop => unfold exec; exact State.ercelReg_timeKept s _ _
  | mfs | mts | dld | br | qget | wait | yield | trap | illegalInstruction | fetchFault => unfold exec; exact State.ercel_timeKept s _ _
  | qput | post | lock | unlock | enact | enactCancel | admitSubmit | admitRelease | dma | halt | sync =>
    unfold exec; exact State.ercelAfter_timeKept s _ _
  | unitResetDone | hpImageLine | plTableLoadDone | plLineProcess | plFrameComplete | plFault | ltBuildDone | wmSampleBeat | wmStatsRecord |
      bvFireRecord | bvBaselineRow | bvVerificationRow | adcResultWrite | xipFetch | queueResume | lockPreempt | dmaTransferDone | coreFault |
      rowRepair | ringEntryCopy | fmRetireCopyLine | tapForcedWrite =>
    unfold exec; exact State.actWr_timeKept s _ _

theorem State.pllLock_dtime (s : State) (p : Nat) : (s.pllLock p).clock.dtime = s.clock.dtime := by
  unfold State.pllLock; dsimp only
  split
  · rfl
  · split <;> rfl

/-- Settles O4: every command keeps time, but the four that begin a cold reset, and PLL_LOCK, which leaves DTIME as it stands. The PLL of the
statement is the clock's `drive`: DTIME counts on after PLL_LOCK_LOST until the cold reset that follows, by the model's choice (log 136). -/
theorem deviceTimeNeverRunsBack : Obligations.DeviceTimeNeverRunsBack := by
  intro c s t hexec hsupply hpower hrst hpll
  by_cases hlock : ∃ p, c = .pllLock p
  · obtain ⟨p, rfl⟩ := hlock
    cases hexec
    have hstands := State.pllLock_dtime s p
    exact ⟨hstands.ge, fun _ => hstands⟩
  · have hkeeps : restartsTime c = false := by
      unfold restartsTime
      split <;> simp_all
    obtain ⟨hle, -, hstand⟩ := exec_timeKept c s hkeeps t hexec
    exact ⟨hle, hstand⟩

end Sys2Proof.Machine
end

section
/-! ## Registers and events: 64-bit pairs, bits, counters, and what an event leaves of the timebase (R30, R47, R48) -/

namespace Sys2Proof.Machine

/-! ### Pairs, bits and counters -/

theorem Dev.rdN_lt (d : Dev) (a : Nat) : d.rdN a < 2 ^ 32 := (d.rd a).isLt

theorem Dev.rdN_wrN_same (d : Dev) (a v : Nat) : (d.wrN a v).rdN a = v % 2 ^ 32 := by rw [Dev.rdN, Dev.rd_wrN_same, BitVec.toNat_ofNat]

theorem Dev.rdN_wrN_other (d : Dev) {a b : Nat} (v : Nat) (h : b ≠ a) : (d.wrN a v).rdN b = d.rdN b := congrArg BitVec.toNat (Dev.rd_wrN_other d v h)

theorem Dev.rd_wr64_other (d : Dev) {a b : Nat} (v : Nat) (hlo : b ≠ a) (hhi : b ≠ a + 4) : (d.wr64 a v).rd b = d.rd b := by
  rw [Dev.wr64, Dev.rd_wrN_other _ _ hhi, Dev.rd_wrN_other _ _ hlo]

theorem Dev.rd_wr64_lo (d : Dev) (a v : Nat) : (d.wr64 a v).rd a = BitVec.ofNat 32 v := by
  rw [Dev.wr64, Dev.rd_wrN_other _ _ (by omega), Dev.rd_wrN_same]

theorem Dev.rd64_congr {d e : Dev} {a : Nat} (hlo : e.rd a = d.rd a) (hhi : e.rd (a + 4) = d.rd (a + 4)) : e.rd64 a = d.rd64 a := by
  rw [Dev.rd64, Dev.rdN, Dev.rdN, hlo, hhi]; rfl

theorem Dev.rd64_wr64_same (d : Dev) (a v : Nat) : (d.wr64 a v).rd64 a = v % 2 ^ 64 := by
  rw [Dev.rd64, Dev.wr64, Dev.rdN_wrN_other _ _ (by omega), Dev.rdN_wrN_same, Dev.rdN_wrN_same]
  omega

theorem Dev.rd64_wr64_other (d : Dev) {a b : Nat} (v : Nat) (h : b + 4 < a ∨ a + 4 < b) : (d.wr64 a v).rd64 b = d.rd64 b :=
  Dev.rd64_congr (Dev.rd_wr64_other d v (by omega) (by omega)) (Dev.rd_wr64_other d v (by omega) (by omega))

theorem Dev.bit_congr {d e : Dev} {a : Nat} (h : e.rd a = d.rd a) (i : Nat) : e.bit a i = d.bit a i := by rw [Dev.bit, Dev.rdN, h]; rfl

theorem Dev.fld_congr {d e : Dev} {a : Nat} (h : e.rd a = d.rd a) (hi lo : Nat) : e.fld a hi lo = d.fld a hi lo := by rw [Dev.fld, Dev.rdN, h]; rfl

theorem Dev.bit_wrN_same (d : Dev) (a v : Nat) {i : Nat} (h : i < 32) : (d.wrN a v).bit a i = v.testBit i := by
  rw [Dev.bit, Dev.rdN_wrN_same, Nat.testBit_mod_two_pow, decide_eq_true h, Bool.true_and]

/-- Setting one flag leaves the others of its register (R5). -/
theorem Dev.bit_flag_other (d : Dev) (a : Nat) {i j : Nat} (hj : j < 32) (h : j ≠ i) : (d.flag a i).bit a j = d.bit a j := by
  rw [Dev.flag, Dev.setBits, Dev.bit_wrN_same d a _ hj, Nat.testBit_or, Nat.testBit_two_pow_of_ne h.symm, Bool.or_false, Dev.bit]

/-- A counter below its top counts n. -/
theorem Dev.rdN_bumpBy_same (d : Dev) (a n : Nat) (h : d.rdN a + n < 2 ^ 32) : (d.bumpBy a n).rdN a = d.rdN a + n := by
  rw [Dev.bumpBy, if_pos h, Dev.rdN_wrN_same, Nat.mod_eq_of_lt h]

theorem Dev.rd_faultFlag_other (d : Dev) (t u c x r i : Nat) {b : Nat} (hlost : b ≠ Reg.SV_LOG_LOST) (hreg : b ≠ r) :
    (d.faultFlag t u c x r i).rd b = d.rd b := by
  rw [Dev.faultFlag, Dev.rd_fault_other _ _ _ _ _ hlost, Dev.rd_flag_other _ _ hreg]

/-! ### What an event leaves -/

/-- A fold of updates that each leave a part of the device, for the members of the list at hand. -/
theorem Dev.foldl_keeps_mem {α β : Type} (p : Dev → β) (f : Dev → α → Dev) (l : List α) (h : ∀ d, ∀ x ∈ l, p (f d x) = p d) (d : Dev) :
    p (l.foldl f d) = p d := by
  induction l generalizing d with
  | nil => rfl
  | cons x l ih => rw [List.foldl_cons, ih (fun e y hy => h e y (List.mem_cons_of_mem x hy)), h d x List.mem_cons_self]

/-- The registers of the EVT and HSY outputs (R53). -/
def outputReg (a : Nat) : Prop := Reg.WP_EVTn_CFG 0 ≤ a ∧ a < Reg.WP_HSYn_CFG 8

/-- The timebase without its outputs. -/
def Web.core (w : Web) : Web := { w with evt := [], hsy := [] }

theorem Dev.bumpBy_regs (d : Dev) (a n : Nat) : ∃ l, (d.bumpBy a n).regs = { d.regs with live := l } := by
  unfold Dev.bumpBy; split <;> exact ⟨_, rfl⟩

@[simp] theorem Dev.bump_swaps (d : Dev) (a : Nat) : (d.bump a).regs.swaps = d.regs.swaps := by
  obtain ⟨l, h⟩ := Dev.bumpBy_regs d a 1
  rw [Dev.bump, h]

theorem Dev.mirrorEvt_core (d : Dev) (t e n : Nat) : (d.mirrorEvt t e n).web.core = d.web.core := by
  unfold Dev.mirrorEvt; dsimp only
  split
  · split
    · split <;> simp [Dev.setEvt, Web.core]
    · rfl
    · rfl
  · rfl

theorem Dev.mirrorHsy_core (d : Dev) (t e n : Nat) : (d.mirrorHsy t e n).web.core = d.web.core := by
  unfold Dev.mirrorHsy; dsimp only
  split
  · split
    · simp
    · rfl
  · rfl

theorem Dev.mirrorEvt_swaps (d : Dev) (t e n : Nat) : (d.mirrorEvt t e n).regs.swaps = d.regs.swaps := by
  unfold Dev.mirrorEvt; dsimp only
  split
  · split
    · split
      · exact Dev.bump_swaps d _
      · rfl
    · rfl
    · rfl
  · rfl

theorem Dev.mirrorHsy_swaps (d : Dev) (t e n : Nat) : (d.mirrorHsy t e n).regs.swaps = d.regs.swaps := by
  unfold Dev.mirrorHsy; dsimp only
  split
  · split
    · exact Dev.bump_swaps d _
    · rfl
  · rfl

theorem Dev.mirrorEvt_rd (d : Dev) (t e : Nat) {n a : Nat} (hn : n < 4) (h : ¬ outputReg a) : (d.mirrorEvt t e n).rd a = d.rd a := by
  have hovl : a ≠ Reg.WP_EVTn_OVL n := by rintro rfl; exact h (by simp only [outputReg, Reg.WP_EVTn_CFG, Reg.WP_EVTn_OVL, Reg.WP_HSYn_CFG]; omega)
  unfold Dev.mirrorEvt; dsimp only
  split
  · split
    · split
      · exact Dev.rd_bump_other d hovl
      · rfl
    · rfl
    · rfl
  · rfl

theorem Dev.mirrorHsy_rd (d : Dev) (t e : Nat) {n a : Nat} (hn : n < 8) (h : ¬ outputReg a) : (d.mirrorHsy t e n).rd a = d.rd a := by
  simp only [outputReg, Reg.WP_EVTn_CFG, Reg.WP_HSYn_CFG] at h
  unfold Dev.mirrorHsy; dsimp only
  split
  · split
    · exact Dev.rd_bump_other d (by unfold Reg.WP_HSYn_OVL; omega)
    · exact Dev.rd_wr64_other _ _ (by unfold Reg.WP_HSYn_LAST_LO; omega) (by unfold Reg.WP_HSYn_LAST_LO; omega)
  · rfl

theorem Dev.raise_core (d : Dev) (t e w : Nat) : (d.raise t e w).web.core = d.web.core := by
  unfold Dev.raise
  rw [Dev.foldl_keeps (fun d => d.web.core) _ (fun d n => Dev.mirrorHsy_core d t e n), Dev.foldl_keeps (fun d => d.web.core) _ (fun d n => Dev.mirrorEvt_core d t e n)]

@[simp] theorem Dev.raise_swaps (d : Dev) (t e w : Nat) : (d.raise t e w).regs.swaps = d.regs.swaps := by
  unfold Dev.raise
  rw [Dev.foldl_keeps (fun d => d.regs.swaps) _ (fun d n => Dev.mirrorHsy_swaps d t e n), Dev.foldl_keeps (fun d => d.regs.swaps) _ (fun d n => Dev.mirrorEvt_swaps d t e n)]

/-- An event writes no register but those of the outputs that mirror it. -/
theorem Dev.raise_rd (d : Dev) (t e w : Nat) {a : Nat} (h : ¬ outputReg a) : (d.raise t e w).rd a = d.rd a := by
  unfold Dev.raise
  rw [Dev.foldl_keeps_mem (fun d => d.rd a) _ _ (fun d n hn => Dev.mirrorHsy_rd d t e (List.mem_range.mp hn) h),
    Dev.foldl_keeps_mem (fun d => d.rd a) _ _ (fun d n hn => Dev.mirrorEvt_rd d t e (List.mem_range.mp hn) h)]
  rfl

theorem Dev.raise_rd64 (d : Dev) (t e w : Nat) {a : Nat} (hlo : ¬ outputReg a) (hhi : ¬ outputReg (a + 4)) : (d.raise t e w).rd64 a = d.rd64 a :=
  Dev.rd64_congr (Dev.raise_rd d t e w hlo) (Dev.raise_rd d t e w hhi)

@[simp] theorem Dev.raise_rg (d : Dev) (t e w : Nat) : (d.raise t e w).web.rg = d.web.rg := by
  have h := congrArg Web.rg (Dev.raise_core d t e w); exact h
@[simp] theorem Dev.raise_trg (d : Dev) (t e w : Nat) : (d.raise t e w).web.trg = d.web.trg := by
  have h := congrArg Web.trg (Dev.raise_core d t e w); exact h
@[simp] theorem Dev.raise_gapOpen (d : Dev) (t e w : Nat) : (d.raise t e w).web.gapOpen = d.web.gapOpen := by
  have h := congrArg Web.gapOpen (Dev.raise_core d t e w); exact h
@[simp] theorem Dev.raise_planArmed (d : Dev) (t e w : Nat) : (d.raise t e w).web.planArmed = d.web.planArmed := by
  have h := congrArg Web.planArmed (Dev.raise_core d t e w); exact h

end Sys2Proof.Machine
end

section
/-! ## Timers (R49, R50) -/

namespace Sys2Proof.Machine
open Sys2Proof.Claims

/-- The bits that a write of WP_TMn_CTL keeps: none of arm, periodic and base. -/
theorem ctlKeep_mod (r v : Nat) : (r - (r &&& (v ||| 7)) % 32) % 8 = 0 := by
  have hlow : (r &&& (v ||| 7)) % 2 ^ 3 = r % 2 ^ 3 := by
    have hv : (v ||| 7) % 2 ^ 3 = 7 := by
      apply Nat.eq_of_testBit_eq
      intro i
      rw [Nat.testBit_mod_two_pow, Nat.testBit_or, show (7 : Nat) = 2 ^ 3 - 1 from rfl, Nat.testBit_two_pow_sub_one]
      by_cases h : i < 3 <;> simp [h]
    rw [Nat.and_mod_two_pow, hv, show (7 : Nat) = 2 ^ 3 - 1 from rfl, Nat.and_two_pow_sub_one_eq_mod, Nat.mod_mod]
  have hle : r &&& (v ||| 7) ≤ r := Nat.and_le_left
  omega

/-- A write of WP_TMn_CTL as it is stored, before the arming is looked at. -/
def Dev.ctlStored (d : Dev) (n : Nat) (v : Word) : Dev :=
  let c := Reg.WP_TMn_CTL n
  d.wrN c (d.rdN c - (d.rdN c &&& (v.toNat ||| 7)) % 32 + v.toNat % 8)

/-- arm, periodic and base are stored. -/
theorem Dev.bit_ctlStored (d : Dev) (n : Nat) (v : Word) {i : Nat} (h : i < 3) : (d.ctlStored n v).bit (Reg.WP_TMn_CTL n) i = v.toNat.testBit i := by
  have hlow : ∀ x : Nat, (x % 2 ^ 3).testBit i = x.testBit i := fun x => by rw [Nat.testBit_mod_two_pow, decide_eq_true h, Bool.true_and]
  have hkeep := ctlKeep_mod (d.rdN (Reg.WP_TMn_CTL n)) v.toNat
  rw [Dev.ctlStored, Dev.bit_wrN_same _ _ _ (by omega), ← hlow, ← hlow v.toNat]
  congr 1
  omega

theorem Dev.rd_ctlStored_other (d : Dev) {n a : Nat} (v : Word) (h : a ≠ Reg.WP_TMn_CTL n) : (d.ctlStored n v).rd a = d.rd a := Dev.rd_wrN_other _ _ h

/-- What arms a timer in vain: it is periodic with a period below 4 (R49). -/
def Dev.shortPeriod (d : Dev) (n : Nat) (v : Word) : Prop := v.toNat.testBit 1 = true ∧ d.rdN (Reg.WP_TMn_PERIOD n) < 4

theorem Dev.period_ctlStored (d : Dev) (n : Nat) (v : Word) : (d.ctlStored n v).rdN (Reg.WP_TMn_PERIOD n) = d.rdN (Reg.WP_TMn_PERIOD n) :=
  Dev.rdN_wrN_other _ _ (by simp only [Reg.WP_TMn_PERIOD, Reg.WP_TMn_CTL]; omega)

theorem Dev.timerCtl_arms (d : Dev) (now : Now) (n : Nat) (v : Word) (harm : v.toNat.testBit 0 = true) (hlong : ¬ d.shortPeriod n v) :
    d.timerCtl now n v = (d.ctlStored n v).setTimer n ⟨now.dtime, decide ((d.ctlStored n v).tmTarget n < (d.ctlStored n v).tmBase now n)⟩ := by
  rw [Dev.shortPeriod, ← Dev.period_ctlStored d n v] at hlong
  exact (if_pos harm).trans (if_neg hlong)

/-- A timer that is disarmed by an error (R49, R50). -/
def Dev.tmError (d : Dev) (n : Nat) : Dev := (d.clrBits (Reg.WP_TMn_CTL n) 1).flag (Reg.WP_TMn_CTL n) 4

theorem Dev.timerCtl_refuses (d : Dev) (now : Now) (n : Nat) (v : Word) (harm : v.toNat.testBit 0 = true) (hshort : d.shortPeriod n v) :
    d.timerCtl now n v = (d.ctlStored n v).tmError n := by
  rw [Dev.shortPeriod, ← Dev.period_ctlStored d n v] at hshort
  exact (if_pos harm).trans (if_pos hshort)

/-- An armed timer whose target is written is disarmed, with an error (R50). -/
def Dev.tmDisarm (d : Dev) (n : Nat) : Dev := if d.tmArmed n then d.tmError n else d

theorem Dev.timerTarget_eq (d : Dev) (n : Nat) (hi : Bool) (v : Word) :
    d.timerTarget n hi v = (d.wr (if hi then Reg.WP_TMn_TGT_HI n else Reg.WP_TMn_TGT_LO n) v).tmDisarm n := rfl

theorem Dev.tmArmed_clrBits (d : Dev) (n : Nat) : (d.clrBits (Reg.WP_TMn_CTL n) 1).tmArmed n = false :=
  (Dev.bit_clrBits d _ 0 1).trans (by simp)

theorem Dev.tmArmed_tmError (d : Dev) (n : Nat) : (d.tmError n).tmArmed n = false := by
  rw [Dev.tmArmed, Dev.tmError, Dev.bit_flag_other _ _ (by omega) (by omega)]; exact Dev.tmArmed_clrBits d n

theorem Dev.err_tmError (d : Dev) (n : Nat) : (d.tmError n).bit (Reg.WP_TMn_CTL n) 4 = true := Dev.bit_flag _ _ (by omega)

theorem Dev.rd_tmError_other (d : Dev) {n a : Nat} (h : a ≠ Reg.WP_TMn_CTL n) : (d.tmError n).rd a = d.rd a := by
  rw [Dev.tmError, Dev.rd_flag_other _ _ h, Dev.rd_clrBits_other _ _ h]

theorem Dev.tmArmed_tmDisarm (d : Dev) (n : Nat) : (d.tmDisarm n).tmArmed n = false := by
  unfold Dev.tmDisarm
  split
  · exact Dev.tmArmed_tmError d n
  · next h => exact Bool.eq_false_of_not_eq_true h

theorem Dev.err_tmDisarm (d : Dev) (n : Nat) (h : d.tmArmed n = true) : (d.tmDisarm n).bit (Reg.WP_TMn_CTL n) 4 = true := by
  rw [Dev.tmDisarm, if_pos h]; exact Dev.err_tmError d n

theorem Dev.rd_tmDisarm_other (d : Dev) {n a : Nat} (h : a ≠ Reg.WP_TMn_CTL n) : (d.tmDisarm n).rd a = d.rd a := by
  unfold Dev.tmDisarm; split
  · exact Dev.rd_tmError_other d h
  · rfl

theorem target_ne_ctl (n : Nat) (hi : Bool) : (if hi then Reg.WP_TMn_TGT_HI n else Reg.WP_TMn_TGT_LO n) ≠ Reg.WP_TMn_CTL n := by
  simp only [Reg.WP_TMn_TGT_HI, Reg.WP_TMn_TGT_LO, Reg.WP_TMn_CTL]; split <;> omega

theorem not_outputReg_tm (n : Nat) {a : Nat} (h : Reg.WP_TMn_TGT_LO n ≤ a) : ¬ outputReg a := by
  simp only [outputReg, Reg.WP_TMn_TGT_LO, Reg.WP_EVTn_CFG, Reg.WP_HSYn_CFG] at *; omega

/-! ### A timer on time -/

/-- The registers of a timer that fires in time: a periodic one moves its target on, a one-shot one disarms (R49). -/
def Dev.tmNext (d : Dev) (n : Nat) : Dev :=
  if d.bit (Reg.WP_TMn_CTL n) 1 then d.wr64 (Reg.WP_TMn_TGT_LO n) (d.rd64 (Reg.WP_TMn_TGT_LO n) + d.rdN (Reg.WP_TMn_PERIOD n))
  else d.clrBits (Reg.WP_TMn_CTL n) 1

theorem Dev.tmFire_in_time (d : Dev) (now : Now) (n : Nat) (h : (d.timer n).late = false) :
    d.tmFire now n = (d.tmNext n).raise now.dtime (128 + n) 0 := by
  unfold Dev.tmFire Dev.tmNext; simp [h]

theorem Dev.tmArmed_tmNext (d : Dev) (n : Nat) (h : d.tmArmed n = true) : (d.tmNext n).tmArmed n = d.bit (Reg.WP_TMn_CTL n) 1 := by
  unfold Dev.tmNext
  split
  · next hper =>
    rw [hper, ← h]
    exact Dev.bit_congr (Dev.rd_wr64_other _ _ (by simp only [Reg.WP_TMn_CTL, Reg.WP_TMn_TGT_LO]; omega)
      (by simp only [Reg.WP_TMn_CTL, Reg.WP_TMn_TGT_LO]; omega)) 0
  · next hone => rw [Dev.tmArmed_clrBits, Bool.eq_false_of_not_eq_true hone]

theorem Dev.target_tmNext (d : Dev) (n : Nat) :
    (d.tmNext n).rd64 (Reg.WP_TMn_TGT_LO n) = if d.bit (Reg.WP_TMn_CTL n) 1 then
      (d.rd64 (Reg.WP_TMn_TGT_LO n) + d.rdN (Reg.WP_TMn_PERIOD n)) % 2 ^ 64 else d.rd64 (Reg.WP_TMn_TGT_LO n) := by
  unfold Dev.tmNext
  split
  · exact Dev.rd64_wr64_same _ _ _
  · exact Dev.rd64_congr (Dev.rd_clrBits_other _ _ (by simp only [Reg.WP_TMn_CTL, Reg.WP_TMn_TGT_LO]; omega))
      (Dev.rd_clrBits_other _ _ (by simp only [Reg.WP_TMn_CTL, Reg.WP_TMn_TGT_LO]; omega))

theorem Dev.ev_tmNext (d : Dev) (n : Nat) : (d.tmNext n).ev = d.ev := by unfold Dev.tmNext; split <;> rfl

theorem Dev.tmDue_dtime (d : Dev) (now : Now) (n : Nat) (harmed : d.tmArmed n = true) (hlate : (d.timer n).late = false)
    (hbase : d.bit (Reg.WP_TMn_CTL n) 2 = false) : d.tmDue now n = some (d.rd64 (Reg.WP_TMn_TGT_LO n)) := by
  simp [Dev.tmDue, harmed, hlate, hbase]

/-! ### The commands -/

section
variable (s : State) (n : Fin 128) (hr : s.running = true)
include hr

theorem exec_timerArm (v : Word) : exec (.timerArm n v) s = .next (s.withDev (s.dev.timerCtl s.now n v)) := by
  rw [exec, execTimerArm, State.act_running _ _ hr]; rfl

theorem exec_timerTargetWrite (hi : Bool) (v : Word) : exec (.timerTargetWrite n hi v) s = .next (s.withDev (s.dev.timerTarget n hi v)) := by
  rw [exec, execTimerTargetWrite, State.act_running _ _ hr]; rfl

theorem exec_timerMatch {x : Nat} (hdue : s.dev.tmDue s.now n = some x) :
    exec (.timerMatch n) s = .next ((s.reach x).withDev (s.dev.tmFire (s.reach x).now n)) := by
  rw [exec, execTimerMatch, State.actDue_running s _ _ x hr hdue]; rfl

end

/-- A clock that counts reaches a time still to come. -/
theorem Clock.reach_future (c : Clock) {t : Nat} (hdrive : c.drive = true) (h : c.dtime ≤ t) : (c.reach t).dtime = t := by
  rw [Clock.reach_dtime, if_pos hdrive, max_eq_right h]

/-- Settles O15: the write of WP_TMn_CTL is `ctlStored`, an error `tmError`, a timer that fires in time `tmNext` and its event. -/
theorem timersArmFireAndDisarm : Obligations.TimersArmFireAndDisarm := by
  intro s n hr
  refine ⟨fun v harm hlong => ?_, fun v harm hper hshort => ?_, fun hi v => ?_, fun harmed hlate hbase hdrive htime => ?_⟩
  · refine ⟨_, exec_timerArm s n hr v, deviceOnly_withDev s _, ?_⟩
    rw [State.withDev_dev, Dev.timerCtl_arms _ _ _ _ harm hlong]
    refine ⟨(Dev.bit_ctlStored _ _ v (by omega)).trans harm, Dev.bit_ctlStored _ _ v (by omega), Dev.bit_ctlStored _ _ v (by omega), ?_, ?_,
      fun a ha => Dev.rd_ctlStored_other _ v ha⟩
    · simp [Dev.timer, Dev.setTimer]
    · rw [Dev.timer, Dev.setTimer, SMap.get_set_same, decide_eq_true_iff]; rfl
  · refine ⟨_, exec_timerArm s n hr v, deviceOnly_withDev s _, ?_⟩
    rw [State.withDev_dev, Dev.timerCtl_refuses _ _ _ _ harm ⟨hper, hshort⟩]
    exact ⟨Dev.tmArmed_tmError _ _, Dev.err_tmError _ _⟩
  · refine ⟨_, exec_timerTargetWrite s n hr hi v, deviceOnly_withDev s _, ?_⟩
    rw [State.withDev_dev, Dev.timerTarget_eq]
    exact ⟨(Dev.rd_tmDisarm_other _ (target_ne_ctl n hi)).trans (Dev.rd_wr_same _ _ _), Dev.tmArmed_tmDisarm _ _,
      fun harmed => Dev.err_tmDisarm _ _ ((Dev.bit_congr (Dev.rd_wr_other _ _ (target_ne_ctl n hi).symm) 0).trans harmed)⟩
  · refine ⟨_, exec_timerMatch s n hr (Dev.tmDue_dtime _ _ _ harmed hlate hbase), rfl, rfl, Clock.reach_future _ hdrive htime, ?_⟩
    rw [State.withDev_dev, Dev.tmFire_in_time _ _ _ hlate]
    refine ⟨?_, ?_, ?_⟩
    · rw [← Dev.tmArmed_tmNext _ _ harmed]
      exact Dev.bit_congr (Dev.raise_rd _ _ _ _ (not_outputReg_tm n (by simp only [Reg.WP_TMn_TGT_LO, Reg.WP_TMn_CTL]; omega))) 0
    · rw [Dev.raise_rd64 _ _ _ _ (not_outputReg_tm n le_rfl) (not_outputReg_tm n (Nat.le_add_right _ _)), Dev.target_tmNext]
    · rw [Dev.raise_ev, Dev.ev_tmNext]; rfl

end Sys2Proof.Machine
end

section
/-! ## Speed, the ends of pulses, and rows (R36, R41, R42, R47, R48) -/

namespace Sys2Proof.Machine
open Sys2Proof.Claims

/-- A row with nothing due changes nothing. -/
theorem State.actDue_none (s : State) (due : Now → Dev → Option Nat) (f : Now → Dev → Dev) (h : due s.now s.dev = none) : s.actDue due f = .next s := by
  simp [State.actDue, h]

/-- With no swap waiting, a boundary changes nothing (R19). -/
theorem State.swapsAt_none (s : State) (b : Boundary) (p : SetId → Bool) (h : s.dev.regs.swaps = []) : s.swapsAt b p = s := by
  simp [State.swapsAt, swapAt, h]

theorem Dev.evtPin_setEvt_same (d : Dev) (n : Nat) (p : OutPin) : (d.setEvt n p).evtPin n = p := SMap.get_set_same _ _ _ _
theorem Dev.evtPin_setEvt_other (d : Dev) {n m : Nat} (p : OutPin) (h : m ≠ n) : (d.setEvt n p).evtPin m = d.evtPin m := SMap.get_set_other _ _ _ h
theorem Dev.hsyPin_setHsy_same (d : Dev) (n : Nat) (p : OutPin) : (d.setHsy n p).hsyPin n = p := SMap.get_set_same _ _ _ _
theorem Dev.hsyPin_setHsy_other (d : Dev) {n m : Nat} (p : OutPin) (h : m ≠ n) : (d.setHsy n p).hsyPin m = d.hsyPin m := SMap.get_set_other _ _ _ h
theorem Dev.rowGen_setRowGen_same (d : Dev) (n : Nat) (g : RowGen) : (d.setRowGen n g).rowGen n = g := SMap.get_set_same _ _ _ _

theorem exec_speedStopTimeout_stopped (s : State) (hstopped : s.dev.web.slip.stopped = true) : exec .speedStopTimeout s = .next s := by
  rw [exec, execSpeedStopTimeout, State.actDue_none s _ _ (by rw [hstopped]; rfl)]

section
variable (s : State) (hr : s.running = true)
include hr

theorem exec_speedStopTimeout (hruns : s.dev.web.slip.stopped = false) :
    exec .speedStopTimeout s = .next ((s.reach (s.dev.web.slip.lastCount + 4194304)).withDev
      ((s.dev.setSlip (fun x => { x with stopped := true })).wrN Reg.WP_SPEED 0)) := by
  rw [exec, execSpeedStopTimeout, State.actDue_running s _ _ _ hr (by rw [hruns]; rfl)]; rfl

theorem exec_evtPulseEnd (n : Fin 4) {x : Nat} (hend : (s.dev.evtPin n).pulseEnd = some x) :
    exec (.evtPulseEnd n) s = .next ((s.reach x).withDev (s.dev.setEvt n (s.dev.evtRest n))) := by
  rw [exec, execEvtPulseEnd, State.actDue_running s _ _ _ hr hend]; rfl

theorem exec_hsyPulseEnd (n : Fin 8) {x : Nat} (hend : (s.dev.hsyPin n).pulseEnd = some x) :
    exec (.hsyPulseEnd n) s = .next ((s.reach x).withDev (s.dev.setHsy n ⟨s.dev.hsyIdle n, none⟩)) := by
  rw [exec, execHsyPulseEnd, State.actDue_running s _ _ _ hr hend]; rfl

theorem exec_rowEmit (n : Fin 8) : exec (.rowEmit n) s = .next (s.rowEmit n) := by
  rw [exec, execRowEmit, State.actAll_running _ _ hr]

end

/-! ### Emission of a row -/

/-- What an emission notes of a burst: it counts in WP_RGn_CATCH, and a burst that a takeover began has its record (R42). -/
def Dev.burstNotes (d : Dev) (now : Now) (n : Nat) (p : Int) : Dev :=
  let g := d.rowGen n
  let burst := decide (g.since ≠ 0) && !d.rgTime n
  let e := if burst then d.bump (Reg.WP_RGn_CATCH n) else d
  if burst && g.jump then
    e.faultFlag now.dtime (uid 11 (5 + n) 0) 0x0006 (((now.wpos - p) / d.rgPitch n).toNat + g.since + 1) Reg.WP_FAULT 5 else e

/-- The generator after the emission of a row at p (R41, R42). -/
def Dev.rowGenNext (d : Dev) (now : Now) (n : Nat) (p : Int) : RowGen :=
  let g := d.rowGen n
  { g with next := some (p + d.rgPitch n), pos := p, rows := g.rows + 1, since := g.since + 1,
           jump := g.jump && !(decide (g.since ≠ 0) && !d.rgTime n && g.jump), last := now.dtime }

theorem Dev.emitRow_eq (d : Dev) (now : Now) (n : Nat) {p : Int} (h : (d.rowGen n).next = some p) :
    d.emitRow now n = (((d.burstNotes now n p).setRowGen n (d.rowGenNext now n p)).wrN (Reg.WP_RGn_ROWNUM n) ((d.rowGen n).rows + 1)).raise
      now.dtime (16 + n) (d.rowGen n).rows := by
  unfold Dev.emitRow; dsimp only; rw [h]; rfl

theorem Dev.burstNotes_ev (d : Dev) (now : Now) (n : Nat) (p : Int) : (d.burstNotes now n p).ev = d.ev := by
  unfold Dev.burstNotes; dsimp only; split_ifs <;> simp

theorem Dev.burstNotes_wm (d : Dev) (now : Now) (n : Nat) (p : Int) : (d.burstNotes now n p).wm = d.wm := by
  unfold Dev.burstNotes; dsimp only; split_ifs <;> simp

theorem Dev.fault_swaps (d : Dev) (t u c x : Nat) : (d.fault t u c x).regs.swaps = d.regs.swaps := by
  unfold Dev.fault; split
  · rfl
  · exact Dev.bump_swaps _ _

theorem Dev.burstNotes_swaps (d : Dev) (now : Now) (n : Nat) (p : Int) : (d.burstNotes now n p).regs.swaps = d.regs.swaps := by
  have hfault : ∀ (e : Dev) (t u c x r i : Nat), (e.faultFlag t u c x r i).regs.swaps = e.regs.swaps := fun e t u c x r i => Dev.fault_swaps _ t u c x
  unfold Dev.burstNotes; dsimp only; split_ifs <;> simp [hfault]

/-- An emission writes WP_RGn_CATCH, WP_RGn_ROWNUM, WP_FAULT, the outputs' registers and SV_LOG_LOST, and no other register. -/
theorem Dev.emitRow_rd (d : Dev) (now : Now) {n a : Nat} {p : Int} (h : (d.rowGen n).next = some p) (hcatch : a ≠ Reg.WP_RGn_CATCH n)
    (hrow : a ≠ Reg.WP_RGn_ROWNUM n) (hfault : a ≠ Reg.WP_FAULT) (hlost : a ≠ Reg.SV_LOG_LOST) (hout : ¬ outputReg a) :
    (d.emitRow now n).rd a = d.rd a := by
  have hnotes : (d.burstNotes now n p).rd a = d.rd a := by
    unfold Dev.burstNotes; dsimp only
    split_ifs <;> simp [Dev.rd_faultFlag_other _ _ _ _ _ _ _ hlost hfault, Dev.rd_bump_other _ hcatch]
  rw [Dev.emitRow_eq d now n h, Dev.raise_rd _ _ _ _ hout, Dev.rd_wrN_other _ _ hrow]
  exact hnotes

theorem Dev.emitRow_swaps (d : Dev) (now : Now) (n : Nat) {p : Int} (h : (d.rowGen n).next = some p) :
    (d.emitRow now n).regs.swaps = d.regs.swaps := by
  rw [Dev.emitRow_eq d now n h, Dev.raise_swaps]; exact Dev.burstNotes_swaps d now n p

theorem Dev.emitRow_layer (d : Dev) (now : Now) (n l : Nat) {p : Int} (h : (d.rowGen n).next = some p) :
    (d.emitRow now n).layer l = d.layer l := by
  rw [Dev.emitRow_eq d now n h, Dev.layer, Dev.raise_wm]
  exact congrArg (fun w : WebMap => SMap.get Layer.reset w.layers l) (Dev.burstNotes_wm d now n p)

theorem Dev.emitRow_vbOn (d : Dev) (now : Now) {n b : Nat} {p : Int} (h : (d.rowGen n).next = some p) (hb : b < 8) :
    (d.emitRow now n).vbOn b = d.vbOn b := by
  refine Dev.bit_congr (Dev.emitRow_rd d now h ?_ ?_ ?_ ?_ ?_) 0 <;>
    simp only [Reg.VB_CFG, Reg.WP_RGn_CATCH, Reg.WP_RGn_ROWNUM, Reg.WP_FAULT, Reg.SV_LOG_LOST, outputReg, Reg.WP_EVTn_CFG, Reg.WP_HSYn_CFG] <;> omega

theorem Dev.emitRow_rowGen (d : Dev) (now : Now) (n : Nat) {p : Int} (h : (d.rowGen n).next = some p) :
    (d.emitRow now n).rowGen n = d.rowGenNext now n p := by
  rw [Dev.emitRow_eq d now n h, Dev.rowGen, Dev.raise_rg]; exact Dev.rowGen_setRowGen_same _ n _

theorem Dev.emitRow_rownum (d : Dev) (now : Now) {n : Nat} {p : Int} (h : (d.rowGen n).next = some p) (hn : n < 8)
    (hrows : (d.rowGen n).rows + 1 < 2 ^ 32) : (d.emitRow now n).rdN (Reg.WP_RGn_ROWNUM n) = (d.rowGen n).rows + 1 := by
  have hout : ¬ outputReg (Reg.WP_RGn_ROWNUM n) := by simp only [outputReg, Reg.WP_RGn_ROWNUM, Reg.WP_EVTn_CFG, Reg.WP_HSYn_CFG]; omega
  rw [Dev.emitRow_eq d now n h, Dev.rdN, Dev.raise_rd _ _ _ _ hout]
  exact (Dev.rdN_wrN_same _ _ _).trans (Nat.mod_eq_of_lt hrows)

theorem Dev.emitRow_ev (d : Dev) (now : Now) (n : Nat) {p : Int} (h : (d.rowGen n).next = some p) :
    (d.emitRow now n).ev = d.ev ++ [⟨16 + n, BitVec.ofNat 32 (d.rowGen n).rows, now.dtime⟩] := by
  rw [Dev.emitRow_eq d now n h, Dev.raise_ev]
  exact congrArg (· ++ _) (Dev.burstNotes_ev d now n p)

/-! ### With no bank enabled and no layer on, a row goes no further -/

theorem Dev.ringBanks_none (d : Dev) (n : Nat) (h : ∀ b, b < 8 → d.vbOn b = false) : d.ringBanks n = [] :=
  List.filter_eq_nil_iff.mpr fun b hb => by simp [h b (List.mem_range.mp hb)]

theorem Dev.foldl_fixed {α : Type} (f : Dev → α → Dev) (l : List α) (d : Dev) (h : ∀ x ∈ l, f d x = d) : l.foldl f d = d := by
  induction l with
  | nil => rfl
  | cons x l ih => rw [List.foldl_cons, h x List.mem_cons_self, ih fun y hy => h y (List.mem_cons_of_mem x hy)]

theorem Dev.takeEvents_none (d : Dev) (m : Mem) (t n row : Nat) (at_ : Int) (h : ∀ b, b < 8 → d.vbOn b = false) : d.takeEvents m t n row at_ = d := by
  refine Dev.foldl_fixed _ _ d fun b hb => ?_
  simp [h b (List.mem_range.mp hb)]

theorem Dev.mapRowEvent_none (d : Dev) (now : Now) (n : Nat) (h : ∀ l, l < 4 → (d.layer l).on = false) : d.mapRowEvent now n = d := by
  refine Dev.foldl_fixed _ _ d fun l hl => ?_
  simp [h l (List.mem_range.mp hl)]

theorem State.rowEmit_alone (s : State) (n : Fin 8) {p : Int} {t : Nat} (hswaps : s.dev.regs.swaps = []) (hbanks : ∀ b, b < 8 → s.dev.vbOn b = false)
    (hlayers : ∀ l, l < 4 → (s.dev.layer l).on = false) (hnext : (s.dev.rowGen n).next = some p) (hdue : s.dev.rowDue s.now n = some t) :
    s.rowEmit n = (s.reach t).withDev (s.dev.emitRow (s.reach t).now n) := by
  have hbanks' : ∀ b, b < 8 → (s.dev.emitRow (s.reach t).now n).vbOn b = false :=
    fun b hb => (Dev.emitRow_vbOn _ _ hnext hb).trans (hbanks b hb)
  have hlayers' : ∀ l, l < 4 → ((s.dev.emitRow (s.reach t).now n).layer l).on = false :=
    fun l hl => (congrArg Layer.on (Dev.emitRow_layer _ _ _ _ hnext)).trans (hlayers l hl)
  unfold State.rowEmit
  simp only [hdue, State.swapsAt_none (s.reach t) _ _ hswaps, State.reach_dev, Dev.ringBanks_none _ _ hbanks', List.foldl_nil,
    Dev.takeEvents_none _ _ _ _ _ _ hbanks', Dev.mapRowEvent_none _ _ _ hlayers']
  exact State.swapsAt_none _ _ _ ((Dev.emitRow_swaps _ _ _ hnext).trans hswaps)

/-- The tick of a row in position mode (R42). -/
theorem Dev.rowDue_position (d : Dev) (now : Now) (n : Nat) {p : Int} (hnext : (d.rowGen n).next = some p) (htime : d.rgTime n = false)
    (hreached : p ≤ now.wpos) : d.rowDue now n = some (if (d.rowGen n).since = 0 then now.dtime else (d.rowGen n).last + 1) := by
  simp [Dev.rowDue, hnext, htime, hreached]

/-- Settles O13: speed and pulses by their due times, the row by `emitRow` alone. -/
theorem speedStopsPulsesEndRowsAreEmitted : Obligations.SpeedStopsPulsesEndRowsAreEmitted := by
  intro s hr
  refine ⟨fun hruns => ?_, exec_speedStopTimeout_stopped s, fun n x hend => ?_, fun n x hend => ?_,
    fun n p hswaps hbanks hlayers hnext htime hreached hrows => ?_⟩
  · exact ⟨_, exec_speedStopTimeout s hr hruns, rfl, rfl, Dev.rd_wrN_same _ _ _, rfl, fun a ha => Dev.rd_wrN_other _ _ ha⟩
  · exact ⟨_, exec_evtPulseEnd s hr n hend, rfl, rfl, Dev.evtPin_setEvt_same _ _ _,
      fun m hm => Dev.evtPin_setEvt_other _ _ (Fin.val_ne_of_ne hm), fun _ => rfl, rfl⟩
  · exact ⟨_, exec_hsyPulseEnd s hr n hend, rfl, rfl, Dev.hsyPin_setHsy_same _ _ _,
      fun m hm => Dev.hsyPin_setHsy_other _ _ (Fin.val_ne_of_ne hm), fun _ => rfl, rfl⟩
  · have hdue := Dev.rowDue_position s.dev s.now n hnext htime hreached
    refine ⟨_, exec_rowEmit s hr n, ?_⟩
    rw [State.rowEmit_alone s n hswaps hbanks hlayers hnext hdue, State.withDev_dev, Dev.emitRow_rowGen _ _ _ hnext,
      Dev.emitRow_rownum _ _ hnext n.isLt hrows, Dev.emitRow_ev _ _ _ hnext]
    exact ⟨rfl, rfl, Clock.reach_wpos _ _, rfl, rfl, rfl, rfl, rfl, rfl⟩

end Sys2Proof.Machine
end

section
/-! ## The gap window (R44 to R46, R52) -/

namespace Sys2Proof.Machine
open Sys2Proof.Claims

/-! ### What an opening and a closing do -/

/-- The outputs in gap-level mode change nothing but the outputs' levels (R47). -/
theorem Dev.gapLevels_eq (d : Dev) : ∃ m, d.gapLevels = { d with web := { d.web with evt := m } } := by
  refine Dev.foldl_inv (fun e => ∃ m, e = { d with web := { d.web with evt := m } }) _ (fun e n he => ?_) _ d ⟨d.web.evt, rfl⟩
  obtain ⟨m, rfl⟩ := he
  dsimp only
  split
  · exact ⟨_, rfl⟩
  · exact ⟨m, rfl⟩

/-- The registers below those of the timebase. -/
def belowWP (a : Nat) : Prop := a < 0xA0000

theorem not_outputReg_of_belowWP {a : Nat} (h : belowWP a) : ¬ outputReg a := by
  simp only [belowWP, outputReg, Reg.WP_EVTn_CFG, Reg.WP_HSYn_CFG] at *; omega

/-- The stamps of an opening, before its event: the outputs have taken their levels, m. -/
def Dev.gapStamped (d : Dev) (now : Now) (m : SMap OutPin) : Dev :=
  let d := if d.planDue now then d.setPlan none else d
  let d : Dev := { d with web := { d.web with gapOpen := true, gapLast := some (now.dtime, true), evt := m } }
  (d.wr64 Reg.WP_GAP_T0_LO now.dtime).wr64 Reg.WP_GAP_P0_LO (unsgn 64 now.wpos)

theorem Dev.gapOpen_eq (d : Dev) (now : Now) : ∃ m, d.gapOpen now = (d.gapStamped now m).raise now.dtime 28 0 := by
  unfold Dev.gapOpen; dsimp only
  obtain ⟨m, hm⟩ := Dev.gapLevels_eq
    { (if d.planDue now then d.setPlan none else d) with web :=
      { (if d.planDue now then d.setPlan none else d).web with gapOpen := true, gapLast := some (now.dtime, true) } }
  exact ⟨m, by rw [hm]; rfl⟩

/-- The stamp of a closing, before its event. -/
def Dev.gapEnded (d : Dev) (now : Now) (m : SMap OutPin) : Dev :=
  ({ d with web := { d.web with gapOpen := false, gapLast := some (now.dtime, false), evt := m } } : Dev).wr64 Reg.WP_GAP_T1_LO now.dtime

theorem Dev.gapClose_eq (d : Dev) (now : Now) : ∃ m, d.gapClose now = (d.gapEnded now m).raise now.dtime 29 0 := by
  unfold Dev.gapClose; dsimp only
  obtain ⟨m, hm⟩ := Dev.gapLevels_eq { d with web := { d.web with gapOpen := false, gapLast := some (now.dtime, false) } }
  exact ⟨m, by rw [hm]; rfl⟩

theorem Dev.gapStamped_keeps (d : Dev) (now : Now) (m : SMap OutPin) :
    (d.gapStamped now m).ev = d.ev ∧ (d.gapStamped now m).lt = d.lt ∧ (d.gapStamped now m).slots = d.slots ∧
      (d.gapStamped now m).regs.swaps = d.regs.swaps ∧ (d.gapStamped now m).web.trg = d.web.trg := by
  unfold Dev.gapStamped; dsimp only; split <;> exact ⟨rfl, rfl, rfl, rfl, rfl⟩

theorem Dev.gapStamped_rd (d : Dev) (now : Now) (m : SMap OutPin) {a : Nat} (h : belowWP a) : (d.gapStamped now m).rd a = d.rd a := by
  unfold belowWP at h
  unfold Dev.gapStamped; dsimp only
  rw [Dev.rd_wr64_other _ _ (by unfold Reg.WP_GAP_P0_LO; omega) (by unfold Reg.WP_GAP_P0_LO; omega),
    Dev.rd_wr64_other _ _ (by unfold Reg.WP_GAP_T0_LO; omega) (by unfold Reg.WP_GAP_T0_LO; omega)]
  split <;> rfl

theorem Dev.gapStamped_t0 (d : Dev) (now : Now) (m : SMap OutPin) : (d.gapStamped now m).rd64 Reg.WP_GAP_T0_LO = now.dtime % 2 ^ 64 :=
  (Dev.rd64_wr64_other _ _ (by decide)).trans (Dev.rd64_wr64_same _ _ _)

theorem not_outputReg_gap {a : Nat} (h : a ≤ Reg.WP_GAP_T1_HI) : ¬ outputReg a := by
  simp only [Reg.WP_GAP_T1_HI, outputReg, Reg.WP_EVTn_CFG, Reg.WP_HSYn_CFG] at *; omega

/-- The window has opened, in any state whose device is an opening of a device with the same occurrences (R45). -/
theorem gapOpened_of_gapOpen (s u : State) (d : Dev) (hpending : u.pending = s.pending) (hev : d.ev = s.dev.ev) :
    gapOpened s (u.withDev (d.gapOpen u.now)) := by
  obtain ⟨m, hm⟩ := Dev.gapOpen_eq d u.now
  obtain ⟨hkeep, -⟩ := Dev.gapStamped_keeps d u.now m
  rw [hm]
  refine ⟨hpending, Dev.raise_gapOpen _ _ _ _, ?_, ?_⟩
  · exact (Dev.raise_rd64 _ _ _ _ (not_outputReg_gap (by decide)) (not_outputReg_gap (by decide))).trans (Dev.gapStamped_t0 d u.now m)
  · rw [State.withDev_dev, Dev.raise_ev, hkeep, hev]; rfl

theorem Dev.gapClose_t1 (d : Dev) (now : Now) : (d.gapClose now).rd64 Reg.WP_GAP_T1_LO = now.dtime % 2 ^ 64 := by
  obtain ⟨m, hm⟩ := Dev.gapClose_eq d now
  rw [hm, Dev.raise_rd64 _ _ _ _ (not_outputReg_gap (by decide)) (not_outputReg_gap (by decide))]
  exact Dev.rd64_wr64_same _ _ _

theorem Dev.gapClose_keeps (d : Dev) (now : Now) :
    (d.gapClose now).web.gapOpen = false ∧ (d.gapClose now).ev = d.ev ++ [⟨29, 0, now.dtime⟩] ∧ (d.gapClose now).flt = d.flt := by
  obtain ⟨m, hm⟩ := Dev.gapClose_eq d now
  rw [hm]
  exact ⟨Dev.raise_gapOpen _ _ _ _, Dev.raise_ev _ _ _ _, Dev.raise_flt _ _ _ _⟩

theorem gapClosed_of_gapClose (s u : State) (hpending : u.pending = s.pending) : gapClosed s (u.withDev (s.dev.gapClose u.now)) := by
  obtain ⟨hclosed, hev, -⟩ := Dev.gapClose_keeps s.dev u.now
  exact ⟨hpending, hclosed, Dev.gapClose_t1 s.dev u.now, hev⟩

/-- A fault record with its flag, on a device with the records of d. -/
theorem recorded_faultFlag {d e : Dev} (h : e.flt = d.flt) (t u c x r i : Nat) : recorded d (e.faultFlag t u c x r i) ⟨t, u, c, BitVec.ofNat 32 x⟩ := by
  obtain ⟨hlog, hqueue⟩ := Dev.fault_law (e.flag r i) t u c x
  rw [Dev.flag_flt, h] at hlog hqueue
  refine ⟨hlog, ?_⟩
  split at hqueue
  · next hroom => rw [if_pos hroom]; exact hqueue.1
  · next hfull => rw [if_neg hfull]; exact hqueue

/-- A forced close closes the window, and has its record (R46). -/
theorem gapClosed_forced (s u : State) (hpending : u.pending = s.pending) (x : Nat) :
    let t := u.withDev ((s.dev.gapClose u.now).faultFlag u.now.dtime (uid 11 0 0) 0x0005 x Reg.WP_FAULT 4)
    gapClosed s t ∧ recorded s.dev t.dev ⟨t.clock.dtime, uid 11 0 0, 5, BitVec.ofNat 32 x⟩ := by
  obtain ⟨hclosed, hev, hflt⟩ := Dev.gapClose_keeps s.dev u.now
  refine ⟨⟨hpending, ?_, ?_, ?_⟩, recorded_faultFlag hflt _ _ _ _ _ _⟩
  · rw [State.withDev_dev, Dev.faultFlag_web, hclosed]
  · exact (Dev.rd64_congr (Dev.rd_faultFlag_other _ _ _ _ _ _ _ (by decide) (by decide))
      (Dev.rd_faultFlag_other _ _ _ _ _ _ _ (by decide) (by decide))).trans (Dev.gapClose_t1 s.dev u.now)
  · rw [State.withDev_dev, Dev.faultFlag_ev, hev]; rfl

/-! ### Causes -/

/-- No transition of the window stands in the tick of the cause (R45). -/
def Dev.firstInTick (d : Dev) (now : Now) (same : Bool) : Prop := (if same then d.web.gapLast.filter (fun p => p.1 = now.dtime) else none) = none

theorem Dev.firstInTick_later (d : Dev) (now : Now) {dt : Nat} (h : 0 < dt) : d.firstInTick now (decide (dt = 0)) := by
  rw [Dev.firstInTick, if_neg (by simp; omega)]

theorem Dev.firstInTick_of_none (d : Dev) (now : Now) (same : Bool) (h : d.web.gapLast = none) : d.firstInTick now same := by
  rw [Dev.firstInTick, h]; split <;> rfl

theorem Dev.firstInTick_of_before (d : Dev) (now : Now) (same : Bool) {t : Nat} {b : Bool} (h : d.web.gapLast = some (t, b)) (ht : t ≠ now.dtime) :
    d.firstInTick now same := by
  rw [Dev.firstInTick, h]; simp [Option.filter_some, ht]

section
variable (d : Dev) (now : Now) (same : Bool) (hfirst : d.firstInTick now same)
include hfirst

theorem Dev.gapCauses_opens (hclosed : d.web.gapOpen = false) : d.gapCauses now same 1 0 = (d.gapOpen now, true) := by
  unfold Dev.gapCauses; rw [hfirst]; simp [hclosed, Dev.gapReject]

theorem Dev.gapCauses_closes (hopen : d.web.gapOpen = true) : d.gapCauses now same 0 1 = (d.gapClose now, false) := by
  unfold Dev.gapCauses; rw [hfirst]; simp [hopen, Dev.gapReject]

theorem Dev.gapCauses_rejects (hopen : d.web.gapOpen = true) : d.gapCauses now same 1 0 = (d.bumpBy Reg.WP_GAP_REJECT 1, false) := by
  unfold Dev.gapCauses; rw [hfirst]; simp [hopen, Dev.gapReject]

end

/-! ### Nothing waits for the window -/

theorem belowWP_ltCfg : belowWP Reg.LT_CFG := by unfold belowWP Reg.LT_CFG; decide
theorem belowWP_ltHead {h : Nat} (hh : h < 8) : belowWP (Reg.LT_HDh_CFG h) := by simp only [belowWP, Reg.LT_HDh_CFG]; omega

theorem Dev.shutOn_congr {d e : Dev} (hlt : e.lt = d.lt) (hrd : ∀ a, belowWP a → e.rd a = d.rd a) {h : Nat} (hh : h < 8) : e.shutOn h = d.shutOn h := by
  have hword : e.ltWord h (Reg.LT_HDh_CFG h) = d.ltWord h (Reg.LT_HDh_CFG h) := by
    unfold Dev.ltWord Dev.lth Dev.rdN; rw [hlt, hrd _ (belowWP_ltHead hh)]
  unfold Dev.shutOn Dev.ltOn Dev.ltBit
  rw [hword, Dev.bit_congr (hrd _ belowWP_ltCfg)]

theorem calmGap_gapOpen (d : Dev) (now : Now) (h : calmGap d) : calmGap (d.gapOpen now) := by
  obtain ⟨hswaps, hslots, hdue⟩ := h
  obtain ⟨m, hm⟩ := Dev.gapOpen_eq d now
  obtain ⟨-, hlt, hslots', hswaps', -⟩ := Dev.gapStamped_keeps d now m
  have hlt' : (d.gapOpen now).lt = d.lt := by rw [hm, Dev.raise_lt, hlt]
  have hrd : ∀ a, belowWP a → (d.gapOpen now).rd a = d.rd a := fun a ha => by
    rw [hm, Dev.raise_rd _ _ _ _ (not_outputReg_of_belowWP ha), Dev.gapStamped_rd d now m ha]
  refine ⟨?_, ?_, fun h hh hon => ?_⟩
  · rw [hm, Dev.raise_swaps, hswaps', hswaps]
  · rw [hm, Dev.raise_slots, hslots', hslots]
  · rw [Dev.lth, hlt']
    exact hdue h hh ((Dev.shutOn_congr hlt' hrd hh).symm.trans hon)

theorem Dev.ledgerGap_calm (d : Dev) (h : calmGap d) : d.ledgerGap = d := by
  obtain ⟨-, hslots, -⟩ := h
  simp [Dev.ledgerGap, Dev.slotsIn, hslots]

theorem Dev.shutGap_calm (d : Dev) (t : Nat) (h : calmGap d) : d.shutGap t = d := by
  obtain ⟨-, -, hdue⟩ := h
  have hheads : (List.range 8).filter (fun h => d.shutOn h && (d.lth h).due && !d.shutBusy h) = [] :=
    List.filter_eq_nil_iff.mpr fun h hh => by
      by_cases hon : d.shutOn h = true
      · simp [hdue h (List.mem_range.mp hh) hon]
      · simp [hon]
  simp [Dev.shutGap, Dev.dueHeads, hheads]

/-- An opening that nothing waits for opens the window and does no more (R18, R137, R448). -/
theorem State.afterGap_calm (s : State) (d : Dev) (h : calmGap d) : s.afterGap (d, true) = s.withDev d := by
  have hswaps := h.1
  rw [State.afterGap, if_pos rfl]; dsimp only
  rw [State.swapsAt_none (s.withDev d) _ _ hswaps, State.withDev_dev, Dev.ledgerGap_calm d h, Dev.shutGap_calm d _ h]
  rfl

theorem State.afterGap_still (s : State) (d : Dev) : s.afterGap (d, false) = s.withDev d := rfl

/-! ### The plan and the triggers -/

/-- A time that has been reached is reached already. -/
theorem Clock.reach_max (c : Clock) (t : Nat) : c.reach (max c.dtime t) = c.reach t := by
  unfold Clock.reach; split <;> simp

theorem Dev.planAt_armed (d : Dev) (now : Now) {x : Nat} (harmed : d.web.planArmed = some x) (hreached : d.planPos ≤ now.wpos) :
    d.planAt now = some (max now.dtime (x + 1)) := by
  rw [Dev.planAt, if_pos hreached, harmed]; rfl

/-- The plan fires in the first tick after its arming, or later (R45). -/
theorem Dev.gapPlanFires_opens (d : Dev) (now : Now) {x : Nat} (harmed : d.web.planArmed = some x) (hreached : d.planPos ≤ now.wpos)
    (htick : x + 1 ≤ now.dtime) (hclosed : d.web.gapOpen = false) (hlast : d.web.gapLast = none) :
    d.gapPlanFires now = ((d.setPlan none).gapOpen now, true) := by
  have hdue : d.planDue now = true := by rw [Dev.planDue, Dev.planAt_armed d now harmed hreached, max_eq_left htick, decide_eq_true rfl]
  rw [Dev.gapPlanFires, if_pos hdue, Dev.gapCauses_opens (d.setPlan none) now true (Dev.firstInTick_of_none _ _ _ hlast) hclosed]

theorem Dev.gapOpen_planArmed (d : Dev) (now : Now) (h : d.web.planArmed = none) : (d.gapOpen now).web.planArmed = none := by
  obtain ⟨m, hm⟩ := Dev.gapOpen_eq d now
  rw [hm, Dev.raise_planArmed]
  unfold Dev.gapStamped; dsimp only
  split
  · rfl
  · exact h

theorem Dev.gapOpen_trgLevel (d : Dev) (now : Now) (n : Nat) : (d.gapOpen now).trgLevel n = d.trgLevel n := by
  obtain ⟨m, hm⟩ := Dev.gapOpen_eq d now
  obtain ⟨-, -, -, -, htrg⟩ := Dev.gapStamped_keeps d now m
  rw [Dev.trgLevel, hm, Dev.raise_trg, htrg, Dev.trgLevel]

/-- An edge that raises no event of its own and is an opening cause opens the window (R44, R45). -/
theorem Dev.trgEdge_opens (d : Dev) (now : Now) {dt n : Nat} {level : Bool} {stable : Nat} (hdt : 0 < dt) (hclosed : d.web.gapOpen = false)
    (hnew : level ≠ d.trgLevel n) (hstable : d.fld (Reg.WP_TRGn_CFG n) 15 8 ≤ stable) (hquiet : d.fld (Reg.WP_TRGn_CFG n) 1 0 = 0)
    (hopens : d.trgOpens n level = 1) (hcloses : d.trgCloses n level = 0) :
    d.trgEdge now (decide (dt = 0)) n level stable = ((d.setTrg n level).gapOpen now, true) := by
  have hevent : (d.setTrg n level).trgEvent now n level = d.setTrg n level := by
    unfold Dev.trgEvent
    refine if_neg ?_
    rw [show (d.setTrg n level).fld (Reg.WP_TRGn_CFG n) 1 0 = 0 from hquiet]
    cases level <;> simp
  rw [Dev.trgEdge, if_neg hnew, if_neg (Nat.not_lt.mpr hstable), hevent, hopens, hcloses]
  exact Dev.gapCauses_opens (d.setTrg n level) now _ (Dev.firstInTick_later _ now hdt) hclosed

theorem Dev.trgEdge_glitch (d : Dev) (now : Now) (same : Bool) {n : Nat} {level : Bool} {stable : Nat} (hnew : level ≠ d.trgLevel n)
    (hshort : stable < d.fld (Reg.WP_TRGn_CFG n) 15 8) : d.trgEdge now same n level stable = (d.bump (Reg.WP_TRGn_GLITCH n), false) := by
  rw [Dev.trgEdge, if_neg hnew, if_pos hshort]

/-! ### Lengths in the DTIME base -/

theorem Dev.gapReaches_dtime (d : Dev) (now : Now) (len : Nat) (h : d.bit Reg.WP_GAP_CFG 9 = true) :
    d.gapReaches now len = some (d.rd64 Reg.WP_GAP_T0_LO + max 1 len) := if_pos h

theorem unsgn_natCast (w n : Nat) : unsgn w (n : Int) = n % 2 ^ w := by simp [unsgn]

/-! ### The commands -/

section
variable (s : State) (hr : s.running = true)
include hr

theorem exec_gapPlanLoWrite (v : Word) : exec (.gapPlanLoWrite v) s = .next (s.withDev (s.dev.planLoWrite v)) := by
  rw [exec, execGapPlanLoWrite, State.act_running _ _ hr]; rfl

theorem exec_gapPlanHiWrite (v : Word) : exec (.gapPlanHiWrite v) s = .next (s.withDev (s.dev.planHiWrite s.clock.dtime v)) := by
  rw [exec, execGapPlanHiWrite, State.act_running _ _ hr]; rfl

theorem exec_gapPlanDisarm : exec .gapPlanDisarm s = .next (s.withDev (s.dev.setPlan none)) := by
  rw [exec, execGapPlanDisarm, State.act_running _ _ hr]; rfl

theorem exec_gapSoftwareOpen (dt : Nat) :
    exec (.gapSoftwareOpen dt) s = .next ((s.pass dt).afterGap (s.dev.gapCauses (s.pass dt).now (decide (dt = 0)) 1 0)) := by
  rw [exec, execGapSoftwareOpen, State.actAll_running _ _ ((State.running_pass s dt).trans hr)]; rfl

theorem exec_gapSoftwareClose (dt : Nat) :
    exec (.gapSoftwareClose dt) s = .next ((s.pass dt).withDev (s.dev.gapCauses (s.pass dt).now (decide (dt = 0)) 0 1).1) := by
  rw [exec, execGapSoftwareClose, State.act_running _ _ ((State.running_pass s dt).trans hr)]; rfl

theorem exec_trgEdge (dt : Nat) (n : Fin 4) (level : Bool) (stable : Nat) :
    exec (.trgEdge dt n level stable) s = .next ((s.pass dt).afterGap (s.dev.trgEdge (s.pass dt).now (decide (dt = 0)) n level stable)) := by
  rw [exec, execTrgEdge, State.actAll_running _ _ ((State.running_pass s dt).trans hr)]; rfl

theorem exec_gapPlanDue {t : Nat} (h : s.dev.planAt s.now = some t) :
    exec .gapPlanDue s = .next ((s.reach t).afterGap (s.dev.gapPlanFires (s.reach t).now)) := by
  rw [exec, execGapPlanDue, State.actAll_running _ _ hr]; simp only [h]

theorem exec_gapLengthReached (hopen : s.dev.web.gapOpen = true) (hlen : s.dev.bit Reg.WP_GAP_CFG 8 = true) (hbase : s.dev.bit Reg.WP_GAP_CFG 9 = true) :
    let u := s.reach (s.dev.rd64 Reg.WP_GAP_T0_LO + max 1 (s.dev.rdN Reg.WP_GAP_LEN))
    exec .gapLengthReached s = .next (u.withDev (s.dev.gapCauses u.now true 0 1).1) := by
  rw [exec, execGapLengthReached, State.actDue_running s _ _ _ hr ((if_pos ⟨hopen, hlen⟩).trans (Dev.gapReaches_dtime _ _ _ hbase))]; rfl

/-- A forced close, where no length is set (R46). -/
theorem exec_gapForcedClose (hopen : s.dev.web.gapOpen = true) (hmax : s.dev.rdN Reg.WP_GAP_MAX ≠ 0) (hlen : s.dev.bit Reg.WP_GAP_CFG 8 = false)
    (hbase : s.dev.bit Reg.WP_GAP_CFG 9 = true) :
    let u := s.reach (s.dev.rd64 Reg.WP_GAP_T0_LO + max 1 (s.dev.rdN Reg.WP_GAP_MAX))
    exec .gapForcedClose s = .next (u.withDev ((s.dev.gapCauses u.now true 0 1).1.faultFlag u.now.dtime (uid 11 0 0) 0x0005
      (unsgn 32 (s.dev.gapLength u.now)) Reg.WP_FAULT 4)) := by
  rw [exec, execGapForcedClose, State.actDue_running s _ _ _ hr ((if_pos ⟨hopen, hmax⟩).trans (Dev.gapReaches_dtime _ _ _ hbase))]
  simp [hlen, State.withDev]

end

/-- Settles O14: an opening is `gapOpen` and nothing more where nothing waits for it, a closing `gapClose`; the clauses say which cause comes to
which of the two, or to a count. -/
theorem gapWindowOpensAndCloses : Obligations.GapWindowOpensAndCloses := by
  intro s hr
  refine ⟨fun v => ⟨?_, ?_, ?_⟩, fun hcalm => ⟨fun dt hdt hclosed => ?_, fun x hclosed hlast harmed hdrive hreached => ?_,
    fun dt n level stable hdt hclosed hnew hstable hquiet hopens hpol hcloses => ?_, fun dt n level stable hnew hshort hcount => ?_,
    fun dt hdt hopen => ?_, fun hopen hlen hbase hdrive htime hlast => ?_, fun hopen hmax hlen hbase hdrive htime hlast => ?_,
    fun dt hdt hopen hcount => ?_⟩⟩
  · exact ⟨_, exec_gapPlanLoWrite s hr v, deviceOnly_withDev s _, rfl, Dev.rd_wr_same _ _ _, fun a ha => Dev.rd_wr_other _ _ ha⟩
  · exact ⟨_, exec_gapPlanHiWrite s hr v, deviceOnly_withDev s _, rfl, Dev.rd_wr_same _ _ _, fun a ha => Dev.rd_wr_other _ _ ha⟩
  · exact ⟨_, exec_gapPlanDisarm s hr, deviceOnly_withDev s _, rfl, rfl⟩
  · refine ⟨_, exec_gapSoftwareOpen s hr dt, ?_⟩
    rw [Dev.gapCauses_opens _ _ _ (Dev.firstInTick_later _ _ hdt) hclosed, State.afterGap_calm _ _ (calmGap_gapOpen _ _ hcalm)]
    exact ⟨rfl, rfl, gapOpened_of_gapOpen s (s.pass dt) s.dev rfl rfl⟩
  · refine ⟨_, exec_gapPlanDue s hr (Dev.planAt_armed _ _ harmed hreached), ?_⟩
    have hclock : (s.reach (max s.now.dtime (x + 1))).clock = s.clock.reach (x + 1) := Clock.reach_max s.clock (x + 1)
    have htick : x + 1 ≤ (s.reach (max s.now.dtime (x + 1))).now.dtime := by
      rw [State.now_dtime, hclock, Clock.reach_dtime, if_pos hdrive]; exact le_max_right _ _
    have hpos : s.dev.planPos ≤ (s.reach (max s.now.dtime (x + 1))).now.wpos := by
      rw [State.now_wpos, hclock, Clock.reach_wpos]; exact hreached
    rw [Dev.gapPlanFires_opens _ _ harmed hpos htick hclosed hlast, State.afterGap_calm _ _ (calmGap_gapOpen (s.dev.setPlan none) _ hcalm)]
    exact ⟨rfl, hclock, gapOpened_of_gapOpen s (s.reach _) (s.dev.setPlan none) rfl rfl, Dev.gapOpen_planArmed _ _ rfl⟩
  · refine ⟨_, exec_trgEdge s hr dt n level stable, ?_⟩
    rw [Dev.trgEdge_opens _ _ hdt hclosed hnew hstable hquiet (by simp [Dev.trgOpens, hopens, hpol, b2n]) (by simp [Dev.trgCloses, hcloses, b2n]),
      State.afterGap_calm _ _ (calmGap_gapOpen (s.dev.setTrg n level) _ hcalm)]
    exact ⟨rfl, rfl, gapOpened_of_gapOpen s (s.pass dt) (s.dev.setTrg n level) rfl rfl, (Dev.gapOpen_trgLevel _ _ _).trans (SMap.get_set_same _ _ _ _)⟩
  · refine ⟨_, exec_trgEdge s hr dt n level stable, ?_⟩
    rw [Dev.trgEdge_glitch _ _ _ hnew hshort, State.afterGap_still]
    exact ⟨rfl, rfl, Dev.bump_web _ _, Dev.rdN_bumpBy_same _ _ 1 hcount, fun a ha => Dev.rd_bump_other _ ha⟩
  · refine ⟨_, exec_gapSoftwareClose s hr dt, ?_⟩
    rw [Dev.gapCauses_closes _ _ _ (Dev.firstInTick_later _ _ hdt) hopen]
    exact ⟨rfl, rfl, gapClosed_of_gapClose s (s.pass dt) rfl⟩
  · refine ⟨_, exec_gapLengthReached s hr hopen hlen hbase, ?_⟩
    have hclock := Clock.reach_future s.clock hdrive htime
    rw [Dev.gapCauses_closes _ _ _ (Dev.firstInTick_of_before _ _ _ hlast (by rw [State.now_dtime]; exact fun h => by have := h.trans hclock; omega)) hopen]
    exact ⟨rfl, hclock, gapClosed_of_gapClose s (s.reach _) rfl⟩
  · refine ⟨_, exec_gapForcedClose s hr hopen hmax hlen hbase, ?_⟩
    rw [Nat.max_eq_right (Nat.pos_of_ne_zero hmax)]
    have hclock := Clock.reach_future s.clock hdrive htime
    have hlength : s.dev.gapLength (s.reach (s.dev.rd64 Reg.WP_GAP_T0_LO + s.dev.rdN Reg.WP_GAP_MAX)).now = s.dev.rdN Reg.WP_GAP_MAX := by
      rw [Dev.gapLength, if_pos hbase, State.now_dtime]
      exact (congrArg (fun t : Nat => (t : Int) - _) hclock).trans (by omega)
    rw [Dev.gapCauses_closes _ _ _ (Dev.firstInTick_of_before _ _ _ hlast (by rw [State.now_dtime]; exact fun h => by have := h.trans hclock; omega)) hopen,
      hlength, unsgn_natCast]
    obtain ⟨hclosed, hrecorded⟩ := gapClosed_forced s (s.reach _) rfl (s.dev.rdN Reg.WP_GAP_MAX % 2 ^ 32)
    exact ⟨rfl, hclock, hclosed, hrecorded⟩
  · refine ⟨_, exec_gapSoftwareOpen s hr dt, ?_⟩
    rw [Dev.gapCauses_rejects _ _ _ (Dev.firstInTick_later _ _ hdt) hopen, State.afterGap_still]
    exact ⟨rfl, rfl, Dev.bumpBy_web _ _ _, Dev.bumpBy_ev _ _ _, Dev.rdN_bumpBy_same _ _ 1 hcount⟩

end Sys2Proof.Machine
end

section
/-! ## Encoders and the web position (R33 to R39) -/

namespace Sys2Proof.Machine

/-! ### What the speed, the slip check and the watches leave -/

/-- The registers of speed, slip check and faults (R36 to R39), and the count of lost records. -/
def watchReg (a : Nat) : Prop := a = Reg.WP_SPEED ∨ a = Reg.WP_SLIP_RATIO ∨ a = Reg.WP_FAULT ∨ a = Reg.SV_LOG_LOST

/-- From d to e: the accepted levels of the encoders stand, and so does every register but those of `watchReg`. -/
def Dev.watchOnly (d e : Dev) : Prop := e.web.enc = d.web.enc ∧ ∀ a, ¬ watchReg a → e.rd a = d.rd a

theorem Dev.watchOnly_refl (d : Dev) : d.watchOnly d := ⟨rfl, fun _ _ => rfl⟩
theorem Dev.watchOnly.trans {d e f : Dev} (h : d.watchOnly e) (h' : e.watchOnly f) : d.watchOnly f :=
  ⟨h'.1.trans h.1, fun a ha => (h'.2 a ha).trans (h.2 a ha)⟩

theorem Dev.watchOnly_wr (d : Dev) {r : Nat} (v : Word) (h : watchReg r) : d.watchOnly (d.wr r v) :=
  ⟨rfl, fun _ ha => Dev.rd_wr_other d v fun he => ha (he ▸ h)⟩
theorem Dev.watchOnly_setSlip (d : Dev) (f : Slip → Slip) : d.watchOnly (d.setSlip f) := ⟨rfl, fun _ _ => rfl⟩
theorem Dev.watchOnly_fresh (d : Dev) : d.watchOnly d.fresh.2 := ⟨rfl, fun _ _ => rfl⟩
theorem Dev.watchOnly_webMoved (d : Dev) (old : Int) (jump : Bool) : d.watchOnly (d.webMoved old jump) := ⟨rfl, fun _ _ => rfl⟩
theorem Dev.watchOnly_faultFlag (d : Dev) (t u c x i : Nat) : d.watchOnly (d.faultFlag t u c x Reg.WP_FAULT i) :=
  ⟨congrArg Web.enc (Dev.faultFlag_web ..), fun _ ha =>
    Dev.rd_faultFlag_other _ _ _ _ _ _ _ (fun h => ha (.inr (.inr (.inr h)))) (fun h => ha (.inr (.inr (.inl h))))⟩

theorem Dev.watchOnly_ite {d e f : Dev} {p : Prop} [Decidable p] (h : d.watchOnly e) (h' : d.watchOnly f) :
    d.watchOnly (if p then e else f) := by
  split
  · exact h
  · exact h'

theorem Dev.speedCount_watchOnly (d : Dev) (t : Nat) (wpos : Int) (reverse : Bool) : d.watchOnly (d.speedCount t wpos reverse) := by
  have hslip := Dev.watchOnly_setSlip d fun x =>
    { x with edges := (t, wpos) :: keepEdges t d.web.slip.edges, lastCount := t, stopped := false, reverse := reverse }
  unfold Dev.speedCount; dsimp only
  split
  · exact hslip
  · exact Dev.watchOnly_ite hslip (hslip.trans (Dev.watchOnly_ite (Dev.watchOnly_wr _ _ (.inl rfl))
      ((Dev.watchOnly_fresh _).trans (Dev.watchOnly_wr _ _ (.inl rfl)))))

theorem Dev.slipRatio_watchOnly (d : Dev) : d.watchOnly d.slipRatio.2 := by
  unfold Dev.slipRatio; dsimp only
  split
  · exact Dev.watchOnly_fresh d
  · exact Dev.watchOnly_refl d

theorem Dev.slipWindowEnd_watchOnly (d : Dev) (t : Nat) : d.watchOnly (d.slipWindowEnd t) := by
  have hratio : d.watchOnly (d.slipRatio.2.wrI Reg.WP_SLIP_RATIO d.slipRatio.1) :=
    (Dev.slipRatio_watchOnly d).trans (Dev.watchOnly_wr _ _ (.inr (.inl rfl)))
  unfold Dev.slipWindowEnd; dsimp only
  exact (Dev.watchOnly_ite (Dev.watchOnly_ite (hratio.trans (Dev.watchOnly_faultFlag _ _ _ _ _ _)) hratio) (Dev.watchOnly_refl d)).trans
    (Dev.watchOnly_setSlip _ _)

theorem Dev.secondaryWatch_watchOnly (d : Dev) (t : Nat) (travel : Int) : d.watchOnly (d.secondaryWatch t travel) := by
  unfold Dev.secondaryWatch; dsimp only
  exact Dev.watchOnly_ite ((Dev.watchOnly_setSlip d _).trans ((Dev.watchOnly_faultFlag _ _ _ _ _ _).trans (Dev.watchOnly_setSlip _ _)))
    (Dev.watchOnly_setSlip d _)

theorem Dev.primaryCount_watchOnly (d : Dev) (t : Nat) (travel : Int) : d.watchOnly (d.primaryCount t travel) := by
  have hwatch := (Dev.watchOnly_setSlip d fun x => { x with secSince := 0 }).trans (Dev.secondaryWatch_watchOnly _ t travel)
  have htravel := hwatch.trans (Dev.watchOnly_setSlip _ fun x => { x with d0 := x.d0 + travel })
  unfold Dev.primaryCount; dsimp only
  exact Dev.watchOnly_ite (Dev.watchOnly_ite (htravel.trans (Dev.slipWindowEnd_watchOnly _ t)) htravel) hwatch

theorem sourceCount_watchOnly (travel : Int) (fwd : Bool) (cd : Clock × Dev) : cd.2.watchOnly (sourceCount travel fwd cd).2 := by
  have hspeed := fun wpos => Dev.speedCount_watchOnly cd.2 cd.1.dtime wpos (!fwd)
  unfold sourceCount; dsimp only
  exact Dev.watchOnly_ite (hspeed _) ((hspeed _).trans (Dev.watchOnly_webMoved _ _ _))

/-! ### No takeover -/

theorem not_watchReg_cfg : ¬ watchReg Reg.WP_CFG := by simp [watchReg, Reg.WP_CFG, Reg.WP_SPEED, Reg.WP_SLIP_RATIO, Reg.WP_FAULT, Reg.SV_LOG_LOST]

theorem Dev.watchOnly.takeEn {d e : Dev} (h : d.watchOnly e) : e.takeEn = d.takeEn := Dev.bit_congr (h.2 _ not_watchReg_cfg) 5

theorem Dev.mayTake_off (d : Dev) (h : d.takeEn = false) : d.mayTake = false := by simp [Dev.mayTake, h]

/-- With take_en clear, a count of the secondary moves nothing but its travels (R38). -/
theorem secondaryCount_stays (travel : Int) (cd : Clock × Dev) (h : cd.2.takeEn = false) :
    (secondaryCount travel cd).1 = cd.1 ∧ cd.2.watchOnly (secondaryCount travel cd).2 := by
  have hmay : ∀ f, (cd.2.setSlip f).mayTake = false := fun f => Dev.mayTake_off _ h
  unfold secondaryCount; dsimp only
  rw [hmay, if_neg (by simp)]
  exact ⟨rfl, Dev.watchOnly_setSlip cd.2 _⟩

theorem cfg_ne_illegal (n : Nat) : Reg.WP_CFG ≠ Reg.WP_ENCn_ILLEGAL n := by simp only [Reg.WP_CFG, Reg.WP_ENCn_ILLEGAL]; omega

/-- With take_en clear, an illegal transition is counted, and WPOS stands (R33, R38). -/
theorem illegalEdge_stays (n : Nat) (c : Clock) (d : Dev) (h : d.takeEn = false) :
    (illegalEdge n (c, d)).1 = c ∧ (d.bump (Reg.WP_ENCn_ILLEGAL n)).watchOnly (illegalEdge n (c, d)).2 := by
  have hslip := fun f => Dev.watchOnly_setSlip (d.bump (Reg.WP_ENCn_ILLEGAL n)) f
  have htake : (d.bump (Reg.WP_ENCn_ILLEGAL n)).takeEn = false := (Dev.bit_congr (Dev.rd_bump_other d (cfg_ne_illegal n)) 5).trans h
  unfold illegalEdge; dsimp only
  split_ifs with hprimary hburst hmay
  · rw [Dev.mayTake_off _ (((hslip _).trans (Dev.watchOnly_faultFlag _ _ _ _ _ _)).takeEn.trans htake)] at hmay
    cases hmay
  · exact ⟨rfl, (hslip _).trans (Dev.watchOnly_faultFlag _ _ _ _ _ _)⟩
  · exact ⟨rfl, hslip _⟩
  · exact ⟨rfl, Dev.watchOnly_refl _⟩

/-! ### A count in the encoder's own registers (R33, R34) -/

theorem not_watchReg_enc {a : Nat} (h : 0xA0100 ≤ a) (h' : a < 0xB0000) : ¬ watchReg a := by
  simp only [watchReg, Reg.WP_SPEED, Reg.WP_SLIP_RATIO, Reg.WP_FAULT, Reg.SV_LOG_LOST]; omega

theorem not_watchReg_count (n : Fin 4) : ¬ watchReg (Reg.WP_ENCn_COUNT n) := by
  apply not_watchReg_enc <;> unfold Reg.WP_ENCn_COUNT <;> omega
theorem not_watchReg_edge (n : Fin 4) : ¬ watchReg (Reg.WP_ENCn_EDGE_LO n) := by
  apply not_watchReg_enc <;> unfold Reg.WP_ENCn_EDGE_LO <;> omega
theorem not_watchReg_illegal (n : Fin 4) : ¬ watchReg (Reg.WP_ENCn_ILLEGAL n) := by
  apply not_watchReg_enc <;> unfold Reg.WP_ENCn_ILLEGAL <;> omega

theorem Dev.countEdge_rd_cfg (d : Dev) (t n : Nat) (fwd : Bool) : (d.countEdge t n fwd).rd Reg.WP_CFG = d.rd Reg.WP_CFG := by
  have hcount : Reg.WP_CFG ≠ Reg.WP_ENCn_COUNT n := by simp only [Reg.WP_CFG, Reg.WP_ENCn_COUNT]; omega
  have hlo : Reg.WP_CFG ≠ Reg.WP_ENCn_EDGE_LO n := by simp only [Reg.WP_CFG, Reg.WP_ENCn_EDGE_LO]; omega
  have hhi : Reg.WP_CFG ≠ Reg.WP_ENCn_EDGE_LO n + 4 := by simp only [Reg.WP_CFG, Reg.WP_ENCn_EDGE_LO]; omega
  exact (Dev.rd_wr64_other _ _ hlo hhi).trans (Dev.rd_wr_other d _ hcount)

theorem Dev.countEdge_source (d : Dev) (t n : Nat) (fwd : Bool) : (d.countEdge t n fwd).source = d.source := by
  have hcfg := Dev.countEdge_rd_cfg d t n fwd
  have hslip : (d.countEdge t n fwd).web.slip = d.web.slip := rfl
  rw [Dev.source, Dev.primary, Dev.secondary, Dev.fld_congr hcfg, Dev.fld_congr hcfg, hslip]; rfl

theorem Dev.countEdge_wposEn (d : Dev) (t n : Nat) (fwd : Bool) : (d.countEdge t n fwd).wposEn = d.wposEn :=
  Dev.bit_congr (Dev.countEdge_rd_cfg d t n fwd) 6
theorem Dev.countEdge_takeEn (d : Dev) (t n : Nat) (fwd : Bool) : (d.countEdge t n fwd).takeEn = d.takeEn :=
  Dev.bit_congr (Dev.countEdge_rd_cfg d t n fwd) 5

/-- The count goes one up or down, modulo 2^32. -/
theorem Dev.countEdge_rd_count (d : Dev) (t n : Nat) (fwd : Bool) :
    (d.countEdge t n fwd).rd (Reg.WP_ENCn_COUNT n) = if fwd then d.rd (Reg.WP_ENCn_COUNT n) + 1 else d.rd (Reg.WP_ENCn_COUNT n) - 1 := by
  have hlo : Reg.WP_ENCn_COUNT n ≠ Reg.WP_ENCn_EDGE_LO n := by simp only [Reg.WP_ENCn_COUNT, Reg.WP_ENCn_EDGE_LO]; omega
  have hhi : Reg.WP_ENCn_COUNT n ≠ Reg.WP_ENCn_EDGE_LO n + 4 := by simp only [Reg.WP_ENCn_COUNT, Reg.WP_ENCn_EDGE_LO]; omega
  rw [Dev.countEdge, Dev.rd_wr64_other _ _ hlo hhi, Dev.wrI, Dev.rd_wr_same, BitVec.ofInt_add, Dev.rdI, BitVec.ofInt_toInt]
  have hdown : BitVec.ofInt 32 (-1) = -1 := by decide
  cases fwd
  · rw [if_neg Bool.false_ne_true, if_neg Bool.false_ne_true, hdown, BitVec.sub_eq_add_neg]
  · rfl

theorem Dev.countEdge_rd_edge (d : Dev) (t n : Nat) (fwd : Bool) : (d.countEdge t n fwd).rd (Reg.WP_ENCn_EDGE_LO n) = BitVec.ofNat 32 t :=
  Dev.rd_wr64_lo _ _ _

/-- With take_en clear: a count of the source with wpos_en set moves WPOS by its travel, any other count leaves the clock; and but for the
encoder's own registers only those of `watchReg` move. -/
theorem encCount_stays (n : Nat) (fwd : Bool) (c : Clock) (d : Dev) (h : d.takeEn = false) :
    (encCount n fwd (c, d)).1 = (if n = d.source ∧ d.wposEn = true then c.move (d.countTravel n fwd) else c) ∧
      (d.countEdge c.dtime n fwd).watchOnly (encCount n fwd (c, d)).2 := by
  rw [encCount_eq]
  extract_lets e r q
  have hr : r.1 = (if n = d.source ∧ d.wposEn = true then c.move (d.countTravel n fwd) else c) ∧ e.watchOnly r.2 := by
    unfold r
    rw [show e.source = d.source from Dev.countEdge_source _ _ _ _]
    by_cases hsource : n = d.source
    · rw [if_pos hsource]
      refine ⟨?_, sourceCount_watchOnly _ _ (c, e)⟩
      simp only [sourceCount, hsource, true_and, show e.wposEn = d.wposEn from Dev.countEdge_wposEn _ _ _ _]
    · rw [if_neg hsource, if_neg fun hboth => hsource hboth.1]
      exact ⟨rfl, Dev.watchOnly_refl e⟩
  have hq : q.1 = r.1 ∧ e.watchOnly q.2 := by
    unfold q
    split
    · exact ⟨rfl, hr.2.trans (Dev.primaryCount_watchOnly _ _ _)⟩
    · exact ⟨rfl, hr.2⟩
  split
  · have htake : q.2.takeEn = false := hq.2.takeEn.trans ((Dev.countEdge_takeEn _ _ _ _).trans h)
    obtain ⟨hclock, hwatch⟩ := secondaryCount_stays (d.countTravel n fwd) q htake
    exact ⟨hclock.trans (hq.1.trans hr.1), hq.2.trans hwatch⟩
  · exact ⟨hq.1.trans hr.1, hq.2⟩

/-- WPOS and its fraction move together by exactly the travel, modulo WPOS's 64 bits (R34, R35). -/
theorem Clock.move_exact (c : Clock) (travel : Int) :
    (∃ k : Int, 4096 * (c.move travel).wpos + (c.move travel).frac = 4096 * c.wpos + c.frac + travel + k * 2 ^ 76) ∧ (c.move travel).frac < 4096 ∧
      -(2 ^ 63) ≤ (c.move travel).wpos ∧ (c.move travel).wpos < 2 ^ 63 := by
  have hfrac : ((c.move travel).frac : Int) = (c.frac + travel) % 4096 := Int.toNat_of_nonneg (by omega)
  have hwpos : (c.move travel).wpos = Int.bmod (c.wpos + (c.frac + travel) / 4096) (2 ^ 64) := rfl
  have hlow := Int.le_bmod (x := c.wpos + (c.frac + travel) / 4096) (m := 2 ^ 64) (by decide)
  have hhigh := Int.bmod_lt (x := c.wpos + (c.frac + travel) / 4096) (m := 2 ^ 64) (by decide)
  obtain ⟨k, hk⟩ : ((2 ^ 64 : Nat) : Int) ∣ Int.bmod (c.wpos + (c.frac + travel) / 4096) (2 ^ 64) - (c.wpos + (c.frac + travel) / 4096) :=
    Int.dvd_bmod_sub_self
  rw [← hwpos] at hlow hhigh hk
  refine ⟨⟨k, ?_⟩, ?_, ?_, ?_⟩ <;> omega

/-! ### An edge at the pins (R33) -/

/-- One line of a pair at a time counts in ×4 decoding; the direction follows from which line moved. -/
theorem decodeEdge_x4 : ∀ (inv a b a' b' : Bool), (a = a' ↔ b ≠ b') →
    decodeEdge 2 inv ⟨a', b'⟩ ⟨a, b⟩ = .count (xor (if a = a' then decide (a = b) else decide (a ≠ b)) inv) := by decide

theorem decodeEdge_both {a b a' b' : Bool} (decode : Nat) (inv : Bool) (ha : a ≠ a') (hb : b ≠ b') :
    decodeEdge decode inv ⟨a', b'⟩ ⟨a, b⟩ = .illegal :=
  if_pos ⟨ha.symm, hb.symm⟩

@[simp] theorem Dev.setEncPins_encPins (d : Dev) (n : Nat) (p : EncPins) : (d.setEncPins n p).encPins n = p := SMap.get_set_same _ _ _ _

theorem Dev.encPins_congr {d e : Dev} (h : e.web.enc = d.web.enc) (n : Nat) : e.encPins n = d.encPins n := congrArg (SMap.get EncPins.reset · n) h

theorem encEdge_short {n stable : Nat} {cd : Clock × Dev} (new : EncPins) (h : stable < cd.2.fld (Reg.WP_ENCn_CFG n) 15 8) :
    encEdge n new stable cd = cd := if_pos h

theorem encEdge_count {n stable : Nat} {c : Clock} {d : Dev} {new : EncPins} {fwd : Bool} (hstable : d.fld (Reg.WP_ENCn_CFG n) 15 8 ≤ stable)
    (hdecode : decodeEdge (d.fld (Reg.WP_ENCn_CFG n) 1 0) (d.bit (Reg.WP_ENCn_CFG n) 2) (d.encPins n) new = .count fwd) :
    encEdge n new stable (c, d) = encCount n fwd (c, d.setEncPins n new) := by
  have hpins : decodeEdge ((d.setEncPins n new).fld (Reg.WP_ENCn_CFG n) 1 0) ((d.setEncPins n new).bit (Reg.WP_ENCn_CFG n) 2) (d.encPins n) new = .count fwd :=
    hdecode
  unfold encEdge; dsimp only
  rw [if_neg hstable.not_gt, hpins]

theorem encEdge_illegal {n stable : Nat} {c : Clock} {d : Dev} {new : EncPins} (hstable : d.fld (Reg.WP_ENCn_CFG n) 15 8 ≤ stable)
    (hdecode : decodeEdge (d.fld (Reg.WP_ENCn_CFG n) 1 0) (d.bit (Reg.WP_ENCn_CFG n) 2) (d.encPins n) new = .illegal) :
    encEdge n new stable (c, d) = illegalEdge n (c, d.setEncPins n new) := by
  have hpins : decodeEdge ((d.setEncPins n new).fld (Reg.WP_ENCn_CFG n) 1 0) ((d.setEncPins n new).bit (Reg.WP_ENCn_CFG n) 2) (d.encPins n) new = .illegal :=
    hdecode
  unfold encEdge; dsimp only
  rw [if_neg hstable.not_gt, hpins]

/-- ENC_EDGE while the device runs: time passes, then the edge acts on clock and device. -/
theorem exec_encEdge {s : State} (hr : s.running = true) (dt : Nat) (n : Fin 4) (a b : Bool) (stable : Nat) :
    exec (.encEdge dt n a b stable) s =
      .next { s with clock := (encEdge n ⟨a, b⟩ stable (s.clock.pass dt, s.dev)).1, dev := (encEdge n ⟨a, b⟩ stable (s.clock.pass dt, s.dev)).2 } := by
  have hphase : (s.pass dt).dev.pw.phase = .running := of_decide_eq_true hr
  rw [exec, execEncEdge]; dsimp only
  rw [hphase]; rfl

/-- Settles O12: the count writes the encoder's own registers, the source's count moves WPOS through the fraction accumulator, and what speed,
slip check and watches do beside touches none of them while take_en is clear. -/
theorem encoderCountMovesWebPosition : Obligations.EncoderCountMovesWebPosition := by
  intro s dt n a b stable hr htake hx4 old time
  have hexec := exec_encEdge hr dt n a b stable
  refine ⟨fun hshort => ?_, fun hstable hone => ?_, fun hstable ha hb hcount => ?_⟩
  · rw [encEdge_short _ hshort] at hexec
    exact ⟨_, hexec, rfl, rfl, rfl, rfl⟩
  · obtain ⟨fwd, hfwd⟩ : ∃ fwd, fwd = xor (if a = old.a then decide (a = b) else decide (a ≠ b)) (s.dev.bit (Reg.WP_ENCn_CFG n) 2) :=
      ⟨_, rfl⟩
    have hdecode : decodeEdge (s.dev.fld (Reg.WP_ENCn_CFG n) 1 0) (s.dev.bit (Reg.WP_ENCn_CFG n) 2) old ⟨a, b⟩ = .count fwd := by
      rw [hx4, hfwd]; exact decodeEdge_x4 _ a b old.a old.b hone
    rw [encEdge_count hstable hdecode] at hexec
    obtain ⟨hclock, henc, hregs⟩ := encCount_stays n fwd (s.clock.pass dt) (s.dev.setEncPins n ⟨a, b⟩) htake
    refine ⟨_, fwd, hexec, rfl, rfl, hfwd, (encCount_sameTime _ _ _ _).1, ?_, ?_, ?_, ?_⟩
    · exact (Dev.encPins_congr henc n).trans (Dev.setEncPins_encPins s.dev n _)
    · exact (hregs _ (not_watchReg_count n)).trans (Dev.countEdge_rd_count _ _ _ _)
    · exact (hregs _ (not_watchReg_edge n)).trans (Dev.countEdge_rd_edge _ _ _ _)
    · by_cases hfeeds : n.val = s.dev.source ∧ s.dev.wposEn = true
      · obtain ⟨⟨k, hmove⟩, hfrac, hlow, hhigh⟩ := Clock.move_exact (s.clock.pass dt) (s.dev.countTravel n fwd)
        rw [Clock.pass_wpos, Clock.pass_frac] at hmove
        rw [if_pos hfeeds, hclock.trans (if_pos hfeeds)]
        exact ⟨k, hmove, hfrac, hlow, hhigh⟩
      · rw [if_neg hfeeds, hclock.trans (if_neg hfeeds)]
        exact ⟨Clock.pass_wpos _ _, Clock.pass_frac _ _⟩
  · rw [encEdge_illegal hstable (decodeEdge_both _ _ ha hb)] at hexec
    obtain ⟨hclock, henc, hregs⟩ := illegalEdge_stays n (s.clock.pass dt) (s.dev.setEncPins n ⟨a, b⟩) htake
    have hne : Reg.WP_ENCn_COUNT n ≠ Reg.WP_ENCn_ILLEGAL n := by unfold Reg.WP_ENCn_COUNT Reg.WP_ENCn_ILLEGAL; omega
    refine ⟨_, hexec, rfl, rfl, hclock, ?_, ?_, ?_⟩
    · exact (Dev.encPins_congr (henc.trans (congrArg Web.enc (Dev.bump_web _ _))) n).trans (Dev.setEncPins_encPins s.dev n _)
    · exact (congrArg BitVec.toNat (hregs _ (not_watchReg_illegal n))).trans (Dev.rdN_bumpBy_same _ _ 1 hcount)
    · exact (hregs _ (not_watchReg_count n)).trans (Dev.rd_bump_other _ hne)

end Sys2Proof.Machine
end

section
/-! ## Head ports: what is kept of a port, and its control path (R62, R64, R65, R71, R72) -/

namespace Sys2Proof.Machine
open Sys2Proof.Claims

/-! ### The port record under updates -/

theorem Dev.hpOf_congr {d e : Dev} (h : e.hp = d.hp) (n : Nat) : e.hpOf n = d.hpOf n := congrArg (SMap.get HeadPort.reset · n) h

@[simp] theorem Dev.hpOf_setHp_same (d : Dev) (n : Nat) (x : HeadPort) : (d.setHp n x).hpOf n = x := SMap.get_set_same _ _ _ _
theorem Dev.hpOf_setHp_other (d : Dev) {n m : Nat} (x : HeadPort) (h : m ≠ n) : (d.setHp n x).hpOf m = d.hpOf m := SMap.get_set_other _ _ _ h
@[simp] theorem Dev.hpOf_updHp_same (d : Dev) (n : Nat) (f : HeadPort → HeadPort) : (d.updHp n f).hpOf n = f (d.hpOf n) := SMap.get_set_same _ _ _ _
theorem Dev.hpOf_updHp_other (d : Dev) {n m : Nat} (f : HeadPort → HeadPort) (h : m ≠ n) : (d.updHp n f).hpOf m = d.hpOf m :=
  SMap.get_set_other _ _ _ h
@[simp] theorem Dev.hpOf_bump (d : Dev) (a n : Nat) : (d.bump a).hpOf n = d.hpOf n := Dev.hpOf_congr (Dev.bump_hp d a) n
@[simp] theorem Dev.hpOf_raise (d : Dev) (t e w n : Nat) : (d.raise t e w).hpOf n = d.hpOf n := Dev.hpOf_congr (Dev.raise_hp d t e w) n

/-! ### Staging and submission (R64) -/

theorem Dev.ctlSubmit_queues (d : Dev) (n : Nat) (v : Word) (hmin : 1 ≤ nfld v.toNat 8 0) (hmax : nfld v.toNat 8 0 ≤ 256) (hrx : nfld v.toNat 17 9 ≤ 256)
    (hslots : (d.hpOf n).ctl.length < 4) (hbytes : ((d.hpOf n).ctl.map (fun c => c.tx.length)).sum + nfld v.toNat 8 0 ≤ 256) :
    d.ctlSubmit n v = d.setHp n { d.hpOf n with staged := [], ctl := (d.hpOf n).ctl ++
      [⟨(d.hpOf n).staged.take (nfld v.toNat 8 0), nfld v.toNat 17 9, v.toNat.testBit 18, nfld v.toNat 31 24, false, d.ctlNext n⟩] } := by
  unfold Dev.ctlSubmit; dsimp only
  rw [if_neg (by omega)]

theorem Dev.ctlSubmit_full (d : Dev) (n : Nat) (v : Word) (h : 4 ≤ (d.hpOf n).ctl.length) :
    d.ctlSubmit n v = (d.setHp n { d.hpOf n with staged := [] }).flag (Reg.HP_FAULT n) 11 := by
  unfold Dev.ctlSubmit; dsimp only
  rw [if_pos (.inr (.inr (.inr (.inl h))))]

/-! ### Completion (R62, R64) -/

/-- The port once the transaction c, with `rest` behind it, has completed at t with its reply. -/
def HeadPort.completed (h : HeadPort) (t : Nat) (c : CtlTrans) (rest : List CtlTrans) (reply : List Byte) : HeadPort :=
  let p := { h with ctl := rest, ctlFailed := false }
  { if c.settings then p.nextSettings t c.echo else p with reply := h.reply ++ reply.take c.rxLen }

theorem HeadPort.completed_ctl (h : HeadPort) (t : Nat) (c : CtlTrans) (rest : List CtlTrans) (reply : List Byte) :
    (h.completed t c rest reply).ctl = rest := by
  unfold HeadPort.completed; dsimp only; split <;> rfl

theorem HeadPort.completed_settingsGen (h : HeadPort) (t : Nat) (c : CtlTrans) (rest : List CtlTrans) (reply : List Byte) :
    (h.completed t c rest reply).settingsGen = if c.settings then (h.settingsGen + 1) % 65536 else h.settingsGen := by
  unfold HeadPort.completed; dsimp only; split <;> rfl

section
variable (d : Dev) {t n : Nat} {c : CtlTrans} {rest : List CtlTrans} (hruns : (d.hpOf n).ctlStopped = false) (hturn : d.ctlTurn n = true)
  (hctl : (d.hpOf n).ctl = c :: rest)
include hruns hturn hctl

theorem Dev.ctlComplete_ok (reply : List Byte) (hserial : c.serial = false) :
    d.ctlComplete t n true reply = (d.setHp n ((d.hpOf n).completed t c rest reply)).raise t (56 + d.ctlPort n) 0 := by
  unfold Dev.ctlComplete HeadPort.completed; dsimp only
  rw [if_neg (by simp [hruns, hturn]), hctl]; dsimp only
  rw [if_neg (by simp [hserial])]
  cases c.settings <;> rfl

/-- A serial read that ends with the expected serial (R72). -/
theorem Dev.serialDone_matches {serial : Nat} (hserial : c.serial = true) (hsame : serial = d.rd64 (Reg.HP_SERIAL_LO n)) (hn : n < 8) :
    d.serialDone t n true serial =
      (((d.setHp n { d.hpOf n with ctl := rest, ctlFailed := false }).raise t (56 + d.ctlPort n) 0).updHp n (fun h => { h with matched := true }), false) := by
  have hout : ¬ outputReg (Reg.HP_SERIAL_LO n) ∧ ¬ outputReg (Reg.HP_SERIAL_LO n + 4) := by
    constructor <;> refine not_outputReg_of_belowWP ?_ <;> simp only [belowWP, Reg.HP_SERIAL_LO] <;> omega
  have hstands : ∀ h : HeadPort, serial = ((d.setHp n h).raise t (56 + d.ctlPort n) 0).rd64 (Reg.HP_SERIAL_LO n) := fun h =>
    hsame.trans (Dev.raise_rd64 (d.setHp n h) _ _ _ hout.1 hout.2).symm
  unfold Dev.serialDone; dsimp only
  rw [hctl]; dsimp only
  rw [if_neg (by simp [hserial, hruns, hturn]), if_pos rfl]
  exact if_pos (hstands _)

/-- A serial read that failed is tried again up to three times, as part of its transaction (R72). -/
theorem Dev.serialDone_retries (serial : Nat) (hserial : c.serial = true) (hretries : (d.hpOf n).retries < 3) :
    d.serialDone t n false serial = (d.setHp n { d.hpOf n with retries := (d.hpOf n).retries + 1 }, false) := by
  unfold Dev.serialDone; dsimp only
  rw [hctl]; dsimp only
  rw [if_neg (by simp [hserial, hruns, hturn]), if_neg (by simp), if_pos hretries]

end

/-! ### The commands -/

section
variable (s : State) (n : Fin 8) (hr : s.running = true)
include hr

theorem exec_hpCtlDataWrite (v : Word) : exec (.hpCtlDataWrite n v) s = .next (s.withDev (s.dev.ctlData n v)) := by
  rw [exec, execHpCtlDataWrite, State.act_running _ _ hr]; rfl

theorem exec_hpCtlSubmit (v : Word) : exec (.hpCtlSubmit n v) s = .next (s.withDev (s.dev.ctlSubmit n v)) := by
  rw [exec, execHpCtlSubmit, State.act_running _ _ hr]; rfl

theorem exec_hpCtlRxRead : exec (.hpCtlRxRead n) s = .next (s.withDev (s.dev.ctlRx n).2) := by
  rw [exec, execHpCtlRxRead, State.act_running _ _ hr]; rfl

theorem exec_hpCtlComplete (dt : Nat) (ok : Bool) (reply : List Byte) :
    exec (.hpCtlComplete dt n ok reply) s = .next ((s.pass dt).withDev (s.dev.ctlComplete (s.pass dt).clock.dtime n ok reply)) := by
  rw [exec, execHpCtlComplete, State.act_running (s.pass dt) _ hr]; rfl

/-- A serial read of which the last store is told nothing acts on the port alone. -/
theorem exec_hpSerialReadDone {ok : Bool} {serial : Dword} {e : Dev} (h : s.dev.serialDone s.clock.dtime n ok serial.toNat = (e, false)) :
    exec (.hpSerialReadDone n ok serial) s = .next (s.withDev e) := by
  rw [exec, execHpSerialReadDone, State.actMem_running _ _ hr, State.now_dtime, h]; rfl

theorem exec_hpWorkingSetReport (hstate : (s.dev.hpOf n).state = .provisional) :
    exec (.hpWorkingSetReport n) s = .next (s.withDev (s.dev.setHp n { s.dev.hpOf n with reported := true })) := by
  rw [exec, execHpWorkingSetReport, State.act_running _ _ hr, Dev.updHp, if_pos hstate]; rfl

end

/-- Settles O19: each clause is the port record that the command's own equation names, and the event of the serial port where one is raised. -/
theorem headControlPath : Obligations.HeadControlPath := by
  intro s n hr h
  refine ⟨fun v => ?_, fun v hmin hmax hrx hslots hbytes => ?_, fun v hfull => ?_, fun dt c rest reply hruns hturn hctl hserial => ?_, ?_,
    fun c rest serial hruns hturn hctl hserial hsame => ?_, fun c rest serial hruns hturn hctl hserial hretries => ?_, fun hstate => ?_⟩
  · exact ⟨_, exec_hpCtlDataWrite s n hr v, deviceOnly_withDev s _, Dev.hpOf_updHp_same _ _ _, rfl⟩
  · refine ⟨_, exec_hpCtlSubmit s n hr v, deviceOnly_withDev s _, ?_⟩
    rw [State.withDev_dev, Dev.ctlSubmit_queues _ _ _ hmin hmax hrx hslots hbytes]
    exact ⟨rfl, Dev.hpOf_setHp_same _ _ _⟩
  · refine ⟨_, exec_hpCtlSubmit s n hr v, deviceOnly_withDev s _, ?_⟩
    rw [State.withDev_dev, Dev.ctlSubmit_full _ _ _ hfull]
    exact ⟨Dev.hpOf_setHp_same _ _ _, Dev.bit_flag _ _ (by omega)⟩
  · refine ⟨_, exec_hpCtlComplete s n hr dt true reply, rfl, rfl, rfl, ?_⟩
    rw [State.withDev_dev, Dev.ctlComplete_ok _ hruns hturn hctl reply hserial, Dev.hpOf_raise, Dev.hpOf_setHp_same, Dev.raise_ev]
    exact ⟨HeadPort.completed_ctl _ _ _ _ _, rfl, HeadPort.completed_settingsGen _ _ _ _ _, rfl⟩
  · exact ⟨_, exec_hpCtlRxRead s n hr, deviceOnly_withDev s _, Dev.hpOf_setHp_same _ _ _, rfl⟩
  · refine ⟨_, exec_hpSerialReadDone s n hr (Dev.serialDone_matches _ hruns hturn hctl hserial hsame n.isLt), deviceOnly_withDev s _, ?_⟩
    refine ⟨Dev.raise_flt _ _ _ _, ?_, Dev.raise_ev _ _ _ _⟩
    rw [State.withDev_dev, Dev.hpOf_updHp_same, Dev.hpOf_raise, Dev.hpOf_setHp_same]
  · exact ⟨_, exec_hpSerialReadDone s n hr (Dev.serialDone_retries _ hruns hturn hctl _ hserial hretries), deviceOnly_withDev s _, Dev.hpOf_setHp_same _ _ _⟩
  · exact ⟨_, exec_hpWorkingSetReport s n hr hstate, deviceOnly_withDev s _, Dev.hpOf_setHp_same _ _ _⟩

end Sys2Proof.Machine
end

section
/-! ## Head ports: packets of the open frame, and where its lines land (R55, R66, R68, R107) -/

namespace Sys2Proof.Machine
open Sys2Proof.Claims

/-! ### The open frame of a port -/

theorem HeadPort.openFrame_not_closed {h : HeadPort} {f : HFrame} (hf : h.openFrame = some f) : f.closed = false := by
  unfold HeadPort.openFrame at hf
  split at hf
  · split at hf
    · cases hf
    · next hopen => cases hf; simpa using hopen
  · cases hf

theorem HeadPort.openFrame_of_last {h : HeadPort} {l : List HFrame} {f : HFrame} (hl : h.frames = l ++ [f]) (hf : f.closed = false) :
    h.openFrame = some f := by
  simp [HeadPort.openFrame, hl, hf]

theorem HeadPort.openFrame_putOpen (h : HeadPort) {f : HFrame} (hf : f.closed = false) : (h.putOpen f).openFrame = some f :=
  HeadPort.openFrame_of_last rfl hf

theorem HFrame.testBit_mark (f : HFrame) (i : Nat) : (f.mark i).flags.testBit i = true := by
  rw [HFrame.mark, Nat.testBit_or, Nat.testBit_two_pow_self, Bool.or_true]

/-! ### What a packet does beyond its port -/

/-- The start of the count without progress is a matter of the pipelines alone (R112). -/
theorem Dev.workFrom_eq (d old : Dev) (t : Nat) : ∃ m, d.workFrom old t = { d with pipes := m } := by
  unfold Dev.workFrom
  induction List.range 2 generalizing d with
  | nil => exact ⟨_, rfl⟩
  | cons p l ih =>
    rw [List.foldl_cons]
    split
    · obtain ⟨m, hm⟩ := ih (d.updPipe p (fun x => { x with last := t }))
      exact ⟨m, hm⟩
    · exact ih d

theorem Dev.workFrom_self (d : Dev) (t : Nat) : d.workFrom d t = d := by
  refine Dev.foldl_fixed _ _ d fun p _ => if_neg ?_
  cases d.noProgressDue p <;> simp

/-- A packet that closes no frame of its port touches nothing but the pipelines beside it. -/
theorem Dev.afterPacket_eq (d old : Dev) (t n : Nat) (h : (old.hpOf n).openFrame = none ∨ (d.hpOf n).openFrame ≠ none) :
    ∃ m, d.afterPacket old t n = { d with pipes := m } := by
  have hover : d.frameOver old n = d := if_neg fun ⟨hwas, hnow⟩ => h.elim (fun hnone => by simp [hnone] at hwas) (fun hopen => hopen hnow)
  rw [Dev.afterPacket, hover]
  exact Dev.workFrom_eq d old t

/-! ### Headers (R68) -/

theorem Dev.rd_congr {d e : Dev} (h : e.regs = d.regs) (a : Nat) : e.rd a = d.rd a := congrArg (fun r : Regs => SMap.get (regReset a) r.live a) h

@[simp] theorem Dev.header_hp (d : Dev) (n : Nat) (hdr : Hdr) : (d.header n hdr).hp = d.hp := by cases hdr <;> simp [Dev.header]
@[simp] theorem Dev.header_pl (d : Dev) (n : Nat) (hdr : Hdr) : (d.header n hdr).pl = d.pl := by cases hdr <;> simp [Dev.header]
@[simp] theorem Dev.header_ev (d : Dev) (n : Nat) (hdr : Hdr) : (d.header n hdr).ev = d.ev := by cases hdr <;> simp [Dev.header]
@[simp] theorem Dev.header_fab (d : Dev) (n : Nat) (hdr : Hdr) : (d.header n hdr).fab = d.fab := by cases hdr <;> simp [Dev.header]
@[simp] theorem Dev.header_tk (d : Dev) (n : Nat) (hdr : Hdr) : (d.header n hdr).tk = d.tk := by cases hdr <;> simp [Dev.header]
@[simp] theorem Dev.header_swaps (d : Dev) (n : Nat) (hdr : Hdr) : (d.header n hdr).regs.swaps = d.regs.swaps := by
  cases hdr <;> simp [Dev.header]
@[simp] theorem Dev.hpOf_header (d : Dev) (n m : Nat) (hdr : Hdr) : (d.header n hdr).hpOf m = d.hpOf m := Dev.hpOf_congr (Dev.header_hp d n hdr) m
/-- A header counts in HP_CNT_ECC or HP_CNT_HDR. -/
theorem Dev.rd_header (d : Dev) {n a : Nat} (hdr : Hdr) (hecc : a ≠ Reg.HP_CNT_ECC n) (hhdr : a ≠ Reg.HP_CNT_HDR n) :
    (d.header n hdr).rd a = d.rd a := by
  cases hdr with
  | ok => rfl
  | fixed => exact Dev.rd_bump_other d hecc
  | lost => exact Dev.rd_bump_other d hhdr
/-- The settings of a port stand below its counters. -/
theorem Dev.rd_header_setting (d : Dev) {n a : Nat} (hdr : Hdr) (h : a < Reg.HP_CNT_ECC n) : (d.header n hdr).rd a = d.rd a :=
  Dev.rd_header d hdr (Nat.ne_of_lt h) (by unfold Reg.HP_CNT_ECC at h; unfold Reg.HP_CNT_HDR; omega)

/-! ### Writes where nothing stands in their way -/

theorem quietMemory_congr {d e : Dev} (hfab : e.fab = d.fab) (htk : e.tk = d.tk) (h : quietMemory d) : quietMemory e := by
  have hlock : ∀ b, e.lockOwner b = d.lockOwner b := fun b => by simp only [Dev.lockOwner, Dev.core, htk]
  simpa only [quietMemory, hfab, hlock] using h

theorem State.write_quiet (s : State) (t req : Nat) {e : Dev} (ws : List MemWrite) (h : quietMemory e) :
    s.write t req (e, ws) = { s with dev := e, mem := s.mem.writes ws } := by
  obtain ⟨hheld, hlocks, hmirror, hretired, hpoison⟩ := h
  rw [State.write, Dev.land_quiet e t req ws hheld hlocks hmirror hretired hpoison]

/-! ### A line in its frame slot (R107) -/

/-- Words of 16 bits written in a row read back, and every other byte of frame memory stands. -/
theorem Mem.frameByte_words (m : Mem) (a : Nat) (v : Nat → Nat) (k c : Nat) :
    (m.writes ((List.range k).map (fun x => frameWrites (a + 2 * x) 2 (v x))).flatten).frameByte c =
      if a ≤ c ∧ c < a + 2 * k ∧ c < frameBytes then BitVec.ofNat 8 (v ((c - a) / 2) / 2 ^ (8 * ((c - a) % 2))) else m.frameByte c := by
  induction k with
  | zero => rw [if_neg (by omega)]; rfl
  | succ k ih =>
    rw [List.range_succ, List.map_append, List.flatten_append, Mem.writes_append, List.map_singleton, List.flatten_singleton, Mem.frameWrites_read, ih]
    by_cases hlast : a + 2 * k ≤ c ∧ c < a + 2 * k + 2 ∧ c < frameBytes
    · rw [if_pos hlast, if_pos (by omega), show (c - a) / 2 = k by omega, show (c - a) % 2 = c - (a + 2 * k) by omega]
    · rw [if_neg hlast]
      exact if_congr (by omega) rfl rfl

theorem Mem.frameNat_words (m : Mem) (a : Nat) (v : Nat → Nat) {k x : Nat} (hx : x < k) (hfit : a + 2 * x + 2 ≤ frameBytes) :
    (m.writes ((List.range k).map (fun x => frameWrites (a + 2 * x) 2 (v x))).flatten).frameNat (a + 2 * x) 2 = v x % 65536 := by
  have hlo := Mem.frameByte_words m a v k (a + 2 * x)
  have hhi := Mem.frameByte_words m a v k (a + 2 * x + 1)
  rw [if_pos (by omega), show (a + 2 * x - a) / 2 = x by omega, show (a + 2 * x - a) % 2 = 0 by omega] at hlo
  rw [if_pos (by omega), show (a + 2 * x + 1 - a) / 2 = x by omega, show (a + 2 * x + 1 - a) % 2 = 1 by omega] at hhi
  simp only [Mem.frameNat, List.range_succ, List.range_zero, List.nil_append, List.map_cons, List.map_nil, List.cons_append,
    leNat, Nat.add_zero, hlo, hhi, BitVec.toNat_ofNat]
  omega

/-! ### Image lines (R55, R68) -/

/-- The containers of a packet as the port delivers them (R55). -/
def rawPixels (raw12 : Bool) (px : List (BitVec 14)) : List Nat := px.map (fun v => if raw12 then v.toNat % 4096 * 4 else v.toNat)

/-- A line joins a frame that has lost none before it, where the line queue has room (R24, R69). -/
theorem Dev.addLine_room (d : Dev) (t n : Nat) {f : HFrame} (l : HLine) (hlost : f.lost = 0) (hroom : f.inline = true → (d.hpOf n).lineQueue < 4) :
    d.addLine t n f l = (d.updHp n (fun h => h.putOpen { f with lines := f.lines ++ [l] }), slotWrites f f.lines.length l) := by
  have hjoin : d.joinLine t n f l = (d.updHp n (fun h => h.putOpen { f with lines := f.lines ++ [l] }), slotWrites f f.lines.length l) :=
    if_neg fun ⟨hin, hfull⟩ => absurd (hroom hin) (by omega)
  simp only [Dev.addLine, hlost, hjoin, List.range_zero, List.foldl_nil]

section
variable (d : Dev) (t : Nat) {n : Nat} {hdr : Hdr} (raw12 : Bool) (px : List (BitVec 14)) {f : HFrame} (hhdr : hdr ≠ .lost)
  (hrecv : d.receiving n 0 = true) (hopen : (d.hpOf n).openFrame = some f) (hdrop : f.dropped = false) (hraw : raw12 = d.bit (Reg.HP_CFG n) 2)
  (hmore : f.lines.length < f.total)
include hhdr hrecv hopen hdrop hraw hmore

/-- A line of full length joins the frame as it came. -/
theorem Dev.imageLine_whole (hlen : px.length = f.cols) :
    d.imageLine t n hdr raw12 true px = (d.header n hdr).addLine t n f ⟨rawPixels raw12 px, f.cols⟩ := by
  have hcfg : (d.header n hdr).bit (Reg.HP_CFG n) 2 = d.bit (Reg.HP_CFG n) 2 :=
    Dev.bit_congr (Dev.rd_header_setting d hdr (by unfold Reg.HP_CFG Reg.HP_CNT_ECC; omega)) 2
  unfold Dev.imageLine; dsimp only
  rw [if_neg (by simp [hrecv]), if_neg hhdr, Dev.hpOf_header, hopen]; dsimp only
  rw [if_neg (by simp [hdrop]), if_neg (by simp [hcfg, hraw]), if_neg (by omega), if_neg (by simp), if_neg (by simp [hlen]), if_neg (by simp [hlen])]
  rfl

/-- A shorter line is padded with HP_FILL, counted and flagged. -/
theorem Dev.imageLine_short (hlen : px.length < f.cols) :
    d.imageLine t n hdr raw12 true px = ((d.header n hdr).bump (Reg.HP_CNT_PAD n)).addLine t n (f.mark 3)
      ⟨rawPixels raw12 px ++ List.replicate (f.cols - (rawPixels raw12 px).length) (d.fld (Reg.HP_FILL n) 13 0), (rawPixels raw12 px).length⟩ := by
  have hcfg : (d.header n hdr).bit (Reg.HP_CFG n) 2 = d.bit (Reg.HP_CFG n) 2 :=
    Dev.bit_congr (Dev.rd_header_setting d hdr (by unfold Reg.HP_CFG Reg.HP_CNT_ECC; omega)) 2
  have hfill : ((d.header n hdr).bump (Reg.HP_CNT_PAD n)).fld (Reg.HP_FILL n) 13 0 = d.fld (Reg.HP_FILL n) 13 0 := Dev.fld_congr
    ((Dev.rd_bump_other _ (by unfold Reg.HP_FILL Reg.HP_CNT_PAD; omega)).trans
      (Dev.rd_header_setting d hdr (by unfold Reg.HP_FILL Reg.HP_CNT_ECC; omega))) 13 0
  unfold Dev.imageLine; dsimp only
  rw [if_neg (by simp [hrecv]), if_neg hhdr, Dev.hpOf_header, hopen]; dsimp only
  rw [if_neg (by simp [hdrop]), if_neg (by simp [hcfg, hraw]), if_neg (by omega), if_neg (by simp), if_neg (by simp [hlen.le]), if_pos (by simpa using hlen),
    hfill]
  rfl

end

theorem slotWrites_none {f : HFrame} (i : Nat) (l : HLine) (h : f.slot = none) : slotWrites f i l = [] := by simp only [slotWrites, h]

/-- Line i of a frame with a slot: its columns are the words at its place in the slot, and every other byte of frame memory stands. -/
theorem Mem.slotWrites_read (m : Mem) {f : HFrame} {k : Nat} (i : Nat) (l : HLine) (h : f.slot = some k) :
    let base := f.slotAt + i * f.cols * 2
    (∀ a, a < base ∨ base + 2 * f.cols ≤ a → (m.writes (slotWrites f i l)).frameByte a = m.frameByte a) ∧
      ∀ x, x < f.cols → base + 2 * x + 2 ≤ frameBytes → (m.writes (slotWrites f i l)).frameNat (base + 2 * x) 2 = l.px.getD x 0 % 65536 := by
  simp only [slotWrites, h]
  refine ⟨fun a ha => ?_, fun x hx hfit => Mem.frameNat_words m _ _ hx hfit⟩
  rw [Mem.frameByte_words, if_neg (by omega)]

/-- An image packet whose line joins the open frame, where nothing stands in the way of its writes. -/
theorem exec_hpImageLine_joins (s : State) (n : Fin 8) (hdr : Hdr) (raw12 crcOk : Bool) (px : List (BitVec 14)) (hr : s.running = true)
    (hquiet : quietMemory s.dev) {e : Dev} {g : HFrame} {ws : List MemWrite}
    (h : s.dev.imageLine s.clock.dtime n hdr raw12 crcOk px = (e.updHp n (fun p => p.putOpen g), ws))
    (hfab : e.fab = s.dev.fab) (htk : e.tk = s.dev.tk) (hg : g.closed = false) :
    ∃ t, exec (.hpImageLine n hdr raw12 crcOk px) s = .next t ∧ t.pending = s.pending ∧ t.clock = s.clock ∧ (t.dev.hpOf n).openFrame = some g ∧
      t.dev.regs = e.regs ∧ t.mem = s.mem.writes ws := by
  have hopen : ((e.updHp n (fun p => p.putOpen g)).hpOf n).openFrame = some g := by
    rw [Dev.hpOf_updHp_same, HeadPort.openFrame_putOpen _ hg]
  obtain ⟨m, hm⟩ := Dev.afterPacket_eq _ s.dev s.clock.dtime n (.inr (by rw [hopen]; simp))
  refine ⟨{ s with dev := { e.updHp n (fun p => p.putOpen g) with pipes := m }, mem := s.mem.writes ws }, ?_, rfl, rfl, hopen, rfl, rfl⟩
  rw [exec, execHpImageLine, State.actWr_free _ _ _ hr hquiet.1]
  dsimp only
  rw [State.now_dtime, h, hm]
  exact congrArg Host.Outcome.next (State.write_quiet s _ _ _ (quietMemory_congr (d := s.dev) hfab htk hquiet))

/-- Settles O17: a line of full length joins as it came, a shorter one padded, counted and flagged; its bytes are those of `slotWrites`. -/
theorem imageLineJoinsTheFrame : Obligations.ImageLineJoinsTheFrame := by
  intro s n hdr raw12 px f hr hhdr hrecv hopen hdrop hlost hroom hraw hmore hlen hquiet raw line
  have hclosed : f.closed = false := HeadPort.openFrame_not_closed hopen
  rcases hlen.lt_or_eq with hshort | hwhole
  · have himage := Dev.imageLine_short s.dev s.clock.dtime raw12 px hhdr hrecv hopen hdrop hraw hmore hshort
    rw [Dev.addLine_room (f := f.mark 3) _ _ _ _ hlost (by simpa [HFrame.mark] using hroom)] at himage
    obtain ⟨t, hexec, hpending, hclock, hframe, hregs, hmem⟩ := exec_hpImageLine_joins s n hdr raw12 true px hr hquiet himage (by simp) (by simp) hclosed
    refine ⟨t, _, hexec, hpending, hclock, hframe, List.map_append, rfl, fun _ => ⟨?_, fun hcount => ?_⟩, fun hwhole => absurd hwhole hshort.ne, fun hnone => ?_,
      fun k hk => hmem ▸ Mem.slotWrites_read s.mem _ _ hk⟩
    · exact HFrame.testBit_mark f 3
    · have hpad : (s.dev.header n hdr).rdN (Reg.HP_CNT_PAD n) = s.dev.rdN (Reg.HP_CNT_PAD n) :=
        congrArg BitVec.toNat (Dev.rd_header_setting s.dev hdr (by unfold Reg.HP_CNT_PAD Reg.HP_CNT_ECC; omega))
      rw [← hpad] at hcount ⊢
      exact (congrArg BitVec.toNat (Dev.rd_congr hregs _)).trans (Dev.rdN_bumpBy_same _ _ 1 hcount)
    · exact hmem.trans (congrArg s.mem.writes (slotWrites_none _ _ hnone))
  · have hline : line = raw := by simp [line, raw, hwhole]
    have himage := Dev.imageLine_whole s.dev s.clock.dtime raw12 px hhdr hrecv hopen hdrop hraw hmore hwhole
    rw [Dev.addLine_room _ _ _ _ hlost (by simpa using hroom)] at himage
    obtain ⟨t, hexec, hpending, hclock, hframe, hregs, hmem⟩ := exec_hpImageLine_joins s n hdr raw12 true px hr hquiet himage (by simp) (by simp) hclosed
    rw [hline]
    refine ⟨t, _, hexec, hpending, hclock, hframe, List.map_append, rfl, fun hshort => absurd hwhole hshort.ne, fun _ => rfl, fun hnone => ?_,
      fun k hk => hmem ▸ Mem.slotWrites_read s.mem _ _ hk⟩
    · exact hmem.trans (congrArg s.mem.writes (slotWrites_none _ _ hnone))

end Sys2Proof.Machine
end

section
/-! ## Head ports: frame starts (R57, R66, R71, R107) -/

namespace Sys2Proof.Machine

/-! ### Presence (R71 to R73) -/

/-- From d to e: of the registers, the contexts, the events and the ports, nothing has changed but port n, and there neither the frames nor their
number. -/
def Dev.framesKept (n : Nat) (d e : Dev) : Prop :=
  e.regs = d.regs ∧ e.pl = d.pl ∧ e.ev = d.ev ∧ (e.hpOf n).frames = (d.hpOf n).frames ∧ (e.hpOf n).seq = (d.hpOf n).seq ∧
    ∀ m, m ≠ n → e.hpOf m = d.hpOf m

theorem Dev.framesKept_refl (n : Nat) (d : Dev) : d.framesKept n d := ⟨rfl, rfl, rfl, rfl, rfl, fun _ _ => rfl⟩

theorem Dev.framesKept.trans {n : Nat} {d e f : Dev} (h : d.framesKept n e) (h' : e.framesKept n f) : d.framesKept n f := by
  obtain ⟨hregs, hpl, hev, hframes, hseq, hothers⟩ := h
  obtain ⟨hregs', hpl', hev', hframes', hseq', hothers'⟩ := h'
  exact ⟨hregs'.trans hregs, hpl'.trans hpl, hev'.trans hev, hframes'.trans hframes, hseq'.trans hseq,
    fun m hm => (hothers' m hm).trans (hothers m hm)⟩

theorem Dev.framesKept_setHp {n : Nat} {d : Dev} {x : HeadPort} (hframes : x.frames = (d.hpOf n).frames) (hseq : x.seq = (d.hpOf n).seq) :
    d.framesKept n (d.setHp n x) :=
  ⟨rfl, rfl, rfl, by rw [Dev.hpOf_setHp_same, hframes], by rw [Dev.hpOf_setHp_same, hseq], fun m hm => Dev.hpOf_setHp_other d x hm⟩

@[simp] theorem Dev.hpOf_spoil (d : Dev) (h n : Nat) : (d.spoil h).hpOf n = d.hpOf n := by unfold Dev.spoil; split <;> rfl

theorem Dev.framesKept_spoil (n : Nat) (d : Dev) (h : Nat) : d.framesKept n (d.spoil h) := by
  unfold Dev.spoil; split <;> exact Dev.framesKept_refl n d

theorem Dev.framesKept_queueSerial (n : Nat) (d : Dev) : d.framesKept n (d.queueSerial n) := Dev.framesKept_setHp rfl rfl

theorem Dev.framesKept_presenceStart (n : Nat) (d : Dev) : d.framesKept n (d.presenceStart n) := by
  unfold Dev.presenceStart; dsimp only
  split
  · refine Dev.framesKept.trans (Dev.framesKept.trans ?_ (Dev.framesKept_spoil n _ n)) (Dev.framesKept_queueSerial n _)
    exact Dev.framesKept_setHp rfl rfl
  · split
    · exact Dev.framesKept_setHp rfl rfl
    · exact Dev.framesKept_refl n d
  · split
    · exact Dev.framesKept_setHp rfl rfl
    · exact Dev.framesKept_refl n d
  · exact Dev.framesKept_refl n d

/-- A frame start at an absent port begins identification, with a serial read before all else in the control queue. -/
theorem Dev.presenceStart_absent (d : Dev) (n : Nat) (h : (d.hpOf n).state = .absent) :
    ((d.presenceStart n).hpOf n).state = .ident ∧ (((d.presenceStart n).hpOf n).ctl.head?.map CtlTrans.serial) = some true := by
  unfold Dev.presenceStart; dsimp only
  rw [h]; dsimp only
  rw [Dev.queueSerial, Dev.hpOf_updHp_same, Dev.hpOf_spoil, Dev.hpOf_setHp_same]
  exact ⟨rfl, rfl⟩

/-! ### The frame that a start opens (R57, R66, R107) -/

theorem HeadPort.countStart_eq (h : HeadPort) (t latency : Nat) :
    ∃ b cs, h.countStart t latency = { h with baseGen := b, completions := cs } := by
  unfold HeadPort.countStart; dsimp only
  split
  · exact ⟨_, _, rfl⟩
  · exact ⟨_, _, rfl⟩

theorem HeadPort.freeSlot_free {h : HeadPort} {k : Nat} (hk : h.freeSlot = some k) : k < 2 ∧ ∀ g ∈ h.frames, g.slot ≠ some k := by
  unfold HeadPort.freeSlot at hk
  split at hk
  · next hfree => cases hk; exact ⟨by omega, by simpa using hfree⟩
  · split at hk
    · next hfree => cases hk; exact ⟨by omega, by simpa using hfree⟩
    · cases hk

theorem HeadPort.freeSlot_congr {h p : HeadPort} (hframes : p.frames = h.frames) : p.freeSlot = h.freeSlot := by
  unfold HeadPort.freeSlot; rw [hframes]

/-- Frame f is one that an accepted frame start at `now` may open at port n: its number, stamps and geometry, and for a head that is not in-line
a free slot. -/
def Dev.opens (d : Dev) (now : Now) (n : Nat) (f : HFrame) : Prop :=
  f.closed = false ∧ f.seq = ((d.hpOf n).seq + 1) % 2 ^ 32 ∧ f.dtime = now.dtime ∧ f.wpos = now.wpos ∧ f.lines = [] ∧
    f.cols = d.fld (Reg.HP_GEOM n) 11 0 ∧ f.rows = d.fld (Reg.HP_GEOM n) 27 16 ∧ f.blind = d.fld (Reg.HP_BLIND n) 4 0 ∧
    ∀ c k, d.carrier n = some c → f.slot = some k → d.bit (Reg.PL_Sx_CFG c.1 c.2) 4 = false ∧ (d.hpOf n).freeSlot = some k ∧
      f.slotAt = d.rdN (Reg.PL_Sx_SLOT c.1 c.2) + k * ((f.total * f.cols * 2 + 63) / 64 * 64)

theorem Dev.opens_markIf {d : Dev} {now : Now} {n : Nat} {f : HFrame} (h : d.opens now n f) (i : Nat) (p : Prop) [Decidable p] :
    d.opens now n (if p then f.mark i else f) := by split <;> exact h

theorem Dev.opens_markUnless {d : Dev} {now : Now} {n : Nat} {f : HFrame} (h : d.opens now n f) (i : Nat) (p : Prop) [Decidable p] :
    d.opens now n (if p then f else f.mark i) := by split <;> exact h

/-- What a frame start counts and records: lost sync, and a frame for which there is no room (R70, R75). -/
def Dev.startNotes (d : Dev) (t n : Nat) (lost room : Bool) (seq : Nat) : Dev :=
  let d := if lost then (d.bump (Reg.HP_CNT_SYNC n)).flag (Reg.HP_FAULT n) 7 else d
  if room then d else (d.bump (Reg.HP_CNT_DROP n)).hpRecord t n 1 seq

theorem Dev.openNew_eq (d : Dev) (now : Now) (n : Nat) : ∃ h f lost room seq,
    d.openNew now n = (((d.presenceStart n).setHp n h).startNotes now.dtime n lost room seq).raise now.dtime n seq ∧
    h.frames = ((d.presenceStart n).hpOf n).frames ++ [f] ∧ (d.presenceStart n).opens now n f ∧ f.seq = seq ∧ h.seq = seq ∧ h.lastStart = now.dtime ∧
    h.state = ((d.presenceStart n).hpOf n).state ∧ h.ctl = ((d.presenceStart n).hpOf n).ctl := by
  generalize he : d.presenceStart n = e
  obtain ⟨b, cs, hcount⟩ := HeadPort.countStart_eq (e.hpOf n) now.dtime (e.fld (Reg.HP_LATENCY n) 3 0)
  unfold Dev.openNew; dsimp only
  rw [he, hcount]
  refine ⟨_, _, _, _, _, rfl, rfl, ?_, ?_, rfl, rfl, rfl, rfl⟩
  · refine Dev.opens_markUnless (Dev.opens_markIf (Dev.opens_markIf ⟨rfl, rfl, rfl, rfl, rfl, rfl, rfl, rfl, fun c k hc hk => ?_⟩ _ _) _ _) _ _
    dsimp only at hk ⊢
    rw [hc] at hk ⊢
    obtain ⟨-, hslot⟩ := Option.ite_none_right_eq_some.mp hk
    obtain ⟨hline, hfree⟩ := Option.ite_none_left_eq_some.mp hslot
    refine ⟨Bool.eq_false_of_not_eq_true hline, hfree, ?_⟩
    rw [hslot]
    rfl
  · split_ifs <;> rfl

/-- From d to e: of the events and the ports nothing has changed but the note that port n keeps of its last records (R75). -/
def Dev.noted (n : Nat) (d e : Dev) : Prop :=
  e.ev = d.ev ∧ (∃ m, e.hpOf n = { d.hpOf n with lastRec := m }) ∧ ∀ m, m ≠ n → e.hpOf m = d.hpOf m

theorem Dev.noted_of_hp (n : Nat) {d e : Dev} (hev : e.ev = d.ev) (hhp : e.hp = d.hp) : d.noted n e :=
  ⟨hev, ⟨_, Dev.hpOf_congr hhp n⟩, fun m _ => Dev.hpOf_congr hhp m⟩

theorem Dev.noted.trans {n : Nat} {d e f : Dev} (h : d.noted n e) (h' : e.noted n f) : d.noted n f := by
  obtain ⟨hev, ⟨m, hport⟩, hothers⟩ := h
  obtain ⟨hev', ⟨m', hport'⟩, hothers'⟩ := h'
  exact ⟨hev'.trans hev, ⟨m', by rw [hport', hport]⟩, fun k hk => (hothers' k hk).trans (hothers k hk)⟩

theorem Dev.noted_updHp (n : Nat) (d : Dev) (g : HeadPort → SMap (Option Nat)) : d.noted n (d.updHp n (fun h => { h with lastRec := g h })) :=
  ⟨rfl, ⟨_, Dev.hpOf_updHp_same _ _ _⟩, fun _ hk => Dev.hpOf_updHp_other _ _ hk⟩

theorem Dev.noted_hpRecord (n : Nat) (d : Dev) (t code seq : Nat) : d.noted n (d.hpRecord t n code seq) := by
  have hflag : d.noted n (d.flag (Reg.HP_FAULT n) (code - 1)) := Dev.noted_of_hp n rfl rfl
  have hfault : ∀ e : Dev, e.noted n (e.fault t (uid 4 n 0) code seq) := fun e => Dev.noted_of_hp n (by simp) (by simp)
  unfold Dev.hpRecord; dsimp only
  split
  · split
    · exact hflag
    · exact (hflag.trans (hfault _)).trans (Dev.noted_updHp n _ _)
  · exact (hflag.trans (hfault _)).trans (Dev.noted_updHp n _ _)

theorem Dev.noted_startNotes (n : Nat) (d : Dev) (t : Nat) (lost room : Bool) (seq : Nat) : d.noted n (d.startNotes t n lost room seq) := by
  have hlost : d.noted n (if lost then (d.bump (Reg.HP_CNT_SYNC n)).flag (Reg.HP_FAULT n) 7 else d) := by
    split <;> exact Dev.noted_of_hp n (by simp) (by simp)
  unfold Dev.startNotes; dsimp only
  split
  · exact hlost
  · exact (hlost.trans (Dev.noted_of_hp n (by simp) (by simp))).trans (Dev.noted_hpRecord n _ t 1 seq)

theorem Dev.carrier_congr {d e : Dev} (hregs : ∀ a, 0x50000 ≤ a → e.rd a = d.rd a) (hpl : e.pl = d.pl) (n : Nat) : e.carrier n = d.carrier n := by
  have hon : ∀ p s, e.ctxOn p s = d.ctxOn p s := fun p s => by
    simp only [Dev.ctxOn, Dev.bit_congr (hregs (Reg.PL_CFG p) (by unfold Reg.PL_CFG; omega)),
      Dev.bit_congr (hregs (Reg.PL_Sx_CFG p s) (by unfold Reg.PL_Sx_CFG; omega))]
  unfold Dev.carrier
  refine congrArg (fun f => allCtx.find? f) (funext fun c => ?_)
  simp only [hon, Dev.ctx, hpl, Dev.fld_congr (hregs (Reg.PL_Sx_CFG c.1 c.2) (by unfold Reg.PL_Sx_CFG; omega)),
    Dev.bit_congr (hregs (Reg.PL_Sx_CFG c.1 c.2) (by unfold Reg.PL_Sx_CFG; omega))]

/-- An accepted frame start: the port's frames with the new one behind them, its number, its event, and nothing of the other ports. -/
theorem Dev.openNew_law (d : Dev) (now : Now) (n : Nat) : ∃ f, (d.presenceStart n).opens now n f ∧
    ((d.openNew now n).hpOf n).frames = (d.hpOf n).frames ++ [f] ∧ ((d.openNew now n).hpOf n).seq = f.seq ∧
    ((d.openNew now n).hpOf n).lastStart = now.dtime ∧ ((d.openNew now n).hpOf n).state = ((d.presenceStart n).hpOf n).state ∧
    ((d.openNew now n).hpOf n).ctl = ((d.presenceStart n).hpOf n).ctl ∧
    (d.openNew now n).ev = d.ev ++ [⟨n, BitVec.ofNat 32 f.seq, now.dtime⟩] ∧ ∀ m, m ≠ n → (d.openNew now n).hpOf m = d.hpOf m := by
  obtain ⟨h, f, lost, room, seq, hopen, hframes, hopens, hnumber, hseq, hlast, hstate, hctl⟩ := Dev.openNew_eq d now n
  obtain ⟨-, -, hev, hkept, -, hothers⟩ := Dev.framesKept_presenceStart n d
  obtain ⟨hnev, ⟨m, hport⟩, hnothers⟩ := Dev.noted_startNotes n ((d.presenceStart n).setHp n h) now.dtime lost room seq
  rw [Dev.hpOf_setHp_same] at hport
  refine ⟨f, hopens, ?_⟩
  rw [hopen, Dev.hpOf_raise, hport, Dev.raise_ev, hnev, Dev.setHp_ev, hev, hnumber]
  exact ⟨hframes.trans (by rw [hkept]), hseq, hlast, hstate, hctl, rfl,
    fun k hk => (Dev.hpOf_raise _ _ _ _ k).trans ((hnothers k hk).trans ((Dev.hpOf_setHp_other _ h hk).trans (hothers k hk)))⟩

/-- What may open is the same before the header's count and the step of presence. -/
theorem Dev.opens_before {d : Dev} {now : Now} {n : Nat} {hdr : Hdr} {f : HFrame} (hn : n < 8)
    (h : ((d.header n hdr).presenceStart n).opens now n f) : d.opens now n f := by
  obtain ⟨hregs, hpl, -, hkept, hnumber, -⟩ := Dev.framesKept_presenceStart n (d.header n hdr)
  rw [Dev.hpOf_header] at hkept hnumber
  obtain ⟨hclosed, hseq, hdtime, hwpos, hlines, hcols, hrows, hblind, hslot⟩ := h
  generalize (d.header n hdr).presenceStart n = e at *
  have hset : ∀ a, a < Reg.HP_CNT_ECC n → e.rd a = d.rd a := fun a ha => (Dev.rd_congr hregs a).trans (Dev.rd_header_setting d hdr ha)
  have hgeom : e.rd (Reg.HP_GEOM n) = d.rd (Reg.HP_GEOM n) := hset _ (by unfold Reg.HP_GEOM Reg.HP_CNT_ECC; omega)
  have hpls : ∀ a, 0x50000 ≤ a → e.rd a = d.rd a := fun a ha => (Dev.rd_congr hregs a).trans
    (Dev.rd_header d hdr (by unfold Reg.HP_CNT_ECC; omega) (by unfold Reg.HP_CNT_HDR; omega))
  refine ⟨hclosed, hnumber ▸ hseq, hdtime, hwpos, hlines, hcols.trans (Dev.fld_congr hgeom 11 0), hrows.trans (Dev.fld_congr hgeom 27 16),
    hblind.trans (Dev.fld_congr (hset _ (by unfold Reg.HP_BLIND Reg.HP_CNT_ECC; omega)) 4 0), fun c k hc hk => ?_⟩
  obtain ⟨hline, hfree, hat⟩ := hslot c k ((Dev.carrier_congr hpls (hpl.trans (Dev.header_pl d n hdr)) n).trans hc) hk
  refine ⟨(Dev.bit_congr (hpls _ (by unfold Reg.PL_Sx_CFG; omega)) 4).symm.trans hline, (HeadPort.freeSlot_congr hkept).symm.trans hfree, ?_⟩
  rw [hat, Dev.rdN, hpls _ (by unfold Reg.PL_Sx_SLOT; omega)]
  rfl

/-! ### The command -/

/-- A frame start with a readable header at a port that takes it, with no frame open and no swap waiting, opens a frame and does nothing else. -/
theorem State.headStart_opens (s : State) (n : Fin 8) {hdr : Hdr} (hhdr : hdr ≠ .lost) (hswaps : s.dev.regs.swaps = [])
    (hon : (s.dev.hpOf n).state ≠ .disabled) (hin : (s.dev.hpOf n).out = false) (hheld : (s.dev.hpOf n).state = .absent → (s.dev.hpOf n).held = false)
    (hnone : (s.dev.hpOf n).openFrame = none) : s.headStart n hdr = s.withDev ((s.dev.header n hdr).openNew s.now n) := by
  have hcloses : (s.dev.header n hdr).startCloses s.clock.dtime n = s.dev.header n hdr := by
    simp only [Dev.startCloses, Dev.hpOf_header, hnone]
  have hafter : (s.dev.header n hdr).afterPacket (s.dev.header n hdr) s.clock.dtime n = s.dev.header n hdr := by
    have hover : (s.dev.header n hdr).frameOver (s.dev.header n hdr) n = s.dev.header n hdr := if_neg (by simp [hnone])
    rw [Dev.afterPacket, hover, Dev.workFrom_self]
  have hswap := State.swapsAt_none (s.withDev (s.dev.header n hdr)) (.frame n) (fun x => decide (x = .hp n)) ((Dev.header_swaps _ _ _).trans hswaps)
  have hon' : ((s.withDev (s.dev.header n hdr)).dev.hpOf n).state ≠ .disabled := by simpa using hon
  have haccepts : (s.withDev (s.dev.header n hdr)).dev.acceptsStart n ≠ false := by
    by_cases habsent : (s.dev.hpOf n).state = .absent
    · simp [Dev.acceptsStart, hin, habsent, hheld habsent]
    · simp [Dev.acceptsStart, hin, habsent, hon]
  unfold State.headStart; dsimp only
  rw [if_neg hon, if_neg hhdr, if_neg (by simp [hin]), hcloses, hafter, hswap, if_neg hon', if_neg haccepts]
  rfl

theorem exec_hpFrameStart (s : State) (dt : Nat) (n : Fin 8) (hdr : Hdr) (hr : s.running = true) :
    exec (.hpFrameStart dt n hdr) s = .next ((s.pass dt).headStart n hdr) := by
  rw [exec, execHpFrameStart, State.actAll_running (s.pass dt) _ hr]

/-- Settles O16: the command is `openNew` alone, which gives the port the frame of `Dev.opens`; presence, and what the start counts and records, keep the frames. -/
theorem frameStartOpensAFrame : Obligations.FrameStartOpensAFrame := by
  intro s dt n hdr hr hhdr hswaps hon hin hheld hnone
  have hexec := exec_hpFrameStart s dt n hdr hr
  rw [State.headStart_opens (s.pass dt) n hhdr hswaps hon hin hheld hnone] at hexec
  obtain ⟨f, hopens, hframes, hseq, hlast, hstate, hctl, hev, hothers⟩ := Dev.openNew_law (s.dev.header n hdr) (s.pass dt).now n
  obtain ⟨hclosed, hnumber, hdtime, hwpos, hlines, hcols, hrows, hblind, hslot⟩ := Dev.opens_before n.isLt hopens
  refine ⟨_, f, hexec, rfl, rfl, rfl, hseq.trans hnumber, hlast, HeadPort.openFrame_of_last hframes hclosed, hseq.symm, hdtime, hwpos, hlines, hcols,
    hrows, hblind, fun c k hc hk => ?_, fun habsent => ?_, ?_, fun m hm => ?_⟩
  · obtain ⟨hline, hfree, hat⟩ := hslot c k hc hk
    obtain ⟨hk2, hnot⟩ := HeadPort.freeSlot_free hfree
    exact ⟨hline, hk2, hnot, hat⟩
  · obtain ⟨hident, hserial⟩ := Dev.presenceStart_absent (s.dev.header n hdr) n (by rw [Dev.hpOf_header, habsent])
    exact ⟨hstate.trans hident, (congrArg (fun l => l.head?.map CtlTrans.serial) hctl).trans hserial⟩
  · exact hev.trans (by rw [Dev.header_ev]; rfl)
  · exact (hothers m (Fin.val_ne_of_ne hm)).trans (Dev.hpOf_header _ _ _ _)

end Sys2Proof.Machine
end

section
/-! ## Head ports: a frame that closes need not be the last one open (R68, R110) -/

namespace Sys2Proof.Machine

/-- A frame of no lines that still arrives; `lost` says that its pipeline has lost it (R110). -/
def arrivingFrame (lost : Bool) : HFrame :=
  { seq := 0, dtime := 0, wpos := 0, latGen := 0, unitGen := 0, cols := 0, blind := 0, rows := 0, blindBottom := false, rindFirst := 0, rindCount := 0,
    inline := false, slot := none, slotAt := 0, gone := lost, lines := [], lost := 0, freed := 0, flags := 0, closed := false, tag := [] }

/-- Head port 0 receives a frame that its pipeline has lost, and the frame before it has not closed either. No frame start leaves a port so, for it
closes the frame still open (R68), but the statement asks nothing of the frames before the open one. -/
def lostBehindOpen : State :=
  State.reset.withDev (Dev.reset.setHp 0 { HeadPort.reset with state := .present, frames := [arrivingFrame false, arrivingFrame true] })

/-- The frame end takes the lost frame away, and the one before it is open again. -/
theorem lostBehindOpen_frameEnd (t : State) (h : exec (.hpFrameEnd 0 0 .ok) lostBehindOpen = .next t) : (t.dev.hpOf 0).openFrame = some (arrivingFrame false) := by
  have heval : (match exec (.hpFrameEnd 0 0 .ok) lostBehindOpen with
    | .next t => (t.dev.hpOf 0).openFrame
    | _ => none) = some (arrivingFrame false) := by decide +kernel
  rw [h] at heval
  exact heval

/-- Refutes O18: where an earlier frame of the port is still open, the end of a lost frame leaves that one open. -/
theorem not_framesEndAndPortsGoAbsent : ¬ Obligations.FramesEndAndPortsGoAbsent := by
  intro h
  obtain ⟨hend, -⟩ := h lostBehindOpen 0 (by decide +kernel) (by decide +kernel)
  obtain ⟨t, hexec, -, -, -, hnone, -⟩ := hend 0 (arrivingFrame true) (by decide +kernel) (by decide +kernel) (by decide +kernel) (by decide +kernel)
  exact absurd ((lostBehindOpen_frameEnd t hexec).symm.trans hnone) (by simp)

end Sys2Proof.Machine
end

section
/-! ## Pixel pipelines: a pipeline's record, and the choice of work (R85, R104, R112) -/

namespace Sys2Proof.Machine
open Sys2Proof.Claims

@[simp] theorem Dev.pipe_setPipe_same (d : Dev) (p : Nat) (x : Pipe) : (d.setPipe p x).pipe p = x := SMap.get_set_same _ _ _ _
@[simp] theorem Dev.pipe_updPipe_same (d : Dev) (p : Nat) (f : Pipe → Pipe) : (d.updPipe p f).pipe p = f (d.pipe p) := SMap.get_set_same _ _ _ _
theorem Dev.pipe_updPipe_other (d : Dev) {p q : Nat} (f : Pipe → Pipe) (h : q ≠ p) : (d.updPipe p f).pipe q = d.pipe q := SMap.get_set_other _ _ _ h
theorem Dev.pipe_congr {d e : Dev} (h : e.pipes = d.pipes) (p : Nat) : e.pipe p = d.pipe p := congrArg (SMap.get Pipe.reset · p) h

/-- The start of the count without progress changes nothing of a pipeline but that start. -/
theorem Dev.pipe_workFrom (d old : Dev) (t p : Nat) : ∃ l, (d.workFrom old t).pipe p = { d.pipe p with last := l } := by
  unfold Dev.workFrom
  refine Dev.foldl_inv (fun e => ∃ l, e.pipe p = { d.pipe p with last := l }) _ (fun e q he => ?_) _ d ⟨_, rfl⟩
  split
  · obtain ⟨l, hl⟩ := he
    by_cases hq : p = q
    · subst hq; exact ⟨t, by rw [Dev.pipe_updPipe_same, hl]⟩
    · exact ⟨l, by rw [Dev.pipe_updPipe_other _ _ hq, hl]⟩
  · exact he

theorem Dev.replays_workFrom (d old : Dev) (t p : Nat) : ((d.workFrom old t).pipe p).replays = (d.pipe p).replays := by
  obtain ⟨l, hl⟩ := Dev.pipe_workFrom d old t p
  rw [hl]

theorem Dev.workFrom_regs (d old : Dev) (t : Nat) : (d.workFrom old t).regs = d.regs := by
  obtain ⟨m, hm⟩ := Dev.workFrom_eq d old t
  rw [hm]

/-! ### The candidates and the oldest of them (R104) -/

/-- When the next frame of context s started, 0 where there is none. -/
def Dev.frameStart (d : Dev) (p s : Nat) : Nat := match d.nextFrame (d.ctxHead p s) with
  | some f => f.dtime
  | none => 0

theorem Dev.nextFrame_of_candidate {d : Dev} {p s : Nat} (h : s ∈ d.candidates p false) :
    ∃ f, d.nextFrame (d.ctxHead p s) = some f ∧ d.frameStart p s = f.dtime := by
  simp only [Dev.candidates, List.mem_filter, Bool.and_eq_true] at h
  obtain ⟨-, -, hframe⟩ := h
  unfold Dev.frameStart
  cases hnext : d.nextFrame (d.ctxHead p s) with
  | none => simp [hnext] at hframe
  | some f => exact ⟨f, rfl, rfl⟩

/-- The first candidate is the lowest. -/
theorem Dev.candidates_head_le {d : Dev} {p s c : Nat} {inline : Bool} (h : (d.candidates p inline).head? = some s)
    (hc : c ∈ d.candidates p inline) : s ≤ c := by
  have hsorted : (d.candidates p inline).Pairwise (· < ·) := List.pairwise_lt_range.filter _
  cases hl : d.candidates p inline with
  | nil => simp [hl] at h
  | cons a l =>
    rw [hl, List.head?_cons, Option.some_inj] at h
    subst h
    rw [hl] at hc hsorted
    rcases List.mem_cons.mp hc with rfl | hc
    · exact le_rfl
    · exact (List.rel_of_pairwise_cons hsorted hc).le

/-- Of the context so far and context s, the one whose frame started first. -/
def Dev.earlier (d : Dev) (p : Nat) (o : Option Nat) (s : Nat) : Option Nat := match o with
  | none => some s
  | some b => if d.frameStart p s < d.frameStart p b then some s else some b

theorem Dev.oldest_eq (d : Dev) (p : Nat) (l : List Nat) : d.oldest p l = l.foldl (d.earlier p) none := rfl

theorem Dev.foldl_earlier (d : Dev) (p : Nat) (l : List Nat) (b : Nat) : ∃ s, l.foldl (d.earlier p) (some b) = some s ∧ (s = b ∨ s ∈ l) ∧
    d.frameStart p s ≤ d.frameStart p b ∧ ∀ c ∈ l, d.frameStart p s ≤ d.frameStart p c := by
  induction l generalizing b with
  | nil => exact ⟨b, rfl, .inl rfl, le_rfl, by simp⟩
  | cons a l ih =>
    rw [List.foldl_cons, Dev.earlier]
    by_cases hab : d.frameStart p a < d.frameStart p b
    · obtain ⟨s, hs, hmem, hle, hall⟩ := ih a
      exact ⟨s, by rw [if_pos hab, hs], .inr (List.mem_cons.mpr hmem), hle.trans hab.le, List.forall_mem_cons.mpr ⟨hle, hall⟩⟩
    · obtain ⟨s, hs, hmem, hle, hall⟩ := ih b
      exact ⟨s, by rw [if_neg hab, hs], hmem.imp_right (List.mem_cons_of_mem _), hle, List.forall_mem_cons.mpr ⟨hle.trans (not_lt.mp hab), hall⟩⟩

theorem Dev.oldest_law (d : Dev) (p : Nat) {l : List Nat} {c : Nat} (hc : c ∈ l) :
    ∃ s, d.oldest p l = some s ∧ s ∈ l ∧ ∀ c ∈ l, d.frameStart p s ≤ d.frameStart p c := by
  cases l with
  | nil => simp at hc
  | cons a l =>
    obtain ⟨s, hs, hmem, hle, hall⟩ := Dev.foldl_earlier d p l a
    exact ⟨s, hs, List.mem_cons.mpr hmem, List.forall_mem_cons.mpr ⟨hle, hall⟩⟩

/-! ### The line boundary -/

section
variable {d : Dev} {p : Nat}

/-- Whatever it chooses, a pipeline that has not faulted writes its own record. -/
theorem Dev.lineBoundary_eq (hok : (d.pipe p).faulted = false) : ∃ x, d.lineBoundary p = d.setPipe p x := by
  unfold Dev.lineBoundary
  simp only [hok, Bool.false_eq_true, if_false]
  repeat' split
  all_goals exact ⟨_, rfl⟩

theorem Dev.lineBoundary_inline {c : Nat} (hok : (d.pipe p).faulted = false) (hc : c ∈ d.candidates p true) :
    ∃ b, ((d.lineBoundary p).pipe p).cur = some b ∧ b ∈ d.candidates p true ∧ b ≤ c := by
  cases hhead : (d.candidates p true).head? with
  | none => rw [List.head?_eq_none_iff] at hhead; simp [hhead] at hc
  | some b => exact ⟨b, by simp [Dev.lineBoundary, hok, hhead], List.mem_of_mem_head? hhead, Dev.candidates_head_le hhead hc⟩

theorem Dev.lineBoundary_stripe {c n : Nat} (hok : (d.pipe p).faulted = false) (hnone : d.candidates p true = []) (hstripe : (d.pipe p).stripe = some (c, n))
    (hn : 0 < n) (hbusy : (d.ctx p c).busy = true) (hload : c ∉ (d.pipe p).loading) :
    (d.lineBoundary p).pipe p = { d.pipe p with cur := some c } := by
  simp [Dev.lineBoundary, hok, hnone, hstripe, hn, hbusy, hload]

theorem Dev.lineBoundary_oldest {s : Nat} (hok : (d.pipe p).faulted = false) (hnone : d.candidates p true = []) (hstripe : (d.pipe p).stripe = none)
    (hs : d.oldest p (d.candidates p false) = some s) : (d.lineBoundary p).pipe p = { d.pipe p with cur := some s, stripe := some (s, 64) } := by
  simp [Dev.lineBoundary, hok, hnone, hstripe, hs]

theorem Dev.lineBoundary_idle (hok : (d.pipe p).faulted = false) (hnone : d.candidates p true = []) (hstripe : (d.pipe p).stripe = none)
    (hthrough : d.candidates p false = []) (hreplays : (d.pipe p).replays = []) :
    (d.lineBoundary p).pipe p = { d.pipe p with cur := none, stripe := none } := by
  simp [Dev.lineBoundary, hok, hnone, hstripe, hthrough, hreplays, Dev.oldest]

end

theorem exec_plLineBoundary (s : State) (p : Fin 2) (hr : s.running = true) :
    exec (.plLineBoundary p) s = .next (s.withDev ((s.dev.lineBoundary p).workFrom s.dev s.clock.dtime)) := by
  rw [exec, execPlLineBoundary, State.act_running _ _ hr]; rfl

/-- Settles O20: the command is `lineBoundary` and the start of the count without progress, which does not touch the choice. -/
theorem pipelineChoosesItsWork : Obligations.PipelineChoosesItsWork := by
  intro s p hr _ hok
  obtain ⟨x, hchoice⟩ := Dev.lineBoundary_eq hok
  obtain ⟨m, hfrom⟩ := Dev.workFrom_eq (s.dev.lineBoundary p) s.dev s.clock.dtime
  obtain ⟨l, hpipe⟩ := Dev.pipe_workFrom (s.dev.lineBoundary p) s.dev s.clock.dtime p
  have hdev : (s.dev.lineBoundary p).workFrom s.dev s.clock.dtime = { s.dev with pipes := m } := by rw [hfrom, hchoice]; rfl
  refine ⟨_, exec_plLineBoundary s p hr, deviceOnly_withDev _ _, (congrArg Dev.regs hdev :), (congrArg Dev.pl hdev :), (congrArg Dev.hp hdev :),
    fun c hc => ?_, fun hnone => ⟨fun c n hstripe hn hbusy hload => ?_, fun hstripe c hc => ?_, fun hstripe hthrough hreplays => ?_⟩⟩
  · obtain ⟨b, hcur, hb⟩ := Dev.lineBoundary_inline hok hc
    exact ⟨b, (congrArg Pipe.cur hpipe).trans hcur, hb⟩
  · rw [Dev.lineBoundary_stripe hok hnone hstripe hn hbusy hload] at hpipe
    exact ⟨congrArg Pipe.cur hpipe, (congrArg Pipe.stripe hpipe).trans hstripe⟩
  · obtain ⟨b, hb, hmem, hfirst⟩ := Dev.oldest_law s.dev p hc
    obtain ⟨f, hf, hfstart⟩ := Dev.nextFrame_of_candidate hmem
    obtain ⟨g, hg, hgstart⟩ := Dev.nextFrame_of_candidate hc
    rw [Dev.lineBoundary_oldest hok hnone hstripe hb] at hpipe
    exact ⟨b, f, g, congrArg Pipe.cur hpipe, congrArg Pipe.stripe hpipe, hmem, hf, hg, hfstart ▸ hgstart ▸ hfirst c hc⟩
  · rw [Dev.lineBoundary_idle hok hnone hstripe hthrough hreplays] at hpipe
    exact congrArg Pipe.cur hpipe

end Sys2Proof.Machine
end

section
/-! ## Pixel pipelines: a frame completes while the last store names a bank that it does not have (R96, R455) -/

namespace Sys2Proof.Machine
open Sys2Proof.Claims

/-- A frame of its head port in progress, number 7, of no lines. -/
def emptyWork : Work :=
  { id := ⟨7, 0, 0, 0, 0, 0, 0, 0, false⟩, kind := .single, own := none, cols := 0, blind := 0, rows := 0, blindBottom := false, rindFirst := 0,
    rindCount := 0, cfg := [], plGen := 0, wsGen := 0, region := none, unity := true, dT := 0, ref := none, image := [], targets := [], ks := [], g := 0,
    balG := 0, balO := 0, zones := [], histOk := true, takeover := false, nextIn := 0, nextOut := 0, buf := [], blindSum := [], rindSum := (0, 0),
    gHeld := false, kHeld := false, gLimited := false, anySat := false, promo := [], blade := none, accScene := [], accBlind := [], taps := [],
    stats := none }

/-- PL-A works at context 0, whose frame has no line left, and the last store retires bank 0x6000. The last store has 16 banks, and no LS_RETIRE
names another, but the statement asks nothing of the banks that retire. -/
def retiringBeyond : State :=
  State.reset.withDev ({ Dev.reset with lt := { LastStore.reset with retiring := [0x6000] } }
    |>.updCtx 0 0 (fun c => { c with work := some emptyWork }) |>.updPipe 0 (fun x => { x with cur := some 0 }))

/-- The status word that a bank 0x6000 would have stands where PL_Sx_SEQ of PL-A's context 0 stands. -/
theorem lsbStatus_eq_sxSeq : Reg.FB_LSb_STATUS 0x6000 = Reg.PL_Sx_SEQ 0 0 := rfl

/-- Its retirement sets bit 4 of the number that the frame has left there. -/
theorem retiringBeyond_seq (t : State) (h : exec (.plFrameComplete 0) retiringBeyond = .next t) : t.dev.rd (Reg.PL_Sx_SEQ 0 0) = 23 := by
  have heval : (match exec (.plFrameComplete 0) retiringBeyond with
    | .next t => t.dev.rd (Reg.PL_Sx_SEQ 0 0)
    | _ => 0) = 23 := by decide +kernel
  rw [h] at heval
  exact heval

/-- Refutes O21: a bank that the last store does not have, retired as the frame completes, overwrites the context's last number. -/
theorem not_framesLatchAdvanceAndComplete : ¬ Obligations.FramesLatchAdvanceAndComplete := by
  intro h
  have hquiet : quietMemory retiringBeyond.dev := ⟨rfl, fun _ => rfl, rfl, rfl, rfl⟩
  have hnone : retiringBeyond.dev.nextFrame (retiringBeyond.dev.ctxHead 0 0) = none := by decide +kernel
  obtain ⟨-, -, hcomplete⟩ := h retiringBeyond 0 0 (by decide +kernel) (by decide) (by decide +kernel) (by decide +kernel) hquiet
  obtain ⟨t, hexec, -, -, -, hseq, -⟩ := hcomplete emptyWork (by decide +kernel) (by decide) (by decide) rfl (by decide +kernel)
    fun f _ hf => absurd (hnone.symm.trans hf) (by simp)
  exact absurd ((retiringBeyond_seq t hexec).symm.trans hseq) (by decide)

end Sys2Proof.Machine
end

section
/-! ## Pixel pipelines: contexts and fault records, standby, handover and replay (R108, R110, R111) -/

namespace Sys2Proof.Machine
open Sys2Proof.Claims

/-! ### A context under updates, and the faults of a pipeline -/

theorem Dev.ctx_congr {d e : Dev} (h : e.pl = d.pl) (p s : Nat) : e.ctx p s = d.ctx p s := congrArg (SMap.get Ctx.reset · (32 * p + s)) h
@[simp] theorem Dev.ctx_updCtx_same (d : Dev) (p s : Nat) (f : Ctx → Ctx) : (d.updCtx p s f).ctx p s = f (d.ctx p s) := SMap.get_set_same _ _ _ _
theorem Dev.ctx_updCtx_other (d : Dev) {p s q k : Nat} (f : Ctx → Ctx) (h : 32 * q + k ≠ 32 * p + s) : (d.updCtx p s f).ctx q k = d.ctx q k :=
  SMap.get_set_other _ _ _ h
theorem Dev.ctx_updCtx (d : Dev) (p s b : Nat) (f : Ctx → Ctx) : (d.updCtx p s f).ctx p b = if b = s then f (d.ctx p b) else d.ctx p b := by
  split
  · next h => subst h; exact Dev.ctx_updCtx_same d p b f
  · next h => exact Dev.ctx_updCtx_other d f (by omega)

@[simp] theorem Dev.plFault_pl (d : Dev) (t p el code x : Nat) : (d.plFault t p el code x).pl = d.pl := Dev.faultFlag_pl _ _ _ _ _ _ _
@[simp] theorem Dev.ctx_plFault (d : Dev) (t p el code x q k : Nat) : (d.plFault t p el code x).ctx q k = d.ctx q k :=
  Dev.ctx_congr (Dev.plFault_pl d t p el code x) q k

theorem plFault_ne_lost (p : Nat) : Reg.PL_FAULT p ≠ Reg.SV_LOG_LOST := by unfold Reg.PL_FAULT Reg.SV_LOG_LOST; omega

/-- The bit of PL_FAULT that a fault code sets (R114). -/
def plFlag : Nat → Nat
  | 1 => 0 | 2 => 1 | 3 => 2 | 4 => 3 | 5 => 4 | 6 => 5 | 7 => 6 | _ => 7

theorem Dev.plFault_eq (d : Dev) (t p el code x : Nat) : d.plFault t p el code x = d.faultFlag t (uid 5 p el) code x (Reg.PL_FAULT p) (plFlag code) := rfl

/-- A fault's flag stands with its record. -/
theorem Dev.bit_plFault (d : Dev) (t p el code x : Nat) : (d.plFault t p el code x).bit (Reg.PL_FAULT p) (plFlag code) = true := by
  have hflag : plFlag code < 32 := by unfold plFlag; split <;> omega
  rw [Dev.plFault_eq, Dev.faultFlag, Dev.bit_congr (Dev.rd_fault_other _ _ _ _ _ (plFault_ne_lost p)), Dev.bit_flag _ _ hflag]

theorem recorded_plFault {d e : Dev} (h : e.flt = d.flt) (t p el code x : Nat) :
    recorded d (e.plFault t p el code x) ⟨t, uid 5 p el, code, BitVec.ofNat 32 x⟩ :=
  Dev.plFault_eq e t p el code x ▸ recorded_faultFlag h _ _ _ _ _ _

theorem testBit_maskOf {l : List Nat} {c : Nat} (h : c ∈ l) : (maskOf l).testBit c = true := by
  have hfold : ∀ (l : List Nat) (m : Nat), (m.testBit c = true ∨ c ∈ l) → (l.foldl (fun m r => m ||| 2 ^ r) m).testBit c = true := by
    intro l
    induction l with
    | nil => simp
    | cons r l ih =>
      intro m hm
      refine ih _ ?_
      rcases hm with hm | hm
      · exact .inl (by simp [hm])
      · rcases List.mem_cons.mp hm with rfl | hm
        · exact .inl (by simp)
        · exact .inr hm
  exact hfold l 0 (.inr h)

/-! ### The takeover of armed contexts (R110) -/

/-- The armed contexts of pipeline p whose head's next frame is there. -/
def Dev.armedReady (d : Dev) (p : Nat) : List Nat := (List.range 32).filter (fun s => (d.ctx p s).arm && (d.nextFrame (d.ctxHead p s)).isSome)

theorem Dev.mem_armedReady {d : Dev} {p c : Nat} (hc : c < 32) :
    c ∈ d.armedReady p ↔ (d.ctx p c).arm = true ∧ (d.nextFrame (d.ctxHead p c)).isSome = true := by
  simp [Dev.armedReady, hc]

/-- The contexts of a list are armed no more. -/
def Dev.standDown (d : Dev) (p : Nat) (l : List Nat) : Dev := l.foldl (fun d s => d.updCtx p s (fun c => { c with arm := false })) d

theorem Dev.standDown_flt (d : Dev) (p : Nat) (l : List Nat) : (d.standDown p l).flt = d.flt := by
  unfold Dev.standDown
  exact Dev.foldl_keeps Dev.flt _ (by intros; rfl) l d

theorem Dev.arm_standDown (d : Dev) (p b : Nat) (l : List Nat) : ((d.standDown p l).ctx p b).arm = ((d.ctx p b).arm && decide (b ∉ l)) := by
  induction l generalizing d with
  | nil => simp [Dev.standDown]
  | cons s l ih =>
    refine (ih _).trans ?_
    rw [Dev.ctx_updCtx]
    by_cases hb : b = s <;> simp [hb]

theorem Dev.standbyTakeover_ready {d : Dev} {p c : Nat} (h : c ∈ d.armedReady p) (t : Nat) :
    d.standbyTakeover t p = (d.standDown p (d.armedReady p)).plFault t p 0 4 (maskOf (d.armedReady p)) :=
  if_neg fun hempty => List.ne_nil_of_mem h (List.isEmpty_iff.mp hempty)

theorem Dev.standbyTakeover_law {d : Dev} {p c : Nat} (h : c ∈ d.armedReady p) (t : Nat) :
    (d.standbyTakeover t p).bit (Reg.PL_FAULT p) 3 = true ∧
      (∀ b, b < 32 → ((d.standbyTakeover t p).ctx p b).arm = ((d.ctx p b).arm && (d.nextFrame (d.ctxHead p b)).isNone)) ∧
      recorded d (d.standbyTakeover t p) ⟨t, uid 5 p 0, 4, BitVec.ofNat 32 (maskOf (d.armedReady p))⟩ := by
  rw [Dev.standbyTakeover_ready h]
  refine ⟨Dev.bit_plFault _ t p 0 4 _, fun b hb => ?_, recorded_plFault (Dev.standDown_flt _ _ _) t p 0 4 _⟩
  rw [Dev.ctx_plFault, Dev.arm_standDown, Bool.eq_iff_iff]
  by_cases harm : (d.ctx p b).arm = true <;> simp [harm, Dev.mem_armedReady hb]

/-! ### Handover (R111) -/

theorem Dev.standbyOf_lt {d : Dev} {p s k : Nat} (h : d.standbyOf p s = some k) : k < 32 := by
  unfold Dev.standbyOf at h
  exact List.mem_range.mp (List.mem_of_find?_eq_some h)

theorem Dev.moveStream_source (d : Dev) (p s k : Nat) (fault : Bool) :
    ((d.moveStream p s k fault).ctx p s).active = false ∧ ((d.moveStream p s k fault).ctx p s).handover = false := by
  unfold Dev.moveStream; dsimp only
  rw [Dev.ctx_updCtx_same]
  exact ⟨rfl, rfl⟩

theorem Dev.moveStream_target (d : Dev) {p s k : Nat} (hp : p < 2) (hs : s < 32) (hk : k < 32) (fault : Bool) :
    ((d.moveStream p s k fault).ctx (1 - p) k).active = true ∧ ((d.moveStream p s k fault).ctx (1 - p) k).takeover = true := by
  unfold Dev.moveStream; dsimp only
  rw [Dev.ctx_updCtx_other _ _ (by omega), Dev.ctx_updCtx_same]
  exact ⟨rfl, rfl⟩

section
variable {d : Dev} {p c k : Nat} (hc : c < 32) (hp : p < 2) (hpending : (d.ctx p c).handover = true)
  (hothers : ∀ b, b ≠ c → (d.ctx p b).handover = false) (hwork : (d.ctx p c).work = none) (hnext : (d.nextFrame (d.ctxHead p c)).isSome = true)
  (hk : d.standbyOf p c = some k)
include hc hpending hothers hwork hnext hk

/-- The one context of pipeline p whose handover is pending, at the end of its frame. -/
theorem Dev.handoverDone_one (t : Nat) : d.handoverDone t p = (d.moveStream p c k false).plFault t p 0 8 (2 ^ c) := by
  have hready : ∀ s, ((d.ctx p s).handover && !(d.ctx p s).busy && (d.nextFrame (d.ctxHead p s)).isSome && (d.standbyOf p s).isSome) = (s == c) := by
    intro s
    by_cases hs : s = c
    · subst hs; simp [hpending, Ctx.busy, hwork, hnext, hk]
    · simp [hothers s hs, hs]
  have hone : (List.range 32).filter (· == c) = [c] := by
    rw [List.filter_beq, List.count_eq_one_of_mem List.nodup_range (List.mem_range.mpr hc), List.replicate_one]
  unfold Dev.handoverDone
  simp [hready, hone, hk, maskOf]

include hp
theorem Dev.handoverDone_law (t : Nat) : ((d.handoverDone t p).ctx p c).active = false ∧ ((d.handoverDone t p).ctx p c).handover = false ∧
    ((d.handoverDone t p).ctx (1 - p) k).active = true ∧ ((d.handoverDone t p).ctx (1 - p) k).takeover = true ∧
    recorded d (d.handoverDone t p) ⟨t, uid 5 p 0, 8, BitVec.ofNat 32 (2 ^ c)⟩ := by
  obtain ⟨hleft, hquit⟩ := Dev.moveStream_source d p c k false
  obtain ⟨hjoined, htook⟩ := Dev.moveStream_target d hp hc (Dev.standbyOf_lt hk) false
  have hrec := recorded_plFault (d := d) (e := d.moveStream p c k false) rfl t p 0 8 (2 ^ c)
  rw [Dev.handoverDone_one hc hpending hothers hwork hnext hk, Dev.ctx_plFault, Dev.ctx_plFault]
  exact ⟨hleft, hquit, hjoined, htook, hrec⟩

end

/-! ### The commands -/

section
variable (s : State) (p : Fin 2) (hr : s.running = true)
include hr

theorem exec_plStandbyTakeover : exec (.plStandbyTakeover p) s = .next (s.withDev (s.dev.standbyTakeover s.clock.dtime p)) := by
  rw [exec, execPlStandbyTakeover, State.act_running _ _ hr]; rfl

theorem exec_plHandover (v : Word) : exec (.plHandover p v) s = .next (s.withDev (s.dev.handoverCmd p v)) := by
  rw [exec, execPlHandover, State.act_running _ _ hr]; rfl

theorem exec_plHandoverDone : exec (.plHandoverDone p) s = .next (s.withDev (s.dev.handoverDone s.clock.dtime p)) := by
  rw [exec, execPlHandoverDone, State.act_running _ _ hr]; rfl

theorem exec_plReplaySubmit (v : Word) : exec (.plReplaySubmit p v) s = .next (s.withDev (s.dev.replaySubmit s.clock.dtime p v)) := by
  rw [exec, execPlReplaySubmit, State.act_running _ _ hr]; rfl

end

theorem nfld_four (v : Nat) : nfld v 4 0 = v % 32 := by simp [nfld]

/-- Settles O23: each command is one operation on the device, a fault record at most behind it. -/
theorem standbyHandoverAndReplay : Obligations.StandbyHandoverAndReplay := by
  intro s p hr
  refine ⟨fun c hc harm hnext => ?_, fun v hv => ?_, fun c k hc hpending hothers hwork hnext hk => ?_, fun v => ?_⟩
  · have hready : c ∈ s.dev.armedReady p := (Dev.mem_armedReady hc).mpr ⟨harm, hnext⟩
    obtain ⟨hflag, harms, hrec⟩ := Dev.standbyTakeover_law hready s.clock.dtime
    exact ⟨_, exec_plStandbyTakeover s p hr, deviceOnly_withDev _ _, hflag, harms, _, testBit_maskOf hready, hrec⟩
  · refine ⟨_, exec_plHandover s p hr v, deviceOnly_withDev _ _, ?_⟩
    simp only [State.withDev, Dev.handoverCmd, nfld_four, hv, Bool.true_eq_false, if_false]
    split
    · exact ⟨Dev.ctx_updCtx_same _ _ _ _, rfl⟩
    · exact ⟨rfl, Dev.bit_flag _ _ (by omega)⟩
  · obtain ⟨hleft, hquit, hjoined, htook, hrec⟩ := Dev.handoverDone_law hc p.isLt hpending hothers hwork hnext hk s.clock.dtime
    exact ⟨_, exec_plHandoverDone s p hr, deviceOnly_withDev _ _, hleft, hquit, hjoined, htook, hrec⟩
  · refine ⟨_, exec_plReplaySubmit s p hr v, deviceOnly_withDev _ _, ?_⟩
    simp only [State.withDev, Dev.replaySubmit, nfld_four, List.any_eq_false, decide_eq_true_eq]
    split
    · exact ⟨by rw [Dev.replays_workFrom, Dev.pipe_updPipe_same], Dev.workFrom_regs _ _ _⟩
    · exact ⟨rfl, Dev.bit_flag _ _ (by omega)⟩

end Sys2Proof.Machine
end

section
/-! ## Pixel pipelines: a fault stops a pipeline and loses its frames (R85, R110, R112) -/

namespace Sys2Proof.Machine
open Sys2Proof.Claims

/-! ### What losing frames and moving streams leaves -/

/-- From d to e, as pipeline p stops: the fabric and the cores stand, p's fault flags stay set, and no context takes a frame. -/
def Dev.stopsTo (p : Nat) (d e : Dev) : Prop :=
  e.fab = d.fab ∧ e.tk = d.tk ∧ (∀ i, i < 32 → d.bit (Reg.PL_FAULT p) i = true → e.bit (Reg.PL_FAULT p) i = true) ∧
    ∀ q k, (d.ctx q k).work = none → (e.ctx q k).work = none

theorem Dev.stopsTo_refl (p : Nat) (d : Dev) : d.stopsTo p d := ⟨rfl, rfl, fun _ _ h => h, fun _ _ h => h⟩

theorem Dev.stopsTo.trans {p : Nat} {d e f : Dev} (h : d.stopsTo p e) (h' : e.stopsTo p f) : d.stopsTo p f := by
  obtain ⟨hfab, htk, hflag, hwork⟩ := h
  obtain ⟨hfab', htk', hflag', hwork'⟩ := h'
  exact ⟨hfab'.trans hfab, htk'.trans htk, fun i hi hb => hflag' i hi (hflag i hi hb), fun q k hn => hwork' q k (hwork q k hn)⟩

theorem Dev.stopsTo.work {p q k : Nat} {d e : Dev} (h : d.stopsTo p e) (hn : (d.ctx q k).work = none) : (e.ctx q k).work = none := by
  obtain ⟨-, -, -, hwork⟩ := h
  exact hwork q k hn

theorem Dev.stopsTo_of_rd {p : Nat} {d e : Dev} (hfab : e.fab = d.fab) (htk : e.tk = d.tk) (hpl : e.pl = d.pl)
    (hrd : e.rd (Reg.PL_FAULT p) = d.rd (Reg.PL_FAULT p)) : d.stopsTo p e :=
  ⟨hfab, htk, fun i _ h => (Dev.bit_congr hrd i).trans h, fun q k h => by rw [Dev.ctx_congr hpl, h]⟩

theorem Dev.stopsTo_updCtx (p : Nat) (d : Dev) (q k : Nat) (f : Ctx → Ctx) (hf : ∀ c, c.work = none → (f c).work = none) :
    d.stopsTo p (d.updCtx q k f) := by
  refine ⟨rfl, rfl, fun _ _ h => h, fun r j h => ?_⟩
  by_cases hkey : 32 * r + j = 32 * q + k
  · have hsame : ∀ e : Dev, e.ctx r j = e.ctx q k := fun e => by rw [Dev.ctx, Dev.ctx, hkey]
    rw [hsame, Dev.ctx_updCtx_same]
    exact hf _ (hsame d ▸ h)
  · rw [Dev.ctx_updCtx_other _ _ hkey, h]

theorem Dev.stopsTo_bump (p : Nat) (d : Dev) {a : Nat} (h : Reg.PL_FAULT p ≠ a) : d.stopsTo p (d.bump a) :=
  Dev.stopsTo_of_rd (Dev.bump_fab d a) (Dev.bump_tk d a) (Dev.bump_pl d a) (Dev.rd_bump_other d h)

theorem Dev.stopsTo_plFault (p : Nat) (d : Dev) (t el code x : Nat) : d.stopsTo p (d.plFault t p el code x) := by
  refine ⟨Dev.faultFlag_fab _ _ _ _ _ _ _, Dev.faultFlag_tk _ _ _ _ _ _ _, fun i hi h => ?_, fun q k h => by rw [Dev.ctx_plFault, h]⟩
  by_cases hflag : i = plFlag code
  · exact hflag ▸ Dev.bit_plFault d t p el code x
  · rw [Dev.plFault_eq, Dev.faultFlag, Dev.bit_congr (Dev.rd_fault_other _ _ _ _ _ (plFault_ne_lost p)), Dev.bit_flag_other _ _ hi hflag, h]

theorem Dev.stopsTo_updHp (p : Nat) (d : Dev) (n : Nat) (f : HeadPort → HeadPort) : d.stopsTo p (d.updHp n f) := Dev.stopsTo_of_rd rfl rfl rfl rfl
theorem Dev.stopsTo_updPipe (p : Nat) (d : Dev) (q : Nat) (f : Pipe → Pipe) : d.stopsTo p (d.updPipe q f) := Dev.stopsTo_of_rd rfl rfl rfl rfl
theorem Dev.stopsTo_releaseOld (p : Nat) (d : Dev) (h : Nat) : d.stopsTo p (d.releaseOld h) := Dev.stopsTo_of_rd rfl rfl rfl rfl

/-- A fold of steps that carry writes along. -/
theorem Dev.stopsTo_foldl {α : Type} (p : Nat) (f : Dev × List MemWrite → α → Dev × List MemWrite)
    (h : ∀ (q : Dev × List MemWrite) (x : α), q.1.stopsTo p (f q x).1) (l : List α)
    (q : Dev × List MemWrite) : q.1.stopsTo p (l.foldl f q).1 := by
  induction l generalizing q with
  | nil => exact Dev.stopsTo_refl p q.1
  | cons x l ih => exact (h q x).trans (ih _)

/-! ### Headers to the map and the taps (R103, R109) -/

theorem Dev.stopsTo_hxFault (p : Nat) (d : Dev) (t link code x : Nat) : d.stopsTo p (d.hxFault t link code x) := by
  have hreg : Reg.PL_FAULT p ≠ Reg.HX_FAULT := by unfold Reg.PL_FAULT Reg.HX_FAULT; omega
  unfold Dev.hxFault
  exact Dev.stopsTo_of_rd (Dev.faultFlag_fab ..) (Dev.faultFlag_tk ..) (Dev.faultFlag_pl ..) (Dev.rd_faultFlag_other d _ _ _ _ _ _ (plFault_ne_lost p) hreg)

theorem Dev.stopsTo_updRing (p : Nat) (d : Dev) (r : Nat) (f : HostRing → HostRing) : d.stopsTo p (d.updRing r f) := Dev.stopsTo_of_rd rfl rfl rfl rfl

theorem Dev.stopsTo_tapReserve (p : Nat) (d : Dev) (now q t bytes : Nat) : d.stopsTo p (d.tapReserve now q t bytes).1 := by
  have hdrop : d.stopsTo p (d.bump (Reg.PL_TAPt_DROP q t)) := Dev.stopsTo_bump p d (by unfold Reg.PL_FAULT Reg.PL_TAPt_DROP; omega)
  have hbig : ∀ r, d.stopsTo p (d.ringBig now r bytes) := fun r => by
    have hcount : d.stopsTo p (d.bump (Reg.HX_Rr_CNT_BIG r)) := Dev.stopsTo_bump p d (by unfold Reg.PL_FAULT Reg.HX_Rr_CNT_BIG; omega)
    unfold Dev.ringBig; dsimp only
    split
    · exact hcount
    · exact (hcount.trans (Dev.stopsTo_hxFault p _ _ _ _ _)).trans (Dev.stopsTo_updRing p _ _ _)
  unfold Dev.tapReserve; dsimp only
  split
  · exact Dev.stopsTo_refl p d
  · split
    · split
      · exact hbig _
      · split
        · exact Dev.stopsTo_updPipe p d _ _
        · exact hdrop
    · split
      · exact Dev.stopsTo_updPipe p d _ _
      · exact hdrop

theorem Dev.stopsTo_tapWrite (p : Nat) (d : Dev) (q s : Nat) (r : TapRec) (header : List Nat) (cols lines : Nat) :
    d.stopsTo p (d.tapWrite q s r header cols lines).1 := by
  unfold Dev.tapWrite; dsimp only
  split
  · exact Dev.stopsTo_of_rd rfl rfl rfl rfl
  · exact Dev.stopsTo_of_rd rfl rfl rfl (Dev.rd_wrN_other _ _ (by unfold Reg.PL_FAULT Reg.PL_TAPt_WR; omega))

theorem Dev.stopsTo_emitBare (p : Nat) (d : Dev) (now q s mask head : Nat) (map : Bool) (hw : List Nat) :
    d.stopsTo p (d.emitBare now q s mask head map hw).1 := by
  unfold Dev.emitBare; dsimp only
  refine Dev.stopsTo.trans ?_ (Dev.stopsTo_foldl p _ ?_ _ _)
  · dsimp only
    split <;> exact Dev.stopsTo_of_rd rfl rfl rfl rfl
  · intro x t
    have hreserve := Dev.stopsTo_tapReserve p x.1 now q t 64
    split
    · exact hreserve.trans (Dev.stopsTo_tapWrite p _ q s _ hw 0 0)
    · exact hreserve

/-! ### Frames that the pipeline had started, or that wait for it (R110) -/

theorem Dev.stopsTo_tapRelease (p : Nat) (d : Dev) (q : Nat) (l : List TapRec) : d.stopsTo p (l.foldl (fun d r => d.tapRelease q r) d) := by
  refine Dev.foldl_inv (d.stopsTo p ·) _ ?_ l d (Dev.stopsTo_refl p d)
  exact fun e r h => h.trans (Dev.stopsTo_updPipe p e _ _)

theorem plFault_ne_cntLost (p : Nat) : Reg.PL_FAULT p ≠ Reg.PL_CNT_LOST p := by unfold Reg.PL_FAULT Reg.PL_CNT_LOST; omega

theorem Dev.loseFrame_law (d : Dev) (t p s : Nat) : d.stopsTo p (d.loseFrame t p s).1 ∧ ((d.loseFrame t p s).1.ctx p s).work = none := by
  cases hwork : (d.ctx p s).work with
  | none => simp [Dev.loseFrame, hwork, Dev.stopsTo_refl]
  | some w =>
    simp only [Dev.loseFrame, hwork]
    constructor
    · refine Dev.stopsTo.trans ?_ (Dev.stopsTo_releaseOld p _ _)
      refine Dev.stopsTo.trans ?_ (Dev.stopsTo_emitBare p _ _ _ _ _ _ _ _)
      refine Dev.stopsTo.trans ?_ (Dev.stopsTo_updCtx p _ _ _ _ fun _ _ => rfl)
      refine ((Dev.stopsTo_tapRelease p d p w.taps).trans (Dev.stopsTo_bump p _ (plFault_ne_cntLost p))).trans ?_
      refine (Dev.stopsTo_plFault p _ t 0 5 w.id.seq).trans ?_
      split
      · exact Dev.stopsTo_updPipe p _ _ _
      · exact Dev.stopsTo_updHp p _ _ _
    · refine (Dev.stopsTo_releaseOld p _ _).work ?_
      refine (Dev.stopsTo_emitBare p _ _ _ _ _ _ _ _).work ?_
      rw [Dev.ctx_updCtx_same]

theorem Dev.stopsTo_loseQueued (d : Dev) (t p s : Nat) : d.stopsTo p (d.loseQueued t p s).1 := by
  unfold Dev.loseQueued; dsimp only
  split
  · exact Dev.stopsTo_refl p d
  · refine Dev.stopsTo.trans (Dev.stopsTo_updHp p d _ _) (Dev.stopsTo_foldl p _ ?_ _ _)
    intro q f
    exact ((Dev.stopsTo_bump p _ (plFault_ne_cntLost p)).trans (Dev.stopsTo_plFault p _ t 0 5 f.seq)).trans (Dev.stopsTo_emitBare p _ _ _ _ _ _ _ _)

/-- Pipeline p loses the frame of context s, and those that wait for it. -/
def loseStep (t p : Nat) (q : Dev × List MemWrite) (s : Nat) : Dev × List MemWrite :=
  let x := q.1.loseFrame t p s
  let y := x.1.loseQueued t p s
  (y.1, q.2 ++ x.2 ++ y.2)

theorem loseStep_law (t p : Nat) (q : Dev × List MemWrite) (s : Nat) : q.1.stopsTo p (loseStep t p q s).1 ∧ ((loseStep t p q s).1.ctx p s).work = none := by
  obtain ⟨hlost, hnone⟩ := Dev.loseFrame_law q.1 t p s
  have hqueued := Dev.stopsTo_loseQueued (q.1.loseFrame t p s).1 t p s
  exact ⟨hlost.trans hqueued, hqueued.work hnone⟩

theorem foldl_loseStep_work (t p : Nat) (l : List Nat) (q : Dev × List MemWrite) : ∀ c ∈ l, ((l.foldl (loseStep t p) q).1.ctx p c).work = none := by
  induction l generalizing q with
  | nil => simp
  | cons s l ih =>
    have hrest := Dev.stopsTo_foldl p (loseStep t p) (fun q s => (loseStep_law t p q s).1) l (loseStep t p q s)
    exact List.forall_mem_cons.mpr ⟨hrest.work (loseStep_law t p q s).2, ih (loseStep t p q s)⟩

/-! ### The pipeline stops (R110) -/

/-- What becomes of the stream of context s once its pipeline p has stopped: its standby takes it, or it ends. -/
def Dev.giveStream (p : Nat) (d : Dev) (s : Nat) : Dev :=
  if d.ctxOn p s = true ∧ (d.ctx p s).active = true ∧ d.isReplay p s = false then
    match (if d.bit (Reg.PL_CFG p) 1 then d.standbyOf p s else none) with
    | some k => d.moveStream p s k true
    | none => d.updCtx p s (fun x => { x with active := false })
  else d

/-- The record of a pipeline that has stopped. -/
def Pipe.stopped (x : Pipe) : Pipe := { x with faulted := true, cur := none, stripe := none, loading := [] }

theorem Dev.stopPipe_eq (d : Dev) (t p : Nat) : (d.stopPipe t p).1 = (List.range 32).foldl (Dev.giveStream p)
    (((List.range 32).foldl (loseStep t p) (d, [])).1.updPipe p Pipe.stopped) := rfl

theorem Dev.stopsTo_moveStream (p : Nat) (d : Dev) (s k : Nat) : d.stopsTo p (d.moveStream p s k true) := by
  unfold Dev.moveStream; dsimp only
  refine Dev.stopsTo.trans ?_ (Dev.stopsTo_updCtx p _ _ _ _ fun _ h => h)
  exact Dev.stopsTo_updCtx p _ _ _ _ fun _ h => h

theorem Dev.giveStream_law (p : Nat) (d : Dev) (s : Nat) : d.stopsTo p (d.giveStream p s) ∧ (d.giveStream p s).pipes = d.pipes := by
  unfold Dev.giveStream
  split
  · split
    · exact ⟨Dev.stopsTo_moveStream p d s _, rfl⟩
    · exact ⟨Dev.stopsTo_updCtx p _ _ _ _ fun _ h => h, rfl⟩
  · exact ⟨Dev.stopsTo_refl p d, rfl⟩

/-- A stop: the pipeline's record, and no frame in progress in any of its contexts. -/
theorem Dev.stopPipe_law (d : Dev) (t p : Nat) : d.stopsTo p (d.stopPipe t p).1 ∧ ((d.stopPipe t p).1.pipe p).faulted = true ∧
    ((d.stopPipe t p).1.pipe p).cur = none ∧ ((d.stopPipe t p).1.pipe p).loading = [] ∧ ∀ c, c < 32 → ((d.stopPipe t p).1.ctx p c).work = none := by
  have hlose := Dev.stopsTo_foldl p (loseStep t p) (fun q s => (loseStep_law t p q s).1) (List.range 32) (d, [])
  have hnone := foldl_loseStep_work t p (List.range 32) (d, [])
  rw [Dev.stopPipe_eq]
  generalize ((List.range 32).foldl (loseStep t p) (d, [])).1 = e at hlose hnone ⊢
  have hstop := Dev.stopsTo_updPipe p e p Pipe.stopped
  have hpipe := Dev.pipe_updPipe_same e p Pipe.stopped
  generalize e.updPipe p Pipe.stopped = f at hstop hpipe ⊢
  have hgive : f.stopsTo p ((List.range 32).foldl (Dev.giveStream p) f) :=
    Dev.foldl_inv (f.stopsTo p ·) _ (fun g s h => h.trans (Dev.giveStream_law p g s).1) _ f (Dev.stopsTo_refl p f)
  have hkept : ((List.range 32).foldl (Dev.giveStream p) f).pipe p = f.pipe p :=
    Dev.pipe_congr (Dev.foldl_keeps Dev.pipes _ (fun g s => (Dev.giveStream_law p g s).2) _ f) p
  rw [hkept, hpipe]
  exact ⟨(hlose.trans hstop).trans hgive, rfl, rfl, rfl, fun c hc => (hstop.trans hgive).work (hnone c (List.mem_range.mpr hc))⟩

/-- A pipeline that stops with flag i set, where nothing stands between its writes and the memories. -/
theorem pipeStopped_stopPipe (s : State) {d : Dev} (t req p : Nat) {i : Nat} (hi : i < 32) (hquiet : quietMemory d) (hflag : d.bit (Reg.PL_FAULT p) i = true) :
    pipeStopped (s.write t req (d.stopPipe t p)) p i := by
  obtain ⟨⟨hfab, htk, hflags, -⟩, hfaulted, hcur, hloading, hworks⟩ := Dev.stopPipe_law d t p
  rw [State.write_quiet s t req _ (quietMemory_congr hfab htk hquiet)]
  exact ⟨hfaulted, hcur, hloading, hflags i hi hflag, hworks⟩

theorem quietMemory_plFault {d : Dev} (h : quietMemory d) (t p el code x : Nat) : quietMemory (d.plFault t p el code x) :=
  quietMemory_congr (Dev.faultFlag_fab _ _ _ _ _ _ _) (Dev.faultFlag_tk _ _ _ _ _ _ _) h

/-- A fault of a pipeline, and its stop. -/
theorem pipeStopped_plFault (s : State) {d : Dev} (t req p el code x : Nat) (h : quietMemory d) :
    pipeStopped (s.write t req ((d.plFault t p el code x).stopPipe t p)) p (plFlag code) := by
  have hflag : plFlag code < 32 := by unfold plFlag; split <;> omega
  exact pipeStopped_stopPipe s t req p hflag (quietMemory_plFault h t p el code x) (Dev.bit_plFault d t p el code x)

/-! ### Reads that find no uncorrectable word (R387, R454) -/

theorem Dev.poisoned_none {d : Dev} (h : quietMemory d) (a n : Nat) : d.poisoned a n = false := by
  obtain ⟨-, -, -, hretired, hpoison⟩ := h
  simp [Dev.poisoned, hretired, hpoison]

theorem Dev.readPoison_none {d : Dev} (h : quietMemory d) (t req a n : Nat) : d.readPoison t req a n = d := by
  obtain ⟨-, -, -, hretired, hpoison⟩ := h
  simp [Dev.readPoison, hretired, hpoison]

/-! ### What the pipeline does on a fault, a table image, and no progress -/

theorem Dev.plFaultEvent_stops {d : Dev} {p code : Nat} (hok : (d.pipe p).faulted = false) (hcode : code = 1 ∨ code = 2 ∨ code = 6) (t stage arg : Nat) :
    d.plFaultEvent t p code stage arg = (d.plFault t p (if code = 2 then 0 else stage) code arg).stopPipe t p := by
  unfold Dev.plFaultEvent
  rw [if_neg]
  rintro (hfaulted | hother)
  · simp [hok] at hfaulted
  · omega

theorem Dev.plFaultEvent_faulted {d : Dev} {p : Nat} (h : (d.pipe p).faulted = true) (t code stage arg : Nat) : d.plFaultEvent t p code stage arg = (d, []) :=
  if_pos (.inl h)

section
variable {d : Dev} {p c : Nat} {rest : List Nat} (hloading : (d.pipe p).loading = c :: rest) (hquiet : quietMemory d)
include hloading hquiet

theorem Dev.tableLoadDone_bad (m : Mem) (t : Nat) : d.tableLoadDone m t p false = (d.plFault t p 2 6 c).stopPipe t p := by
  simp only [Dev.tableLoadDone, hloading, true_or, if_true, Dev.readPoison_none hquiet]

/-- A table image that has been read: the next stream's loads, and nothing goes to the memories. -/
theorem Dev.tableLoadDone_read (m : Mem) (t : Nat) : ∃ e, d.tableLoadDone m t p true = (e, []) ∧ e.fab = d.fab ∧ e.tk = d.tk ∧
    (e.pipe p).loading = rest ∧ (e.pipe p).faulted = (d.pipe p).faulted := by
  simp only [Dev.tableLoadDone, hloading, Dev.poisoned_none hquiet, Bool.true_eq_false, Bool.false_eq_true, or_self, if_false]
  exact ⟨_, rfl, rfl, rfl, by rw [Dev.pipe_updPipe_same], by rw [Dev.pipe_updPipe_same]; rfl⟩

end

theorem Dev.noProgressDue_of_hasWork {d : Dev} {p c : Nat} (hc : c < 32) (hok : (d.pipe p).faulted = false) (hwork : d.hasWork p c = true) :
    d.noProgressDue p = some ((d.pipe p).last + 279621) := by
  have hmem : c ∈ d.withWork p := by simp [Dev.withWork, hok, hc, hwork]
  exact if_neg fun hempty => List.ne_nil_of_mem hmem (List.isEmpty_iff.mp hempty)

/-! ### The commands -/

section
variable (s : State) (p : Fin 2) (hr : s.running = true) (hquiet : quietMemory s.dev)
include hr hquiet

theorem exec_plFault (code : Fin 7) (stage : Fin 10) (arg : Fin 32) :
    exec (.plFault p code stage arg) s = .next (s.write s.clock.dtime (4 + p) (s.dev.plFaultEvent s.clock.dtime p code stage arg)) := by
  rw [exec, execPlFault, State.actWr_free _ _ _ hr hquiet.1]; rfl

theorem exec_plTableLoadDone (ok : Bool) :
    exec (.plTableLoadDone p ok) s = .next (s.write s.clock.dtime (4 + p) (s.dev.tableLoadDone s.mem s.clock.dtime p ok)) := by
  rw [exec, execPlTableLoadDone, State.actWr_free _ _ _ hr hquiet.1]; rfl

theorem exec_plNoProgress {x : Nat} (hdue : s.dev.noProgressDue p = some x) :
    exec (.plNoProgress p) s = .next ((s.reach x).write (s.reach x).clock.dtime (4 + p) (s.dev.noProgress (s.reach x).clock.dtime p)) := by
  rw [exec, execPlNoProgress, State.actDueWr_running _ _ _ _ x hr hdue, State.writeOrStall, if_neg (fun h => h.1 hquiet.1)]; rfl

/-- A fault with a code that the pipeline reports stops it, with the flag of the code. -/
theorem exec_plFault_stops (hok : (s.dev.pipe p).faulted = false) (code : Fin 7) (hcode : code.val = 1 ∨ code.val = 2 ∨ code.val = 6) (stage : Fin 10)
    (arg : Fin 32) : ∃ t, exec (.plFault p code stage arg) s = .next t ∧ t.clock = s.clock ∧ pipeStopped t p (plFlag code) := by
  refine ⟨_, exec_plFault s p hr hquiet code stage arg, rfl, ?_⟩
  rw [Dev.plFaultEvent_stops hok hcode]
  exact pipeStopped_plFault s _ _ p _ code arg hquiet

end

/-- Settles O22: every fault is `plFault` and then `stopPipe`, whose parts keep the flags and take every frame from its context. -/
theorem pipelineFaultsStopThePipeline : Obligations.PipelineFaultsStopThePipeline := by
  intro s p hr hquiet
  refine ⟨fun stage arg hok => ⟨?_, ?_, ?_⟩, fun code stage arg hfaulted => ?_, fun c rest hloading => ⟨?_, ?_⟩, fun c hc hok hwork => ?_⟩
  · exact exec_plFault_stops s p hr hquiet hok 1 (by decide) stage arg
  · exact exec_plFault_stops s p hr hquiet hok 2 (by decide) stage arg
  · exact exec_plFault_stops s p hr hquiet hok 6 (by decide) stage arg
  · rw [exec_plFault s p hr hquiet, Dev.plFaultEvent_faulted hfaulted, State.write_quiet s _ _ _ hquiet]
    rfl
  · refine ⟨_, exec_plTableLoadDone s p hr hquiet false, rfl, ?_⟩
    rw [Dev.tableLoadDone_bad hloading hquiet]
    exact pipeStopped_plFault s _ _ p 2 6 c hquiet
  · obtain ⟨e, hread, hfab, htk, hrest, hsame⟩ := Dev.tableLoadDone_read hloading hquiet s.mem s.clock.dtime
    refine ⟨_, exec_plTableLoadDone s p hr hquiet true, rfl, ?_⟩
    rw [hread, State.write_quiet s _ _ _ (quietMemory_congr hfab htk hquiet)]
    exact ⟨hrest, hsame⟩
  · exact ⟨_, exec_plNoProgress s p hr hquiet (Dev.noProgressDue_of_hasWork hc hok hwork), rfl, pipeStopped_plFault (s.reach _) _ _ p 0 3 _ hquiet⟩

end Sys2Proof.Machine
end

section
/-! ## Last store: the mark of a directory entry that the last store does not have (R118, R461) -/

namespace Sys2Proof.Machine
open Sys2Proof.Claims

/-- A FULL region of no records, from the set of directory entry 32 × 0x1BFF4. The directory has at most 256 entries, and no build takes a set
from beyond them, but the statement asks nothing of the entry that the region names. -/
def regionBeyond : Region :=
  { kind := .full, cols := 0, blind := 0, rows := 0, granules := [], base := 0, tl := 0, th := 0, lo := 32 * 0x1BFF4, hi := 0, w := 0, unity := false,
    targets := none, serial := 0 }

/-- Head 0's calibration is on, its FULL build runs, and the queue of fault records is full. -/
def buildingBeyond : State :=
  State.reset.withDev ({ Dev.reset with
    lt := { LastStore.reset with cur := some (⟨0, .full, 0, 0⟩, regionBeyond) }
    flt := { FaultLog.reset with queue := List.replicate 64 ⟨0, 0, 0, 0⟩ } }
    |>.wrN Reg.LT_CFG 1 |>.wrN (Reg.LT_HDh_CFG 0) 1)

/-- The word that would hold the entry's mark is the count of fault records lost. -/
theorem ltDirBad_eq_svLogLost : Reg.LT_DIR_BAD (regionBeyond.lo / 32) = Reg.SV_LOG_LOST := rfl

/-- The record of the set's failure is lost, and the count of it carries out of the bit that the mark has just set. -/
theorem buildingBeyond_unmarked (t : State) (h : exec (.ltBuildDone []) buildingBeyond = .next t) : t.dev.dirBad regionBeyond.lo = false := by
  have heval : (match exec (.ltBuildDone []) buildingBeyond with
    | .next t => t.dev.dirBad regionBeyond.lo
    | _ => true) = false := by decide +kernel
  rw [h] at heval
  exact heval

/-- Refutes O24: where the record of a failed set is lost, the count of it overwrites the mark of an entry that the directory does not have. -/
theorem not_buildsAreQueuedStartedAndDone : ¬ Obligations.BuildsAreQueuedStartedAndDone := by
  intro h
  have hquiet : quietMemory buildingBeyond.dev := ⟨rfl, fun _ => rfl, rfl, rfl, rfl⟩
  obtain ⟨-, -, -, hdone⟩ := h buildingBeyond (by decide +kernel)
  obtain ⟨t, hexec, -, -, -, -, -, hfailed⟩ := hdone [] ⟨0, .full, 0, 0⟩ regionBeyond rfl rfl rfl fun _ _ hmem => absurd hmem List.not_mem_nil
  obtain ⟨-, -, hmarked, -⟩ := hfailed (by decide +kernel) rfl hquiet (by decide +kernel) rfl
  exact absurd ((buildingBeyond_unmarked t hexec).symm.trans hmarked) (by decide)

end Sys2Proof.Machine
end

section
/-! ## Last store: heads, probes, and the shutter planner (R135, R137, R138, R147) -/

namespace Sys2Proof.Machine
open Sys2Proof.Claims

/-! ### A head's record, and the settings in effect for it (R147) -/

theorem Dev.lth_congr {d e : Dev} (h : e.lt.heads = d.lt.heads) (g : Nat) : e.lth g = d.lth g := congrArg (SMap.get LtHead.reset · g) h
@[simp] theorem Dev.lth_updLth_same (d : Dev) (h : Nat) (f : LtHead → LtHead) : (d.updLth h f).lth h = f (d.lth h) := SMap.get_set_same _ _ _ _
theorem Dev.lth_updLth_other (d : Dev) {h g : Nat} (f : LtHead → LtHead) (hne : g ≠ h) : (d.updLth h f).lth g = d.lth g :=
  SMap.get_set_other _ _ _ hne
theorem Dev.lth_setLth_same (d : Dev) (h : Nat) (x : LtHead) : (d.setLth h x).lth h = x := SMap.get_set_same _ _ _ _

/-- What an update of a head leaves of every head's record. -/
theorem Dev.lth_updLth_keeps {α : Type} (π : LtHead → α) (d : Dev) (h g : Nat) {f : LtHead → LtHead} (hf : ∀ x, π (f x) = π x) :
    π ((d.updLth h f).lth g) = π (d.lth g) := by
  by_cases hg : g = h
  · rw [hg, Dev.lth_updLth_same, hf]
  · rw [Dev.lth_updLth_other d f hg]

theorem Dev.ltWord_congr {d e : Dev} {h r : Nat} (hcfg : (e.lth h).cfg = (d.lth h).cfg) (hrd : e.rd r = d.rd r) : e.ltWord h r = d.ltWord h r := by
  unfold Dev.ltWord Dev.rdN; rw [hcfg, hrd]

theorem Dev.ltOn_congr {d e : Dev} {h : Nat} (hcfg : (e.lth h).cfg = (d.lth h).cfg) (hall : e.rd Reg.LT_CFG = d.rd Reg.LT_CFG)
    (hrd : e.rd (Reg.LT_HDh_CFG h) = d.rd (Reg.LT_HDh_CFG h)) : e.ltOn h = d.ltOn h := by
  unfold Dev.ltOn Dev.ltBit; rw [Dev.bit_congr hall, Dev.ltWord_congr hcfg hrd]

section
variable (d : Dev) (h g : Nat) {f : LtHead → LtHead} (hf : ∀ x, (f x).cfg = x.cfg)
include hf

theorem Dev.ltWord_updLth (r : Nat) : (d.updLth h f).ltWord g r = d.ltWord g r := Dev.ltWord_congr (Dev.lth_updLth_keeps LtHead.cfg d h g hf) rfl

theorem Dev.shutOn_updLth : (d.updLth h f).shutOn g = d.shutOn g := by
  unfold Dev.shutOn Dev.ltBit
  rw [Dev.ltWord_updLth d h g hf, Dev.ltOn_congr (Dev.lth_updLth_keeps LtHead.cfg d h g hf) rfl rfl]

end

/-! ### Probes (R135) -/

@[simp] theorem Dev.probe_setProbe_same (d : Dev) (p : Nat) (x : Probe) : (d.setProbe p x).probe p = x := SMap.get_set_same _ _ _ _

/-- A probe has turned invalid, and its record is still to be written (R135). -/
def Dev.probeInvalid (d : Dev) (p : Nat) : Dev := (d.setProbe p { d.probe p with reported := true }).clrBits (Reg.LT_PRp_VAL p) 65536

theorem Dev.probeInvalid_rd (d : Dev) {p a : Nat} (h : a ≠ Reg.LT_PRp_VAL p) : (d.probeInvalid p).rd a = d.rd a := Dev.rd_clrBits_other _ _ h

theorem Dev.probeInvalid_valid (d : Dev) (p : Nat) : (d.probeInvalid p).bit (Reg.LT_PRp_VAL p) 16 = false := by
  have hclear : ∀ e : Dev, (e.clrBits (Reg.LT_PRp_VAL p) 65536).bit (Reg.LT_PRp_VAL p) 16 = false := fun e =>
    (Dev.bit_clrBits e (Reg.LT_PRp_VAL p) 16 65536#32).trans (Bool.and_false _)
  exact hclear _

theorem Dev.probeUsers_probeInvalid (d : Dev) {p : Nat} (hp : p < 16) (q : Nat) : (d.probeInvalid p).probeUsers q = d.probeUsers q := by
  have hlth : ∀ h, (d.probeInvalid p).lth h = d.lth h := fun h => rfl
  have hrd : ∀ a, a = Reg.LT_CFG ∨ Reg.LT_HDh_CFG 0 ≤ a → (d.probeInvalid p).rd a = d.rd a := fun a ha =>
    d.probeInvalid_rd (by unfold Reg.LT_CFG Reg.LT_HDh_CFG at ha; unfold Reg.LT_PRp_VAL; omega)
  have hprobe : ∀ h hi lo, (d.probeInvalid p).ltFld h (Reg.LT_HDh_PROBE h) hi lo = d.ltFld h (Reg.LT_HDh_PROBE h) hi lo := fun h hi lo => by
    unfold Dev.ltFld
    rw [Dev.ltWord_congr (congrArg LtHead.cfg (hlth h)) (hrd _ (.inr (by unfold Reg.LT_HDh_CFG Reg.LT_HDh_PROBE; omega)))]
  have hon : ∀ h, (d.probeInvalid p).ltOn h = d.ltOn h := fun h =>
    Dev.ltOn_congr (congrArg LtHead.cfg (hlth h)) (hrd _ (.inl rfl)) (hrd _ (.inr (by unfold Reg.LT_HDh_CFG; omega)))
  simp only [Dev.probeUsers, hprobe, hon]

/-- The record of a probe that turns invalid names the first of its users (R148). -/
theorem Dev.probeExpire_eq (d : Dev) (t : Nat) {p : Nat} (hp : p < 16) :
    ∃ el, d.probeExpire t p = (d.probeInvalid p).faultFlag t (uid 6 2 el) 0x0009 p Reg.LT_FAULT 8 ∧
      (d.probeUsers p = [] → el = 0) ∧ ∀ u l, d.probeUsers p = u :: l → el = u + 1 := by
  refine ⟨_, rfl, fun hnone => ?_, fun u l hfirst => ?_⟩
  · simp only [show (Dev.clrBits _ _ _).probeUsers p = [] from (d.probeUsers_probeInvalid hp p).trans hnone]
  · simp only [show (Dev.clrBits _ _ _).probeUsers p = u :: l from (d.probeUsers_probeInvalid hp p).trans hfirst]

/-- A fault record that sets a flag of LT_FAULT. -/
theorem Dev.bit_ltFault (d : Dev) (t u c x : Nat) {i : Nat} (hi : i < 32) : (d.faultFlag t u c x Reg.LT_FAULT i).bit Reg.LT_FAULT i = true := by
  rw [Dev.faultFlag, Dev.bit_congr (Dev.rd_fault_other _ _ _ _ _ (by decide)), Dev.bit_flag _ _ hi]

theorem Dev.probeExpire_law (d : Dev) (t : Nat) {p : Nat} (hp : p < 16) :
    (d.probeExpire t p).bit (Reg.LT_PRp_VAL p) 16 = false ∧ ((d.probeExpire t p).probe p).reported = true ∧
      (d.probeExpire t p).bit Reg.LT_FAULT 8 = true ∧
      (d.probeUsers p = [] → recorded d (d.probeExpire t p) ⟨t, uid 6 2 0, 9, BitVec.ofNat 32 p⟩) ∧
      ∀ u l, d.probeUsers p = u :: l → recorded d (d.probeExpire t p) ⟨t, uid 6 2 (u + 1), 9, BitVec.ofNat 32 p⟩ := by
  obtain ⟨el, heq, hnone, hfirst⟩ := d.probeExpire_eq t hp
  rw [heq]
  have hrecorded := recorded_faultFlag (d := d) (e := d.probeInvalid p) rfl t (uid 6 2 el) 9 p Reg.LT_FAULT 8
  refine ⟨?_, ?_, Dev.bit_ltFault _ _ _ _ _ (by decide), fun h => hnone h ▸ hrecorded, fun u l h => hfirst u l h ▸ hrecorded⟩
  · rw [Dev.bit_congr (Dev.rd_faultFlag_other _ _ _ _ _ _ _ (by unfold Reg.LT_PRp_VAL Reg.SV_LOG_LOST; omega)
      (by unfold Reg.LT_PRp_VAL Reg.LT_FAULT; omega)), d.probeInvalid_valid]
  · rw [Dev.probe, Dev.faultFlag_lt]
    exact congrArg Probe.reported (Dev.probe_setProbe_same d p _)

theorem Dev.probeDue_of_value {d : Dev} {p : Nat} (now : Now) (hvalue : (d.probe p).value.isSome = true) (hnew : (d.probe p).reported = false) :
    d.probeDue now p = some (now.dtime + ((d.probe p).maxAge + 1 - (d.probe p).age now.dtime)) := if_pos ⟨hvalue, hnew⟩

/-! ### The forced queue (R137, R138) -/

/-- The slot of an event that the planner has asked for (R138, R446). -/
def shutSlot (h : Nat) : Slot := { Slot.reset with state := 1, kind := 8, target := uid 4 h 0, second := 1, planner := true }

/-- Asking for an event leaves the heads, and the order of the forced queue. -/
theorem Dev.requestShut_keeps (d : Dev) (t h : Nat) (forced : Bool) :
    (d.requestShut t h forced).lt.heads = d.lt.heads ∧ (d.requestShut t h forced).lt.forced.map Prod.fst = d.lt.forced.map Prod.fst := by
  have hfst : (d.lt.forced.map (fun x => if x.1 = h then (h, t + shutUnit) else x)).map Prod.fst = d.lt.forced.map Prod.fst := by
    rw [List.map_map]
    refine List.map_congr_left fun x _ => ?_
    by_cases hx : x.1 = h <;> simp [hx]
  unfold Dev.requestShut Dev.ownRequest
  cases d.freeSlotNo with
  | some a => exact ⟨rfl, rfl⟩
  | none =>
    simp only [Option.map_none, Option.getD_none, Dev.shutRefused]
    cases forced with
    | false => simp
    | true => simp [-List.map_map, hfst]

theorem Dev.forcedNext_keeps (d : Dev) (t : Nat) :
    (d.forcedNext t).lt.heads = d.lt.heads ∧ (d.forcedNext t).lt.forced.map Prod.fst = d.lt.forced.map Prod.fst := by
  unfold Dev.forcedNext
  split
  · split
    · exact ⟨rfl, rfl⟩
    · exact d.requestShut_keeps t _ true
  · exact ⟨rfl, rfl⟩

theorem Dev.ownRequest_allFree {d : Dev} (hslots : d.slots = []) (kind target second : Nat) :
    d.ownRequest kind target second =
      some (d.addRequest 31 { Slot.reset with state := 1, kind := kind, target := target, second := second, planner := true }) := by
  have hfree : d.freeSlotNo = some 31 := by simp only [Dev.freeSlotNo, Dev.slot, hslots]; rfl
  rw [Dev.ownRequest, hfree, Option.map_some]

theorem Dev.forcedNext_allFree {d : Dev} {t h x : Nat} {rest : List (Nat × Nat)} (hfirst : d.lt.forced = (h, x) :: rest) (hslots : d.slots = [])
    (htime : x ≤ t) : d.forcedNext t = d.addRequest 31 (shutSlot h) := by
  have hidle : d.shutSlots = [] := by simp [Dev.shutSlots, Dev.slotsIn, hslots]
  unfold Dev.forcedNext
  rw [hfirst]
  simp only [Dev.shutBusy, hidle, List.any_nil, Bool.false_eq_true, false_or, if_neg (Nat.not_lt.mpr htime)]
  rw [Dev.requestShut, Dev.ownRequest_allFree hslots]
  rfl

theorem Dev.addRequest_law (d : Dev) (a : Nat) (x : Slot) :
    (d.addRequest a x).tk.requests = d.tk.requests ++ [.ledger a] ∧ (d.addRequest a x).slot a = x := ⟨rfl, SMap.get_set_same _ _ _ _⟩

/-- The forced queue once head h has joined it (R137). -/
def Dev.withForced (d : Dev) (h : Nat) : Dev :=
  if d.lt.forced.any (fun x => decide (x.1 = h)) then d else d.updLt (fun l => { l with forced := l.forced ++ [(h, 0)] })

theorem Dev.joinForced_off {d : Dev} {h : Nat} (hoff : d.shutOn h = false) (t : Nat) : d.joinForced t h false = d := if_pos hoff
theorem Dev.joinForced_on {d : Dev} {h : Nat} (hon : d.shutOn h = true) (t : Nat) : d.joinForced t h false = (d.withForced h).forcedNext t := by
  unfold Dev.joinForced; rw [if_neg (by simp [hon])]; rfl

theorem Dev.withForced_heads (d : Dev) (h : Nat) : (d.withForced h).lt.heads = d.lt.heads := by unfold Dev.withForced; split <;> rfl

theorem Dev.withForced_forced (d : Dev) (h : Nat) :
    (d.withForced h).lt.forced.map Prod.fst =
      if h ∈ d.lt.forced.map Prod.fst then d.lt.forced.map Prod.fst else d.lt.forced.map Prod.fst ++ [h] := by
  have hmem : (d.lt.forced.any (fun x => decide (x.1 = h)) = true) = (h ∈ d.lt.forced.map Prod.fst) := by simp
  unfold Dev.withForced
  simp only [hmem]
  split
  · rfl
  · simp

theorem Dev.joinForced_law {d : Dev} {h : Nat} (hon : d.shutOn h = true) (t : Nat) :
    (d.joinForced t h false).lt.heads = d.lt.heads ∧
      (d.joinForced t h false).lt.forced.map Prod.fst =
        if h ∈ d.lt.forced.map Prod.fst then d.lt.forced.map Prod.fst else d.lt.forced.map Prod.fst ++ [h] := by
  obtain ⟨hheads, hforced⟩ := (d.withForced h).forcedNext_keeps t
  rw [Dev.joinForced_on hon]
  exact ⟨hheads.trans (d.withForced_heads h), hforced.trans (d.withForced_forced h)⟩

theorem Dev.mem_joinForced {d : Dev} {h : Nat} (hon : d.shutOn h = true) (t : Nat) : h ∈ (d.joinForced t h false).lt.forced.map Prod.fst := by
  rw [(Dev.joinForced_law hon t).2]
  split
  · assumption
  · simp

/-- The first to join is asked for at once, where every slot is free. -/
theorem Dev.joinForced_first {d : Dev} {h : Nat} (hon : d.shutOn h = true) (hempty : d.lt.forced = []) (hslots : d.slots = []) (t : Nat) :
    d.joinForced t h false = (d.withForced h).addRequest 31 (shutSlot h) := by
  have hfirst : d.withForced h = d.updLt (fun l => { l with forced := l.forced ++ [(h, 0)] }) := if_neg (by simp [hempty])
  rw [Dev.joinForced_on hon]
  refine Dev.forcedNext_allFree (x := 0) (rest := []) ?_ ?_ (Nat.zero_le t)
  · rw [hfirst, Dev.updLt_lt, hempty]; rfl
  · rw [hfirst, Dev.updLt_slots, hslots]

/-! ### Due and overdue (R137) -/

theorem Clock.reach_now (c : Clock) : c.reach c.dtime = c := by unfold Clock.reach; split <;> simp

theorem Dev.shutDueAt_on {d : Dev} {h : Nat} (now : Now) (hon : d.shutOn h = true) (hn : d.ltFld h (Reg.LT_HDh_SHDUE h) 15 0 ≠ 0)
    (hdue : (d.lth h).due = false) (hshut : (d.lth h).shut = none) :
    d.shutDueAt now h = some (if d.houseMoved now.dtime h = true then now.dtime
      else (d.lth h).since + d.ltFld h (Reg.LT_HDh_SHDUE h) 15 0 * 2 ^ 26) := by
  unfold Dev.shutDueAt; dsimp only
  rw [if_neg (by simp [hon, hn, hdue, hshut])]
  split <;> rfl

theorem Dev.overdueAt_on {d : Dev} {h : Nat} (hon : d.shutOn h = true) (hn : d.ltFld h (Reg.LT_HDh_SHDUE h) 15 0 ≠ 0)
    (hmax : d.ltFld h (Reg.LT_HDh_SHMAX h) 15 0 ≠ 0) (hnew : (d.lth h).overdue = false) :
    d.overdueAt h = some ((d.lth h).since + d.ltFld h (Reg.LT_HDh_SHMAX h) 15 0 * 2 ^ 26) := if_neg (by simp [hon, hn, hmax, hnew])

/-- The mark of a head that has become overdue. -/
def LtHead.markOverdue (x : LtHead) : LtHead := { x with due := true, overdue := true }

theorem Dev.shutOverdue_law {d : Dev} {h : Nat} (hon : d.shutOn h = true) (t : Nat) :
    (d.shutOverdue t h).lth h = (d.lth h).markOverdue ∧
      if d.bit Reg.LT_CFG 5 = true ∧ d.ltBit h (Reg.LT_HDh_CFG h) 3 = true then h ∈ (d.shutOverdue t h).lt.forced.map Prod.fst
      else (d.shutOverdue t h).bit Reg.LT_FAULT 7 = true ∧ recorded d (d.shutOverdue t h) ⟨t, uid 6 1 (h + 1), 8, BitVec.ofNat 32 h⟩ := by
  have hcfg : ∀ x : LtHead, x.markOverdue.cfg = x.cfg := fun _ => rfl
  have hbit : (d.updLth h LtHead.markOverdue).ltBit h (Reg.LT_HDh_CFG h) 3 = d.ltBit h (Reg.LT_HDh_CFG h) 3 :=
    congrArg (nbit · 3) (Dev.ltWord_updLth d h h hcfg _)
  have hon' := (Dev.shutOn_updLth d h h hcfg).trans hon
  have heq : d.shutOverdue t h = if d.bit Reg.LT_CFG 5 = true ∧ d.ltBit h (Reg.LT_HDh_CFG h) 3 = true
      then (d.updLth h LtHead.markOverdue).joinForced t h false else (d.updLth h LtHead.markOverdue).shutFault t h 8 h := by rw [← hbit]; rfl
  rw [heq]
  split
  · rw [Dev.lth_congr (Dev.joinForced_law hon' t).1, Dev.lth_updLth_same]
    exact ⟨rfl, Dev.mem_joinForced hon' t⟩
  · refine ⟨?_, Dev.bit_ltFault _ _ _ _ _ (by decide), recorded_faultFlag rfl _ _ _ _ _ _⟩
    rw [Dev.shutFault, Dev.lth, Dev.faultFlag_lt]
    exact Dev.lth_updLth_same d h _

/-! ### The commands -/

theorem exec_ltShutterGapCmd_off {s : State} {h : Fin 8} (hoff : s.dev.shutOn h = false) : exec (.ltShutterGapCmd h) s = .next s := by
  have hkeeps : s.dev.shutGapCmd h = s.dev := if_neg (by simp [hoff])
  rw [exec, execLtShutterGapCmd, State.act]; simp only [hkeeps, ite_self]

theorem exec_ltShutterForcedCmd_off {s : State} {h : Fin 8} (hoff : s.dev.shutOn h = false) : exec (.ltShutterForcedCmd h) s = .next s := by
  rw [exec, execLtShutterForcedCmd, State.act]; simp only [Dev.joinForced_off hoff, ite_self]

section
variable (s : State) (hr : s.running = true)
include hr

theorem exec_ltProbeExpire (p : Fin 16) {x : Nat} (hdue : s.dev.probeDue s.now p = some x) :
    exec (.ltProbeExpire p) s = .next ((s.reach x).withDev (s.dev.probeExpire (s.reach x).clock.dtime p)) := by
  rw [exec, execLtProbeExpire, State.actDue_running s _ _ x hr hdue]; rfl

theorem exec_ltShutterDue (h : Fin 8) {x : Nat} (hdue : s.dev.shutDueAt s.now h = some x) :
    exec (.ltShutterDue h) s = .next ((s.reach x).withDev (s.dev.updLth h (fun x => { x with due := true }))) := by
  rw [exec, execLtShutterDue, State.actDue_running s _ _ x hr hdue]; rfl

theorem exec_ltShutterOverdue (h : Fin 8) {x : Nat} (hdue : s.dev.overdueAt h = some x) :
    exec (.ltShutterOverdue h) s = .next ((s.reach x).withDev (s.dev.shutOverdue (s.reach x).clock.dtime h)) := by
  rw [exec, execLtShutterOverdue, State.actDue_running s _ _ x hr hdue]; rfl

theorem exec_ltShutterRetry (h : Fin 8) {x : Nat} (hdue : s.dev.retryAt h = some x) :
    exec (.ltShutterRetry h) s = .next ((s.reach x).withDev (s.dev.forcedNext (s.reach x).clock.dtime)) := by
  rw [exec, execLtShutterRetry, State.actDue_running s _ _ x hr hdue]; rfl

theorem exec_ltShutterGapCmd_on (h : Fin 8) (hon : s.dev.shutOn h = true) :
    exec (.ltShutterGapCmd h) s = .next (s.withDev (s.dev.updLth h (fun x => { x with due := true }))) := by
  have hmarks : s.dev.shutGapCmd h = s.dev.updLth h (fun x => { x with due := true }) := if_pos hon
  rw [exec, execLtShutterGapCmd, State.act_running _ _ hr, hmarks]; rfl

theorem exec_ltShutterForcedCmd (h : Fin 8) :
    exec (.ltShutterForcedCmd h) s = .next (s.withDev (s.dev.joinForced s.clock.dtime h false)) := by
  rw [exec, execLtShutterForcedCmd, State.act_running _ _ hr]; rfl

/-- Where a forced event is asked for again at its time, every slot is free (R138). -/
theorem exec_ltShutterRetry_allFree (h : Fin 8) {x : Nat} {rest : List (Nat × Nat)} (hfirst : s.dev.lt.forced = (h.val, x) :: rest)
    (hslots : s.dev.slots = []) (hdrive : s.clock.drive = true) :
    exec (.ltShutterRetry h) s = .next ((s.reach x).withDev (s.dev.addRequest 31 (shutSlot h))) := by
  have hdue : s.dev.retryAt h = some x := by simp [Dev.retryAt, hfirst]
  have hreached : x ≤ (s.reach x).clock.dtime := by
    rw [State.reach, Clock.reach_dtime, if_pos hdrive]; exact le_max_right _ _
  rw [exec_ltShutterRetry s hr h hdue, Dev.forcedNext_allFree hfirst hslots hreached]

end

end Sys2Proof.Machine
end

section
/-! ## Last store: head balance (R144 to R147) -/

namespace Sys2Proof.Machine
open Sys2Proof.Claims

/-! ### Starting values (R145) -/

/-- A head's balance starts. -/
def LtHead.balanceStart (x : LtHead) : LtHead := { x with corr := 0, g := 16384 }

/-- A head's balance starts, and is shown. -/
def Dev.startBalance (d : Dev) (h : Nat) : Dev := (d.updLth h LtHead.balanceStart).publishBalance h

theorem Dev.lth_publishBalance (d : Dev) (h g : Nat) : (d.publishBalance h).lth g = d.lth g := rfl

theorem Dev.publishBalance_rd_other (d : Dev) {h a : Nat} (hg : a ≠ Reg.LT_HDh_BALG h) (ho : a ≠ Reg.LT_HDh_BALO h) (hc : a ≠ Reg.LT_HDh_CORR h) :
    (d.publishBalance h).rd a = d.rd a := by
  unfold Dev.publishBalance; dsimp only
  rw [Dev.rd_wrN_other _ _ hc, Dev.rd_wrN_other _ _ ho, Dev.rd_wrN_other _ _ hg]

/-- Head h stands at its starting values, and shows them. -/
def Dev.balanceStarted (d : Dev) (h : Nat) : Prop :=
  (d.lth h).corr = 0 ∧ (d.lth h).g = 16384 ∧ d.rdN (Reg.LT_HDh_BALG h) = 16384 ∧ d.rdN (Reg.LT_HDh_BALO h) = 0 ∧ d.rdN (Reg.LT_HDh_CORR h) = 0

theorem Dev.balanceStarted_startBalance (d : Dev) (h : Nat) : (d.startBalance h).balanceStarted h := by
  have hlth : (d.startBalance h).lth h = (d.lth h).balanceStart := Dev.lth_updLth_same d h _
  have hcorr : ((d.updLth h LtHead.balanceStart).lth h).corr = 0 := by rw [Dev.lth_updLth_same]; rfl
  have hgain : ((d.updLth h LtHead.balanceStart).lth h).g = 16384 := by rw [Dev.lth_updLth_same]; rfl
  have hlow : Reg.LT_HDh_BALG h ≠ Reg.LT_HDh_BALO h ∧ Reg.LT_HDh_BALG h ≠ Reg.LT_HDh_CORR h ∧ Reg.LT_HDh_BALO h ≠ Reg.LT_HDh_CORR h := by
    unfold Reg.LT_HDh_BALG Reg.LT_HDh_BALO Reg.LT_HDh_CORR; omega
  obtain ⟨hgo, hgc, hoc⟩ := hlow
  refine ⟨by rw [hlth]; rfl, by rw [hlth]; rfl, ?_, ?_, ?_⟩ <;>
    unfold Dev.startBalance Dev.publishBalance <;> dsimp only <;> rw [hcorr, hgain]
  · rw [Dev.rdN_wrN_other _ _ hgc, Dev.rdN_wrN_other _ _ hgo, Dev.rdN_wrN_same]; rfl
  · rw [Dev.rdN_wrN_other _ _ hoc, Dev.rdN_wrN_same]
    have hzero : ∀ p : Int, roundDiv (p * (16384 - (16384 : Nat))) 16384 = 0 := fun p => by simp [roundDiv]
    rw [hzero]
    simp [roundDiv, unsgn]
  · rw [Dev.rdN_wrN_same]; rfl

theorem Dev.balanceStarted_startBalance_other {d : Dev} {h g : Nat} (hne : g ≠ h) (hstarted : d.balanceStarted g) :
    (d.startBalance h).balanceStarted g := by
  have hlth : (d.startBalance h).lth g = d.lth g := Dev.lth_updLth_other d _ hne
  have hrd : ∀ a, (a = Reg.LT_HDh_BALG g ∨ a = Reg.LT_HDh_BALO g ∨ a = Reg.LT_HDh_CORR g) → (d.startBalance h).rdN a = d.rdN a := fun a ha => by
    unfold Reg.LT_HDh_BALG Reg.LT_HDh_BALO Reg.LT_HDh_CORR at ha
    exact congrArg BitVec.toNat (Dev.publishBalance_rd_other (d.updLth h _) (by unfold Reg.LT_HDh_BALG; omega) (by unfold Reg.LT_HDh_BALO; omega)
      (by unfold Reg.LT_HDh_CORR; omega))
  unfold Dev.balanceStarted
  rw [hlth, hrd _ (.inl rfl), hrd _ (.inr (.inl rfl)), hrd _ (.inr (.inr rfl))]
  exact hstarted

/-- What an update establishes for its own item, and every other one keeps, holds after a fold for each item of the list. -/
theorem Dev.foldl_each {α : Type} (P : Dev → α → Prop) (f : Dev → α → Dev) (hat : ∀ d x, P (f d x) x)
    (hkeep : ∀ d x y, x ≠ y → P d x → P (f d y) x) {l : List α} {x : α} (hx : x ∈ l) (d : Dev) : P (l.foldl f d) x := by
  induction l generalizing d with
  | nil => exact absurd hx List.not_mem_nil
  | cons y l ih =>
    by_cases hl : x ∈ l
    · exact ih hl (f d y)
    · obtain rfl : x = y := (List.mem_cons.mp hx).resolve_right hl
      refine Dev.foldl_inv (P · x) f (fun e z he => ?_) l _ (hat d x)
      by_cases hz : x = z
      · exact hz ▸ hat e x
      · exact hkeep e x z hz he

theorem Dev.balanceReset_started (d : Dev) {h : Nat} (hh : h < 8) : d.balanceReset.balanceStarted h :=
  Dev.foldl_each Dev.balanceStarted Dev.startBalance Dev.balanceStarted_startBalance (fun _ _ _ hne => Dev.balanceStarted_startBalance_other hne)
    (List.mem_range.mpr hh) d

/-! ### What the balance of a head leaves (R145, R146) -/

/-- Balance leaves the events, the head ports, the count of windows and the shutter events. -/
def Dev.balanceOnly (d e : Dev) : Prop := e.ev = d.ev ∧ e.hp = d.hp ∧ e.lt.winNo = d.lt.winNo ∧ ∀ h, (e.lth h).shut = (d.lth h).shut

theorem Dev.balanceOnly.refl (d : Dev) : d.balanceOnly d := ⟨rfl, rfl, rfl, fun _ => rfl⟩
theorem Dev.balanceOnly.trans {a b c : Dev} (h : a.balanceOnly b) (k : b.balanceOnly c) : a.balanceOnly c := by
  obtain ⟨hev, hhp, hwin, hshut⟩ := h
  obtain ⟨kev, khp, kwin, kshut⟩ := k
  exact ⟨kev.trans hev, khp.trans hhp, kwin.trans hwin, fun g => (kshut g).trans (hshut g)⟩

theorem Dev.balanceOnly_updLth (d : Dev) (h : Nat) {f : LtHead → LtHead} (hf : ∀ x, (f x).shut = x.shut) : d.balanceOnly (d.updLth h f) :=
  ⟨rfl, rfl, rfl, fun g => Dev.lth_updLth_keeps LtHead.shut d h g hf⟩

theorem Dev.balanceOnly_publish (d : Dev) (h : Nat) : d.balanceOnly (d.publishBalance h) := ⟨rfl, rfl, rfl, fun _ => rfl⟩

theorem Dev.balanceOnly_startBalance (d : Dev) (h : Nat) : d.balanceOnly (d.startBalance h) :=
  (d.balanceOnly_updLth h (f := LtHead.balanceStart) fun _ => rfl).trans (Dev.balanceOnly_publish _ h)

/-- The new values of head h, with a record of detail x where it tells of a limit that it meets (R146). -/
def Dev.balanceMoved (d : Dev) (t h : Nat) (corr : Int) (g : Nat) (tells : Prop) [Decidable tells] (x : Nat) : Dev :=
  let d := d.setLth h { d.lth h with corr := corr, g := g }
  (if tells then (d.faultFlag t (uid 6 3 0) 0x000A x Reg.LT_FAULT 9).updLth h (fun y => { y with limitAt := some d.lt.winNo }) else d).publishBalance h

theorem Dev.lth_faultFlag (d : Dev) (t u c x r i g : Nat) : (d.faultFlag t u c x r i).lth g = d.lth g :=
  Dev.lth_congr (congrArg LastStore.heads (Dev.faultFlag_lt d t u c x r i)) g

section
variable (d : Dev) (t h : Nat) (corr : Int) (g : Nat) (tells : Prop) [Decidable tells] (x : Nat)

theorem Dev.balanceOnly_moved : d.balanceOnly (d.balanceMoved t h corr g tells x) := by
  unfold Dev.balanceMoved; dsimp only
  refine .trans (d.balanceOnly_updLth h (f := fun y => { y with corr := corr, g := g }) fun _ => rfl) (.trans ?_ (Dev.balanceOnly_publish _ h))
  split
  · refine .trans ⟨Dev.faultFlag_ev _ _ _ _ _ _ _, Dev.faultFlag_hp _ _ _ _ _ _ _, ?_, fun k => ?_⟩ (Dev.balanceOnly_updLth _ h fun _ => rfl)
    · rw [Dev.faultFlag_lt]
    · rw [Dev.lth_faultFlag]
  · exact Dev.balanceOnly.refl _

theorem Dev.balanceMoved_lth :
    ((d.balanceMoved t h corr g tells x).lth h).corr = corr ∧ ((d.balanceMoved t h corr g tells x).lth h).g = g := by
  unfold Dev.balanceMoved; dsimp only
  rw [Dev.lth_publishBalance]
  split
  · rw [Dev.lth_updLth_same, Dev.lth_faultFlag, Dev.lth_setLth_same]; exact ⟨rfl, rfl⟩
  · rw [Dev.lth_setLth_same]; exact ⟨rfl, rfl⟩

end

/-- The mean step and the ratio of spreads of each welt between the reference at position r and position p (R145). -/
def Dev.balanceFits (d : Dev) (r p : Nat) : List (Int × Nat) :=
  (pathOf r p).map (fun w => weltFit (d.welt w.1) w.2 (d.balBit Reg.LT_BAL_CFG 4) (d.balFld Reg.LT_BAL_SPAN 15 0))

/-- corr and g of the head at position p once the window is over, r the position of the reference (R145). -/
def Dev.balanceTarget (d : Dev) (r p : Nat) : Int × Nat :=
  let fits := d.balanceFits r p
  let mfac : Nat := fits.foldl (fun (m : Nat) (f : Int × Nat) => (m * f.2 + 8192) / 16384) 16384
  let ostep : Int := d.balFld Reg.LT_BAL_STEP 15 0
  let gstep : Int := d.balFld Reg.LT_BAL_STEP 31 16
  let omax : Int := d.balFld Reg.LT_BAL_MAX 15 0
  let gmax : Int := d.balFld Reg.LT_BAL_MAX 31 16
  let x := d.lth (d.balHead p)
  (clampI (-omax) omax (x.corr + clampI (-ostep) ostep (-((fits.map Prod.fst).sum))),
    (clampI (16384 - gmax) (16384 + gmax) ((x.g : Int) + clampI (-gstep) gstep ((x.g * mfac + 8192) / 16384 - x.g))).toNat)

theorem Dev.balanceHead_unusable {d : Dev} {r p : Nat} (h : (pathOf r p).any (fun w => !d.weltUsable w.1) = true) (t : Nat) :
    d.balanceHead t r p = d := if_pos h

theorem Dev.balanceHead_usable {d : Dev} {r p : Nat} (h : (pathOf r p).any (fun w => !d.weltUsable w.1) = false) (t : Nat) :
    ∃ (tells : Prop) (_ : Decidable tells) (x : Nat),
      d.balanceHead t r p = d.balanceMoved t (d.balHead p) (d.balanceTarget r p).1 (d.balanceTarget r p).2 tells x := by
  unfold Dev.balanceHead; dsimp only
  rw [if_neg (by simp [h])]
  exact ⟨_, _, _, rfl⟩

theorem Dev.balanceOnly_head (d : Dev) (t r p : Nat) : d.balanceOnly (d.balanceHead t r p) := by
  cases h : (pathOf r p).any (fun w => !d.weltUsable w.1) with
  | true => rw [Dev.balanceHead_unusable h]; exact Dev.balanceOnly.refl d
  | false =>
    obtain ⟨tells, _, x, heq⟩ := Dev.balanceHead_usable h t
    rw [heq]; exact d.balanceOnly_moved t _ _ _ tells x

/-! ### Two heads (R145, R146) -/

/-- The neighbour of the reference moves against the mean step of the welt between them. -/
theorem Dev.balanceTarget_corr (d : Dev) :
    (d.balanceTarget 0 1).1 = clampI (-(d.balFld Reg.LT_BAL_MAX 15 0 : Int)) (d.balFld Reg.LT_BAL_MAX 15 0)
      ((d.lth (d.balHead 1)).corr + clampI (-(d.balFld Reg.LT_BAL_STEP 15 0 : Int)) (d.balFld Reg.LT_BAL_STEP 15 0)
        (-((2 * (((d.welt 0).r : Int) - (d.welt 0).l) + (d.welt 0).n) / (2 * (d.welt 0).n)))) := by
  simp [Dev.balanceTarget, Dev.balanceFits, pathOf, weltFit]

theorem clampI_zero (n : Nat) : clampI (-(n : Int)) n 0 = 0 := by unfold clampI; omega

theorem weltFit_gainOff (x : WeltSums) (fr : Bool) (span : Nat) : (weltFit x fr false span).2 = 16384 := by simp [weltFit]

/-- Without gain balance the gain only keeps its limits. -/
theorem Dev.balanceTarget_gain {d : Dev} (hoff : d.balBit Reg.LT_BAL_CFG 4 = false) :
    (d.balanceTarget 0 1).2 = (clampI (16384 - (d.balFld Reg.LT_BAL_MAX 31 16 : Int)) (16384 + (d.balFld Reg.LT_BAL_MAX 31 16 : Int))
      (d.lth (d.balHead 1)).g).toNat := by
  have hfactor : (d.balanceFits 0 1).foldl (fun (m : Nat) (f : Int × Nat) => (m * f.2 + 8192) / 16384) 16384 = 16384 := by
    have hpath : pathOf 0 1 = [(0, true)] := rfl
    rw [Dev.balanceFits, hoff, hpath, List.map_singleton, List.foldl_cons, weltFit_gainOff, List.foldl_nil]
  have hsame : ∀ g : Nat, ((g : Int) * (16384 : Nat) + 8192) / 16384 - g = 0 := fun g => by omega
  simp only [Dev.balanceTarget, hfactor, hsame, clampI_zero, add_zero]

theorem Dev.balHead_of_order {d : Dev} {a b : Nat} (h : d.balOrder = [a, b]) : d.balHead 0 = a ∧ d.balHead 1 = b := by
  have hprefix : [a, b] <+: (List.range 8).map d.balHead := h ▸ List.takeWhile_prefix _
  have htake := List.prefix_iff_eq_take.mp hprefix
  have hheads : ((List.range 8).map d.balHead).take 2 = [d.balHead 0, d.balHead 1] := rfl
  rw [List.length_cons, List.length_singleton, hheads] at htake
  simpa [eq_comm] using htake

/-! ### The end of a window (R144 to R147) -/

/-- The balance settings are on, and the window has its rows (R144). -/
def Dev.windowFull (d : Dev) : Prop :=
  d.bit Reg.LT_CFG 0 = true ∧ d.balBit Reg.LT_BAL_CFG 0 = true ∧ d.balFld Reg.LT_BAL_CFG 31 16 ≤ d.lt.winRows

/-- The reference head of balance (R145). -/
def Dev.balRef (d : Dev) : Nat := d.balFld Reg.LT_BAL_CFG 3 1

/-- Every head but the reference takes its new values, in order. -/
def Dev.balanceHeads (d : Dev) (t : Nat) : Dev :=
  match d.balOrder.findIdx? (fun h => decide (h = d.balRef)) with
  | some r => ((List.range d.balOrder.length).filter (fun p => decide (p ≠ r))).foldl (fun (d : Dev) p => d.balanceHead t r p) d
  | none => d

theorem Dev.balanceOnly_heads (d : Dev) (t : Nat) : d.balanceOnly (d.balanceHeads t) := by
  unfold Dev.balanceHeads
  split
  · exact Dev.foldl_inv d.balanceOnly _ (fun e p he => he.trans (e.balanceOnly_head t _ p)) _ d (Dev.balanceOnly.refl d)
  · exact Dev.balanceOnly.refl d

theorem Dev.balanceHeads_two {d : Dev} {a b : Nat} (horder : d.balOrder = [a, b]) (href : d.balRef = a) (t : Nat) :
    d.balanceHeads t = d.balanceHead t 0 1 := by
  have hidx : d.balOrder.findIdx? (fun h => decide (h = d.balRef)) = some 0 := by rw [horder, href]; simp [List.findIdx?_cons]
  unfold Dev.balanceHeads
  rw [hidx, horder]
  rfl

/-- The next window begins, under the settings of then (R147). -/
def Dev.nextWindow (d : Dev) : Dev := (d.updLt (fun l => { l with winNo := l.winNo + 1, bal := [] })).balanceWindow

theorem Dev.nextWindow_lth (d : Dev) (g : Nat) : d.nextWindow.lth g = d.lth g := rfl

theorem Dev.nextWindow_law (d : Dev) :
    d.nextWindow.lt.welts = [] ∧ d.nextWindow.lt.winRows = 0 ∧ d.nextWindow.lt.winNo = d.lt.winNo + 1 ∧
      (∀ h, h ∈ d.nextWindow.lt.spoiled ↔ h < 8 ∧ (d.shutRunning h = true ∨ d.headProvisional h = true)) ∧ d.nextWindow.ev = d.ev := by
  refine ⟨rfl, rfl, rfl, fun h => List.mem_filter.trans ?_, rfl⟩
  rw [List.mem_range, Bool.or_eq_true]
  rfl

/-- The device at the end of a window, before its event. -/
def Dev.windowEnded (d : Dev) (t : Nat) : Dev := ((d.balanceHeads t).startBalance d.balRef).nextWindow

theorem Dev.balanceWindowEnd_full {d : Dev} (h : d.windowFull) (t : Nat) : d.balanceWindowEnd t = (d.windowEnded t).raise t 68 0 := if_pos h
theorem Dev.balanceWindowEnd_open {d : Dev} (h : ¬ d.windowFull) (t : Nat) : d.balanceWindowEnd t = d := if_neg h

theorem Dev.windowEnded_lth (d : Dev) (t g : Nat) : (d.windowEnded t).lth g = ((d.balanceHeads t).startBalance d.balRef).lth g :=
  Dev.nextWindow_lth _ g

theorem Dev.windowEnded_law (d : Dev) (t : Nat) :
    (d.windowEnded t).lt.welts = [] ∧ (d.windowEnded t).lt.winRows = 0 ∧ (d.windowEnded t).lt.winNo = d.lt.winNo + 1 ∧
      (∀ h, h ∈ (d.windowEnded t).lt.spoiled ↔ h < 8 ∧ (d.shutRunning h = true ∨ d.headProvisional h = true)) ∧ (d.windowEnded t).ev = d.ev := by
  obtain ⟨hev, hhp, hwin, hshut⟩ := (d.balanceOnly_heads t).trans ((d.balanceHeads t).balanceOnly_startBalance d.balRef)
  obtain ⟨hwelts, hrows, hno, hspoiled, hsame⟩ := ((d.balanceHeads t).startBalance d.balRef).nextWindow_law
  have hrunning : ∀ h, ((d.balanceHeads t).startBalance d.balRef).shutRunning h = d.shutRunning h := fun h => congrArg Option.isSome (hshut h)
  have hprovisional : ∀ h, ((d.balanceHeads t).startBalance d.balRef).headProvisional h = d.headProvisional h := fun h => by
    unfold Dev.headProvisional Dev.hpOf; rw [hhp]
  simp only [hrunning, hprovisional] at hspoiled
  exact ⟨hwelts, hrows, hno.trans (congrArg (· + 1) hwin), hspoiled, hsame.trans hev⟩

theorem Dev.windowEnded_ref (d : Dev) (t : Nat) : (d.windowEnded t).lth d.balRef = ((d.balanceHeads t).lth d.balRef).balanceStart := by
  rw [Dev.windowEnded_lth]
  exact Dev.lth_updLth_same _ _ _

theorem Dev.balanceWindowEnd_lth {d : Dev} (h : d.windowFull) (t g : Nat) : (d.balanceWindowEnd t).lth g = (d.windowEnded t).lth g := by
  rw [Dev.balanceWindowEnd_full h, Dev.lth, Dev.raise_lt]; rfl

/-- At the end of a window of two heads, the second against the first (R145, R146). -/
theorem Dev.windowEnded_two {d : Dev} {a b : Nat} (hne : a ≠ b) (horder : d.balOrder = [a, b]) (href : d.balRef = a) (t : Nat) :
    if d.weltUsable 0 = true then ((d.windowEnded t).lth b).corr = (d.balanceTarget 0 1).1 ∧ ((d.windowEnded t).lth b).g = (d.balanceTarget 0 1).2
    else (d.windowEnded t).lth b = d.lth b := by
  have hlth : (d.windowEnded t).lth b = (d.balanceHead t 0 1).lth b := by
    rw [Dev.windowEnded_lth, Dev.balanceHeads_two horder href, href]
    exact Dev.lth_updLth_other _ _ hne.symm
  have hpath : (pathOf 0 1).any (fun w => !d.weltUsable w.1) = !d.weltUsable 0 := by simp [pathOf]
  rw [hlth]
  split
  · next husable =>
    obtain ⟨tells, _, x, heq⟩ := Dev.balanceHead_usable (hpath.trans (by simp [husable])) t
    rw [heq, (Dev.balHead_of_order horder).2]
    exact d.balanceMoved_lth t b _ _ tells x
  · next hunusable => rw [Dev.balanceHead_unusable (hpath.trans (by simp [hunusable]))]

/-! ### The commands -/

section
variable (s : State) (hr : s.running = true)
include hr

theorem exec_ltBalanceResetCmd : exec .ltBalanceResetCmd s = .next (s.withDev s.dev.balanceReset) := by
  rw [exec, execLtBalanceResetCmd, State.act_running _ _ hr]; rfl

theorem exec_ltBalanceWindowEnd : exec .ltBalanceWindowEnd s = .next (s.withDev (s.dev.balanceWindowEnd s.clock.dtime)) := by
  rw [exec, execLtBalanceWindowEnd, State.act_running _ _ hr]; rfl

end

/-- Settles O25: a probe, a head or a forced event by its due time, the forced queue by what joining and asking leave, and a window's end by what
the balance of each head leaves and by the target of the one beside the reference. -/
theorem probesShutterPlanningAndBalance : Obligations.ProbesShutterPlanningAndBalance := by
  intro s hr
  refine ⟨fun p hvalue hnew => ?_, fun h hon => ⟨fun hn hdue hshut => ?_, fun hn hmax hnew => ?_⟩, fun h => ⟨?_, ?_, fun x rest hfirst hslots hdrive => ?_⟩,
    ?_, ?_⟩
  · exact ⟨_, exec_ltProbeExpire s hr p (Dev.probeDue_of_value s.now hvalue hnew), rfl, rfl, rfl, s.dev.probeExpire_law _ p.isLt⟩
  · refine ⟨_, exec_ltShutterDue s hr h (Dev.shutDueAt_on s.now hon hn hdue hshut), rfl, rfl, rfl, ?_, Dev.lth_updLth_same _ _ _,
      fun g hg => Dev.lth_updLth_other _ _ hg⟩
    rw [State.withDev_clock, State.reach]
    split
    · next hmoved => exact (Clock.reach_now s.clock).trans (if_pos hmoved).symm
    · next hstill => exact (if_neg hstill).symm
  · obtain ⟨hmarked, hrest⟩ := Dev.shutOverdue_law hon (s.reach ((s.dev.lth h).since + s.dev.ltFld h (Reg.LT_HDh_SHMAX h) 15 0 * 2 ^ 26)).clock.dtime
    exact ⟨_, exec_ltShutterOverdue s hr h (Dev.overdueAt_on hon hn hmax hnew), rfl, rfl, rfl, congrArg LtHead.due hmarked,
      congrArg LtHead.overdue hmarked, hrest⟩
  · cases hon : s.dev.shutOn h with
    | false => exact ⟨s, exec_ltShutterGapCmd_off hon, fun _ => rfl, fun h => (nomatch h)⟩
    | true =>
      exact ⟨_, exec_ltShutterGapCmd_on s hr h hon, fun h => (nomatch h), fun _ => ⟨deviceOnly_withDev s _, rfl, Dev.lth_updLth_same _ _ _,
        fun g hg => Dev.lth_updLth_other _ _ hg⟩⟩
  · cases hon : s.dev.shutOn h with
    | false => exact ⟨s, exec_ltShutterForcedCmd_off hon, fun _ => rfl, fun h => (nomatch h)⟩
    | true =>
      refine ⟨_, exec_ltShutterForcedCmd s hr h, fun h => (nomatch h), fun _ => ⟨deviceOnly_withDev s _, (Dev.joinForced_law hon _).2,
        fun hempty hslots => ?_⟩⟩
      rw [State.withDev_dev, Dev.joinForced_first hon hempty hslots]
      have htk : (s.dev.withForced h).tk = s.dev.tk := by unfold Dev.withForced; split <;> rfl
      exact htk ▸ Dev.addRequest_law (s.dev.withForced h) 31 (shutSlot h)
  · exact ⟨_, exec_ltShutterRetry_allFree s hr h hfirst hslots hdrive, rfl, rfl, rfl, Dev.addRequest_law s.dev 31 (shutSlot h)⟩
  · exact ⟨_, exec_ltBalanceResetCmd s hr, deviceOnly_withDev s _, fun h hh => s.dev.balanceReset_started hh⟩
  · refine ⟨_, exec_ltBalanceWindowEnd s hr, deviceOnly_withDev s _, ?_⟩
    rw [State.withDev_dev]
    split
    · next hfull =>
      obtain ⟨hwelts, hrows, hno, hspoiled, hev⟩ := s.dev.windowEnded_law s.clock.dtime
      have href := s.dev.windowEnded_ref s.clock.dtime
      simp only [Dev.balanceWindowEnd_lth hfull]
      rw [Dev.balanceWindowEnd_full hfull, Dev.raise_lt, Dev.raise_ev, hev]
      refine ⟨hwelts, hrows, hno, hspoiled, rfl, congrArg LtHead.corr href, congrArg LtHead.g href, fun a b hne horder hat => ?_⟩
      have htwo := Dev.windowEnded_two hne horder hat s.clock.dtime
      split
      · next husable =>
        obtain ⟨hcorr, hgain⟩ := (if_pos husable).mp htwo
        obtain ⟨-, hb⟩ := Dev.balHead_of_order horder
        exact ⟨by rw [hcorr, Dev.balanceTarget_corr, hb], fun hoff => by rw [hgain, Dev.balanceTarget_gain hoff, hb]⟩
      · next hunusable => exact (if_neg hunusable).mp htwo
    · next hopen => rw [Dev.balanceWindowEnd_open hopen]; exact ⟨rfl, rfl, rfl⟩

end Sys2Proof.Machine
end

section
/-! ## What the fabric tells of errors, and what writes that land leave (R383, R387, R391, R402) -/

namespace Sys2Proof.Machine
open Sys2Proof.Claims

/-- The registers in which the fabric tells of an error, and the count of lost fault records. -/
def fabricReg (a : Nat) : Prop := a = Reg.FB_FAULT ∨ a = Reg.FB_ERR ∨ a = Reg.FB_CNT_UE ∨ a = Reg.SV_LOG_LOST

/-- From d to e only the fabric has acted: the map, bloom, the banks and every register but the fabric's stand. -/
def Dev.fabricOnly (d e : Dev) : Prop := e.wm = d.wm ∧ e.bv = d.bv ∧ e.vb = d.vb ∧ ∀ a, ¬ fabricReg a → e.rd a = d.rd a

theorem Dev.fabricOnly_refl (d : Dev) : d.fabricOnly d := ⟨rfl, rfl, rfl, fun _ _ => rfl⟩

theorem Dev.fabricOnly.trans {d e f : Dev} (h : d.fabricOnly e) (h' : e.fabricOnly f) : d.fabricOnly f := by
  obtain ⟨hwm, hbv, hvb, hrd⟩ := h
  obtain ⟨hwm', hbv', hvb', hrd'⟩ := h'
  exact ⟨hwm'.trans hwm, hbv'.trans hbv, hvb'.trans hvb, fun a ha => (hrd' a ha).trans (hrd a ha)⟩

theorem Dev.fabricOnly_updFab (d : Dev) (f : Fabric → Fabric) : d.fabricOnly (d.updFab f) := ⟨rfl, rfl, rfl, fun _ _ => rfl⟩

theorem Dev.fabricOnly_bump (d : Dev) {a : Nat} (h : fabricReg a) : d.fabricOnly (d.bump a) :=
  ⟨Dev.bump_wm d a, Dev.bump_bv d a, Dev.bump_vb d a, fun _ hb => Dev.rd_bump_other d fun he => hb (he ▸ h)⟩

theorem Dev.fabricOnly_wrN (d : Dev) {a : Nat} (v : Nat) (h : fabricReg a) : d.fabricOnly (d.wrN a v) :=
  ⟨rfl, rfl, rfl, fun _ hb => Dev.rd_wrN_other d v fun he => hb (he ▸ h)⟩

theorem Dev.fabricOnly_fault (d : Dev) (t u c x : Nat) : d.fabricOnly (d.fault t u c x) :=
  ⟨Dev.fault_wm .., Dev.fault_bv .., Dev.fault_vb .., fun _ hb => Dev.rd_fault_other d t u c x fun he => hb (.inr (.inr (.inr he)))⟩

theorem Dev.fabricOnly_fbFault (d : Dev) (t unit code x : Nat) : d.fabricOnly (d.fbFault t unit code x) := by
  have hflag : d.fabricOnly (d.flag Reg.FB_FAULT (code - 1)) := d.fabricOnly_wrN _ (.inl rfl)
  unfold Dev.fbFault; dsimp only
  split_ifs
  · exact hflag
  · exact (hflag.trans (Dev.fabricOnly_fault _ t _ code x)).trans (Dev.fabricOnly_updFab _ _)

theorem Dev.fabricOnly_readUE (d : Dev) (t req a : Nat) : d.fabricOnly (d.readUE t req a) := by
  have htold : ∀ e : Dev, d.fabricOnly e →
      d.fabricOnly (((e.bump Reg.FB_CNT_UE).wrN Reg.FB_ERR (a / 8 * 8 % 0x300000 + 2 ^ 27 * bankOf a + 2 ^ 31)).fbFault t (bankOf a) 2
        (a / 8 * 8 % 0x300000 + 2 ^ 26 * req)) := fun e he =>
    ((he.trans (e.fabricOnly_bump (.inr (.inr (.inl rfl))))).trans (Dev.fabricOnly_wrN _ _ (.inr (.inl rfl)))).trans
      (Dev.fabricOnly_fbFault _ _ _ _ _)
  unfold Dev.readUE; dsimp only
  split_ifs
  · exact htold d d.fabricOnly_refl
  · exact htold _ ((d.fabricOnly_updFab _).trans (Dev.fabricOnly_updFab _ _))

theorem Dev.fabricOnly_readPoison (d : Dev) (t req a n : Nat) : d.fabricOnly (d.readPoison t req a n) := by
  have hwords : ∀ l : List Nat, d.fabricOnly (l.foldl (fun (d : Dev) p => d.readUE t req p) d) := fun l =>
    Dev.foldl_inv d.fabricOnly _ (fun e p he => he.trans (e.fabricOnly_readUE t req p)) l d d.fabricOnly_refl
  unfold Dev.readPoison; dsimp only
  split
  · exact (hwords _).trans (Dev.fabricOnly_readUE _ _ _ _)
  · exact hwords _

theorem Dev.fabricOnly_repoison (d : Dev) (t req : Nat) (ws : List MemWrite) : d.fabricOnly (d.repoison t req ws) := by
  refine Dev.foldl_inv d.fabricOnly _ (fun e p he => ?_) _ d d.fabricOnly_refl
  dsimp only
  split_ifs
  · exact he.trans (e.fabricOnly_updFab _)
  · exact he
  · exact he.trans (e.fabricOnly_readUE t req p)

theorem Dev.fabricOnly_nextHeld {d e : Dev} {l : List (Nat × List MemWrite)} {x : Nat × List MemWrite} (h : d.nextHeld l = some (x, e)) :
    d.fabricOnly e := by
  unfold Dev.nextHeld at h; dsimp only at h
  split at h
  · cases h; exact d.fabricOnly_refl
  · split at h
    · cases h
    · split at h
      · cases h
      · split at h
        · cases h
        · obtain ⟨y, -, hy⟩ := Option.map_eq_some_iff.mp h
          cases hy
          exact ((d.fabricOnly_updFab _).trans (Dev.fabricOnly_updFab _ _)).trans (Dev.fabricOnly_updFab _ _)

theorem Dev.fabricOnly_drain (n : Nat) (d : Dev) (l : List (Nat × List MemWrite)) : d.fabricOnly (Dev.drain n d l).1 := by
  induction n generalizing d l with
  | zero => exact d.fabricOnly_refl
  | succ n ih =>
    unfold Dev.drain
    split
    · exact d.fabricOnly_refl
    · next x e hnext => exact (Dev.fabricOnly_nextHeld hnext).trans (ih e _)

/-- Writes that land, or that wait for a lock, are a matter of the fabric alone. -/
theorem Dev.fabricOnly_land (d : Dev) (t req : Nat) (ws : List MemWrite) : d.fabricOnly (d.land t req ws).1 := by
  unfold Dev.land; dsimp only
  split
  · exact d.fabricOnly_refl
  · refine Dev.foldl_inv d.fabricOnly _ (fun e x he => he.trans (e.fabricOnly_repoison t _ _)) _ _ ?_
    refine Dev.fabricOnly.trans ?_ (Dev.fabricOnly_updFab _ _)
    refine Dev.fabricOnly.trans ?_ (Dev.fabricOnly_drain _ _ _)
    split
    · exact d.fabricOnly_fbFault _ _ _ _
    · exact d.fabricOnly_refl

theorem Dev.bank_congr {d e : Dev} (h : e.vb = d.vb) (b : Nat) : e.bank b = d.bank b := congrArg (SMap.get Bank.reset · b) h

end Sys2Proof.Machine
end

section
/-! ## The map engine: geometry tables and headers (R153, R154, R173, R174) -/

namespace Sys2Proof.Machine
open Sys2Proof.Claims

/-! ### Heads, layers and queues of the map -/

theorem Dev.mapHead_congr {d e : Dev} (h : e.wm.heads = d.wm.heads) (g : Nat) : e.mapHead g = d.mapHead g :=
  congrArg (SMap.get MapHead.reset · g) h
@[simp] theorem Dev.mapHead_setMapHead_same (d : Dev) (h : Nat) (x : MapHead) : (d.setMapHead h x).mapHead h = x := SMap.get_set_same _ _ _ _

theorem Dev.rdN_congr {d e : Dev} {a : Nat} (h : e.rd a = d.rd a) : e.rdN a = d.rdN a := congrArg BitVec.toNat h

theorem Dev.wmFault_wm (d : Dev) (t c x : Nat) : (d.wmFault t c x).wm = d.wm := Dev.faultFlag_wm ..

/-! ### Rate-limited records of the map engine (R174) -/

section
variable (d : Dev) (t c x : Nat) (write : Bool)

/-- Such a record sets its flag, and is written or not. -/
theorem Dev.wmRecord_eq : d.wmRecord t c x write = if write then d.wmFault t c x else d.flag Reg.WM_FAULT (c - 1) := rfl

@[simp] theorem Dev.wmRecord_wm : (d.wmRecord t c x write).wm = d.wm := by
  rw [Dev.wmRecord_eq]; split
  · exact Dev.wmFault_wm d t c x
  · rfl

@[simp] theorem Dev.wmRecord_fab : (d.wmRecord t c x write).fab = d.fab := by
  rw [Dev.wmRecord_eq]; split
  · exact Dev.faultFlag_fab ..
  · rfl

@[simp] theorem Dev.wmRecord_tk : (d.wmRecord t c x write).tk = d.tk := by
  rw [Dev.wmRecord_eq]; split
  · exact Dev.faultFlag_tk ..
  · rfl

@[simp] theorem Dev.wmRecord_ev : (d.wmRecord t c x write).ev = d.ev := by
  rw [Dev.wmRecord_eq]; split
  · exact Dev.faultFlag_ev ..
  · rfl

theorem Dev.wmRecord_rd {a : Nat} (hflag : a ≠ Reg.WM_FAULT) (hlost : a ≠ Reg.SV_LOG_LOST) : (d.wmRecord t c x write).rd a = d.rd a := by
  rw [Dev.wmRecord_eq]; split
  · exact Dev.rd_faultFlag_other d t _ c x _ _ hlost hflag
  · exact Dev.rd_flag_other d _ hflag

theorem Dev.wmRecord_bit (hc : c - 1 < 32) : (d.wmRecord t c x write).bit Reg.WM_FAULT (c - 1) = true := by
  rw [Dev.wmRecord_eq]; split
  · exact (Dev.bit_congr (Dev.rd_fault_other _ t _ c x (by decide)) _).trans (Dev.bit_flag d _ hc)
  · exact Dev.bit_flag d _ hc

end

/-! ### Geometry tables (R153, R174) -/

/-- The base of the geometry table that head h's frame asks for, and the bytes of it that are read. -/
def Dev.geomBase (d : Dev) (h : Nat) : Nat := (d.mapHead h).cfg.getD 1 0
def Dev.geomSize (d : Dev) (h : Nat) : Nat := 4 * (d.mapHead h).cfg.getD 12 2048

/-- Head h once its table has been read: an entry that reads uncorrectable is spoiled, and all are where a read fails with no word marked. -/
def Dev.geomRead (d : Dev) (m : Mem) (h : Nat) (ok : Bool) : MapHead :=
  { d.mapHead h with
    loaded := some (d.geomBase h)
    table := (List.range 2048).map (fun i =>
      if (ok = false ∧ d.poisoned (d.geomBase h) (d.geomSize h) = false) ∨ d.poisoned (d.geomBase h + 4 * i) 4 = true then none
      else some (sgn 32 (m.frameNat (d.geomBase h + 4 * i) 4))) }

theorem Dev.geomRead_entry (d : Dev) (m : Mem) (h : Nat) (ok : Bool) {i : Nat} (hi : i < 2048) :
    (d.geomRead m h ok).table[i]? = some (
      if (ok = false ∧ d.poisoned (d.geomBase h) (d.geomSize h) = false) ∨ d.poisoned (d.geomBase h + 4 * i) 4 = true then none
      else some (sgn 32 (m.frameNat (d.geomBase h + 4 * i) 4))) := by
  rw [Dev.geomRead, List.getElem?_map, List.getElem?_range hi, Option.map_some]

theorem Dev.geomLoadDone_idle {d : Dev} {h : Nat} (hidle : d.geomPending h = false) (m : Mem) (t : Nat) (ok : Bool) : d.geomLoadDone m t h ok = d :=
  if_pos hidle

section
variable {d : Dev} {h : Nat} (hwaits : d.geomPending h = true) (m : Mem) (t : Nat)
include hwaits

theorem Dev.geomLoadDone_eq (ok : Bool) :
    d.geomLoadDone m t h ok = (if ok = true ∧ d.poisoned (d.geomBase h) (d.geomSize h) = false then d.setMapHead h (d.geomRead m h ok)
      else ((d.setMapHead h (d.geomRead m h ok)).readPoison t 7 (d.geomBase h) (d.geomSize h)).wmFault t 0x0003 (4 * h + 32)).rebuildZones := by
  unfold Dev.geomLoadDone
  rw [if_neg (by simp [hwaits])]
  rfl

theorem Dev.geomLoadDone_mapHead (ok : Bool) : (d.geomLoadDone m t h ok).mapHead h = d.geomRead m h ok := by
  have hheads : ∀ e : Dev, (e.rebuildZones).mapHead h = e.mapHead h := fun _ => rfl
  rw [Dev.geomLoadDone_eq hwaits, hheads]
  split
  · exact Dev.mapHead_setMapHead_same d h _
  · have htold := (Dev.fabricOnly_readPoison (d.setMapHead h (d.geomRead m h ok)) t 7 (d.geomBase h) (d.geomSize h)).1
    rw [Dev.mapHead_congr (congrArg WebMap.heads ((Dev.wmFault_wm _ _ _ _).trans htold)), Dev.mapHead_setMapHead_same]

theorem Dev.geomLoadDone_loaded (ok : Bool) : (d.geomLoadDone m t h ok).geomPending h = false := by
  unfold Dev.geomPending
  rw [Dev.geomLoadDone_mapHead hwaits]
  simp [Dev.geomRead, Dev.geomBase]

/-- With no word marked, a read that succeeds gives every entry, and tells nothing. -/
theorem Dev.geomLoadDone_ok (hquiet : quietMemory d) :
    (d.geomLoadDone m t h true).flt = d.flt ∧ ∀ i, i < 2048 →
      ((d.geomLoadDone m t h true).mapHead h).table[i]? = some (some (sgn 32 (m.frameNat ((d.mapHead h).cfg.getD 1 0 + 4 * i) 4))) := by
  refine ⟨?_, fun i hi => ?_⟩
  · rw [Dev.geomLoadDone_eq hwaits, if_pos ⟨rfl, Dev.poisoned_none hquiet _ _⟩]
    rfl
  · rw [Dev.geomLoadDone_mapHead hwaits, Dev.geomRead_entry d m h true hi, Dev.poisoned_none hquiet, Dev.poisoned_none hquiet, if_neg (by simp)]
    rfl

/-- With no word marked, a read that fails spoils every entry, and is recorded (log 167). -/
theorem Dev.geomLoadDone_fails (hquiet : quietMemory d) :
    recorded d (d.geomLoadDone m t h false) ⟨t, uid 7 0 0, 3, BitVec.ofNat 32 (4 * h + 32)⟩ ∧
      ∀ i, i < 2048 → ((d.geomLoadDone m t h false).mapHead h).table[i]? = some none := by
  have hset : quietMemory (d.setMapHead h (d.geomRead m h false)) := quietMemory_congr rfl rfl hquiet
  refine ⟨?_, fun i hi => ?_⟩
  · rw [Dev.geomLoadDone_eq hwaits, if_neg (by simp), Dev.readPoison_none hset]
    exact recorded_faultFlag (e := d.setMapHead h (d.geomRead m h false)) rfl t (uid 7 0 0) 3 (4 * h + 32) Reg.WM_FAULT 2
  · rw [Dev.geomLoadDone_mapHead hwaits, Dev.geomRead_entry d m h false hi, if_pos (.inl ⟨rfl, Dev.poisoned_none hquiet _ _⟩)]

end

/-! ### Headers (R154, R173) -/

/-- The queue of pipeline p at the map engine. -/
def Dev.mapQueue (d : Dev) (p : Nat) : List MapItem := SMap.get [] d.wm.queues p

/-- Pipeline p's queue becomes q. -/
def Dev.setMapQueue (d : Dev) (p : Nat) (q : List MapItem) : Dev := d.updWm (fun w => { w with queues := SMap.set [] w.queues p q })

theorem Dev.mapQueue_setMapQueue_same (d : Dev) (p : Nat) (q : List MapItem) : (d.setMapQueue p q).mapQueue p = q := SMap.get_set_same _ _ _ _
theorem Dev.mapHead_setMapQueue (d : Dev) (p : Nat) (q : List MapItem) (h : Nat) : (d.setMapQueue p q).mapHead h = d.mapHead h := rfl

section
variable {d : Dev} {p h : Nat} {hw : List Nat} {q : List MapItem} (hqueue : d.mapQueue p = .header h hw :: q) (t : Nat)
include hqueue

/-- A header whose head has something earlier on the other queue waits. -/
theorem Dev.firstLine_waits (hwaits : mapWaits h hw (d.mapQueue (1 - p)) = true) : d.firstLine t p = d.setMapQueue p (.header h hw :: q) := by
  have hbare : d.takeBare (d.mapQueue (1 - p)) (.header h hw :: q) = (d, .header h hw :: q) := if_neg (by simp [hwaits])
  unfold Dev.mapQueue at hqueue hwaits hbare
  simp only [Dev.firstLine, hqueue, hbare, hwaits, if_true]
  rfl

/-- A header with pixels begins its frame. -/
theorem Dev.firstLine_frame (hfree : mapWaits h hw (d.mapQueue (1 - p)) = false) (hlines : hw.getD 11 0 % 65536 ≠ 0) :
    d.firstLine t p = (d.mapFrame t h hw).setMapQueue p q := by
  have hbare : d.takeBare (d.mapQueue (1 - p)) (.header h hw :: q) = (d, .header h hw :: q) := if_neg fun hboth => hlines hboth.1
  unfold Dev.mapQueue at hqueue hfree hbare
  simp only [Dev.firstLine, hqueue, hbare, hfree]
  rfl

/-- A header without pixels only leaves its stamps. -/
theorem Dev.firstLine_bare (hfree : mapWaits h hw (d.mapQueue (1 - p)) = false) (hlines : hw.getD 11 0 % 65536 = 0) (hlast : q = []) :
    d.firstLine t p = (d.takeHeader h hw).setMapQueue p [] := by
  have hbare : d.takeBare (d.mapQueue (1 - p)) (.header h hw :: q) = (d.takeHeader h hw, []) := (if_pos ⟨hlines, hfree⟩).trans (by rw [hlast]; rfl)
  unfold Dev.mapQueue at hqueue hbare
  simp only [Dev.firstLine, hqueue, hbare]
  rfl

end

/-- The stamps of a header: DTIME and WPOS of frame start. -/
def headerStamps (hw : List Nat) : Nat × Int := (hw.getD 3 0 + 2 ^ 32 * hw.getD 4 0, sgn 64 (hw.getD 5 0 + 2 ^ 32 * hw.getD 6 0))

theorem Dev.takeHeader_eq (d : Dev) (h : Nat) (hw : List Nat) : d.takeHeader h hw = d.setMapHead h { d.mapHead h with prev := some (headerStamps hw) } := rfl

/-- The last header's stamps are near enough to those of this one to give a speed (R154). -/
def MapHead.near (x : MapHead) (hw : List Nat) : Bool := match x.prev with
  | some p => decide (p.1 < (headerStamps hw).1) && decide ((headerStamps hw).1 - p.1 ≤ 2 ^ 26)
  | none => false

/-- v of a frame by R154. -/
def Dev.frameSpeed (d : Dev) (x : MapHead) (hw : List Nat) : Int := match x.prev, x.near hw with
  | some p, true => clampI (-(2 ^ 31)) (2 ^ 31 - 1) (Int.tdiv (((headerStamps hw).2 - p.2) * 65536) (((headerStamps hw).1 : Int) - p.1))
  | _, _ => d.rdI Reg.WP_SPEED

/-- A frame begins where its speed is known, or counted as unknown. -/
def Dev.speedNoted (d : Dev) (t h : Nat) (near again : Bool) : Dev :=
  if near then d else (d.bump Reg.WM_CNT_NOSPEED).wmRecord t 0x0005 h again

theorem Dev.mapFrame_eq (d : Dev) (t h : Nat) (hw : List Nat) : ∃ again x,
    d.mapFrame t h hw = ((((d.speedNoted t h ((d.mapHead h).near hw) again).setMapHead h x).wrI (Reg.WM_Hh_SPEED h) (d.frameSpeed (d.mapHead h) hw)).wrN
      (Reg.WM_Hh_SEQ h) (hw.getD 0 0)) ∧
    x.seq = hw.getD 0 0 ∧ x.prev = some (headerStamps hw) ∧ x.wpos = (headerStamps hw).2 ∧ x.v = d.frameSpeed (d.mapHead h) hw :=
  ⟨_, _, rfl, rfl, rfl, rfl, rfl⟩

theorem MapHead.near_of_stamps {x : MapHead} {hw : List Nat} {pd : Nat} {pw : Int} (hprev : x.prev = some (pd, pw)) (hlater : pd < (headerStamps hw).1)
    (hsoon : (headerStamps hw).1 ≤ pd + 2 ^ 26) : x.near hw = true := by
  simp only [MapHead.near, hprev, Bool.and_eq_true, decide_eq_true_eq]
  omega

theorem MapHead.near_none {x : MapHead} (hw : List Nat) (hprev : x.prev = none) : x.near hw = false := by simp only [MapHead.near, hprev]

/-- The count of an unknown speed. -/
theorem Dev.speedNoted_count (d : Dev) (t h : Nat) (again : Bool) (hroom : d.rdN Reg.WM_CNT_NOSPEED + 1 < 2 ^ 32) :
    (d.speedNoted t h false again).rdN Reg.WM_CNT_NOSPEED = d.rdN Reg.WM_CNT_NOSPEED + 1 := by
  exact (Dev.rdN_congr (Dev.wmRecord_rd _ t 5 h again (by decide) (by decide))).trans (Dev.rdN_bumpBy_same d _ 1 hroom)

/-- A frame with pixels takes its stamps and its speed (R154). -/
theorem Dev.mapFrame_law (d : Dev) (t : Nat) {h : Nat} (hw : List Nat) (hh : h < 8) :
    ((d.mapFrame t h hw).mapHead h).seq = hw.getD 0 0 ∧ ((d.mapFrame t h hw).mapHead h).prev = some (headerStamps hw) ∧
      ((d.mapFrame t h hw).mapHead h).wpos = (headerStamps hw).2 ∧ ((d.mapFrame t h hw).mapHead h).v = d.frameSpeed (d.mapHead h) hw ∧
      (d.mapFrame t h hw).rd (Reg.WM_Hh_SEQ h) = BitVec.ofNat 32 (hw.getD 0 0) ∧
      (d.mapFrame t h hw).rd (Reg.WM_Hh_SPEED h) = BitVec.ofInt 32 (d.frameSpeed (d.mapHead h) hw) ∧
      ((d.mapHead h).near hw = true → (d.mapFrame t h hw).flt = d.flt) ∧
      ((d.mapHead h).near hw = false → d.rdN Reg.WM_CNT_NOSPEED + 1 < 2 ^ 32 →
        (d.mapFrame t h hw).rdN Reg.WM_CNT_NOSPEED = d.rdN Reg.WM_CNT_NOSPEED + 1) := by
  obtain ⟨again, x, heq, hseq, hprev, hwpos, hv⟩ := Dev.mapFrame_eq d t h hw
  rw [heq]
  have hhead : ∀ (e : Dev) (v : Int) (n : Nat), (((e.setMapHead h x).wrI (Reg.WM_Hh_SPEED h) v).wrN (Reg.WM_Hh_SEQ h) n).mapHead h = x := fun e _ _ =>
    Dev.mapHead_setMapHead_same e h x
  rw [hhead]
  refine ⟨hseq, hprev, hwpos, hv, Dev.rd_wrN_same _ _ _, ?_, fun hnear => ?_, fun hfar hroom => ?_⟩
  · rw [Dev.rd_wrN_other _ _ (by unfold Reg.WM_Hh_SPEED Reg.WM_Hh_SEQ; omega)]
    exact Dev.rd_wr_same _ _ _
  · rw [hnear]; rfl
  · rw [Dev.rdN_wrN_other _ _ (by unfold Reg.WM_CNT_NOSPEED Reg.WM_Hh_SEQ; omega), hfar]
    refine (congrArg BitVec.toNat (Dev.rd_wr_other _ _ (by unfold Reg.WM_CNT_NOSPEED Reg.WM_Hh_SPEED; omega))).trans ?_
    exact Dev.speedNoted_count d t h again hroom

theorem Dev.frameSpeed_near {d : Dev} {x : MapHead} {hw : List Nat} {pd : Nat} {pw : Int} (hprev : x.prev = some (pd, pw)) (hnear : x.near hw = true) :
    d.frameSpeed x hw = clampI (-(2 ^ 31)) (2 ^ 31 - 1) (Int.tdiv (((headerStamps hw).2 - pw) * 65536) (((headerStamps hw).1 : Int) - pd)) := by
  simp only [Dev.frameSpeed, hprev, hnear]

theorem Dev.frameSpeed_first (d : Dev) {x : MapHead} (hw : List Nat) (hprev : x.prev = none) : d.frameSpeed x hw = d.rdI Reg.WP_SPEED := by
  simp only [Dev.frameSpeed, hprev]

/-! ### The commands -/

section
variable (s : State) (hr : s.running = true)
include hr

theorem exec_wmGeometryLoadDone (h : Fin 8) (ok : Bool) :
    exec (.wmGeometryLoadDone h ok) s = .next (s.withDev (s.dev.geomLoadDone s.mem s.clock.dtime h ok)) := by
  rw [exec, execWmGeometryLoadDone, State.actMem_running _ _ hr]; rfl

/-- With no swap pending, a first line is the map engine's alone. -/
theorem exec_wmFrameFirstLine (hswaps : s.dev.regs.swaps = []) (p : Fin 2) :
    exec (.wmFrameFirstLine p) s = .next (s.withDev (s.dev.firstLine s.clock.dtime p)) := by
  rw [exec, execWmFrameFirstLine, State.actAll_running _ _ hr]
  unfold State.mapFirstLine
  split
  · rw [State.swapsAt_none s _ _ hswaps]
  · rfl

end

end Sys2Proof.Machine
end

section
/-! ## The map engine: samples (R156, R158, R159) -/

namespace Sys2Proof.Machine
open Sys2Proof.Claims

@[simp] theorem Dev.layer_setLayer_same (d : Dev) (l : Nat) (y : Layer) : (d.setLayer l y).layer l = y := SMap.get_set_same _ _ _ _
theorem Dev.layer_congr {d e : Dev} (h : e.wm.layers = d.wm.layers) (l : Nat) : e.layer l = d.layer l := congrArg (SMap.get Layer.reset · l) h

theorem Dev.rd_bumpBy_zero (d : Dev) (a : Nat) : (d.bumpBy a 0).rd = d.rd := by
  funext b
  rw [Dev.bumpBy, Nat.add_zero, if_pos (Dev.rdN_lt d a)]
  by_cases hb : b = a
  · rw [hb, Dev.rd_wrN_same, Dev.rdN, BitVec.ofNat_toNat, BitVec.setWidth_eq]
  · exact Dev.rd_wrN_other d _ hb

/-- A unit's work where nothing stands in its writes' way; the start of the count without progress touches the pipelines alone. -/
theorem State.write_workFrom (s : State) (t req u : Nat) {e : Dev} (ws : List MemWrite) (hquiet : quietMemory s.dev) (hfab : e.fab = s.dev.fab)
    (htk : e.tk = s.dev.tk) : ∃ m, s.write t req (e.workFrom s.dev u, ws) = { s with dev := { e with pipes := m }, mem := s.mem.writes ws } := by
  obtain ⟨m, hm⟩ := Dev.workFrom_eq e s.dev u
  refine ⟨m, ?_⟩
  rw [hm]
  exact State.write_quiet s t req ws (quietMemory_congr (d := s.dev) hfab htk hquiet)

/-! ### The line at the front of a queue -/

/-- The layer of head h's frame, and whether head and layer take its samples. -/
def Dev.lineLayer (d : Dev) (h : Nat) : Nat := nfld ((d.mapHead h).cfg.getD 0 0) 2 1
def Dev.lineOn (d : Dev) (h : Nat) : Bool :=
  (d.layer (d.lineLayer h)).on && nbit ((d.mapHead h).cfg.getD 0 0) 0 && nbit ((d.mapHead h).cfg.getD 8 0) 0 && nbit ((d.mapHead h).cfg.getD 9 0) 0
/-- The map row of array row y of head h's frame, and the last row of its layer's window. -/
def Dev.lineRow (d : Dev) (h y : Nat) : Int := (d.layer (d.lineLayer h)).rowOf ((d.mapHead h).coord y)
def Dev.lastOpen (d : Dev) (l : Nat) : Int := (d.layer l).kFirst + d.layerOpen l - 1

/-- A beat has left pipeline p's queue, which goes on with q; n of its pixels lay outside their span (R153). -/
def Dev.beatGone (d : Dev) (p : Nat) (q : List MapItem) (n : Nat) : Dev :=
  (d.updWm (fun w => { w with ahead := w.ahead.filter (fun i => decide (i ≠ p)), queues := SMap.set [] w.queues p q })).bumpBy Reg.WM_CNT_SPAN n

section
variable (d : Dev) (p : Nat) (q : List MapItem) (n : Nat)

@[simp] theorem Dev.beatGone_fab : (d.beatGone p q n).fab = d.fab := Dev.bumpBy_fab _ _ _
@[simp] theorem Dev.beatGone_tk : (d.beatGone p q n).tk = d.tk := Dev.bumpBy_tk _ _ _
theorem Dev.beatGone_wm :
    (d.beatGone p q n).wm = { d.wm with ahead := d.wm.ahead.filter (fun i => decide (i ≠ p)), queues := SMap.set [] d.wm.queues p q } :=
  Dev.bumpBy_wm _ _ _
theorem Dev.beatGone_rd : (d.beatGone p q 0).rd = d.rd := Dev.rd_bumpBy_zero _ _
theorem Dev.beatGone_layers : (d.beatGone p q n).wm.layers = d.wm.layers := by rw [Dev.beatGone_wm]
theorem Dev.beatGone_heads : (d.beatGone p q n).wm.heads = d.wm.heads := by rw [Dev.beatGone_wm]
theorem Dev.beatGone_queues : (d.beatGone p q n).wm.queues = SMap.set [] d.wm.queues p q := by rw [Dev.beatGone_wm]
theorem Dev.beatGone_ahead : p ∉ (d.beatGone p q n).wm.ahead := by rw [Dev.beatGone_wm]; simp

end

/-- A cell's place in the working store is a matter of the heads' settings and of the registers. -/
theorem Dev.storeCell_congr {d e : Dev} (hheads : e.wm.heads = d.wm.heads) (hrd : e.rd = d.rd) (l : Nat) (k : Int) (j h : Nat) :
    e.storeCell l k j h = d.storeCell l k j h := by
  have hspans : e.headsAt = d.headsAt := by
    unfold Dev.headsAt Dev.layerHeads Dev.headOn Dev.headLayer Dev.span Dev.headWord Dev.mapHead
    rw [hheads]
  unfold Dev.storeCell Dev.storeStride Dev.weltsBelow Dev.layerCols Dev.layerOpen Dev.fld Dev.rdN
  rw [hspans, hrd]

/-! ### What the parts of a beat's work leave -/

/-- From d to e head h's front, at most, has moved on (R159). -/
def Dev.frontOnly (h : Nat) (d e : Dev) : Prop :=
  e.wm.queues = d.wm.queues ∧ e.wm.layers = d.wm.layers ∧ e.wm.ahead = d.wm.ahead ∧ e.fab = d.fab ∧ e.tk = d.tk ∧
    ∀ a, a < Reg.WM_Hh_FRONT_LO h → e.rd a = d.rd a

theorem Dev.frontOnly_update (d : Dev) (h : Nat) : d.frontOnly h (d.frontUpdate h) := by
  unfold Dev.frontUpdate; dsimp only
  split
  · split_ifs
    · exact ⟨rfl, rfl, rfl, rfl, rfl, fun a ha => Dev.rd_wr64_other _ _ (by omega) (by omega)⟩
    · exact ⟨rfl, rfl, rfl, rfl, rfl, fun _ _ => rfl⟩
  · exact ⟨rfl, rfl, rfl, rfl, rfl, fun a ha => Dev.rd_wr64_other _ _ (by omega) (by omega)⟩

theorem Dev.frontOnly_if (d : Dev) (h : Nat) (c : Prop) [Decidable c] : d.frontOnly h (if c then d.frontUpdate h else d) := by
  split
  · exact d.frontOnly_update h
  · exact ⟨rfl, rfl, rfl, rfl, rfl, fun _ _ => rfl⟩

theorem Dev.mapAhead_new {d : Dev} {p : Nat} (hnew : p ∉ d.wm.ahead) (t h : Nat) (beyond : Int) :
    ∃ (x : Nat) (again : Bool) (k : Option Nat),
    d.mapAhead t p h beyond = (if again then ((d.bump Reg.WM_CNT_AHEAD).wmRecord t 0x0002 x again).setMapHead h { d.mapHead h with aheadAt := k }
      else (d.bump Reg.WM_CNT_AHEAD).wmRecord t 0x0002 x again).updWm (fun w => { w with ahead := p :: w.ahead }) := by
  unfold Dev.mapAhead
  rw [if_neg (by simpa using hnew)]
  exact ⟨_, _, _, rfl⟩

/-- A sample ahead of the window stops its queue, and counts once (R158, R174). -/
theorem Dev.mapAhead_law (d : Dev) (t p h : Nat) (beyond : Int) :
    (d.mapAhead t p h beyond).wm.queues = d.wm.queues ∧ (d.mapAhead t p h beyond).wm.layers = d.wm.layers ∧ p ∈ (d.mapAhead t p h beyond).wm.ahead ∧
      (d.mapAhead t p h beyond).fab = d.fab ∧ (d.mapAhead t p h beyond).tk = d.tk ∧
      (p ∉ d.wm.ahead → d.rdN Reg.WM_CNT_AHEAD + 1 < 2 ^ 32 →
        (d.mapAhead t p h beyond).rdN Reg.WM_CNT_AHEAD = d.rdN Reg.WM_CNT_AHEAD + 1 ∧ (d.mapAhead t p h beyond).bit Reg.WM_FAULT 1 = true) := by
  by_cases hknown : p ∈ d.wm.ahead
  · have hsame : d.mapAhead t p h beyond = d := if_pos (List.contains_iff_mem.mpr hknown)
    rw [hsame]
    exact ⟨rfl, rfl, hknown, rfl, rfl, fun hnew => absurd hknown hnew⟩
  · obtain ⟨x, again, k, heq⟩ := Dev.mapAhead_new hknown t h beyond
    have hcount : p ∉ d.wm.ahead → d.rdN Reg.WM_CNT_AHEAD + 1 < 2 ^ 32 → ((d.bump Reg.WM_CNT_AHEAD).wmRecord t 2 x again).rdN Reg.WM_CNT_AHEAD =
        d.rdN Reg.WM_CNT_AHEAD + 1 ∧ ((d.bump Reg.WM_CNT_AHEAD).wmRecord t 2 x again).bit Reg.WM_FAULT 1 = true := fun _ hroom =>
      ⟨(Dev.rdN_congr (Dev.wmRecord_rd _ t 2 x again (by decide) (by decide))).trans (Dev.rdN_bumpBy_same d _ 1 hroom),
        Dev.wmRecord_bit _ t 2 x again (by decide)⟩
    have hwm : ((d.bump Reg.WM_CNT_AHEAD).wmRecord t 2 x again).wm = d.wm := (Dev.wmRecord_wm ..).trans (Dev.bump_wm d _)
    have hqueues : ((d.bump Reg.WM_CNT_AHEAD).wmRecord t 2 x again).wm.queues = d.wm.queues := by rw [hwm]
    have hlayers : ((d.bump Reg.WM_CNT_AHEAD).wmRecord t 2 x again).wm.layers = d.wm.layers := by rw [hwm]
    have hfab : ((d.bump Reg.WM_CNT_AHEAD).wmRecord t 2 x again).fab = d.fab := (Dev.wmRecord_fab ..).trans (Dev.bump_fab d _)
    have htk : ((d.bump Reg.WM_CNT_AHEAD).wmRecord t 2 x again).tk = d.tk := (Dev.wmRecord_tk ..).trans (Dev.bump_tk d _)
    rw [heq]
    split
    · exact ⟨hqueues, hlayers, List.mem_cons_self, hfab, htk, hcount⟩
    · exact ⟨hqueues, hlayers, List.mem_cons_self, hfab, htk, hcount⟩

/-- A usable sample that a cell takes, below its limit (R156). -/
theorem CellHead.take_usable {x : CellHead} (hroom : x.n < 255) (v : Nat) (prov : Bool) :
    (x.take (.usable v) prov).1 = { x with n := x.n + 1, sum := x.sum + v, prov := x.prov || prov } := by
  simp only [CellHead.take, if_pos hroom]

/-- With no word marked, a sample joins its cell of row k, and its place in the working store is written (log 67). -/
theorem Dev.placeSamples_one {d : Dev} (hquiet : quietMemory d) (t h l : Nat) (k : Int) (j : Nat) (x : Sample) : ∃ y v n,
    d.placeSamples t h l k [(j, x)] = ((({ d with free := d.free + 1 } : Dev).setLayer l y).bumpBy Reg.WM_CNT_SATCELL n, frameWrites (d.storeCell l k j h) 8 v) ∧
      y.cells = assign (d.layer l).cells (k, j, h) ((cellAt (d.layer l).cells k j h).take x (d.mapHead h).prov).1 := by
  have hgood : d.poisoned (d.storeCell l k j h) 8 = false := Dev.poisoned_none hquiet _ _
  have hkept : [(j, x)].filter (fun s => !d.poisoned (d.storeCell l k s.1 h) 8) = [(j, x)] := by simp [hgood]
  have hbad : [(j, x)].filter (fun s => d.poisoned (d.storeCell l k s.1 h) 8) = [] := by simp [hgood]
  unfold Dev.placeSamples
  rw [hkept, hbad]
  exact ⟨_, _, _, Prod.ext rfl (List.append_nil _), rfl⟩

/-! ### A beat (R156, R158) -/

/-- The samples b of a beat of row y go to their cells; the queue then goes on with q, and `ends` tells that the row is the last of the sweet
band and has no more pixels. -/
def Dev.beatWork (d : Dev) (t p h y : Nat) (q : List MapItem) (ends : Prop) [Decidable ends] (b : List (Nat × Sample) × Nat) : Dev × List MemWrite :=
  let l := d.lineLayer h
  if b.1.isEmpty = false ∧ d.lastOpen l < d.lineRow h y then (d.mapAhead t p h (d.lineRow h y - d.lastOpen l), [])
  else
    let e := d.beatGone p q b.2
    let r := if b.1.isEmpty then (e, [])
      else if d.lineRow h y < (d.layer l).kFirst then (e.bumpBy Reg.WM_CNT_BEHIND b.1.length, [])
      else e.placeSamples t h l (d.lineRow h y) b.1
    (if ends then r.1.frontUpdate h else r.1, r.2)

/-- Row y of head h's frame lies in the sweet band of a head and a layer that are on. -/
def Dev.inBand (d : Dev) (h y : Nat) : Bool := d.lineOn h && decide ((d.mapHead h).sweet.1 ≤ y) && decide (y ≤ (d.mapHead h).sweet.2)

section
variable {d : Dev} {p h y x0 : Nat} {ws : List Nat} {q : List MapItem} (hqueue : d.mapQueue p = .line h y x0 ws :: q) (t : Nat)
include hqueue

theorem Dev.sampleBeat_line :
    d.sampleBeat t p = if d.lineOn h = true ∧ (d.geomPending h = true ∨ (d.layer (d.lineLayer h)).drain.isSome = true) then (d, [])
      else d.beatWork t p h y (dropBeat (.line h y x0 ws :: q)) (d.lineOn h = true ∧ ws.length ≤ 16 ∧ y = (d.mapHead h).sweet.2)
        (if d.inBand h y then d.beatSamples h x0 (ws.take 16) else ([], 0)) := by
  unfold Dev.mapQueue at hqueue
  unfold Dev.sampleBeat
  rw [hqueue]
  rfl

/-- The beat of a head or layer that is off is dropped. -/
theorem Dev.sampleBeat_off (hoff : d.lineOn h = false) : d.sampleBeat t p = (d.beatGone p (dropBeat (.line h y x0 ws :: q)) 0, []) := by
  rw [Dev.sampleBeat_line hqueue, Dev.inBand, hoff]
  rfl

/-- A beat waits for its head's geometry table, and for the end of its layer's restart. -/
theorem Dev.sampleBeat_stops (hon : d.lineOn h = true) (hwaits : d.geomPending h = true ∨ (d.layer (d.lineLayer h)).drain.isSome = true) :
    d.sampleBeat t p = (d, []) := by
  rw [Dev.sampleBeat_line hqueue, if_pos ⟨hon, hwaits⟩]

variable (hon : d.lineOn h = true) (hloaded : d.geomPending h = false) (hdrain : (d.layer (d.lineLayer h)).drain = none)
  (hlow : (d.mapHead h).sweet.1 ≤ y) (hhigh : y ≤ (d.mapHead h).sweet.2)
include hon hloaded hdrain hlow hhigh

theorem Dev.sampleBeat_band : ∃ (ends : Prop) (_ : Decidable ends),
    d.sampleBeat t p = d.beatWork t p h y (dropBeat (.line h y x0 ws :: q)) ends (d.beatSamples h x0 (ws.take 16)) := by
  have hfree : ¬ (d.lineOn h = true ∧ (d.geomPending h = true ∨ (d.layer (d.lineLayer h)).drain.isSome = true)) := by simp [hloaded, hdrain]
  have hband : d.inBand h y = true := by simp [Dev.inBand, hon, hlow, hhigh]
  rw [Dev.sampleBeat_line hqueue, if_neg hfree, hband]
  exact ⟨_, _, rfl⟩

end

section
variable (d : Dev) (t p h y : Nat) (q : List MapItem) (ends : Prop) [Decidable ends] (j v : Nat)

theorem Dev.beatWork_ahead (hahead : d.lastOpen (d.lineLayer h) < d.lineRow h y) :
    d.beatWork t p h y q ends ([(j, .usable v)], 0) = (d.mapAhead t p h (d.lineRow h y - d.lastOpen (d.lineLayer h)), []) := if_pos ⟨rfl, hahead⟩

/-- A sample behind the window is counted. -/
theorem Dev.beatWork_behind (hopen : ¬ d.lastOpen (d.lineLayer h) < d.lineRow h y) (hbehind : d.lineRow h y < (d.layer (d.lineLayer h)).kFirst) :
    (d.beatWork t p h y q ends ([(j, .usable v)], 0)).2 = [] ∧
      ((d.beatGone p q 0).bumpBy Reg.WM_CNT_BEHIND 1).frontOnly h (d.beatWork t p h y q ends ([(j, .usable v)], 0)).1 := by
  have hwork : d.beatWork t p h y q ends ([(j, .usable v)], 0) = (if ends then ((d.beatGone p q 0).bumpBy Reg.WM_CNT_BEHIND 1).frontUpdate h
      else (d.beatGone p q 0).bumpBy Reg.WM_CNT_BEHIND 1, []) := by
    have hsome : ¬ [(j, Sample.usable v)].isEmpty = true := by simp
    unfold Dev.beatWork; dsimp only
    rw [if_neg fun hboth => hopen hboth.2, if_neg hsome, if_pos hbehind]
    rfl
  rw [hwork]
  exact ⟨rfl, Dev.frontOnly_if _ h ends⟩

/-- A sample inside the window joins its cell. -/
theorem Dev.beatWork_placed (hquiet : quietMemory d) (hopen : ¬ d.lastOpen (d.lineLayer h) < d.lineRow h y)
    (hinside : ¬ d.lineRow h y < (d.layer (d.lineLayer h)).kFirst) :
    ∃ e w, d.beatWork t p h y q ends ([(j, .usable v)], 0) = (e, frameWrites (d.storeCell (d.lineLayer h) (d.lineRow h y) j h) 8 w) ∧
      e.wm.queues = SMap.set [] d.wm.queues p q ∧ p ∉ e.wm.ahead ∧ e.fab = d.fab ∧ e.tk = d.tk ∧
      (e.layer (d.lineLayer h)).cells = assign (d.layer (d.lineLayer h)).cells (d.lineRow h y, j, h)
        ((cellAt (d.layer (d.lineLayer h)).cells (d.lineRow h y) j h).take (.usable v) (d.mapHead h).prov).1 := by
  obtain ⟨y', w, n, hplace, hcells⟩ := Dev.placeSamples_one (quietMemory_congr (Dev.beatGone_fab d p q 0) (Dev.beatGone_tk d p q 0) hquiet) t h
    (d.lineLayer h) (d.lineRow h y) j (.usable v)
  have hwork : d.beatWork t p h y q ends ([(j, .usable v)], 0) =
      (let r := (d.beatGone p q 0).placeSamples t h (d.lineLayer h) (d.lineRow h y) [(j, .usable v)]
       (if ends then r.1.frontUpdate h else r.1, r.2)) := by
    have hsome : ¬ [(j, Sample.usable v)].isEmpty = true := by simp
    unfold Dev.beatWork; dsimp only
    rw [if_neg fun hboth => hopen hboth.2, if_neg hsome, if_neg hinside]
  rw [hwork, hplace, Dev.storeCell_congr (Dev.beatGone_heads d p q 0) (Dev.beatGone_rd d p q)]
  obtain ⟨hqueues, hlayers, hahead, hfab, htk, -⟩ := Dev.frontOnly_if
    ((({ d.beatGone p q 0 with free := (d.beatGone p q 0).free + 1 } : Dev).setLayer (d.lineLayer h) y').bumpBy Reg.WM_CNT_SATCELL n) h ends
  rw [Dev.bumpBy_wm] at hqueues hlayers hahead
  refine ⟨_, w, rfl, hqueues.trans (Dev.beatGone_queues d p q 0), ?_, ?_, ?_, ?_⟩
  · rw [hahead]; exact Dev.beatGone_ahead d p q 0
  · rw [hfab, Dev.bumpBy_fab]; exact Dev.beatGone_fab d p q 0
  · rw [htk, Dev.bumpBy_tk]; exact Dev.beatGone_tk d p q 0
  · rw [Dev.layer_congr hlayers (d.lineLayer h)]
    refine (congrArg Layer.cells (Dev.layer_setLayer_same _ _ _)).trans ?_
    rw [hcells, Dev.layer_congr (Dev.beatGone_layers d p q 0), Dev.mapHead_congr (Dev.beatGone_heads d p q 0)]

end

/-! ### The command -/

theorem exec_wmSampleBeat (s : State) (hr : s.running = true) (hquiet : quietMemory s.dev) (p : Fin 2) {e : Dev} {ws : List MemWrite}
    (h : s.dev.sampleBeat s.clock.dtime p = (e, ws)) (hfab : e.fab = s.dev.fab) (htk : e.tk = s.dev.tk) :
    ∃ m, exec (.wmSampleBeat p) s = .next { s with dev := { e with pipes := m }, mem := s.mem.writes ws } := by
  obtain ⟨m, hm⟩ := State.write_workFrom s s.clock.dtime 7 s.clock.dtime ws hquiet hfab htk
  obtain ⟨hheld, -⟩ := hquiet
  refine ⟨m, ?_⟩
  rw [exec, execWmSampleBeat, State.actWr_free _ _ _ hr hheld]
  exact congrArg Host.Outcome.next (by rw [State.now_dtime, h]; exact hm)

end Sys2Proof.Machine
end

section
/-! ## The map engine: finalised rows and statistics records (R160 to R166, R172) -/

namespace Sys2Proof.Machine
open Sys2Proof.Claims

/-! ### A row that is not due, and one that waits (R160, R165) -/

/-- Row k_first of layer l is due (R160). -/
def Dev.finalDue (d : Dev) (l : Nat) : Prop :=
  (d.layer l).on = true ∧ ((d.layer l).drain.isSome = true ∨ d.frontsPassed l = true ∨ d.flushPassed l = true)

/-- It is finalised before its fronts have passed it. -/
def Dev.finalForced (d : Dev) (l : Nat) : Bool := (d.layer l).drain.isSome || !d.frontsPassed l

theorem Dev.finalDue_iff (d : Dev) (l : Nat) : d.finalDue l ↔
    ¬ ((d.layer l).on = false ∨ ((d.layer l).drain.isSome = false ∧ d.frontsPassed l = false ∧ d.flushPassed l = false)) := by
  unfold Dev.finalDue
  cases (d.layer l).on <;> cases (d.layer l).drain.isSome <;> cases d.frontsPassed l <;> cases d.flushPassed l <;> simp

theorem Dev.rowFinalise_idle {d : Dev} {l : Nat} (hidle : ¬ d.finalDue l) (t : Nat) : d.rowFinalise t l = d :=
  if_pos (not_not.mp fun hn => hidle ((d.finalDue_iff l).mpr hn))

theorem Dev.rowFinalise_waits {d : Dev} {l : Nat} (hdue : d.finalDue l) (hcredit : d.rowCredit l = false) (t : Nat) :
    (d.rowFinalise t l).wm = { d.wm with wait := if d.wm.wait.contains l then d.wm.wait else l :: d.wm.wait } := by
  unfold Dev.rowFinalise; dsimp only
  rw [if_neg ((d.finalDue_iff l).mp hdue), if_pos hcredit, Dev.updWm_wm]
  have hwm : (if d.wm.wait.contains l = true then d else match d.layerRing l with
      | some r => if d.ringRoom r (d.rowBytes l) (d.ringQueued r) = true then d else d.bump (Reg.HX_Rr_CNT_WAIT r)
      | none => d).wm = d.wm := by
    split
    · rfl
    · split
      · split
        · rfl
        · exact Dev.bump_wm d _
      · rfl
  exact congrArg (fun w : WebMap => { w with wait := if w.wait.contains l then w.wait else l :: w.wait }) hwm

/-! ### A row that is finalised (R160 to R166) -/

/-- A layer has a record of a forced row to give again: one in 64 rows (R174). -/
def Layer.forcedAgain (y : Layer) : Bool :=
  match y.forcedAt with
  | some k => decide (k + 64 ≤ y.done)
  | none => true

/-- A forced row is counted, and recorded. -/
def Dev.forcedTold (d : Dev) (t l lag : Nat) (again : Bool) : Dev := (d.bump Reg.WM_CNT_FORCED).wmRecord t 0x0001 (l + 256 * lag) again

/-- The count and the record of a row that may be forced. -/
def Dev.forcedNoted (d : Dev) (t l lag : Nat) (forced : Bool) (y : Layer) : Dev :=
  if forced then
    if y.forcedAgain then (d.forcedTold t l lag y.forcedAgain).setLayer l { y with forcedAt := some y.done } else d.forcedTold t l lag y.forcedAgain
  else d

/-- The row goes to its host ring, where its layer has one (R165). -/
def Dev.sentToRing (d : Dev) (t l : Nat) (record : List Nat) : Dev :=
  match d.layerRing l with
  | some r =>
    let before := d.ringFill r
    let d := (d.ringOffer t r (record.map (BitVec.ofNat 32))).getD d
    let mark := Config.mapHighWater (d.ringSize r)
    if before < mark ∧ mark ≤ d.ringFill r then d.raise t 75 l else d
  | none => d

/-- The row goes to bloom, where its layer says so (R165). -/
def Dev.sentToBloom (d : Dev) (l : Nat) (r : MapRow) : Dev :=
  if d.bit (Reg.WM_Ll_CFG l) 10 then d.updWm (fun w => { w with rows := w.rows ++ [r] }) else d

/-- A row is counted, and its layer waits for credit no more. -/
def Dev.rowCounted (d : Dev) (l : Nat) : Dev :=
  (d.updWm (fun w => { w with wait := w.wait.filter (fun i => decide (i ≠ l)) })).bump Reg.WM_CNT_ROWS

theorem Dev.dropBadCells_none {d : Dev} (hquiet : quietMemory d) (t l : Nat) : d.dropBadCells t l = d := by
  refine if_neg ?_
  simp [Dev.poisoned_none hquiet]

/-- Row k_first of layer l, counted, noted where it is forced, and taken up by head balance. -/
def Dev.rowNoted (d : Dev) (t l : Nat) : Dev :=
  ((d.rowCounted l).forcedNoted t l (d.laggards l) (d.finalForced l) (d.layer l)).balanceRow l

theorem Dev.rowFinalise_eq {d : Dev} {l : Nat} (hdue : d.finalDue l) (hcredit : d.rowCredit l = true) (hquiet : quietMemory d) (t : Nat) :
    d.rowFinalise t l = ((((d.rowNoted t l).sentToRing t l (d.rowRecord t l (d.finalForced l) (d.rowCells l))).sentToBloom l
      ⟨l, (d.layer l).kFirst, d.rowRecord t l (d.finalForced l) (d.rowCells l)⟩).nextRow l (d.rowCells l)).raise t 72 l := by
  unfold Dev.rowFinalise; dsimp only
  rw [if_neg ((d.finalDue_iff l).mp hdue), hcredit, if_neg (by simp), Dev.dropBadCells_none hquiet]
  rfl

section
variable (d : Dev) (t l : Nat)

theorem Dev.balanceRow_law : (d.balanceRow l).wm = d.wm ∧ (d.balanceRow l).regs = d.regs ∧ (d.balanceRow l).flt = d.flt ∧ (d.balanceRow l).ev = d.ev := by
  unfold Dev.balanceRow; dsimp only
  split
  · exact ⟨rfl, rfl, rfl, rfl⟩
  · exact ⟨rfl, rfl, rfl, rfl⟩

theorem Dev.rowCounted_rd {a : Nat} (h : a ≠ Reg.WM_CNT_ROWS) : (d.rowCounted l).rd a = d.rd a := Dev.rd_bump_other _ h

theorem Dev.rowCounted_wm : (d.rowCounted l).wm = { d.wm with wait := d.wm.wait.filter (fun i => decide (i ≠ l)) } := Dev.bump_wm _ _
theorem Dev.rowCounted_layer : (d.rowCounted l).layer l = d.layer l := Dev.layer_congr (by rw [Dev.rowCounted_wm]) l
theorem Dev.rowCounted_rows : (d.rowCounted l).wm.rows = d.wm.rows := by rw [Dev.rowCounted_wm]
theorem Dev.rowCounted_ev : (d.rowCounted l).ev = d.ev := Dev.bump_ev _ _
theorem Dev.rowCounted_flt : (d.rowCounted l).flt = d.flt := Dev.bump_flt _ _

theorem Dev.rowCounted_count (h : d.rdN Reg.WM_CNT_ROWS + 1 < 2 ^ 32) : (d.rowCounted l).rdN Reg.WM_CNT_ROWS = d.rdN Reg.WM_CNT_ROWS + 1 :=
  Dev.rdN_bumpBy_same (d.updWm _) _ 1 h

theorem Dev.forcedTold_law (lag : Nat) (again : Bool) : (d.forcedTold t l lag again).wm = d.wm ∧ (d.forcedTold t l lag again).ev = d.ev ∧
    (∀ a, a ≠ Reg.WM_CNT_FORCED → a ≠ Reg.WM_FAULT → a ≠ Reg.SV_LOG_LOST → (d.forcedTold t l lag again).rd a = d.rd a) ∧
    (d.rdN Reg.WM_CNT_FORCED + 1 < 2 ^ 32 → (d.forcedTold t l lag again).rdN Reg.WM_CNT_FORCED = d.rdN Reg.WM_CNT_FORCED + 1) :=
  ⟨(Dev.wmRecord_wm ..).trans (Dev.bump_wm d _), (Dev.wmRecord_ev ..).trans (Dev.bump_ev d _),
    fun _ hcount hflag hlost => (Dev.wmRecord_rd _ t 1 _ again hflag hlost).trans (Dev.rd_bump_other d hcount),
    fun hroom => (Dev.rdN_congr (Dev.wmRecord_rd _ t 1 _ again (by decide) (by decide))).trans (Dev.rdN_bumpBy_same d _ 1 hroom)⟩

/-- What the note of a forced row leaves: the rows that wait for bloom, the rows' indices, and every register but the count and the faults. -/
theorem Dev.forcedNoted_law (lag : Nat) (forced : Bool) (y : Layer) (hy : d.layer l = y) :
    (d.forcedNoted t l lag forced y).wm.rows = d.wm.rows ∧ ((d.forcedNoted t l lag forced y).layer l).kFirst = y.kFirst ∧
      ((d.forcedNoted t l lag forced y).layer l).drain = y.drain ∧ (d.forcedNoted t l lag forced y).ev = d.ev ∧
      (∀ a, a ≠ Reg.WM_CNT_FORCED → a ≠ Reg.WM_FAULT → a ≠ Reg.SV_LOG_LOST → (d.forcedNoted t l lag forced y).rd a = d.rd a) ∧
      (forced = true → d.rdN Reg.WM_CNT_FORCED + 1 < 2 ^ 32 →
        (d.forcedNoted t l lag forced y).rdN Reg.WM_CNT_FORCED = d.rdN Reg.WM_CNT_FORCED + 1) ∧
      (forced = false → (d.forcedNoted t l lag forced y).flt = d.flt) := by
  subst hy
  cases forced with
  | false => exact ⟨rfl, rfl, rfl, rfl, fun _ _ _ _ => rfl, fun h => absurd h (by decide), fun _ => rfl⟩
  | true =>
    obtain ⟨hwm, hev, hrd, hcount⟩ := d.forcedTold_law t l lag (d.layer l).forcedAgain
    have hrows : (d.forcedTold t l lag (d.layer l).forcedAgain).wm.rows = d.wm.rows := by rw [hwm]
    have hlayer : (d.forcedTold t l lag (d.layer l).forcedAgain).layer l = d.layer l := Dev.layer_congr (by rw [hwm]) l
    rw [Dev.forcedNoted, if_pos rfl]
    split
    · refine ⟨hrows, ?_, ?_, hev, hrd, fun _ => hcount, fun h => absurd h (by decide)⟩
      · rw [Dev.layer_setLayer_same]
      · rw [Dev.layer_setLayer_same]
    · exact ⟨hrows, congrArg Layer.kFirst hlayer, congrArg Layer.drain hlayer, hev, hrd, fun _ => hcount, fun h => absurd h (by decide)⟩

/-- What stands of a device where row k_first of layer l has been counted, noted where it is forced, and taken up by head balance. -/
theorem Dev.rowNoted_law :
    (d.rowNoted t l).wm.rows = d.wm.rows ∧ ((d.rowNoted t l).layer l).kFirst = (d.layer l).kFirst ∧
      ((d.rowNoted t l).layer l).drain = (d.layer l).drain ∧ (d.rowNoted t l).ev = d.ev ∧
      (∀ a, a ≠ Reg.WM_CNT_ROWS → a ≠ Reg.WM_CNT_FORCED → a ≠ Reg.WM_FAULT → a ≠ Reg.SV_LOG_LOST → (d.rowNoted t l).rd a = d.rd a) ∧
      (d.rdN Reg.WM_CNT_ROWS + 1 < 2 ^ 32 → (d.rowNoted t l).rdN Reg.WM_CNT_ROWS = d.rdN Reg.WM_CNT_ROWS + 1) ∧
      (d.finalForced l = true → d.rdN Reg.WM_CNT_FORCED + 1 < 2 ^ 32 → (d.rowNoted t l).rdN Reg.WM_CNT_FORCED = d.rdN Reg.WM_CNT_FORCED + 1) ∧
      (d.finalForced l = false → (d.rowNoted t l).flt = d.flt) := by
  obtain ⟨hrows, hfirst, hdrain, hev, hrd, hforced, hflt⟩ :=
    (d.rowCounted l).forcedNoted_law t l (d.laggards l) (d.finalForced l) (d.layer l) (d.rowCounted_layer l)
  obtain ⟨hbwm, hbregs, hbflt, hbev⟩ := ((d.rowCounted l).forcedNoted t l (d.laggards l) (d.finalForced l) (d.layer l)).balanceRow_law l
  have hbrd : ∀ a, (d.rowNoted t l).rd a = ((d.rowCounted l).forcedNoted t l (d.laggards l) (d.finalForced l) (d.layer l)).rd a := fun a => Dev.rd_congr hbregs a
  have hblayer := Dev.layer_congr (congrArg WebMap.layers hbwm) l
  refine ⟨(congrArg WebMap.rows hbwm).trans (hrows.trans (d.rowCounted_rows l)), (congrArg Layer.kFirst hblayer).trans hfirst,
    (congrArg Layer.drain hblayer).trans hdrain, hbev.trans (hev.trans (d.rowCounted_ev l)), fun a hcount hcf hflag hlost => ?_, fun hroom => ?_,
    fun hf hroom => ?_, fun hf => hbflt.trans ((hflt hf).trans (d.rowCounted_flt l))⟩
  · exact (hbrd a).trans ((hrd a hcf hflag hlost).trans (d.rowCounted_rd l hcount))
  · exact (Dev.rdN_congr ((hbrd _).trans (hrd _ (by decide) (by decide) (by decide)))).trans (d.rowCounted_count l hroom)
  · have hkept : (d.rowCounted l).rdN Reg.WM_CNT_FORCED = d.rdN Reg.WM_CNT_FORCED := Dev.rdN_congr (d.rowCounted_rd l (by decide))
    exact (Dev.rdN_congr (hbrd _)).trans ((hforced hf (by omega)).trans (by rw [hkept]))

/-- The row after next: with no restart under way, k_first moves on by one. -/
theorem Dev.nextRow_eq (hdrain : (d.layer l).drain = none) (cells : List CellOut) : ∃ y : Layer, y.kFirst = (d.layer l).kFirst + 1 ∧
    d.nextRow l cells = (d.setLayer l y).wr64 (Reg.WM_Ll_NEXT_LO l) (unsgn 64 ((d.layer l).kFirst + 1)) := by
  unfold Dev.nextRow; dsimp only
  rw [hdrain]
  exact ⟨_, rfl, rfl⟩

theorem Dev.sentToRing_none {d : Dev} {l : Nat} (hring : d.bit (Reg.WM_Ll_CFG l) 4 = false) (t : Nat) (record : List Nat) :
    d.sentToRing t l record = d := by
  have hnone : d.layerRing l = none := by rw [Dev.layerRing, hring]; rfl
  rw [Dev.sentToRing, hnone]

theorem Dev.sentToBloom_law (r : MapRow) : (d.sentToBloom l r).wm.layers = d.wm.layers ∧ (d.sentToBloom l r).regs = d.regs ∧
    (d.sentToBloom l r).ev = d.ev ∧ (d.sentToBloom l r).flt = d.flt ∧
    (d.sentToBloom l r).wm.rows = if d.bit (Reg.WM_Ll_CFG l) 10 = true then d.wm.rows ++ [r] else d.wm.rows := by
  unfold Dev.sentToBloom
  split
  · exact ⟨rfl, rfl, rfl, rfl, rfl⟩
  · exact ⟨rfl, rfl, rfl, rfl, rfl⟩

end
/-- A row that is due and has credit, with no restart under way and no host ring (R160, R165). -/
theorem Dev.rowFinalise_law {d : Dev} {l : Nat} (hl : l < 4) (hdue : d.finalDue l) (hcredit : d.rowCredit l = true) (hdrain : (d.layer l).drain = none)
    (hring : d.bit (Reg.WM_Ll_CFG l) 4 = false) (hquiet : quietMemory d) (t : Nat) :
    ((d.rowFinalise t l).layer l).kFirst = (d.layer l).kFirst + 1 ∧
      (d.rowFinalise t l).rd64 (Reg.WM_Ll_NEXT_LO l) = unsgn 64 ((d.layer l).kFirst + 1) ∧
      (d.rowFinalise t l).ev = d.ev ++ [⟨72, BitVec.ofNat 32 l, t⟩] ∧
      (d.rdN Reg.WM_CNT_ROWS + 1 < 2 ^ 32 → (d.rowFinalise t l).rdN Reg.WM_CNT_ROWS = d.rdN Reg.WM_CNT_ROWS + 1) ∧
      (d.finalForced l = true → d.rdN Reg.WM_CNT_FORCED + 1 < 2 ^ 32 → (d.rowFinalise t l).rdN Reg.WM_CNT_FORCED = d.rdN Reg.WM_CNT_FORCED + 1) ∧
      (d.finalForced l = false → (d.rowFinalise t l).flt = d.flt) ∧
      (d.rowFinalise t l).wm.rows = if d.bit (Reg.WM_Ll_CFG l) 10 = true
        then d.wm.rows ++ [⟨l, (d.layer l).kFirst, d.rowRecord t l (d.finalForced l) (d.rowCells l)⟩] else d.wm.rows := by
  obtain ⟨hrows, hfirst, hndrain, hev, hrd, hcount, hforced, hflt⟩ := d.rowNoted_law t l
  have hcfg : (d.rowNoted t l).rd (Reg.WM_Ll_CFG l) = d.rd (Reg.WM_Ll_CFG l) := by
    refine hrd _ ?_ ?_ ?_ ?_ <;> simp only [Reg.WM_Ll_CFG, Reg.WM_CNT_ROWS, Reg.WM_CNT_FORCED, Reg.WM_FAULT, Reg.SV_LOG_LOST] <;> omega
  rw [Dev.rowFinalise_eq hdue hcredit hquiet, Dev.sentToRing_none ((Dev.bit_congr hcfg 4).trans hring)]
  generalize (⟨l, (d.layer l).kFirst, d.rowRecord t l (d.finalForced l) (d.rowCells l)⟩ : MapRow) = r
  obtain ⟨hslayers, hsregs, hsev, hsflt, hsrows⟩ := (d.rowNoted t l).sentToBloom_law l r
  rw [Dev.bit_congr hcfg, hrows] at hsrows
  have hslayer := Dev.layer_congr hslayers l
  obtain ⟨y, hy, hnext⟩ := ((d.rowNoted t l).sentToBloom l r).nextRow_eq l (by rw [hslayer, hndrain, hdrain]) (d.rowCells l)
  rw [hnext]
  rw [hslayer, hfirst] at hy ⊢
  have hinner : ∀ a, a < 0x70300 → ¬ outputReg a := fun a ha => not_outputReg_of_belowWP (Nat.lt_of_lt_of_le ha (by decide))
  have hlow : ∀ a, a < 0x70100 → (((((d.rowNoted t l).sentToBloom l r).setLayer l y).wr64 (Reg.WM_Ll_NEXT_LO l)
      (unsgn 64 ((d.layer l).kFirst + 1))).raise t 72 l).rdN a = (d.rowNoted t l).rdN a := fun a ha => Dev.rdN_congr (by
    rw [Dev.raise_rd _ _ _ _ (hinner a (by omega)), Dev.rd_wr64_other _ _ (by simp only [Reg.WM_Ll_NEXT_LO]; omega) (by simp only [Reg.WM_Ll_NEXT_LO]; omega)]
    exact Dev.rd_congr hsregs a)
  refine ⟨?_, ?_, ?_, fun hroom => ?_, fun hf hroom => ?_, fun hf => ?_, ?_⟩
  · rw [Dev.layer_congr (congrArg WebMap.layers (Dev.raise_wm _ _ _ _))]
    exact (congrArg Layer.kFirst (Dev.layer_setLayer_same _ _ _)).trans hy
  · rw [Dev.raise_rd64 _ _ _ _ (hinner _ (by simp only [Reg.WM_Ll_NEXT_LO]; omega)) (hinner _ (by simp only [Reg.WM_Ll_NEXT_LO]; omega)), Dev.rd64_wr64_same]
    exact Nat.mod_eq_of_lt (BitVec.isLt _)
  · rw [Dev.raise_ev]
    exact congrArg (· ++ _) (hsev.trans hev)
  · rw [hlow _ (by decide), hcount hroom]
  · rw [hlow _ (by decide), hforced hf hroom]
  · rw [Dev.raise_flt]
    exact hsflt.trans (hflt hf)
  · rw [Dev.raise_wm]
    exact hsrows

theorem exec_wmRowFinalise (s : State) (hr : s.running = true) (l : Fin 4) :
    exec (.wmRowFinalise l) s = .next (s.withDev (s.dev.rowFinalise s.clock.dtime l)) := by
  rw [exec, execWmRowFinalise, State.act_running _ _ hr]
  rfl

/-! ### Statistics records (R172) -/

/-- The record at the head of pipeline p's statistics is gone. -/
def Dev.statsGone (d : Dev) (p : Nat) (rest : List StatRec) : Dev :=
  d.updWm (fun w => { w with stats := SMap.set [] w.stats p rest, tapQ := if rest.isEmpty then SMap.set 0 w.tapQ p 0 else w.tapQ })

/-- The record at the head of pipeline p's statistics waits for room in its ring, and counts one stall. -/
def Dev.statsWait (d : Dev) (p : Nat) (r : StatRec) (rest : List StatRec) : Dev :=
  if r.waited then d
  else (d.bump (Reg.WM_SRp_STALL p)).updWm (fun w => { w with stats := SMap.set [] w.stats p ({ r with waited := true } :: rest) })

/-- The events of a statistics record and its count. -/
def StatRec.ringRec (r : StatRec) (p : Nat) : RingRec := ⟨nfld r.ring.1 6 2, r.words, [(if r.zone then 74 else 73, r.head + 8 * p)], some Reg.WM_CNT_STATS⟩

section
variable {d : Dev} {p : Nat} {r : StatRec} {rest : List StatRec} (hstats : SMap.get [] d.wm.stats p = r :: rest) (t : Nat)
include hstats

/-- A record whose unit was off for its frame is discarded. -/
theorem Dev.statsRecord_off (hoff : nbit r.ring.1 0 = false) : d.statsRecord t p = (d.statsGone p rest, []) := by
  unfold Dev.statsRecord
  rw [hstats]
  exact if_pos hoff

theorem Dev.statsRecord_fits (hon : nbit r.ring.1 0 = true) (hlocal : nbit r.ring.1 1 = false)
    (hroom : 4 * r.words.length ≤ frameRoom (2 ^ (nfld r.ring.1 11 8 + 16)) (d.rdN (Reg.WM_SRp_WR p)) (d.rdN (Reg.WM_SRp_RD p))) :
    d.statsRecord t p = (((d.wrN (Reg.WM_SRp_WR p) ((d.rdN (Reg.WM_SRp_WR p) + 4 * r.words.length) % 2 ^ (nfld r.ring.1 11 8 + 16))).statsGone p rest).recordDone t
      (r.ringRec p), frameRingWrites r.ring.2 (2 ^ (nfld r.ring.1 11 8 + 16)) (d.rdN (Reg.WM_SRp_WR p)) r.words) := by
  unfold Dev.statsRecord
  rw [hstats]
  dsimp only
  rw [if_neg (by simp [hon]), if_neg (by simp [hlocal]), if_pos hroom]
  rfl

theorem Dev.statsRecord_stalls (hon : nbit r.ring.1 0 = true) (hlocal : nbit r.ring.1 1 = false)
    (hroom : ¬ 4 * r.words.length ≤ frameRoom (2 ^ (nfld r.ring.1 11 8 + 16)) (d.rdN (Reg.WM_SRp_WR p)) (d.rdN (Reg.WM_SRp_RD p))) :
    d.statsRecord t p = (d.statsWait p r rest, []) := by
  unfold Dev.statsRecord
  rw [hstats]
  dsimp only
  rw [if_neg (by simp [hon]), if_neg (by simp [hlocal]), if_neg hroom]
  rfl

end

theorem Dev.statsGone_stats (d : Dev) (p : Nat) (rest : List StatRec) : SMap.get [] (d.statsGone p rest).wm.stats p = rest := SMap.get_set_same _ _ _ _

/-- A statistics record that has been written is counted and told. -/
theorem Dev.recordDone_stats (d : Dev) (t p : Nat) (r : StatRec) :
    d.recordDone t (r.ringRec p) = (d.bump Reg.WM_CNT_STATS).raise t (if r.zone then 74 else 73) (r.head + 8 * p) := by
  simp only [Dev.recordDone, StatRec.ringRec, List.foldl]

/-- A record that waits stays at the head of its queue; its first wait counts one stall. -/
theorem Dev.statsWait_law {d : Dev} {p : Nat} {r : StatRec} {rest : List StatRec} (hstats : SMap.get [] d.wm.stats p = r :: rest) :
    SMap.get [] (d.statsWait p r rest).wm.stats p = { r with waited := true } :: rest ∧ (d.statsWait p r rest).ev = d.ev ∧
      (d.statsWait p r rest).fab = d.fab ∧ (d.statsWait p r rest).tk = d.tk ∧
      (r.waited = false → d.rdN (Reg.WM_SRp_STALL p) + 1 < 2 ^ 32 → (d.statsWait p r rest).rdN (Reg.WM_SRp_STALL p) = d.rdN (Reg.WM_SRp_STALL p) + 1) := by
  unfold Dev.statsWait
  split
  · next hwaited =>
    have hsame : { r with waited := true } = r := by rw [← hwaited]
    exact ⟨hsame.symm ▸ hstats, rfl, rfl, rfl, fun hfirst => absurd hwaited (by simp [hfirst])⟩
  · refine ⟨?_, Dev.bump_ev _ _, Dev.bump_fab _ _, Dev.bump_tk _ _, fun _ hroom => Dev.rdN_bumpBy_same d _ 1 hroom⟩
    simp only [Dev.updWm_wm, SMap.get_set_same]

theorem exec_wmStatsRecord (s : State) (hr : s.running = true) (hheld : s.dev.fab.held = []) (p : Fin 2) :
    exec (.wmStatsRecord p) s = .next (s.write s.clock.dtime 7
      ((s.dev.statsRecord s.clock.dtime p).1.workFrom s.dev s.clock.dtime, (s.dev.statsRecord s.clock.dtime p).2)) := by
  rw [exec, execWmStatsRecord, State.actWr_free _ _ _ hr hheld]
  rfl

end Sys2Proof.Machine
end

section
/-! ## Bloom: what the course of windows, grades and records leaves (R184 to R192) -/

namespace Sys2Proof.Machine
open Sys2Proof.Claims

/-- Registers of bloom: its flags, k_next, the counts of its rows and of its late fires, and its settings. -/
def bloomReg (a : Nat) : Prop := a = Reg.BV_FAULT ∨ a = Reg.BV_NEXT ∨ a = Reg.BV_CNT_ROWS ∨ a = Reg.BV_CNT_LATE ∨ a = Reg.BV_CFG

/-- From d to e bloom's windows, grades and records have moved on: the map, the banks, the fires, the rows scored and k_next stand, and its flags stay set. -/
def Dev.bloomStands (d e : Dev) : Prop :=
  e.wm = d.wm ∧ e.vb = d.vb ∧ e.bv.kNext = d.bv.kNext ∧ e.bv.fires = d.bv.fires ∧ e.bv.scored = d.bv.scored ∧
    (∀ a, bloomReg a → a ≠ Reg.BV_FAULT → e.rd a = d.rd a) ∧ ∀ i, i < 32 → d.bit Reg.BV_FAULT i = true → e.bit Reg.BV_FAULT i = true

theorem Dev.bloomStands_refl (d : Dev) : d.bloomStands d := ⟨rfl, rfl, rfl, rfl, rfl, fun _ _ _ => rfl, fun _ _ h => h⟩

theorem Dev.bloomStands.trans {d e f : Dev} (h : d.bloomStands e) (h' : e.bloomStands f) : d.bloomStands f := by
  obtain ⟨hwm, hvb, hnext, hfires, hscored, hrd, hflags⟩ := h
  obtain ⟨hwm', hvb', hnext', hfires', hscored', hrd', hflags'⟩ := h'
  exact ⟨hwm'.trans hwm, hvb'.trans hvb, hnext'.trans hnext, hfires'.trans hfires, hscored'.trans hscored,
    fun a ha hne => (hrd' a ha hne).trans (hrd a ha hne), fun i hi hb => hflags' i hi (hflags i hi hb)⟩

theorem Dev.bloomStands.vb {d e : Dev} (h : d.bloomStands e) : e.vb = d.vb := by
  obtain ⟨-, hvb, -⟩ := h
  exact hvb

/-- A step that leaves bloom's state and its registers. -/
theorem Dev.bloomStands_of_rd {d e : Dev} (hwm : e.wm = d.wm) (hvb : e.vb = d.vb) (hbv : e.bv = d.bv) (hrd : ∀ a, bloomReg a → e.rd a = d.rd a) :
    d.bloomStands e := by
  refine ⟨hwm, hvb, ?_, ?_, ?_, fun a ha _ => hrd a ha, fun i _ hb => (Dev.bit_congr (hrd _ (.inl rfl)) i).trans hb⟩ <;> rw [hbv]

theorem Dev.fabricOnly.bloomStands {d e : Dev} (h : d.fabricOnly e) : d.bloomStands e := by
  obtain ⟨hwm, hbv, hvb, hrd⟩ := h
  refine Dev.bloomStands_of_rd hwm hvb hbv fun a ha => hrd a fun hf => ?_
  simp only [bloomReg, fabricReg, Reg.BV_FAULT, Reg.BV_NEXT, Reg.BV_CNT_ROWS, Reg.BV_CNT_LATE, Reg.BV_CFG, Reg.FB_FAULT,
    Reg.FB_ERR, Reg.FB_CNT_UE, Reg.SV_LOG_LOST] at ha hf
  omega

/-! ### Single steps -/

/-- An address away from bloom's registers: a host ring's, a later count or a jet's register, or that of the window ring. -/
def offBloom (a : Nat) : Prop := a < Reg.BV_FAULT ∨ Reg.BV_CNT_LATE < a ∨ a = Reg.BV_RING_WR

theorem bloomReg.ne_of_off {a b : Nat} (h : bloomReg b) (ha : offBloom a) : b ≠ a := by
  simp only [bloomReg, offBloom, Reg.BV_FAULT, Reg.BV_NEXT, Reg.BV_CNT_ROWS, Reg.BV_CNT_LATE, Reg.BV_CFG, Reg.BV_RING_WR]
    at h ha
  omega

theorem bloomReg.belowWP {a : Nat} (h : bloomReg a) : belowWP a := by
  simp only [bloomReg, Sys2Proof.Machine.belowWP, Reg.BV_FAULT, Reg.BV_NEXT, Reg.BV_CNT_ROWS, Reg.BV_CNT_LATE, Reg.BV_CFG] at h ⊢
  omega

section
variable (d : Dev) (t : Nat)

theorem Dev.bloomStands_setJet (j : Nat) (x : BvJet) : d.bloomStands (d.setJet j x) := ⟨rfl, rfl, rfl, rfl, rfl, fun _ _ _ => rfl, fun _ _ h => h⟩
theorem Dev.bloomStands_publish (j : Nat) (x : BvJet) : d.bloomStands (d.publish t j x) := d.bloomStands_setJet j _
theorem Dev.bloomStands_setOut (q : List BvRecord) : d.bloomStands (d.updBv (fun v => { v with out := q })) :=
  ⟨rfl, rfl, rfl, rfl, rfl, fun _ _ _ => rfl, fun _ _ h => h⟩
theorem Dev.bloomStands_free (n : Nat) : d.bloomStands { d with free := n } := ⟨rfl, rfl, rfl, rfl, rfl, fun _ _ _ => rfl, fun _ _ h => h⟩
theorem Dev.bloomStands_updHx (f : HostUnit → HostUnit) : d.bloomStands (d.updHx f) := ⟨rfl, rfl, rfl, rfl, rfl, fun _ _ _ => rfl, fun _ _ h => h⟩

theorem Dev.bloomStands_wrN {a : Nat} (v : Nat) (h : offBloom a) : d.bloomStands (d.wrN a v) :=
  Dev.bloomStands_of_rd rfl rfl rfl fun _ hb => Dev.rd_wrN_other d v (hb.ne_of_off h)

theorem Dev.bloomStands_bump {a : Nat} (h : offBloom a) : d.bloomStands (d.bump a) :=
  Dev.bloomStands_of_rd (Dev.bump_wm d a) (Dev.bump_vb d a) (Dev.bump_bv d a) fun _ hb => Dev.rd_bump_other d (hb.ne_of_off h)

theorem Dev.bloomStands_raise (e w : Nat) : d.bloomStands (d.raise t e w) :=
  Dev.bloomStands_of_rd (Dev.raise_wm ..) (Dev.raise_vb ..) (Dev.raise_bv ..) fun _ hb => Dev.raise_rd d t e w (not_outputReg_of_belowWP hb.belowWP)

theorem Dev.bloomStands_fault (u c x : Nat) : d.bloomStands (d.fault t u c x) :=
  Dev.bloomStands_of_rd (Dev.fault_wm ..) (Dev.fault_vb ..) (Dev.fault_bv ..) fun _ hb =>
    Dev.rd_fault_other d t u c x (hb.ne_of_off (.inr (.inl (by decide))))

theorem Dev.bloomStands_flag (i : Nat) : d.bloomStands (d.flag Reg.BV_FAULT i) := by
  refine ⟨rfl, rfl, rfl, rfl, rfl, fun a _ hne => Dev.rd_flag_other d i hne, fun j hj hb => ?_⟩
  by_cases hi : j = i
  · exact hi ▸ Dev.bit_flag d _ hj
  · exact (Dev.bit_flag_other d _ hj hi).trans hb

theorem Dev.bloomStands_bvFault (el code x : Nat) : d.bloomStands (d.bvFault t el code x) :=
  (d.bloomStands_flag _).trans (Dev.bloomStands_fault _ t _ code x)

theorem Dev.bloomStands_bvRecord (code x : Nat) (write : Bool) : d.bloomStands (d.bvRecord t code x write) := by
  unfold Dev.bvRecord; dsimp only
  split
  · exact (d.bloomStands_flag _).trans (Dev.bloomStands_fault _ t _ code x)
  · exact d.bloomStands_flag _

end

/-! ### Records and rings (R192, R413) -/

/-- Folds of steps, with or without writes along. -/
theorem Dev.bloomStands_foldl {α : Type} (f : Dev → α → Dev) (h : ∀ (d : Dev) x, d.bloomStands (f d x)) (l : List α) (d : Dev) :
    d.bloomStands (l.foldl f d) :=
  Dev.foldl_inv d.bloomStands f (fun e x he => he.trans (h e x)) l d d.bloomStands_refl

theorem Dev.bloomStands_foldl_writes {α : Type} (f : Dev × List MemWrite → α → Dev × List MemWrite)
    (h : ∀ (q : Dev × List MemWrite) x, q.1.bloomStands (f q x).1) (l : List α) (q : Dev × List MemWrite) : q.1.bloomStands (l.foldl f q).1 := by
  induction l generalizing q with
  | nil => exact q.1.bloomStands_refl
  | cons x l ih => exact (h q x).trans (ih _)

section
variable (d : Dev) (t : Nat)

theorem Dev.bloomStands_recordDone (x : RingRec) (h : x.count = none) : d.bloomStands (d.recordDone t x) := by
  unfold Dev.recordDone
  rw [h]
  exact Dev.bloomStands_foldl _ (fun e y => e.bloomStands_raise t _ _) _ d

theorem Dev.bloomStands_hxFault (link code x : Nat) : d.bloomStands (d.hxFault t link code x) :=
  Dev.bloomStands_of_rd (Dev.faultFlag_wm ..) (Dev.faultFlag_vb ..) (Dev.faultFlag_bv ..) fun _ hb =>
    Dev.rd_faultFlag_other d t _ code x _ _ (hb.ne_of_off (.inr (.inl (by decide)))) (hb.ne_of_off (.inl (by decide)))

theorem Dev.bloomStands_ringBig {r : Nat} (hr : r < 32) (n : Nat) : d.bloomStands (d.ringBig t r n) := by
  have hcount : d.bloomStands (d.bump (Reg.HX_Rr_CNT_BIG r)) := d.bloomStands_bump (.inl (by simp only [Reg.HX_Rr_CNT_BIG, Reg.BV_FAULT]; omega))
  unfold Dev.ringBig; dsimp only
  split
  · exact hcount
  · exact (hcount.trans (Dev.bloomStands_hxFault _ t _ _ _)).trans (Dev.bloomStands_updHx _ _)

theorem Dev.bloomStands_ringOfferRec {x : RingRec} (hr : x.ring < 32) (hcount : x.count = none) {e : Dev} (h : d.ringOfferRec t x = some e) :
    d.bloomStands e := by
  unfold Dev.ringOfferRec at h; dsimp only at h
  split at h
  · cases h
    exact (d.bloomStands_ringBig t hr _).trans (Dev.bloomStands_recordDone _ t x hcount)
  · split at h
    · cases h
      exact d.bloomStands_updHx _
    · cases h

theorem ringField_lt (c : Nat) : nfld c 6 2 < 32 := Nat.mod_lt _ (by decide)

theorem Dev.bloomStands_bvFlushOne {r : BvRecord} {e : Dev} {ws : List MemWrite} (h : d.bvFlushOne t r = some (e, ws)) : d.bloomStands e := by
  unfold Dev.bvFlushOne at h; dsimp only at h
  split at h
  · cases h
    exact d.bloomStands_recordDone t _ rfl
  · split at h
    · obtain ⟨y, hy, heq⟩ := Option.map_eq_some_iff.mp h
      cases heq
      exact d.bloomStands_ringOfferRec t (ringField_lt _) rfl hy
    · split at h
      · cases h
        exact (d.bloomStands_wrN _ (.inr (.inr rfl))).trans (Dev.bloomStands_recordDone _ t _ rfl)
      · cases h

theorem Dev.bloomStands_bvWaits (r : BvRecord) : d.bloomStands (d.bvWaits r) := by
  unfold Dev.bvWaits; dsimp only
  split
  · have hring := ringField_lt (d.rdN Reg.BV_RING)
    exact d.bloomStands_bump (.inl (by simp only [Reg.HX_Rr_CNT_WAIT, Reg.BV_FAULT]; omega))
  · exact d.bloomStands_refl

theorem Dev.bloomStands_bvFlushList (l : List BvRecord) : d.bloomStands (d.bvFlushList t l).1 := by
  induction l generalizing d with
  | nil => exact d.bloomStands_setOut []
  | cons r rs ih =>
    unfold Dev.bvFlushList
    split
    · exact (d.bloomStands_bvWaits r).trans (Dev.bloomStands_setOut _ _)
    · next e ws hone => exact (d.bloomStands_bvFlushOne t hone).trans (ih e)

/-! ### Windows, grades and fill (R185 to R190) -/

theorem Dev.bloomStands_readEntry (j : Nat) : d.bloomStands (d.readEntry t j) := by
  unfold Dev.readEntry
  split
  · exact (((d.fabricOnly_readPoison t 8 _ 64).bloomStands).trans (Dev.bloomStands_bvFault _ t 0 8 1)).trans (Dev.bloomStands_free _ _)
  · exact d.bloomStands_refl

theorem Dev.bloomStands_readNeighbours (m : Mem) (j : Nat) : d.bloomStands (d.readNeighbours m t j) :=
  (d.bloomStands_readEntry t j).trans (Dev.bloomStands_foldl _ (fun e n => e.bloomStands_readEntry t n) _ _)

theorem Dev.bloomStands_bvGrade (j : Nat) (w : BvWindow) : d.bloomStands (d.bvGrade t j w) := by
  have hgraded : ∀ (x : BvJet) (v : Nat), d.bloomStands ((d.setJet j x).wrN (Reg.BV_Jj_RHO j) v) := fun x v =>
    (d.bloomStands_setJet j x).trans (Dev.bloomStands_wrN _ v (.inr (.inl (by simp only [Reg.BV_Jj_RHO, Reg.BV_CNT_LATE]; omega))))
  unfold Dev.bvGrade; dsimp only
  split
  · exact (hgraded _ _).trans (Dev.bloomStands_bvFault _ t _ _ _)
  · exact hgraded _ _

theorem Dev.bloomStands_bvTrim (j rho : Nat) : d.bloomStands (d.bvTrim t j rho) := by
  have hraised : ∀ (c : Prop) [Decidable c] (e : Dev) (n : Nat), d.bloomStands e → d.bloomStands (if c then e.raise t n j else e) := fun c _ e n he => by
    split
    · exact he.trans (e.bloomStands_raise t n j)
    · exact he
  unfold Dev.bvTrim
  exact hraised _ _ _ (hraised _ _ _ (d.bloomStands_publish t j _))

theorem Dev.bloomStands_bvEnterFill (m : Mem) (j : Nat) : d.bloomStands (d.bvEnterFill m t j) := by
  unfold Dev.bvEnterFill; dsimp only
  split
  · exact d.bloomStands_refl
  · split
    · exact (d.bloomStands_publish t j _).trans (Dev.bloomStands_raise _ t _ _)
    · exact (d.bloomStands_bvFault t _ _ _).trans (Dev.bloomStands_raise _ t _ _)

theorem Dev.bloomStands_bvLeaveFill (j : Nat) : d.bloomStands (d.bvLeaveFill t j) := by
  unfold Dev.bvLeaveFill; dsimp only
  split
  · exact (d.bloomStands_publish t j _).trans (Dev.bloomStands_raise _ t _ _)
  · exact d.bloomStands_refl

/-- A window that is complete, before its record is written. -/
theorem Dev.bloomStands_windowEnds (m : Mem) (j : Nat) (w : BvWindow) (bad : Bool) (x : BvJet) (rho : Nat) : d.bloomStands
    ((if bad then (if bad then (d.bump Reg.BV_CNT_INVALID).setJet j x else d.bvGrade t j w)
      else (if bad then (d.bump Reg.BV_CNT_INVALID).setJet j x else d.bvGrade t j w).bvTrim t j rho).readNeighbours m t j) := by
  refine Dev.bloomStands.trans ?_ (Dev.bloomStands_readNeighbours _ t m j)
  cases bad with
  | true => exact (d.bloomStands_bump (.inr (.inl (by decide)))).trans (Dev.bloomStands_setJet _ _ _)
  | false => exact (d.bloomStands_bvGrade t j w).trans (Dev.bloomStands_bvTrim _ t j rho)

/-- The record of a window joins those that wait, and what there is room for is written. -/
theorem Dev.bloomStands_windowTold (j no : Nat) (r : Bloom → BvRecord) : d.bloomStands
    (((d.wrN (Reg.BV_Jj_WINNO j) no).updBv (fun v => { v with out := v.out ++ [r v] })).bvFlush t).1 :=
  ((d.bloomStands_wrN no (.inr (.inl (by simp only [Reg.BV_Jj_WINNO, Reg.BV_CNT_LATE]; omega)))).trans (Dev.bloomStands_setOut _ _)).trans
    (Dev.bloomStands_bvFlushList _ t _)

theorem Dev.bloomStands_bvComplete (m : Mem) (j : Nat) (w : BvWindow) : d.bloomStands (d.bvComplete m t j w).1 := by
  have hends := d.bloomStands_windowEnds t m j w w.bad { d.jet j with invalid := true, goodProbes := 0 } (rhoOf w.s w.se)
  unfold Dev.bvComplete; dsimp only
  cases hbad : w.bad with
  | true =>
    rw [hbad] at hends
    exact (hends.trans (Dev.bloomStands_free _ _)).trans (Dev.bloomStands_windowTold _ t j w.no fun _ => _)
  | false =>
    rw [hbad] at hends
    exact ((hends.trans (Dev.bloomStands_windowTold _ t j w.no fun _ => _)).trans (Dev.bloomStands_bvEnterFill _ t m j)).trans
      (Dev.bloomStands_bvLeaveFill _ t j)

theorem Dev.bloomStands_bvSettle (m : Mem) (j : Nat) : d.bloomStands (d.bvSettle m t j).1 := by
  unfold Dev.bvSettle; dsimp only
  split
  · exact d.bloomStands_refl
  · refine (d.bloomStands_setJet j _).trans (Dev.bloomStands_foldl_writes _ ?_ _ (_, []))
    exact fun q w => q.1.bloomStands_bvComplete t m j w

end

end Sys2Proof.Machine
end

section
/-! ## Bloom: fire records (R177, R179, R180, R185) -/

namespace Sys2Proof.Machine
open Sys2Proof.Claims

/-! ### Writes to words of frame memory -/

/-- Writes to words of frame memory leave every byte beside them, and the other memories. -/
theorem Mem.wordWrites_keeps (l : List Nat) (f g : Nat → Nat) (m : Mem) :
    (∀ a, (∀ i ∈ l, a < f i ∨ f i + 4 ≤ a) → (m.writes (l.map (fun i => frameWrites (f i) 4 (g i))).flatten).frameByte a = m.frameByte a) ∧
      (∀ a, (m.writes (l.map (fun i => frameWrites (f i) 4 (g i))).flatten).locByte a = m.locByte a) ∧
      ∀ i, (m.writes (l.map (fun i => frameWrites (f i) 4 (g i))).flatten).lastRec i = m.lastRec i := by
  induction l generalizing m with
  | nil => exact ⟨fun _ _ => rfl, fun _ => rfl, fun _ => rfl⟩
  | cons x l ih =>
    obtain ⟨hframe, hloc, hlast⟩ := ih (m.writes (frameWrites (f x) 4 (g x)))
    rw [List.map_cons, List.flatten_cons, Mem.writes_append]
    refine ⟨fun a ha => ?_, fun a => (hloc a).trans (Mem.frameWrites_keeps m _ _ _ a).1, fun i => (hlast i).trans (Mem.frameWrites_keeps m _ _ _ i).2⟩
    have hout := ha x List.mem_cons_self
    rw [hframe a fun i hi => ha i (List.mem_cons_of_mem x hi), Mem.frameWrites_read, if_neg (by omega)]

/-- The bytes of BV_STORE that an input changes lie in its words. -/
theorem Dev.storeFree_keeps (d : Dev) (places : List Nat) (m : Mem) :
    (∀ a, (∀ q ∈ places, a < q ∨ q + 4 ≤ a) → (m.writes (d.storeFree places).2).frameByte a = m.frameByte a) ∧
      (∀ a, (m.writes (d.storeFree places).2).locByte a = m.locByte a) ∧ ∀ i, (m.writes (d.storeFree places).2).lastRec i = m.lastRec i := by
  obtain ⟨hframe, hloc, hlast⟩ := Mem.wordWrites_keeps (List.range places.length) (fun i => places.getD i 0) (fun i => Config.freeValue (d.free + i)) m
  refine ⟨fun a ha => hframe a fun i hi => ?_, hloc, hlast⟩
  have hlt := List.mem_range.mp hi
  exact List.getD_eq_getElem places 0 hlt ▸ ha _ (List.getElem_mem hlt)

/-! ### No window record waits -/

theorem Dev.bvFlush_none {d : Dev} (hout : d.bv.out = []) (t : Nat) : d.bvFlush t = (d, []) := by
  have hsame : d.updBv (fun v => { v with out := [] }) = d := by
    unfold Dev.updBv
    rw [← hout]
  rw [Dev.bvFlush, hout, Dev.bvFlushList, hsame]

/-! ### Jets and banks -/

theorem Dev.jet_congr {d e : Dev} (h : e.bv.jets = d.bv.jets) (j : Nat) : e.jet j = d.jet j := congrArg (SMap.get BvJet.reset · j) h
@[simp] theorem Dev.jet_setJet_same (d : Dev) (j : Nat) (x : BvJet) : (d.setJet j x).jet j = x := SMap.get_set_same _ _ _ _
theorem Dev.jet_setJet_other (d : Dev) {i j : Nat} (x : BvJet) (h : i ≠ j) : (d.setJet j x).jet i = d.jet i := SMap.get_set_other _ _ _ h

/-- The jet of a fire record of bank b, and the position of its fire (R177). -/
def fireJet (b : Nat) (r : List Nat) : Nat := 16 * b + nfld (r.getD 1 0) 3 0
def firePos (r : List Nat) : Int := sgn 64 (r.getD 4 0 + 2 ^ 32 * r.getD 5 0)

/-- The fire record at the head of bank b's queue is taken. -/
def Dev.recordTaken (d : Dev) (b : Nat) (rest : List (List Nat)) : Dev := d.updBank b (fun x => { x with records := rest })

theorem Dev.recordTaken_records (d : Dev) (b : Nat) (rest : List (List Nat)) : ((d.recordTaken b rest).bank b).records = rest :=
  congrArg Bank.records (SMap.get_set_same _ _ _ _)

/-! ### A fire (R179) -/

/-- The row in which the middle of a fire of jet j at a position lies (R179). -/
def Dev.fireRow (d : Dev) (m : Mem) (j : Nat) (pos : Int) : Int :=
  (pos + (d.jetEntry m j).aoff - sgn 64 (d.rd64 (Reg.WP_RGn_ORIGIN_LO (d.layerRg d.bvLayer)))) / (d.rgPitch (d.layerRg d.bvLayer) : Int)

theorem Dev.readEntry_none {d : Dev} (hquiet : quietMemory d) (t j : Nat) : d.readEntry t j = d := if_neg (by simp [Dev.poisoned_none hquiet])

theorem Dev.bvRecord_bit (d : Dev) (t code x : Nat) (write : Bool) (hcode : code - 1 < 32) : (d.bvRecord t code x write).bit Reg.BV_FAULT (code - 1) = true := by
  unfold Dev.bvRecord; dsimp only
  have hflag := Dev.bit_flag d Reg.BV_FAULT hcode
  split
  · exact (Dev.bit_congr (Dev.rd_fault_other _ t _ code x (by decide)) _).trans hflag
  · exact hflag

/-- A late fire counts and is told, once in 64 rows with a record (R179, R196). -/
theorem Dev.bvMisplaced_late (d : Dev) (t b j rows : Nat) :
    (d.bvMisplaced t b j (some rows)).vb = d.vb ∧ (d.bvMisplaced t b j (some rows)).bit Reg.BV_FAULT 2 = true ∧
      (d.rdN Reg.BV_CNT_LATE + 1 < 2 ^ 32 → (d.bvMisplaced t b j (some rows)).rdN Reg.BV_CNT_LATE = d.rdN Reg.BV_CNT_LATE + 1) := by
  have htold : ∀ x again, ((d.bump Reg.BV_CNT_LATE).bvRecord t 3 x again).vb = d.vb ∧
      ((d.bump Reg.BV_CNT_LATE).bvRecord t 3 x again).bit Reg.BV_FAULT 2 = true ∧
      (d.rdN Reg.BV_CNT_LATE + 1 < 2 ^ 32 → ((d.bump Reg.BV_CNT_LATE).bvRecord t 3 x again).rdN Reg.BV_CNT_LATE = d.rdN Reg.BV_CNT_LATE + 1) := fun x again => by
    obtain ⟨-, hvb, -, -, -, hrd, -⟩ := (d.bump Reg.BV_CNT_LATE).bloomStands_bvRecord t 3 x again
    exact ⟨hvb.trans (Dev.bump_vb d _), Dev.bvRecord_bit _ t 3 x again (by decide),
      fun hroom => (Dev.rdN_congr (hrd _ (.inr (.inr (.inr (.inl rfl)))) (by decide))).trans (Dev.rdN_bumpBy_same d _ 1 hroom)⟩
  unfold Dev.bvMisplaced; dsimp only
  split
  · exact htold _ _
  · exact htold _ _

theorem Dev.bvMisplaced_vb (d : Dev) (t b j : Nat) (late : Option Nat) : (d.bvMisplaced t b j late).vb = d.vb := by
  cases late with
  | some rows =>
    obtain ⟨hvb, -⟩ := d.bvMisplaced_late t b j rows
    exact hvb
  | none =>
    have htold : ∀ again, ((d.bump Reg.BV_CNT_AHEAD).bvRecord t 4 j again).vb = d.vb := fun again =>
      ((d.bump Reg.BV_CNT_AHEAD).bloomStands_bvRecord t 4 j again).vb.trans (Dev.bump_vb d _)
    unfold Dev.bvMisplaced; dsimp only
    split
    · exact htold _
    · exact htold _

theorem Dev.bvFire_vb (d : Dev) (m : Mem) (t j kind : Nat) (dip : Bool) (pos : Int) : (d.bvFire m t j kind dip pos).1.vb = d.vb := by
  have hread := (d.bloomStands_readEntry t j).vb
  unfold Dev.bvFire; dsimp only
  split
  · exact hread
  · split
    · exact (Dev.bloomStands_bvSettle _ t m j).vb.trans ((Dev.bvMisplaced_vb _ _ _ _ _).trans hread)
    · exact hread

section
variable {d : Dev} {m : Mem} {j : Nat} {pos : Int} (hquiet : quietMemory d) (hscored : (d.jetEntry m j).scored = true)
  (t kind : Nat) (dip : Bool)
include hquiet hscored

/-- A fire inside the stores counts in its jet's window, and in three words of BV_STORE. -/
theorem Dev.bvFire_placed (hfill : (d.jet j).fill = false) (hlow : d.bv.kNext ≤ d.fireRow m j pos - 1)
    (hhigh : d.fireRow m j pos + 1 < d.bv.kNext + d.fld Reg.BV_DEPTH 11 0) :
    d.bvFire m t j kind dip pos = ((d.setJet j ((d.jet j).count d.bvWindow dip).1).updBv (fun v => { v with
      fires := v.fires ++ [⟨j, d.fireRow m j pos, some ((d.jet j).count d.bvWindow dip).2, true⟩] })).storeFree (d.firePlaces j (d.fireRow m j pos)) := by
  have hlate : decide (d.fireRow m j pos - 1 < d.bv.kNext) = false := decide_eq_false (by omega)
  have hahead : decide (d.bv.kNext + d.fld Reg.BV_DEPTH 11 0 ≤ d.fireRow m j pos + 1) = false := decide_eq_false (by omega)
  have hopen : ¬ d.fireRow m j pos + 1 < d.bv.kNext := by omega
  have hcounts : ¬ ((d.jet j).fill = true ∧ kind ≠ 1) := by simp [hfill]
  unfold Dev.fireRow at hlate hahead hopen
  unfold Dev.bvFire; dsimp only
  rw [Dev.readEntry_none hquiet, if_neg (by simp [hscored]), hlate, hahead, if_neg hopen, if_neg hcounts, if_neg (by simp)]
  rfl

/-- A late fire is told, and spoils its window. -/
theorem Dev.bvFire_late (hlate : d.fireRow m j pos - 1 < d.bv.kNext) : ∃ (e : Dev) (rows : Nat), e.regs = d.regs ∧
    d.bvFire m t j kind dip pos = (e.bvMisplaced t (j / 16) j (some rows)).bvSettle m t j := by
  have hl : decide (d.fireRow m j pos - 1 < d.bv.kNext) = true := decide_eq_true hlate
  unfold Dev.fireRow at hl
  unfold Dev.bvFire; dsimp only
  rw [Dev.readEntry_none hquiet, if_neg (by simp [hscored]), hl, if_pos (.inl rfl), if_pos rfl]
  refine ⟨_, _, ?_, rfl⟩
  rfl

end

/-! ### The window in which a fire counts (R185) -/

theorem BvJet.count_none {x : BvJet} (h : x.wins = []) (n : Nat) (dip : Bool) :
    x.count n dip = ({ x with wins := [⟨x.winNo + 1, 1, b2n dip, 0, 0, 0, false⟩], winNo := x.winNo + 1 }, x.winNo + 1) := by
  rw [BvJet.count, h]
  rfl

theorem BvJet.count_one {x : BvJet} {w : BvWindow} (h : x.wins = [w]) {n : Nat} (hroom : w.fires < n) (dip : Bool) :
    x.count n dip = ({ x with wins := [{ w with fires := w.fires + 1, dips := w.dips + b2n dip }] }, w.no) := by
  rw [BvJet.count, h]
  exact if_pos hroom

/-! ### The command -/

section
variable {d : Dev} {b : Nat} {r : List Nat} {rest : List (List Nat)} (hout : d.bv.out = []) (hrecords : (d.bank b).records = r :: rest)
  (hgap : nbit (r.getD 1 0) 15 = false) (m : Mem) (t : Nat)
include hout hrecords hgap

/-- A record is taken, and acts as its fire does where the block is on and the fire was made. -/
theorem Dev.bvFireRecord_eq : d.bvFireRecord m t b =
    if d.bvOn = false then (d.recordTaken b rest, []) else if nbit (r.getD 1 0) 10 = true then (d.recordTaken b rest, [])
    else (d.recordTaken b rest).bvFire m t (fireJet b r) (nfld (r.getD 1 0) 9 8) (nbit (r.getD 1 0) 14) (firePos r) := by
  unfold Dev.bvFireRecord; dsimp only
  rw [Dev.bvFlush_none hout]; dsimp only
  rw [hrecords]; dsimp only
  rw [if_neg (not_not.mpr hout), hgap]
  rfl

/-- A disabled block and a cancelled fire only take the record (log 74). -/
theorem Dev.bvFireRecord_drops (h : d.bvOn = false ∨ nbit (r.getD 1 0) 10 = true) : d.bvFireRecord m t b = (d.recordTaken b rest, []) := by
  rw [Dev.bvFireRecord_eq hout hrecords hgap]
  by_cases hon : d.bvOn = false
  · exact if_pos hon
  · rw [if_neg hon]
    exact if_pos (h.resolve_left hon)

theorem Dev.bvFireRecord_fires (hon : d.bvOn = true) (hmade : nbit (r.getD 1 0) 10 = false) :
    d.bvFireRecord m t b = (d.recordTaken b rest).bvFire m t (fireJet b r) (nfld (r.getD 1 0) 9 8) (nbit (r.getD 1 0) 14) (firePos r) := by
  rw [Dev.bvFireRecord_eq hout hrecords hgap, if_neg (by simp [hon]), if_neg (Bool.eq_false_iff.mp hmade)]

/-- Whatever the record asks for, it leaves its queue and no bank else changes. -/
theorem Dev.bvFireRecord_vb : (d.bvFireRecord m t b).1.vb = (d.recordTaken b rest).vb := by
  rw [Dev.bvFireRecord_eq hout hrecords hgap]
  split
  · rfl
  · split
    · rfl
    · exact Dev.bvFire_vb _ _ _ _ _ _ _

section
variable (hquiet : quietMemory d) (hon : d.bvOn = true) (hmade : nbit (r.getD 1 0) 10 = false) (hscored : (d.jetEntry m (fireJet b r)).scored = true)
include hquiet hon hmade hscored

/-- A fire inside the stores counts in its jet's window, and writes only its words of BV_STORE (R180, R185). -/
theorem Dev.bvFireRecord_inside (hfill : (d.jet (fireJet b r)).fill = false) (hlow : d.bv.kNext ≤ d.fireRow m (fireJet b r) (firePos r) - 1)
    (hhigh : d.fireRow m (fireJet b r) (firePos r) + 1 < d.bv.kNext + d.fld Reg.BV_DEPTH 11 0) :
    quietMemory (d.bvFireRecord m t b).1 ∧
    (d.bvFireRecord m t b).2 = (d.storeFree (d.firePlaces (fireJet b r) (d.fireRow m (fireJet b r) (firePos r)))).2 ∧
    (d.bvFireRecord m t b).1.jet (fireJet b r) = ((d.jet (fireJet b r)).count d.bvWindow (nbit (r.getD 1 0) 14)).1 ∧
    (d.bvFireRecord m t b).1.bv.fires = d.bv.fires ++
      [⟨fireJet b r, d.fireRow m (fireJet b r) (firePos r), some ((d.jet (fireJet b r)).count d.bvWindow (nbit (r.getD 1 0) 14)).2, true⟩] := by
  have htaken : quietMemory (d.recordTaken b rest) := quietMemory_congr rfl rfl hquiet
  rw [Dev.bvFireRecord_fires hout hrecords hgap m t hon hmade, Dev.bvFire_placed htaken hscored t _ _ hfill hlow hhigh]
  exact ⟨quietMemory_congr rfl rfl hquiet, rfl, Dev.jet_setJet_same _ _ _, rfl⟩

/-- A late fire counts in BV_CNT_LATE (R179). -/
theorem Dev.bvFireRecord_late (hlate : d.fireRow m (fireJet b r) (firePos r) - 1 < d.bv.kNext) (hroom : d.rdN Reg.BV_CNT_LATE + 1 < 2 ^ 32) :
    (d.bvFireRecord m t b).1.rdN Reg.BV_CNT_LATE = d.rdN Reg.BV_CNT_LATE + 1 ∧ (d.bvFireRecord m t b).1.bit Reg.BV_FAULT 2 = true := by
  have htaken : quietMemory (d.recordTaken b rest) := quietMemory_congr rfl rfl hquiet
  obtain ⟨e, rows, hregs, hfire⟩ := Dev.bvFire_late htaken hscored t (nfld (r.getD 1 0) 9 8) (nbit (r.getD 1 0) 14) hlate
  have hcount : e.rdN Reg.BV_CNT_LATE = d.rdN Reg.BV_CNT_LATE := Dev.rdN_congr (Dev.rd_congr (d := d.recordTaken b rest) hregs _)
  rw [Dev.bvFireRecord_fires hout hrecords hgap m t hon hmade, hfire]
  obtain ⟨-, hflag, hbump⟩ := e.bvMisplaced_late t (fireJet b r / 16) (fireJet b r) rows
  obtain ⟨-, -, -, -, -, hrd, hflags⟩ := (e.bvMisplaced t (fireJet b r / 16) (fireJet b r) (some rows)).bloomStands_bvSettle t m (fireJet b r)
  refine ⟨?_, hflags 2 (by decide) hflag⟩
  rw [Dev.rdN_congr (hrd _ (.inr (.inr (.inr (.inl rfl)))) (by decide)), hbump (by omega), hcount]

end

end

theorem exec_bvFireRecord (s : State) (hr : s.running = true) (hheld : s.dev.fab.held = []) (b : Fin 8) :
    exec (.bvFireRecord b) s = .next (s.write s.clock.dtime 8 (s.dev.bvFireRecord s.mem s.clock.dtime b)) := by
  rw [exec, execBvFireRecord, State.actWr_free _ _ _ hr hheld]
  rfl

end Sys2Proof.Machine
end

section
/-! ## Bloom: map rows (R180, R182 to R184) -/

namespace Sys2Proof.Machine
open Sys2Proof.Claims

/-! ### The rows that bloom takes -/

theorem Dev.bvSkip_kept {d : Dev} {r : MapRow} (hon : d.bvOn = true) (h : r.layer = d.bvLayer ∨ (d.bit Reg.BV_CFG 5 = false ∧ r.layer = d.bvBase))
    (rest : List MapRow) : d.bvSkip (r :: rest) = r :: rest := if_pos ⟨hon, h⟩

/-- The rows that wait for bloom. -/
def Dev.setRows (d : Dev) (q : List MapRow) : Dev := d.updWm (fun w => { w with rows := q })

/-- The baseline row of a map row, in the baseline ring (R182). -/
def MapRow.baseRow (r : MapRow) : BaseRow :=
  ⟨sgn 64 (r.words.getD 1 0 + 2 ^ 32 * r.words.getD 2 0), (r.words.drop 16).take (r.words.getD 7 0 % 65536)⟩

theorem nfld_low16 (v : Nat) : nfld v 15 0 = v % 65536 := by simp [nfld]

section
variable {d : Dev} {r : MapRow} {rest : List MapRow} (hout : d.bv.out = []) (hon : d.bvOn = true) (hrows : d.wm.rows = r :: rest) (t : Nat)
include hout hon hrows

/-- A baseline row joins the baseline ring. -/
theorem Dev.bvBaselineRow_base (hdry : d.bit Reg.BV_CFG 5 = false) (hbase : r.layer = d.bvBase) (hother : r.layer ≠ d.bvLayer) :
    (d.bvBaselineRow t).1.wm.rows = rest ∧ (d.bvBaselineRow t).1.bv.base = (r.baseRow :: d.bv.base).take (d.fld Reg.BV_DEPTH 23 16) := by
  unfold Dev.bvBaselineRow; dsimp only
  rw [Dev.bvFlush_none hout]; dsimp only
  rw [if_neg (not_not.mpr hout), hrows, Dev.bvSkip_kept hon (.inr ⟨hdry, hbase⟩)]; dsimp only
  rw [if_neg hother, nfld_low16]
  exact ⟨rfl, rfl⟩

/-- A verification row is none for the baseline ring. -/
theorem Dev.bvBaselineRow_other (hlayer : r.layer = d.bvLayer) : d.bvBaselineRow t = (d.setRows (r :: rest), []) := by
  unfold Dev.bvBaselineRow; dsimp only
  rw [Dev.bvFlush_none hout]; dsimp only
  rw [if_neg (not_not.mpr hout), hrows, Dev.bvSkip_kept hon (.inl hlayer)]; dsimp only
  rw [if_pos hlayer]
  rfl

variable (m : Mem) (hlayer : r.layer = d.bvLayer)
include hlayer

theorem Dev.bvVerificationRow_eq : d.bvVerificationRow m t =
    if (List.range 8).any (fun b => !(d.bank b).records.isEmpty) = true then (d.setRows (r :: rest), []) else (d.setRows rest).bvScore m t r := by
  unfold Dev.bvVerificationRow; dsimp only
  rw [Dev.bvFlush_none hout]; dsimp only
  rw [if_neg (not_not.mpr hout), hrows, Dev.bvSkip_kept hon (.inl hlayer)]; dsimp only
  by_cases hwaits : (List.range 8).any (fun b => !(d.bank b).records.isEmpty) = true
  · rw [if_pos (.inr hwaits), if_pos hwaits]
    rfl
  · rw [if_neg fun h => h.elim (fun hne => hne hlayer) hwaits, if_neg hwaits, List.nil_append]
    exact Prod.mk.eta (p := (d.setRows rest).bvScore m t r)

/-- A verification row waits for the fire records. -/
theorem Dev.bvVerificationRow_waits (h : ∃ b, b < 8 ∧ (d.bank b).records ≠ []) : d.bvVerificationRow m t = (d.setRows (r :: rest), []) := by
  obtain ⟨b, hb, hsome⟩ := h
  rw [Dev.bvVerificationRow_eq hout hon hrows t m hlayer]
  exact if_pos (List.any_eq_true.mpr ⟨b, List.mem_range.mpr hb, by simp [hsome]⟩)

theorem Dev.bvVerificationRow_scores (h : ∀ b, b < 8 → (d.bank b).records = []) : d.bvVerificationRow m t = (d.setRows rest).bvScore m t r := by
  rw [Dev.bvVerificationRow_eq hout hon hrows t m hlayer]
  refine if_neg fun hany => ?_
  obtain ⟨b, hb, hsome⟩ := List.any_eq_true.mp hany
  rw [h b (List.mem_range.mp hb)] at hsome
  exact absurd hsome (by decide)

end

/-! ### A verification row that is scored in dry mode (R180, R183, R184) -/

/-- Bloom begins row k; the map may have restarted its grid. -/
def Dev.rowBegun (d : Dev) (t : Nat) (k : Int) : Dev := if k = d.bv.kNext then d else d.bvRestart t k

/-- A row has been scored. -/
def Dev.rowScored (d : Dev) : Dev := (d.bump Reg.BV_CNT_ROWS).updBv (fun v => { v with scored := v.scored + 1 })

/-- Fires that no row after k scores are gone. -/
def Dev.rowDropped (d : Dev) (k : Int) : Dev := d.updBv (fun v => { v with fires := v.fires.filter (fun f => decide (k < f.kc + 1)), rows := v.rows + 1 })

/-- Row k is taken: k_next moves on, and windows that are complete are told. -/
def Dev.rowTaken (d : Dev) (m : Mem) (t : Nat) (k : Int) : Dev × List MemWrite :=
  (List.range 128).foldl (fun (q : Dev × List MemWrite) j =>
    let r := q.1.bvSettle m t j
    (r.1, q.2 ++ r.2)) ((d.rowDropped k).bvSetNext (k + 1), [])

theorem Dev.bvMeasure_dry {d : Dev} (hdry : d.bit Reg.BV_CFG 5 = true) (pos : Int) (cells : List Nat) (notes : List BvNote) : ∃ b cool,
    d.bvMeasure pos cells notes = (d.updBv (fun u => { u with segs := b }), some cool) := by
  unfold Dev.bvMeasure; dsimp only
  rw [if_pos hdry]
  exact ⟨_, _, rfl⟩

theorem Dev.bloomStands_bvShare (d : Dev) (notes : List BvNote) (cool : List (Option Int)) : d.bloomStands (d.bvShare notes cool) := by
  refine Dev.bloomStands_foldl _ (fun e n => ?_) notes d
  dsimp only
  split
  · exact e.bloomStands_setJet _ _
  · exact e.bloomStands_setJet _ _

theorem Dev.bloomStands_setSegs (d : Dev) (b : List (Option Int)) : d.bloomStands (d.updBv (fun u => { u with segs := b })) :=
  ⟨rfl, rfl, rfl, rfl, rfl, fun _ _ _ => rfl, fun _ _ h => h⟩

/-- A read of the stores that finds a bad word tells it. -/
theorem Dev.bloomStands_storeRead (d : Dev) (t a n : Nat) :
    d.bloomStands (if d.poisoned a n then (d.readPoison t 8 a n).bvFault t 0 0x0008 0 else d) := by
  split
  · exact (d.fabricOnly_readPoison t 8 a n).bloomStands.trans (Dev.bloomStands_bvFault _ t 0 8 0)
  · exact d.bloomStands_refl

theorem Dev.bloomStands.dry {d e : Dev} (h : d.bloomStands e) : e.bit Reg.BV_CFG 5 = d.bit Reg.BV_CFG 5 := by
  obtain ⟨-, -, -, -, -, hrd, -⟩ := h
  exact Dev.bit_congr (hrd _ (.inr (.inr (.inr (.inr rfl)))) (by decide)) 5

theorem Dev.bvScore_dry {d : Dev} {t : Nat} {row : MapRow} (hdry : (d.rowBegun t row.k).bit Reg.BV_CFG 5 = true) (m : Mem) : ∃ e f,
    (d.rowBegun t row.k).bloomStands e ∧ e.rowScored.bloomStands f ∧ d.bvScore m t row = f.rowTaken m t row.k := by
  unfold Dev.bvScore; dsimp only
  rw [← Dev.rowBegun]
  generalize hread : List.foldl (fun (d : Dev) j => d.readEntry t j) (d.rowBegun t row.k) _ = e
  have he : (d.rowBegun t row.k).bloomStands e := hread ▸ Dev.bloomStands_foldl _ (fun d j => d.bloomStands_readEntry t j) _ _
  generalize hmeasured : e.bvMeasure _ _ _ = q
  obtain ⟨b, cool, hq⟩ : ∃ b cool, q = (e.updBv (fun u => { u with segs := b }), some cool) :=
    hmeasured ▸ Dev.bvMeasure_dry (he.dry.trans hdry) _ _ _
  rw [hq]; dsimp only
  refine ⟨(e.updBv (fun u => { u with segs := b })).bvShare _ cool, _, ?_, Dev.bloomStands_storeRead _ t _ _, rfl⟩
  exact (he.trans (e.bloomStands_setSegs b)).trans (Dev.bloomStands_bvShare _ _ _)

theorem Dev.bloomStands_bvSpoilAll (d : Dev) : d.bloomStands d.bvSpoilAll := Dev.bloomStands_foldl _ (fun e j => e.bloomStands_setJet j _) _ d

/-- k_next is set, and BV_NEXT shows it. -/
theorem Dev.bvSetNext_law (d : Dev) (k : Int) : (d.bvSetNext k).wm = d.wm ∧ (d.bvSetNext k).bv = { d.bv with kNext := k } ∧
    (d.bvSetNext k).rd Reg.BV_NEXT = BitVec.ofInt 32 k ∧ ∀ a, a ≠ Reg.BV_NEXT → (d.bvSetNext k).rd a = d.rd a :=
  ⟨rfl, rfl, Dev.rd_wr_same _ _ _, fun _ ha => Dev.rd_wr_other _ _ ha⟩

theorem Dev.bvFault_bit (d : Dev) (t el code x : Nat) (hcode : code - 1 < 32) : (d.bvFault t el code x).bit Reg.BV_FAULT (code - 1) = true :=
  (Dev.bit_congr (Dev.rd_fault_other _ t _ code x (by decide)) _).trans (Dev.bit_flag d _ hcode)

/-- A restart of the map's grid drops the fires, and is told (R180). -/
theorem Dev.bvRestart_law (d : Dev) (t : Nat) (k : Int) :
    (d.bvRestart t k).wm = d.wm ∧ (d.bvRestart t k).bv.scored = d.bv.scored ∧ (d.bvRestart t k).bv.fires = [] ∧
      (d.bvRestart t k).bit Reg.BV_FAULT 5 = true ∧ ∀ a, bloomReg a → a ≠ Reg.BV_FAULT → a ≠ Reg.BV_NEXT → (d.bvRestart t k).rd a = d.rd a := by
  have hspoil := (d.updBv (fun v => { v with fires := [] })).bloomStands_bvSpoilAll
  unfold Dev.bvRestart
  generalize (d.updBv (fun v => { v with fires := [] })).bvSpoilAll = e at hspoil ⊢
  obtain ⟨hwm, -, -, hfires, hscored, hrd, -⟩ := hspoil
  obtain ⟨hnwm, hnbv, -, hnrd⟩ := e.bvSetNext_law k
  obtain ⟨hfwm, -, -, hffires, hfscored, hfrd, -⟩ := (e.bvSetNext k).bloomStands_bvFault t 0 6 (unsgn 32 k)
  rw [hnbv] at hffires hfscored
  exact ⟨hfwm.trans (hnwm.trans hwm), hfscored.trans hscored, hffires.trans hfires, Dev.bvFault_bit _ t 0 6 _ (by decide),
    fun a ha hflag hnext => (hfrd a ha hflag).trans ((hnrd a hnext).trans (hrd a ha hflag))⟩

/-- Bloom begins row k: k_next is k, and a restart of the map's grid drops the fires and is told (R180). -/
theorem Dev.rowBegun_law (d : Dev) (t : Nat) (k : Int) :
    (d.rowBegun t k).wm = d.wm ∧ (d.rowBegun t k).bv.scored = d.bv.scored ∧
      (∀ a, bloomReg a → a ≠ Reg.BV_FAULT → a ≠ Reg.BV_NEXT → (d.rowBegun t k).rd a = d.rd a) ∧
      (k ≠ d.bv.kNext → (d.rowBegun t k).bit Reg.BV_FAULT 5 = true ∧ (d.rowBegun t k).bv.fires = []) := by
  unfold Dev.rowBegun
  split
  · next hsame => exact ⟨rfl, rfl, fun _ _ _ _ => rfl, fun hne => absurd hsame hne⟩
  · obtain ⟨hwm, hscored, hfires, hflag, hrd⟩ := d.bvRestart_law t k
    exact ⟨hwm, hscored, hrd, fun _ => ⟨hflag, hfires⟩⟩

/-- A scored row is counted; the flags and the other registers of bloom stand. -/
theorem Dev.rowScored_law (d : Dev) : d.rowScored.wm = d.wm ∧ d.rowScored.bv.fires = d.bv.fires ∧ d.rowScored.bv.scored = d.bv.scored + 1 ∧
    (∀ a, a ≠ Reg.BV_CNT_ROWS → d.rowScored.rd a = d.rd a) ∧
    (d.rdN Reg.BV_CNT_ROWS + 1 < 2 ^ 32 → d.rowScored.rdN Reg.BV_CNT_ROWS = d.rdN Reg.BV_CNT_ROWS + 1) := by
  have hbv : d.rowScored.bv = { d.bv with scored := d.bv.scored + 1 } := congrArg (fun v : Bloom => { v with scored := v.scored + 1 }) (Dev.bump_bv d _)
  refine ⟨Dev.bump_wm d _, by rw [hbv], by rw [hbv], fun a ha => Dev.rd_bump_other d ha,
    fun hroom => Dev.rdN_bumpBy_same d _ 1 hroom⟩

/-- Row k is taken. -/
theorem Dev.rowTaken_law (d : Dev) (m : Mem) (t : Nat) (k : Int) :
    (d.rowTaken m t k).1.wm = d.wm ∧ (d.rowTaken m t k).1.bv.kNext = k + 1 ∧ (d.rowTaken m t k).1.rd Reg.BV_NEXT = BitVec.ofInt 32 (k + 1) ∧
      (d.rowTaken m t k).1.bv.scored = d.bv.scored ∧
      (d.rowTaken m t k).1.bv.fires = d.bv.fires.filter (fun f => decide (k < f.kc + 1)) ∧
      (∀ a, bloomReg a → a ≠ Reg.BV_FAULT → a ≠ Reg.BV_NEXT → (d.rowTaken m t k).1.rd a = d.rd a) ∧
      (∀ i, i < 32 → d.bit Reg.BV_FAULT i = true → (d.rowTaken m t k).1.bit Reg.BV_FAULT i = true) := by
  have hsettled := Dev.bloomStands_foldl_writes (fun q j => ((q.1.bvSettle m t j).1, q.2 ++ (q.1.bvSettle m t j).2))
    (fun q j => q.1.bloomStands_bvSettle t m j) (List.range 128) ((d.rowDropped k).bvSetNext (k + 1), [])
  change ((d.rowDropped k).bvSetNext (k + 1)).bloomStands (d.rowTaken m t k).1 at hsettled
  obtain ⟨hnwm, hnbv, hnnext, hnrd⟩ := (d.rowDropped k).bvSetNext_law (k + 1)
  generalize (d.rowTaken m t k).1 = e at hsettled ⊢
  obtain ⟨hwm, -, hnext, hfires, hscored, hrd, hflags⟩ := hsettled
  rw [hnbv] at hnext hfires hscored
  refine ⟨hwm.trans hnwm, hnext, (hrd _ (.inr (.inl rfl)) (by decide)).trans hnnext, hscored, hfires, fun a ha hflag hne => ?_, fun i hi hb => ?_⟩
  · exact (hrd a ha hflag).trans (hnrd a hne)
  · exact hflags i hi ((Dev.bit_congr (hnrd _ (by decide)) i).trans hb)

/-- A verification row scored in dry mode (R180, R184). -/
theorem Dev.bvScore_law {d : Dev} (hdry : d.bit Reg.BV_CFG 5 = true) (m : Mem) (t : Nat) (row : MapRow) :
    (d.bvScore m t row).1.wm = d.wm ∧ (d.bvScore m t row).1.bv.kNext = row.k + 1 ∧
      (d.bvScore m t row).1.rd Reg.BV_NEXT = BitVec.ofInt 32 (row.k + 1) ∧ (d.bvScore m t row).1.bv.scored = d.bv.scored + 1 ∧
      (∀ f ∈ (d.bvScore m t row).1.bv.fires, row.k < f.kc + 1) ∧
      (row.k ≠ d.bv.kNext → (d.bvScore m t row).1.bit Reg.BV_FAULT 5 = true ∧ (d.bvScore m t row).1.bv.fires = []) ∧
      (d.rdN Reg.BV_CNT_ROWS + 1 < 2 ^ 32 → (d.bvScore m t row).1.rdN Reg.BV_CNT_ROWS = d.rdN Reg.BV_CNT_ROWS + 1) := by
  obtain ⟨hwm, hscored, hrd, hrestart⟩ := d.rowBegun_law t row.k
  have hbegun : (d.rowBegun t row.k).bit Reg.BV_CFG 5 = true :=
    (Dev.bit_congr (hrd _ (.inr (.inr (.inr (.inr rfl)))) (by decide) (by decide)) 5).trans hdry
  obtain ⟨e, f, he, hf, heq⟩ := Dev.bvScore_dry hbegun m
  obtain ⟨hewm, -, -, hefires, hescored, herd, heflags⟩ := he
  obtain ⟨hswm, hsfires, hsscored, hsrd, hscount⟩ := e.rowScored_law
  obtain ⟨hfwm, -, -, hffires, hfscored, hfrd, hfflags⟩ := hf
  obtain ⟨htwm, htnext, htrd, htscored, htfires, hterd, htflags⟩ := f.rowTaken_law m t row.k
  rw [heq]
  refine ⟨htwm.trans (hfwm.trans (hswm.trans (hewm.trans hwm))), htnext, htrd, ?_, fun x hx => ?_, fun hne => ⟨?_, ?_⟩, fun hroom => ?_⟩
  · rw [htscored, hfscored, hsscored, hescored, hscored]
  · rw [htfires] at hx
    exact of_decide_eq_true (List.mem_filter.mp hx).2
  · obtain ⟨hflag, -⟩ := hrestart hne
    exact htflags 5 (by decide) (hfflags 5 (by decide) ((Dev.bit_congr (hsrd _ (by decide)) 5).trans (heflags 5 (by decide) hflag)))
  · obtain ⟨-, hnone⟩ := hrestart hne
    rw [htfires, hffires, hsfires, hefires, hnone, List.filter_nil]
  · have hrows : bloomReg Reg.BV_CNT_ROWS := .inr (.inr (.inl rfl))
    have hcount : e.rdN Reg.BV_CNT_ROWS = d.rdN Reg.BV_CNT_ROWS :=
      Dev.rdN_congr ((herd _ hrows (by decide)).trans (hrd _ hrows (by decide) (by decide)))
    rw [Dev.rdN_congr ((hterd _ hrows (by decide) (by decide)).trans (hfrd _ hrows (by decide))), hscount (by omega), hcount]

theorem exec_bvBaselineRow (s : State) (hr : s.running = true) (hheld : s.dev.fab.held = []) :
    exec .bvBaselineRow s = .next (s.write s.clock.dtime 8 (s.dev.bvBaselineRow s.clock.dtime)) := by
  rw [exec, execBvBaselineRow, State.actWr_free _ _ _ hr hheld]
  rfl

theorem exec_bvVerificationRow (s : State) (hr : s.running = true) (hheld : s.dev.fab.held = []) :
    exec .bvVerificationRow s = .next (s.write s.clock.dtime 8 (s.dev.bvVerificationRow s.mem s.clock.dtime)) := by
  rw [exec, execBvVerificationRow, State.actWr_free _ _ _ hr hheld]
  rfl

end Sys2Proof.Machine
end

section
/-! ## Bloom: commands (R190, R195) -/

namespace Sys2Proof.Machine
open Sys2Proof.Claims

/-- A jet with grade, low, trim and fill cleared, which was last published as p tells. -/
def BvJet.cleared (x : BvJet) (p : Option (Nat × Int × Bool)) : BvJet :=
  { x with grade := 0, low := false, trim := 0, fill := false, limit := false, goodProbes := 0, pub := p }

section
variable (d : Dev) (t j : Nat)

theorem Dev.publish_eq (x : BvJet) : ∃ p, d.publish t j x = d.setJet j { x with pub := p } := by
  unfold Dev.publish; dsimp only
  split
  · exact ⟨x.pub, rfl⟩
  · exact ⟨_, rfl⟩

/-- A jet's change, told where its fill has changed. -/
def Dev.fillTold (d : Dev) (t j : Nat) (fill : Bool) : Dev := if fill then d.raise t 84 j else d

theorem Dev.fillTold_jet (fill : Bool) (i : Nat) : (d.fillTold t j fill).jet i = d.jet i := by
  unfold Dev.fillTold
  split
  · exact Dev.jet_congr (congrArg Bloom.jets (Dev.raise_bv d t 84 j)) i
  · rfl

theorem Dev.fillTold_ev (fill : Bool) : (d.fillTold t j fill).ev = d.ev ++ if fill then [⟨84, BitVec.ofNat 32 j, t⟩] else [] := by
  unfold Dev.fillTold
  split
  · rw [Dev.raise_ev]
  · rw [List.append_nil]

theorem Dev.bvResetJet_eq : ∃ p, d.bvResetJet t j = (d.setJet j ((d.jet j).cleared p)).fillTold t j (d.jet j).fill := by
  obtain ⟨p, hp⟩ := d.publish_eq t j { d.jet j with grade := 0, low := false, trim := 0, fill := false, limit := false, goodProbes := 0 }
  exact ⟨p, by unfold Dev.bvResetJet; dsimp only; rw [hp]; rfl⟩

theorem Dev.bvResetJet_same : ∃ p, (d.bvResetJet t j).jet j = (d.jet j).cleared p := by
  obtain ⟨p, hp⟩ := d.bvResetJet_eq t j
  exact ⟨p, by rw [hp, Dev.fillTold_jet, Dev.jet_setJet_same]⟩

theorem Dev.bvResetJet_other {i : Nat} (h : i ≠ j) : (d.bvResetJet t j).jet i = d.jet i := by
  obtain ⟨p, hp⟩ := d.bvResetJet_eq t j
  rw [hp, Dev.fillTold_jet, Dev.jet_setJet_other _ _ h]

theorem Dev.bvResetJet_ev : (d.bvResetJet t j).ev = d.ev ++ if (d.jet j).fill then [⟨84, BitVec.ofNat 32 j, t⟩] else [] := by
  obtain ⟨p, hp⟩ := d.bvResetJet_eq t j
  rw [hp, Dev.fillTold_ev]
  rfl

/-- Op 3 ends fill, and keeps trim and grade. -/
theorem Dev.bvEndFill_law :
    ((d.bvEndFill t j).jet j).fill = false ∧ ((d.bvEndFill t j).jet j).trim = (d.jet j).trim ∧ ((d.bvEndFill t j).jet j).grade = (d.jet j).grade ∧
      (∀ i, i ≠ j → (d.bvEndFill t j).jet i = d.jet i) ∧
      (d.bvEndFill t j).ev = d.ev ++ if (d.jet j).fill then [⟨84, BitVec.ofNat 32 j, t⟩] else [] := by
  cases hfill : (d.jet j).fill with
  | false =>
    have hsame : d.bvEndFill t j = d := if_neg (by simp [hfill])
    rw [hsame, hfill]
    exact ⟨rfl, rfl, rfl, fun _ _ => rfl, (List.append_nil _).symm⟩
  | true =>
    obtain ⟨p, hp⟩ := d.publish_eq t j { d.jet j with fill := false, goodProbes := 0 }
    have hends : d.bvEndFill t j = (d.setJet j { d.jet j with fill := false, goodProbes := 0, pub := p }).fillTold t j true := by
      unfold Dev.bvEndFill; dsimp only
      rw [if_pos hfill, hp]
      rfl
    rw [hends]
    refine ⟨?_, ?_, ?_, fun i hi => ?_, Dev.fillTold_ev _ t j true⟩
    · rw [Dev.fillTold_jet, Dev.jet_setJet_same]
    · rw [Dev.fillTold_jet, Dev.jet_setJet_same]
    · rw [Dev.fillTold_jet, Dev.jet_setJet_same]
    · rw [Dev.fillTold_jet, Dev.jet_setJet_other _ _ hi]

/-- A reset of one jet changes of no jet what a reset of that jet would keep. -/
theorem Dev.bvResetJet_cleared (i : Nat) (p : Option (Nat × Int × Bool)) : ((d.bvResetJet t j).jet i).cleared p = (d.jet i).cleared p := by
  by_cases hi : i = j
  · obtain ⟨q, hq⟩ := d.bvResetJet_same t j
    rw [hi, hq]
    rfl
  · rw [Dev.bvResetJet_other d t j hi]

/-- Op 2 clears each jet as op 1 does. -/
theorem Dev.bvResetJets_cleared (l : List Nat) {i : Nat} (hi : i ∈ l) : ∃ p, (l.foldl (fun d j => d.bvResetJet t j) d).jet i = (d.jet i).cleared p := by
  induction l generalizing d with
  | nil => exact absurd hi List.not_mem_nil
  | cons j l ih =>
    rw [List.foldl_cons]
    by_cases hl : i ∈ l
    · obtain ⟨p, hp⟩ := ih (d.bvResetJet t j) hl
      exact ⟨p, by rw [hp, Dev.bvResetJet_cleared]⟩
    · obtain rfl : i = j := (List.mem_cons.mp hi).resolve_right hl
      rw [Dev.foldl_keeps_mem (fun e => e.jet i) _ l fun e k hk => e.bvResetJet_other t k fun hik => hl (hik ▸ hk)]
      exact d.bvResetJet_same t i

end

section
variable (s : State) (hr : s.running = true)
include hr

theorem exec_bvResetJet (j : Fin 128) : exec (.bvResetJet j) s = .next (s.withDev (s.dev.bvResetJet s.clock.dtime j)) := by
  rw [exec, execBvResetJet, State.act_running _ _ hr]
  rfl

theorem exec_bvEndFill (j : Fin 128) : exec (.bvEndFill j) s = .next (s.withDev (s.dev.bvEndFill s.clock.dtime j)) := by
  rw [exec, execBvEndFill, State.act_running _ _ hr]
  rfl

theorem exec_bvResetAll : exec .bvResetAll s = .next (s.withDev (s.dev.bvResetAll s.clock.dtime)) := by
  rw [exec, execBvResetAll, State.act_running _ _ hr]
  rfl

end

end Sys2Proof.Machine
end

section
/-! ## The map takes frames, samples and rows; bloom takes fires, rows and commands (R153 to R195) -/

namespace Sys2Proof.Machine
open Sys2Proof.Claims

theorem Dev.lineOn_iff (d : Dev) (h : Nat) : d.lineOn h = true ↔ (d.layer (d.lineLayer h)).on = true ∧ nbit ((d.mapHead h).cfg.getD 0 0) 0 = true ∧
    nbit ((d.mapHead h).cfg.getD 8 0) 0 = true ∧ nbit ((d.mapHead h).cfg.getD 9 0) 0 = true := by
  simp only [Dev.lineOn, Bool.and_eq_true, and_assoc]

/-- A layer that waits for credit is noted once. -/
theorem mem_noted (l : Nat) (q : List Nat) : l ∈ if q.contains l then q else l :: q := by
  split
  · next h => exact List.contains_iff_mem.mp h
  · exact List.mem_cons_self

/-! ### Geometry tables -/

section
variable {s : State} (hr : s.running = true)
include hr

theorem geometry_loads (h : Fin 8) (ok : Bool) (hwaits : s.dev.geomPending h = true) :
    ∃ t, exec (.wmGeometryLoadDone h ok) s = .next t ∧ deviceOnly s t ∧ t.dev.geomPending h = false ∧
      (quietMemory s.dev → ok = true → t.dev.flt = s.dev.flt ∧ ∀ i, i < 2048 →
        (t.dev.mapHead h).table[i]? = some (some (sgn 32 (s.mem.frameNat ((s.dev.mapHead h).cfg.getD 1 0 + 4 * i) 4)))) ∧
      (ok = false → quietMemory s.dev → recorded s.dev t.dev ⟨s.clock.dtime, uid 7 0 0, 3, BitVec.ofNat 32 (4 * h + 32)⟩ ∧
        (∀ i, i < 2048 → (t.dev.mapHead h).table[i]? = some none)) := by
  refine ⟨_, exec_wmGeometryLoadDone s hr h ok, deviceOnly_withDev _ _, Dev.geomLoadDone_loaded hwaits _ _ ok, ?_, ?_⟩
  · rintro hquiet rfl
    exact Dev.geomLoadDone_ok hwaits _ _ hquiet
  · rintro rfl hquiet
    exact Dev.geomLoadDone_fails hwaits _ _ hquiet

/-! ### Samples -/

variable (hquiet : quietMemory s.dev) (p : Fin 2) {h y x0 : Nat} {ws : List Nat} {q : List MapItem} (hqueue : s.dev.mapQueue p = .line h y x0 ws :: q)
include hquiet hqueue

theorem beat_dropped (hoff : s.dev.lineOn h = false) : ∃ t, exec (.wmSampleBeat p) s = .next t ∧ deviceOnly s t ∧
    t.dev.mapQueue p = dropBeat (.line h y x0 ws :: q) ∧ t.dev.wm.layers = s.dev.wm.layers ∧ ∀ a, t.dev.rd a = s.dev.rd a := by
  obtain ⟨m, hm⟩ := exec_wmSampleBeat s hr hquiet p (Dev.sampleBeat_off hqueue s.clock.dtime hoff) (Dev.beatGone_fab _ _ _ _) (Dev.beatGone_tk _ _ _ _)
  refine ⟨_, hm, ⟨rfl, rfl, rfl⟩, ?_, Dev.beatGone_layers _ _ _ _, fun a => congrFun (Dev.beatGone_rd s.dev p _) a⟩
  exact (congrArg (SMap.get [] · p.val) (Dev.beatGone_queues s.dev p _ 0)).trans (SMap.get_set_same _ _ _ _)

theorem beat_stops (hon : s.dev.lineOn h = true) (hwaits : s.dev.geomPending h = true ∨ (s.dev.layer (s.dev.lineLayer h)).drain.isSome = true) :
    exec (.wmSampleBeat p) s = .next s := by
  obtain ⟨hheld, -⟩ := hquiet
  rw [exec, execWmSampleBeat, State.actWr_free _ _ _ hr hheld]
  refine congrArg Host.Outcome.next ?_
  rw [State.now_dtime, Dev.sampleBeat_stops hqueue _ hon hwaits]
  dsimp only
  rw [Dev.workFrom_self, State.write_nothing _ _ _ _ hheld]
  rfl

variable (hon : s.dev.lineOn h = true) (hloaded : s.dev.geomPending h = false) (hdrain : (s.dev.layer (s.dev.lineLayer h)).drain = none)
  (hlow : (s.dev.mapHead h).sweet.1 ≤ y) (hhigh : y ≤ (s.dev.mapHead h).sweet.2) {j v : Nat}
  (hsample : s.dev.beatSamples h x0 (ws.take 16) = ([(j, .usable v)], 0))
include hon hloaded hdrain hlow hhigh hsample

theorem beat_ahead (hahead : s.dev.lastOpen (s.dev.lineLayer h) < s.dev.lineRow h y) : ∃ t, exec (.wmSampleBeat p) s = .next t ∧ deviceOnly s t ∧
    t.dev.mapQueue p = .line h y x0 ws :: q ∧ t.dev.wm.layers = s.dev.wm.layers ∧ p.val ∈ t.dev.wm.ahead ∧
    (p.val ∉ s.dev.wm.ahead → s.dev.rdN Reg.WM_CNT_AHEAD + 1 < 2 ^ 32 →
      t.dev.rdN Reg.WM_CNT_AHEAD = s.dev.rdN Reg.WM_CNT_AHEAD + 1 ∧ t.dev.bit Reg.WM_FAULT 1 = true) := by
  obtain ⟨ends, _, hbeat⟩ := Dev.sampleBeat_band hqueue s.clock.dtime hon hloaded hdrain hlow hhigh
  rw [hsample, Dev.beatWork_ahead _ _ _ _ _ _ _ _ _ hahead] at hbeat
  obtain ⟨hqueues, hlayers, hnow, hfab, htk, hcount⟩ :=
    s.dev.mapAhead_law s.clock.dtime p h (s.dev.lineRow h y - s.dev.lastOpen (s.dev.lineLayer h))
  obtain ⟨m, hm⟩ := exec_wmSampleBeat s hr hquiet p hbeat hfab htk
  exact ⟨_, hm, ⟨rfl, rfl, rfl⟩, (congrArg (SMap.get [] · p.val) hqueues).trans hqueue, hlayers, hnow, hcount⟩

theorem beat_behind (hopen : ¬ s.dev.lastOpen (s.dev.lineLayer h) < s.dev.lineRow h y)
    (hbehind : s.dev.lineRow h y < (s.dev.layer (s.dev.lineLayer h)).kFirst) : ∃ t, exec (.wmSampleBeat p) s = .next t ∧ deviceOnly s t ∧
    t.dev.mapQueue p = dropBeat (.line h y x0 ws :: q) ∧ p.val ∉ t.dev.wm.ahead ∧ t.dev.wm.layers = s.dev.wm.layers ∧
    (s.dev.rdN Reg.WM_CNT_BEHIND + 1 < 2 ^ 32 → t.dev.rdN Reg.WM_CNT_BEHIND = s.dev.rdN Reg.WM_CNT_BEHIND + 1) := by
  obtain ⟨ends, _, hbeat⟩ := Dev.sampleBeat_band hqueue s.clock.dtime hon hloaded hdrain hlow hhigh
  have hwork := s.dev.beatWork_behind s.clock.dtime p h y (dropBeat (.line h y x0 ws :: q)) ends j v hopen hbehind
  rw [hsample] at hbeat
  generalize s.dev.beatWork s.clock.dtime p h y (dropBeat (.line h y x0 ws :: q)) ends ([(j, .usable v)], 0) = r at hbeat hwork
  obtain ⟨e, ws'⟩ := r
  obtain ⟨hnone, hqueues, hlayers, hgone, hfab, htk, hrd⟩ := hwork
  obtain rfl : ws' = [] := hnone
  have hwm : ((s.dev.beatGone p (dropBeat (.line h y x0 ws :: q)) 0).bumpBy Reg.WM_CNT_BEHIND 1).wm = (s.dev.beatGone p (dropBeat (.line h y x0 ws :: q)) 0).wm :=
    Dev.bumpBy_wm _ _ _
  rw [hwm] at hqueues hlayers hgone
  obtain ⟨m, hm⟩ := exec_wmSampleBeat s hr hquiet p hbeat (hfab.trans ((Dev.bumpBy_fab _ _ _).trans (Dev.beatGone_fab _ _ _ _)))
    (htk.trans ((Dev.bumpBy_tk _ _ _).trans (Dev.beatGone_tk _ _ _ _)))
  refine ⟨_, hm, ⟨rfl, rfl, rfl⟩, ?_, ?_, hlayers.trans (Dev.beatGone_layers _ _ _ _), fun hroom => ?_⟩
  · exact (congrArg (SMap.get [] · p.val) (hqueues.trans (Dev.beatGone_queues _ _ _ _))).trans (SMap.get_set_same _ _ _ _)
  · exact hgone ▸ Dev.beatGone_ahead _ _ _ _
  · have hcount : (s.dev.beatGone p (dropBeat (.line h y x0 ws :: q)) 0).rdN Reg.WM_CNT_BEHIND = s.dev.rdN Reg.WM_CNT_BEHIND :=
      Dev.rdN_congr (congrFun (Dev.beatGone_rd _ _ _) _)
    refine (Dev.rdN_congr (hrd _ (by unfold Reg.WM_CNT_BEHIND Reg.WM_Hh_FRONT_LO; omega))).trans ?_
    rw [Dev.rdN_bumpBy_same _ _ _ (by omega), hcount]

theorem beat_joins (hopen : ¬ s.dev.lastOpen (s.dev.lineLayer h) < s.dev.lineRow h y)
    (hinside : ¬ s.dev.lineRow h y < (s.dev.layer (s.dev.lineLayer h)).kFirst) : ∃ t w, exec (.wmSampleBeat p) s = .next t ∧ t.pending = s.pending ∧
    t.clock = s.clock ∧ t.mem = s.mem.writes (frameWrites (s.dev.storeCell (s.dev.lineLayer h) (s.dev.lineRow h y) j h) 8 w) ∧
    t.dev.mapQueue p = dropBeat (.line h y x0 ws :: q) ∧ p.val ∉ t.dev.wm.ahead ∧
    (t.dev.layer (s.dev.lineLayer h)).cells = assign (s.dev.layer (s.dev.lineLayer h)).cells (s.dev.lineRow h y, j, h)
      ((cellAt (s.dev.layer (s.dev.lineLayer h)).cells (s.dev.lineRow h y) j h).take (.usable v) (s.dev.mapHead h).prov).1 := by
  obtain ⟨ends, _, hbeat⟩ := Dev.sampleBeat_band hqueue s.clock.dtime hon hloaded hdrain hlow hhigh
  obtain ⟨e, w, hwork, hqueues, hgone, hfab, htk, hcells⟩ :=
    s.dev.beatWork_placed s.clock.dtime p h y (dropBeat (.line h y x0 ws :: q)) ends j v hquiet hopen hinside
  rw [hsample, hwork] at hbeat
  obtain ⟨m, hm⟩ := exec_wmSampleBeat s hr hquiet p hbeat hfab htk
  exact ⟨_, w, hm, rfl, rfl, rfl, (congrArg (SMap.get [] · p.val) hqueues).trans (SMap.get_set_same _ _ _ _), hgone, hcells⟩

/-- A usable sample of a beat that lies in the sweet band (R156, R158). -/
theorem beat_taken : ∃ t, exec (.wmSampleBeat p) s = .next t ∧ t.pending = s.pending ∧ t.clock = s.clock ∧
    (s.dev.lastOpen (s.dev.lineLayer h) < s.dev.lineRow h y ∨ s.dev.lineRow h y < (s.dev.layer (s.dev.lineLayer h)).kFirst → t.mem = s.mem) ∧
    (∀ a, a < s.dev.storeCell (s.dev.lineLayer h) (s.dev.lineRow h y) j h ∨ s.dev.storeCell (s.dev.lineLayer h) (s.dev.lineRow h y) j h + 8 ≤ a →
      t.mem.frameByte a = s.mem.frameByte a) ∧
    (∀ a, t.mem.locByte a = s.mem.locByte a) ∧ (∀ i, t.mem.lastRec i = s.mem.lastRec i) ∧
    if s.dev.lastOpen (s.dev.lineLayer h) < s.dev.lineRow h y then
      t.dev.mapQueue p = .line h y x0 ws :: q ∧ t.dev.wm.layers = s.dev.wm.layers ∧ p.val ∈ t.dev.wm.ahead ∧
      (p.val ∉ s.dev.wm.ahead → s.dev.rdN Reg.WM_CNT_AHEAD + 1 < 2 ^ 32 →
        t.dev.rdN Reg.WM_CNT_AHEAD = s.dev.rdN Reg.WM_CNT_AHEAD + 1 ∧ t.dev.bit Reg.WM_FAULT 1 = true)
    else t.dev.mapQueue p = dropBeat (.line h y x0 ws :: q) ∧ p.val ∉ t.dev.wm.ahead ∧
      if s.dev.lineRow h y < (s.dev.layer (s.dev.lineLayer h)).kFirst then t.dev.wm.layers = s.dev.wm.layers ∧
        (s.dev.rdN Reg.WM_CNT_BEHIND + 1 < 2 ^ 32 → t.dev.rdN Reg.WM_CNT_BEHIND = s.dev.rdN Reg.WM_CNT_BEHIND + 1)
      else ((cellAt (s.dev.layer (s.dev.lineLayer h)).cells (s.dev.lineRow h y) j h).n < 255 →
          cellAt (t.dev.layer (s.dev.lineLayer h)).cells (s.dev.lineRow h y) j h =
            let c := cellAt (s.dev.layer (s.dev.lineLayer h)).cells (s.dev.lineRow h y) j h
            { c with n := c.n + 1, sum := c.sum + v, prov := c.prov || (s.dev.mapHead h).prov }) ∧
        ∀ k' j' h', (k', j', h') ≠ (s.dev.lineRow h y, j, h) →
          cellAt (t.dev.layer (s.dev.lineLayer h)).cells k' j' h' = cellAt (s.dev.layer (s.dev.lineLayer h)).cells k' j' h' := by
  by_cases hahead : s.dev.lastOpen (s.dev.lineLayer h) < s.dev.lineRow h y
  · obtain ⟨t, hexec, ⟨hpending, hclock, hmem⟩, hlaw⟩ := beat_ahead hr hquiet p hqueue hon hloaded hdrain hlow hhigh hsample hahead
    refine ⟨t, hexec, hpending, hclock, fun _ => hmem, fun _ _ => by rw [hmem], fun _ => by rw [hmem], fun _ => by rw [hmem], ?_⟩
    rw [if_pos hahead]
    exact hlaw
  · by_cases hbehind : s.dev.lineRow h y < (s.dev.layer (s.dev.lineLayer h)).kFirst
    · obtain ⟨t, hexec, ⟨hpending, hclock, hmem⟩, hlaw⟩ := beat_behind hr hquiet p hqueue hon hloaded hdrain hlow hhigh hsample hahead hbehind
      refine ⟨t, hexec, hpending, hclock, fun _ => hmem, fun _ _ => by rw [hmem], fun _ => by rw [hmem], fun _ => by rw [hmem], ?_⟩
      rw [if_neg hahead, if_pos hbehind]
      exact hlaw
    · obtain ⟨t, w, hexec, hpending, hclock, hmem, hgone, hnot, hcells⟩ := beat_joins hr hquiet p hqueue hon hloaded hdrain hlow hhigh hsample hahead hbehind
      refine ⟨t, hexec, hpending, hclock, fun hout => (hout.elim hahead hbehind).elim, fun a ha => ?_, fun a => ?_, fun i => ?_, ?_⟩
      · rw [hmem, Mem.frameWrites_read, if_neg (by omega)]
      · rw [hmem, (Mem.frameWrites_keeps _ _ _ _ a).1]
      · rw [hmem, (Mem.frameWrites_keeps _ _ _ _ i).2]
      · rw [if_neg hahead, if_neg hbehind]
        refine ⟨hgone, hnot, fun hroom => ?_, fun k' j' h' hne => ?_⟩
        · rw [hcells, cellAt, lookupD_assign, if_pos rfl, CellHead.take_usable hroom]
        · rw [hcells, cellAt, lookupD_assign, if_neg hne, cellAt]

end

/-! ### Statistics records -/

/-- A statistics record that is counted and told leaves its unit's queue and ring. -/
theorem Dev.recordDone_stats_law (d : Dev) (t p : Nat) (r : StatRec) : (d.recordDone t (r.ringRec p)).wm = d.wm ∧
    (d.recordDone t (r.ringRec p)).fab = d.fab ∧ (d.recordDone t (r.ringRec p)).tk = d.tk ∧
    (d.recordDone t (r.ringRec p)).ev = d.ev ++ [⟨if r.zone then 74 else 73, BitVec.ofNat 32 (r.head + 8 * p), t⟩] ∧
    ∀ a, belowWP a → a ≠ Reg.WM_CNT_STATS → (d.recordDone t (r.ringRec p)).rd a = d.rd a := by
  rw [Dev.recordDone_stats]
  exact ⟨(Dev.raise_wm ..).trans (Dev.bump_wm _ _), (Dev.raise_fab ..).trans (Dev.bump_fab _ _), (Dev.raise_tk ..).trans (Dev.bump_tk _ _),
    (Dev.raise_ev ..).trans (congrArg (· ++ _) (Dev.bump_ev d _)),
    fun a hlow hne => (Dev.raise_rd _ _ _ _ (not_outputReg_of_belowWP hlow)).trans (Dev.rd_bump_other d hne)⟩

theorem stats_told {s : State} (hr : s.running = true) (hquiet : quietMemory s.dev) (p : Fin 2) {r : StatRec} {rest : List StatRec}
    (hstats : SMap.get [] s.dev.wm.stats p = r :: rest) :
    ∃ t, exec (.wmStatsRecord p) s = .next t ∧ t.pending = s.pending ∧ t.clock = s.clock ∧
      (nbit r.ring.1 0 = false → SMap.get [] t.dev.wm.stats p = rest ∧ t.mem = s.mem ∧ t.dev.ev = s.dev.ev) ∧
      (nbit r.ring.1 0 = true → nbit r.ring.1 1 = false →
        if 4 * r.words.length ≤ frameRoom (2 ^ (nfld r.ring.1 11 8 + 16)) (s.dev.rdN (Reg.WM_SRp_WR p)) (s.dev.rdN (Reg.WM_SRp_RD p)) then
          SMap.get [] t.dev.wm.stats p = rest ∧
          t.dev.rd (Reg.WM_SRp_WR p) = BitVec.ofNat 32 ((s.dev.rdN (Reg.WM_SRp_WR p) + 4 * r.words.length) % 2 ^ (nfld r.ring.1 11 8 + 16)) ∧
          t.mem = s.mem.writes (frameRingWrites r.ring.2 (2 ^ (nfld r.ring.1 11 8 + 16)) (s.dev.rdN (Reg.WM_SRp_WR p)) r.words) ∧
          t.dev.ev = s.dev.ev ++ [⟨if r.zone then 74 else 73, BitVec.ofNat 32 (r.head + 8 * p), s.clock.dtime⟩]
        else SMap.get [] t.dev.wm.stats p = { r with waited := true } :: rest ∧ t.mem = s.mem ∧ t.dev.ev = s.dev.ev ∧
          (r.waited = false → s.dev.rdN (Reg.WM_SRp_STALL p) + 1 < 2 ^ 32 → t.dev.rdN (Reg.WM_SRp_STALL p) = s.dev.rdN (Reg.WM_SRp_STALL p) + 1)) := by
  obtain ⟨hheld, -⟩ := id hquiet
  have hexec := exec_wmStatsRecord s hr hheld p
  refine ⟨_, hexec, rfl, rfl, fun hoff => ?_, fun hon hlocal => ?_⟩
  · rw [Dev.statsRecord_off hstats s.clock.dtime hoff]
    obtain ⟨m, hm⟩ := State.write_workFrom s s.clock.dtime 7 s.clock.dtime (e := s.dev.statsGone p rest) [] hquiet rfl rfl
    rw [hm]
    exact ⟨Dev.statsGone_stats _ _ _, rfl, rfl⟩
  · split
    · next hroom =>
      rw [Dev.statsRecord_fits hstats s.clock.dtime hon hlocal hroom]
      obtain ⟨hwm, hfab, htk, hev, hrd⟩ := ((s.dev.wrN (Reg.WM_SRp_WR p) ((s.dev.rdN (Reg.WM_SRp_WR p) + 4 * r.words.length) %
        2 ^ (nfld r.ring.1 11 8 + 16))).statsGone p rest).recordDone_stats_law s.clock.dtime p r
      obtain ⟨m, hm⟩ := State.write_workFrom s s.clock.dtime 7 s.clock.dtime (frameRingWrites r.ring.2 (2 ^ (nfld r.ring.1 11 8 + 16))
        (s.dev.rdN (Reg.WM_SRp_WR p)) r.words) hquiet hfab htk
      rw [hm]
      refine ⟨?_, ?_, rfl, hev⟩
      · exact (congrArg (fun w : WebMap => SMap.get [] w.stats p.val) hwm).trans (Dev.statsGone_stats _ _ _)
      · refine (hrd _ ?_ ?_).trans (Dev.rd_wrN_same _ _ _)
        · simp only [belowWP, Reg.WM_SRp_WR]; omega
        · simp only [Reg.WM_SRp_WR, Reg.WM_CNT_STATS]; omega
    · next hroom =>
      rw [Dev.statsRecord_stalls hstats s.clock.dtime hon hlocal hroom]
      obtain ⟨hwaits, hev, hfab, htk, hstall⟩ := Dev.statsWait_law hstats
      obtain ⟨m, hm⟩ := State.write_workFrom s s.clock.dtime 7 s.clock.dtime [] hquiet hfab htk
      rw [hm]
      exact ⟨hwaits, rfl, hev, hstall⟩

/-! ### Fire records -/

theorem fire_taken {s : State} (hr : s.running = true) (b : Fin 8) {r : List Nat} {rest : List (List Nat)} (hout : s.dev.bv.out = [])
    (hheld : s.dev.fab.held = []) (hrecords : (s.dev.bank b).records = r :: rest) (hgap : nbit (r.getD 1 0) 15 = false) :
    ∃ t, exec (.bvFireRecord b) s = .next t ∧ t.pending = s.pending ∧ t.clock = s.clock ∧ (t.dev.bank b).records = rest ∧
      (s.dev.bvOn = false ∨ nbit (r.getD 1 0) 10 = true → t.dev.bv = s.dev.bv) ∧
      (s.dev.bvOn = true → nbit (r.getD 1 0) 10 = false → quietMemory s.dev → (s.dev.jetEntry s.mem (fireJet b r)).scored = true →
        (s.dev.jet (fireJet b r)).fill = false →
        (s.dev.bv.kNext ≤ s.dev.fireRow s.mem (fireJet b r) (firePos r) - 1 →
          s.dev.fireRow s.mem (fireJet b r) (firePos r) + 1 < s.dev.bv.kNext + s.dev.fld Reg.BV_DEPTH 11 0 →
          (∀ a, (∀ q ∈ s.dev.firePlaces (fireJet b r) (s.dev.fireRow s.mem (fireJet b r) (firePos r)), a < q ∨ q + 4 ≤ a) →
            t.mem.frameByte a = s.mem.frameByte a) ∧
          (∀ a, t.mem.locByte a = s.mem.locByte a) ∧ (∀ i, t.mem.lastRec i = s.mem.lastRec i) ∧
          ∃ no, t.dev.bv.fires = s.dev.bv.fires ++ [⟨fireJet b r, s.dev.fireRow s.mem (fireJet b r) (firePos r), some no, true⟩] ∧
            ((s.dev.jet (fireJet b r)).wins = [] → no = (s.dev.jet (fireJet b r)).winNo + 1 ∧
              (t.dev.jet (fireJet b r)).wins = [⟨no, 1, b2n (nbit (r.getD 1 0) 14), 0, 0, 0, false⟩] ∧ (t.dev.jet (fireJet b r)).winNo = no) ∧
            ∀ w, (s.dev.jet (fireJet b r)).wins = [w] → w.fires < s.dev.bvWindow → no = w.no ∧
              (t.dev.jet (fireJet b r)).wins = [{ w with fires := w.fires + 1, dips := w.dips + b2n (nbit (r.getD 1 0) 14) }]) ∧
        (s.dev.fireRow s.mem (fireJet b r) (firePos r) - 1 < s.dev.bv.kNext → s.dev.rdN Reg.BV_CNT_LATE + 1 < 2 ^ 32 →
          t.dev.rdN Reg.BV_CNT_LATE = s.dev.rdN Reg.BV_CNT_LATE + 1 ∧ t.dev.bit Reg.BV_FAULT 2 = true)) := by
  obtain ⟨-, hbv, hvb, hrd⟩ := (s.dev.bvFireRecord s.mem s.clock.dtime b).1.fabricOnly_land s.clock.dtime 8 (s.dev.bvFireRecord s.mem s.clock.dtime b).2
  refine ⟨_, exec_bvFireRecord s hr hheld b, rfl, rfl, ?_, fun hidle => ?_,
    fun hon hmade hquiet hscored hfill => ⟨fun hlow hhigh => ?_, fun hlate hroom => ?_⟩⟩
  · rw [State.write_dev, Dev.bank_congr (hvb.trans (Dev.bvFireRecord_vb hout hrecords hgap s.mem s.clock.dtime))]
    exact Dev.recordTaken_records _ _ _
  · rw [State.write_dev, hbv, Dev.bvFireRecord_drops hout hrecords hgap s.mem s.clock.dtime hidle]
    rfl
  · obtain ⟨hstill, hwrites, hjet, hfires⟩ :=
      Dev.bvFireRecord_inside hout hrecords hgap s.mem s.clock.dtime hquiet hon hmade hscored hfill hlow hhigh
    rw [State.write_quiet s s.clock.dtime 8 _ hstill, hwrites]
    obtain ⟨hframe, hloc, hlast⟩ := s.dev.storeFree_keeps (s.dev.firePlaces (fireJet b r) (s.dev.fireRow s.mem (fireJet b r) (firePos r))) s.mem
    refine ⟨hframe, hloc, hlast, _, hfires, fun hnone => ?_, fun w hone hfull => ?_⟩
    · rw [hjet, BvJet.count_none hnone]
      exact ⟨rfl, rfl, rfl⟩
    · rw [hjet, BvJet.count_one hone hfull]
      exact ⟨rfl, rfl⟩
  · obtain ⟨hcount, hflag⟩ := Dev.bvFireRecord_late hout hrecords hgap s.mem s.clock.dtime hquiet hon hmade hscored hlate hroom
    exact ⟨(Dev.rdN_congr (hrd _ (by unfold fabricReg; decide))).trans hcount, (Dev.bit_congr (hrd _ (by unfold fabricReg; decide)) 2).trans hflag⟩

/-! ### Map rows at bloom -/

section
variable {s : State} (hr : s.running = true) (hout : s.dev.bv.out = []) (hheld : s.dev.fab.held = []) (hon : s.dev.bvOn = true) {r : MapRow}
  {rest : List MapRow} (hrows : s.dev.wm.rows = r :: rest)
include hr hout hheld hon hrows

theorem baseline_joins (hdry : s.dev.bit Reg.BV_CFG 5 = false) (hbase : r.layer = s.dev.bvBase) (hother : r.layer ≠ s.dev.bvLayer) :
    ∃ t, exec .bvBaselineRow s = .next t ∧ t.pending = s.pending ∧ t.clock = s.clock ∧ t.dev.wm.rows = rest ∧
      t.dev.bv.base = (r.baseRow :: s.dev.bv.base).take (s.dev.fld Reg.BV_DEPTH 23 16) := by
  obtain ⟨hwm, hbv, -⟩ := (s.dev.bvBaselineRow s.clock.dtime).1.fabricOnly_land s.clock.dtime 8 (s.dev.bvBaselineRow s.clock.dtime).2
  obtain ⟨hleft, hjoined⟩ := Dev.bvBaselineRow_base hout hon hrows s.clock.dtime hdry hbase hother
  exact ⟨_, exec_bvBaselineRow s hr hheld, rfl, rfl, (congrArg WebMap.rows hwm).trans hleft, (congrArg Bloom.base hbv).trans hjoined⟩

theorem baseline_passes (hlayer : r.layer = s.dev.bvLayer) :
    ∃ t, exec .bvBaselineRow s = .next t ∧ t.pending = s.pending ∧ t.clock = s.clock ∧ t.dev.wm.rows = r :: rest ∧ t.dev.bv = s.dev.bv := by
  have hexec := exec_bvBaselineRow s hr hheld
  rw [Dev.bvBaselineRow_other hout hon hrows s.clock.dtime hlayer, State.write_nothing s _ _ (s.dev.setRows (r :: rest)) hheld] at hexec
  exact ⟨_, hexec, rfl, rfl, rfl, rfl⟩

theorem verification_scored (hlayer : r.layer = s.dev.bvLayer) :
    ∃ t, exec .bvVerificationRow s = .next t ∧ t.pending = s.pending ∧ t.clock = s.clock ∧
      ((∃ b, b < 8 ∧ (s.dev.bank b).records ≠ []) → t.dev.wm.rows = r :: rest ∧ t.dev.bv = s.dev.bv) ∧
      ((∀ b, b < 8 → (s.dev.bank b).records = []) → s.dev.bit Reg.BV_CFG 5 = true →
        t.dev.wm.rows = rest ∧ t.dev.bv.kNext = r.k + 1 ∧ t.dev.rd Reg.BV_NEXT = BitVec.ofInt 32 (r.k + 1) ∧ t.dev.bv.scored = s.dev.bv.scored + 1 ∧
        (∀ f ∈ t.dev.bv.fires, r.k < f.kc + 1) ∧ (r.k ≠ s.dev.bv.kNext → t.dev.bit Reg.BV_FAULT 5 = true ∧ t.dev.bv.fires = []) ∧
        (s.dev.rdN Reg.BV_CNT_ROWS + 1 < 2 ^ 32 → t.dev.rdN Reg.BV_CNT_ROWS = s.dev.rdN Reg.BV_CNT_ROWS + 1)) := by
  obtain ⟨hlwm, hlbv, -, hlrd⟩ :=
    (s.dev.bvVerificationRow s.mem s.clock.dtime).1.fabricOnly_land s.clock.dtime 8 (s.dev.bvVerificationRow s.mem s.clock.dtime).2
  refine ⟨_, exec_bvVerificationRow s hr hheld, rfl, rfl, fun hwaits => ?_, fun hnone hdry => ?_⟩
  · rw [Dev.bvVerificationRow_waits hout hon hrows s.clock.dtime s.mem hlayer hwaits, State.write_nothing s _ _ (s.dev.setRows (r :: rest)) hheld]
    exact ⟨rfl, rfl⟩
  · obtain ⟨hwm, hnext, hrnext, hscored, hfires, hrestart, hcount⟩ := Dev.bvScore_law (d := s.dev.setRows rest) hdry s.mem s.clock.dtime r
    rw [← Dev.bvVerificationRow_scores hout hon hrows s.clock.dtime s.mem hlayer hnone] at hwm hnext hrnext hscored hfires hrestart hcount
    rw [State.write_dev, hlwm, hlbv, hlrd _ (by unfold fabricReg; decide), Dev.bit_congr (hlrd Reg.BV_FAULT (by unfold fabricReg; decide)),
      Dev.rdN_congr (hlrd Reg.BV_CNT_ROWS (by unfold fabricReg; decide))]
    exact ⟨congrArg WebMap.rows hwm, hnext, hrnext, hscored, hfires, hrestart, hcount⟩

end

/-- Settles O26: each command is one update of the device, whose parts are settled above; what lands late or waits for a lock is the fabric's. -/
theorem mapAndBloomTakeTheirInputs : Obligations.MapAndBloomTakeTheirInputs := by
  intro s hr
  refine ⟨fun h ok => ⟨fun hidle => ?_, geometry_loads hr h ok⟩, ?_, ?_, ?_, ?_, ?_, ?_, ?_, ?_⟩
  · rw [exec_wmGeometryLoadDone s hr, Dev.geomLoadDone_idle hidle]
    rfl
  · intro p h hw q hh hswaps hqueue
    have hexec := exec_wmFrameFirstLine s hr hswaps p
    refine ⟨fun hwaits => ?_, fun hfree hlines => ?_, fun hfree hlines hlast => ?_⟩
    · rw [Dev.firstLine_waits hqueue s.clock.dtime hwaits] at hexec
      exact ⟨_, hexec, deviceOnly_withDev _ _, Dev.mapQueue_setMapQueue_same _ _ _, rfl, rfl⟩
    · rw [Dev.firstLine_frame hqueue s.clock.dtime hfree hlines] at hexec
      obtain ⟨hseq, hprev, hwpos, hv, hrseq, hrspeed, hnear, hfar⟩ := s.dev.mapFrame_law s.clock.dtime hw hh
      refine ⟨_, hexec, deviceOnly_withDev _ _, Dev.mapQueue_setMapQueue_same _ _ _, hseq, hprev, hwpos, hrseq, hrspeed.trans (congrArg _ hv.symm),
        fun pd pw hbefore hlater hsoon => ?_, fun hfirst hroom => ?_⟩
      · have hspeed := MapHead.near_of_stamps hbefore hlater hsoon
        exact ⟨hv.trans (Dev.frameSpeed_near hbefore hspeed), hnear hspeed⟩
      · exact ⟨hv.trans (Dev.frameSpeed_first _ hw hfirst), hfar (MapHead.near_none hw hfirst) hroom⟩
    · rw [Dev.firstLine_bare hqueue s.clock.dtime hfree hlines hlast] at hexec
      refine ⟨_, hexec, deviceOnly_withDev _ _, Dev.mapQueue_setMapQueue_same _ _ _, ?_, rfl⟩
      rw [State.withDev_dev, Dev.mapHead_setMapQueue, Dev.takeHeader_eq]
      exact Dev.mapHead_setMapHead_same _ _ _
  · intro p h y x0 ws q _ hquiet hqueue
    refine ⟨fun hoff => ?_, fun hon hwaits => beat_stops hr hquiet p hqueue ((Dev.lineOn_iff _ _).mpr hon) hwaits,
      fun j T hon hloaded hdrain hlow hhigh hsample => ?_⟩
    · exact beat_dropped hr hquiet p hqueue (Bool.eq_false_iff.mpr fun h => hoff ((Dev.lineOn_iff _ _).mp h))
    · exact beat_taken hr hquiet p hqueue ((Dev.lineOn_iff _ _).mpr hon) hloaded hdrain hlow hhigh hsample
  · intro l
    refine ⟨fun hidle => ?_, fun hdue hcredit => ?_, fun hdue hcredit hdrain hring hquiet => ?_⟩
    · rw [exec_wmRowFinalise s hr, Dev.rowFinalise_idle hidle]
      rfl
    · refine ⟨_, exec_wmRowFinalise s hr l, deviceOnly_withDev _ _, ?_⟩
      rw [State.withDev_dev, Dev.rowFinalise_waits hdue hcredit]
      exact ⟨rfl, rfl, mem_noted _ _⟩
    · exact ⟨_, exec_wmRowFinalise s hr l, deviceOnly_withDev _ _, Dev.rowFinalise_law l.isLt hdue hcredit hdrain hring hquiet _⟩
  · exact fun p r rest hquiet hstats => stats_told hr hquiet p hstats
  · exact fun b r rest hout hheld hrecords hgap => fire_taken hr b hout hheld hrecords hgap
  · intro r rest hout hheld hon hrows
    refine ⟨fun hdry hbase hother => ?_, fun hlayer => ⟨baseline_passes hr hout hheld hon hrows hlayer, verification_scored hr hout hheld hon hrows hlayer⟩⟩
    exact baseline_joins hr hout hheld hon hrows hdry hbase hother
  · intro j
    refine ⟨⟨_, exec_bvResetJet s hr j, deviceOnly_withDev _ _, ?_, fun i hi => Dev.bvResetJet_other _ _ _ hi, Dev.bvResetJet_ev _ _ _⟩,
      _, exec_bvEndFill s hr j, deviceOnly_withDev _ _, Dev.bvEndFill_law _ _ _⟩
    obtain ⟨p, hp⟩ := s.dev.bvResetJet_same s.clock.dtime j
    rw [State.withDev_dev, hp]
    rfl
  · refine ⟨_, exec_bvResetAll s hr, deviceOnly_withDev _ _, fun j hj => ?_⟩
    obtain ⟨p, hp⟩ := s.dev.bvResetJets_cleared s.clock.dtime (List.range 128) (List.mem_range.mpr hj)
    rw [State.withDev_dev, Dev.bvResetAll, hp]
    rfl

end Sys2Proof.Machine
end

section
/-! ## QUENCH_END while the DRIVE PLL is out of lock (R31, R236) -/

namespace Sys2Proof.Machine
open Sys2Proof.Claims

/-- Bank 0 is enabled and its channel 0 quenches from boundary 1 on, while the DRIVE PLL is out of lock: DTIME stands at 0, and boundary 1
does not come. -/
def stoppedQuench : State :=
  { State.reset with
    clock := { State.reset.clock with drive := false }
    dev := (State.reset.dev.wrN (Reg.VB_CFG 0) 1).setChan 0 0 { Chan.reset with kind := 5, quenchAt := some 1 } }

theorem stoppedQuench_running : stoppedQuench.running = true := by decide +kernel

/-- Channel 0 of stoppedQuench meets the condition of QUENCH_END as the next boundary, 40, finds it. -/
theorem stoppedQuench_ends :
    stoppedQuench.dev.nextBoundary stoppedQuench.clock.dtime 0 / 40 = 1 ∧ stoppedQuench.dev.vbOn 0 = true ∧
      ((stoppedQuench.dev.takeFrames 0 1).chan 0 0).kind = 5 ∧ ((stoppedQuench.dev.takeFrames 0 1).chan 0 0).command = false ∧
      (stoppedQuench.dev.thread 0 0).run = .stopped ∧ ((stoppedQuench.dev.takeFrames 0 1).chan 0 0).quenchAt = some 1 ∧
      (stoppedQuench.dev.takeFrames 0 1).fast 0 0 = 0 := by decide +kernel

/-- QUENCH_END leaves that channel in QUENCH: the command acts at boundary 0, where DTIME has stopped. -/
theorem stoppedQuench_stays {t : State} (h : exec (.quenchEnd 0 0) stoppedQuench = .next t) : (t.dev.chan 0 0).kind = 5 := by
  cases h
  decide +kernel

/-- Refutes O27: its QUENCH_END clause lacks the hypothesis that the DRIVE PLL is in lock. In stoppedQuench the quench is over at the next
boundary, but DTIME never comes to it (R31), so the command leaves the channel in QUENCH where the clause has it idle. -/
theorem not_firesStartAndEndAndCoilsHeat : ¬ Obligations.FiresStartAndEndAndCoilsHeat := by
  intro h
  obtain ⟨-, -, -, -, -, hquench, -⟩ := h stoppedQuench 0 stoppedQuench_running
  obtain ⟨hframe, hon, hkind, hcommand, hstopped, hat, hfast⟩ := stoppedQuench_ends
  obtain ⟨-, hends⟩ := hquench 0
  simp only [Fin.val_zero, Fin.isValue, hframe] at hends
  obtain ⟨t, hexec, -, -, -, -, hidle, -⟩ := hends ⟨hon, hkind, hstopped, 1, hat, le_rfl, .inl hfast⟩ hcommand
  exact absurd (stoppedQuench_stays hexec) (by rw [hidle]; decide)

end Sys2Proof.Machine
end

section
/-! ## Banks, channels, threads, pairs and links: what is read after a change -/

namespace Sys2Proof.Machine
open Sys2Proof.Claims

variable (d : Dev) (b : Nat)

@[simp] theorem Dev.bank_setBank_same (x : Bank) : (d.setBank b x).bank b = x := SMap.get_set_same _ _ _ _
@[simp] theorem Dev.bank_updBank_same (f : Bank → Bank) : (d.updBank b f).bank b = f (d.bank b) := SMap.get_set_same _ _ _ _
@[simp] theorem Dev.bank_setChan_same (c : Nat) (k : Chan) : (d.setChan b c k).bank b = (d.bank b).setChan c k := SMap.get_set_same _ _ _ _
@[simp] theorem Dev.bank_setPair_same (p : Nat) (y : PairState) : (d.setPair b p y).bank b = (d.bank b).setPair p y := SMap.get_set_same _ _ _ _

theorem Dev.chan_congr {d e : Dev} {b : Nat} (h : (e.bank b).chans = (d.bank b).chans) (c : Nat) : e.chan b c = d.chan b c :=
  congrArg (SMap.get Chan.reset · c) h
theorem Dev.pair_congr {d e : Dev} {b : Nat} (h : (e.bank b).pairs = (d.bank b).pairs) (p : Nat) : e.pair b p = d.pair b p :=
  congrArg (SMap.get PairState.reset · p) h

theorem Dev.chan_updBank {f : Bank → Bank} (h : ∀ x, (f x).chans = x.chans) (c : Nat) : (d.updBank b f).chan b c = d.chan b c :=
  Dev.chan_congr (by rw [Dev.bank_updBank_same, h]) c

theorem Dev.chans_setChan (c : Nat) (k : Chan) : ((d.setChan b c k).bank b).chans = SMap.set Chan.reset (d.bank b).chans c k := by
  rw [Dev.bank_setChan_same]; rfl

@[simp] theorem Dev.chan_setChan_same (c : Nat) (k : Chan) : (d.setChan b c k).chan b c = k := by
  rw [Dev.chan, Bank.chan, Dev.chans_setChan, SMap.get_set_same]
theorem Dev.chan_setChan_other {c i : Nat} (k : Chan) (h : i ≠ c) : (d.setChan b c k).chan b i = d.chan b i := by
  rw [Dev.chan, Bank.chan, Dev.chans_setChan, SMap.get_set_other _ _ _ h]; rfl
@[simp] theorem Dev.pair_setChan (c p : Nat) (k : Chan) : (d.setChan b c k).pair b p = d.pair b p :=
  Dev.pair_congr (by rw [Dev.bank_setChan_same]; rfl) p
@[simp] theorem Dev.pair_setPair_same (p : Nat) (y : PairState) : (d.setPair b p y).pair b p = y := by
  rw [Dev.pair, Dev.bank_setPair_same]; exact SMap.get_set_same _ _ _ _
theorem Dev.pair_setPair_other {p q : Nat} (y : PairState) (h : q ≠ p) : (d.setPair b p y).pair b q = d.pair b q := by
  rw [Dev.pair, Dev.bank_setPair_same]; exact SMap.get_set_other _ _ _ h
@[simp] theorem Dev.chan_setPair (p c : Nat) (y : PairState) : (d.setPair b p y).chan b c = d.chan b c :=
  Dev.chan_congr (by rw [Dev.bank_setPair_same]; rfl) c

@[simp] theorem Dev.blink_setBlink_same (x : BankLink) : (d.setBlink b x).blink b = x := SMap.get_set_same _ _ _ _
@[simp] theorem Dev.blink_updBlink_same (f : BankLink → BankLink) : (d.updBlink b f).blink b = f (d.blink b) := SMap.get_set_same _ _ _ _
theorem Dev.blink_congr {d e : Dev} (h : e.bl = d.bl) (b : Nat) : e.blink b = d.blink b := congrArg (SMap.get BankLink.reset · b) h

/-! ### Parts that a change of a bank or of a link leaves -/

@[simp] theorem Dev.updBank_ev (f : Bank → Bank) : (d.updBank b f).ev = d.ev := rfl
@[simp] theorem Dev.updBank_flt (f : Bank → Bank) : (d.updBank b f).flt = d.flt := rfl
@[simp] theorem Dev.updBank_bl (f : Bank → Bank) : (d.updBank b f).bl = d.bl := rfl
@[simp] theorem Dev.updBank_lt (f : Bank → Bank) : (d.updBank b f).lt = d.lt := rfl
@[simp] theorem Dev.updBank_spare (f : Bank → Bank) : (d.updBank b f).spare = d.spare := rfl
@[simp] theorem Dev.updBank_rd (f : Bank → Bank) (a : Nat) : (d.updBank b f).rd a = d.rd a := rfl
@[simp] theorem Dev.updBlink_vb (f : BankLink → BankLink) : (d.updBlink b f).vb = d.vb := rfl

/-! ### Nobody watches a shutter (R143) -/

theorem noShutter_congr {d e : Dev} (h : e.lt = d.lt) (hd : noShutter d) : noShutter e := fun g => by
  rw [show e.lth g = d.lth g from congrArg (fun l : LastStore => SMap.get LtHead.reset l.heads g) h]; exact hd g

/-- With no shutter event under way, nothing aborts. -/
theorem Dev.shutWatch_none {d : Dev} (h : noShutter d) (t : Nat) : d.shutWatch t = d := by
  have hstep : ∀ l : List Nat, l.foldl (fun (d : Dev) h => match (d.lth h).shut with
      | some ev => if ev.step < 7 ∧ d.pairLost (d.ltFld h (Reg.LT_HDh_SHUT h) 2 0) (d.ltFld h (Reg.LT_HDh_SHUT h) 5 3) = true then d.shutAbort t h 2 else d
      | none => d) d = d := fun l => by
    induction l with
    | nil => rfl
    | cons g l ih => rw [List.foldl_cons, h g]; exact ih
  exact hstep _

end Sys2Proof.Machine
end

section
/-! ## What a bank's engine writes when fires are dropped and channels go off (R199, R210, R215) -/

namespace Sys2Proof.Machine
open Sys2Proof.Claims

/-- The count of lost fault records, the bank's count of fires not made, and the registers of its channels and of its lace engine. -/
def engineReg (b a : Nat) : Prop := a = Reg.SV_LOG_LOST ∨ a = Reg.VB_CNT_DROP b ∨ (Reg.VB_CHc_CFG b 0 ≤ a ∧ a < Reg.VB_STATUS (b + 1))

theorem engineReg_lc {b a : Nat} (hlo : Reg.VB_CHc_CFG b 0 ≤ a) (hhi : a < Reg.VB_STATUS (b + 1)) : engineReg b a := .inr (.inr ⟨hlo, hhi⟩)

theorem engineReg_od (b : Nat) {c : Nat} (hc : c < 16) : engineReg b (Reg.VB_CHc_OD b c) :=
  engineReg_lc (by simp only [Reg.VB_CHc_CFG, Reg.VB_CHc_OD]; omega) (by simp only [Reg.VB_STATUS, Reg.VB_CHc_OD]; omega)

theorem engineReg_rest (b : Nat) {c : Nat} (hc : c < 16) : engineReg b (Reg.LC_CHc_REST b c) :=
  engineReg_lc (by simp only [Reg.VB_CHc_CFG, Reg.LC_CHc_REST]; omega) (by simp only [Reg.VB_STATUS, Reg.LC_CHc_REST]; omega)

theorem engineReg_fault (b : Nat) : engineReg b (Reg.LC_FAULT b) :=
  engineReg_lc (by simp only [Reg.VB_CHc_CFG, Reg.LC_FAULT]; omega) (by simp only [Reg.VB_STATUS, Reg.LC_FAULT]; omega)

theorem engineReg_noDip (b : Nat) : engineReg b (Reg.LC_CNT_NODIP b) :=
  engineReg_lc (by simp only [Reg.VB_CHc_CFG, Reg.LC_CNT_NODIP]; omega) (by simp only [Reg.VB_STATUS, Reg.LC_CNT_NODIP]; omega)

theorem engineReg_odRej (b : Nat) : engineReg b (Reg.LC_CNT_ODREJ b) :=
  engineReg_lc (by simp only [Reg.VB_CHc_CFG, Reg.LC_CNT_ODREJ]; omega) (by simp only [Reg.VB_STATUS, Reg.LC_CNT_ODREJ]; omega)

theorem engineReg_rMis (b : Nat) : engineReg b (Reg.LC_CNT_RMIS b) :=
  engineReg_lc (by simp only [Reg.VB_CHc_CFG, Reg.LC_CNT_RMIS]; omega) (by simp only [Reg.VB_STATUS, Reg.LC_CNT_RMIS]; omega)

/-- A register of the bank below its channels, which are the bank's own and those of its link, is none of them, but for the drop count. -/
theorem not_engineReg {b a : Nat} (hlo : Reg.VB_STATUS b ≤ a) (hhi : a < Reg.VB_CHc_CFG b 0) (hb : b < 8) (h : a ≠ Reg.VB_CNT_DROP b) : ¬ engineReg b a := by
  simp only [engineReg, Reg.VB_STATUS, Reg.VB_CHc_CFG, Reg.SV_LOG_LOST] at *
  omega

/-- A bank without its channels, its fire records, and the limits of its fault records. -/
def Bank.plan (x : Bank) : Bank := { x with chans := [], records := [], overflow := false, lost := 0, faultRows := [] }

theorem Bank.waiting_of_plan {x y : Bank} (h : x.plan = y) : x.waiting = y.waiting := by
  have hf := congrArg Bank.waiting h
  exact hf
theorem Bank.gates_of_plan {x y : Bank} (h : x.plan = y) : x.gates = y.gates := by
  have hf := congrArg Bank.gates h
  exact hf
theorem Bank.pairs_of_plan {x y : Bank} (h : x.plan = y) : x.pairs = y.pairs := by
  have hf := congrArg Bank.pairs h
  exact hf
theorem Bank.lastFrame_of_plan {x y : Bank} (h : x.plan = y) : x.lastFrame = y.lastFrame := by
  have hf := congrArg Bank.lastFrame h
  exact hf

/-- From d to e the engine of bank b has worked on channel c: the links, the spare, the heads, the events and every register but the engine's
stand, and of the bank everything but that channel, the fire records and the limits of fault records. -/
structure Dev.chanWork (b c : Nat) (d e : Dev) : Prop where
  links : e.bl = d.bl
  spare : e.spare = d.spare
  heads : e.lt = d.lt
  events : e.ev = d.ev
  regs : ∀ a, ¬ engineReg b a → e.rd a = d.rd a
  bank : (e.bank b).plan = (d.bank b).plan
  chans : ∀ i, i ≠ c → e.chan b i = d.chan b i

variable {b c : Nat}

theorem Dev.chanWork_refl (b c : Nat) (d : Dev) : d.chanWork b c d := ⟨rfl, rfl, rfl, rfl, fun _ _ => rfl, rfl, fun _ _ => rfl⟩

theorem Dev.chanWork.trans {d e f : Dev} (h : d.chanWork b c e) (k : e.chanWork b c f) : d.chanWork b c f :=
  ⟨k.links.trans h.links, k.spare.trans h.spare, k.heads.trans h.heads, k.events.trans h.events, fun a ha => (k.regs a ha).trans (h.regs a ha),
    k.bank.trans h.bank, fun i hi => (k.chans i hi).trans (h.chans i hi)⟩

/-- Work that leaves the banks, and of the registers writes one of the engine's. -/
theorem Dev.chanWork_ofReg {d e : Dev} {a : Nat} (ha : engineReg b a) (hbl : e.bl = d.bl) (hspare : e.spare = d.spare) (hlt : e.lt = d.lt)
    (hev : e.ev = d.ev) (hvb : e.vb = d.vb) (hrd : ∀ x, x ≠ a → e.rd x = d.rd x) : d.chanWork b c e :=
  ⟨hbl, hspare, hlt, hev, fun x hx => hrd x fun he => hx (he ▸ ha), congrArg Bank.plan (Dev.bank_congr hvb b),
    fun i _ => Dev.chan_congr (congrArg Bank.chans (Dev.bank_congr hvb b)) i⟩

/-- Work that leaves the registers, and of the banks everything but what the fire records and the limits are. -/
theorem Dev.chanWork_ofBank {d e : Dev} (hbl : e.bl = d.bl) (hspare : e.spare = d.spare) (hlt : e.lt = d.lt) (hev : e.ev = d.ev)
    (hregs : e.regs = d.regs) (hplan : (e.bank b).plan = (d.bank b).plan) (hchans : (e.bank b).chans = (d.bank b).chans) : d.chanWork b c e :=
  ⟨hbl, hspare, hlt, hev, fun a _ => Dev.rd_congr hregs a, hplan, fun i _ => Dev.chan_congr hchans i⟩

theorem Dev.chanWork_ite {p : Prop} {_ : Decidable p} {d e f : Dev} (h : d.chanWork b c e) (k : d.chanWork b c f) :
    d.chanWork b c (if p then e else f) := by
  split
  exacts [h, k]

theorem Dev.chanWork_wrN (d : Dev) {a : Nat} (v : Nat) (ha : engineReg b a) : d.chanWork b c (d.wrN a v) :=
  Dev.chanWork_ofReg ha rfl rfl rfl rfl rfl fun _ hx => Dev.rd_wrN_other d v hx

theorem Dev.chanWork_bump (d : Dev) {a : Nat} (ha : engineReg b a) : d.chanWork b c (d.bump a) :=
  Dev.chanWork_ofReg ha (Dev.bump_bl d a) (Dev.bump_spare d a) (Dev.bump_lt d a) (Dev.bump_ev d a) (Dev.bump_vb d a) fun _ hx => Dev.rd_bump_other d hx

theorem Dev.chanWork_fault (d : Dev) (t u code x : Nat) : d.chanWork b c (d.fault t u code x) :=
  Dev.chanWork_ofReg (.inl rfl) (Dev.fault_bl ..) (Dev.fault_spare ..) (Dev.fault_lt ..) (Dev.fault_ev ..) (Dev.fault_vb ..)
    fun _ hx => Dev.rd_fault_other d t u code x hx

theorem Dev.chanWork_setChan (d : Dev) (k : Chan) : d.chanWork b c (d.setChan b c k) :=
  ⟨rfl, rfl, rfl, rfl, fun _ _ => rfl, by rw [Dev.bank_setChan_same]; rfl, fun _ hi => Dev.chan_setChan_other d b k hi⟩

theorem Dev.chanWork_putRecord (d : Dev) (ws : List Nat) : d.chanWork b c (d.putRecord b ws) := by
  refine Dev.chanWork_ofBank rfl rfl rfl rfl rfl ?_ ?_ <;> rw [Dev.putRecord, Dev.bank_updBank_same] <;> split <;> rfl

theorem Dev.chanWork_rowLimit (d : Dev) (key : Nat) : d.chanWork b c (d.rowLimit b key).2 := by
  unfold Dev.rowLimit; dsimp only
  split_ifs
  · exact Dev.chanWork_ofBank rfl rfl rfl rfl rfl (by rw [Dev.bank_setBank_same]; rfl) (by rw [Dev.bank_setBank_same])
  · exact Dev.chanWork_refl b c d

theorem Dev.chanWork_lcLimited (d : Dev) (t el code x : Nat) : d.chanWork b c (d.lcLimited t b el code x) := by
  have hflag : d.chanWork b c ((d.rowLimit b (32 * code + el)).2.flag (Reg.LC_FAULT b) (code - 0x10)) :=
    (d.chanWork_rowLimit _).trans (Dev.chanWork_wrN _ _ (engineReg_fault b))
  unfold Dev.lcLimited; dsimp only
  split
  · exact hflag.trans (Dev.chanWork_fault _ _ _ _ _)
  · exact hflag

/-- What the end of a HOLD does (R244): nothing; or the estimate is shown and the coil's record changed, with a fault record of a mismatch or
without. -/
theorem Dev.holdEnds_cases (d : Dev) (t b c : Nat) : d.holdEnds t b c = d ∨ ∃ v q,
    d.holdEnds t b c = (d.putFld (Reg.LC_CHc_REST b c) 23 0 v).setChan b c { d.chan b c with coil := q } ∨ ∃ x,
      d.holdEnds t b c = (((d.putFld (Reg.LC_CHc_REST b c) 23 0 v).setChan b c { d.chan b c with coil := q }).lcLimited t b c 0x0015 x).bump
        (Reg.LC_CNT_RMIS b) := by
  unfold Dev.holdEnds; dsimp only
  split
  · refine (ite_eq_or_eq _ _ _).imp_right fun h => ?_
    rw [h]
    exact ⟨_, _, (ite_eq_or_eq _ _ _).elim (fun h => .inr ⟨_, h⟩) .inl⟩
  · exact .inl rfl

theorem Dev.chanWork_holdEnds (d : Dev) (t : Nat) (hc : c < 16) : d.chanWork b c (d.holdEnds t b c) := by
  have hest : ∀ v k, d.chanWork b c ((d.putFld (Reg.LC_CHc_REST b c) 23 0 v).setChan b c k) := fun v k =>
    (d.chanWork_wrN _ (engineReg_rest b hc)).trans (Dev.chanWork_setChan _ k)
  obtain h | ⟨v, q, h | ⟨x, h⟩⟩ := d.holdEnds_cases t b c <;> rw [h]
  · exact d.chanWork_refl b c
  · exact hest v _
  · exact (hest v _).trans ((Dev.chanWork_lcLimited _ _ _ _ _).trans (Dev.chanWork_bump _ (engineReg_rMis b)))

theorem Dev.chanWork_lateWindow (d : Dev) : d.chanWork b c (d.lateWindow b c) := by
  unfold Dev.lateWindow; dsimp only
  split
  · exact d.chanWork_bump (engineReg_noDip b)
  · exact d.chanWork_refl b c

/-- The end of a HOLD changes of its channel only the coil (R244). -/
theorem Dev.holdEnds_chan (d : Dev) (t : Nat) : ∃ q, (d.holdEnds t b c).chan b c = { d.chan b c with coil := q } := by
  obtain h | ⟨v, q, h | ⟨x, h⟩⟩ := d.holdEnds_cases t b c <;> rw [h]
  · exact ⟨_, rfl⟩
  · exact ⟨q, Dev.chan_setChan_same _ _ _ _⟩
  · exact ⟨q, (((Dev.chanWork_lcLimited (c := c + 1) _ t c _ x).trans (Dev.chanWork_bump _ (engineReg_rMis b))).chans c (by omega)).trans
      (Dev.chan_setChan_same _ _ _ _)⟩

theorem Dev.holdEnds_other (d : Dev) (t : Nat) (h : (d.chan b c).kind ≠ 4) : d.holdEnds t b c = d := by
  unfold Dev.holdEnds; dsimp only
  split
  · rw [if_pos (.inl h)]
  · rfl

end Sys2Proof.Machine
end

section
/-! ## Everything off, and a bank's fault (R199, R210, R215) -/

namespace Sys2Proof.Machine
open Sys2Proof.Claims

variable {b c : Nat}

/-! ### One channel goes off -/

theorem Dev.chanWork_closeRun (d : Dev) (cause : Nat) (hc : c < 16) : d.chanWork b c (d.closeRun b c cause) := by
  unfold Dev.closeRun; dsimp only
  split
  · exact d.chanWork_refl b c
  · refine Dev.chanWork_ite (d.chanWork_setChan _) ?_
    refine (d.chanWork_putRecord _).trans ((Dev.chanWork_ite (Dev.chanWork_bump _ (engineReg_noDip b)) (Dev.chanWork_refl b c _)).trans
      ((Dev.chanWork_ite (Dev.chanWork_setChan _ _) (Dev.chanWork_refl b c _)).trans (Dev.chanWork_ite ?_ (Dev.chanWork_setChan _ _))))
    have hod := fun (e : Dev) (v : Nat) (k : Chan) => (e.chanWork_wrN v (engineReg_od b hc)).trans (Dev.chanWork_setChan (c := c) _ k)
    exact Dev.chanWork_ite ((hod _ _ _).trans (Dev.chanWork_bump _ (engineReg_odRej b))) (hod _ _ _)

theorem Dev.putRecord_flt (d : Dev) (ws : List Nat) : (d.putRecord b ws).flt = d.flt := rfl

theorem Dev.closeRun_flt (d : Dev) (cause : Nat) : (d.closeRun b c cause).flt = d.flt := by
  have hset : ∀ (e : Dev) (k : Chan), (e.setChan b c k).flt = e.flt := fun _ _ => rfl
  unfold Dev.closeRun; dsimp only
  split
  · rfl
  · split
    · rfl
    · split_ifs <;> simp only [hset, Dev.bump_flt, Dev.wrN_flt, Dev.putRecord_flt]

theorem Dev.lateWindow_flt (d : Dev) : (d.lateWindow b c).flt = d.flt := by
  unfold Dev.lateWindow; dsimp only
  split
  exacts [Dev.bump_flt _ _, rfl]

/-- What `Dev.bankAllOff` does to one channel. -/
def Dev.chanOff (t b cause : Nat) (d : Dev) (c : Nat) : Dev :=
  let d := d.holdEnds t b c
  let k := d.chan b c
  let made := k.run.isSome && !k.command
  let d := d.closeRun b c cause
  let d := (if made then d.bump (Reg.VB_CNT_DROP b) else d).lateWindow b c
  d.setChan b c { Chan.reset with bits := k.bits, odRej := (d.chan b c).odRej, coil := k.coil }

theorem Dev.chanWork_chanOff (d : Dev) (t cause : Nat) (hc : c < 16) : d.chanWork b c (d.chanOff t b cause c) :=
  (d.chanWork_holdEnds t hc).trans ((Dev.chanWork_closeRun _ cause hc).trans
    ((Dev.chanWork_ite (Dev.chanWork_bump _ (.inr (.inl rfl))) (Dev.chanWork_refl b c _)).trans
      ((Dev.chanWork_lateWindow _).trans (Dev.chanWork_setChan _ _))))

theorem Dev.chanOff_idle (d : Dev) (t cause : Nat) :
    ((d.chanOff t b cause c).chan b c).kind = 0 ∧ ((d.chanOff t b cause c).chan b c).run = none := by
  rw [Dev.chanOff, Dev.chan_setChan_same]; exact ⟨rfl, rfl⟩

theorem Dev.chanOff_flt (d : Dev) (t cause : Nat) (h : (d.chan b c).kind ≠ 4) : (d.chanOff t b cause c).flt = d.flt := by
  have hcounted : ∀ (p : Prop) [Decidable p] (e : Dev), (if p then e.bump (Reg.VB_CNT_DROP b) else e).flt = e.flt := fun p _ e => by
    split
    exacts [Dev.bump_flt _ _, rfl]
  rw [Dev.chanOff, Dev.holdEnds_other d t h]
  exact (Dev.lateWindow_flt _).trans ((hcounted _ _).trans (Dev.closeRun_flt d cause))

/-! ### Every channel goes off -/

/-- What fires and channels going off leave of a device: as `Dev.chanWork`, for every channel of bank b. -/
structure Dev.bankWork (b : Nat) (d e : Dev) : Prop where
  links : e.bl = d.bl
  spare : e.spare = d.spare
  heads : e.lt = d.lt
  events : e.ev = d.ev
  regs : ∀ a, ¬ engineReg b a → e.rd a = d.rd a
  bank : (e.bank b).plan = (d.bank b).plan

theorem Dev.bankWork_refl (b : Nat) (d : Dev) : d.bankWork b d := ⟨rfl, rfl, rfl, rfl, fun _ _ => rfl, rfl⟩

theorem Dev.bankWork.trans {d e f : Dev} (h : d.bankWork b e) (k : e.bankWork b f) : d.bankWork b f :=
  ⟨k.links.trans h.links, k.spare.trans h.spare, k.heads.trans h.heads, k.events.trans h.events, fun a ha => (k.regs a ha).trans (h.regs a ha),
    k.bank.trans h.bank⟩

theorem Dev.chanWork.toBank {d e : Dev} (h : d.chanWork b c e) : d.bankWork b e := ⟨h.links, h.spare, h.heads, h.events, h.regs, h.bank⟩

theorem Dev.bankWork_dropFires (d : Dev) (t cause : Nat) (l : List Fire) : d.bankWork b (l.foldl (fun (d : Dev) f => d.dropFire t b f cause) d) :=
  Dev.foldl_inv (d.bankWork b) _ (fun e _ he => he.trans ((Dev.chanWork_putRecord (c := 0) e _).trans (Dev.chanWork_bump _ (.inr (.inl rfl)))).toBank)
    l d (d.bankWork_refl b)

theorem Dev.dropFires_chan (d : Dev) (t cause : Nat) (l : List Fire) (i : Nat) :
    (l.foldl (fun (d : Dev) f => d.dropFire t b f cause) d).chan b i = d.chan b i :=
  Dev.foldl_keeps (fun e => e.chan b i) _ (fun e _ =>
    ((Dev.chanWork_putRecord (c := i + 1) e _).trans (Dev.chanWork_bump _ (.inr (.inl rfl)))).chans i (by omega)) l d

theorem Dev.dropFires_flt (d : Dev) (t cause : Nat) (l : List Fire) : (l.foldl (fun (d : Dev) f => d.dropFire t b f cause) d).flt = d.flt :=
  Dev.foldl_keeps Dev.flt _ (fun _ _ => (Dev.bump_flt _ _).trans (Dev.putRecord_flt _ _)) l d

theorem Dev.bankWork_chansOff (t cause : Nat) (l : List Nat) (hl : ∀ c ∈ l, c < 16) (d : Dev) : d.bankWork b (l.foldl (Dev.chanOff t b cause) d) := by
  induction l generalizing d with
  | nil => exact d.bankWork_refl b
  | cons c l ih =>
    exact (d.chanWork_chanOff t cause (hl c List.mem_cons_self)).toBank.trans (ih (fun i hi => hl i (List.mem_cons_of_mem c hi)) _)

/-- Channels gone off are idle, and stay so while others go off. -/
theorem Dev.chansOff_idle (t cause : Nat) (l : List Nat) (hl : ∀ c ∈ l, c < 16) (d : Dev) (i : Nat)
    (h : i ∈ l ∨ (d.chan b i).kind = 0 ∧ (d.chan b i).run = none) :
    ((l.foldl (Dev.chanOff t b cause) d).chan b i).kind = 0 ∧ ((l.foldl (Dev.chanOff t b cause) d).chan b i).run = none := by
  induction l generalizing d with
  | nil => exact h.resolve_left List.not_mem_nil
  | cons c l ih =>
    refine ih (fun i hi => hl i (List.mem_cons_of_mem c hi)) _ ?_
    by_cases hic : i = c
    · exact .inr (hic ▸ d.chanOff_idle t cause)
    · rw [(d.chanWork_chanOff t cause (hl c List.mem_cons_self)).chans i hic]
      exact h.imp_left fun hi => (List.mem_cons.mp hi).resolve_left hic

/-- Where no channel holds, no channel's end writes a fault record (R244). -/
theorem Dev.chansOff_flt (t cause : Nat) (l : List Nat) (hl : ∀ c ∈ l, c < 16) (d : Dev) (h : ∀ c, c < 16 → (d.chan b c).kind ≠ 4) :
    (l.foldl (Dev.chanOff t b cause) d).flt = d.flt := by
  induction l generalizing d with
  | nil => rfl
  | cons c l ih =>
    have hc : c < 16 := hl c List.mem_cons_self
    refine (ih (fun i hi => hl i (List.mem_cons_of_mem c hi)) _ fun i hi => ?_).trans (d.chanOff_flt t cause (h c hc))
    by_cases hic : i = c
    · rw [hic, (d.chanOff_idle t cause).1]; decide
    · rw [(d.chanWork_chanOff t cause hc).chans i hic]; exact h i hi

/-- A bank whose threads and pairs are dropped, and whose gates are off. -/
def Bank.off (x : Bank) : Bank := { x with
  threads := [], heldStart := false, pairs := [], token := none, gates := 0, quench := false, quenchDue := false, clearing := false }

theorem Bank.plan_off (x : Bank) : x.off.plan = x.plan.off := rfl

/-- `Dev.bankAllOff` in its steps: the waiting fires, the channels, the rest of the bank. -/
theorem Dev.bankAllOff_eq (d : Dev) (t cause : Nat) : d.bankAllOff t b cause =
    ((List.range 16).foldl (Dev.chanOff t b cause) ((d.bank b).waiting.foldl (fun (d : Dev) f => d.dropFire t b f cause)
      (d.updBank b (fun x => { x with waiting := [] })))).updBank b Bank.off := by
  rfl

/-- What a bank that goes off leaves of the device (R199). -/
structure Dev.bankGone (b : Nat) (d e : Dev) : Prop where
  links : e.bl = d.bl
  spare : e.spare = d.spare
  heads : e.lt = d.lt
  events : e.ev = d.ev
  regs : ∀ a, ¬ engineReg b a → e.rd a = d.rd a
  bank : (e.bank b).plan = { (d.bank b).plan.off with waiting := [] }
  idle : ∀ c, c < 16 → (e.chan b c).kind = 0 ∧ (e.chan b c).run = none

theorem Dev.bankGone_bankAllOff (d : Dev) (t cause : Nat) : d.bankGone b (d.bankAllOff t b cause) := by
  have hrange : ∀ c ∈ List.range 16, c < 16 := fun c hc => List.mem_range.mp hc
  have hwork := (Dev.bankWork_dropFires (b := b) (d.updBank b (fun x => { x with waiting := [] })) t cause (d.bank b).waiting).trans
    (Dev.bankWork_chansOff t cause (List.range 16) hrange _)
  rw [Dev.bankAllOff_eq]
  refine ⟨?_, ?_, ?_, ?_, fun a ha => ?_, ?_, fun c hc => ?_⟩
  · rw [Dev.updBank_bl, hwork.links, Dev.updBank_bl]
  · rw [Dev.updBank_spare, hwork.spare, Dev.updBank_spare]
  · rw [Dev.updBank_lt, hwork.heads, Dev.updBank_lt]
  · rw [Dev.updBank_ev, hwork.events, Dev.updBank_ev]
  · rw [Dev.updBank_rd, hwork.regs a ha, Dev.updBank_rd]
  · rw [Dev.bank_updBank_same, Bank.plan_off, hwork.bank, Dev.bank_updBank_same]; rfl
  · rw [Dev.chan_updBank (f := Bank.off) _ b fun _ => rfl]
    exact Dev.chansOff_idle t cause _ hrange _ c (.inl (List.mem_range.mpr hc))

theorem Dev.bankAllOff_flt (d : Dev) (t cause : Nat) (h : ∀ c, c < 16 → (d.chan b c).kind ≠ 4) : (d.bankAllOff t b cause).flt = d.flt := by
  rw [Dev.bankAllOff_eq]
  rw [Dev.updBank_flt, Dev.chansOff_flt t cause _ (fun c hc => List.mem_range.mp hc), Dev.dropFires_flt, Dev.updBank_flt]
  intro c hc
  rw [Dev.dropFires_chan]
  simpa only [Dev.chan_updBank, implies_true] using h c hc

/-! ### The fault of a bank (R215) -/

/-- What a bank's fault leaves of the rest of the device; `Dev.bankFault` may also find nothing to do. -/
structure Dev.bankOnly (b : Nat) (d e : Dev) : Prop where
  links : e.bl = d.bl
  spare : e.spare = d.spare
  heads : e.lt = d.lt
  regs : ∀ a, ¬ engineReg b a → ¬ outputReg a → a ≠ Reg.VB_FAULT b → e.rd a = d.rd a
  frame : (e.bank b).lastFrame = (d.bank b).lastFrame

theorem Dev.bankOnly_refl (b : Nat) (d : Dev) : d.bankOnly b d := ⟨rfl, rfl, rfl, fun _ _ _ _ => rfl, rfl⟩

/-- A bank that is on and not yet FAULTED. -/
def Dev.canFault (d : Dev) (b : Nat) : Prop := d.vbOn b = true ∧ (d.bank b).state ≠ 3

theorem Dev.bankFault_none {d : Dev} (h : ¬ d.canFault b) (t cause : Nat) : d.bankFault t b cause = d := by
  unfold Dev.bankFault
  refine if_pos ?_
  by_contra hn
  obtain ⟨hon, hstate⟩ := not_or.mp hn
  exact h ⟨by simpa using hon, hstate⟩

/-- The device in the midst of a bank's fault: everything off and FAULTED, with the fault not yet recorded. -/
def Dev.bankDropped (d : Dev) (t b : Nat) : Dev :=
  ((d.bankAllOff t b 4).updBank b (fun x => { x with state := 3, armed := false })).noteBank t b (d.bankGives b)

theorem Dev.bankFault_eq {d : Dev} (h : d.canFault b) (t cause : Nat) :
    d.bankFault t b cause = ((d.bankDropped t b).vbFault t b 31 4 cause).raise t (40 + b) cause := by
  unfold Dev.bankFault
  rw [if_neg (by simp [h.1, h.2])]
  rfl

/-- Noting the bank's part in R188 changes only the note. -/
theorem Dev.noteBank_law (d : Dev) (t : Nat) (old : Bool) :
    ∃ o, d.noteBank t b old = d ∨ d.noteBank t b old = d.updBank b (fun x => { x with okAt := o }) := by
  unfold Dev.noteBank
  split
  · exact ⟨none, .inl rfl⟩
  · exact ⟨_, .inr rfl⟩

theorem Dev.noteBank_flt (d : Dev) (t : Nat) (old : Bool) : (d.noteBank t b old).flt = d.flt := by
  obtain ⟨o, h | h⟩ := d.noteBank_law (b := b) t old <;> rw [h]; rfl

/-- A bank dropped: FAULTED and not armed, nothing waiting, all gates and channels off; the rest of the device stands. -/
theorem Dev.bankDropped_law (d : Dev) (t : Nat) :
    (d.bankDropped t b).bl = d.bl ∧ (d.bankDropped t b).spare = d.spare ∧ (d.bankDropped t b).lt = d.lt ∧ (d.bankDropped t b).ev = d.ev ∧
      (∀ a, ¬ engineReg b a → (d.bankDropped t b).rd a = d.rd a) ∧
      ((d.bankDropped t b).bank b).state = 3 ∧ ((d.bankDropped t b).bank b).armed = false ∧ ((d.bankDropped t b).bank b).waiting = [] ∧
      ((d.bankDropped t b).bank b).gates = 0 ∧ ((d.bankDropped t b).bank b).lastFrame = (d.bank b).lastFrame ∧
      ∀ c, c < 16 → ((d.bankDropped t b).chan b c).kind = 0 ∧ ((d.bankDropped t b).chan b c).run = none := by
  have hgone := Dev.bankGone_bankAllOff (b := b) d t 4
  have hwaiting : ((d.bankAllOff t b 4).bank b).waiting = [] := Bank.waiting_of_plan hgone.bank
  have hgates : ((d.bankAllOff t b 4).bank b).gates = 0 := Bank.gates_of_plan hgone.bank
  have hframe : ((d.bankAllOff t b 4).bank b).lastFrame = (d.bank b).lastFrame := by rw [Bank.lastFrame_of_plan hgone.bank]; rfl
  obtain ⟨o, h | h⟩ := Dev.noteBank_law (b := b) ((d.bankAllOff t b 4).updBank b (fun x => { x with state := 3, armed := false })) t (d.bankGives b)
  all_goals
    rw [Dev.bankDropped, h]
    refine ⟨by simp [hgone.links], by simp [hgone.spare], by simp [hgone.heads], by simp [hgone.events], fun a ha => by simp [hgone.regs a ha],
      ?_, ?_, ?_, ?_, ?_, fun c hc => ?_⟩
    · simp only [Dev.bank_updBank_same]
    · simp only [Dev.bank_updBank_same]
    · simpa only [Dev.bank_updBank_same] using hwaiting
    · simpa only [Dev.bank_updBank_same] using hgates
    · simpa only [Dev.bank_updBank_same] using hframe
    · simpa only [Dev.chan_updBank, implies_true] using hgone.idle c hc

theorem Dev.bankOnly_bankFault (d : Dev) (t cause : Nat) : d.bankOnly b (d.bankFault t b cause) := by
  by_cases h : d.canFault b
  · obtain ⟨hbl, hspare, hlt, -, hregs, -, -, -, -, hframe, -⟩ := d.bankDropped_law (b := b) t
    rw [Dev.bankFault_eq h]
    refine ⟨by simp [Dev.vbFault, hbl], by simp [Dev.vbFault, hspare], by simp [Dev.vbFault, hlt], fun a he ho hv => ?_, ?_⟩
    · rw [Dev.raise_rd _ _ _ _ ho, Dev.vbFault, Dev.rd_faultFlag_other _ _ _ _ _ _ _ (fun hs => he (.inl hs)) hv]
      exact hregs a he
    · rw [Dev.bank_congr (d := d.bankDropped t b) (by simp [Dev.vbFault]) b, hframe]
  · rw [Dev.bankFault_none h]; exact d.bankOnly_refl b

theorem Dev.bit_faultFlag (d : Dev) (t u code x : Nat) {r i : Nat} (hi : i < 32) (hr : r ≠ Reg.SV_LOG_LOST) :
    (d.faultFlag t u code x r i).bit r i = true := by
  rw [Dev.faultFlag, Dev.bit_congr (Dev.rd_fault_other _ _ _ _ _ hr)]
  exact Dev.bit_flag d r hi

theorem not_outputReg_bank {a : Nat} (hb : b < 8) (hlo : Reg.VB_STATUS b ≤ a) (hhi : a < Reg.VB_STATUS (b + 1)) : ¬ outputReg a := by
  simp only [outputReg, Reg.VB_STATUS, Reg.WP_EVTn_CFG, Reg.WP_HSYn_CFG] at *
  omega

/-- The bank is FAULTED with everything off, and its event is raised (R215). -/
theorem bankDown_bankFault {s : State} {d : Dev} (h : d.canFault b) (hb : b < 8) (t cause : Nat) (hs : s.dev = d.bankFault t b cause) :
    bankDown s b := by
  obtain ⟨-, -, -, -, -, hstate, harmed, hwaiting, hgates, -, hidle⟩ := d.bankDropped_law (b := b) t
  have hvb : s.dev.vb = (d.bankDropped t b).vb := by rw [hs, Dev.bankFault_eq h]; simp [Dev.vbFault]
  have hbank := Dev.bank_congr hvb b
  refine ⟨hbank ▸ hstate, hbank ▸ harmed, hbank ▸ hwaiting, hbank ▸ hgates, ?_, fun c hc => ?_⟩
  · rw [hs, Dev.bankFault_eq h, Dev.bit_congr (Dev.raise_rd _ _ _ _ (not_outputReg_bank hb (by simp only [Reg.VB_STATUS, Reg.VB_FAULT]; omega)
      (by simp only [Reg.VB_STATUS, Reg.VB_FAULT]; omega)))]
    exact Dev.bit_faultFlag _ _ _ _ _ (by decide) (by simp only [Reg.VB_FAULT, Reg.SV_LOG_LOST]; omega)
  · rw [Dev.chan_congr (congrArg Bank.chans hbank) c]
    exact hidle c hc

theorem Dev.bankFault_ev {d : Dev} (h : d.canFault b) (t cause : Nat) :
    (d.bankFault t b cause).ev = d.ev ++ [⟨40 + b, BitVec.ofNat 32 cause, t⟩] := by
  obtain ⟨-, -, -, hev, -⟩ := d.bankDropped_law (b := b) t
  rw [Dev.bankFault_eq h, Dev.raise_ev, ← hev]
  simp [Dev.vbFault]

theorem recorded_bankFault {d : Dev} (h : d.canFault b) (t cause : Nat) (hkind : ∀ c, c < 16 → (d.chan b c).kind ≠ 4) :
    recorded d (d.bankFault t b cause) ⟨t, uid 9 b 31, 4, BitVec.ofNat 32 cause⟩ := by
  have hflt : (d.bankDropped t b).flt = d.flt := by rw [Dev.bankDropped, Dev.noteBank_flt, Dev.updBank_flt, d.bankAllOff_flt t 4 hkind]
  rw [Dev.bankFault_eq h]
  unfold recorded
  rw [Dev.raise_flt]
  exact recorded_faultFlag hflt t _ 4 cause _ _

/-- A change that leaves the bank and its flags leaves it down. -/
theorem bankDown_congr {s t : State} (h : bankDown s b) (hbank : t.dev.bank b = s.dev.bank b) (hrd : t.dev.rd (Reg.VB_FAULT b) = s.dev.rd (Reg.VB_FAULT b)) :
    bankDown t b := by
  obtain ⟨hstate, harmed, hwaiting, hgates, hflag, hidle⟩ := h
  refine ⟨hbank ▸ hstate, hbank ▸ harmed, hbank ▸ hwaiting, hbank ▸ hgates, (Dev.bit_congr hrd 3).trans hflag, fun c hc => ?_⟩
  rw [Dev.chan_congr (congrArg Bank.chans hbank) c]
  exact hidle c hc

end Sys2Proof.Machine
end

section
/-! ## Bank links: what is shown, training, and commands (R264, R266, R268, R270) -/

namespace Sys2Proof.Machine
open Sys2Proof.Claims

variable {b : Nat}

/-! ### The registers that show a link -/

/-- The registers in which a link shows its training, stage, challenge and descriptor (R270). -/
def shownReg (b a : Nat) : Prop := Reg.BL_PHASE b ≤ a ∧ a ≤ Reg.BL_CHAL b

/-- From d to e only what is shown of link b has changed. -/
structure Dev.shows (b : Nat) (d e : Dev) : Prop where
  links : e.bl = d.bl
  banks : e.vb = d.vb
  spare : e.spare = d.spare
  heads : e.lt = d.lt
  faults : e.flt = d.flt
  regs : ∀ a, ¬ shownReg b a → e.rd a = d.rd a

theorem Dev.shows.trans {d e f : Dev} (h : d.shows b e) (k : e.shows b f) : d.shows b f :=
  ⟨k.links.trans h.links, k.banks.trans h.banks, k.spare.trans h.spare, k.heads.trans h.heads, k.faults.trans h.faults,
    fun a ha => (k.regs a ha).trans (h.regs a ha)⟩

theorem Dev.shows_wrN (d : Dev) {a : Nat} (v : Nat) (h : shownReg b a) : d.shows b (d.wrN a v) :=
  ⟨rfl, rfl, rfl, rfl, rfl, fun _ hx => Dev.rd_wrN_other d v fun he => hx (he ▸ h)⟩

theorem Dev.shows_showLink (d : Dev) : d.shows b (d.showLink b) :=
  ((d.shows_wrN _ (by simp only [shownReg, Reg.BL_PHASE, Reg.BL_CHAL]; omega)).trans
    (Dev.shows_wrN _ _ (by simp only [shownReg, Reg.BL_PHASE, Reg.BL_CHAL, Reg.BL_STAGE]; omega))).trans
    (Dev.shows_wrN _ _ (by simp only [shownReg, Reg.BL_PHASE, Reg.BL_CHAL]; omega))

theorem Dev.shows_showDesc (d : Dev) : d.shows b (d.showDesc b) := by
  have hwords : ∀ (l : List Byte) (ws : List Nat), (∀ w ∈ ws, w < 6) → ∀ e : Dev, d.shows b e →
      d.shows b (ws.foldl (fun (d : Dev) w => d.wrN (Reg.BL_DESCw b w) (leNat ((l.drop (4 * w)).take 4))) e) := by
    intro l ws
    induction ws with
    | nil => exact fun _ _ he => he
    | cons w ws ih =>
      intro hws e he
      have hw := hws w List.mem_cons_self
      exact ih (fun v hv => hws v (List.mem_cons_of_mem w hv)) _
        (he.trans (e.shows_wrN _ (by simp only [shownReg, Reg.BL_PHASE, Reg.BL_CHAL, Reg.BL_DESCw]; omega)))
  exact hwords _ _ (fun w hw => List.mem_range.mp hw) d ⟨rfl, rfl, rfl, rfl, rfl, fun _ _ => rfl⟩

/-! ### Training begins (R266) -/

/-- The link record at step 1 of a training that begins at t. -/
def BankLink.restart (x : BankLink) (t : Nat) : BankLink := { BankLink.reset with
  on := x.on
  cfg := x.cfg
  swapAt := x.swapAt
  lane0 := { UpLane.reset with rd := x.lane0.rd }
  lane1 := { UpLane.reset with rd := x.lane1.rd }
  out := x.out
  txRd := x.txRd
  down := x.down
  quenchSent := x.quenchSent
  state := 1
  since := t
  seq := x.seq
  stage := x.stage
  temp := x.temp
  flags := x.flags
  chal := x.chal
  acked := x.acked
  cmds := x.cmds.map (fun c => { c with since := none }) }

/-- A training that begins restarts the link record, disarms the bank, and shows both; no other part but the registers shown has changed. -/
theorem Dev.trainStart_law (d : Dev) (t : Nat) :
    (d.trainStart b t).blink b = (d.blink b).restart t ∧ (d.trainStart b t).bank b = { d.bank b with armed := false } ∧
      (d.trainStart b t).spare = d.spare ∧ (d.trainStart b t).lt = d.lt ∧ (d.trainStart b t).flt = d.flt ∧
      ∀ a, ¬ shownReg b a → (d.trainStart b t).rd a = d.rd a := by
  have hshown := (Dev.shows_showDesc (b := b) ((d.setBlink b ((d.blink b).restart t)).updBank b (fun x => { x with armed := false }))).trans
    (Dev.shows_showLink _)
  rw [show d.trainStart b t =
    ((((d.setBlink b ((d.blink b).restart t)).updBank b (fun x => { x with armed := false })).showDesc b).showLink b) from rfl]
  refine ⟨?_, ?_, hshown.spare, hshown.heads, hshown.faults, hshown.regs⟩
  · rw [Dev.blink_congr hshown.links, Dev.blink_congr (Dev.updBank_bl _ _ _), Dev.blink_setBlink_same]
  · rw [Dev.bank_congr hshown.banks, Dev.bank_updBank_same]; rfl

/-- The types of the commands that wait survive the restart of a link. -/
theorem BankLink.restart_types (x : BankLink) (t : Nat) : (x.restart t).cmds.map LinkCmd.type = x.cmds.map LinkCmd.type := by
  simp [BankLink.restart, Function.comp_def]

/-! ### Commands (R264, R266) -/

theorem BankLink.send_types (x : BankLink) (type : Nat) (payload : List Byte) :
    (x.send type payload).cmds.map LinkCmd.type = x.cmds.map LinkCmd.type ++ [type] := by simp [BankLink.send]

theorem BankLink.readPages_types (x : BankLink) : x.readPages.cmds.map LinkCmd.type = x.cmds.map LinkCmd.type ++ [3, 3, 3] := by
  simp [BankLink.readPages, BankLink.send]

theorem BankLink.readPages_state (x : BankLink) : x.readPages.state = 3 := rfl

theorem BankLink.sends_iff (x : BankLink) : x.sends = true ↔ 3 ≤ x.state ∧ x.state ≤ 6 := by simp [BankLink.sends]

/-! ### Fault records of a link (R264, R266, R267) -/

variable (d : Dev) (t el code x : Nat)

@[simp] theorem Dev.blFault_bl : (d.blFault t b el code x).bl = d.bl := by simp [Dev.blFault]
@[simp] theorem Dev.blFault_vb : (d.blFault t b el code x).vb = d.vb := by simp [Dev.blFault]
@[simp] theorem Dev.blFault_lt : (d.blFault t b el code x).lt = d.lt := by simp [Dev.blFault]

theorem Dev.blFault_rd {a : Nat} (hlost : a ≠ Reg.SV_LOG_LOST) (h : a ≠ Reg.BL_FAULT b) : (d.blFault t b el code x).rd a = d.rd a :=
  Dev.rd_faultFlag_other _ _ _ _ _ _ _ hlost h

theorem Dev.bit_blFault (hb : b < 8) {i : Nat} (hi : i = code - 1) (hcode : code ≤ 32) : (d.blFault t b el code x).bit (Reg.BL_FAULT b) i = true := by
  subst hi
  exact Dev.bit_faultFlag _ _ _ _ _ (by omega) (by simp only [Reg.BL_FAULT, Reg.SV_LOG_LOST]; omega)

/-- A register of the bank itself or of its link, other than the bank's fault flags and its count of fires not made. -/
structure linkReg (b a : Nat) : Prop where
  lower : Reg.VB_STATUS b ≤ a
  upper : a < Reg.VB_CHc_CFG b 0
  unit : b < 8
  drop : a ≠ Reg.VB_CNT_DROP b
  fault : a ≠ Reg.VB_FAULT b

theorem linkReg.engine {b a : Nat} (h : linkReg b a) : ¬ engineReg b a := not_engineReg h.lower h.upper h.unit h.drop
theorem linkReg.output {b a : Nat} (h : linkReg b a) : ¬ outputReg a := by
  refine not_outputReg_bank h.unit h.lower ?_
  have hhi := h.upper
  simp only [Reg.VB_STATUS, Reg.VB_CHc_CFG] at *
  omega
theorem linkReg.lost {b a : Nat} (h : linkReg b a) : a ≠ Reg.SV_LOG_LOST := fun he => h.engine (.inl he)

theorem linkReg_fault (hb : b < 8) : linkReg b (Reg.BL_FAULT b) := by
  refine ⟨?_, ?_, hb, ?_, ?_⟩ <;> simp only [Reg.BL_FAULT, Reg.VB_STATUS, Reg.VB_CHc_CFG, Reg.VB_CNT_DROP, Reg.VB_FAULT] <;> omega

theorem linkReg_uperr (hb : b < 8) : linkReg b (Reg.BL_CNT_UPERR b) := by
  refine ⟨?_, ?_, hb, ?_, ?_⟩ <;> simp only [Reg.BL_CNT_UPERR, Reg.VB_STATUS, Reg.VB_CHc_CFG, Reg.VB_CNT_DROP, Reg.VB_FAULT] <;> omega

theorem linkReg_cfg (hb : b < 8) : linkReg b (Reg.VB_CFG b) := by
  refine ⟨?_, ?_, hb, ?_, ?_⟩ <;> simp only [Reg.VB_CFG, Reg.VB_STATUS, Reg.VB_CHc_CFG, Reg.VB_CNT_DROP, Reg.VB_FAULT] <;> omega

/-- A bank's fault leaves the registers of its link, and its settings. -/
theorem Dev.bankFault_rd {a : Nat} (h : linkReg b a) (cause : Nat) : (d.bankFault t b cause).rd a = d.rd a :=
  (d.bankOnly_bankFault t cause).regs a h.engine h.output h.fault

end Sys2Proof.Machine
end

section
/-! ## The line code of the links loses nothing (R252 to R256) -/

namespace Sys2Proof.Machine

/-- The symbols of the code: the bytes, and the two markers of the uplink, at either running disparity. -/
def codeSymbols : List (Bool × Nat) := (List.range 256).map (fun v => (false, v)) ++ [(true, 60), (true, 188)]

/-- Every symbol at either disparity reads back as what was sent, and leaves the receiver the sender's disparity. It is 10 bits long. -/
theorem decode_encode_symbols : ∀ rd : Bool, ∀ v ∈ codeSymbols,
    (encodeSymbol rd v.1 v.2).1 < 1024 ∧ decodeSymbol rd (encodeSymbol rd v.1 v.2).1 = (some v, (encodeSymbol rd v.1 v.2).2) := by decide +kernel

theorem mem_codeSymbols_data {n : Nat} (h : n < 256) : (false, n) ∈ codeSymbols :=
  List.mem_append_left _ (List.mem_map.mpr ⟨n, List.mem_range.mpr h, rfl⟩)

theorem mem_codeSymbols_marker {y : Nat} (h : y = 1 ∨ y = 5) : (true, 28 + 32 * y) ∈ codeSymbols := by
  rcases h with rfl | rfl <;> exact List.mem_append_right _ (by simp)

/-- A frame's line decodes to the marker and the payload's bytes, lowest first. -/
theorem decode_encodeFrame (rd : Bool) {y w : Nat} (hy : y = 1 ∨ y = 5) :
    (decodeFrame rd (encodeFrame rd y w).1).1 =
      [some (true, 28 + 32 * y), some (false, w % 256), some (false, w / 256 % 256), some (false, w / 65536 % 256)] := by
  obtain ⟨h0, e0⟩ := decode_encode_symbols rd _ (mem_codeSymbols_marker hy)
  obtain ⟨h1, e1⟩ := decode_encode_symbols (encodeSymbol rd true (28 + 32 * y)).2 _ (mem_codeSymbols_data (Nat.mod_lt w (by decide : 256 > 0)))
  generalize hs0 : encodeSymbol rd true (28 + 32 * y) = s0 at *
  generalize hs1 : encodeSymbol s0.2 false (w % 256) = s1 at *
  obtain ⟨h2, e2⟩ := decode_encode_symbols s1.2 _ (mem_codeSymbols_data (Nat.mod_lt (w / 256) (by decide : 256 > 0)))
  generalize hs2 : encodeSymbol s1.2 false (w / 256 % 256) = s2 at *
  obtain ⟨h3, e3⟩ := decode_encode_symbols s2.2 _ (mem_codeSymbols_data (Nat.mod_lt (w / 65536) (by decide : 256 > 0)))
  generalize hs3 : encodeSymbol s2.2 false (w / 65536 % 256) = s3 at *
  have hline : (encodeFrame rd y w).1 = ((s0.1 * 1024 + s1.1) * 1024 + s2.1) * 1024 + s3.1 := by
    simp only [encodeFrame, List.foldl_cons, List.foldl_nil, hs0, hs1, hs2, hs3, Nat.zero_mul, Nat.zero_add]
  have q0 : (encodeFrame rd y w).1 / 2 ^ 30 % 1024 = s0.1 := by rw [hline]; omega
  have q1 : (encodeFrame rd y w).1 / 2 ^ 20 % 1024 = s1.1 := by rw [hline]; omega
  have q2 : (encodeFrame rd y w).1 / 2 ^ 10 % 1024 = s2.1 := by rw [hline]; omega
  have q3 : (encodeFrame rd y w).1 % 1024 = s3.1 := by rw [hline]; omega
  simp only [decodeFrame, q0, q1, q2, q3, List.foldl_cons, List.foldl_nil, e0, e1, e2, e3, List.nil_append, List.cons_append]

/-- An uplink frame sent with the marker of the next position, and odd parity, is valid (R254, R255). -/
theorem UpLane.receive_encodeFrame (x : UpLane) {pos w : Nat} (hpos : x.pos = some pos) (hw : w < 2 ^ 24) (hodd : onesOf 24 w % 2 = 1) :
    (x.receive false (encodeFrame x.rd (if pos % 16 = 15 then 5 else 1) w).1).1 = some w := by
  have hy : (if pos % 16 = 15 then 5 else 1) = 1 ∨ (if pos % 16 = 15 then 5 else 1) = 5 := by split <;> simp
  have hbytes : w % 256 + 256 * (w / 256 % 256) + 65536 * (w / 65536 % 256) = w := by omega
  have hcount : (countFrame false (some pos) (some (true, 28 + 32 * (if pos % 16 = 15 then 5 else 1)))).2 = true := by
    by_cases h : pos % 16 = 15
    · have hnext : (pos + 1) % 16 = 0 := by omega
      simp [countFrame, h, hnext]
    · obtain ⟨n, hn⟩ : ∃ n, (pos + 1) % 16 = n + 1 := ⟨(pos + 1) % 16 - 1, by omega⟩
      simp [countFrame, h, hn]
  unfold UpLane.receive
  simp only [decode_encodeFrame x.rd hy, hpos, List.getD_cons_zero, List.getD_cons_succ, List.filterMap_cons, List.filterMap_nil, hcount, hbytes, hodd]
  rfl

end Sys2Proof.Machine
end

section
/-! ## Commands of banks, pairs and the spare engine (R213 to R218) -/

namespace Sys2Proof.Machine
open Sys2Proof.Claims

/-! ### What a read of the save area leaves (R247, R387) -/

theorem Dev.fbFault_keeps {β : Type} (p : Dev → β) (hwr : ∀ d a v, p (Dev.wrN d a v) = p d) (hfault : ∀ d t u c x, p (Dev.fault d t u c x) = p d)
    (hfab : ∀ d f, p (Dev.updFab d f) = p d) (d : Dev) (t u c x : Nat) : p (d.fbFault t u c x) = p d := by
  have hflag : ∀ i, p (d.flag Reg.FB_FAULT i) = p d := fun i => hwr d _ _
  unfold Dev.fbFault; dsimp only
  split_ifs
  · exact hflag _
  · rw [hfab, hfault, hflag]

theorem Dev.readPoison_keeps {β : Type} (p : Dev → β) (hwr : ∀ d a v, p (Dev.wrN d a v) = p d) (hfault : ∀ d t u c x, p (Dev.fault d t u c x) = p d)
    (hfab : ∀ d f, p (Dev.updFab d f) = p d) (hbump : ∀ d a, p (Dev.bump d a) = p d) (d : Dev) (t req a n : Nat) : p (d.readPoison t req a n) = p d := by
  have hUE : ∀ (d : Dev) (a : Nat), p (d.readUE t req a) = p d := fun d a => by
    unfold Dev.readUE Dev.markRow; dsimp only
    rw [Dev.fbFault_keeps p hwr hfault hfab, hwr, hbump]
    split
    · rfl
    · rw [hfab, hfab]
  unfold Dev.readPoison; dsimp only
  split
  · rw [hUE, Dev.foldl_keeps p _ (fun d x => hUE d x)]
  · rw [Dev.foldl_keeps p _ (fun d x => hUE d x)]

theorem Dev.readPoison_spare (d : Dev) (t req a n : Nat) : (d.readPoison t req a n).spare = d.spare :=
  Dev.readPoison_keeps Dev.spare (fun _ _ _ => rfl) Dev.fault_spare (fun _ _ => rfl) Dev.bump_spare d t req a n

theorem Dev.readPoison_lt (d : Dev) (t req a n : Nat) : (d.readPoison t req a n).lt = d.lt :=
  Dev.readPoison_keeps Dev.lt (fun _ _ _ => rfl) Dev.fault_lt (fun _ _ => rfl) Dev.bump_lt d t req a n

theorem Dev.readPoison_vb (d : Dev) (t req a n : Nat) : (d.readPoison t req a n).vb = d.vb := (d.fabricOnly_readPoison t req a n).2.2.1

/-- Where no word reads uncorrectable, a read tells of nothing. -/
theorem Dev.readPoison_clean {d : Dev} (h : noBadWord d) (t req a n : Nat) : d.readPoison t req a n = d := by
  obtain ⟨hpoison, hretired⟩ := h
  simp [Dev.readPoison, hretired, hpoison]

/-! ### Clear commands (R215, R267) -/

variable {s : State} {b : Nat} {d : Dev}

/-- The bank record of a bank whose clear command waits. -/
def Bank.cleared (x : Bank) : Bank := { x with
  clearing := true, armed := false, loaded := x.loaded && !x.engineFault, engineFault := false, allOff := false }

theorem Dev.vbClearFault_none (h : d.vbOn b = false ∨ (d.bank b).state ≠ 3 ∨ d.safe = true) (t : Nat) : d.vbClearFault t b = d := if_pos h

section clear
variable (hon : d.vbOn b = true) (hstate : (d.bank b).state = 3) (hsafe : d.safe = false) (t : Nat)
include hon hstate hsafe

theorem Dev.vbClearFault_off (hlink : d.blOn b = false) : d.vbClearFault t b = d.updBank b Bank.cleared := by
  unfold Dev.vbClearFault
  rw [if_neg (by simp [hon, hstate, hsafe])]
  exact if_pos hlink

theorem Dev.vbClearFault_lost (hlink : d.blOn b = true) (hlost : (d.blink b).state = 6) : d.vbClearFault t b =
    ((((d.updBank b Bank.cleared).updBlink b (fun y => y.send 4 (List.replicate 8 0))).updBlink b
      (fun y => { y with cmds := y.cmds.filter (fun c => decide (c.type = 4)) })).trainStart b t) := by
  unfold Dev.vbClearFault
  rw [if_neg (by simp [hon, hstate, hsafe])]
  refine (if_neg ?_).trans (if_pos ?_)
  · exact fun h => absurd (hlink.symm.trans h) (by decide)
  · rw [Dev.blink_updBlink_same]; exact hlost

theorem Dev.vbClearFault_up (hlink : d.blOn b = true) (hlost : (d.blink b).state ≠ 6) (hup : 3 ≤ (d.blink b).state) : d.vbClearFault t b =
    (((d.updBank b Bank.cleared).updBlink b (fun y => y.send 4 (List.replicate 8 0))).updBlink b BankLink.readPages) := by
  unfold Dev.vbClearFault
  rw [if_neg (by simp [hon, hstate, hsafe])]
  refine (if_neg ?_).trans ((if_neg ?_).trans (if_neg ?_))
  · exact fun h => absurd (hlink.symm.trans h) (by decide)
  · rw [Dev.blink_updBlink_same]; exact hlost
  · rw [Dev.blink_updBlink_same]; exact Nat.not_lt.mpr hup

theorem Dev.vbClearFault_training (hlink : d.blOn b = true) (hdown : (d.blink b).state < 3) : d.vbClearFault t b =
    (d.updBank b Bank.cleared).updBlink b (fun y => y.send 4 (List.replicate 8 0)) := by
  unfold Dev.vbClearFault
  rw [if_neg (by simp [hon, hstate, hsafe])]
  refine (if_neg ?_).trans ((if_neg ?_).trans (if_pos ?_))
  · exact fun h => absurd (hlink.symm.trans h) (by decide)
  · rw [Dev.blink_updBlink_same]; exact fun (h : (d.blink b).state = 6) => by omega
  · rw [Dev.blink_updBlink_same]; exact hdown

end clear

/-! ### Pair commands (R213, R214) -/

/-- A command to the pairs of a mask that names pair p alone. -/
theorem Dev.pairCommand_one (d : Dev) (t b : Nat) {p : Nat} (hp : p < 8) (f : Dev → Nat → Dev) (trips : Bool) :
    d.pairCommand t b (2 ^ p) f trips =
      if d.pairRefused b p - (if trips then 0 else 4 * b2n (d.chan b p).coil.trip) ≠ 0 then
        d.vbFault t b p 0x0009 (d.pairRefused b p - (if trips then 0 else 4 * b2n (d.chan b p).coil.trip))
      else f d p := by
  have hskip : ∀ (l : List Nat) (e : Dev), p ∉ l → l.foldl (fun (d : Dev) q =>
      if nbit (2 ^ p) q = false then d
      else
        let why := d.pairRefused b q - (if trips then 0 else 4 * b2n (d.chan b q).coil.trip)
        if why ≠ 0 then d.vbFault t b q 0x0009 why else f d q) e = e := by
    intro l
    induction l with
    | nil => exact fun _ _ => rfl
    | cons q l ih =>
      intro e hl
      have hq : nbit (2 ^ p) q = false := Nat.testBit_two_pow_of_ne fun he => hl (he ▸ List.mem_cons_self)
      rw [List.foldl_cons, if_pos hq]
      exact ih e fun h => hl (List.mem_cons_of_mem q h)
  have hself : nbit (2 ^ p) p = true := Nat.testBit_two_pow_self
  have hrange : List.range 8 = List.range p ++ p :: (List.range (7 - p)).map (fun i => p + 1 + i) := by
    interval_cases p <;> rfl
  unfold Dev.pairCommand
  rw [hrange, List.foldl_append, hskip (List.range p) d List.not_mem_range_self, List.foldl_cons, hskip (List.map _ _) _ (by simp; omega),
    if_neg (by simp [hself])]

theorem mask_toNat {p : Nat} (hp : p < 8) : (BitVec.ofNat 8 (2 ^ p) : Byte).toNat = 2 ^ p := by
  rw [BitVec.toNat_ofNat, Nat.mod_eq_of_lt (Nat.pow_lt_pow_right (by decide) hp)]

/-- Why a pair's command is refused, but for the trip of its coil. -/
theorem Dev.pairRefused_eq (d : Dev) (b p : Nat) :
    d.pairRefused b p = (if d.pairOwned b p then 1 else 0) + (if d.chanCmd b p then 0 else 2) + (if (d.chan b p).coil.trip then 4 else 0) := by
  unfold Dev.pairRefused b2n
  cases d.pairOwned b p <;> cases d.chanCmd b p <;> cases (d.chan b p).coil.trip <;> rfl

/-- What a refused command to pair p leaves, with the record of the reason (fault 0x0009). -/
theorem Dev.vbFault_refused (d : Dev) (t : Nat) (hb : b < 8) (p n : Nat) :
    (d.vbFault t b p 9 n).vb = d.vb ∧ (d.vbFault t b p 9 n).bit (Reg.VB_FAULT b) 8 = true ∧
      recorded d (d.vbFault t b p 9 n) ⟨t, uid 9 b p, 9, BitVec.ofNat 32 n⟩ :=
  ⟨by simp [Dev.vbFault], Dev.bit_faultFlag _ _ _ _ _ (by decide) (by simp only [Reg.VB_FAULT, Reg.SV_LOG_LOST]; omega),
    recorded_faultFlag rfl _ _ _ _ _ _⟩

theorem Dev.pairClose_regs (d : Dev) (b p : Nat) : (d.pairClose b p).regs = d.regs := by
  unfold Dev.pairClose; dsimp only; split_ifs <;> rfl

theorem Dev.pairClose_other (d : Dev) (b : Nat) {p q : Nat} (h : q ≠ p) : (d.pairClose b p).pair b q = d.pair b q := by
  unfold Dev.pairClose; dsimp only
  split_ifs
  · rfl
  · exact Dev.pair_setPair_other d b _ h
  · exact Dev.pair_setPair_other d b _ h

theorem Dev.regate_law (d : Dev) (t b : Nat) : (d.regate t b).regs = d.regs ∧ ((d.regate t b).bank b).chans = (d.bank b).chans ∧
    ((d.regate t b).bank b).pairs = (d.bank b).pairs := by
  unfold Dev.regate Dev.laceGates; dsimp only
  split_ifs <;> first | exact ⟨rfl, rfl, rfl⟩ | exact ⟨rfl, by rw [Dev.bank_setBank_same], by rw [Dev.bank_setBank_same]⟩

/-- A release to a pair that is on: the pair goes off, and its channel quenches from the next boundary (R213, R235). -/
theorem Dev.pairRelease_on (d : Dev) (t : Nat) {p : Nat} (hp : p < 16) (h : (d.pair b p).on = true) :
    ((d.chan b p).kind ≠ 4 → (d.pairRelease t b p).regs = d.regs) ∧ (∀ q, q ≠ p → (d.pairRelease t b p).pair b q = d.pair b q) ∧
      (d.pairRelease t b p).pair b p = { d.pair b p with on := false } ∧ ((d.pairRelease t b p).chan b p).kind = 5 ∧
      ((d.pairRelease t b p).chan b p).released = true ∧ ((d.pairRelease t b p).chan b p).watch = false ∧
      ((d.chan b p).kind ≠ 5 → ((d.pairRelease t b p).chan b p).quenchAt = some (t / 40 + 1)) := by
  have hheld := d.chanWork_holdEnds (b := b) t hp
  have hpairs : ((d.holdEnds t b p).bank b).pairs = (d.bank b).pairs := by rw [Bank.pairs_of_plan hheld.bank]; rfl
  have hkind : (d.chan b p).kind ≠ 5 → ((d.holdEnds t b p).chan b p).kind ≠ 5 := fun hne => by
    obtain ⟨q, hq⟩ := d.holdEnds_chan (b := b) (c := p) t
    rwa [hq]
  unfold Dev.pairRelease
  rw [if_pos h]
  dsimp only
  obtain ⟨hregs, hchans, hpairs'⟩ := Dev.regate_law (((d.holdEnds t b p).setPair b p { d.pair b p with on := false }).setChan b p
    { (d.holdEnds t b p).chan b p with
      released := true, kind := 5, watch := false
      quenchAt := if ((d.holdEnds t b p).chan b p).kind = 5 then ((d.holdEnds t b p).chan b p).quenchAt else some (t / 40 + 1) }) t b
  have hpair := Dev.pair_congr hpairs'
  have hchan := Dev.chan_congr hchans p
  simp only [Dev.chan_setChan_same, Dev.pair_setChan] at hchan hpair
  refine ⟨fun hne => ?_, fun q hq => ?_, ?_, ?_, ?_, ?_, fun hne => ?_⟩
  · rw [hregs, Dev.holdEnds_other d t hne]; rfl
  · rw [hpair, Dev.pair_setPair_other _ _ _ hq, Dev.pair_congr hpairs]
  · rw [hpair, Dev.pair_setPair_same]
  · rw [hchan]
  · rw [hchan]
  · rw [hchan]
  · rw [hchan]; exact if_neg (hkind hne)

/-- A release to a pair that is off takes back a close that waits or is held. -/
theorem Dev.pairRelease_off (d : Dev) (t b p : Nat) (h : (d.pair b p).on = false) :
    d.pairRelease t b p = d.setPair b p ⟨false, false, false⟩ := by
  unfold Dev.pairRelease
  rw [if_neg (by simp [h])]
  simp only [← h]

/-! ### The spare engine (R216 to R218) -/

theorem Dev.spareCan_iff (d : Dev) (b : Nat) : d.spareCan b = true ↔ d.vbOn b = true ∧ (d.bank b).engineFault = true ∧ (d.bank b).served = false ∧
    (d.bank b).state ≠ 3 ∧ d.bit Reg.VB_SP_CFG b = true ∧ d.spare.state = 0 ∧ d.spare.healthy = true := by
  simp [Dev.spareCan, and_assoc]

theorem Dev.spareTakeover_law (h : d.spareCan b = true) (t : Nat) :
    (d.spareTakeover t b).spare = { d.spare with state := 1, bank := b, rowsLost := 0, handover := false, ready := false, returning := false } ∧
      ((d.spareTakeover t b).bank b).allOff = true ∧ ((d.spareTakeover t b).bank b).waiting = [] ∧ ((d.spareTakeover t b).bank b).gates = 0 ∧
      ∀ c, c < 16 → ((d.spareTakeover t b).chan b c).kind = 0 := by
  have hgone := Dev.bankGone_bankAllOff (b := b) d t 5
  simp only [Dev.spareTakeover, if_pos h]
  generalize d.bankAllOff t b 5 = e at hgone
  have hbank : ((e.updBank b (fun x => { x with allOff := true })).updSpare (fun s =>
      { s with state := 1, bank := b, rowsLost := 0, handover := false, ready := false, returning := false })).bank b =
      { e.bank b with allOff := true } := by rw [Dev.bank_congr (Dev.updSpare_vb _ _), Dev.bank_updBank_same]
  refine ⟨?_, by rw [hbank], ?_, ?_, fun c hc => ?_⟩
  · rw [Dev.updSpare_spare, Dev.updBank_spare, hgone.spare]
  · rw [hbank]; exact Bank.waiting_of_plan hgone.bank
  · rw [hbank]; exact Bank.gates_of_plan hgone.bank
  · rw [Dev.chan_congr (d := e) (by rw [hbank]) c]
    exact (hgone.idle c hc).1

section load
variable (hstate : d.spare.state = 1) (hready : d.spare.ready = false) (m : Mem) (t : Nat)
include hstate hready

/-- The device as it has read the save area of the bank that the spare loads, and the spare that has loaded it. -/
def Dev.spareLoaded (d : Dev) (m : Mem) (t : Nat) : Dev := (d.readSave m t d.spare.bank).1.updSpare (fun s => { s with
  code := codeImage (d.readSave m t d.spare.bank).2 (d.rdN (Reg.LC_SAVE_BASE d.spare.bank))
  chans := saveChannels (d.readSave m t d.spare.bank).2 (d.rdN (Reg.LC_SAVE_BASE d.spare.bank))
  ready := true
  state := if s.handover then 1 else 2 })

omit hstate hready in
theorem Dev.spareLoaded_law : (d.spareLoaded m t).vb = d.vb ∧ (d.spareLoaded m t).lt = d.lt ∧ (d.spareLoaded m t).spare.ready = true ∧
    (d.spareLoaded m t).spare.state = (if d.spare.handover then 1 else 2) ∧
    (noBadWord d → (d.spareLoaded m t).regs = d.regs ∧ (d.spareLoaded m t).flt = d.flt) := by
  refine ⟨Dev.readPoison_vb .., Dev.readPoison_lt .., rfl, ?_, fun hclean => ?_⟩
  · exact congrArg (fun x : Spare => if x.handover then 1 else 2) (Dev.readPoison_spare ..)
  · have hread : (d.readSave m t d.spare.bank).1 = d := Dev.readPoison_clean hclean ..
    simp only [Dev.spareLoaded, hread, Dev.updSpare_regs, Dev.updSpare_flt, and_self]

theorem Dev.spareLoadDone_ok : d.spareLoadDone m t true =
    if d.spare.handover then d.spareLoaded m t
    else ((d.spareLoaded m t).updBank d.spare.bank (fun x => { x with overflow := true })).spareFault t d.spare.bank 0x0005 d.spare.rowsLost := by
  unfold Dev.spareLoadDone
  rw [if_neg (by simp [hstate, hready])]
  rfl

theorem Dev.spareLoadDone_fails : d.spareLoadDone m t false =
    if d.spare.handover then (d.updSpare (fun s => { s with state := 3, healthy := false })).flag Reg.VB_SP_FAULT 2
    else ((d.updSpare (fun s => { s with state := 3, healthy := false })).flag Reg.VB_SP_FAULT 2).bankFault t d.spare.bank 4 := by
  unfold Dev.spareLoadDone
  rw [if_neg (by simp [hstate, hready])]
  rfl

end load

theorem Dev.spareLoadDone_none (h : d.spare.state ≠ 1 ∨ d.spare.ready = true) (m : Mem) (t : Nat) (ok : Bool) : d.spareLoadDone m t ok = d := if_pos h

/-- The record of the spare, with the flags of the bank and of its own (R14, R221). -/
theorem Dev.spareFault_law (d : Dev) (t : Nat) (hb : b < 8) (x : Nat) :
    (d.spareFault t b 5 x).vb = d.vb ∧ (d.spareFault t b 5 x).lt = d.lt ∧ (d.spareFault t b 5 x).spare = d.spare ∧
      (d.spareFault t b 5 x).bit Reg.VB_SP_FAULT 0 = true ∧ (d.spareFault t b 5 x).bit (Reg.VB_FAULT b) 4 = true ∧
      recorded d (d.spareFault t b 5 x) ⟨t, uid 9 8 31, 5, BitVec.ofNat 32 x⟩ := by
  have hdef : d.spareFault t b 5 x = (d.flag (Reg.VB_FAULT b) 4).faultFlag t (uid 9 8 31) 5 x Reg.VB_SP_FAULT 0 := rfl
  have hflag : (d.flag (Reg.VB_FAULT b) 4).bit (Reg.VB_FAULT b) 4 = true := Dev.bit_flag _ _ (by decide)
  rw [hdef]
  refine ⟨by simp, by simp, by simp, Dev.bit_faultFlag _ _ _ _ _ (by decide) (by decide), ?_, recorded_faultFlag (Dev.flag_flt _ _ _) _ _ _ _ _ _⟩
  rw [Dev.bit_congr (Dev.rd_faultFlag_other _ _ _ _ _ _ _ (by simp only [Reg.VB_FAULT, Reg.SV_LOG_LOST]; omega)
    (by simp only [Reg.VB_FAULT, Reg.VB_SP_FAULT]; omega))]
  exact hflag

end Sys2Proof.Machine
end

section
/-! ## What comes up a link: frames, STATUS and DESC messages (R255, R260 to R267) -/

namespace Sys2Proof.Machine
open Sys2Proof.Claims

variable {b : Nat}

/-! ### The counts of invalid frames (R260) -/

/-- Counting in the lower half of a register: saturating there, and leaving the upper half. -/
theorem Dev.fld_bumpFld_low (d : Dev) (a : Nat) :
    (d.bumpFld a 15 0).fld a 15 0 = min 65535 (d.fld a 15 0 + 1) ∧ (d.bumpFld a 15 0).fld a 31 16 = d.fld a 31 16 := by
  have hlt : d.rdN a < 4294967296 := d.rdN_lt a
  simp only [Dev.bumpFld, Dev.putFld, Dev.fld, nfld, Dev.rdN_wrN_same]
  norm_num
  omega

/-- Counting in the upper half. -/
theorem Dev.fld_bumpFld_high (d : Dev) (a : Nat) :
    (d.bumpFld a 31 16).fld a 31 16 = min 65535 (d.fld a 31 16 + 1) ∧ (d.bumpFld a 31 16).fld a 15 0 = d.fld a 15 0 := by
  have hlt : d.rdN a < 4294967296 := d.rdN_lt a
  simp only [Dev.bumpFld, Dev.putFld, Dev.fld, nfld, Dev.rdN_wrN_same]
  norm_num
  omega

/-- The device with the invalid frames of each lane counted. -/
def Dev.frameCounted (d : Dev) (b : Nat) (v0 v1 : Option Nat) : Dev :=
  let d := if v0.isSome then d else d.bumpFld (Reg.BL_CNT_UPERR b) 15 0
  if v1.isSome then d else d.bumpFld (Reg.BL_CNT_UPERR b) 31 16

theorem Dev.frameCounted_keeps {β : Type} (p : Dev → β) (h : ∀ d a v, p (Dev.wrN d a v) = p d) (d : Dev) (v0 v1 : Option Nat) :
    p (d.frameCounted b v0 v1) = p d := by
  have hbump : ∀ (e : Dev) (hi lo : Nat), p (e.bumpFld (Reg.BL_CNT_UPERR b) hi lo) = p e := fun e hi lo => h e _ _
  unfold Dev.frameCounted; dsimp only
  split_ifs <;> simp only [hbump]

theorem Dev.frameCounted_rd (d : Dev) (v0 v1 : Option Nat) {a : Nat} (h : a ≠ Reg.BL_CNT_UPERR b) : (d.frameCounted b v0 v1).rd a = d.rd a := by
  have hbump : ∀ (e : Dev) (hi lo : Nat), (e.bumpFld (Reg.BL_CNT_UPERR b) hi lo).rd a = e.rd a := fun e hi lo => Dev.rd_putFld_other e hi lo _ h
  unfold Dev.frameCounted; dsimp only
  split_ifs <;> simp only [hbump]

theorem Dev.frameCounted_low (d : Dev) (v1 : Option Nat) :
    (d.frameCounted b none v1).fld (Reg.BL_CNT_UPERR b) 15 0 = min 65535 (d.fld (Reg.BL_CNT_UPERR b) 15 0 + 1) := by
  cases v1 with
  | none => exact (Dev.fld_bumpFld_high _ _).2.trans (d.fld_bumpFld_low _).1
  | some _ => exact (d.fld_bumpFld_low _).1

theorem Dev.frameCounted_high (d : Dev) (v0 : Option Nat) :
    (d.frameCounted b v0 none).fld (Reg.BL_CNT_UPERR b) 31 16 = min 65535 (d.fld (Reg.BL_CNT_UPERR b) 31 16 + 1) := by
  cases v0 with
  | none => exact (Dev.fld_bumpFld_high _ _).1.trans (congrArg (fun n => min 65535 (n + 1)) (d.fld_bumpFld_low _).2)
  | some _ => exact (d.fld_bumpFld_high _).1

/-! ### The third invalid frame in a row (R260) -/

/-- The link loses its uplink, with n0 and n1 invalid frames in a row on its lanes. -/
def Dev.linkLost (d : Dev) (t b n0 n1 : Nat) : Dev :=
  let d := if 3 ≤ n0 then d.blFault t b 2 0x0002 n0 else d
  let d := if 3 ≤ n1 then d.blFault t b 3 0x0002 n1 else d
  (d.updBank b (fun y => { y with armed := false })).bankFault t b 1

theorem Dev.linkLost_law (d : Dev) (t : Nat) {n0 n1 : Nat} (hb : b < 8) (h : 3 ≤ n0 ∨ 3 ≤ n1) :
    (d.linkLost t b n0 n1).bl = d.bl ∧ (d.linkLost t b n0 n1).lt = d.lt ∧ (d.linkLost t b n0 n1).bit (Reg.BL_FAULT b) 1 = true ∧
      (d.linkLost t b n0 n1).rd (Reg.BL_CNT_UPERR b) = d.rd (Reg.BL_CNT_UPERR b) ∧
      ∀ s : State, s.dev = d.linkLost t b n0 n1 → d.canFault b → bankDown s b := by
  let e0 := if 3 ≤ n0 then d.blFault t b 2 0x0002 n0 else d
  let e1 := if 3 ≤ n1 then e0.blFault t b 3 0x0002 n1 else e0
  have hrd : ∀ a, a ≠ Reg.SV_LOG_LOST → a ≠ Reg.BL_FAULT b → e1.rd a = d.rd a := fun a hs hf => by
    simp only [e1, e0]; split_ifs <;> simp only [Dev.blFault_rd _ _ _ _ _ hs hf]
  have hkeeps : e1.bl = d.bl ∧ e1.lt = d.lt ∧ e1.vb = d.vb := by
    simp only [e1, e0]; split_ifs <;> simp
  have hflag : e1.bit (Reg.BL_FAULT b) 1 = true := by
    by_cases h1 : 3 ≤ n1
    · simp only [e1, if_pos h1]; exact Dev.bit_blFault _ _ _ _ _ hb rfl (by decide)
    · simp only [e1, e0, if_neg h1, if_pos (h.resolve_right h1)]; exact Dev.bit_blFault _ _ _ _ _ hb rfl (by decide)
  obtain ⟨hbl, hlt, hvb⟩ := hkeeps
  have hlost : d.linkLost t b n0 n1 = (e1.updBank b (fun y => { y with armed := false })).bankFault t b 1 := rfl
  have honly := Dev.bankOnly_bankFault (b := b) (e1.updBank b (fun y => { y with armed := false })) t 1
  refine ⟨honly.links.trans hbl, honly.heads.trans hlt, ?_, ?_, fun s hs hcan => ?_⟩
  · rw [hlost, Dev.bit_congr (Dev.bankFault_rd _ _ (linkReg_fault hb) 1)]; exact hflag
  · rw [hlost, Dev.bankFault_rd _ _ (linkReg_uperr hb) 1]
    exact hrd _ (linkReg_uperr hb).lost (by simp only [Reg.BL_CNT_UPERR, Reg.BL_FAULT]; omega)
  · refine bankDown_bankFault ⟨?_, ?_⟩ hb t 1 hs
    · exact (Dev.bit_congr (hrd _ (linkReg_cfg hb).lost (by simp only [Reg.VB_CFG, Reg.BL_FAULT]; omega)) 0).trans hcan.1
    · rw [Dev.bank_updBank_same, Dev.bank_congr hvb]; exact hcan.2

/-! ### An uplink frame -/

/-- Invalid frames in a row after one more frame. -/
def badAfter (v : Option Nat) (n : Nat) : Nat := if v.isSome then 0 else n + 1

/-- What a link receives on each lane, and whether the link works and is lost with it. -/
def BankLink.got0 (x : BankLink) (line : Nat) : Option Nat := (x.lane0.receive (decide (x.state = 1 ∨ x.state = 2)) line).1
def BankLink.got1 (x : BankLink) (line : Nat) : Option Nat := (x.lane1.receive (decide (x.state = 1 ∨ x.state = 2)) line).1
def BankLink.isUp (x : BankLink) : Bool := decide (3 ≤ x.state) && decide (x.state ≤ 5)
def BankLink.loses (x : BankLink) (line0 line1 : Nat) : Bool :=
  x.isUp && (decide (3 ≤ badAfter (x.got0 line0) x.bad0) || decide (3 ≤ badAfter (x.got1 line1) x.bad1))

/-- The link record after a frame that came at t. -/
def BankLink.frameIn (x : BankLink) (t line0 line1 : Nat) : BankLink :=
  let f0 := x.lane0.receive (decide (x.state = 1 ∨ x.state = 2)) line0
  let f1 := x.lane1.receive (decide (x.state = 1 ∨ x.state = 2)) line1
  let s0 := (f0.2.score (x.scanPhase t) f0.1.isSome).takeSlow f0.1
  let s1 := (f1.2.score (x.scanPhase t) f1.1.isSome).takeSlow f1.1
  { x with
    lane0 := s0.1
    lane1 := s1.1
    bad0 := badAfter (x.got0 line0) x.bad0
    bad1 := badAfter (x.got1 line1) x.bad1
    msgs := x.msgs ++ (slowNews s0.2 s1.2).1
    lastMsg := if (slowNews s0.2 s1.2).2 then t else x.lastMsg
    inbox := if x.isUp then x.inbox ++ [⟨frameNo t x.r (f0.2.pos.getD 0) + x.lat, x.got0 line0, x.got1 line1⟩] else x.inbox
    state := if x.loses line0 line1 then 6 else x.state }

/-- A frame of a link that is on: the invalid lanes are counted, the link record is changed, and a link that loses its uplink has its fault. -/
theorem Dev.uplinkFrame_eq {d : Dev} (hon : (d.blink b).on = true) (t line0 line1 : Nat) :
    d.uplinkFrame t b line0 line1 =
      let x := d.blink b
      let e := (d.frameCounted b (x.got0 line0) (x.got1 line1)).setBlink b (x.frameIn t line0 line1)
      if x.loses line0 line1 then e.linkLost t b (badAfter (x.got0 line0) x.bad0) (badAfter (x.got1 line1) x.bad1) else e := by
  unfold Dev.uplinkFrame
  exact if_neg (by simp [hon])

/-! ### STATUS messages (R263, R264, R266, R267) -/

theorem BankLink.acknowledge_law (x : BankLink) (seq : Nat) : ∃ l, x.acknowledge seq = { x with cmds := l } := by
  unfold BankLink.acknowledge
  split
  · exact ⟨x.cmds, rfl⟩
  · split
    exacts [⟨_, rfl⟩, ⟨x.cmds, rfl⟩]

/-- Byte i of a message. -/
def msgByte (msg : List Byte) (i : Nat) : Nat := (msg.getD i 0).toNat

/-- The link record with what a STATUS message says. -/
def BankLink.told (x : BankLink) (msg : List Byte) : BankLink :=
  BankLink.acknowledge { x with
    stage := msgByte msg 1 % 4
    chal := msgByte msg 2 + 256 * msgByte msg 3
    temp := msgByte msg 4 + 256 * msgByte msg 5
    flags := msgByte msg 6
    acked := msgByte msg 7 % 16 } (msgByte msg 7 % 16)

theorem BankLink.told_law (x : BankLink) (msg : List Byte) : (x.told msg).state = x.state ∧ (x.told msg).msgs = x.msgs ∧
    (x.told msg).stage = msgByte msg 1 % 4 ∧ (x.told msg).chal = msgByte msg 2 + 256 * msgByte msg 3 := by
  obtain ⟨l, h⟩ := BankLink.acknowledge_law { x with
    stage := msgByte msg 1 % 4
    chal := msgByte msg 2 + 256 * msgByte msg 3
    temp := msgByte msg 4 + 256 * msgByte msg 5
    flags := msgByte msg 6
    acked := msgByte msg 7 % 16 } (msgByte msg 7 % 16)
  rw [BankLink.told, h]
  exact ⟨rfl, rfl, rfl, rfl⟩

/-- The device with link record y and what a STATUS message counts, shows and clears. -/
def Dev.statusShown (d : Dev) (t b : Nat) (msg : List Byte) (y : BankLink) : Dev :=
  ((((d.setBlink b y).bumpBy (Reg.BL_CNT_DNERR b) (msgByte msg 8)).showLink b).bankCleared b (msgByte msg 1 % 4)).noteBank t b (d.bankGives b)

/-- The registers that a STATUS message may change, but for fault flags. -/
def statusReg (b a : Nat) : Prop := shownReg b a ∨ a = Reg.BL_CNT_DNERR b

/-- Clearing: a bank whose clear command waits goes to ARMING, unless its stage shows FAULT. -/
theorem Dev.bankCleared_law (d : Dev) (stage : Nat) :
    (d.bankCleared b stage).bl = d.bl ∧ (d.bankCleared b stage).lt = d.lt ∧ (d.bankCleared b stage).regs = d.regs ∧
      ((d.bank b).clearing = true → stage ≠ 2 →
        ((d.bankCleared b stage).bank b).state = 1 ∧ ((d.bankCleared b stage).bank b).clearing = false) ∧
      ((d.bank b).clearing = false ∨ stage = 2 → d.bankCleared b stage = d) := by
  unfold Dev.bankCleared
  by_cases h : (d.bank b).clearing = true ∧ stage ≠ 2
  · rw [if_pos h]
    refine ⟨rfl, rfl, rfl, fun _ _ => by rw [Dev.bank_updBank_same]; exact ⟨rfl, rfl⟩, fun hn => ?_⟩
    rcases hn with hc | hs
    · rw [hc] at h; exact absurd h.1 (by decide)
    · exact absurd hs h.2
  · rw [if_neg h]
    exact ⟨rfl, rfl, rfl, fun hc hs => absurd ⟨hc, hs⟩ h, fun _ => rfl⟩

/-- Noting the bank's part in R188 leaves the links, the heads, the registers, and the bank but for the note. -/
theorem Dev.noteBank_keeps (d : Dev) (t : Nat) (old : Bool) :
    (d.noteBank t b old).bl = d.bl ∧ (d.noteBank t b old).lt = d.lt ∧ (d.noteBank t b old).regs = d.regs ∧
      ((d.noteBank t b old).bank b).state = (d.bank b).state ∧ ((d.noteBank t b old).bank b).clearing = (d.bank b).clearing := by
  obtain ⟨o, h | h⟩ := d.noteBank_law (b := b) t old <;> rw [h]
  · exact ⟨rfl, rfl, rfl, rfl, rfl⟩
  · rw [Dev.bank_updBank_same]; exact ⟨rfl, rfl, rfl, rfl, rfl⟩

theorem Dev.statusShown_eq (d : Dev) (t : Nat) (msg : List Byte) (y : BankLink) :
    ∃ e : Dev, d.statusShown t b msg y = (e.bankCleared b (msgByte msg 1 % 4)).noteBank t b (d.bankGives b) ∧ e.blink b = y ∧ e.vb = d.vb ∧
      e.lt = d.lt ∧ ∀ a, ¬ statusReg b a → e.rd a = d.rd a := by
  have hshown := Dev.shows_showLink (b := b) ((d.setBlink b y).bumpBy (Reg.BL_CNT_DNERR b) (msgByte msg 8))
  refine ⟨_, rfl, ?_, hshown.banks.trans (Dev.bumpBy_vb _ _ _), hshown.heads.trans (Dev.bumpBy_lt _ _ _), fun a ha => ?_⟩
  · rw [Dev.blink_congr hshown.links, Dev.blink_congr (Dev.bumpBy_bl _ _ _), Dev.blink_setBlink_same]
  · exact (hshown.regs a fun h => ha (.inl h)).trans (Dev.rd_bumpBy_other _ _ fun h => ha (.inr h))

theorem Dev.statusShown_law (d : Dev) (t : Nat) (msg : List Byte) (y : BankLink) :
    (d.statusShown t b msg y).blink b = y ∧ (d.statusShown t b msg y).lt = d.lt ∧
      (∀ a, ¬ statusReg b a → (d.statusShown t b msg y).rd a = d.rd a) ∧
      ((d.bank b).clearing = true → msgByte msg 1 % 4 ≠ 2 →
        ((d.statusShown t b msg y).bank b).state = 1 ∧ ((d.statusShown t b msg y).bank b).clearing = false) ∧
      ((d.bank b).clearing = false ∨ msgByte msg 1 % 4 = 2 → ((d.statusShown t b msg y).bank b).state = (d.bank b).state ∧
        (¬ statusReg b (Reg.VB_CFG b) → (d.statusShown t b msg y).vb = d.vb)) := by
  obtain ⟨e, he, hblink, hvb, hlt, hrd⟩ := d.statusShown_eq (b := b) t msg y
  obtain ⟨hcbl, hclt, hcregs, hclears, hstands⟩ := e.bankCleared_law (b := b) (msgByte msg 1 % 4)
  obtain ⟨hnbl, hnlt, hnregs, hstate, hclearing⟩ := (e.bankCleared b (msgByte msg 1 % 4)).noteBank_keeps (b := b) t (d.bankGives b)
  have hbank := Dev.bank_congr hvb b
  rw [hbank] at hclears hstands
  rw [he]
  refine ⟨?_, (hnlt.trans hclt).trans hlt, fun a ha => (Dev.rd_congr (hnregs.trans hcregs) a).trans (hrd a ha), fun hc hstage => ?_, fun hkeeps => ?_⟩
  · rw [Dev.blink_congr (hnbl.trans hcbl)]; exact hblink
  · rw [hstate, hclearing]; exact hclears hc hstage
  · have hsame := hstands hkeeps
    refine ⟨by rw [hstate, hsame, hbank], fun hcfg => ?_⟩
    have hgives : e.bankGives b = d.bankGives b := by rw [Dev.bankGives, Dev.bankGives, Dev.bit_congr (hrd _ hcfg), hbank]
    rw [hsame, Dev.noteBank, if_pos hgives]
    exact hvb

theorem not_statusReg_own {b a : Nat} (h : a < Reg.BL_PHASE b) : ¬ statusReg b a := by
  simp only [statusReg, shownReg, Reg.BL_PHASE, Reg.BL_CNT_DNERR] at *
  omega

/-- The stage has reported a fault, or that it is no longer armed: the link goes back to arming, and a bank that is READY faults (R267). -/
def Dev.stageFault (d : Dev) (t b code x cause : Nat) : Dev :=
  let d := (d.blFault t b 4 code x).updBlink b (fun x => { x with state := 4 })
  let d := d.updBank b (fun y => { y with armed := false })
  if d.bankReady b then d.bankFault t b cause else d

theorem Dev.stageFault_law (d : Dev) (t : Nat) {code : Nat} (x cause : Nat) (hb : b < 8) (hcode : code ≤ 32) :
    (d.stageFault t b code x cause).blink b = { d.blink b with state := 4 } ∧ (d.stageFault t b code x cause).lt = d.lt ∧
      (d.stageFault t b code x cause).bit (Reg.BL_FAULT b) (code - 1) = true ∧
      ((d.bank b).state ≠ 2 → (d.stageFault t b code x cause).bank b = { d.bank b with armed := false }) ∧
      ∀ s : State, s.dev = d.stageFault t b code x cause → d.vbOn b = true → (d.bank b).state = 2 → bankDown s b := by
  let e := ((d.blFault t b 4 code x).updBlink b (fun x => { x with state := 4 })).updBank b (fun y => { y with armed := false })
  have hbank : e.bank b = { d.bank b with armed := false } := by
    rw [Dev.bank_updBank_same, Dev.bank_congr (Dev.updBlink_vb _ _ _), Dev.bank_congr (Dev.blFault_vb ..)]
  have hblink : e.blink b = { d.blink b with state := 4 } := by
    rw [Dev.blink_congr (Dev.updBank_bl _ _ _), Dev.blink_updBlink_same, Dev.blink_congr (Dev.blFault_bl ..)]
  have hlt : e.lt = d.lt := Dev.blFault_lt ..
  have hflag : e.bit (Reg.BL_FAULT b) (code - 1) = true := Dev.bit_blFault d t 4 code x hb rfl hcode
  have heq : d.stageFault t b code x cause = if e.bankReady b then e.bankFault t b cause else e := rfl
  by_cases hready : (d.bank b).state = 2
  · have he : d.stageFault t b code x cause = e.bankFault t b cause := heq.trans (if_pos (by simp [Dev.bankReady, hbank, hready]))
    have honly := e.bankOnly_bankFault (b := b) t cause
    rw [he]
    refine ⟨(Dev.blink_congr honly.links b).trans hblink, honly.heads.trans hlt, ?_, fun h => absurd hready h, fun s hs hon _ => ?_⟩
    · rw [Dev.bit_congr (e.bankFault_rd t (linkReg_fault hb) cause)]; exact hflag
    · refine bankDown_bankFault ⟨?_, ?_⟩ hb t cause hs
      · exact (Dev.bit_congr (Dev.blFault_rd d t 4 code x (linkReg_cfg hb).lost (by simp only [Reg.VB_CFG, Reg.BL_FAULT]; omega)) 0).trans hon
      · rw [hbank]; exact fun h => by simp [hready] at h
  · have he : d.stageFault t b code x cause = e := heq.trans (if_neg (by simp [Dev.bankReady, hbank, hready]))
    rw [he]
    exact ⟨hblink, hlt, hflag, fun _ => hbank, fun s _ _ h => absurd h hready⟩

section status
variable {d : Dev} (t : Nat) (msg : List Byte)

theorem Dev.takeStatus_down (h : ¬ (3 ≤ (d.blink b).state ∧ (d.blink b).state ≤ 5)) : d.takeStatus t b msg = d := if_pos (by omega)

/-- `Dev.takeStatus` of a link that works, in its steps: the link arms, goes on, or its stage has a fault to tell. -/
theorem Dev.takeStatus_eq (h : 3 ≤ (d.blink b).state ∧ (d.blink b).state ≤ 5) : d.takeStatus t b msg =
    if (d.blink b).state = 4 ∧ msgByte msg 1 % 4 = 1 then
      (d.statusShown t b msg { (d.blink b).told msg with state := 5 }).updBank b (fun y => { y with armed := true })
    else if (d.blink b).state ≠ 5 then d.statusShown t b msg ((d.blink b).told msg)
    else if msgByte msg 1 % 4 = 2 then (d.statusShown t b msg ((d.blink b).told msg)).stageFault t b 6 (msgByte msg 6) 2
    else if msgByte msg 1 % 4 ≠ 1 ∨ nbit (msgByte msg 6) 5 = true then
      (d.statusShown t b msg ((d.blink b).told msg)).stageFault t b 7 (msgByte msg 1 % 4 + 256 * msgByte msg 6) 3
    else d.statusShown t b msg ((d.blink b).told msg) := by
  have hstate : ((d.blink b).told msg).state = (d.blink b).state := (BankLink.told_law _ _).1
  have hunfold : d.takeStatus t b msg =
      (let armed := decide (((d.blink b).told msg).state = 4) && decide (msgByte msg 1 % 4 = 1)
       let x := if armed then { (d.blink b).told msg with state := 5 } else (d.blink b).told msg
       let e := d.statusShown t b msg x
       let e := if armed then e.updBank b (fun y => { y with armed := true }) else e
       if x.state ≠ 5 ∨ armed = true then e
       else if msgByte msg 1 % 4 = 2 then e.stageFault t b 6 (msgByte msg 6) 2
       else if msgByte msg 1 % 4 ≠ 1 ∨ nbit (msgByte msg 6) 5 = true then e.stageFault t b 7 (msgByte msg 1 % 4 + 256 * msgByte msg 6) 3
       else e) := if_neg (by omega)
  rw [hunfold]
  by_cases harm : (d.blink b).state = 4 ∧ msgByte msg 1 % 4 = 1
  · have hb : (decide ((d.blink b).state = 4) && decide (msgByte msg 1 % 4 = 1)) = true := by simp [harm]
    rw [if_pos harm]
    simp only [hstate, hb, if_true, or_true]
  · have hb : (decide ((d.blink b).state = 4) && decide (msgByte msg 1 % 4 = 1)) = false := by simpa using harm
    rw [if_neg harm]
    simp only [hstate, hb, Bool.false_eq_true, if_false, or_false]

end status

/-! ### DESC messages (R263, R266) -/

theorem Dev.takeDesc_none (d : Dev) (t : Nat) (msg : List Byte) (h : (d.blink b).state ≠ 3 ∨ 2 < msgByte msg 1) : d.takeDesc t b msg = d := if_pos h

/-- The link record after the last page: with descriptor l, or without one. -/
def BankLink.described (x : BankLink) (l : Option (List Byte)) : BankLink := { x with desc := l, pages := [] }

/-- The last page of a descriptor: accepted, it is in use, and the link of a bank that is not out arms; else it is rejected, and recorded. -/
theorem Dev.takeDesc_last {d : Dev} (t : Nat) {msg p0 p1 : List Byte} (hstate : (d.blink b).state = 3) (hpage : msgByte msg 1 = 2) (hlength : msg.length = 10)
    (h0 : p0 ≠ []) (h1 : p1 ≠ []) (hp0 : SMap.get [] (d.blink b).pages 0 = p0) (hp1 : SMap.get [] (d.blink b).pages 1 = p1) :
    let l := p0 ++ p1 ++ (msg.drop 2).take 7
    d.takeDesc t b msg = if descReject l (d.indep b) = 0 then
        (d.setBlink b (if d.bankOut b then (d.blink b).described (some l) else ((d.blink b).described (some l)).arm b (d.indep b))).showDesc b
      else ((d.setBlink b ((d.blink b).described none)).showDesc b).blFault t b 4 0x0003 (descReject l (d.indep b)) := by
  intro l
  have hnot : ¬ ((d.blink b).state ≠ 3 ∨ 2 < msgByte msg 1) := by omega
  have hpages : ∀ v : List Byte, SMap.get [] (SMap.set [] (d.blink b).pages 2 v) 0 = p0 ∧ SMap.get [] (SMap.set [] (d.blink b).pages 2 v) 1 = p1 ∧
      SMap.get [] (SMap.set [] (d.blink b).pages 2 v) 2 = v := fun v =>
    ⟨(SMap.get_set_other _ _ _ (by decide)).trans hp0, (SMap.get_set_other _ _ _ (by decide)).trans hp1, SMap.get_set_same _ _ _ _⟩
  have h2 : (msg.drop 2).take 7 ≠ [] := List.ne_nil_of_length_pos (by simp [hlength])
  obtain ⟨g0, g1, g2⟩ := hpages ((msg.drop 2).take 7)
  have hall : (List.range 3).all (fun p => !(SMap.get [] (SMap.set [] (d.blink b).pages 2 ((msg.drop 2).take 7)) p).isEmpty) = true := by
    simp [List.range_succ, g0, g1, g2, h0, h1, h2]
  have hlist : ((List.range 3).map (fun p => SMap.get [] (SMap.set [] (d.blink b).pages 2 ((msg.drop 2).take 7)) p)).flatten = l := by
    simp [List.range_succ, g0, g1, g2, l]
  have hunfold : d.takeDesc t b msg =
      (let pages := SMap.set [] (d.blink b).pages (msgByte msg 1) ((msg.drop 2).take 7)
       if (List.range 3).all (fun p => !(SMap.get [] pages p).isEmpty) then
         let l := ((List.range 3).map (fun p => SMap.get [] pages p)).flatten
         if descReject l (d.indep b) = 0 then
           (d.setBlink b (if d.bankOut b then (d.blink b).described (some l) else ((d.blink b).described (some l)).arm b (d.indep b))).showDesc b
         else ((d.setBlink b ((d.blink b).described none)).showDesc b).blFault t b 4 0x0003 (descReject l (d.indep b))
       else d.setBlink b { d.blink b with pages := pages }) := if_neg hnot
  rw [hunfold, hpage]
  dsimp only
  rw [if_pos hall, hlist]

end Sys2Proof.Machine
end

section
/-! ## The frame of a bank whose engine has nothing to do (R225, R260, R261) -/

namespace Sys2Proof.Machine
open Sys2Proof.Claims

variable {b c : Nat}

/-- No thread runs or is due to start, no fire waits, and no pair is on or waits. -/
structure Bank.idle (x : Bank) : Prop where
  threads : x.threads = []
  start : x.heldStart = false
  fires : x.waiting = []
  pairs : ∀ p, x.pair p = PairState.reset

/-- From d to e nothing has reached the links, the heads or the streams of bank b, and its engine has nothing to do if it had nothing. -/
structure Dev.idleWork (b : Nat) (d e : Dev) : Prop where
  links : e.bl = d.bl
  heads : e.lt = d.lt
  streams : ∀ c, (e.chan b c).bits = (d.chan b c).bits
  idle : (d.bank b).idle → (e.bank b).idle

theorem Dev.idleWork_refl (b : Nat) (d : Dev) : d.idleWork b d := ⟨rfl, rfl, fun _ => rfl, id⟩

theorem Dev.idleWork.trans {d e f : Dev} (h : d.idleWork b e) (k : e.idleWork b f) : d.idleWork b f :=
  ⟨k.links.trans h.links, k.heads.trans h.heads, fun c => (k.streams c).trans (h.streams c), fun hd => k.idle (h.idle hd)⟩

theorem Dev.idleWork_ite {p : Prop} {_ : Decidable p} {d e f : Dev} (h : d.idleWork b e) (k : d.idleWork b f) : d.idleWork b (if p then e else f) := by
  split
  exacts [h, k]

/-- Changes outside the links, the heads and the banks. -/
theorem Dev.idleWork_ofVb {d e : Dev} (hbl : e.bl = d.bl) (hlt : e.lt = d.lt) (hvb : e.vb = d.vb) : d.idleWork b e :=
  ⟨hbl, hlt, fun c => congrArg Chan.bits (Dev.chan_congr (congrArg Bank.chans (Dev.bank_congr hvb b)) c), fun h => Dev.bank_congr hvb b ▸ h⟩

theorem Dev.idleWork_bump (d : Dev) (a : Nat) : d.idleWork b (d.bump a) := Dev.idleWork_ofVb (Dev.bump_bl d a) (Dev.bump_lt d a) (Dev.bump_vb d a)

/-- Changes of the bank that leave its channels. -/
theorem Dev.idleWork_updBank (d : Dev) {f : Bank → Bank} (hchans : ∀ x, (f x).chans = x.chans) (hidle : (d.bank b).idle → (f (d.bank b)).idle) :
    d.idleWork b (d.updBank b f) :=
  ⟨rfl, rfl, fun c => by rw [Dev.chan_updBank d b hchans], fun h => by rw [Dev.bank_updBank_same]; exact hidle h⟩

theorem Dev.idleWork_setChan (d : Dev) {k : Chan} (h : k.bits = (d.chan b c).bits) : d.idleWork b (d.setChan b c k) := by
  refine ⟨rfl, rfl, fun i => ?_, fun hi => ?_⟩
  · by_cases hic : i = c
    · rw [hic, Dev.chan_setChan_same]; exact h
    · rw [Dev.chan_setChan_other d b k hic]
  · rw [Dev.bank_setChan_same]
    exact ⟨hi.threads, hi.start, hi.fires, hi.pairs⟩

theorem Dev.idleWork_lateWindow (d : Dev) : d.idleWork b (d.lateWindow b c) := by
  unfold Dev.lateWindow; dsimp only
  exact Dev.idleWork_ite (d.idleWork_bump _) (d.idleWork_refl b)

/-- A pair of an idle bank that its channel leaves at rest stays at rest. -/
theorem Dev.idleWork_restPair (d : Dev) (p : Nat) : d.idleWork b (d.setPair b p ⟨false, (d.pair b p).close || (d.pair b p).held, false⟩) := by
  refine ⟨rfl, rfl, fun i => by rw [Dev.chan_setPair], fun hi => ?_⟩
  have hrest : d.pair b p = PairState.reset := hi.pairs p
  rw [Dev.bank_setPair_same, hrest]
  refine ⟨hi.threads, hi.start, hi.fires, fun q => ?_⟩
  by_cases hq : q = p
  · rw [hq, Bank.pair, Bank.setPair, SMap.get_set_same]; rfl
  · rw [Bank.pair, Bank.setPair, SMap.get_set_other _ _ _ hq]; exact hi.pairs q

theorem Dev.idleWork_quenchEnd (d : Dev) (k : Nat) : d.idleWork b (d.quenchEnd b c k) := by
  have hlate := d.idleWork_lateWindow (b := b) (c := c)
  have hchan : d.idleWork b ((d.lateWindow b c).setChan b c
      { Chan.reset with bits := (d.chan b c).bits, odRej := (d.chan b c).odRej, coil := (d.chan b c).coil }) :=
    hlate.trans (Dev.idleWork_setChan _ (hlate.streams c).symm)
  unfold Dev.quenchEnd; dsimp only
  exact Dev.idleWork_ite (Dev.idleWork_ite (hchan.trans (Dev.idleWork_restPair _ c)) hchan) (d.idleWork_refl b)

theorem Dev.idleWork_chanBoundary (d : Dev) (now : Now) (t : Nat) (boost : Bool) : d.idleWork b (d.chanBoundary now t b c boost) := by
  have hlate : ∀ (p : Prop) (_ : Decidable p), d.idleWork b (if p then d else d.lateWindow b c) := fun _ _ =>
    Dev.idleWork_ite (d.idleWork_refl b) (Dev.idleWork_lateWindow d)
  unfold Dev.chanBoundary; dsimp only
  refine (hlate _ _).trans (Dev.idleWork_setChan _ ((hlate _ _).streams c).symm)

/-- A fold of such changes. -/
theorem Dev.idleWork_foldl {α : Type} {f : Dev → α → Dev} (h : ∀ (d : Dev) (x : α), d.idleWork b (f d x)) (l : List α) (d : Dev) : d.idleWork b (l.foldl f d) :=
  Dev.foldl_inv (d.idleWork b) f (fun e x he => he.trans (h e x)) l d (d.idleWork_refl b)

/-! ### Threads, fires and pairs of an idle bank -/

theorem Dev.thread_idle {d : Dev} (h : (d.bank b).idle) (th : Nat) : (d.thread b th).run = .stopped := by
  rw [Dev.thread, Bank.thread, h.threads]; rfl

theorem Dev.laceWaits_idle {d : Dev} (h : (d.bank b).idle) (k : Nat) : d.laceWaits b k = d := by
  have hnone : ∀ th, d.waitEnds b th k = none := fun th => by simp only [Dev.waitEnds, Dev.thread_idle h th]
  have hstart : ¬ ((d.bank b).heldStart = true ∧ ((d.bank b).thread 16).run = .stopped) := by simp [h.start]
  unfold Dev.laceWaits; dsimp only
  rw [Dev.foldl_fixed _ (List.range 17) d fun th _ => by rw [hnone]]
  exact if_neg hstart

theorem Dev.laceThreads_idle {d : Dev} (h : (d.bank b).idle) (t : Nat) : d.laceThreads t b = d := by
  have hready : ∀ l : List Nat, l.filter (fun th => decide ((d.thread b th).run = .ready)) = [] := fun l => by
    rw [List.filter_eq_nil_iff]; intro th _; simp [Dev.thread_idle h th]
  unfold Dev.laceThreads; dsimp only
  rw [hready]
  rfl

theorem Dev.startPair_idle {d : Dev} (h : (d.bank b).idle) (now : Now) (t p : Nat) : d.startPair now t b p = d := by
  have hrest : d.pair b p = PairState.reset := h.pairs p
  unfold Dev.startPair; dsimp only
  exact if_pos (.inl (by rw [hrest]; rfl))

theorem Dev.idleWork_laceDue {d : Dev} (h : (d.bank b).idle) (now : Now) (t : Nat) : d.idleWork b (d.laceDue now t b) := by
  have hwork : d.idleWork b ((d.updBank b (fun x => { x with waiting := [] })).updBank b (fun x => { x with waiting := [] ++ x.waiting })) :=
    (d.idleWork_updBank (f := fun x => { x with waiting := [] }) (fun _ => rfl) fun hi => ⟨hi.threads, hi.start, rfl, hi.pairs⟩).trans
      (Dev.idleWork_updBank _ (f := fun x => { x with waiting := [] ++ x.waiting }) (fun _ => rfl) fun hi => ⟨hi.threads, hi.start, hi.fires, hi.pairs⟩)
  unfold Dev.laceDue; dsimp only
  rw [h.fires]
  simp only [List.map_nil, List.filter_nil, List.foldl_nil, Dev.serveFires]
  rw [Dev.foldl_fixed _ _ _ fun p _ => Dev.startPair_idle (hwork.idle h) now t p]
  exact hwork

theorem Dev.idleWork_laceGates (d : Dev) (t : Nat) (again : Bool) : d.idleWork b (d.laceGates t b again) := by
  have hset : ∀ g q r, d.idleWork b (d.setBank b { d.bank b with gates := g, quench := q, quenchDue := r }) := fun g q r =>
    d.idleWork_updBank (f := fun x => { x with gates := g, quench := q, quenchDue := r }) (fun _ => rfl)
      fun hi => ⟨hi.threads, hi.start, hi.fires, hi.pairs⟩
  unfold Dev.laceGates; dsimp only
  split_ifs <;> exact hset _ _ _

theorem Dev.idleWork_keepSwitches (d : Dev) : d.idleWork b (d.keepSwitches b) := by
  unfold Dev.keepSwitches
  refine Dev.idleWork_foldl (fun e c => ?_) _ d
  dsimp only
  exact Dev.idleWork_ite (e.idleWork_setChan rfl) (e.idleWork_refl b)

/-- The frame notes its tick and position, quenches end, and the channels step (the part of LACE_FRAME before the threads). -/
def Dev.frameBegun (d : Dev) (now : Now) (b : Nat) (boost : Bool) : Dev :=
  (List.range 16).foldl (fun (d : Dev) c => d.chanBoundary now now.dtime b c boost)
    ((List.range 16).foldl (fun (d : Dev) c => d.quenchEnd b c (now.dtime / 40))
      (d.updBank b (fun x => { x with lastFrame := now.dtime, positions := ((now.dtime, now.wpos) :: x.positions).take 64 })))

theorem Dev.idleWork_frameBegun (d : Dev) (now : Now) (boost : Bool) : d.idleWork b (d.frameBegun now b boost) := by
  have hnoted := d.idleWork_updBank (b := b) (f := fun x => { x with lastFrame := now.dtime, positions := ((now.dtime, now.wpos) :: x.positions).take 64 })
    (fun _ => rfl) fun hi => ⟨hi.threads, hi.start, hi.fires, hi.pairs⟩
  unfold Dev.frameBegun
  generalize d.updBank b _ = e at hnoted ⊢
  have hquench := Dev.idleWork_foldl (b := b) (fun e c => e.idleWork_quenchEnd (c := c) (now.dtime / 40)) (List.range 16) e
  exact (hnoted.trans hquench).trans (Dev.idleWork_foldl (fun e c => e.idleWork_chanBoundary (c := c) now now.dtime boost) (List.range 16) _)

theorem Dev.laceFrame_eq (d : Dev) (now : Now) : ∃ boost, d.laceFrame now b =
    let e := d.frameBegun now b boost
    let e := if (e.bank b).engineOk = true ∧ (e.bank b).allOff = false then (e.laceWaits b (now.dtime / 40)).laceThreads now.dtime b else e
    let e := if e.bankReady b = true ∧ (e.bank b).allOff = false ∧ (e.bank b).engineOk = true then e.laceDue now (now.dtime + 40) b else e
    (e.laceGates (now.dtime + 40) b false).keepSwitches b := ⟨_, rfl⟩

/-- The frame of an enabled bank whose engine has nothing to do leaves the streams, the links and the heads. -/
theorem Dev.idleWork_laceFrame {d : Dev} (h : (d.bank b).idle) (now : Now) : d.idleWork b (d.laceFrame now b) := by
  obtain ⟨boost, heq⟩ := d.laceFrame_eq (b := b) now
  have hbegun := d.idleWork_frameBegun (b := b) now boost
  rw [heq]; dsimp only
  generalize d.frameBegun now b boost = e at hbegun ⊢
  have hidle := hbegun.idle h
  rw [Dev.laceWaits_idle hidle, Dev.laceThreads_idle hidle, ite_self]
  exact (hbegun.trans (Dev.idleWork_ite (Dev.idleWork_laceDue hidle now _) (e.idleWork_refl b))).trans
    ((Dev.idleWork_laceGates _ _ _).trans (Dev.idleWork_keepSwitches _))

/-! ### Streams take the frames due (R260, R261) -/

/-- The streams of some channels changed, each by a function of its own. -/
def Bank.mapStreams (g : Nat → List Bool → List Bool) (x : Bank) (l : List Nat) : Bank :=
  l.foldl (fun (x : Bank) c => x.setChan c { x.chan c with bits := g c (x.chan c).bits }) x

theorem Bank.chan_setChan_other (x : Bank) {i : Nat} (k : Chan) (h : i ≠ c) : (x.setChan c k).chan i = x.chan i := SMap.get_set_other _ _ _ h

theorem Bank.mapStreams_other (g : Nat → List Bool → List Bool) (l : List Nat) (x : Bank) {i : Nat} (h : i ∉ l) : (x.mapStreams g l).chan i = x.chan i := by
  induction l generalizing x with
  | nil => rfl
  | cons c l ih =>
    have hic := List.ne_of_not_mem_cons h
    have hil := List.not_mem_of_not_mem_cons h
    exact (ih (x.setChan c { x.chan c with bits := g c (x.chan c).bits }) hil).trans (Bank.chan_setChan_other x _ hic)

theorem Bank.mapStreams_mem (g : Nat → List Bool → List Bool) (l : List Nat) (hl : l.Nodup) (x : Bank) {i : Nat} (h : i ∈ l) :
    ((x.mapStreams g l).chan i).bits = g i (x.chan i).bits := by
  induction l generalizing x with
  | nil => exact absurd h List.not_mem_nil
  | cons c l ih =>
    obtain ⟨hcl, hl⟩ := List.nodup_cons.mp hl
    rw [show x.mapStreams g (c :: l) = (x.setChan c { x.chan c with bits := g c (x.chan c).bits }).mapStreams g l from rfl]
    by_cases hic : i = c
    · subst hic
      rw [Bank.mapStreams_other g l _ hcl, Bank.chan, Bank.setChan, SMap.get_set_same]
    · rw [ih hl _ ((List.mem_cons.mp h).resolve_left hic), Bank.chan_setChan_other x _ hic]

theorem Bank.mapStreams_idle (g : Nat → List Bool → List Bool) (l : List Nat) (x : Bank) (h : x.idle) : (x.mapStreams g l).idle := by
  induction l generalizing x with
  | nil => exact h
  | cons c l ih => exact ih _ ⟨h.threads, h.start, h.fires, h.pairs⟩

/-- A stream after a frame: the frame's two bits of lane index i, or the two before repeated. -/
def streamTakes (lane : Option Nat) (i : Nat) (l : List Bool) : List Bool :=
  let p := match lane with
    | some v => frameBit v i
    | none => lastBits l
  takeBits l p.1 p.2

theorem streamTakes_some (w i : Nat) (l : List Bool) : streamTakes (some w) i l = (w.testBit (2 * i + 1) :: w.testBit (2 * i) :: l).take 94 := rfl

theorem streamTakes_none (i : Nat) (l : List Bool) : streamTakes none i l = (l.getD 0 false :: l.getD 1 false :: l).take 94 := rfl

/-- What the streams of a bank take of a frame, by channel. -/
def UpFrame.stream (f : UpFrame) (c : Nat) (l : List Bool) : List Bool :=
  if c < 9 then streamTakes f.lane0 c l else streamTakes f.lane1 (c - 9) l

/-- Bank with the streams of the supply and of the raised supply. -/
def Bank.withRails (x : Bank) (u v : List Bool) : Bank := { x with supply := u, raised := v }

theorem Bank.takeFrame_eq (x : Bank) (f : UpFrame) : ∃ u v, x.takeFrame f = (x.mapStreams f.stream (List.range 16)).withRails u v := by
  unfold Bank.takeFrame Bank.mapStreams Bank.withRails UpFrame.stream streamTakes
  dsimp only
  generalize List.range 16 = l
  exact ⟨_, _, rfl⟩

theorem Bank.takeFrame_stream (x : Bank) (f : UpFrame) {i : Nat} (hi : i < 16) : ((x.takeFrame f).chan i).bits = f.stream i (x.chan i).bits := by
  obtain ⟨u, v, heq⟩ := x.takeFrame_eq f
  have hrails : ∀ y : Bank, (y.withRails u v).chan i = y.chan i := fun _ => rfl
  rw [heq, hrails, Bank.mapStreams_mem f.stream _ List.nodup_range x (List.mem_range.mpr hi)]

theorem Bank.withRails_idle {x : Bank} (u v : List Bool) (h : x.idle) : (x.withRails u v).idle := ⟨h.threads, h.start, h.fires, h.pairs⟩

theorem Bank.takeFrame_idle (x : Bank) (f : UpFrame) (h : x.idle) : (x.takeFrame f).idle := by
  obtain ⟨u, v, heq⟩ := x.takeFrame_eq f
  rw [heq]
  exact Bank.withRails_idle u v (Bank.mapStreams_idle f.stream (List.range 16) x h)

/-- The only frame that waits is not yet due at boundary k: it goes on waiting. -/
theorem Dev.takeFrames_early {d : Dev} {f : UpFrame} (h : (d.blink b).inbox = [f]) {k : Nat} (hk : k < f.boundary) :
    d.takeFrames b k = d.setBlink b { d.blink b with inbox := [f] } := by
  unfold Dev.takeFrames; dsimp only
  rw [h, List.filter_cons_of_neg (by simpa using hk), List.filter_cons_of_pos (by simpa using hk)]
  rfl

/-- The only frame that waits is due at boundary k: the streams take it. -/
theorem Dev.takeFrames_due {d : Dev} {f : UpFrame} (h : (d.blink b).inbox = [f]) {k : Nat} (hk : f.boundary ≤ k) :
    d.takeFrames b k = (d.updBank b (fun y => y.takeFrame f)).setBlink b { d.blink b with inbox := [] } := by
  unfold Dev.takeFrames; dsimp only
  rw [h, List.filter_cons_of_pos (by simpa using hk), List.filter_cons_of_neg (by simpa using hk)]
  rfl

/-! ### The frame of the bank and its link -/

/-- The downlink frame that begins leaves the banks, the heads, and the uplink frames that wait. -/
theorem Dev.downFrame_law (d : Dev) (t : Nat) :
    (d.downFrame t b).vb = d.vb ∧ (d.downFrame t b).lt = d.lt ∧ ((d.downFrame t b).blink b).inbox = (d.blink b).inbox := by
  refine ⟨rfl, rfl, ?_⟩
  unfold Dev.downFrame; dsimp only
  rw [Dev.blink_updBlink_same]
  split_ifs <;> rfl

/-- A link as a boundary finds it: the QUENCH gates sent, and a guard time over. -/
def BankLink.atBoundary (x : BankLink) (q : Bool) (t : Nat) : BankLink :=
  { x with quenchSent := q, state := if x.state = 1 ∧ x.since + superframes 8 ≤ t then 2 else x.state }

/-- Where no swap waits, the link begins its frame: its banks, heads and uplink frames stand, and the frames due are taken. -/
theorem Dev.bankFrame_eq {d : Dev} (h : (d.blink b).swapAt = none) (now : Now) : ∃ e : Dev, e.vb = d.vb ∧ e.lt = d.lt ∧
    (e.blink b).inbox = (d.blink b).inbox ∧ d.bankFrame now b =
      if (e.takeFrames b (now.dtime / 40)).vbOn b then (e.takeFrames b (now.dtime / 40)).laceFrame now b
      else (e.takeFrames b (now.dtime / 40)).updBank b (fun x => { x with lastFrame := now.dtime }) := by
  have hswap : (d.updBlink b (fun x => x.atBoundary (d.bank b).quench now.dtime)).linkSwap now.dtime b =
      d.updBlink b (fun x => x.atBoundary (d.bank b).quench now.dtime) := by
    unfold Dev.linkSwap
    rw [Dev.blink_updBlink_same, BankLink.atBoundary, h]
  obtain ⟨hvb, hlt, hinbox⟩ := Dev.downFrame_law (b := b) (d.updBlink b (fun x => x.atBoundary (d.bank b).quench now.dtime)) now.dtime
  rw [Dev.blink_updBlink_same] at hinbox
  exact ⟨_, hvb, hlt, hinbox, by rw [← hswap]; rfl⟩

/-- The frame of a bank whose engine has nothing to do, with one uplink frame waiting: its streams take the frame if it is due, and only then. -/
theorem Dev.bankFrame_streams {d : Dev} {f : UpFrame} (hswap : (d.blink b).swapAt = none) (hinbox : (d.blink b).inbox = [f]) (hidle : (d.bank b).idle)
    (now : Now) : (d.bankFrame now b).lt = d.lt ∧
      (now.dtime / 40 < f.boundary → ((d.bankFrame now b).blink b).inbox = [f] ∧ ∀ c, ((d.bankFrame now b).chan b c).bits = (d.chan b c).bits) ∧
      (f.boundary ≤ now.dtime / 40 → ((d.bankFrame now b).blink b).inbox = [] ∧
        ∀ c, c < 16 → ((d.bankFrame now b).chan b c).bits = f.stream c (d.chan b c).bits) := by
  obtain ⟨e, hvb, hlt, hin, heq⟩ := Dev.bankFrame_eq hswap now
  rw [hinbox] at hin
  have hbank := Dev.bank_congr hvb b
  have hengine : ∀ g : Dev, (g.bank b).idle → g.idleWork b (if g.vbOn b then g.laceFrame now b else g.updBank b (fun x => { x with lastFrame := now.dtime })) :=
    fun g hg => Dev.idleWork_ite (Dev.idleWork_laceFrame hg now) (g.idleWork_updBank (fun _ => rfl) fun hi => ⟨hi.threads, hi.start, hi.fires, hi.pairs⟩)
  rw [heq]
  by_cases hdue : f.boundary ≤ now.dtime / 40
  · have htaken : ((e.updBank b (fun y => y.takeFrame f)).setBlink b { e.blink b with inbox := [] }).bank b = (e.bank b).takeFrame f :=
      Dev.bank_updBank_same e b (fun y => y.takeFrame f)
    have hwork := hengine _ (htaken ▸ Bank.takeFrame_idle _ f (hbank ▸ hidle))
    rw [Dev.takeFrames_due hin hdue]
    refine ⟨hwork.heads.trans hlt, fun hn => absurd hdue (by omega), fun _ => ⟨?_, fun c hc => ?_⟩⟩
    · rw [Dev.blink_congr hwork.links, Dev.blink_setBlink_same]
    · rw [hwork.streams c, Dev.chan, htaken, Bank.takeFrame_stream _ f hc, hbank]; rfl
  · have hearly : now.dtime / 40 < f.boundary := by omega
    have hwork := hengine (e.setBlink b { e.blink b with inbox := [f] }) (hbank ▸ hidle)
    rw [Dev.takeFrames_early hin hearly]
    refine ⟨hwork.heads.trans hlt, fun _ => ⟨?_, fun c => ?_⟩, fun hn => absurd hn hdue⟩
    · rw [Dev.blink_congr hwork.links, Dev.blink_setBlink_same]
    · rw [hwork.streams c]; exact congrArg Chan.bits (Dev.chan_congr (congrArg Bank.chans hbank) c)

end Sys2Proof.Machine
end

section
/-! ## Faults, clears and pair commands of a bank (R213, R214, R215) -/

namespace Sys2Proof.Machine
open Sys2Proof.Claims

variable {s : State} {b : Fin 8}

/-- A command that leaves the device leaves the state. -/
theorem next_withDev_self {d : Dev} (h : d = s.dev) : (.next (s.withDev d) : Result) = .next s := h ▸ rfl

/-! ### VB_BANK_FAULT -/

/-- A bank fault with this cause happens: the bank is enabled and not FAULTED, and cause 4 takes a faulted engine that no spare takes over from (R215). -/
def Dev.faultsBy (d : Dev) (b cause : Nat) : Prop := d.canFault b ∧
  (cause = 4 → (d.bank b).engineOk = false ∧ (d.bank b).engineFault = true ∧ d.spareCan b = false ∧ d.takingOver b = false)

theorem Dev.vbBankFault_none {d : Dev} {b cause : Nat} (h : ¬ d.faultsBy b cause) (t : Nat) : d.vbBankFault t b cause = d := by
  unfold Dev.vbBankFault
  split_ifs with hexcused
  · rfl
  · exact Dev.bankFault_none (fun hcan => h ⟨hcan, fun hc => by simpa [hc] using hexcused⟩) t cause

theorem Dev.vbBankFault_eq {d : Dev} {b cause : Nat} (h : d.faultsBy b cause) (t : Nat) : d.vbBankFault t b cause = d.bankFault t b cause :=
  if_neg fun ⟨hc, hexcused⟩ => by
    obtain ⟨hok, hfault, hspare, htaking⟩ := h.2 hc
    simp [hok, hfault, hspare, htaking] at hexcused

theorem Dev.faultsBy_iff (d : Dev) (b : Nat) (cause : Fin 4) : d.faultsBy b (cause + 1) ↔ d.vbOn b = true ∧ (d.bank b).state ≠ 3 ∧
    (cause = 3 → (d.bank b).engineOk = false ∧ (d.bank b).engineFault = true ∧ d.spareCan b = false ∧ d.takingOver b = false) := by
  have hcause : (cause : Nat) + 1 = 4 ↔ cause = 3 := by rw [Fin.ext_iff]; exact Nat.add_right_cancel_iff
  rw [Dev.faultsBy, Dev.canFault, and_assoc, hcause]

/-- A bank fault asks no shutter of any head. -/
theorem Dev.shutWatch_bankFault {d : Dev} (h : noShutter d) (t b cause : Nat) : (d.bankFault t b cause).shutWatch t = d.bankFault t b cause :=
  Dev.shutWatch_none (noShutter_congr (d.bankOnly_bankFault (b := b) t cause).heads h) t

theorem exec_vbBankFault (hr : s.running = true) (cause : Fin 4) : exec (.vbBankFault b cause) s =
    .next (s.withDev ((s.dev.vbBankFault s.clock.dtime b (cause + 1)).shutWatch s.clock.dtime)) := by
  rw [exec, execVbBankFault, State.act_running _ _ hr]; rfl

theorem vbBankFault_stands (hr : s.running = true) (cause : Fin 4) (hshut : noShutter s.dev) (h : ¬ s.dev.faultsBy b (cause + 1)) :
    exec (.vbBankFault b cause) s = .next s := by
  rw [exec_vbBankFault hr, Dev.vbBankFault_none h, Dev.shutWatch_none hshut]
  exact next_withDev_self rfl

theorem vbBankFault_faults (hr : s.running = true) (cause : Fin 4) (hshut : noShutter s.dev) (h : s.dev.faultsBy b (cause + 1)) :
    ∃ t, exec (.vbBankFault b cause) s = .next t ∧ deviceOnly s t ∧ bankDown t b ∧
      t.dev.ev = s.dev.ev ++ [⟨40 + b, BitVec.ofNat 32 (cause + 1), s.clock.dtime⟩] ∧
      ((∀ c, c < 16 → (s.dev.chan b c).kind ≠ 4) → recorded s.dev t.dev ⟨s.clock.dtime, uid 9 b 31, 4, BitVec.ofNat 32 (cause + 1)⟩) := by
  refine ⟨_, exec_vbBankFault hr cause, deviceOnly_withDev _ _, ?_⟩
  rw [Dev.vbBankFault_eq h, Dev.shutWatch_bankFault hshut]
  exact ⟨bankDown_bankFault h.1 b.isLt _ _ rfl, Dev.bankFault_ev h.1 _ _, fun hkind => recorded_bankFault h.1 _ _ hkind⟩

/-! ### VB_CLEAR_FAULT -/

/-- What a clear leaves of a bank, whether its link trains anew or not. -/
structure Bank.waitsClear (x : Bank) : Prop where
  state : x.state = 3
  clearing : x.clearing = true
  armed : x.armed = false
  engineFault : x.engineFault = false

theorem Bank.waitsClear_cleared {x : Bank} (h : x.state = 3) : x.cleared.waitsClear := ⟨h, rfl, rfl, rfl⟩

theorem Bank.waitsClear_disarm {x : Bank} (h : x.waitsClear) : ({ x with armed := false } : Bank).waitsClear := ⟨h.state, h.clearing, rfl, h.engineFault⟩

section clear
variable {d : Dev} {b : Nat} (hon : d.vbOn b = true) (hstate : (d.bank b).state = 3) (hsafe : d.safe = false) (t : Nat)
include hon hstate hsafe

theorem Dev.vbClearFault_bank : ((d.vbClearFault t b).bank b).waitsClear := by
  have hbank : ∀ f : BankLink → BankLink, ((d.updBank b Bank.cleared).updBlink b f).bank b = (d.bank b).cleared := fun f =>
    (Dev.bank_congr (Dev.updBlink_vb _ _ _) b).trans (Dev.bank_updBank_same _ _ _)
  have hwaits := Bank.waitsClear_cleared hstate
  by_cases hlink : d.blOn b = true
  · by_cases hlost : (d.blink b).state = 6
    · rw [Dev.vbClearFault_lost hon hstate hsafe t hlink hlost, (Dev.trainStart_law _ t).2.1, Dev.bank_congr (Dev.updBlink_vb _ _ _), hbank]
      exact Bank.waitsClear_disarm hwaits
    · by_cases hup : 3 ≤ (d.blink b).state
      · rw [Dev.vbClearFault_up hon hstate hsafe t hlink hlost hup, Dev.bank_congr (Dev.updBlink_vb _ _ _), hbank]
        exact hwaits
      · rw [Dev.vbClearFault_training hon hstate hsafe t hlink (Nat.lt_of_not_le hup), hbank]
        exact hwaits
  · rw [Dev.vbClearFault_off hon hstate hsafe t (Bool.eq_false_iff.mpr hlink), Dev.bank_updBank_same]
    exact hwaits

theorem Dev.vbClearFault_noLink (hlink : d.blOn b = false) : (d.vbClearFault t b).bl = d.bl := by
  rw [Dev.vbClearFault_off hon hstate hsafe t hlink]; rfl

/-- A lost link trains anew, and keeps only the CLEAR_FAULT commands. -/
theorem Dev.vbClearFault_lostLink (hlink : d.blOn b = true) (hlost : (d.blink b).state = 6) :
    ((d.vbClearFault t b).blink b).state = 1 ∧ ((d.vbClearFault t b).blink b).since = t ∧
      ((d.vbClearFault t b).blink b).cmds.map LinkCmd.type = ((d.blink b).cmds.map LinkCmd.type).filter (fun v => v == 4) ++ [4] := by
  have hkept : ∀ l : List LinkCmd, (l.filter (fun c => decide (c.type = 4))).map LinkCmd.type = (l.map LinkCmd.type).filter (fun v => v == 4) := fun l => by
    rw [List.filter_map]; rfl
  rw [Dev.vbClearFault_lost hon hstate hsafe t hlink hlost, (Dev.trainStart_law _ t).1, Dev.blink_updBlink_same, Dev.blink_updBlink_same]
  refine ⟨rfl, rfl, ?_⟩
  rw [BankLink.restart_types, hkept, BankLink.send_types, List.filter_append]
  rfl

theorem Dev.vbClearFault_upLink (hlink : d.blOn b = true) (hup : 3 ≤ (d.blink b).state ∧ (d.blink b).state ≤ 5) :
    ((d.vbClearFault t b).blink b).state = 3 ∧
      ((d.vbClearFault t b).blink b).cmds.map LinkCmd.type = (d.blink b).cmds.map LinkCmd.type ++ [4, 3, 3, 3] := by
  rw [Dev.vbClearFault_up hon hstate hsafe t hlink (by omega) hup.1, Dev.blink_updBlink_same, Dev.blink_updBlink_same, BankLink.readPages_types,
    BankLink.send_types, List.append_assoc]
  exact ⟨BankLink.readPages_state _, rfl⟩

end clear

theorem exec_vbClearFault (hr : s.running = true) : exec (.vbClearFault b) s = .next (s.withDev (s.dev.vbClearFault s.clock.dtime b)) := by
  rw [exec, execVbClearFault, State.act_running _ _ hr]; rfl

theorem vbClearFault_stands (hr : s.running = true) (h : s.dev.vbOn b = false ∨ (s.dev.bank b).state ≠ 3 ∨ s.dev.safe = true) :
    exec (.vbClearFault b) s = .next s := by
  rw [exec_vbClearFault hr, Dev.vbClearFault_none h]
  exact next_withDev_self rfl

theorem vbClearFault_clears (hr : s.running = true) (hon : s.dev.vbOn b = true) (hstate : (s.dev.bank b).state = 3) (hsafe : s.dev.safe = false) :
    ∃ t, exec (.vbClearFault b) s = .next t ∧ deviceOnly s t ∧
      (t.dev.bank b).state = 3 ∧ (t.dev.bank b).clearing = true ∧ (t.dev.bank b).armed = false ∧ (t.dev.bank b).engineFault = false ∧
      (¬ s.dev.blOn b = true → t.dev.bl = s.dev.bl) ∧
      (s.dev.blOn b = true → (s.dev.blink b).state = 6 → (t.dev.blink b).state = 1 ∧ (t.dev.blink b).since = s.clock.dtime ∧
        (t.dev.blink b).cmds.map LinkCmd.type = ((s.dev.blink b).cmds.map LinkCmd.type).filter (fun v => v == 4) ++ [4]) ∧
      (s.dev.blOn b = true → 3 ≤ (s.dev.blink b).state ∧ (s.dev.blink b).state ≤ 5 → (t.dev.blink b).state = 3 ∧
        (t.dev.blink b).cmds.map LinkCmd.type = (s.dev.blink b).cmds.map LinkCmd.type ++ [4, 3, 3, 3]) := by
  obtain ⟨hfaulted, hclearing, harmed, hengine⟩ := Dev.vbClearFault_bank hon hstate hsafe s.clock.dtime
  exact ⟨_, exec_vbClearFault hr, deviceOnly_withDev _ _, hfaulted, hclearing, harmed, hengine,
    fun hlink => Dev.vbClearFault_noLink hon hstate hsafe _ (Bool.eq_false_iff.mpr hlink),
    fun hlink hlost => Dev.vbClearFault_lostLink hon hstate hsafe _ hlink hlost,
    fun hlink hup => Dev.vbClearFault_upLink hon hstate hsafe _ hlink hup⟩

/-! ### VB_PAIR_CLOSE and VB_PAIR_RELEASE -/

/-- The mask that names one pair. -/
def pairMask (p : Fin 8) : Byte := BitVec.ofNat 8 (2 ^ p.val)

/-- The refusal of a pair command that no trip is asked of (R213). -/
def Dev.refusal (d : Dev) (b p : Nat) : Nat := (if d.pairOwned b p then 1 else 0) + (if d.chanCmd b p then 0 else 2)

theorem Dev.vbPairClose_one (d : Dev) (t b : Nat) (p : Fin 8) : d.vbPairClose t b (pairMask p).toNat =
    if d.refusal b p + (if (d.chan b p).coil.trip then 4 else 0) ≠ 0 then
      d.vbFault t b p 9 (d.refusal b p + if (d.chan b p).coil.trip then 4 else 0)
    else if d.vbOn b then d.pairClose b p else d := by
  rw [pairMask, mask_toNat p.isLt, Dev.vbPairClose, Dev.pairCommand_one d t b p.isLt, Dev.pairRefused_eq]
  rfl

theorem Dev.vbPairRelease_one (d : Dev) (t b : Nat) (p : Fin 8) : d.vbPairRelease t b (pairMask p).toNat =
    if d.refusal b p ≠ 0 then d.vbFault t b p 9 (d.refusal b p) else d.pairRelease t b p := by
  have hcode : d.pairRefused b p - (if false = true then 0 else 4 * b2n (d.chan b p).coil.trip) = d.refusal b p := by
    rw [Dev.pairRefused_eq, Dev.refusal]
    cases (d.chan b p).coil.trip <;> simp [b2n]
  rw [pairMask, mask_toNat p.isLt, Dev.vbPairRelease, Dev.pairCommand_one d t b p.isLt, hcode]

theorem exec_vbPairClose (hr : s.running = true) (mask : Byte) :
    exec (.vbPairClose b mask) s = .next (s.withDev (s.dev.vbPairClose s.clock.dtime b mask.toNat)) := by
  rw [exec, execVbPairClose, State.act_running _ _ hr]; rfl

theorem exec_vbPairRelease (hr : s.running = true) (mask : Byte) :
    exec (.vbPairRelease b mask) s = .next (s.withDev (s.dev.vbPairRelease s.clock.dtime b mask.toNat)) := by
  rw [exec, execVbPairRelease, State.act_running _ _ hr]; rfl

theorem vbPairClose_refuses (hr : s.running = true) (p : Fin 8) (h : s.dev.refusal b p ≠ 0 ∨ (s.dev.chan b p).coil.trip = true) :
    ∃ t, exec (.vbPairClose b (pairMask p)) s = .next t ∧ deviceOnly s t ∧ t.dev.vb = s.dev.vb ∧ t.dev.bit (Reg.VB_FAULT b) 8 = true ∧
      recorded s.dev t.dev ⟨s.clock.dtime, uid 9 b p, 9, BitVec.ofNat 32 (s.dev.refusal b p + if (s.dev.chan b p).coil.trip then 4 else 0)⟩ := by
  have hcode : s.dev.refusal b p + (if (s.dev.chan b p).coil.trip then 4 else 0) ≠ 0 := by
    rcases h with hwhy | htrip
    · exact fun hz => hwhy (Nat.eq_zero_of_add_eq_zero_right hz)
    · simp [htrip]
  refine ⟨_, exec_vbPairClose hr _, deviceOnly_withDev _ _, ?_⟩
  rw [Dev.vbPairClose_one, if_pos hcode]
  exact Dev.vbFault_refused _ _ b.isLt _ _

theorem vbPairRelease_refuses (hr : s.running = true) (p : Fin 8) (h : s.dev.refusal b p ≠ 0) :
    ∃ t, exec (.vbPairRelease b (pairMask p)) s = .next t ∧ deviceOnly s t ∧ t.dev.vb = s.dev.vb ∧ t.dev.bit (Reg.VB_FAULT b) 8 = true ∧
      recorded s.dev t.dev ⟨s.clock.dtime, uid 9 b p, 9, BitVec.ofNat 32 (s.dev.refusal b p)⟩ := by
  refine ⟨_, exec_vbPairRelease hr _, deviceOnly_withDev _ _, ?_⟩
  rw [Dev.vbPairRelease_one, if_pos h]
  exact Dev.vbFault_refused _ _ b.isLt _ _

theorem Dev.pairClose_held {d : Dev} {b p : Nat} (hoff : (d.pair b p).on = false) (hcommand : (d.chan b p).command = true) (hkind : (d.chan b p).kind ≠ 0) :
    (d.pairClose b p).pair b p = { d.pair b p with held := true } := by
  unfold Dev.pairClose; dsimp only
  rw [if_neg (by simp [hoff]), if_pos ⟨hcommand, by simpa [Chan.active] using hkind⟩, Dev.pair_setPair_same]

theorem Dev.pairClose_asked {d : Dev} {b p : Nat} (hoff : (d.pair b p).on = false) (h : (d.chan b p).command = false ∨ (d.chan b p).kind = 0) :
    (d.pairClose b p).pair b p = { d.pair b p with close := true } := by
  have hfree : ¬ ((d.chan b p).command = true ∧ (d.chan b p).active = true) := fun ⟨hcommand, hactive⟩ =>
    h.elim (fun hno => by simp [hno] at hcommand) (fun hno => by simp [Chan.active, hno] at hactive)
  unfold Dev.pairClose; dsimp only
  rw [if_neg (by simp [hoff]), if_neg hfree, Dev.pair_setPair_same]

theorem Dev.pairClose_on {d : Dev} {b p : Nat} (h : (d.pair b p).on = true) : d.pairClose b p = d := if_pos h

theorem vbPairClose_closes (hr : s.running = true) (p : Fin 8) (hwhy : s.dev.refusal b p = 0) (htrip : (s.dev.chan b p).coil.trip = false) :
    ∃ t, exec (.vbPairClose b (pairMask p)) s = .next t ∧ deviceOnly s t ∧ t.dev.regs = s.dev.regs ∧
      (∀ q, q ≠ p.val → t.dev.pair b q = s.dev.pair b q) ∧
      (s.dev.vbOn b = false ∨ (s.dev.pair b p).on = true → t.dev.pair b p = s.dev.pair b p) ∧
      (s.dev.vbOn b = true → (s.dev.pair b p).on = false → (s.dev.chan b p).command = true → (s.dev.chan b p).kind ≠ 0 →
        t.dev.pair b p = { s.dev.pair b p with held := true }) ∧
      (s.dev.vbOn b = true → (s.dev.pair b p).on = false → (s.dev.chan b p).command = false ∨ (s.dev.chan b p).kind = 0 →
        t.dev.pair b p = { s.dev.pair b p with close := true }) := by
  refine ⟨_, exec_vbPairClose hr _, deviceOnly_withDev _ _, ?_⟩
  rw [Dev.vbPairClose_one, if_neg (by simp [hwhy, htrip]), State.withDev_dev]
  by_cases hon : s.dev.vbOn b = true
  · rw [if_pos hon]
    refine ⟨Dev.pairClose_regs _ _ _, fun q hq => Dev.pairClose_other _ _ hq, fun hno => ?_, fun _ => Dev.pairClose_held, fun _ => Dev.pairClose_asked⟩
    exact congrArg (Dev.pair · b p) (Dev.pairClose_on (hno.resolve_left (by simp [hon])))
  · rw [if_neg hon]
    exact ⟨rfl, fun _ _ => rfl, fun _ => rfl, fun h => absurd h hon, fun h => absurd h hon⟩

theorem vbPairRelease_releases (hr : s.running = true) (p : Fin 8) (hwhy : s.dev.refusal b p = 0) :
    ∃ t, exec (.vbPairRelease b (pairMask p)) s = .next t ∧ deviceOnly s t ∧
      ((s.dev.pair b p).on = false ∨ (s.dev.chan b p).kind ≠ 4 → t.dev.regs = s.dev.regs) ∧
      (∀ q, q ≠ p.val → t.dev.pair b q = s.dev.pair b q) ∧ ((s.dev.pair b p).on = false → t.dev.pair b p = ⟨false, false, false⟩) ∧
      ((s.dev.pair b p).on = true → t.dev.pair b p = { s.dev.pair b p with on := false } ∧ (t.dev.chan b p).kind = 5 ∧
        (t.dev.chan b p).released = true ∧ (t.dev.chan b p).watch = false ∧
        ((s.dev.chan b p).kind ≠ 5 → (t.dev.chan b p).quenchAt = some (s.clock.dtime / 40 + 1))) := by
  refine ⟨_, exec_vbPairRelease hr _, deviceOnly_withDev _ _, ?_⟩
  rw [Dev.vbPairRelease_one, if_neg (not_not.mpr hwhy), State.withDev_dev]
  by_cases hon : (s.dev.pair b p).on = true
  · obtain ⟨hregs, hother, hpair, hkind, hreleased, hwatch, hquench⟩ := Dev.pairRelease_on s.dev s.clock.dtime (Nat.lt_trans p.isLt (by decide)) hon
    exact ⟨fun h => hregs (h.resolve_left (by simp [hon])), hother, fun h => absurd h (by simp [hon]), fun _ => ⟨hpair, hkind, hreleased, hwatch, hquench⟩⟩
  · have hoff := Bool.eq_false_iff.mpr hon
    rw [Dev.pairRelease_off _ _ _ _ hoff]
    exact ⟨fun _ => rfl, fun q hq => Dev.pair_setPair_other _ _ _ hq, fun _ => Dev.pair_setPair_same _ _ _ _, fun h => absurd h hon⟩

end Sys2Proof.Machine
end

section
/-! ## The spare engine and the training of a link (R217, R218, R266) -/

namespace Sys2Proof.Machine
open Sys2Proof.Claims

variable {s : State} {b : Fin 8}

/-! ### SPARE_TAKEOVER, SPARE_HANDOVER and SPARE_RETURN -/

theorem exec_spareTakeover (hr : s.running = true) : exec (.spareTakeover b) s = .next (s.withDev (s.dev.spareTakeover s.clock.dtime b)) := by
  rw [exec, execSpareTakeover, State.act_running _ _ hr]; rfl

theorem spareTakeover_stands (hr : s.running = true) (h : ¬ s.dev.spareCan b = true) : exec (.spareTakeover b) s = .next s := by
  rw [exec_spareTakeover hr, Dev.spareTakeover, if_neg h]
  exact next_withDev_self rfl

theorem spareTakeover_takes (hr : s.running = true) (h : s.dev.spareCan b = true) :
    ∃ t, exec (.spareTakeover b) s = .next t ∧ deviceOnly s t ∧
      t.dev.spare = { s.dev.spare with state := 1, bank := b, rowsLost := 0, handover := false, ready := false, returning := false } ∧
      (t.dev.bank b).allOff = true ∧ (t.dev.bank b).waiting = [] ∧ (t.dev.bank b).gates = 0 ∧ ∀ c, c < 16 → (t.dev.chan b c).kind = 0 :=
  ⟨_, exec_spareTakeover hr, deviceOnly_withDev _ _, Dev.spareTakeover_law h _⟩

theorem exec_spareHandover (hr : s.running = true) : exec (.spareHandover b) s = .next (s.withDev (s.dev.spareHandover b)) := by
  rw [exec, execSpareHandover, State.act_running _ _ hr]; rfl

theorem spareHandover_stands (hr : s.running = true)
    (h : ¬ (s.dev.spare.state = 0 ∧ s.dev.spare.healthy = true ∧ s.dev.vbOn b = true ∧ (s.dev.bank b).state ≠ 3)) :
    exec (.spareHandover b) s = .next s := by
  rw [exec_spareHandover hr, Dev.spareHandover, if_neg h]
  exact next_withDev_self rfl

theorem spareHandover_gives (hr : s.running = true)
    (h : s.dev.spare.state = 0 ∧ s.dev.spare.healthy = true ∧ s.dev.vbOn b = true ∧ (s.dev.bank b).state ≠ 3) :
    ∃ t, exec (.spareHandover b) s = .next t ∧ deviceOnly s t ∧ t.dev.regs = s.dev.regs ∧ t.dev.vb = s.dev.vb ∧
      t.dev.spare = { s.dev.spare with state := 1, bank := b, rowsLost := 0, handover := true, ready := false, returning := false } := by
  refine ⟨_, exec_spareHandover hr, deviceOnly_withDev _ _, ?_⟩
  rw [Dev.spareHandover, if_pos h]
  exact ⟨rfl, rfl, rfl⟩

theorem exec_spareReturn (hr : s.running = true) : exec .spareReturn s = .next (s.withDev (s.dev.spareReturn s.mem s.clock.dtime)) := by
  rw [exec, execSpareReturn, State.actMem_running _ _ hr]; rfl

theorem spareReturn_stands (hr : s.running = true) (h : s.dev.spare.state ≠ 2 ∨ s.dev.spare.ready = true) : exec .spareReturn s = .next s := by
  have hserves : ¬ (s.dev.spare.state = 2 ∧ s.dev.spare.ready = false) := by rcases h with h | h <;> simp [h]
  rw [exec_spareReturn hr, Dev.spareReturn, if_neg hserves]
  exact next_withDev_self rfl

theorem Dev.spareReturn_law {d : Dev} (hstate : d.spare.state = 2) (hready : d.spare.ready = false) (m : Mem) (t : Nat) :
    (d.spareReturn m t).spare.returning = true ∧ (d.spareReturn m t).spare.state = 2 ∧ (d.spareReturn m t).vb = d.vb ∧
      (noBadWord d → (d.spareReturn m t).regs = d.regs) := by
  rw [Dev.spareReturn, if_pos ⟨hstate, hready⟩]
  refine ⟨rfl, ?_, Dev.readPoison_vb d _ _ _ _, fun hclean => ?_⟩
  · exact (congrArg Spare.state (Dev.readPoison_spare d _ _ _ _)).trans hstate
  · exact (Dev.updSpare_regs _ _).trans (congrArg Dev.regs (Dev.readPoison_clean hclean _ _ _ _))

theorem spareReturn_returns (hr : s.running = true) (hstate : s.dev.spare.state = 2) (hready : s.dev.spare.ready = false) :
    ∃ t, exec .spareReturn s = .next t ∧ deviceOnly s t ∧ t.dev.spare.returning = true ∧ t.dev.spare.state = 2 ∧ t.dev.vb = s.dev.vb ∧
      (noBadWord s.dev → t.dev.regs = s.dev.regs) :=
  ⟨_, exec_spareReturn hr, deviceOnly_withDev _ _, Dev.spareReturn_law hstate hready _ _⟩

/-! ### SPARE_LOAD_DONE -/

/-- The spare has failed (R217). -/
def Dev.spareFailed (d : Dev) : Dev := (d.updSpare (fun s => { s with state := 3, healthy := false })).flag Reg.VB_SP_FAULT 2

theorem Dev.spareFailed_rd (d : Dev) {a : Nat} (h : a ≠ Reg.VB_SP_FAULT) : d.spareFailed.rd a = d.rd a := Dev.rd_flag_other _ _ h

theorem Dev.spareFailed_bit (d : Dev) : d.spareFailed.bit Reg.VB_SP_FAULT 2 = true := Dev.bit_flag _ _ (by decide)

/-- A bank fault leaves the spare's fault flags. -/
theorem Dev.bankFault_spareFault (d : Dev) (t cause i : Nat) : (d.bankFault t b cause).bit Reg.VB_SP_FAULT i = d.bit Reg.VB_SP_FAULT i := by
  refine Dev.bit_congr ((d.bankOnly_bankFault (b := b) t cause).regs Reg.VB_SP_FAULT ?_ ?_ ?_) i
  · simp only [engineReg, Reg.VB_SP_FAULT, Reg.SV_LOG_LOST, Reg.VB_CNT_DROP, Reg.VB_CHc_CFG, Reg.VB_STATUS]; omega
  · simp only [outputReg, Reg.VB_SP_FAULT, Reg.WP_EVTn_CFG, Reg.WP_HSYn_CFG]; omega
  · simp only [Reg.VB_SP_FAULT, Reg.VB_FAULT]; omega

theorem exec_spareLoadDone (hr : s.running = true) (ok : Bool) :
    exec (.spareLoadDone ok) s = .next (s.withDev ((s.dev.spareLoadDone s.mem s.clock.dtime ok).shutWatch s.clock.dtime)) := by
  rw [exec, execSpareLoadDone, State.actMem_running _ _ hr]; rfl

theorem spareLoadDone_stands (hr : s.running = true) (hshut : noShutter s.dev) (h : s.dev.spare.state ≠ 1 ∨ s.dev.spare.ready = true) (ok : Bool) :
    exec (.spareLoadDone ok) s = .next s := by
  rw [exec_spareLoadDone hr, Dev.spareLoadDone_none h, Dev.shutWatch_none hshut]
  exact next_withDev_self rfl

theorem recorded_congr {d e f : Dev} {r : FaultRec} (h : e.flt = d.flt) (hrec : recorded e f r) : recorded d f r := by
  unfold recorded at hrec ⊢
  rwa [h] at hrec

section load
variable (hr : s.running = true) (hshut : noShutter s.dev) (hstate : s.dev.spare.state = 1) (hready : s.dev.spare.ready = false)
  (hbank : s.dev.spare.bank = b)
include hr hshut hstate hready hbank

/-- The spare has loaded: it serves its bank, or waits for the handover. -/
theorem spareLoadDone_loads :
    ∃ t, exec (.spareLoadDone true) s = .next t ∧ deviceOnly s t ∧ t.dev.spare.ready = true ∧
      t.dev.spare.state = (if s.dev.spare.handover then 1 else 2) ∧
      (s.dev.spare.handover = true → t.dev.vb = s.dev.vb ∧ (noBadWord s.dev → t.dev.regs = s.dev.regs)) ∧
      (s.dev.spare.handover = false → t.dev.bit Reg.VB_SP_FAULT 0 = true ∧ (t.dev.bank b).overflow = true ∧ t.dev.bit (Reg.VB_FAULT b) 4 = true ∧
        (noBadWord s.dev → recorded s.dev t.dev ⟨s.clock.dtime, uid 9 8 31, 5, BitVec.ofNat 32 s.dev.spare.rowsLost⟩)) := by
  obtain ⟨hvb, hlt, hloaded, hnext, hclean⟩ := Dev.spareLoaded_law (d := s.dev) s.mem s.clock.dtime
  refine ⟨_, exec_spareLoadDone hr true, deviceOnly_withDev _ _, ?_⟩
  rw [Dev.spareLoadDone_ok hstate hready, hbank, State.withDev_dev]
  by_cases hover : s.dev.spare.handover = true
  · rw [if_pos hover, Dev.shutWatch_none (noShutter_congr hlt hshut)]
    exact ⟨hloaded, hnext, fun _ => ⟨hvb, fun h => (hclean h).1⟩, fun h => absurd hover (by simp [h])⟩
  · obtain ⟨hvb', hlt', hspare, hbit, hflag, hrec⟩ := Dev.spareFault_law
      ((s.dev.spareLoaded s.mem s.clock.dtime).updBank b (fun x => { x with overflow := true })) s.clock.dtime b.isLt s.dev.spare.rowsLost
    rw [if_neg hover, Dev.shutWatch_none (noShutter_congr (hlt'.trans hlt) hshut), hspare]
    refine ⟨hloaded, hnext, fun h => absurd h hover, fun _ => ⟨hbit, ?_, hflag, fun h => recorded_congr (hclean h).2 hrec⟩⟩
    rw [Dev.bank_congr hvb', Dev.bank_updBank_same]

/-- The load failed: the spare is faulty, and its bank falls with it. -/
theorem spareLoadDone_failed :
    ∃ t, exec (.spareLoadDone false) s = .next t ∧ deviceOnly s t ∧ t.dev.spare.state = 3 ∧ t.dev.spare.healthy = false ∧
      t.dev.bit Reg.VB_SP_FAULT 2 = true ∧
      (s.dev.spare.handover = false → s.dev.vbOn b = true → (s.dev.bank b).state ≠ 3 → bankDown t b) ∧
      (s.dev.spare.handover = true → t.dev.vb = s.dev.vb) := by
  have hlt : s.dev.spareFailed.lt = s.dev.lt := rfl
  have hshut' := noShutter_congr hlt hshut
  refine ⟨_, exec_spareLoadDone hr false, deviceOnly_withDev _ _, ?_⟩
  rw [Dev.spareLoadDone_fails hstate hready, hbank, State.withDev_dev, ← Dev.spareFailed]
  by_cases hover : s.dev.spare.handover = true
  · rw [if_pos hover, Dev.shutWatch_none hshut']
    exact ⟨rfl, rfl, s.dev.spareFailed_bit, fun h => absurd hover (by simp [h]), fun _ => rfl⟩
  · have hspare := (s.dev.spareFailed.bankOnly_bankFault (b := b) s.clock.dtime 4).spare
    rw [if_neg hover, Dev.shutWatch_bankFault hshut', Dev.bankFault_spareFault, hspare]
    refine ⟨rfl, rfl, s.dev.spareFailed_bit, fun _ hon hup => ?_, fun h => absurd h hover⟩
    have hcfg : s.dev.spareFailed.rd (Reg.VB_CFG b) = s.dev.rd (Reg.VB_CFG b) :=
      Dev.spareFailed_rd _ (by simp only [Reg.VB_CFG, Reg.VB_SP_FAULT]; omega)
    exact bankDown_bankFault ⟨(Dev.bit_congr hcfg 0).trans hon, hup⟩ b.isLt _ _ rfl

end load

/-! ### BL_TRAINING and BL_TRAINING_RETRY -/

/-- One run of sampling phases: the lane takes its centre. -/
theorem Dev.trainLane_one (d : Dev) {mask i n : Nat} (h : longestRuns mask = ([i], n)) : d.trainLane mask = (d, (i + (n - 1) / 2) % 8, n) := by
  unfold Dev.trainLane
  rw [h]
  rfl

/-- The faults of a training: of lane 0 or a late answer, and of lane 1. -/
def Dev.trainFaults (d : Dev) (t b x0 x1 : Nat) (bad0 bad1 late : Bool) : Dev :=
  let e := if bad0 ∨ late then d.blFault t b 2 0x0001 x0 else d
  if bad1 then e.blFault t b 3 0x0001 x1 else e

theorem Dev.trainFaults_law (d : Dev) (t x0 x1 : Nat) (bad0 bad1 late : Bool) :
    (d.trainFaults t b x0 x1 bad0 bad1 late).bl = d.bl ∧
      (¬ (bad0 ∨ bad1 ∨ late) → (d.trainFaults t b x0 x1 bad0 bad1 late).flt = d.flt) ∧
      (bad0 ∨ bad1 ∨ late → (d.trainFaults t b x0 x1 bad0 bad1 late).bit (Reg.BL_FAULT b) 0 = true) := by
  have hbit : ∀ (e : Dev) el x, (e.blFault t b el 1 x).bit (Reg.BL_FAULT b) 0 = true := fun e el x => Dev.bit_blFault e t el 1 x b.isLt rfl (by decide)
  unfold Dev.trainFaults; dsimp only
  by_cases hfirst : bad0 = true ∨ late = true <;> by_cases hsecond : bad1 = true
  · rw [if_pos hfirst, if_pos hsecond]
    exact ⟨(Dev.blFault_bl _ _ _ _ _).trans (Dev.blFault_bl _ _ _ _ _), fun h => absurd (.inr (.inl hsecond)) h, fun _ => hbit _ _ _⟩
  · rw [if_pos hfirst, if_neg hsecond]
    exact ⟨Dev.blFault_bl _ _ _ _ _, fun h => absurd (hfirst.imp_right .inr) h, fun _ => hbit _ _ _⟩
  · rw [if_neg hfirst, if_pos hsecond]
    exact ⟨Dev.blFault_bl _ _ _ _ _, fun h => absurd (.inr (.inl hsecond)) h, fun _ => hbit _ _ _⟩
  · rw [if_neg hfirst, if_neg hsecond]
    exact ⟨rfl, fun _ => rfl, fun h => absurd h (by tauto)⟩

/-- A link with the phases and runs of its training, and lat of the round trip r. -/
def BankLink.trained (x : BankLink) (p0 p1 n0 n1 r : Nat) (late : Bool) : BankLink :=
  { x with phase0 := p0, phase1 := p1, run0 := n0, run1 := n1, lat := if late then 0 else latOf r, r := r }

/-- The training ends with these phases and runs, in success or in failure. -/
def Dev.trainEnds (d : Dev) (t b r p0 p1 n0 n1 : Nat) (bad0 bad1 late : Bool) : Dev :=
  let e := d.trainFaults t b ((d.blink b).lane0.mask + 256 * min 255 r) ((d.blink b).lane1.mask + 256 * min 255 r) bad0 bad1 late
  let x := (e.blink b).trained p0 p1 n0 n1 r late
  if bad0 ∨ bad1 ∨ late then (e.setBlink b { x with state := 2, retryAt := some (t + superframes 64) }).showLink b
  else (e.setBlink b ({ x with lastMsg := t, bad0 := 0, bad1 := 0 }.readPages)).showLink b

theorem Dev.blTraining_fixed {d : Dev} {b : Nat} (h : (d.blink b).cfg.testBit 1 = true) (t r : Nat) :
    d.blTraining t b r = d.trainEnds t b r ((d.blink b).cfg / 4 % 8) ((d.blink b).cfg / 32 % 8) 0 0 false false (decide (6 < latOf r)) := by
  have hfix : nbit (d.blink b).cfg 1 = true := h
  unfold Dev.blTraining; dsimp only
  rw [hfix]
  rfl

theorem Dev.blTraining_scanned {d : Dev} {b i j n m : Nat} (h : (d.blink b).cfg.testBit 1 = false) (h0 : longestRuns (d.blink b).lane0.mask = ([i], n))
    (h1 : longestRuns (d.blink b).lane1.mask = ([j], m)) (t r : Nat) :
    d.blTraining t b r =
      d.trainEnds t b r ((i + (n - 1) / 2) % 8) ((j + (m - 1) / 2) % 8) n m (decide (n < 3)) (decide (m < 3)) (decide (6 < latOf r)) := by
  have hfix : nbit (d.blink b).cfg 1 = false := h
  unfold Dev.blTraining; dsimp only
  rw [hfix]
  simp only [Bool.false_eq_true, if_false, Dev.trainLane_one _ h0, Dev.trainLane_one _ h1]
  rfl

theorem Dev.trainEnds_law (d : Dev) (t r p0 p1 n0 n1 : Nat) (bad0 bad1 late : Bool) :
    let e := d.trainEnds t b r p0 p1 n0 n1 bad0 bad1 late
    (e.blink b).lat = (if late then 0 else latOf r) ∧ (e.blink b).phase0 = p0 ∧ (e.blink b).phase1 = p1 ∧
      (¬ (bad0 ∨ bad1 ∨ late) → (e.blink b).state = 3 ∧ (e.blink b).cmds.map LinkCmd.type = (d.blink b).cmds.map LinkCmd.type ++ [3, 3, 3] ∧ e.flt = d.flt) ∧
      (bad0 ∨ bad1 ∨ late → (e.blink b).state = 2 ∧ (e.blink b).retryAt = some (t + superframes 64) ∧ e.bit (Reg.BL_FAULT b) 0 = true) := by
  obtain ⟨hbl, hflt, hbit⟩ := d.trainFaults_law (b := b) t ((d.blink b).lane0.mask + 256 * min 255 r) ((d.blink b).lane1.mask + 256 * min 255 r) bad0 bad1 late
  unfold Dev.trainEnds; dsimp only
  generalize d.trainFaults t b _ _ bad0 bad1 late = e at hbl hflt hbit ⊢
  have hshown : ∀ f : Dev, (f.showLink b).blink b = f.blink b := fun f => Dev.blink_congr f.shows_showLink.links b
  have hblink := Dev.blink_congr hbl b
  by_cases hbad : bad0 = true ∨ bad1 = true ∨ late = true
  · rw [if_pos hbad, hshown, Dev.blink_setBlink_same]
    refine ⟨rfl, rfl, rfl, fun h => absurd hbad h, fun _ => ⟨rfl, rfl, ?_⟩⟩
    rw [Dev.bit_congr ((Dev.shows_showLink _).regs _ (by simp only [shownReg, Reg.BL_FAULT, Reg.BL_PHASE]; omega))]
    exact hbit hbad
  · rw [if_neg hbad, hshown, Dev.blink_setBlink_same]
    refine ⟨rfl, rfl, rfl, fun _ => ⟨BankLink.readPages_state _, ?_, (Dev.shows_showLink _).faults.trans (hflt hbad)⟩, fun h => absurd h hbad⟩
    rw [BankLink.readPages_types, ← hblink]
    rfl

theorem exec_blTraining (hr : s.running = true) (dt sent arrived : Nat) {y : Nat} (hdue : s.dev.trainingDue b = some y) :
    exec (.blTraining dt b sent arrived) s =
      .next ((s.reach (y + dt)).withDev (s.dev.blTraining (s.reach (y + dt)).clock.dtime b (arrived - sent))) := by
  rw [exec, execBlTraining, State.actDue_running s _ _ (y + dt) hr (by rw [hdue]; rfl)]; rfl

/-- BL_TRAINING where each lane has one longest run of sampling phases. -/
theorem blTraining_ends (hr : s.running = true) (dt sent arrived i j n m : Nat) (hon : s.dev.blOn b = true)
    (hstate : (s.dev.blink b).state = 1 ∨ (s.dev.blink b).state = 2) (hretry : (s.dev.blink b).retryAt = none)
    (h0 : longestRuns (s.dev.blink b).lane0.mask = ([i], n)) (h1 : longestRuns (s.dev.blink b).lane1.mask = ([j], m)) :
    ∃ t, exec (.blTraining dt b sent arrived) s = .next t ∧ t.pending = s.pending ∧ t.mem = s.mem ∧
      (t.dev.blink b).lat = (if (arrived - sent + 87) / 40 ≤ 6 then (arrived - sent + 87) / 40 else 0) ∧
      t.clock = s.clock.reach ((s.dev.blink b).since + if (s.dev.blink b).cfg.testBit 1 then 640 * 8 + dt else 640 * 16 + dt) ∧
      (if (s.dev.blink b).cfg.testBit 1 then (t.dev.blink b).phase0 = (s.dev.blink b).cfg / 4 % 8 ∧ (t.dev.blink b).phase1 = (s.dev.blink b).cfg / 32 % 8
        else (t.dev.blink b).phase0 = (i + (n - 1) / 2) % 8 ∧ (t.dev.blink b).phase1 = (j + (m - 1) / 2) % 8) ∧
      if (arrived - sent + 87) / 40 ≤ 6 ∧ ((s.dev.blink b).cfg.testBit 1 = true ∨ (3 ≤ n ∧ 3 ≤ m)) then
        (t.dev.blink b).state = 3 ∧ (t.dev.blink b).cmds.map LinkCmd.type = (s.dev.blink b).cmds.map LinkCmd.type ++ [3, 3, 3] ∧ t.dev.flt = s.dev.flt
      else (t.dev.blink b).state = 2 ∧ (t.dev.blink b).retryAt = some (t.clock.dtime + 640 * 64) ∧ t.dev.bit (Reg.BL_FAULT b) 0 = true := by
  have hdue : s.dev.trainingDue b = some ((s.dev.blink b).since + superframes (if nbit (s.dev.blink b).cfg 1 then 8 else 16)) := if_pos ⟨hon, hstate, hretry⟩
  have hlat : latOf (arrived - sent) = (arrived - sent + 87) / 40 := rfl
  have hlate : (if decide (6 < latOf (arrived - sent)) then 0 else latOf (arrived - sent)) =
      if (arrived - sent + 87) / 40 ≤ 6 then (arrived - sent + 87) / 40 else 0 := by
    rw [hlat]
    by_cases hin : (arrived - sent + 87) / 40 ≤ 6 <;> simp [hin, Nat.lt_of_not_le]
  refine ⟨_, exec_blTraining hr dt sent arrived hdue, rfl, rfl, ?_⟩
  rw [State.withDev_dev, State.withDev_clock]
  by_cases hfix : (s.dev.blink b).cfg.testBit 1 = true
  · have hnbit : nbit (s.dev.blink b).cfg 1 = true := hfix
    rw [Dev.blTraining_fixed hfix, hnbit, if_pos rfl]
    obtain ⟨hlat', hp0, hp1, hgood, hbad⟩ := s.dev.trainEnds_law (b := b) (s.reach ((s.dev.blink b).since + superframes 8 + dt)).clock.dtime
      (arrived - sent) ((s.dev.blink b).cfg / 4 % 8) ((s.dev.blink b).cfg / 32 % 8) 0 0 false false (decide (6 < latOf (arrived - sent)))
    refine ⟨hlat'.trans hlate, ?_, by rw [if_pos hfix]; exact ⟨hp0, hp1⟩, ?_⟩
    · rw [if_pos hfix, ← Nat.add_assoc]; rfl
    · split_ifs with hok
      · exact hgood (by simpa [hlat] using hok.1)
      · exact hbad (by simpa [hlat, hfix] using hok)
  · have hnbit : nbit (s.dev.blink b).cfg 1 = false := Bool.eq_false_iff.mpr hfix
    rw [Dev.blTraining_scanned (Bool.eq_false_iff.mpr hfix) h0 h1, hnbit, if_neg Bool.false_ne_true]
    obtain ⟨hlat', hp0, hp1, hgood, hbad⟩ := s.dev.trainEnds_law (b := b) (s.reach ((s.dev.blink b).since + superframes 16 + dt)).clock.dtime
      (arrived - sent) ((i + (n - 1) / 2) % 8) ((j + (m - 1) / 2) % 8) n m (decide (n < 3)) (decide (m < 3)) (decide (6 < latOf (arrived - sent)))
    refine ⟨hlat'.trans hlate, ?_, by rw [if_neg hfix]; exact ⟨hp0, hp1⟩, ?_⟩
    · rw [if_neg hfix, ← Nat.add_assoc]; rfl
    · simp only [decide_eq_true_eq, hlat] at hgood hbad
      split_ifs with hok
      · exact hgood (by have := hok.2.resolve_left hfix; omega)
      · exact hbad (by simp only [hfix, Bool.false_eq_true, false_or] at hok; omega)

theorem exec_blTrainingRetry (hr : s.running = true) {y : Nat} (hon : s.dev.blOn b = true) (hretry : (s.dev.blink b).retryAt = some y) :
    exec (.blTrainingRetry b) s = .next ((s.reach y).withDev (s.dev.trainStart b (s.reach y).clock.dtime)) := by
  rw [exec, execBlTrainingRetry, State.actDue_running s _ _ y hr (by rw [if_pos hon, hretry])]; rfl

theorem blTrainingRetry_starts (hr : s.running = true) {y : Nat} (hon : s.dev.blOn b = true) (hretry : (s.dev.blink b).retryAt = some y) :
    ∃ t, exec (.blTrainingRetry b) s = .next t ∧ t.pending = s.pending ∧ t.mem = s.mem ∧ t.clock = s.clock.reach y ∧
      (t.dev.blink b).state = 1 ∧ (t.dev.blink b).since = t.clock.dtime ∧ (t.dev.blink b).retryAt = none ∧ (t.dev.blink b).desc = none ∧
      (t.dev.bank b).armed = false := by
  obtain ⟨hblink, hbank, -⟩ := s.dev.trainStart_law (b := b) (s.reach y).clock.dtime
  refine ⟨_, exec_blTrainingRetry hr hon hretry, rfl, rfl, rfl, ?_⟩
  rw [State.withDev_dev, hblink, hbank]
  exact ⟨rfl, rfl, rfl, rfl, rfl⟩

end Sys2Proof.Machine
end

section
/-! ## Uplink frames and the frames of a bank (R255, R260, R261, R267) -/

namespace Sys2Proof.Machine
open Sys2Proof.Claims

variable {s : State} {b : Fin 8}

/-! ### BL_UPLINK_FRAME -/

theorem three_le_badAfter (v : Option Nat) (n : Nat) : 3 ≤ badAfter v n ↔ v = none ∧ 2 ≤ n := by
  cases v <;> simp [badAfter]

theorem BankLink.loses_iff (x : BankLink) (line0 line1 : Nat) : x.loses line0 line1 = true ↔ (3 ≤ x.state ∧ x.state ≤ 5) ∧
    ((x.got0 line0 = none ∧ 2 ≤ x.bad0) ∨ (x.got1 line1 = none ∧ 2 ≤ x.bad1)) := by
  simp only [BankLink.loses, BankLink.isUp, Bool.and_eq_true, Bool.or_eq_true, decide_eq_true_eq, three_le_badAfter]

/-- The word the stage sent comes through where the link keeps its line code, its marker and its parity. -/
theorem BankLink.got0_encodeFrame (x : BankLink) {pos w : Nat} (hacquire : ¬ (x.state = 1 ∨ x.state = 2)) (hpos : x.lane0.pos = some pos) (hw : w < 2 ^ 24)
    (hodd : onesOf 24 w % 2 = 1) : x.got0 (encodeFrame x.lane0.rd (if pos % 16 = 15 then 5 else 1) w).1 = some w := by
  rw [BankLink.got0, decide_eq_false hacquire]
  exact UpLane.receive_encodeFrame x.lane0 hpos hw hodd

/-- The device after the frame's counters and its link record. -/
def Dev.frameKept (d : Dev) (t b line0 line1 : Nat) : Dev :=
  (d.frameCounted b ((d.blink b).got0 line0) ((d.blink b).got1 line1)).setBlink b ((d.blink b).frameIn t line0 line1)

theorem Dev.uplinkFrame_lost {d : Dev} {b line0 line1 : Nat} (hon : (d.blink b).on = true) (h : (d.blink b).loses line0 line1 = true) (t : Nat) :
    d.uplinkFrame t b line0 line1 = (d.frameKept t b line0 line1).linkLost t b (badAfter ((d.blink b).got0 line0) (d.blink b).bad0)
      (badAfter ((d.blink b).got1 line1) (d.blink b).bad1) := (Dev.uplinkFrame_eq hon t line0 line1).trans (if_pos h)

theorem Dev.uplinkFrame_kept {d : Dev} {b line0 line1 : Nat} (hon : (d.blink b).on = true) (h : ¬ (d.blink b).loses line0 line1 = true) (t : Nat) :
    d.uplinkFrame t b line0 line1 = d.frameKept t b line0 line1 := (Dev.uplinkFrame_eq hon t line0 line1).trans (if_neg h)

theorem Dev.frameKept_law (d : Dev) (t b line0 line1 : Nat) :
    (d.frameKept t b line0 line1).blink b = (d.blink b).frameIn t line0 line1 ∧ (d.frameKept t b line0 line1).lt = d.lt ∧
      (d.frameKept t b line0 line1).flt = d.flt ∧ (d.frameKept t b line0 line1).vb = d.vb ∧
      ((d.blink b).got0 line0 = none → (d.frameKept t b line0 line1).fld (Reg.BL_CNT_UPERR b) 15 0 = min 65535 (d.fld (Reg.BL_CNT_UPERR b) 15 0 + 1)) ∧
      ((d.blink b).got1 line1 = none → (d.frameKept t b line0 line1).fld (Reg.BL_CNT_UPERR b) 31 16 = min 65535 (d.fld (Reg.BL_CNT_UPERR b) 31 16 + 1)) ∧
      ∀ a, a ≠ Reg.BL_CNT_UPERR b → (d.frameKept t b line0 line1).rd a = d.rd a := by
  refine ⟨Dev.blink_setBlink_same _ _ _, Dev.frameCounted_keeps Dev.lt (fun _ _ _ => rfl) d _ _, Dev.frameCounted_keeps Dev.flt (fun _ _ _ => rfl) d _ _,
    Dev.frameCounted_keeps Dev.vb (fun _ _ _ => rfl) d _ _, fun h => ?_, fun h => ?_, fun a ha => Dev.frameCounted_rd d _ _ ha⟩
  · rw [Dev.frameKept, h]; exact Dev.frameCounted_low d _
  · rw [Dev.frameKept, h]; exact Dev.frameCounted_high d _

theorem BankLink.frameIn_inbox (x : BankLink) (t line0 line1 : Nat) : (¬ (3 ≤ x.state ∧ x.state ≤ 5) → (x.frameIn t line0 line1).inbox = x.inbox) ∧
    (3 ≤ x.state ∧ x.state ≤ 5 → ∃ j, (x.frameIn t line0 line1).inbox = x.inbox ++ [⟨j, x.got0 line0, x.got1 line1⟩]) := by
  have hup : x.isUp = true ↔ 3 ≤ x.state ∧ x.state ≤ 5 := by simp [BankLink.isUp]
  exact ⟨fun h => if_neg (hup.not.mpr h), fun h => ⟨_, if_pos (hup.mpr h)⟩⟩

theorem exec_blUplinkFrame (hr : s.running = true) (mark0 mark1 : BitVec 10) (data0 data1 : BitVec 30) : exec (.blUplinkFrame b mark0 data0 mark1 data1) s =
    .next (s.withDev ((s.dev.uplinkFrame s.clock.dtime b (mark0 ++ data0).toNat (mark1 ++ data1).toNat).shutWatch s.clock.dtime)) := by
  rw [exec, execBlUplinkFrame, State.act_running _ _ hr]; rfl

theorem blUplinkFrame_stands (hr : s.running = true) (mark0 mark1 : BitVec 10) (data0 data1 : BitVec 30) (hshut : noShutter s.dev)
    (h : ¬ s.dev.blOn b = true) : exec (.blUplinkFrame b mark0 data0 mark1 data1) s = .next s := by
  have hoff : (s.dev.blink b).on = false := Bool.eq_false_iff.mpr h
  rw [exec_blUplinkFrame hr, Dev.uplinkFrame, if_pos hoff, Dev.shutWatch_none hshut]
  exact next_withDev_self rfl

theorem blUplinkFrame_takes (hr : s.running = true) (mark0 mark1 : BitVec 10) (data0 data1 : BitVec 30) (hshut : noShutter s.dev)
    (hon : s.dev.blOn b = true) :
    let k := s.dev.blink b
    let line0 := (mark0 ++ data0).toNat
    let line1 := (mark1 ++ data1).toNat
    let up := 3 ≤ k.state ∧ k.state ≤ 5
    ∃ t, exec (.blUplinkFrame b mark0 data0 mark1 data1) s = .next t ∧ deviceOnly s t ∧
      (t.dev.blink b).bad0 = badAfter (k.got0 line0) k.bad0 ∧ (t.dev.blink b).bad1 = badAfter (k.got1 line1) k.bad1 ∧
      (k.got0 line0 = none → t.dev.fld (Reg.BL_CNT_UPERR b) 15 0 = min 65535 (s.dev.fld (Reg.BL_CNT_UPERR b) 15 0 + 1)) ∧
      (k.got1 line1 = none → t.dev.fld (Reg.BL_CNT_UPERR b) 31 16 = min 65535 (s.dev.fld (Reg.BL_CNT_UPERR b) 31 16 + 1)) ∧
      if up ∧ ((k.got0 line0 = none ∧ 2 ≤ k.bad0) ∨ (k.got1 line1 = none ∧ 2 ≤ k.bad1)) then
        (t.dev.blink b).state = 6 ∧ t.dev.bit (Reg.BL_FAULT b) 1 = true ∧ (s.dev.vbOn b = true → (s.dev.bank b).state ≠ 3 → bankDown t b)
      else (t.dev.blink b).state = k.state ∧ t.dev.flt = s.dev.flt ∧ t.dev.vb = s.dev.vb ∧ (¬ up → (t.dev.blink b).inbox = k.inbox) ∧
        (up → ∃ j, (t.dev.blink b).inbox = k.inbox ++ [⟨j, k.got0 line0, k.got1 line1⟩]) := by
  dsimp only
  obtain ⟨hblink, hlt, hflt, hvb, hlow, hhigh, hrd⟩ := s.dev.frameKept_law s.clock.dtime b (mark0 ++ data0).toNat (mark1 ++ data1).toNat
  refine ⟨_, exec_blUplinkFrame hr mark0 mark1 data0 data1, deviceOnly_withDev _ _, ?_⟩
  rw [State.withDev_dev]
  by_cases hloses : (s.dev.blink b).loses (mark0 ++ data0).toNat (mark1 ++ data1).toNat = true
  · have hcond := ((s.dev.blink b).loses_iff _ _).mp hloses
    obtain ⟨hbl, hlt', hflag, hcount, hdown⟩ := (s.dev.frameKept s.clock.dtime b (mark0 ++ data0).toNat (mark1 ++ data1).toNat).linkLost_law s.clock.dtime
      b.isLt (n0 := badAfter ((s.dev.blink b).got0 (mark0 ++ data0).toNat) (s.dev.blink b).bad0)
      (n1 := badAfter ((s.dev.blink b).got1 (mark1 ++ data1).toNat) (s.dev.blink b).bad1) (by simpa only [three_le_badAfter] using hcond.2)
    rw [Dev.uplinkFrame_lost hon hloses, Dev.shutWatch_none (noShutter_congr (hlt'.trans hlt) hshut), Dev.blink_congr hbl, hblink, if_pos hcond]
    refine ⟨rfl, rfl, fun h => ?_, fun h => ?_, if_pos hloses, hflag, fun hvbOn hstate => hdown _ rfl ⟨?_, ?_⟩⟩
    · rw [Dev.fld_congr hcount]; exact hlow h
    · rw [Dev.fld_congr hcount]; exact hhigh h
    · exact (Dev.bit_congr (hrd _ (by simp only [Reg.VB_CFG, Reg.BL_CNT_UPERR]; omega)) 0).trans hvbOn
    · rw [Dev.bank_congr hvb]; exact hstate
  · have hcond := ((s.dev.blink b).loses_iff _ _).not.mp hloses
    obtain ⟨hstays, hwaits⟩ := (s.dev.blink b).frameIn_inbox s.clock.dtime (mark0 ++ data0).toNat (mark1 ++ data1).toNat
    rw [Dev.uplinkFrame_kept hon hloses, Dev.shutWatch_none (noShutter_congr hlt hshut), hblink, if_neg hcond]
    exact ⟨rfl, rfl, hlow, hhigh, if_neg hloses, hflt, hvb, hstays, hwaits⟩

/-! ### LACE_FRAME: streams -/

theorem exec_laceFrame_due (hr : s.running = true) (hon : s.dev.blOn b = true) : exec (.laceFrame b) s =
    .next ((s.reach (s.dev.nextBoundary s.clock.dtime b)).withDev
      ((s.dev.bankFrame (s.reach (s.dev.nextBoundary s.clock.dtime b)).now b).shutWatch (s.reach (s.dev.nextBoundary s.clock.dtime b)).clock.dtime)) := by
  have hdue : s.dev.frameDue s.now.dtime b = some (s.dev.nextBoundary s.clock.dtime b) := if_pos (by
    have h : (s.dev.blink b).on = true := hon
    simp [h])
  rw [exec, execLaceFrame, State.actDue_running s _ _ _ hr hdue]; rfl

theorem Bank.idle_reset {x : Bank} (hthreads : x.threads = []) (hstart : x.heldStart = false) (hfires : x.waiting = []) (hpairs : x.pairs = []) : x.idle :=
  ⟨hthreads, hstart, hfires, fun p => by rw [Bank.pair, hpairs]; rfl⟩

/-- The one frame that waits shifts into the streams of an idle bank at its boundary. -/
theorem laceFrame_streams (hr : s.running = true) {j : Nat} {v0 v1 : Option Nat} (hon : s.dev.blOn b = true) (hswap : (s.dev.blink b).swapAt = none)
    (hinbox : (s.dev.blink b).inbox = [⟨j, v0, v1⟩]) (hshut : noShutter s.dev) (hidle : (s.dev.bank b).idle) :
    ∃ t, exec (.laceFrame b) s = .next t ∧ t.pending = s.pending ∧ t.mem = s.mem ∧
      (t.clock.dtime / 40 < j → (t.dev.blink b).inbox = (s.dev.blink b).inbox ∧ ∀ c, c < 16 → (t.dev.chan b c).bits = (s.dev.chan b c).bits) ∧
      (j ≤ t.clock.dtime / 40 → (t.dev.blink b).inbox = [] ∧ ∀ c, c < 16 →
        let l := (s.dev.chan b c).bits
        let i := if c < 9 then c else c - 9
        (t.dev.chan b c).bits = (match if c < 9 then v0 else v1 with
          | some w => w.testBit (2 * i + 1) :: w.testBit (2 * i) :: l
          | none => l.getD 0 false :: l.getD 1 false :: l).take 94) := by
  have hstream : ∀ c l, (⟨j, v0, v1⟩ : UpFrame).stream c l = (match if c < 9 then v0 else v1 with
      | some w => w.testBit (2 * (if c < 9 then c else c - 9) + 1) :: w.testBit (2 * (if c < 9 then c else c - 9)) :: l
      | none => l.getD 0 false :: l.getD 1 false :: l).take 94 := fun c l => by
    by_cases hc : c < 9
    · cases v0 <;> simp only [UpFrame.stream, if_pos hc, streamTakes_none, streamTakes_some]
    · cases v1 <;> simp only [UpFrame.stream, if_neg hc, streamTakes_none, streamTakes_some]
  obtain ⟨hlt, hearly, hdue⟩ := Dev.bankFrame_streams hswap hinbox hidle (s.reach (s.dev.nextBoundary s.clock.dtime b)).now
  refine ⟨_, exec_laceFrame_due hr hon, rfl, rfl, ?_⟩
  rw [Dev.shutWatch_none (noShutter_congr hlt hshut), State.withDev_dev, State.withDev_clock]
  refine ⟨fun h => ?_, fun h => ?_⟩
  · obtain ⟨hin, hbits⟩ := hearly h
    exact ⟨hin.trans hinbox.symm, fun c _ => hbits c⟩
  · obtain ⟨hin, hbits⟩ := hdue h
    exact ⟨hin, fun c hc => (hbits c hc).trans (hstream c _)⟩

end Sys2Proof.Machine
end

section
/-! ## Messages and commands of a link (R262 to R268) -/

namespace Sys2Proof.Machine
open Sys2Proof.Claims

variable {s : State} {b : Fin 8}

/-! ### What a STATUS message does to a link that is up -/

section status
variable {d : Dev} (t : Nat) (msg : List Byte) (h : 3 ≤ (d.blink b).state ∧ (d.blink b).state ≤ 5)
include h

theorem Dev.takeStatus_lt : (d.takeStatus t b msg).lt = d.lt := by
  have hfault : ∀ y code x cause, code ≤ 32 → ((d.statusShown t b msg y).stageFault t b code x cause).lt = d.lt := fun y code x cause hcode =>
    (Dev.stageFault_law _ t x cause b.isLt hcode).2.1.trans (d.statusShown_law t msg y).2.1
  rw [Dev.takeStatus_eq t msg h]
  split_ifs
  · exact (Dev.updBank_lt _ _ _).trans (d.statusShown_law t msg _).2.1
  · exact (d.statusShown_law t msg _).2.1
  · exact hfault _ _ _ _ (by decide)
  · exact hfault _ _ _ _ (by decide)
  · exact (d.statusShown_law t msg _).2.1

/-- All but the state of the link is what the message told. -/
theorem Dev.takeStatus_link : ∃ n, (d.takeStatus t b msg).blink b = { (d.blink b).told msg with state := n } := by
  have hfault : ∀ code x cause, code ≤ 32 →
      ((d.statusShown t b msg ((d.blink b).told msg)).stageFault t b code x cause).blink b = { (d.blink b).told msg with state := 4 } :=
    fun code x cause hcode => by rw [(Dev.stageFault_law _ t x cause b.isLt hcode).1, (d.statusShown_law t msg _).1]
  rw [Dev.takeStatus_eq t msg h]
  split_ifs
  · exact ⟨5, (d.statusShown_law t msg _).1⟩
  · exact ⟨_, (d.statusShown_law t msg _).1⟩
  · exact ⟨4, hfault _ _ _ (by decide)⟩
  · exact ⟨4, hfault _ _ _ (by decide)⟩
  · exact ⟨_, (d.statusShown_law t msg _).1⟩

/-- A bank whose clear waits goes to ARMING with a STATUS message without FAULT (R215). -/
theorem Dev.takeStatus_clears (hclearing : (d.bank b).clearing = true) (hstage : msgByte msg 1 % 4 ≠ 2) :
    ((d.takeStatus t b msg).bank b).state = 1 ∧ ((d.takeStatus t b msg).bank b).clearing = false := by
  have hshown := fun y => (d.statusShown_law t msg y).2.2.2.1 hclearing hstage
  have hfault : ∀ code x cause, code ≤ 32 →
      (((d.statusShown t b msg ((d.blink b).told msg)).stageFault t b code x cause).bank b).state = 1 ∧
        (((d.statusShown t b msg ((d.blink b).told msg)).stageFault t b code x cause).bank b).clearing = false := fun code x cause hcode => by
    obtain ⟨hstate, hcleared⟩ := hshown ((d.blink b).told msg)
    rw [(Dev.stageFault_law _ t x cause b.isLt hcode).2.2.2.1 (by rw [hstate]; decide)]
    exact ⟨hstate, hcleared⟩
  rw [Dev.takeStatus_eq t msg h]
  split_ifs
  · have harmed := hshown { (d.blink b).told msg with state := 5 }
    rw [Dev.bank_updBank_same]
    generalize (d.statusShown t b msg { (d.blink b).told msg with state := 5 }).bank b = y at harmed ⊢
    exact harmed
  · exact hshown ((d.blink b).told msg)
  · exact hfault 7 (msgByte msg 1 % 4 + 256 * msgByte msg 6) 3 (by decide)
  · exact hshown ((d.blink b).told msg)

omit h

/-- ARMING: the stage reports ARMED, and the link and its bank are armed (R266). -/
theorem Dev.takeStatus_arms (hstate : (d.blink b).state = 4) (hstage : msgByte msg 1 % 4 = 1) :
    ((d.takeStatus t b msg).blink b).state = 5 ∧ ((d.takeStatus t b msg).bank b).armed = true := by
  rw [Dev.takeStatus_eq t msg (by omega), if_pos ⟨hstate, hstage⟩, Dev.bank_updBank_same, Dev.blink_congr (Dev.updBank_bl _ _ _),
    (d.statusShown_law t msg _).1]
  exact ⟨rfl, rfl⟩

/-- A link that reads the descriptor goes on. -/
theorem Dev.takeStatus_reading (hstate : (d.blink b).state = 3) : ((d.takeStatus t b msg).blink b).state = 3 := by
  rw [Dev.takeStatus_eq t msg (by omega), if_neg (by omega), if_pos (by omega), (d.statusShown_law t msg _).1, ((d.blink b).told_law msg).1]
  exact hstate

/-- An armed link whose stage reports a fault, or that it is no longer armed (R267), by the code and cause. -/
theorem Dev.takeStatus_faulted (hstate : (d.blink b).state = 5) (hstage : msgByte msg 1 % 4 = 2) :
    d.takeStatus t b msg = (d.statusShown t b msg ((d.blink b).told msg)).stageFault t b 6 (msgByte msg 6) 2 := by
  rw [Dev.takeStatus_eq t msg (by omega), if_neg (by omega), if_neg (by omega), if_pos hstage]

theorem Dev.takeStatus_disarmed (hstate : (d.blink b).state = 5) (hstage : msgByte msg 1 % 4 = 0 ∨ msgByte msg 1 % 4 = 3) :
    d.takeStatus t b msg = (d.statusShown t b msg ((d.blink b).told msg)).stageFault t b 7 (msgByte msg 1 % 4 + 256 * msgByte msg 6) 3 := by
  rw [Dev.takeStatus_eq t msg (by omega), if_neg (by omega), if_neg (by omega), if_neg (by omega), if_pos (.inl (by omega))]

theorem Dev.takeStatus_holds (hstate : (d.blink b).state = 5) (hstage : msgByte msg 1 % 4 = 1) (hflag : (msgByte msg 6).testBit 5 = false) :
    d.takeStatus t b msg = d.statusShown t b msg ((d.blink b).told msg) := by
  have hnone : ¬ (msgByte msg 1 % 4 ≠ 1 ∨ nbit (msgByte msg 6) 5 = true) := by simp [hstage, nbit, hflag]
  rw [Dev.takeStatus_eq t msg (by omega), if_neg (by omega), if_neg (by omega), if_neg (by omega), if_neg hnone]

/-- What a stage fault does after a STATUS message that leaves the bank's state. -/
theorem Dev.stageFault_shown {y : BankLink} {code : Nat} (x cause : Nat) (hcode : code ≤ 32) :
    let e := (d.statusShown t b msg y).stageFault t b code x cause
    (e.blink b).state = 4 ∧ e.bit (Reg.BL_FAULT b) (code - 1) = true ∧
      ((d.bank b).clearing = false ∨ msgByte msg 1 % 4 = 2 → ∀ s : State, s.dev = e → d.vbOn b = true → (d.bank b).state = 2 → bankDown s b) := by
  dsimp only
  obtain ⟨hlink, -, hbit, -, hdown⟩ := (d.statusShown t b msg y).stageFault_law t x cause b.isLt hcode
  obtain ⟨-, -, hrd, -, hkept⟩ := d.statusShown_law t msg y
  refine ⟨by rw [hlink], hbit, fun hno s hs hon hready => hdown s hs ?_ ((hkept hno).1.trans hready)⟩
  exact (Dev.bit_congr (hrd _ (not_statusReg_own (by simp only [Reg.VB_CFG, Reg.BL_PHASE]; omega))) 0).trans hon

end status

/-! ### BL_STATUS_MESSAGE -/

/-- The message at the front of those received is taken from them. -/
def Dev.msgTaken (d : Dev) (b : Nat) (rest : List (Option (List Byte))) : Dev := d.setBlink b { d.blink b with msgs := rest }

theorem Dev.msgTaken_blink (d : Dev) (b : Nat) (rest : List (Option (List Byte))) : (d.msgTaken b rest).blink b = { d.blink b with msgs := rest } :=
  Dev.blink_setBlink_same _ _ _

theorem Dev.blStatus_eq {d : Dev} {b : Nat} {msg : List Byte} {rest : List (Option (List Byte))} (h : (d.blink b).msgs = some msg :: rest)
    (htype : messageType msg = 1) (t : Nat) : d.blStatus t b = (d.msgTaken b rest).takeStatus t b msg := by
  have hfirst : (d.blink b).first 1 = some msg := by simp only [BankLink.first, h, if_pos htype]
  simp only [Dev.blStatus, hfirst, Dev.updBlink, h]
  rfl

theorem Dev.blDesc_eq {d : Dev} {b : Nat} {msg : List Byte} {rest : List (Option (List Byte))} (h : (d.blink b).msgs = some msg :: rest)
    (htype : messageType msg = 2) (t : Nat) : d.blDesc t b = (d.msgTaken b rest).takeDesc t b msg := by
  have hfirst : (d.blink b).first 2 = some msg := by simp only [BankLink.first, h, if_pos htype]
  simp only [Dev.blDesc, hfirst, Dev.updBlink, h]
  rfl

theorem exec_blStatusMessage (hr : s.running = true) (dt : Nat) : exec (.blStatusMessage dt b) s =
    .next ((s.pass dt).withDev ((s.dev.blStatus (s.pass dt).clock.dtime b).shutWatch (s.pass dt).clock.dtime)) := by
  rw [exec, execBlStatusMessage, State.act_running (s.pass dt) _ hr]; rfl

theorem exec_blDescMessage (hr : s.running = true) (dt : Nat) : exec (.blDescMessage dt b) s =
    .next ((s.pass dt).withDev (s.dev.blDesc (s.pass dt).clock.dtime b)) := by
  rw [exec, execBlDescMessage, State.act_running (s.pass dt) _ hr]; rfl

theorem blStatusMessage_none (hr : s.running = true) (dt : Nat) (hshut : noShutter s.dev) (h : (s.dev.blink b).first 1 = none) :
    exec (.blStatusMessage dt b) s = .next (s.pass dt) := by
  have hstands : s.dev.blStatus (s.pass dt).clock.dtime b = s.dev := by simp only [Dev.blStatus, h]
  rw [exec_blStatusMessage hr, hstands, Dev.shutWatch_none hshut]
  rfl

theorem blDescMessage_none (hr : s.running = true) (dt : Nat) (h : (s.dev.blink b).first 2 = none) :
    exec (.blDescMessage dt b) s = .next (s.pass dt) := by
  have hstands : s.dev.blDesc (s.pass dt).clock.dtime b = s.dev := by simp only [Dev.blDesc, h]
  rw [exec_blDescMessage hr, hstands]
  rfl

section message
variable (hr : s.running = true) (dt : Nat) {msg : List Byte} {rest : List (Option (List Byte))} (hmsgs : (s.dev.blink b).msgs = some msg :: rest)
include hr hmsgs

theorem blStatusMessage_down (hshut : noShutter s.dev) (htype : messageType msg = 1)
    (hdown : ¬ (3 ≤ (s.dev.blink b).state ∧ (s.dev.blink b).state ≤ 5)) :
    ∃ t, exec (.blStatusMessage dt b) s = .next t ∧ deviceOnly (s.pass dt) t ∧ t.dev.vb = s.dev.vb ∧ t.dev.regs = s.dev.regs ∧
      t.dev.blink b = { s.dev.blink b with msgs := rest } := by
  have hlink := s.dev.msgTaken_blink b rest
  refine ⟨_, exec_blStatusMessage hr dt, deviceOnly_withDev _ _, ?_⟩
  rw [Dev.blStatus_eq hmsgs htype, Dev.takeStatus_down _ _ (by rw [hlink]; exact hdown), Dev.shutWatch_none (d := s.dev.msgTaken b rest) hshut]
  exact ⟨rfl, rfl, hlink⟩

theorem blStatusMessage_up (hshut : noShutter s.dev) (htype : messageType msg = 1) (hup : 3 ≤ (s.dev.blink b).state ∧ (s.dev.blink b).state ≤ 5) :
    ∃ t, exec (.blStatusMessage dt b) s = .next t ∧ deviceOnly (s.pass dt) t ∧ (t.dev.blink b).msgs = rest ∧
      (t.dev.blink b).stage = msgByte msg 1 % 4 ∧ (t.dev.blink b).chal = msgByte msg 2 + 256 * msgByte msg 3 ∧
      ((s.dev.bank b).clearing = true → msgByte msg 1 % 4 ≠ 2 → (t.dev.bank b).state = 1 ∧ (t.dev.bank b).clearing = false) ∧
      ((s.dev.blink b).state = 4 → msgByte msg 1 % 4 = 1 → (t.dev.blink b).state = 5 ∧ (t.dev.bank b).armed = true) ∧
      ((s.dev.blink b).state = 3 → (t.dev.blink b).state = 3) ∧
      ((s.dev.blink b).state = 5 → msgByte msg 1 % 4 = 2 → (t.dev.blink b).state = 4 ∧ t.dev.bit (Reg.BL_FAULT b) 5 = true ∧
        (s.dev.vbOn b = true → (s.dev.bank b).state = 2 → bankDown t b)) ∧
      ((s.dev.blink b).state = 5 → msgByte msg 1 % 4 = 0 ∨ msgByte msg 1 % 4 = 3 → (t.dev.blink b).state = 4 ∧ t.dev.bit (Reg.BL_FAULT b) 6 = true ∧
        ((s.dev.bank b).clearing = false → s.dev.vbOn b = true → (s.dev.bank b).state = 2 → bankDown t b)) ∧
      ((s.dev.blink b).state = 5 → msgByte msg 1 % 4 = 1 → (s.dev.bank b).clearing = false → (msgByte msg 6).testBit 5 = false →
        (t.dev.blink b).state = 5 ∧ t.dev.vb = s.dev.vb) := by
  have hlink := s.dev.msgTaken_blink b rest
  have hstate : ((s.dev.msgTaken b rest).blink b).state = (s.dev.blink b).state := by rw [hlink]
  have hup' : 3 ≤ ((s.dev.msgTaken b rest).blink b).state ∧ ((s.dev.msgTaken b rest).blink b).state ≤ 5 := hstate ▸ hup
  obtain ⟨-, hmsgs', hstage', hchal'⟩ := ((s.dev.msgTaken b rest).blink b).told_law msg
  refine ⟨_, exec_blStatusMessage hr dt, deviceOnly_withDev _ _, ?_⟩
  rw [Dev.blStatus_eq hmsgs htype, Dev.shutWatch_none (noShutter_congr (Dev.takeStatus_lt _ msg hup') hshut), State.withDev_dev]
  obtain ⟨n, hn⟩ := Dev.takeStatus_link (s.pass dt).clock.dtime msg hup'
  refine ⟨?_, ?_, ?_, Dev.takeStatus_clears (d := s.dev.msgTaken b rest) _ msg hup', fun h4 h1 => Dev.takeStatus_arms _ msg (hstate.trans h4) h1,
    fun h3 => Dev.takeStatus_reading _ msg (hstate.trans h3), fun h5 h2 => ?_, fun h5 h03 => ?_, fun h5 h1 hno hflag => ?_⟩
  · rw [hn]; exact hmsgs'.trans (congrArg BankLink.msgs hlink)
  · rw [hn]; exact hstage'
  · rw [hn]; exact hchal'
  · rw [Dev.takeStatus_faulted _ msg (hstate.trans h5) h2]
    obtain ⟨hnext, hbit, hdown⟩ := Dev.stageFault_shown (d := s.dev.msgTaken b rest) (b := b) (s.pass dt).clock.dtime msg
      (y := ((s.dev.msgTaken b rest).blink b).told msg) (code := 6) (msgByte msg 6) 2 (by decide)
    exact ⟨hnext, hbit, hdown (.inr h2) _ rfl⟩
  · rw [Dev.takeStatus_disarmed _ msg (hstate.trans h5) h03]
    obtain ⟨hnext, hbit, hdown⟩ := Dev.stageFault_shown (d := s.dev.msgTaken b rest) (b := b) (s.pass dt).clock.dtime msg
      (y := ((s.dev.msgTaken b rest).blink b).told msg) (code := 7) (msgByte msg 1 % 4 + 256 * msgByte msg 6) 3 (by decide)
    exact ⟨hnext, hbit, fun hno => hdown (.inl hno) _ rfl⟩
  · obtain ⟨hshown, -, -, -, hkept⟩ := (s.dev.msgTaken b rest).statusShown_law (b := b) (s.pass dt).clock.dtime msg (((s.dev.msgTaken b rest).blink b).told msg)
    rw [Dev.takeStatus_holds _ msg (hstate.trans h5) h1 hflag, hshown, ((s.dev.msgTaken b rest).blink b |>.told_law msg).1]
    exact ⟨hstate.trans h5, (hkept (.inl hno)).2 (not_statusReg_own (by simp only [Reg.VB_CFG, Reg.BL_PHASE]; omega))⟩

end message

end Sys2Proof.Machine
end

section
/-! ## Descriptors, discarded messages and the commands of a link (R262 to R268) -/

namespace Sys2Proof.Machine
open Sys2Proof.Claims

variable {s : State} {b : Fin 8}

/-! ### BL_DESC_MESSAGE -/

section desc
variable (hr : s.running = true) (dt : Nat) {msg : List Byte} {rest : List (Option (List Byte))} (hmsgs : (s.dev.blink b).msgs = some msg :: rest)
  (htype : messageType msg = 2)
include hr hmsgs htype

theorem blDescMessage_ignored (h : (s.dev.blink b).state ≠ 3 ∨ 2 < msgByte msg 1) :
    ∃ t, exec (.blDescMessage dt b) s = .next t ∧ deviceOnly (s.pass dt) t ∧ t.dev.vb = s.dev.vb ∧ t.dev.regs = s.dev.regs ∧
      t.dev.blink b = { s.dev.blink b with msgs := rest } := by
  have hlink := s.dev.msgTaken_blink b rest
  refine ⟨_, exec_blDescMessage hr dt, deviceOnly_withDev _ _, ?_⟩
  rw [Dev.blDesc_eq hmsgs htype, Dev.takeDesc_none _ _ _ (by rw [hlink]; exact h)]
  exact ⟨rfl, rfl, hlink⟩

/-- The last page completes the descriptor: it is accepted, and the link arms where its bank is not out, or it is rejected (R266). -/
theorem blDescMessage_last {p0 p1 : List Byte} (hlength : msg.length = 10) (hstate : (s.dev.blink b).state = 3) (hpage : msgByte msg 1 = 2)
    (h0 : p0 ≠ []) (h1 : p1 ≠ []) (hp0 : SMap.get [] (s.dev.blink b).pages 0 = p0) (hp1 : SMap.get [] (s.dev.blink b).pages 1 = p1) :
    let l := p0 ++ p1 ++ (msg.drop 2).take 7
    ∃ t, exec (.blDescMessage dt b) s = .next t ∧ deviceOnly (s.pass dt) t ∧ (t.dev.blink b).msgs = rest ∧
      if descReject l (s.dev.indep b) = 0 then
        (t.dev.blink b).desc = some l ∧ t.dev.flt = s.dev.flt ∧
          (s.dev.bankOut b = false → (t.dev.blink b).state = 4 ∧
            (t.dev.blink b).cmds.map LinkCmd.type = (s.dev.blink b).cmds.map LinkCmd.type ++ [1]) ∧
          (s.dev.bankOut b = true → (t.dev.blink b).state = 3 ∧ (t.dev.blink b).cmds.map LinkCmd.type = (s.dev.blink b).cmds.map LinkCmd.type)
      else (t.dev.blink b).state = 3 ∧ (t.dev.blink b).desc = none ∧ t.dev.bit (Reg.BL_FAULT b) 2 = true ∧
        recorded s.dev t.dev ⟨t.clock.dtime, uid 10 b 4, 3, BitVec.ofNat 32 (descReject l (s.dev.indep b))⟩ := by
  dsimp only
  have hlink := s.dev.msgTaken_blink b rest
  have htaken := Dev.takeDesc_last (d := s.dev.msgTaken b rest) (b := b) (s.pass dt).clock.dtime (msg := msg) (p0 := p0) (p1 := p1)
    (by rw [hlink]; exact hstate) hpage hlength h0 h1 (by rw [hlink]; exact hp0) (by rw [hlink]; exact hp1)
  have hindep : (s.dev.msgTaken b rest).indep b = s.dev.indep b := rfl
  have hout : (s.dev.msgTaken b rest).bankOut b = s.dev.bankOut b := rfl
  have hshown : ∀ y, (((s.dev.msgTaken b rest).setBlink b y).showDesc b).blink b = y := fun y => by
    rw [Dev.blink_congr (Dev.shows_showDesc _).links, Dev.blink_setBlink_same]
  have hflt : ∀ y, (((s.dev.msgTaken b rest).setBlink b y).showDesc b).flt = s.dev.flt := fun y => (Dev.shows_showDesc _).faults
  dsimp only at htaken
  rw [hindep, hout, hlink] at htaken
  refine ⟨_, exec_blDescMessage hr dt, deviceOnly_withDev _ _, ?_⟩
  rw [Dev.blDesc_eq hmsgs htype, htaken, State.withDev_dev, State.withDev_clock]
  by_cases hok : descReject (p0 ++ p1 ++ (msg.drop 2).take 7) (s.dev.indep b) = 0
  · rw [if_pos hok, if_pos hok, hshown, hflt]
    cases hwhere : s.dev.bankOut b
    · exact ⟨rfl, rfl, rfl, fun _ => ⟨rfl, BankLink.send_types _ _ _⟩, fun h => absurd h (by decide)⟩
    · exact ⟨rfl, rfl, rfl, fun h => absurd h (by decide), fun _ => ⟨hstate, rfl⟩⟩
  · rw [if_neg hok, if_neg hok, Dev.blink_congr (Dev.blFault_bl _ _ _ _ _), hshown]
    exact ⟨rfl, hstate, rfl, Dev.bit_blFault _ _ _ _ _ b.isLt rfl (by decide), recorded_faultFlag (hflt _) _ _ _ _ _ _⟩

end desc

/-! ### BL_SLOW_MESSAGE_DISCARD -/

theorem exec_blSlowMessageDiscard (hr : s.running = true) : exec (.blSlowMessageDiscard b) s = .next (s.withDev (s.dev.blDiscard b)) := by
  rw [exec, execBlSlowMessageDiscard, State.act_running _ _ hr]; rfl

theorem blSlowMessageDiscard_stands (hr : s.running = true) (h : ∀ rest, (s.dev.blink b).msgs ≠ none :: rest) :
    exec (.blSlowMessageDiscard b) s = .next s := by
  rw [exec_blSlowMessageDiscard hr]
  refine next_withDev_self ?_
  unfold Dev.blDiscard
  split
  · next rest hmsgs => exact absurd hmsgs (h rest)
  · rfl

theorem blSlowMessageDiscard_counts (hr : s.running = true) {rest : List (Option (List Byte))} (hmsgs : (s.dev.blink b).msgs = none :: rest)
    (hroom : s.dev.rdN (Reg.BL_CNT_CRC b) + 1 < 2 ^ 32) :
    ∃ t, exec (.blSlowMessageDiscard b) s = .next t ∧ deviceOnly s t ∧ t.dev.rdN (Reg.BL_CNT_CRC b) = s.dev.rdN (Reg.BL_CNT_CRC b) + 1 ∧
      (∀ a, a ≠ Reg.BL_CNT_CRC b → t.dev.rd a = s.dev.rd a) ∧ t.dev.blink b = { s.dev.blink b with msgs := rest } ∧ t.dev.vb = s.dev.vb := by
  have hcounts : s.dev.blDiscard b = (s.dev.msgTaken b rest).bump (Reg.BL_CNT_CRC b) := by simp only [Dev.blDiscard, hmsgs]; rfl
  refine ⟨_, exec_blSlowMessageDiscard hr, deviceOnly_withDev _ _, ?_⟩
  rw [hcounts, State.withDev_dev]
  exact ⟨Dev.rdN_bumpBy_same _ _ 1 hroom, fun a ha => Dev.rd_bump_other _ ha,
    (Dev.blink_congr (Dev.bump_bl _ _) b).trans (s.dev.msgTaken_blink b rest), Dev.bump_vb _ _⟩

/-! ### BL_COMMAND_ACK_TIMEOUT and BL_STAGE_SILENT -/

theorem Dev.ackTimeout_law {d : Dev} {c : LinkCmd} {rest : List LinkCmd} (t : Nat) (hcmds : (d.blink b).cmds = c :: rest)
    (hroom : d.rdN (Reg.BL_CNT_RETX b) + 1 < 2 ^ 32) :
    ((d.ackTimeout t b).blink b).cmds = { c with since := some t } :: rest ∧ (d.ackTimeout t b).rdN (Reg.BL_CNT_RETX b) = d.rdN (Reg.BL_CNT_RETX b) + 1 ∧
      (d.ackTimeout t b).bit (Reg.BL_FAULT b) 3 = true ∧
      recorded d (d.ackTimeout t b) ⟨t, uid 10 b 4, 4, BitVec.ofNat 32 (c.type + 16 * c.seq)⟩ := by
  obtain ⟨e, he, hlink, hrd, hflt⟩ : ∃ e : Dev, d.ackTimeout t b = (e.blFault t b 4 4 (c.type + 16 * c.seq)).bump (Reg.BL_CNT_RETX b) ∧
      (e.blink b).cmds = { c with since := some t } :: rest ∧ (∀ a, e.rd a = d.rd a) ∧ e.flt = d.flt := by
    refine ⟨d.updBlink b (fun x => { x with cmds := { c with since := some t } :: rest }), ?_, ?_, fun _ => rfl, rfl⟩
    · simp only [Dev.ackTimeout, hcmds]
    · rw [Dev.blink_updBlink_same]
  have hcount : (e.blFault t b 4 4 (c.type + 16 * c.seq)).rdN (Reg.BL_CNT_RETX b) = d.rdN (Reg.BL_CNT_RETX b) := by
    rw [Dev.rdN, Dev.blFault_rd _ _ _ _ _ (by simp only [Reg.BL_CNT_RETX, Reg.SV_LOG_LOST]; omega) (by simp only [Reg.BL_CNT_RETX, Reg.BL_FAULT]; omega),
      hrd]
    rfl
  have hrec := recorded_faultFlag hflt t (uid 10 b 4) 4 (c.type + 16 * c.seq) (Reg.BL_FAULT b) 3
  rw [he]
  refine ⟨?_, ?_, ?_, ?_⟩
  · rw [Dev.blink_congr ((Dev.bump_bl _ _).trans (Dev.blFault_bl _ _ _ _ _))]; exact hlink
  · rw [Dev.bump, Dev.rdN_bumpBy_same _ _ 1 (by rw [hcount]; exact hroom), hcount]
  · rw [Dev.bit_congr (Dev.rd_bump_other _ (by simp only [Reg.BL_FAULT, Reg.BL_CNT_RETX]; omega))]
    exact Dev.bit_blFault _ _ _ _ _ b.isLt rfl (by decide)
  · unfold recorded at hrec ⊢
    rw [Dev.bump_flt]
    exact hrec

theorem Dev.ackDue_none {d : Dev} (h : ¬ (d.blOn b = true ∧ 3 ≤ (d.blink b).state ∧ (d.blink b).state ≤ 6) ∨ (d.blink b).cmds = [] ∨
    ∃ c rest, (d.blink b).cmds = c :: rest ∧ c.since = none) : d.ackDue b = none := by
  unfold Dev.ackDue; dsimp only
  rcases h with hdown | hempty | ⟨c, rest, hcmds, hwaits⟩
  · exact if_neg fun ⟨hon, hsends⟩ => hdown ⟨hon, (BankLink.sends_iff _).mp hsends⟩
  · rw [hempty]; exact ite_self _
  · rw [hcmds, List.head?_cons, Option.bind_some, hwaits]; exact ite_self _

theorem blCommandAckTimeout_stands (h : ¬ (s.dev.blOn b = true ∧ 3 ≤ (s.dev.blink b).state ∧ (s.dev.blink b).state ≤ 6) ∨
    (s.dev.blink b).cmds = [] ∨ ∃ c rest, (s.dev.blink b).cmds = c :: rest ∧ c.since = none) : exec (.blCommandAckTimeout b) s = .next s := by
  rw [exec, execBlCommandAckTimeout, State.actDue_none _ _ _ (Dev.ackDue_none h)]

theorem blCommandAckTimeout_repeats (hr : s.running = true) {c : LinkCmd} {rest : List LinkCmd} {u : Nat} (hon : s.dev.blOn b = true)
    (hsends : 3 ≤ (s.dev.blink b).state ∧ (s.dev.blink b).state ≤ 6) (hcmds : (s.dev.blink b).cmds = c :: rest) (hsince : c.since = some u)
    (hroom : s.dev.rdN (Reg.BL_CNT_RETX b) + 1 < 2 ^ 32) :
    ∃ t, exec (.blCommandAckTimeout b) s = .next t ∧ t.pending = s.pending ∧ t.mem = s.mem ∧ t.clock = s.clock.reach (u + 640 * 16) ∧
      (t.dev.blink b).cmds = { c with since := some t.clock.dtime } :: rest ∧
      t.dev.rdN (Reg.BL_CNT_RETX b) = s.dev.rdN (Reg.BL_CNT_RETX b) + 1 ∧ t.dev.bit (Reg.BL_FAULT b) 3 = true ∧
      recorded s.dev t.dev ⟨t.clock.dtime, uid 10 b 4, 4, BitVec.ofNat 32 (c.type + 16 * c.seq)⟩ := by
  have hdue : s.dev.ackDue b = some (u + superframes 16) := by
    unfold Dev.ackDue; dsimp only
    rw [if_pos ⟨hon, (BankLink.sends_iff _).mpr hsends⟩, hcmds, List.head?_cons, Option.bind_some, hsince]
    rfl
  have hexec : exec (.blCommandAckTimeout b) s =
      .next ((s.reach (u + superframes 16)).withDev (s.dev.ackTimeout (s.reach (u + superframes 16)).clock.dtime b)) := by
    rw [exec, execBlCommandAckTimeout, State.actDue_running s _ _ _ hr hdue]; rfl
  exact ⟨_, hexec, rfl, rfl, rfl, Dev.ackTimeout_law _ hcmds hroom⟩

theorem Dev.stageSilent_law (d : Dev) (t : Nat) :
    (d.stageSilent t b).lt = d.lt ∧ (d.stageSilent t b).bit (Reg.BL_FAULT b) 4 = true ∧
      (d.canFault b → ∀ s : State, s.dev = d.stageSilent t b → bankDown s b) := by
  have honly := Dev.bankOnly_bankFault (b := b) (d.blFault t b 4 5 0) t 3
  refine ⟨honly.heads.trans (Dev.blFault_lt _ _ _ _ _), ?_, fun hcan s hs => bankDown_bankFault ⟨?_, ?_⟩ b.isLt t 3 hs⟩
  · rw [Dev.stageSilent, Dev.bit_congr (Dev.bankFault_rd _ _ (linkReg_fault b.isLt) 3)]
    exact Dev.bit_blFault _ _ _ _ _ b.isLt rfl (by decide)
  · exact (Dev.bit_congr (Dev.blFault_rd _ _ _ _ _ (linkReg_cfg b.isLt).lost (by simp only [Reg.VB_CFG, Reg.BL_FAULT]; omega)) 0).trans hcan.1
  · rw [Dev.bank_congr (Dev.blFault_vb _ _ _ _ _)]; exact hcan.2

theorem blStageSilent_faults (hr : s.running = true) (hshut : noShutter s.dev) (hon : s.dev.blOn b = true) (hready : (s.dev.bank b).state = 2)
    (hvbOn : s.dev.vbOn b = true) :
    ∃ t, exec (.blStageSilent b) s = .next t ∧ t.pending = s.pending ∧ t.mem = s.mem ∧ t.clock = s.clock.reach ((s.dev.blink b).lastMsg + 640 * 16) ∧
      bankDown t b ∧ t.dev.bit (Reg.BL_FAULT b) 4 = true := by
  have hdue : s.dev.silentDue b = some ((s.dev.blink b).lastMsg + superframes 16) := if_pos ⟨hon, decide_eq_true hready⟩
  have hexec : exec (.blStageSilent b) s = .next ((s.reach ((s.dev.blink b).lastMsg + superframes 16)).withDev
      ((s.dev.stageSilent (s.reach ((s.dev.blink b).lastMsg + superframes 16)).clock.dtime b).shutWatch
        (s.reach ((s.dev.blink b).lastMsg + superframes 16)).clock.dtime)) := by
    rw [exec, execBlStageSilent, State.actDue_running s _ _ _ hr hdue]; rfl
  obtain ⟨hlt, hbit, hdown⟩ := s.dev.stageSilent_law (b := b) (s.reach ((s.dev.blink b).lastMsg + superframes 16)).clock.dtime
  rw [Dev.shutWatch_none (noShutter_congr hlt hshut)] at hexec
  exact ⟨_, hexec, rfl, rfl, rfl, hdown ⟨hvbOn, by rw [hready]; decide⟩ _ rfl, hbit⟩

/-! ### BL_RETRAIN, BL_DISARM and BL_PHASE_TRIM -/

theorem exec_blRetrain (hr : s.running = true) :
    exec (.blRetrain b) s = .next (s.withDev ((s.dev.blRetrain s.clock.dtime b).shutWatch s.clock.dtime)) := by
  rw [exec, execBlRetrain, State.act_running _ _ hr]; rfl

theorem blRetrain_stands (hr : s.running = true) (hon : ¬ s.dev.blOn b = true) (hshut : noShutter s.dev) : exec (.blRetrain b) s = .next s := by
  rw [exec_blRetrain hr, Dev.blRetrain, if_pos (Bool.eq_false_iff.mpr hon), Dev.shutWatch_none hshut]
  exact next_withDev_self rfl

/-- What a retraining begins with: a READY bank has faulted (R267). -/
def Dev.retrainFaulted (d : Dev) (t b : Nat) : Dev := if d.bankReady b then d.bankFault t b 1 else d

theorem Dev.retrainFaulted_only (d : Dev) (t : Nat) : d.bankOnly b (d.retrainFaulted t b) := by
  unfold Dev.retrainFaulted
  split
  · exact d.bankOnly_bankFault t 1
  · exact d.bankOnly_refl b

theorem Dev.blRetrain_eq {d : Dev} (hon : d.blOn b = true) (t : Nat) : d.blRetrain t b =
    ((d.retrainFaulted t b).updBlink b (fun x => { x with cmds := [] })).trainStart b (d.nextBoundary t b + superframes 1) := by
  have hboundary : (d.retrainFaulted t b).nextBoundary t b = d.nextBoundary t b := by
    rw [Dev.nextBoundary, (d.retrainFaulted_only (b := b) t).frame]; rfl
  rw [← hboundary]
  exact if_neg (by simp [hon])

theorem Dev.blRetrain_law {d : Dev} (hon : d.blOn b = true) (t : Nat) :
    (d.blRetrain t b).lt = d.lt ∧ ((d.blRetrain t b).blink b).state = 1 ∧ ((d.blRetrain t b).blink b).since = d.nextBoundary t b + superframes 1 ∧
      ((d.blRetrain t b).blink b).cmds = [] ∧ ((d.blRetrain t b).blink b).desc = none ∧ ((d.blRetrain t b).bank b).armed = false ∧
      ((d.bank b).state = 2 → d.vbOn b = true → ∀ s : State, s.dev = d.blRetrain t b → bankDown s b) := by
  obtain ⟨hlink, hbank, -, hlt, -, hrd⟩ :=
    Dev.trainStart_law (b := b) ((d.retrainFaulted t b).updBlink b (fun x => { x with cmds := [] })) (d.nextBoundary t b + superframes 1)
  rw [← Dev.blRetrain_eq hon, Dev.blink_updBlink_same] at hlink
  rw [← Dev.blRetrain_eq hon] at hbank hlt hrd
  refine ⟨hlt.trans (d.retrainFaulted_only t).heads, by rw [hlink]; rfl, by rw [hlink]; rfl, by rw [hlink]; rfl, by rw [hlink]; rfl, by rw [hbank],
    fun hready hvbOn s hs => ?_⟩
  have hfaulted : d.retrainFaulted t b = d.bankFault t b 1 := if_pos (decide_eq_true hready)
  have hdown : bankDown (s.withDev (d.retrainFaulted t b)) b := bankDown_bankFault ⟨hvbOn, by rw [hready]; decide⟩ b.isLt t 1 hfaulted
  have harmed : ((d.retrainFaulted t b).bank b).armed = false := hdown.2.1
  refine bankDown_congr hdown ?_ ?_
  · rw [hs, hbank, State.withDev_dev, Dev.bank_congr (Dev.updBlink_vb _ _ _), ← harmed]
  · rw [hs, hrd _ (by simp only [shownReg, Reg.VB_FAULT, Reg.BL_PHASE]; omega)]; rfl

theorem blRetrain_trains (hr : s.running = true) (hshut : noShutter s.dev) (hon : s.dev.blOn b = true) :
    ∃ t, exec (.blRetrain b) s = .next t ∧ deviceOnly s t ∧ (t.dev.blink b).state = 1 ∧
      (t.dev.blink b).since = s.dev.nextBoundary s.clock.dtime b + 640 ∧ (t.dev.blink b).cmds = [] ∧ (t.dev.blink b).desc = none ∧
      (t.dev.bank b).armed = false ∧ ((s.dev.bank b).state = 2 → s.dev.vbOn b = true → bankDown t b) := by
  obtain ⟨hlt, hstate, hsince, hcmds, hdesc, harmed, hdown⟩ := Dev.blRetrain_law hon s.clock.dtime
  have hexec := exec_blRetrain (b := b) hr
  rw [Dev.shutWatch_none (noShutter_congr hlt hshut)] at hexec
  exact ⟨_, hexec, deviceOnly_withDev _ _, hstate, hsince, hcmds, hdesc, harmed, fun hready hvbOn => hdown hready hvbOn _ rfl⟩

theorem exec_blDisarm (hr : s.running = true) : exec (.blDisarm b) s = .next (s.withDev (s.dev.blDisarm b)) := by
  rw [exec, execBlDisarm, State.act_running _ _ hr]; rfl

theorem blDisarm_stands (hr : s.running = true) (h : ¬ (s.dev.blOn b = true ∧ 3 ≤ (s.dev.blink b).state ∧ (s.dev.blink b).state ≤ 6)) :
    exec (.blDisarm b) s = .next s := by
  rw [exec_blDisarm hr, Dev.blDisarm, if_neg fun ⟨hon, hsends⟩ => h ⟨hon, (BankLink.sends_iff _).mp hsends⟩]
  exact next_withDev_self rfl

theorem blDisarm_sends (hr : s.running = true) (hon : s.dev.blOn b = true) (hsends : 3 ≤ (s.dev.blink b).state ∧ (s.dev.blink b).state ≤ 6) :
    ∃ t, exec (.blDisarm b) s = .next t ∧ deviceOnly s t ∧ t.dev.regs = s.dev.regs ∧ t.dev.vb = s.dev.vb ∧
      t.dev.blink b = { s.dev.blink b with
        seq := ((s.dev.blink b).seq + 1) % 16
        cmds := (s.dev.blink b).cmds ++ [⟨2, ((s.dev.blink b).seq + 1) % 16, List.replicate 8 0, none⟩] } := by
  refine ⟨_, exec_blDisarm hr, deviceOnly_withDev _ _, ?_⟩
  rw [Dev.blDisarm, if_pos ⟨hon, (BankLink.sends_iff _).mpr hsends⟩]
  exact ⟨rfl, rfl, Dev.blink_setBlink_same _ _ _⟩

theorem exec_blPhaseTrim (hr : s.running = true) (lat : Fin 8) : exec (.blPhaseTrim b lat) s = .next (s.withDev (s.dev.phaseTrim b lat)) := by
  rw [exec, execBlPhaseTrim, State.act_running _ _ hr]; rfl

theorem blPhaseTrim_trims (hr : s.running = true) (lat : Fin 8) {p : Nat × Nat} (hnext : (s.dev.blink b).trimNext = some p) (hlo : 2 ≤ lat.val)
    (hhi : lat.val ≤ 6) (hpos : (s.dev.blink b).lane0.pos = some 15) :
    ∃ t, exec (.blPhaseTrim b lat) s = .next t ∧ deviceOnly s t ∧ t.dev.vb = s.dev.vb ∧
      t.dev.blink b = { s.dev.blink b with phase0 := p.1, phase1 := p.2, lat := lat, trimNext := none } := by
  have hin : ¬ (lat.val < 2 ∨ 6 < lat.val ∨ (s.dev.blink b).lane0.pos ≠ some 15) := by
    rintro (hlow | hhigh | hne)
    exacts [Nat.not_lt.mpr hlo hlow, Nat.not_lt.mpr hhi hhigh, hne hpos]
  refine ⟨_, exec_blPhaseTrim hr lat, deviceOnly_withDev _ _, ?_⟩
  simp only [Dev.phaseTrim, hnext, if_neg hin, State.withDev_dev]
  exact ⟨(Dev.shows_showLink _).banks, (Dev.blink_congr (Dev.shows_showLink _).links b).trans (Dev.blink_setBlink_same _ _ _)⟩

theorem blPhaseTrim_stands (hr : s.running = true) (lat : Fin 8)
    (h : (s.dev.blink b).trimNext = none ∨ lat.val < 2 ∨ 6 < lat.val ∨ (s.dev.blink b).lane0.pos ≠ some 15) : exec (.blPhaseTrim b lat) s = .next s := by
  rw [exec_blPhaseTrim hr]
  refine next_withDev_self ?_
  unfold Dev.phaseTrim; dsimp only
  split
  · next p hnext => exact if_pos (h.resolve_left (by simp [hnext]))
  · rfl

end Sys2Proof.Machine
end

section
/-! ## The banks, their pairs, the spare and the links together (R213 to R218, R255 to R271) -/

namespace Sys2Proof.Machine
open Sys2Proof.Claims

/-- Settles O29: each command and each row acts as its law above says. -/
theorem banksPairsSpareAndLinks : Obligations.BanksPairsSpareAndLinks := by
  intro s b hr
  refine ⟨fun cause => ⟨fun hshut hno => ?_, fun hshut hfaults => ?_⟩, vbClearFault_stands hr, vbClearFault_clears hr,
    fun p => ⟨vbPairClose_refuses hr p, vbPairRelease_refuses hr p, vbPairClose_closes hr p, vbPairRelease_releases hr p⟩,
    ⟨fun hno => ?_, fun htakes => ?_⟩, ⟨spareHandover_stands hr, spareHandover_gives hr⟩, spareReturn_stands hr, spareReturn_returns hr,
    spareLoadDone_stands hr, fun hshut hstate hready hbank => ⟨spareLoadDone_loads hr hshut hstate hready hbank,
      spareLoadDone_failed hr hshut hstate hready hbank⟩,
    blTraining_ends hr, fun _ => blTrainingRetry_starts hr,
    fun mark0 mark1 data0 data1 => ⟨blUplinkFrame_stands hr mark0 mark1 data0 data1, fun hshut hon => ?_⟩,
    fun j v0 v1 hon hswap hinbox _ _ hshut hthreads hstart hfires hpairs =>
      laceFrame_streams hr hon hswap hinbox hshut (Bank.idle_reset hthreads hstart hfires hpairs),
    blStatusMessage_none hr, blDescMessage_none hr, fun dt msg rest hmsgs => ⟨blStatusMessage_down hr dt hmsgs, blStatusMessage_up hr dt hmsgs,
      blDescMessage_ignored hr dt hmsgs, fun p0 p1 htype hlength hstate hpage h0 h1 hp0 hp1 =>
        blDescMessage_last hr dt hmsgs htype hlength hstate hpage h0 h1 hp0 hp1⟩,
    blSlowMessageDiscard_stands hr, fun rest => blSlowMessageDiscard_counts hr, fun c rest u => blCommandAckTimeout_repeats hr,
    blStageSilent_faults hr, blRetrain_trains hr, blDisarm_sends hr, fun hno => blDisarm_stands hr hno, blCommandAckTimeout_stands,
    blRetrain_stands hr, fun lat => ⟨fun p => blPhaseTrim_trims hr lat, blPhaseTrim_stands hr lat⟩⟩
  · exact vbBankFault_stands hr cause hshut ((Dev.faultsBy_iff _ _ _).not.mpr hno)
  · exact vbBankFault_faults hr cause hshut ((Dev.faultsBy_iff _ _ _).mpr hfaults)
  · exact spareTakeover_stands hr ((Dev.spareCan_iff _ _).not.mpr hno)
  · exact spareTakeover_takes hr ((Dev.spareCan_iff _ _).mpr htakes)
  · obtain ⟨t, hexec, honly, hbad⟩ := blUplinkFrame_takes hr mark0 mark1 data0 data1 hshut hon
    refine ⟨t, hexec, honly, fun pos w hacquire hpos hw hodd hline => ?_, hbad⟩
    exact hline ▸ BankLink.got0_encodeFrame (s.dev.blink b) (fun h => hacquire (decide_eq_true h)) hpos hw hodd

end Sys2Proof.Machine
end

section
/-! ## Lace threads: what is read after a change, and what the gates leave (R225, R232) -/

namespace Sys2Proof.Machine
open Sys2Proof.Claims

variable (d : Dev) {b : Nat}

theorem Dev.thread_congr {d e : Dev} (h : (e.bank b).threads = (d.bank b).threads) (th : Nat) : e.thread b th = d.thread b th :=
  congrArg (SMap.get LaceThread.reset · th) h

theorem Dev.threads_setThread (th : Nat) (x : LaceThread) :
    ((d.setThread b th x).bank b).threads = SMap.set LaceThread.reset (d.bank b).threads th x := by
  rw [Dev.setThread, Dev.bank_updBank_same]; rfl

@[simp] theorem Dev.thread_setThread_same (th : Nat) (x : LaceThread) : (d.setThread b th x).thread b th = x := by
  rw [Dev.thread, Bank.thread, Dev.threads_setThread, SMap.get_set_same]
theorem Dev.thread_setThread_other {th o : Nat} (x : LaceThread) (h : o ≠ th) : (d.setThread b th x).thread b o = d.thread b o := by
  rw [Dev.thread, Bank.thread, Dev.threads_setThread, SMap.get_set_other _ _ _ h]; rfl
@[simp] theorem Dev.chan_setThread (th c : Nat) (x : LaceThread) : (d.setThread b th x).chan b c = d.chan b c :=
  Dev.chan_updBank d b (f := fun y => y.setThread th x) (fun _ => rfl) c
@[simp] theorem Dev.thread_setChan (c th : Nat) (k : Chan) : (d.setChan b c k).thread b th = d.thread b th :=
  Dev.thread_congr (by rw [Dev.bank_setChan_same]; rfl) th
@[simp] theorem Dev.rd_setThread (th : Nat) (x : LaceThread) (a : Nat) : (d.setThread b th x).rd a = d.rd a := rfl
@[simp] theorem Dev.bit_setThread (th : Nat) (x : LaceThread) (a i : Nat) : (d.setThread b th x).bit a i = d.bit a i := rfl
@[simp] theorem Dev.setThread_records (th : Nat) (x : LaceThread) : ((d.setThread b th x).bank b).records = (d.bank b).records := by
  rw [Dev.setThread, Dev.bank_updBank_same]; rfl

@[simp] theorem Dev.chan_bump (a c : Nat) : (d.bump a).chan b c = d.chan b c := Dev.chan_congr (by rw [Dev.bank_congr (Dev.bump_vb d a)]) c
@[simp] theorem Dev.chan_putRecord (ws : List Nat) (c : Nat) : (d.putRecord b ws).chan b c = d.chan b c :=
  Dev.chan_updBank d b (fun x => by split <;> rfl) c

theorem Dev.putRecord_threads (ws : List Nat) : ((d.putRecord b ws).bank b).threads = (d.bank b).threads := by
  rw [Dev.putRecord, Dev.bank_updBank_same]; split <;> rfl

/-- A record joins a queue that has room (R24). -/
theorem Dev.putRecord_length (ws : List Nat) (h : (d.bank b).records.length < 1024) :
    ((d.putRecord b ws).bank b).records.length = (d.bank b).records.length + 1 := by
  rw [Dev.putRecord, Dev.bank_updBank_same, if_pos h]; simp

/-- A half of a register reads as it was put. -/
theorem Dev.fld_putFld_half (a v : Nat) {i : Nat} (hi : i < 2) :
    (d.putFld a (16 * i + 15) (16 * i) v).fld a (16 * i + 15) (16 * i) = v % 65536 := by
  have hlt := d.rdN_lt a
  rw [Dev.fld, Dev.putFld, Dev.rdN_wrN_same]
  unfold nfld
  obtain rfl | rfl : i = 0 ∨ i = 1 := by omega
  · norm_num; omega
  · norm_num; omega

/-- Forming the gates again changes of the device only the bank's gate word and its quench marks (R225). -/
theorem Dev.regate_eq (t : Nat) : d.regate t b = d ∨
    ∃ g q u, d.regate t b = d.setBank b { d.bank b with gates := g, quench := q, quenchDue := u } := by
  unfold Dev.regate Dev.laceGates; dsimp only
  split_ifs
  · exact .inr ⟨_, _, _, rfl⟩
  · exact .inr ⟨_, _, _, rfl⟩
  · exact .inr ⟨_, _, _, rfl⟩
  · exact .inr ⟨_, _, _, rfl⟩
  · exact .inl rfl

theorem Dev.regate_keeps (t : Nat) : (d.regate t b).regs = d.regs ∧ (d.regate t b).flt = d.flt ∧
    (∀ c, (d.regate t b).chan b c = d.chan b c) ∧ (∀ th, (d.regate t b).thread b th = d.thread b th) ∧
    ((d.regate t b).bank b).records = (d.bank b).records := by
  obtain h | ⟨g, q, u, h⟩ := d.regate_eq (b := b) t <;> rw [h]
  · exact ⟨rfl, rfl, fun _ => rfl, fun _ => rfl, rfl⟩
  · have hbank := d.bank_setBank_same b { d.bank b with gates := g, quench := q, quenchDue := u }
    exact ⟨rfl, rfl, Dev.chan_congr (by rw [hbank]), Dev.thread_congr (by rw [hbank]), by rw [hbank]⟩

end Sys2Proof.Machine
end

section
/-! ## Program errors, and the phases and fires that they end (R229, R236, R249, R250) -/

namespace Sys2Proof.Machine
open Sys2Proof.Claims

variable {b c : Nat}

/-! ### What work on a channel leaves of the threads and of the error shown -/

/-- From d to e the threads and the fire records of bank b stand, and what shows its last program error: LC_ERRPC, and the flag if it is set. -/
structure Dev.steady (b : Nat) (d e : Dev) : Prop where
  threads : (e.bank b).threads = (d.bank b).threads
  records : (e.bank b).records = (d.bank b).records
  errpc : e.rd (Reg.LC_ERRPC b) = d.rd (Reg.LC_ERRPC b)
  flag : d.bit (Reg.LC_FAULT b) 4 = true → e.bit (Reg.LC_FAULT b) 4 = true

theorem Dev.steady_refl (b : Nat) (d : Dev) : d.steady b d := ⟨rfl, rfl, rfl, id⟩

theorem Dev.steady.trans {d e f : Dev} (h : d.steady b e) (k : e.steady b f) : d.steady b f :=
  ⟨k.threads.trans h.threads, k.records.trans h.records, k.errpc.trans h.errpc, k.flag ∘ h.flag⟩

theorem Dev.steady_ite {p : Prop} {_ : Decidable p} {d e f : Dev} (h : d.steady b e) (k : d.steady b f) : d.steady b (if p then e else f) := by
  split
  exacts [h, k]

/-- A register whose change does not change the error shown. -/
def quietReg (b a : Nat) : Prop := a ≠ Reg.LC_ERRPC b ∧ a ≠ Reg.LC_FAULT b

theorem Dev.steady_ofReg {d e : Dev} {a : Nat} (ha : quietReg b a) (hvb : e.vb = d.vb) (hrd : ∀ x, x ≠ a → e.rd x = d.rd x) : d.steady b e := by
  obtain ⟨herrpc, hfault⟩ := ha
  have hbank := Dev.bank_congr hvb b
  exact ⟨by rw [hbank], by rw [hbank], hrd _ herrpc.symm, fun h => (Dev.bit_congr (hrd _ hfault.symm) 4).trans h⟩

theorem Dev.steady_ofBank {d e : Dev} (hthreads : (e.bank b).threads = (d.bank b).threads) (hrecords : (e.bank b).records = (d.bank b).records)
    (hregs : e.regs = d.regs) : d.steady b e :=
  ⟨hthreads, hrecords, Dev.rd_congr hregs _, fun h => (Dev.bit_congr (Dev.rd_congr hregs _) 4).trans h⟩

theorem quietReg_lost (b : Nat) : quietReg b Reg.SV_LOG_LOST := by
  simp only [quietReg, Reg.SV_LOG_LOST, Reg.LC_ERRPC, Reg.LC_FAULT]; omega
theorem quietReg_rest (b c : Nat) : quietReg b (Reg.LC_CHc_REST b c) := by
  simp only [quietReg, Reg.LC_CHc_REST, Reg.LC_ERRPC, Reg.LC_FAULT]; omega
theorem quietReg_od (b c : Nat) : quietReg b (Reg.VB_CHc_OD b c) := by
  simp only [quietReg, Reg.VB_CHc_OD, Reg.LC_ERRPC, Reg.LC_FAULT]; omega
theorem quietReg_rMis (b : Nat) : quietReg b (Reg.LC_CNT_RMIS b) := by
  simp only [quietReg, Reg.LC_CNT_RMIS, Reg.LC_ERRPC, Reg.LC_FAULT]; omega
theorem quietReg_noDip (b : Nat) : quietReg b (Reg.LC_CNT_NODIP b) := by
  simp only [quietReg, Reg.LC_CNT_NODIP, Reg.LC_ERRPC, Reg.LC_FAULT]; omega
theorem quietReg_odRej (b : Nat) : quietReg b (Reg.LC_CNT_ODREJ b) := by
  simp only [quietReg, Reg.LC_CNT_ODREJ, Reg.LC_ERRPC, Reg.LC_FAULT]; omega
theorem quietReg_cut (b : Nat) : quietReg b (Reg.LC_CNT_CUT b) := by
  simp only [quietReg, Reg.LC_CNT_CUT, Reg.LC_ERRPC, Reg.LC_FAULT]; omega
theorem quietReg_clamp (b : Nat) : quietReg b (Reg.LC_CNT_CLAMP b) := by
  simp only [quietReg, Reg.LC_CNT_CLAMP, Reg.LC_ERRPC, Reg.LC_FAULT]; omega

variable (d : Dev)

theorem Dev.steady_wrN {a : Nat} (ha : quietReg b a) (v : Nat) : d.steady b (d.wrN a v) :=
  Dev.steady_ofReg ha rfl fun _ hx => Dev.rd_wrN_other d v hx
theorem Dev.steady_bump {a : Nat} (ha : quietReg b a) : d.steady b (d.bump a) :=
  Dev.steady_ofReg ha (Dev.bump_vb d a) fun _ hx => Dev.rd_bump_other d hx
theorem Dev.steady_fault (t u code x : Nat) : d.steady b (d.fault t u code x) :=
  Dev.steady_ofReg (quietReg_lost b) (Dev.fault_vb ..) fun _ hx => Dev.rd_fault_other d t u code x hx
theorem Dev.steady_setChan (k : Chan) : d.steady b (d.setChan b c k) :=
  Dev.steady_ofBank (by rw [Dev.bank_setChan_same]; rfl) (by rw [Dev.bank_setChan_same]; rfl) rfl

/-- Setting a flag of LC_FAULT clears none. -/
theorem Dev.steady_flag (i : Nat) : d.steady b (d.flag (Reg.LC_FAULT b) i) := by
  refine ⟨rfl, rfl, Dev.rd_flag_other d i (by simp only [Reg.LC_ERRPC, Reg.LC_FAULT]; omega), fun h => ?_⟩
  rw [Dev.flag, Dev.setBits, Dev.bit_wrN_same d _ _ (by decide), Nat.testBit_or]
  exact Bool.or_eq_true_iff.mpr (.inl h)

theorem Dev.steady_rowLimit (key : Nat) : d.steady b (d.rowLimit b key).2 := by
  unfold Dev.rowLimit; dsimp only
  split_ifs
  · exact Dev.steady_ofBank (by rw [Dev.bank_setBank_same]) (by rw [Dev.bank_setBank_same]) rfl
  · exact Dev.steady_refl b d

theorem Dev.steady_lcLimited (t el code x : Nat) : d.steady b (d.lcLimited t b el code x) := by
  have hflag := (d.steady_rowLimit (b := b) (32 * code + el)).trans (Dev.steady_flag _ (code - 0x10))
  unfold Dev.lcLimited; dsimp only
  exact Dev.steady_ite (hflag.trans (Dev.steady_fault ..)) hflag

theorem Dev.bit_lcLimited (t el code x : Nat) (h : code - 0x10 < 32) : (d.lcLimited t b el code x).bit (Reg.LC_FAULT b) (code - 0x10) = true := by
  have hflag := Dev.bit_flag (d.rowLimit b (32 * code + el)).2 (Reg.LC_FAULT b) h
  unfold Dev.lcLimited; dsimp only
  split
  · rw [Dev.bit_congr (Dev.rd_fault_other _ _ _ _ _ (quietReg_lost b).2.symm)]; exact hflag
  · exact hflag

theorem Dev.chan_lcLimited (t el code x i : Nat) : (d.lcLimited t b el code x).chan b i = d.chan b i :=
  (d.chanWork_lcLimited (c := i + 1) t el code x).chans i (by omega)

theorem Dev.steady_holdEnds (t : Nat) : d.steady b (d.holdEnds t b c) := by
  have hest : ∀ v k, d.steady b ((d.putFld (Reg.LC_CHc_REST b c) 23 0 v).setChan b c k) := fun v k =>
    (d.steady_wrN (quietReg_rest b c) _).trans (Dev.steady_setChan _ k)
  obtain h | ⟨v, q, h | ⟨x, h⟩⟩ := d.holdEnds_cases t b c <;> rw [h]
  · exact d.steady_refl b
  · exact hest v _
  · exact (hest v _).trans ((Dev.steady_lcLimited _ _ _ _ _).trans (Dev.steady_bump _ (quietReg_rMis b)))

/-- The end of BOOST changes of the device only the bank's token (R207). -/
theorem Dev.boostEnds_eq (b c e : Nat) : ∃ x, d.boostEnds b c e = d ∨ d.boostEnds b c e = d.setBank b { d.bank b with token := x } := by
  unfold Dev.boostEnds; dsimp only
  split
  · split
    · exact ⟨_, .inr rfl⟩
    · exact ⟨none, .inl rfl⟩
  · exact ⟨none, .inl rfl⟩

theorem Dev.steady_boostEnds (e : Nat) : d.steady b (d.boostEnds b c e) := by
  obtain ⟨x, h | h⟩ := d.boostEnds_eq b c e <;> rw [h]
  · exact d.steady_refl b
  · exact Dev.steady_ofBank (by rw [Dev.bank_setBank_same]) (by rw [Dev.bank_setBank_same]) rfl

theorem Dev.chan_boostEnds (e i : Nat) : (d.boostEnds b c e).chan b i = d.chan b i := by
  obtain ⟨x, h | h⟩ := d.boostEnds_eq b c e <;> rw [h]
  exact Dev.chan_congr (by rw [Dev.bank_setBank_same]) i

/-! ### The error itself (R249, R250) -/

theorem Dev.laceError_eq (t th address kind : Nat) : d.laceError t b th address kind =
    (d.wrN (Reg.LC_ERRPC b) (address + 4096 * kind + 65536 * th)).lcLimited t b (if th < 16 then th else 31) 0x0014 (address + 4096 * kind) := rfl

/-- A program error is shown, and leaves the threads, the channels and the fire records. -/
theorem Dev.laceError_law (t th address kind : Nat) :
    ((d.laceError t b th address kind).bank b).threads = (d.bank b).threads ∧
      ((d.laceError t b th address kind).bank b).records = (d.bank b).records ∧
      (∀ i, (d.laceError t b th address kind).chan b i = d.chan b i) ∧
      (d.laceError t b th address kind).rd (Reg.LC_ERRPC b) = BitVec.ofNat 32 (address + 4096 * kind + 65536 * th) ∧
      (d.laceError t b th address kind).bit (Reg.LC_FAULT b) 4 = true := by
  have hsteady := (d.wrN (Reg.LC_ERRPC b) (address + 4096 * kind + 65536 * th)).steady_lcLimited (b := b) t (if th < 16 then th else 31) 0x0014
    (address + 4096 * kind)
  rw [Dev.laceError_eq]
  exact ⟨hsteady.threads, hsteady.records, Dev.chan_lcLimited _ _ _ _ _, hsteady.errpc.trans (Dev.rd_wrN_same _ _ _),
    Dev.bit_lcLimited _ _ _ _ _ (by decide)⟩

/-! ### Phases (R229) -/

/-- The device as channel c leaves its phase: a HOLD and the boost phase of the token holder have ended. -/
def Dev.phaseLeft (d : Dev) (t b c kind next : Nat) : Dev :=
  let d := if (d.chan b c).kind = 4 then d.holdEnds t b c else d
  if (d.chan b c).kind = 1 ∧ kind ≠ 1 then d.boostEnds b c (40 * next) else d

theorem Dev.steady_phaseLeft (t kind next : Nat) : d.steady b (d.phaseLeft t b c kind next) :=
  (Dev.steady_ite (d.steady_holdEnds t) (d.steady_refl b)).trans (Dev.steady_ite (Dev.steady_boostEnds _ _) (Dev.steady_refl b _))

theorem Dev.phaseLeft_chan (t kind next : Nat) : ∃ q, (d.phaseLeft t b c kind next).chan b c = { d.chan b c with coil := q } := by
  have hheld : ∃ q, (if (d.chan b c).kind = 4 then d.holdEnds t b c else d).chan b c = { d.chan b c with coil := q } := by
    split
    exacts [d.holdEnds_chan t, ⟨_, rfl⟩]
  obtain ⟨q, hq⟩ := hheld
  refine ⟨q, Eq.trans ?_ hq⟩
  unfold Dev.phaseLeft; dsimp only
  generalize (if (d.chan b c).kind = 4 then d.holdEnds t b c else d) = e
  split
  exacts [Dev.chan_boostEnds _ _ _, rfl]

/-- The channel record at the entry of a phase (R229). -/
def Chan.entered (k : Chan) (kind target band : Nat) (watch : Bool) (next : Nat) : Chan := { k with
  kind := kind
  target := target
  band := band
  watch := watch
  quenchAt := if kind = 5 ∧ k.kind ≠ 5 then some next else k.quenchAt
  coil := if kind = 4 then { k.coil with age := 0, n := 0, onCount := 0, sumV := 0, sumI := 0 } else k.coil }

theorem Chan.entered_coil (k : Chan) (q : Coil) (kind target band : Nat) (watch : Bool) (next : Nat) :
    ∃ p, ({ k with coil := q } : Chan).entered kind target band watch next = { k.entered kind target band watch next with coil := p } := ⟨_, rfl⟩

theorem Dev.enterPhase_eq (t b c kind target band : Nat) (watch : Bool) (next : Nat) : d.enterPhase t b c kind target band watch next =
    (d.phaseLeft t b c kind next).setChan b c (((d.phaseLeft t b c kind next).chan b c).entered kind target band watch next) := by
  unfold Dev.enterPhase Dev.phaseLeft Chan.entered; dsimp only

theorem Dev.steady_enterPhase (t kind target band : Nat) (watch : Bool) (next : Nat) :
    d.steady b (d.enterPhase t b c kind target band watch next) :=
  d.enterPhase_eq t b c kind target band watch next ▸ (d.steady_phaseLeft t kind next).trans (Dev.steady_setChan _ _)

/-- A channel that enters a phase has its settings; of the rest only its coil may have changed. -/
theorem Dev.enterPhase_chan (t kind target band : Nat) (watch : Bool) (next : Nat) : ∃ q,
    (d.enterPhase t b c kind target band watch next).chan b c = { (d.chan b c).entered kind target band watch next with coil := q } := by
  obtain ⟨q, hq⟩ := d.phaseLeft_chan (b := b) (c := c) t kind next
  rw [Dev.enterPhase_eq, Dev.chan_setChan_same, hq]
  exact Chan.entered_coil _ q kind target band watch next

/-- The device with thread th of bank b stopped. -/
def Dev.stopThread (d : Dev) (b th : Nat) : Dev := d.setThread b th { d.thread b th with run := .stopped, carried := false }

/-- The bank's engine stops the channel's thread; nothing else of the bank's threads and records changes, and the channel quenches. -/
theorem Dev.steady_quenchNow (t : Nat) : (d.stopThread b c).steady b (d.quenchNow t b c) := by
  have hentered := d.steady_enterPhase (b := b) (c := c) t 5 0 0 false (t / 40 + 1)
  refine ⟨?_, ?_, ?_, fun h => ?_⟩
  · rw [Dev.quenchNow, Dev.stopThread, Dev.threads_setThread, Dev.threads_setThread, Dev.thread_congr hentered.threads, hentered.threads]
  · rw [Dev.quenchNow, Dev.stopThread, Dev.setThread_records, Dev.setThread_records, hentered.records]
  · rw [Dev.quenchNow, Dev.stopThread, Dev.rd_setThread, Dev.rd_setThread, hentered.errpc]
  · rw [Dev.stopThread, Dev.bit_setThread] at h
    rw [Dev.quenchNow, Dev.bit_setThread]
    exact hentered.flag h

theorem Dev.quenchNow_chan (t : Nat) : ∃ q,
    (d.quenchNow t b c).chan b c = { (d.chan b c).entered 5 0 0 false (t / 40 + 1) with coil := q } := by
  rw [Dev.quenchNow, Dev.chan_setThread]
  exact d.enterPhase_chan t 5 0 0 false (t / 40 + 1)

/-! ### The end of a fire (R237 to R240) -/

/-- The window of a made fire, after its record: one without a dip is counted, or noted while it is open (R237). `k` is the channel as the fire
ended. -/
def Dev.windowNoted (d : Dev) (b c : Nat) (k : Chan) : Dev :=
  let later := k.dip.open_ || (k.watch && k.active)
  let d := if k.watched = true ∧ k.dip.found.isSome = false ∧ later = false then d.bump (Reg.LC_CNT_NODIP b) else d
  if later = true ∧ k.dip.found.isSome = false then d.setChan b c { d.chan b c with noDip := true } else d

/-- The channel of a made fire that has ended: it has no fire, and tracks its delay, `meas` as measured (R239). -/
def Dev.delayTracked (d : Dev) (b c : Nat) (k : Chan) (meas : Nat) : Dev :=
  let u := trackDelay (d.chanOd b c) meas (d.fld (Reg.LC_CFG b) 2 0) k.odRej
  if k.dip.found.isSome = true ∧ d.bit (Reg.LC_CHc_CFG b c) 6 = true then
    let d := (d.wrN (Reg.VB_CHc_OD b c) u.1).setChan b c { d.chan b c with run := none, odRej := u.2.1 }
    if u.2.2 then d.bump (Reg.LC_CNT_ODREJ b) else d
  else d.setChan b c { d.chan b c with run := none }

/-- What the end of a fire does: nothing where there is none; a command-form fire leaves no record, and one that was made does. -/
theorem Dev.closeRun_cases (b c cause : Nat) :
    (d.chan b c).run = none ∧ d.closeRun b c cause = d ∨
      (d.chan b c).command = true ∧ d.closeRun b c cause = d.setChan b c { d.chan b c with run := none } ∨
      (d.chan b c).run.isSome = true ∧ (d.chan b c).command = false ∧ ∃ ws meas,
        d.closeRun b c cause = ((d.putRecord b ws).windowNoted b c (d.chan b c)).delayTracked b c (d.chan b c) meas := by
  unfold Dev.closeRun; dsimp only
  split
  · next hrun => exact .inl ⟨hrun, rfl⟩
  · next r hrun =>
    split
    · next hcommand => exact .inr (.inl ⟨hcommand, rfl⟩)
    · next hcommand =>
      exact .inr (.inr ⟨by rw [show (d.chan b c).run = some r from hrun]; rfl, Bool.eq_false_iff.mpr hcommand, _, _, rfl⟩)

theorem Dev.steady_windowNoted (k : Chan) : d.steady b (d.windowNoted b c k) :=
  (Dev.steady_ite (d.steady_bump (quietReg_noDip b)) (d.steady_refl b)).trans (Dev.steady_ite (Dev.steady_setChan _ _) (Dev.steady_refl b _))

theorem Dev.windowNoted_chan (k : Chan) : ∃ nd, (d.windowNoted b c k).chan b c = { d.chan b c with noDip := nd } := by
  have hcounted : ∀ (p : Prop) [Decidable p], (if p then d.bump (Reg.LC_CNT_NODIP b) else d).chan b c = d.chan b c := fun p _ => by
    split
    exacts [d.chan_bump _ c, rfl]
  unfold Dev.windowNoted; dsimp only
  split
  · exact ⟨true, by rw [Dev.chan_setChan_same, hcounted]⟩
  · exact ⟨(d.chan b c).noDip, hcounted _⟩

theorem Dev.steady_delayTracked (k : Chan) (meas : Nat) : d.steady b (d.delayTracked b c k meas) := by
  have hod := fun (v : Nat) (k : Chan) => (d.steady_wrN (quietReg_od b c) v).trans (Dev.steady_setChan (c := c) _ k)
  exact Dev.steady_ite (Dev.steady_ite ((hod _ _).trans (Dev.steady_bump _ (quietReg_odRej b))) (hod _ _)) (d.steady_setChan _)

theorem Dev.delayTracked_chan (k : Chan) (meas : Nat) :
    ∃ oj, (d.delayTracked b c k meas).chan b c = { d.chan b c with run := none, odRej := oj } := by
  unfold Dev.delayTracked; dsimp only
  split_ifs
  · exact ⟨_, (Dev.chan_bump _ _ _).trans (Dev.chan_setChan_same _ _ _ _)⟩
  · exact ⟨_, Dev.chan_setChan_same _ _ _ _⟩
  · exact ⟨_, Dev.chan_setChan_same _ _ _ _⟩

/-- What the end of a fire leaves: the threads stand, and the error shown; a fire that was made joins the records. -/
theorem Dev.closeRun_law (cause : Nat) :
    ((d.closeRun b c cause).bank b).threads = (d.bank b).threads ∧
      (d.closeRun b c cause).rd (Reg.LC_ERRPC b) = d.rd (Reg.LC_ERRPC b) ∧
      (d.bit (Reg.LC_FAULT b) 4 = true → (d.closeRun b c cause).bit (Reg.LC_FAULT b) 4 = true) ∧
      ((d.chan b c).run.isSome = true → (d.chan b c).command = false → (d.bank b).records.length < 1024 →
        ((d.closeRun b c cause).bank b).records.length = (d.bank b).records.length + 1) := by
  obtain ⟨hrun, h⟩ | ⟨hcommand, h⟩ | ⟨hrun, hcommand, ws, meas, h⟩ := d.closeRun_cases b c cause <;> rw [h]
  · exact ⟨rfl, rfl, id, fun hsome => absurd hsome (by simp [hrun])⟩
  · have hset := d.steady_setChan (b := b) (c := c) { d.chan b c with run := none }
    exact ⟨hset.threads, hset.errpc, hset.flag, fun _ hmade => absurd (hmade.symm.trans hcommand) (by decide)⟩
  · have hended := ((d.putRecord b ws).steady_windowNoted (b := b) (c := c) (d.chan b c)).trans (Dev.steady_delayTracked _ (c := c) (d.chan b c) meas)
    exact ⟨hended.threads.trans (d.putRecord_threads ws), hended.errpc, hended.flag, fun _ _ hroom => by
      rw [hended.records, d.putRecord_length ws hroom]⟩

/-- A channel whose fire ends has none; of the rest only its mark of a late window and its count of rejected delays may have changed. -/
theorem Dev.closeRun_chan (cause : Nat) :
    ∃ nd oj, (d.closeRun b c cause).chan b c = { d.chan b c with run := none, noDip := nd, odRej := oj } := by
  obtain ⟨hrun, h⟩ | ⟨-, h⟩ | ⟨-, -, ws, meas, h⟩ := d.closeRun_cases b c cause <;> rw [h]
  · exact ⟨(d.chan b c).noDip, (d.chan b c).odRej, by rw [← hrun]⟩
  · exact ⟨_, _, Dev.chan_setChan_same _ _ _ _⟩
  · obtain ⟨nd, hnoted⟩ := (d.putRecord b ws).windowNoted_chan (b := b) (c := c) (d.chan b c)
    obtain ⟨oj, htracked⟩ := ((d.putRecord b ws).windowNoted b c (d.chan b c)).delayTracked_chan (b := b) (c := c) (d.chan b c) meas
    exact ⟨nd, oj, by rw [htracked, hnoted, Dev.chan_putRecord]⟩

/-! ### A channel put into QUENCH by its engine (R236) -/

/-- From d to e the engine of bank b has stopped thread c, put channel c into QUENCH from the boundary after t, and ended its fire. -/
structure Dev.quenched (t b c : Nat) (d e : Dev) : Prop where
  threads : (e.bank b).threads = ((d.stopThread b c).bank b).threads
  errpc : e.rd (Reg.LC_ERRPC b) = d.rd (Reg.LC_ERRPC b)
  flag : d.bit (Reg.LC_FAULT b) 4 = true → e.bit (Reg.LC_FAULT b) 4 = true
  kind : (e.chan b c).kind = 5
  run : (e.chan b c).run = none
  quenchAt : (e.chan b c).quenchAt = if (d.chan b c).kind ≠ 5 then some (t / 40 + 1) else (d.chan b c).quenchAt
  records : (d.chan b c).run.isSome = true → (d.chan b c).command = false → (d.bank b).records.length < 1024 →
    (e.bank b).records.length = (d.bank b).records.length + 1

theorem Dev.quenched_closeRun (t cause : Nat) : d.quenched t b c ((d.quenchNow t b c).closeRun b c cause) := by
  obtain ⟨hthreads, herrpc, hflag, hrecords⟩ := (d.quenchNow t b c).closeRun_law (b := b) (c := c) cause
  obtain ⟨nd, oj, hended⟩ := (d.quenchNow t b c).closeRun_chan (b := b) (c := c) cause
  obtain ⟨q, hchan⟩ := d.quenchNow_chan (b := b) (c := c) t
  have hstopped := d.steady_quenchNow (b := b) (c := c) t
  have hold : ((d.quenchNow t b c).bank b).records = (d.bank b).records := hstopped.records.trans (Dev.setThread_records ..)
  rw [hchan, hold] at hrecords
  refine ⟨hthreads.trans hstopped.threads, herrpc.trans hstopped.errpc, hflag ∘ hstopped.flag, ?_, ?_, ?_, hrecords⟩ <;> rw [hended, hchan]
  · rfl
  · exact if_congr (and_iff_right rfl) rfl rfl

/-- A fire that is cut (R236, R243). -/
theorem Dev.quenched_cutFire (t cause : Nat) : d.quenched t b c (d.cutFire t b c cause) := by
  have hclosed := d.quenched_closeRun (b := b) (c := c) t cause
  unfold Dev.cutFire; dsimp only
  split
  · have hcut := Dev.steady_bump ((d.quenchNow t b c).closeRun b c cause) (quietReg_cut b)
    exact ⟨hcut.threads.trans hclosed.threads, hcut.errpc.trans hclosed.errpc, hcut.flag ∘ hclosed.flag, by rw [Dev.chan_bump, hclosed.kind],
      by rw [Dev.chan_bump, hclosed.run], by rw [Dev.chan_bump, hclosed.quenchAt], by rw [hcut.records]; exact hclosed.records⟩
  · exact hclosed

theorem Dev.stopThread_run (th : Nat) : ((d.stopThread b th).thread b th).run = .stopped := by
  rw [Dev.stopThread, Dev.thread_setThread_same]

theorem Dev.stopThread_other {th o : Nat} (h : o ≠ th) : (d.stopThread b th).thread b o = d.thread b o := Dev.thread_setThread_other _ _ h

/-- A program error: the thread stops and the error is shown; the channel of a channel thread quenches, and its fire ends (R236). -/
theorem Dev.programError_law (t th address kind : Nat) (hth : th < 17) :
    ((d.programError t b th address kind).thread b th).run = .stopped ∧
      (∀ o, o ≠ th → (d.programError t b th address kind).thread b o = d.thread b o) ∧
      (d.programError t b th address kind).rd (Reg.LC_ERRPC b) = BitVec.ofNat 32 (address + 4096 * kind + 65536 * th) ∧
      (d.programError t b th address kind).bit (Reg.LC_FAULT b) 4 = true ∧
      (th < 16 → ((d.programError t b th address kind).chan b th).kind = 5 ∧ ((d.programError t b th address kind).chan b th).run = none) := by
  obtain ⟨hthreads, -, -, herrpc, hflag⟩ := d.laceError_law (b := b) t th address kind
  by_cases hchannel : th < 16
  · have hcut := (d.laceError t b th address kind).quenched_cutFire (b := b) (c := th) t 7
    rw [show d.programError t b th address kind = (d.laceError t b th address kind).cutFire t b th 7 from if_pos hchannel]
    refine ⟨?_, fun o ho => ?_, hcut.errpc.trans herrpc, hcut.flag hflag, fun _ => ⟨hcut.kind, hcut.run⟩⟩
    · rw [Dev.thread_congr hcut.threads, Dev.stopThread_run]
    · rw [Dev.thread_congr hcut.threads, Dev.stopThread_other _ ho, Dev.thread_congr hthreads]
  · obtain rfl : th = 16 := by omega
    rw [show d.programError t b 16 address kind = (d.laceError t b 16 address kind).stopThread b 16 from by
      unfold Dev.programError; exact if_neg hchannel]
    refine ⟨(d.laceError t b 16 address kind).stopThread_run 16, fun o ho => ?_, herrpc, hflag, fun h => absurd h hchannel⟩
    rw [Dev.stopThread_other _ ho, Dev.thread_congr hthreads]

end Sys2Proof.Machine
end

section
/-! ## One instruction of a lace thread, counted (R225, R232, R236) -/

namespace Sys2Proof.Machine
open Sys2Proof.Claims

/-! ### What the count adds -/

section
variable {d : Dev} {t b th address : Nat}

theorem Dev.laceCount_counts (hrun : (d.thread b th).run = .ready) (hsince : (d.thread b th).since < 63) :
    d.laceCount t b th address = d.setThread b th { d.thread b th with since := (d.thread b th).since + 1 } := by
  unfold Dev.laceCount; dsimp only
  rw [if_pos hrun, if_neg (by omega)]

theorem Dev.laceCount_over (hrun : (d.thread b th).run = .ready) (hsince : 63 ≤ (d.thread b th).since) :
    d.laceCount t b th address = d.programError t b th address 4 := by
  unfold Dev.laceCount; dsimp only
  rw [if_pos hrun, if_pos hsince]

theorem Dev.laceCount_none (hrun : (d.thread b th).run ≠ .ready) : d.laceCount t b th address = d := if_neg hrun

end

/-! ### An instruction as a command -/

/-- Thread th of bank b executes an instruction: it is ready, and its engine works (R225). -/
def laceRuns (s : State) (b th : Nat) : Prop :=
  s.running = true ∧ s.dev.vbOn b = true ∧ (s.dev.bank b).engineOk = true ∧ (s.dev.thread b th).run = .ready

/-- Command i is instruction op of thread th of bank b. -/
def laceCommand (i : Instr) (s : State) (b th : Nat) (op : LaceOp) : Prop := exec i s = s.act (fun now d => d.laceRow now.dtime b th op)

variable {s : State} {b th kind : Nat} {op : LaceOp} {i : Instr}

theorem laceRuns_of_ready (h : laceReady s b th) : laceRuns s b th :=
  have ⟨hr, hon, hok, hready, _⟩ := h
  ⟨hr, hon, hok, hready⟩

/-- The device as the instruction has been executed, before it is counted. -/
def State.laceDone (s : State) (b th : Nat) (op : LaceOp) : Dev := s.dev.laceDo s.clock.dtime b th op

theorem laceCommand.answer (hop : laceCommand i s b th op) (h : laceRuns s b th) : exec i s =
    .next (s.withDev (((s.laceDone b th op).laceCount s.clock.dtime b th (s.dev.thread b th).pc).regate s.clock.dtime b)) := by
  obtain ⟨hrunning, hon, hok, hready⟩ := h
  have hrow : s.dev.laceRow s.clock.dtime b th op = (s.dev.laceStep s.clock.dtime b th op).regate s.clock.dtime b := if_pos ⟨hon, hok, hready⟩
  exact hop.trans ((State.act_running _ _ hrunning).trans (congrArg (fun d => (.next (s.withDev d) : Result)) hrow))

theorem laceCommand.idle (hop : laceCommand i s b th op) (hr : s.running = true)
    (h : ¬ (s.dev.vbOn b = true ∧ (s.dev.bank b).engineOk = true ∧ (s.dev.thread b th).run = .ready)) : exec i s = .next s := by
  have hrow : s.dev.laceRow s.clock.dtime b th op = s.dev := if_neg h
  exact hop.trans ((State.act_running _ _ hr).trans (congrArg (fun d => (.next (s.withDev d) : Result)) hrow))

/-- An instruction that leaves its thread ready is counted. -/
theorem laceCommand.counted (hop : laceCommand i s b th op) (h : laceReady s b th) (hrun : ((s.laceDone b th op).thread b th).run = .ready)
    (hsince : ((s.laceDone b th op).thread b th).since = (s.dev.thread b th).since) : ∃ t, exec i s = .next t ∧ deviceOnly s t ∧
      t.dev.thread b th = { (s.laceDone b th op).thread b th with since := (s.dev.thread b th).since + 1 } ∧
      (∀ o, o ≠ th → t.dev.thread b o = (s.laceDone b th op).thread b o) ∧
      t.dev.regs = (s.laceDone b th op).regs ∧ t.dev.flt = (s.laceDone b th op).flt ∧ ∀ c, t.dev.chan b c = (s.laceDone b th op).chan b c := by
  have ⟨_, _, _, _, hfew⟩ := h
  refine ⟨_, hop.answer (laceRuns_of_ready h), deviceOnly_withDev _ _, ?_⟩
  rw [Dev.laceCount_counts hrun (hsince ▸ hfew), hsince]
  obtain ⟨hregs, hflt, hchans, hthreads, -⟩ := Dev.regate_keeps ((s.laceDone b th op).setThread b th
    { (s.laceDone b th op).thread b th with since := (s.dev.thread b th).since + 1 }) (b := b) s.clock.dtime
  exact ⟨(hthreads th).trans (Dev.thread_setThread_same _ _ _), fun o ho => (hthreads o).trans (Dev.thread_setThread_other _ _ ho), hregs, hflt,
    fun c => (hchans c).trans (Dev.chan_setThread _ _ _ _)⟩

/-- An instruction that leaves its thread ready at the next word, and the other threads as they were. -/
theorem laceCommand.moved (hop : laceCommand i s b th op) (h : laceReady s b th) {y : LaceThread}
    (hthread : (s.laceDone b th op).thread b th = { y with pc := ((s.dev.thread b th).pc + 1) % 4096 })
    (hrun : y.run = (s.dev.thread b th).run) (hsince : y.since = (s.dev.thread b th).since)
    (hothers : ∀ o, o ≠ th → (s.laceDone b th op).thread b o = s.dev.thread b o) :
    ∃ t, exec i s = .next t ∧ laceMoved s t b th y ∧ t.dev.regs = (s.laceDone b th op).regs ∧ t.dev.flt = (s.laceDone b th op).flt ∧
      ∀ c, t.dev.chan b c = (s.laceDone b th op).chan b c := by
  have ⟨_, _, _, hready, _⟩ := h
  obtain ⟨t, hexec, honly, hself, hother, hrest⟩ := hop.counted h (by rw [hthread]; exact hrun.trans hready) (by rw [hthread]; exact hsince)
  exact ⟨t, hexec, ⟨honly, by rw [hself, hthread], fun o ho => (hother o ho).trans (hothers o ho)⟩, hrest⟩

/-- An instruction that changes nothing but its thread, which goes on at the next word. -/
theorem laceCommand.moved_alone (hop : laceCommand i s b th op) (h : laceReady s b th) {y : LaceThread}
    (hdone : s.laceDone b th op = s.dev.setThread b th { y with pc := ((s.dev.thread b th).pc + 1) % 4096 })
    (hrun : y.run = (s.dev.thread b th).run) (hsince : y.since = (s.dev.thread b th).since) :
    ∃ t, exec i s = .next t ∧ laceMoved s t b th y ∧ t.dev.regs = s.dev.regs ∧ t.dev.flt = s.dev.flt ∧ ∀ c, t.dev.chan b c = s.dev.chan b c := by
  obtain ⟨t, hexec, hmoved, hregs, hflt, hchans⟩ := hop.moved h (by rw [hdone, Dev.thread_setThread_same]) hrun hsince
    (fun o ho => by rw [hdone, Dev.thread_setThread_other _ _ ho])
  rw [hdone] at hregs hflt hchans
  exact ⟨t, hexec, hmoved, hregs, hflt, fun c => (hchans c).trans (Dev.chan_setThread _ _ _ _)⟩

/-- An instruction that leaves its thread stopped or waiting is not counted. -/
theorem laceCommand.halted (hop : laceCommand i s b th op) (h : laceRuns s b th) (hrun : ((s.laceDone b th op).thread b th).run ≠ .ready) :
    exec i s = .next (s.withDev ((s.laceDone b th op).regate s.clock.dtime b)) := by
  rw [hop.answer h, Dev.laceCount_none hrun]

/-- A program error after which the gates are formed again fails the thread. -/
theorem laceFailed_programError {e : Dev} (hth : th < 17) (hothers : ∀ o, o ≠ th → e.thread b o = s.dev.thread b o) :
    laceFailed s (s.withDev ((e.programError s.clock.dtime b th (s.dev.thread b th).pc kind).regate s.clock.dtime b)) b th kind := by
  obtain ⟨hstopped, hother, herrpc, hflag, hchan⟩ := e.programError_law (b := b) s.clock.dtime th (s.dev.thread b th).pc kind hth
  obtain ⟨hregs, -, hchans, hthreads, -⟩ :=
    (e.programError s.clock.dtime b th (s.dev.thread b th).pc kind).regate_keeps (b := b) s.clock.dtime
  refine ⟨deviceOnly_withDev _ _, ?_, fun o ho => ?_, (Dev.rd_congr hregs _).trans herrpc, (Dev.bit_congr (Dev.rd_congr hregs _) 4).trans hflag,
    fun hchannel => ?_⟩
  · exact (congrArg LaceThread.run (hthreads th)).trans hstopped
  · exact (hthreads o).trans ((hother o ho).trans (hothers o ho))
  · exact ⟨(congrArg Chan.kind (hchans th)).trans (hchan hchannel).1, fun _ => (congrArg Chan.run (hchans th)).trans (hchan hchannel).2⟩

/-- An instruction that its thread may not execute. -/
theorem laceCommand.fails (hop : laceCommand i s b th op) (h : laceRuns s b th) (hth : th < 17)
    (hdone : s.laceDone b th op = s.dev.programError s.clock.dtime b th (s.dev.thread b th).pc kind) :
    ∃ t, exec i s = .next t ∧ laceFailed s t b th kind := by
  have hstopped := (s.dev.programError_law (b := b) s.clock.dtime th (s.dev.thread b th).pc kind hth).1
  refine ⟨_, hop.halted h (by rw [hdone, hstopped]; decide), ?_⟩
  rw [hdone]
  exact laceFailed_programError hth fun _ _ => rfl

/-- A 64th instruction without a WAIT, which by itself leaves the thread ready (R236). -/
theorem laceCommand.fails_over (hop : laceCommand i s b th op) (h : laceRuns s b th) (hth : th < 17)
    (hrun : ((s.laceDone b th op).thread b th).run = .ready) (hsince : 63 ≤ ((s.laceDone b th op).thread b th).since)
    (hothers : ∀ o, o ≠ th → (s.laceDone b th op).thread b o = s.dev.thread b o) : ∃ t, exec i s = .next t ∧ laceFailed s t b th 4 := by
  refine ⟨_, hop.answer h, ?_⟩
  rw [Dev.laceCount_over hrun hsince]
  exact laceFailed_programError hth hothers

end Sys2Proof.Machine
end

section
/-! ## LDI, ALU, LDM, STP and SIG (R232, R234) -/

namespace Sys2Proof.Machine
open Sys2Proof.Claims

variable {s : State} {b th rd rs : Nat} {i : Instr}

theorem laceLdi_moves {imm : Int} (hop : laceCommand i s b th (.ldi rd imm)) (h : laceReady s b th) :
    ∃ t, exec i s = .next t ∧ laceMoved s t b th { s.dev.thread b th with a := (s.dev.thread b th).a.set rd imm } ∧ t.dev.regs = s.dev.regs ∧
      t.dev.flt = s.dev.flt ∧ ∀ c, t.dev.chan b c = s.dev.chan b c :=
  hop.moved_alone h rfl rfl rfl

/-- A 64th LDI without a WAIT. -/
theorem laceLdi_fails {imm : Int} (hop : laceCommand i s b th (.ldi rd imm)) (h : laceRuns s b th) (hth : th < 17)
    (hsince : 63 ≤ (s.dev.thread b th).since) : ∃ t, exec i s = .next t ∧ laceFailed s t b th 4 := by
  have hdone : s.laceDone b th (.ldi rd imm) = s.dev.setThread b th ((s.dev.thread b th).step.setReg rd imm) := rfl
  have ⟨_, _, _, hready⟩ := h
  refine hop.fails_over h hth ?_ ?_ fun o ho => ?_ <;> rw [hdone]
  · rw [Dev.thread_setThread_same]; exact hready
  · rw [Dev.thread_setThread_same]; exact hsince
  · exact Dev.thread_setThread_other _ _ ho

/-- An operation with the result v before saturation; a compare stores nothing. -/
theorem laceAlu_moves {op : Nat} (hop : laceCommand i s b th (.alu op rd rs)) (h : laceReady s b th) {v : Int} {store : Bool}
    (hstore : decide (op ≠ 5) = store) (hv : laceAluFn op ((s.dev.thread b th).reg rd) ((s.dev.thread b th).reg rs) = v) :
    ∃ t, exec i s = .next t ∧ laceMoved s t b th { s.dev.thread b th with
        a := if store then (s.dev.thread b th).a.set rd (clampI (-8388608) 8388607 v) else (s.dev.thread b th).a
        z := decide (clampI (-8388608) 8388607 v = 0)
        n := decide (clampI (-8388608) 8388607 v < 0) } ∧
      t.dev.regs = s.dev.regs ∧ t.dev.flt = s.dev.flt ∧ ∀ c, t.dev.chan b c = s.dev.chan b c := by
  subst hstore hv
  refine hop.moved_alone h ?_ rfl rfl
  change s.dev.laceAlu b th rd rs (laceAluFn op) (decide (op ≠ 5)) = _
  unfold Dev.laceAlu; dsimp only
  split <;> rfl

/-! ### Sources of LDM -/

/-- What the sources of LDM read for channel c, by number (R232). -/
def laceSources (d : Dev) (b c : Nat) : List (Fin 16 × Int) :=
  let k := d.chan b c
  let par := fun (i : Nat) => d.fld (if i < 2 then Reg.LC_CHc_PAR01 b c else Reg.LC_CHc_PAR23 b c) (16 * (i % 2) + 15) (16 * (i % 2))
  [(0, d.fast b c), (1, d.fine b c), (2, fastOf (d.bank b).supply), (3, fastOf (d.bank b).raised), (4, sar k.coil.tc 26),
    (5, d.rdN (Reg.VB_CHc_OD b c)), (6, d.runTrim b c), (7, k.coil.res), (8, par 0), (9, par 1), (10, par 2), (11, par 3)]

theorem laceSource_of_mem (d : Dev) (b c : Nat) : ∀ p ∈ laceSources d b c, p.1.val ≤ 11 ∧ d.laceSource b c p.1 = p.2 := by
  simp only [laceSources, List.forall_mem_cons]
  refine ⟨⟨by decide, rfl⟩, ⟨by decide, rfl⟩, ⟨by decide, rfl⟩, ⟨by decide, rfl⟩, ⟨by decide, rfl⟩, ⟨by decide, rfl⟩, ⟨by decide, rfl⟩,
    ⟨by decide, rfl⟩, ⟨by decide, rfl⟩, ⟨by decide, rfl⟩, ⟨by decide, rfl⟩, ⟨by decide, rfl⟩, fun p hp => absurd hp List.not_mem_nil⟩

section
variable {src ch c : Nat} (hc : c = if th < 16 then th else ch)
include hc

theorem laceLdm_moves (hop : laceCommand i s b th (.ldm rd src ch)) (h : laceReady s b th) (hsrc : src ≤ 11) (hchannel : c < 16) :
    ∃ t, exec i s = .next t ∧
      laceMoved s t b th { s.dev.thread b th with a := (s.dev.thread b th).a.set rd (clampI (-8388608) 8388607 (s.dev.laceSource b c src)) } ∧
      t.dev.regs = s.dev.regs := by
  have hdone : s.laceDone b th (.ldm rd src ch) =
      s.dev.setThread b th ((s.dev.thread b th).step.setReg rd (sat24 (s.dev.laceSource b c src))) := by
    change s.dev.laceLdm _ b th rd src ch = _
    unfold Dev.laceLdm; dsimp only
    rw [if_neg (Nat.not_lt.mpr hsrc), ← hc, if_pos hchannel]
  obtain ⟨t, hexec, hmoved, hregs, -⟩ := hop.moved_alone h
    (y := { s.dev.thread b th with a := (s.dev.thread b th).a.set rd (sat24 (s.dev.laceSource b c src)) }) hdone rfl rfl
  exact ⟨t, hexec, hmoved, hregs⟩

/-- LDM of a channel that no bank has reads a free value. -/
theorem laceLdm_free (hop : laceCommand i s b th (.ldm rd src ch)) (h : laceReady s b th) (hsrc : src ≤ 11) (hchannel : 16 ≤ c) :
    ∃ t v, exec i s = .next t ∧ laceMoved s t b th { s.dev.thread b th with a := (s.dev.thread b th).a.set rd v } ∧ t.dev.regs = s.dev.regs := by
  have hdone : s.laceDone b th (.ldm rd src ch) = s.dev.fresh.2.setThread b th ((s.dev.thread b th).step.setReg rd (sgn 24 s.dev.fresh.1)) := by
    change s.dev.laceLdm _ b th rd src ch = _
    unfold Dev.laceLdm; dsimp only
    rw [if_neg (Nat.not_lt.mpr hsrc), ← hc, if_neg (Nat.not_lt.mpr hchannel)]
  obtain ⟨t, hexec, hmoved, hregs, -⟩ := hop.moved h
    (y := { s.dev.thread b th with a := (s.dev.thread b th).a.set rd (sgn 24 s.dev.fresh.1) })
    (by rw [hdone, Dev.thread_setThread_same]; rfl) rfl rfl (fun o ho => by rw [hdone, Dev.thread_setThread_other _ _ ho]; rfl)
  exact ⟨t, _, hexec, hmoved, by rw [hregs, hdone]; rfl⟩

end

theorem laceLdm_fails {src ch : Nat} (hop : laceCommand i s b th (.ldm rd src ch)) (h : laceRuns s b th) (hth : th < 17) (hsrc : 11 < src) :
    ∃ t, exec i s = .next t ∧ laceFailed s t b th 1 :=
  hop.fails h hth (if_pos hsrc)

/-! ### STP and SIG -/

/-- The register that holds parameter n of a channel (R234). -/
def parReg (b c n : Nat) : Nat := if n < 2 then Reg.LC_CHc_PAR01 b c else Reg.LC_CHc_PAR23 b c

theorem laceStp_done {n ch c : Nat} (hc : c = if th < 16 then th else ch) : s.laceDone b th (.stp rs n ch) =
    if c < 16 then (s.dev.setThread b th (s.dev.thread b th).step).putFld (parReg b c n) (16 * (n % 2) + 15) (16 * (n % 2))
      (unsgn 16 ((s.dev.thread b th).reg rs))
    else s.dev.setThread b th (s.dev.thread b th).step := by
  change s.dev.laceStp b th rs n ch = _
  unfold Dev.laceStp; dsimp only
  rw [← hc]
  obtain hn | hn : n % 2 = 0 ∨ n % 2 = 1 := by omega
  · rw [hn]; rfl
  · rw [hn]; rfl

theorem laceStp_moves {n ch c : Nat} (hc : c = if th < 16 then th else ch) (hop : laceCommand i s b th (.stp rs n ch)) (h : laceReady s b th) :
    ∃ t, exec i s = .next t ∧ laceMoved s t b th (s.dev.thread b th) ∧
      (c < 16 → t.dev.fld (parReg b c n) (16 * (n % 2) + 15) (16 * (n % 2)) = unsgn 16 ((s.dev.thread b th).reg rs) ∧
        ∀ a, a ≠ parReg b c n → t.dev.rd a = s.dev.rd a) ∧
      (16 ≤ c → t.dev.regs = s.dev.regs) := by
  have hdone := laceStp_done (s := s) (b := b) (rs := rs) (n := n) hc
  have hthreads : ∀ o, (s.laceDone b th (.stp rs n ch)).thread b o = (s.dev.setThread b th (s.dev.thread b th).step).thread b o := fun o => by
    rw [hdone]; split <;> rfl
  obtain ⟨t, hexec, hmoved, hregs, -⟩ := hop.moved h (y := s.dev.thread b th) ((hthreads th).trans (Dev.thread_setThread_same _ _ _)) rfl rfl
    (fun o ho => (hthreads o).trans (Dev.thread_setThread_other _ _ ho))
  refine ⟨t, hexec, hmoved, fun hchannel => ⟨?_, fun a ha => ?_⟩, fun hchannel => ?_⟩
  · rw [Dev.fld_congr (Dev.rd_congr hregs _), hdone, if_pos hchannel, Dev.fld_putFld_half _ _ _ (Nat.mod_lt n (by decide))]
    exact Nat.mod_eq_of_lt (BitVec.isLt _)
  · rw [Dev.rd_congr hregs, hdone, if_pos hchannel, Dev.rd_putFld_other _ _ _ _ ha]
    rfl
  · rw [hregs, hdone, if_neg (Nat.not_lt.mpr hchannel)]
    rfl

theorem laceSig_moves {ch : Nat} (hop : laceCommand i s b th (.sig ch)) (h : laceReady s b th) (hbank : 16 ≤ th) :
    ∃ t, exec i s = .next t ∧ laceMoved s t b th (s.dev.thread b th) ∧ t.dev.regs = s.dev.regs ∧
      (ch < 16 → t.dev.chan b ch = { s.dev.chan b ch with signal := true }) ∧ ∀ o, o ≠ ch → t.dev.chan b o = s.dev.chan b o := by
  have hdone : s.laceDone b th (.sig ch) =
      if ch < 16 then (s.dev.setThread b th (s.dev.thread b th).step).setChan b ch { s.dev.chan b ch with signal := true }
      else s.dev.setThread b th (s.dev.thread b th).step := by
    change s.dev.laceSig _ b th ch = _
    unfold Dev.laceSig; dsimp only
    rw [if_neg (Nat.not_lt.mpr hbank), Dev.chan_setThread]
  have hthreads : ∀ o, (s.laceDone b th (.sig ch)).thread b o = (s.dev.setThread b th (s.dev.thread b th).step).thread b o := fun o => by
    rw [hdone]; split
    exacts [Dev.thread_setChan _ _ _ _, rfl]
  obtain ⟨t, hexec, hmoved, hregs, -, hchans⟩ := hop.moved h (y := s.dev.thread b th) ((hthreads th).trans (Dev.thread_setThread_same _ _ _)) rfl rfl
    (fun o ho => (hthreads o).trans (Dev.thread_setThread_other _ _ ho))
  refine ⟨t, hexec, hmoved, ?_, fun hch => ?_, fun o ho => ?_⟩
  · rw [hregs, hdone]; split <;> rfl
  · rw [hchans, hdone, if_pos hch, Dev.chan_setChan_same]
  · rw [hchans, hdone]; split
    · rw [Dev.chan_setChan_other _ _ _ ho, Dev.chan_setThread]
    · rw [Dev.chan_setThread]

theorem laceSig_fails {ch : Nat} (hop : laceCommand i s b th (.sig ch)) (h : laceRuns s b th) (hchannel : th < 16) :
    ∃ t, exec i s = .next t ∧ laceFailed s t b th 1 :=
  hop.fails h (by omega) (if_pos hchannel)

end Sys2Proof.Machine
end

section
/-! ## BR, PHASE, WAIT and END (R229 to R236, R240) -/

namespace Sys2Proof.Machine
open Sys2Proof.Claims

variable {s : State} {b th : Nat} {i : Instr}

/-! ### BR -/

theorem laceBr_goes {cond address : Nat} (hop : laceCommand i s b th (.br cond address)) (h : laceReady s b th)
    (hcond : cond ≤ 8 ∧ (th < 16 ∨ cond < 3 ∨ 6 < cond)) : ∃ t, exec i s = .next t ∧ t.dev.regs = s.dev.regs ∧ deviceOnly s t ∧
      t.dev.thread b th = { s.dev.thread b th with
        pc := if s.dev.laceCond b th cond then address else ((s.dev.thread b th).pc + 1) % 4096, since := (s.dev.thread b th).since + 1 } ∧
      ∀ o, o ≠ th → t.dev.thread b o = s.dev.thread b o := by
  have hdone : s.laceDone b th (.br cond address) = s.dev.setThread b th
      { s.dev.thread b th with pc := if s.dev.laceCond b th cond then address else ((s.dev.thread b th).pc + 1) % 4096 } := by
    change s.dev.laceBr _ b th cond address = _
    unfold Dev.laceBr; dsimp only
    rw [if_neg (by omega)]
    split <;> rfl
  have ⟨_, _, _, hready, _⟩ := h
  obtain ⟨t, hexec, honly, hself, hothers, hregs, -⟩ := hop.counted h (by rw [hdone, Dev.thread_setThread_same]; exact hready)
    (by rw [hdone, Dev.thread_setThread_same])
  rw [hdone] at hself hothers hregs
  rw [Dev.thread_setThread_same] at hself
  exact ⟨t, hexec, hregs, honly, hself, fun o ho => (hothers o ho).trans (Dev.thread_setThread_other _ _ ho)⟩

theorem laceBr_fails {cond address : Nat} (hop : laceCommand i s b th (.br cond address)) (h : laceRuns s b th) (hth : th < 17)
    (hcond : 8 < cond ∨ (16 ≤ th ∧ 3 ≤ cond ∧ cond ≤ 6)) : ∃ t, exec i s = .next t ∧ laceFailed s t b th 1 :=
  hop.fails h hth (if_pos hcond)

/-- The conditions of BR, by number (R232). -/
def laceConds (d : Dev) (b th : Nat) : List (Fin 16 × Bool) :=
  let x := d.thread b th
  let k := d.chan b th
  [(0, true), (1, x.t), (2, !x.t), (3, k.dip.found.isSome), (4, k.dip.found.isNone), (5, k.coil.derate), (6, k.released), (7, x.z), (8, x.n)]

theorem laceCond_of_mem (d : Dev) (b th : Nat) : ∀ p ∈ laceConds d b th, p.1.val ≤ 8 ∧ d.laceCond b th p.1 = p.2 := by
  simp only [laceConds, List.forall_mem_cons]
  refine ⟨⟨by decide, rfl⟩, ⟨by decide, rfl⟩, ⟨by decide, rfl⟩, ⟨by decide, rfl⟩, ⟨by decide, ?_⟩, ⟨by decide, rfl⟩, ⟨by decide, rfl⟩,
    ⟨by decide, rfl⟩, ⟨by decide, rfl⟩, fun p hp => absurd hp List.not_mem_nil⟩
  exact Option.not_isSome _

/-! ### PHASE -/

section
variable {kind target band : Nat} {watch par : Bool}

theorem lacePhase_fails (hop : laceCommand i s b th (.phase kind target band watch par)) (h : laceRuns s b th) (hth : th < 17)
    (hkind : 16 ≤ th ∨ kind = 0 ∨ 5 < kind) : ∃ t, exec i s = .next t ∧ laceFailed s t b th 1 :=
  hop.fails h hth (if_pos hkind)

/-- The target that PHASE asks for: its own, or a parameter of the channel (R234). -/
def Dev.phaseWant (d : Dev) (b th target : Nat) (par : Bool) : Nat := if par then d.chanPar b th (target % 4) % 4096 else target

/-- The device as a PHASE that enters one finds it, with the error of a BOOST shown and a target beyond the program's maximum counted (R231). -/
def Dev.phaseReady (d : Dev) (t b th kind target : Nat) (par : Bool) : Dev :=
  let e := d.setThread b th (d.thread b th).step
  let e := if kind = 1 then e.laceError t b th (d.thread b th).pc 3 else e
  if d.chanImax b th < d.phaseWant b th target par then e.bump (Reg.LC_CNT_CLAMP b) else e

theorem Dev.phaseReady_law (d : Dev) (t : Nat) :
    ((d.phaseReady t b th kind target par).bank b).threads = ((d.setThread b th (d.thread b th).step).bank b).threads ∧
      (d.phaseReady t b th kind target par).chan b th = d.chan b th ∧
      (kind = 1 → (d.phaseReady t b th kind target par).bit (Reg.LC_FAULT b) 4 = true) := by
  obtain ⟨hthreads, -, hchan, -, hflag⟩ := (d.setThread b th (d.thread b th).step).laceError_law (b := b) t th (d.thread b th).pc 3
  have hclamp : ∀ (p : Prop) [Decidable p] (e : Dev), e.steady b (if p then e.bump (Reg.LC_CNT_CLAMP b) else e) ∧
      (if p then e.bump (Reg.LC_CNT_CLAMP b) else e).chan b th = e.chan b th := fun p _ e => by
    split
    exacts [⟨e.steady_bump (quietReg_clamp b), e.chan_bump _ th⟩, ⟨e.steady_refl b, rfl⟩]
  obtain ⟨hsteady, hkept⟩ := hclamp (d.chanImax b th < d.phaseWant b th target par)
    (if kind = 1 then (d.setThread b th (d.thread b th).step).laceError t b th (d.thread b th).pc 3 else d.setThread b th (d.thread b th).step)
  unfold Dev.phaseReady; dsimp only
  refine ⟨hsteady.threads.trans ?_, hkept.trans ?_, fun hkind => hsteady.flag ?_⟩
  · split
    exacts [hthreads, rfl]
  · split
    exacts [(hchan th).trans (Dev.chan_setThread _ _ _ _), Dev.chan_setThread _ _ _ _]
  · rw [if_pos hkind]; exact hflag

variable (hop : laceCommand i s b th (.phase kind target band watch par)) (h : laceReady s b th) (hth : th < 16) (hlow : 1 ≤ kind) (hhigh : kind ≤ 5)
include hop h hth hlow hhigh

/-- A command-form channel that has been released enters no phase but QUENCH (R235). -/
theorem lacePhase_passes (hpass : (s.dev.chan b th).command = true ∧ (s.dev.chan b th).released = true ∧ kind ≠ 5) :
    ∃ t, exec i s = .next t ∧ laceMoved s t b th (s.dev.thread b th) ∧ t.dev.chan b th = s.dev.chan b th ∧ t.dev.regs = s.dev.regs := by
  have hdone : s.laceDone b th (.phase kind target band watch par) = s.dev.setThread b th (s.dev.thread b th).step := by
    change s.dev.lacePhase _ b th kind target band watch par = _
    unfold Dev.lacePhase; dsimp only
    rw [if_neg (by omega), if_pos hpass]
  obtain ⟨t, hexec, hmoved, hregs, -, hchans⟩ := hop.moved_alone h (y := s.dev.thread b th) hdone rfl rfl
  exact ⟨t, hexec, hmoved, hchans th, hregs⟩

omit hop h in
theorem lacePhase_done (henter : ¬ ((s.dev.chan b th).command = true ∧ (s.dev.chan b th).released = true ∧ kind ≠ 5)) :
    s.laceDone b th (.phase kind target band watch par) =
      (s.dev.phaseReady s.clock.dtime b th kind target par).enterPhase s.clock.dtime b th (if kind = 1 then 2 else kind)
        (min (s.dev.phaseWant b th target par) (s.dev.chanImax b th)) band watch (s.clock.dtime / 40 + 1) := by
  change s.dev.lacePhase _ b th kind target band watch par = _
  unfold Dev.lacePhase; dsimp only
  rw [if_neg (by omega), if_neg henter]
  rfl

/-- A channel enters the phase; BOOST acts as PEAK, and is an error (R229, R230). -/
theorem lacePhase_enters (henter : ¬ ((s.dev.chan b th).command = true ∧ (s.dev.chan b th).released = true ∧ kind ≠ 5)) :
    ∃ t, exec i s = .next t ∧ laceMoved s t b th (s.dev.thread b th) ∧ (t.dev.chan b th).kind = (if kind = 1 then 2 else kind) ∧
      (t.dev.chan b th).target = min (s.dev.phaseWant b th target par) (s.dev.chanImax b th) ∧ (t.dev.chan b th).band = band ∧
      (t.dev.chan b th).watch = watch ∧
      (kind = 5 → (s.dev.chan b th).kind ≠ 5 → (t.dev.chan b th).quenchAt = some (s.clock.dtime / 40 + 1)) ∧
      (kind = 1 → t.dev.bit (Reg.LC_FAULT b) 4 = true) := by
  have hdone := lacePhase_done (band := band) (watch := watch) (par := par) (target := target) hth hlow hhigh henter
  obtain ⟨hthreads, hchan, hflag⟩ := s.dev.phaseReady_law (b := b) (th := th) (kind := kind) (target := target) (par := par) s.clock.dtime
  generalize s.dev.phaseReady s.clock.dtime b th kind target par = e at hdone hthreads hchan hflag
  have hentered := e.steady_enterPhase (b := b) (c := th) s.clock.dtime (if kind = 1 then 2 else kind)
    (min (s.dev.phaseWant b th target par) (s.dev.chanImax b th)) band watch (s.clock.dtime / 40 + 1)
  obtain ⟨q, hphase⟩ := e.enterPhase_chan (b := b) (c := th) s.clock.dtime (if kind = 1 then 2 else kind)
    (min (s.dev.phaseWant b th target par) (s.dev.chanImax b th)) band watch (s.clock.dtime / 40 + 1)
  rw [← hdone] at hentered hphase
  have hthread := fun o => Dev.thread_congr (hentered.threads.trans hthreads) o
  obtain ⟨t, hexec, hmoved, hregs, -, hchans⟩ := hop.moved h (y := s.dev.thread b th) ((hthread th).trans (Dev.thread_setThread_same _ _ _)) rfl rfl
    (fun o ho => (hthread o).trans (Dev.thread_setThread_other _ _ ho))
  have hfinal := (hchans th).trans hphase
  rw [hchan] at hfinal
  refine ⟨t, hexec, hmoved, by rw [hfinal]; rfl, by rw [hfinal]; rfl, by rw [hfinal]; rfl, by rw [hfinal]; rfl, fun hkind hother => ?_, fun hkind => ?_⟩
  · rw [hfinal]
    exact if_pos ⟨by rw [if_neg (by omega), hkind], hother⟩
  · exact (Dev.bit_congr (Dev.rd_congr hregs _) 4).trans (hentered.flag (hflag hkind))

theorem lacePhase_moves : ∃ t, exec i s = .next t ∧ laceMoved s t b th (s.dev.thread b th) ∧
    ((s.dev.chan b th).command = true → (s.dev.chan b th).released = true → kind ≠ 5 →
      t.dev.chan b th = s.dev.chan b th ∧ t.dev.regs = s.dev.regs) ∧
    ((s.dev.chan b th).command = false ∨ kind = 5 → (t.dev.chan b th).kind = (if kind = 1 then 2 else kind) ∧
      (t.dev.chan b th).target = min (s.dev.phaseWant b th target par) (s.dev.chanImax b th) ∧ (t.dev.chan b th).band = band ∧
      (t.dev.chan b th).watch = watch ∧
      (kind = 5 → (s.dev.chan b th).kind ≠ 5 → (t.dev.chan b th).quenchAt = some (s.clock.dtime / 40 + 1)) ∧
      (kind = 1 → t.dev.bit (Reg.LC_FAULT b) 4 = true)) := by
  by_cases hpass : (s.dev.chan b th).command = true ∧ (s.dev.chan b th).released = true ∧ kind ≠ 5
  · obtain ⟨t, hexec, hmoved, hstands⟩ := lacePhase_passes hop h hth hlow hhigh hpass
    obtain ⟨hcommand, -, hkind⟩ := hpass
    exact ⟨t, hexec, hmoved, fun _ _ _ => hstands, fun hno => absurd hno (by simp [hcommand, hkind])⟩
  · obtain ⟨t, hexec, hmoved, henters⟩ := lacePhase_enters hop h hth hlow hhigh hpass
    exact ⟨t, hexec, hmoved, fun hcommand hreleased hkind => absurd ⟨hcommand, hreleased, hkind⟩ hpass, fun _ => henters⟩

end

/-! ### WAIT -/

theorem laceWait_fails {cond arg : Nat} {trim : Bool} (hop : laceCommand i s b th (.wait cond trim arg)) (h : laceRuns s b th) (hth : th < 17)
    (hcond : 5 < cond ∨ (16 ≤ th ∧ cond ≠ 0)) : ∃ t, exec i s = .next t ∧ laceFailed s t b th 1 :=
  hop.fails h hth (if_pos hcond)

/-- The wait that WAIT begins (R233): for a number of frames, or for a condition with a limit in frames. -/
def Dev.waitRun (d : Dev) (b th cond : Nat) (trim : Bool) (arg : Nat) : LaceRun :=
  let now := (d.bank b).lastFrame / 40
  let frames := if trim then (sar ((arg : Int) * (256 + d.runTrim b th) + 128) 8).toNat else arg
  if cond = 0 then .wait 0 0 (now + 1 + frames) 0 now
  else .wait cond (arg / 4096) 0 (if arg % 4096 = 0 then 0 else now + 1 + arg % 4096) now

theorem Dev.waitRun_ne_ready (d : Dev) (b th cond : Nat) (trim : Bool) (arg : Nat) : d.waitRun b th cond trim arg ≠ .ready := by
  unfold Dev.waitRun; dsimp only
  split <;> exact LaceRun.noConfusion

/-- The thread as its wait begins. -/
def LaceThread.waits (x : LaceThread) (run : LaceRun) : LaceThread := { x with pc := (x.pc + 1) % 4096, since := 0, carried := false, run := run }

/-- Of the rest only the channel's signal may have changed, by the wait for one. -/
theorem laceWait_done {cond arg : Nat} {trim : Bool} (harg : arg < 2 ^ 24) (hcond : cond = 0 ∨ (th < 16 ∧ cond ≤ 5)) :
    (∀ o, (s.laceDone b th (.wait cond trim arg)).thread b o =
        (s.dev.setThread b th ((s.dev.thread b th).waits (s.dev.waitRun b th cond trim arg))).thread b o) ∧
      (s.laceDone b th (.wait cond trim arg)).regs = s.dev.regs := by
  have hlevel : nfld arg 23 12 = arg / 4096 := by unfold nfld; norm_num; omega
  have hlimit : nfld arg 11 0 = arg % 4096 := by unfold nfld; norm_num
  have hdone : s.laceDone b th (.wait cond trim arg) =
      (let d := s.dev.setThread b th ((s.dev.thread b th).waits (s.dev.waitRun b th cond trim arg))
       if cond = 5 then d.setChan b th { d.chan b th with signal := false } else d) := by
    change s.dev.laceWait _ b th cond trim arg = _
    unfold Dev.laceWait; dsimp only
    rw [if_neg (by omega), hlevel, hlimit]
    rfl
  rw [hdone]; dsimp only
  split
  · exact ⟨fun o => Dev.thread_setChan _ _ _ _, rfl⟩
  · exact ⟨fun _ => rfl, rfl⟩

theorem laceWait_waits {cond arg : Nat} {trim : Bool} (hop : laceCommand i s b th (.wait cond trim arg)) (h : laceReady s b th)
    (harg : arg < 2 ^ 24) (hcond : cond = 0 ∨ (th < 16 ∧ cond ≤ 5)) :
    ∃ t, exec i s = .next t ∧ deviceOnly s t ∧ t.dev.regs = s.dev.regs ∧ (∀ o, o ≠ th → t.dev.thread b o = s.dev.thread b o) ∧
      t.dev.thread b th = (s.dev.thread b th).waits (s.dev.waitRun b th cond trim arg) := by
  obtain ⟨hthread, hregs⟩ := laceWait_done (s := s) (b := b) (trim := trim) harg hcond
  have hself := (hthread th).trans (Dev.thread_setThread_same _ _ _)
  obtain ⟨hregs', -, -, hthreads', -⟩ := (s.laceDone b th (.wait cond trim arg)).regate_keeps (b := b) s.clock.dtime
  refine ⟨_, hop.halted (laceRuns_of_ready h) (by rw [hself]; exact Dev.waitRun_ne_ready _ _ _ _ _ _), deviceOnly_withDev _ _, hregs'.trans hregs,
    fun o ho => ?_, (hthreads' th).trans hself⟩
  exact (hthreads' o).trans ((hthread o).trans (Dev.thread_setThread_other _ _ ho))

/-! ### END -/

section
variable (d : Dev) (t : Nat)

/-- END of a thread without a fire of its own. -/
theorem Dev.laceEnd_stops (h : 16 ≤ th ∨ (d.chan b th).command = true) : d.laceEnd t b th = d.stopThread b th := by
  unfold Dev.laceEnd; dsimp only
  split
  · rfl
  · next hchannel => rw [if_pos (by rw [Dev.chan_setThread]; exact h.resolve_left hchannel)]; rfl

/-- The channel ends its fire before its QUENCH phase (R235). -/
def Chan.endsLate (k : Chan) : Prop := k.kind ≠ 5 ∧ k.quenchAt = none

/-- The device as a program that ends before its QUENCH phase shows the error. -/
def Dev.endShown (d : Dev) (t b th : Nat) : Dev :=
  ((d.stopThread b th).setChan b th { d.chan b th with run := (d.chan b th).run.map (fun r => { r with lateQuench := true }) }).laceError t b th
    (d.thread b th).pc 6

theorem Dev.endShown_law : (∀ o, (d.endShown t b th).thread b o = (d.stopThread b th).thread b o) ∧
    (d.endShown t b th).chan b th = { d.chan b th with run := (d.chan b th).run.map (fun r => { r with lateQuench := true }) } ∧
    ((d.endShown t b th).bank b).records = (d.bank b).records ∧ (d.endShown t b th).bit (Reg.LC_FAULT b) 4 = true := by
  have hmarked := (d.stopThread b th).steady_setChan (b := b) (c := th)
    { d.chan b th with run := (d.chan b th).run.map (fun r => { r with lateQuench := true }) }
  obtain ⟨hthreads, hrecords, hchan, -, hflag⟩ := ((d.stopThread b th).setChan b th
    { d.chan b th with run := (d.chan b th).run.map (fun r => { r with lateQuench := true }) }).laceError_law (b := b) t th (d.thread b th).pc 6
  exact ⟨Dev.thread_congr (hthreads.trans hmarked.threads), (hchan th).trans (Dev.chan_setChan_same _ _ _ _),
    hrecords.trans (hmarked.records.trans (Dev.setThread_records _ _ _)), hflag⟩

variable (hth : th < 16) (hcommand : (d.chan b th).command = false)
include hth hcommand

theorem Dev.laceEnd_late (hlate : (d.chan b th).endsLate) : d.laceEnd t b th = ((d.endShown t b th).quenchNow t b th).closeRun b th 0 := by
  obtain ⟨hkind, hquench⟩ := hlate
  unfold Dev.laceEnd; dsimp only
  rw [Dev.chan_setThread, if_neg (by omega), if_neg (by simp [hcommand]), if_pos (by simp [hkind, hquench])]
  rfl

theorem Dev.laceEnd_quenched (hlate : ¬ (d.chan b th).endsLate) : d.laceEnd t b th = (d.stopThread b th).closeRun b th 0 := by
  unfold Dev.laceEnd; dsimp only
  rw [Dev.chan_setThread, if_neg (by omega), if_neg (by simp [hcommand])]
  refine if_neg fun h => hlate ?_
  simpa [Chan.endsLate] using h

/-- END of a channel thread whose program fires: the thread stops, its fire ends, and the channel quenches, or goes on quenching. -/
theorem Dev.laceEnd_law : (∀ o, (d.laceEnd t b th).thread b o = (d.stopThread b th).thread b o) ∧ ((d.laceEnd t b th).chan b th).run = none ∧
    ((d.chan b th).run.isSome = true → (d.bank b).records.length < 1024 →
      ((d.laceEnd t b th).bank b).records.length = (d.bank b).records.length + 1) ∧
    ((d.chan b th).kind = 5 → ((d.laceEnd t b th).chan b th).kind = 5 ∧ ((d.laceEnd t b th).chan b th).quenchAt = (d.chan b th).quenchAt) ∧
    ((d.chan b th).kind ≠ 5 → (d.chan b th).quenchAt = none → ((d.laceEnd t b th).chan b th).kind = 5 ∧
      ((d.laceEnd t b th).chan b th).quenchAt = some (t / 40 + 1) ∧ (d.laceEnd t b th).bit (Reg.LC_FAULT b) 4 = true) := by
  by_cases hlate : (d.chan b th).endsLate
  · obtain ⟨hkind, hquench⟩ := hlate
    obtain ⟨hthreads, hchan, hrecords, hflag⟩ := d.endShown_law (b := b) (th := th) t
    have hquenched := (d.endShown t b th).quenched_closeRun (b := b) (c := th) t 0
    rw [Dev.laceEnd_late d t hth hcommand ⟨hkind, hquench⟩]
    refine ⟨fun o => ?_, hquenched.run, fun hsome hroom => ?_, fun h => absurd h hkind, fun _ _ => ⟨hquenched.kind, ?_, hquenched.flag hflag⟩⟩
    · by_cases ho : o = th
      · rw [ho, Dev.thread_congr hquenched.threads, Dev.stopThread, Dev.thread_setThread_same, hthreads, Dev.stopThread, Dev.thread_setThread_same]
      · rw [Dev.thread_congr hquenched.threads, Dev.stopThread_other _ ho, hthreads]
    · rw [hquenched.records (by rw [hchan]; simpa using hsome) (by rw [hchan]; exact hcommand) (by rw [hrecords]; exact hroom), hrecords]
    · rw [hquenched.quenchAt, hchan]
      exact if_pos hkind
  · obtain ⟨hthreads, -, -, hrecords⟩ := (d.stopThread b th).closeRun_law (b := b) (c := th) 0
    obtain ⟨nd, oj, hchan⟩ := (d.stopThread b th).closeRun_chan (b := b) (c := th) 0
    have hold : (d.stopThread b th).chan b th = d.chan b th := Dev.chan_setThread _ _ _ _
    rw [hold] at hrecords hchan
    rw [Dev.laceEnd_quenched d t hth hcommand hlate]
    refine ⟨Dev.thread_congr hthreads, by rw [hchan], fun hsome hroom => ?_, fun hkind => by rw [hchan]; exact ⟨hkind, rfl⟩,
      fun hkind hquench => absurd ⟨hkind, hquench⟩ hlate⟩
    have hkept : ((d.stopThread b th).bank b).records = (d.bank b).records := Dev.setThread_records _ _ _
    rw [hkept] at hrecords
    exact hrecords hsome hcommand hroom

end

theorem laceEnd_ends (hop : laceCommand i s b th .end_) (h : laceRuns s b th) :
    ∃ t, exec i s = .next t ∧ deviceOnly s t ∧ (t.dev.thread b th).run = .stopped ∧ (∀ o, o ≠ th → t.dev.thread b o = s.dev.thread b o) ∧
      (16 ≤ th ∨ (s.dev.chan b th).command = true → t.dev.regs = s.dev.regs ∧ ∀ c, t.dev.chan b c = s.dev.chan b c) ∧
      (th < 16 → (s.dev.chan b th).command = false → (t.dev.chan b th).run = none ∧
        ((s.dev.chan b th).run.isSome = true → (s.dev.bank b).records.length < 1024 →
          (t.dev.bank b).records.length = (s.dev.bank b).records.length + 1) ∧
        ((s.dev.chan b th).kind = 5 → (t.dev.chan b th).kind = 5 ∧ (t.dev.chan b th).quenchAt = (s.dev.chan b th).quenchAt) ∧
        ((s.dev.chan b th).kind ≠ 5 → (s.dev.chan b th).quenchAt = none → (t.dev.chan b th).kind = 5 ∧
          (t.dev.chan b th).quenchAt = some (s.clock.dtime / 40 + 1) ∧ t.dev.bit (Reg.LC_FAULT b) 4 = true)) := by
  have hdone : s.laceDone b th .end_ = s.dev.laceEnd s.clock.dtime b th := rfl
  obtain ⟨hregs, -, hchans, hthreads, hrecords⟩ := (s.laceDone b th .end_).regate_keeps (b := b) s.clock.dtime
  have hstops : ∀ o, (s.laceDone b th .end_).thread b o = (s.dev.stopThread b th).thread b o := fun o => by
    by_cases hown : th < 16 ∧ (s.dev.chan b th).command = false
    · exact (Dev.laceEnd_law s.dev s.clock.dtime hown.1 hown.2).1 o
    · rw [hdone, Dev.laceEnd_stops]
      by_contra hno
      simp only [not_or, not_le, Bool.not_eq_true] at hno
      exact hown hno
  have hstopped : ((s.laceDone b th .end_).thread b th).run = .stopped := by rw [hstops, Dev.stopThread_run]
  refine ⟨_, hop.halted h (by rw [hstopped]; decide), deviceOnly_withDev _ _, (congrArg LaceThread.run (hthreads th)).trans hstopped,
    fun o ho => (hthreads o).trans ((hstops o).trans (Dev.stopThread_other _ ho)), fun hfree => ?_, fun hth hcommand => ?_⟩
  · have hstop : s.laceDone b th .end_ = s.dev.stopThread b th := Dev.laceEnd_stops _ _ hfree
    exact ⟨hregs.trans (by rw [hstop]; rfl), fun c => (hchans c).trans (by rw [hstop]; exact Dev.chan_setThread _ _ _ _)⟩
  · obtain ⟨-, hrest⟩ := Dev.laceEnd_law s.dev s.clock.dtime hth hcommand
    have hchan := hchans th
    have hbit := Dev.bit_congr (Dev.rd_congr hregs (Reg.LC_FAULT b)) 4
    rw [hdone] at hchan hbit hrecords
    simp only [State.withDev, hdone, hchan, hbit, hrecords]
    exact hrest

end Sys2Proof.Machine
end

section
/-! ## The code load, and a fault of the engine (R217, R236, R248) -/

namespace Sys2Proof.Machine
open Sys2Proof.Claims

/-! ### Words of the code image, bit by bit -/

/-- A listed byte of frame memory joins the word of the image that it is part of. -/
def codeByte (base : Nat) (c : SMap Word) (p : Nat × Byte) : SMap Word :=
  if base ≤ p.1 ∧ p.1 < base + 16384 then
    SMap.upd 0 c ((p.1 - base) / 4) (fun w => w ||| (BitVec.ofNat 32 p.2.toNat <<< (8 * ((p.1 - base) % 4))))
  else c

theorem codeImage_eq (m : Mem) (base : Nat) : codeImage m base = m.frame.foldl (codeByte base) [] := rfl

/-- Bit k of the byte at a, if p lists it. -/
def byteBit (a k : Nat) (p : Nat × Byte) : Bool := decide (p.1 = a) && p.2.getLsbD k

theorem getLsbD_byte_shifted (v : Byte) {r j : Nat} (hr : r < 4) (hj : j < 32) :
    (BitVec.ofNat 32 v.toNat <<< (8 * r)).getLsbD j = (decide (r = j / 8) && v.getLsbD (j % 8)) := by
  have hbit : (BitVec.ofNat 32 v.toNat <<< (8 * r)).getLsbD j = (!decide (j < 8 * r) && v.getLsbD (j - 8 * r)) := by
    rw [BitVec.getLsbD_shiftLeft, BitVec.getLsbD_ofNat, BitVec.testBit_toNat, decide_eq_true hj, decide_eq_true (by omega : j - 8 * r < 32),
      Bool.true_and, Bool.true_and]
  rw [hbit]
  by_cases hlow : j < 8 * r
  · rw [decide_eq_true hlow, decide_eq_false (by omega)]; rfl
  · rw [decide_eq_false hlow]
    by_cases hin : r = j / 8
    · rw [decide_eq_true hin, show j - 8 * r = j % 8 by omega]; rfl
    · rw [decide_eq_false hin, BitVec.getLsbD_of_ge _ _ (by omega)]; rfl

theorem getLsbD_codeByte (base : Nat) (c : SMap Word) (p : Nat × Byte) {i j : Nat} (hi : i < 4096) (hj : j < 32) :
    (SMap.get 0 (codeByte base c p) i).getLsbD j = ((SMap.get 0 c i).getLsbD j || byteBit (base + 4 * i + j / 8) (j % 8) p) := by
  unfold codeByte byteBit
  split
  · next hin =>
    rw [SMap.upd, SMap.get_set]
    split
    · next hword =>
      subst hword
      rw [BitVec.getLsbD_or, getLsbD_byte_shifted _ (Nat.mod_lt _ (by decide)) hj]
      congr 3
      exact propext (by omega)
    · next hword => rw [decide_eq_false (by omega), Bool.false_and, Bool.or_false]
  · next hout => rw [decide_eq_false (by omega), Bool.false_and, Bool.or_false]

theorem getLsbD_codeBytes (base : Nat) (l : List (Nat × Byte)) (c : SMap Word) {i j : Nat} (hi : i < 4096) (hj : j < 32) :
    (SMap.get 0 (l.foldl (codeByte base) c) i).getLsbD j = ((SMap.get 0 c i).getLsbD j || l.any (byteBit (base + 4 * i + j / 8) (j % 8))) := by
  induction l generalizing c with
  | nil => rw [List.foldl_nil, List.any_nil, Bool.or_false]
  | cons p l ih => rw [List.foldl_cons, ih, getLsbD_codeByte base c p hi hj, List.any_cons, Bool.or_assoc]

/-- In rising keys at most one pair lists a byte. -/
theorem any_byteBit {l : List (Nat × Byte)} (h : l.Pairwise (fun a b => a.1 < b.1)) (a k : Nat) :
    l.any (byteBit a k) = (SMap.get memDefault l a).getLsbD k := by
  induction l with
  | nil => exact (BitVec.getLsbD_zero).symm
  | cons p l ih =>
    obtain ⟨hless, hrest⟩ := List.pairwise_cons.mp h
    rw [List.any_cons, byteBit]
    by_cases hp : p.1 = a
    · have hnone : l.any (byteBit a k) = false := List.any_eq_false.mpr fun q hq => by
        rw [byteBit, decide_eq_false (by have := hless q hq; omega)]; simp
      have hget : SMap.get memDefault (p :: l) a = p.2 := congrArg (Option.getD · memDefault) (if_pos hp)
      rw [hnone, decide_eq_true hp, hget, Bool.true_and, Bool.or_false]
    · have hget : SMap.get memDefault (p :: l) a = SMap.get memDefault l a := congrArg (Option.getD · memDefault) (if_neg hp)
      rw [decide_eq_false hp, Bool.false_and, Bool.false_or, hget, ih hrest]

/-! ### Words of frame memory, bit by bit -/

theorem leNat_lt (l : List Byte) : leNat l < 256 ^ l.length := by
  induction l with
  | nil => exact Nat.one_pos
  | cons v l ih =>
    have hv := v.isLt
    rw [leNat, List.length_cons, pow_succ]
    omega

theorem testBit_leNat (l : List Byte) {j : Nat} (h : j / 8 < l.length) : (leNat l).testBit j = (l.getD (j / 8) 0).getLsbD (j % 8) := by
  rw [← leNat_byte l (j / 8) h, BitVec.getLsbD_ofNat, Nat.testBit_div_two_pow, decide_eq_true (Nat.mod_lt j (by decide)), Bool.true_and,
    Nat.add_comm, Nat.div_add_mod]

theorem Mem.frameNat_lt (m : Mem) (a : Nat) : m.frameNat a 4 < 2 ^ 32 := by
  have h := leNat_lt ((List.range 4).map (fun i => m.frameByte (a + i)))
  rwa [List.length_map, List.length_range] at h

theorem Mem.testBit_frameNat (m : Mem) (a : Nat) {j : Nat} (hj : j < 32) :
    (m.frameNat a 4).testBit j = (m.frameByte (a + j / 8)).getLsbD (j % 8) := by
  have hin : j / 8 < 4 := by omega
  rw [Mem.frameNat, testBit_leNat _ (by simpa using hin), List.getD_eq_getElem?_getD, List.getElem?_map, List.getElem?_range hin]
  rfl

/-- A word of the image is the word that frame memory holds (R247). -/
theorem codeImage_word {m : Mem} (h : m.wf) (base : Nat) {i : Nat} (hi : i < 4096) :
    (SMap.get (0 : Word) (codeImage m base) i).toNat = m.frameNat (base + 4 * i) 4 := by
  obtain ⟨⟨hsorted, -⟩, -⟩ := h
  refine Nat.eq_of_testBit_eq fun j => ?_
  by_cases hj : j < 32
  · rw [BitVec.testBit_toNat, codeImage_eq, getLsbD_codeBytes base _ _ hi hj, any_byteBit hsorted, m.testBit_frameNat _ hj]
    exact (congrArg (· || _) BitVec.getLsbD_zero).trans (Bool.false_or _)
  · have hpow : 2 ^ 32 ≤ 2 ^ j := Nat.pow_le_pow_right (by decide) (by omega)
    rw [Nat.testBit_lt_two_pow (lt_of_lt_of_le (BitVec.isLt _) hpow), Nat.testBit_lt_two_pow (lt_of_lt_of_le (m.frameNat_lt _) hpow)]

/-! ### LACE_CODE_LOAD_DONE -/

variable {s : State} {b : Fin 8}

theorem exec_laceCodeLoadDone (hr : s.running = true) :
    exec (.laceCodeLoadDone b) s = .next (s.withDev (s.dev.codeLoadDone s.mem s.clock.dtime b)) := by
  rw [exec, execLaceCodeLoadDone, State.actMem_running _ _ hr]; rfl

theorem laceCodeLoadDone_stands (hr : s.running = true) (h : s.dev.vbOn b = false ∨ (s.dev.bank b).loaded = true) :
    exec (.laceCodeLoadDone b) s = .next s := by
  rw [exec_laceCodeLoadDone hr]
  exact next_withDev_self (if_neg fun ⟨hon, hnot⟩ => by simp [hon, hnot] at h)

/-- Where no word reads uncorrectable, a unit's read sees the memory as it is. -/
theorem Dev.unitRead_clean {d : Dev} (h : noBadWord d) (m : Mem) (t req a n : Nat) : d.unitRead m t req a n = (d, m) := by
  have hpoisoned : d.poisoned a n = false := by
    obtain ⟨hpoison, hretired⟩ := h
    simp [Dev.poisoned, hpoison, hretired]
  rw [Dev.unitRead, Dev.readPoison_clean h, Dev.unitView, if_neg (by simp [hpoisoned])]

theorem laceCodeLoadDone_loads (hr : s.running = true) (hon : s.dev.vbOn b = true) (hnot : (s.dev.bank b).loaded = false) (hwf : s.mem.wf)
    (hclean : noBadWord s.dev) : ∃ t, exec (.laceCodeLoadDone b) s = .next t ∧ deviceOnly s t ∧ t.dev.regs = s.dev.regs ∧
      (t.dev.bank b).loaded = true ∧
      ∀ i, i < 4096 → (SMap.get (0 : Word) (t.dev.bank b).code i).toNat = s.mem.frameNat (s.dev.rdN (Reg.LC_SAVE_BASE b) + 4 * i) 4 := by
  have hloaded : s.dev.codeLoadDone s.mem s.clock.dtime b =
      s.dev.updBank b (fun x => { x with code := codeImage s.mem (s.dev.rdN (Reg.LC_SAVE_BASE b)), loaded := true }) := by
    unfold Dev.codeLoadDone
    rw [if_pos ⟨hon, hnot⟩, Dev.unitRead_clean hclean]
  refine ⟨_, exec_laceCodeLoadDone hr, deviceOnly_withDev _ _, ?_⟩
  rw [hloaded]
  have hbank := s.dev.bank_updBank_same b (fun x => { x with code := codeImage s.mem (s.dev.rdN (Reg.LC_SAVE_BASE b)), loaded := true })
  refine ⟨rfl, congrArg Bank.loaded hbank, fun i hi => ?_⟩
  exact (congrArg (fun x : Bank => (SMap.get (0 : Word) x.code i).toNat) hbank).trans (codeImage_word hwf _ hi)

/-! ### LACE_ENGINE_FAULT -/

theorem exec_laceEngineFault (hr : s.running = true) (address : Fin 4096) :
    exec (.laceEngineFault b address) s = .next (s.withDev (s.dev.engineFault s.clock.dtime b address)) := by
  rw [exec, execLaceEngineFault, State.act_running _ _ hr]; rfl

theorem laceEngineFault_stands (hr : s.running = true) (address : Fin 4096) (h : s.dev.vbOn b = false ∨ (s.dev.bank b).engineOk = false) :
    exec (.laceEngineFault b address) s = .next s := by
  rw [exec_laceEngineFault hr]
  exact next_withDev_self (if_neg fun ⟨hon, hok⟩ => by simp [hon, hok] at h)

/-- The device as the serving spare, if one serves, has been taken out (R223). -/
def Dev.spareOut (d : Dev) (b : Nat) : Dev :=
  if (d.bank b).served then d.updSpare (fun s => { s with state := 3, healthy := false, returning := false }) else d

/-- A bank whose engine has faulted, and that no spare serves. -/
def Bank.engineDown (x : Bank) : Bank := { x with engineFault := true, served := false }

theorem Bank.engineOk_engineDown (x : Bank) : x.engineDown.engineOk = false := by simp [Bank.engineDown, Bank.engineOk]

theorem Dev.engineFault_eq {d : Dev} {b : Nat} (hon : d.vbOn b = true) (hok : (d.bank b).engineOk = true) (t address : Nat) : d.engineFault t b address =
    ((d.spareOut b).updBank b Bank.engineDown).faultFlag t (uid 9 b 31) 0x0010 address (Reg.LC_FAULT b) 0 := by
  unfold Dev.engineFault
  rw [if_pos ⟨hon, hok⟩]
  rfl

theorem Dev.spareOut_flt (d : Dev) (b : Nat) : (d.spareOut b).flt = d.flt := by
  unfold Dev.spareOut
  split <;> rfl

theorem laceEngineFault_faults (hr : s.running = true) (address : Fin 4096) (hon : s.dev.vbOn b = true) (hok : (s.dev.bank b).engineOk = true) :
    ∃ t, exec (.laceEngineFault b address) s = .next t ∧ deviceOnly s t ∧ (t.dev.bank b).engineOk = false ∧ t.dev.bit (Reg.LC_FAULT b) 0 = true ∧
      recorded s.dev t.dev ⟨s.clock.dtime, uid 9 b 31, 0x10, BitVec.ofNat 32 address⟩ ∧
      ((s.dev.bank b).served = true → t.dev.spare.state = 3 ∧ t.dev.spare.healthy = false) ∧
      ((s.dev.bank b).served = false → t.dev.spare = s.dev.spare) := by
  refine ⟨_, exec_laceEngineFault hr address, deviceOnly_withDev _ _, ?_⟩
  rw [Dev.engineFault_eq hon hok]
  have hbank := Dev.bank_congr (Dev.faultFlag_vb ((s.dev.spareOut b).updBank b Bank.engineDown) s.clock.dtime (uid 9 b 31) 0x0010 address
    (Reg.LC_FAULT b) 0) b
  have hspare := Dev.faultFlag_spare ((s.dev.spareOut b).updBank b Bank.engineDown) s.clock.dtime (uid 9 b 31) 0x0010 address (Reg.LC_FAULT b) 0
  refine ⟨?_, Dev.bit_faultFlag _ _ _ _ _ (by decide) (quietReg_lost b).2.symm,
    recorded_faultFlag ((Dev.updBank_flt _ _ _).trans (s.dev.spareOut_flt b)) _ _ _ _ _ _, fun hserved => ?_, fun hserved => hspare.trans ?_⟩
  · rw [Dev.bank_updBank_same] at hbank
    exact (congrArg Bank.engineOk hbank).trans (Bank.engineOk_engineDown _)
  · have hout : (s.dev.spareOut b).spare = { s.dev.spare with state := 3, healthy := false, returning := false } := by
      rw [Dev.spareOut, if_pos hserved]; rfl
    have hfinal := hspare.trans hout
    exact ⟨congrArg Spare.state hfinal, congrArg Spare.healthy hfinal⟩
  · rw [Dev.updBank_spare, Dev.spareOut, if_neg (by simp [hserved])]

end Sys2Proof.Machine
end

section
/-! ## The lace engines together (R225, R229 to R236, R248, R249) -/

namespace Sys2Proof.Machine
open Sys2Proof.Claims

/-! ### The instruction that each command is -/

section
variable (s : State) (b : Fin 8) (th : Fin 17) (rd rs n : Fin 4) (ch : Fin 32)

theorem laceCommand_end : laceCommand (.laceEnd b th) s b th .end_ := rfl
theorem laceCommand_phase (kind : Fin 8) (target : BitVec 12) (band : BitVec 8) (watch par : Bool) :
    laceCommand (.lacePhase b th kind target band watch par) s b th (.phase kind target.toNat band.toNat watch par) := rfl
theorem laceCommand_wait (cond : Fin 8) (trim : Bool) (arg : BitVec 24) :
    laceCommand (.laceWait b th cond trim arg) s b th (.wait cond trim arg.toNat) := rfl
theorem laceCommand_br (cond : Fin 16) (address : BitVec 12) : laceCommand (.laceBr b th cond address) s b th (.br cond address.toNat) := rfl
theorem laceCommand_ldi (imm : BitVec 24) : laceCommand (.laceLdi b th rd imm) s b th (.ldi rd imm.toInt) := rfl
theorem laceCommand_ldm (src : Fin 16) : laceCommand (.laceLdm b th rd src ch) s b th (.ldm rd src ch) := rfl
theorem laceCommand_add : laceCommand (.laceAluAdd b th rd rs) s b th (.alu 0 rd rs) := rfl
theorem laceCommand_sub : laceCommand (.laceAluSub b th rd rs) s b th (.alu 1 rd rs) := rfl
theorem laceCommand_mul : laceCommand (.laceAluMul b th rd rs) s b th (.alu 2 rd rs) := rfl
theorem laceCommand_min : laceCommand (.laceAluMin b th rd rs) s b th (.alu 3 rd rs) := rfl
theorem laceCommand_max : laceCommand (.laceAluMax b th rd rs) s b th (.alu 4 rd rs) := rfl
theorem laceCommand_compare : laceCommand (.laceAluCompare b th rd rs) s b th (.alu 5 rd rs) := rfl
theorem laceCommand_move : laceCommand (.laceAluMove b th rd rs) s b th (.alu 6 rd rs) := rfl
theorem laceCommand_stp : laceCommand (.laceStp b th rs n ch) s b th (.stp rs n ch) := rfl
theorem laceCommand_sig : laceCommand (.laceSig b th ch) s b th (.sig ch) := rfl

/-- An instruction of a thread that is not ready, or whose engine does not work, does nothing. -/
theorem laceCommands_idle (imm arg : BitVec 24) (address : BitVec 12) (kind : Fin 8) (hr : s.running = true)
    (h : ¬ (s.dev.vbOn b = true ∧ (s.dev.bank b).engineOk = true ∧ (s.dev.thread b th).run = .ready)) :
    ∀ i ∈ [Instr.laceEnd b th, .lacePhase b th kind address 0 false false, .laceWait b th kind false arg, .laceBr b th 0 address, .laceLdi b th rd imm,
      .laceLdm b th rd 0 ch, .laceAluAdd b th rd rs, .laceAluSub b th rd rs, .laceAluMul b th rd rs, .laceAluMin b th rd rs, .laceAluMax b th rd rs,
      .laceAluCompare b th rd rs, .laceAluMove b th rd rs, .laceStp b th rs n ch, .laceSig b th ch], exec i s = .next s := by
  simp only [List.forall_mem_cons]
  exact ⟨(laceCommand_end s b th).idle hr h, (laceCommand_phase s b th kind address 0 false false).idle hr h,
    (laceCommand_wait s b th kind false arg).idle hr h, (laceCommand_br s b th 0 address).idle hr h, (laceCommand_ldi s b th rd imm).idle hr h,
    (laceCommand_ldm s b th rd ch 0).idle hr h, (laceCommand_add s b th rd rs).idle hr h, (laceCommand_sub s b th rd rs).idle hr h,
    (laceCommand_mul s b th rd rs).idle hr h, (laceCommand_min s b th rd rs).idle hr h, (laceCommand_max s b th rd rs).idle hr h,
    (laceCommand_compare s b th rd rs).idle hr h, (laceCommand_move s b th rd rs).idle hr h, (laceCommand_stp s b th rs n ch).idle hr h,
    (laceCommand_sig s b th ch).idle hr h, fun _ hi => absurd hi List.not_mem_nil⟩

end

/-! ### The obligation -/

/-- Settles O28: each instruction acts as its law above says, by the outcome of a counted, a halting or a failing instruction. What LDM reads, of
a channel above 15 too, is the model's choice (log 80), and so is that a command that cannot act does nothing (log 7). -/
theorem laceInstructionsAndErrors : Obligations.LaceInstructionsAndErrors := by
  refine ⟨fun s b th rd rs n imm h => ?_, fun s b th address h => ?_, fun s b hr => ⟨fun th rd rs n imm arg address kind ch hno =>
    laceCommands_idle s b th rd rs n ch imm arg address kind hr hno,
    fun th rd imm hon hok hready hsince => laceLdi_fails (laceCommand_ldi s b th rd imm) ⟨hr, hon, hok, hready⟩ th.isLt hsince,
    laceCodeLoadDone_stands hr, laceCodeLoadDone_loads hr,
    fun address => ⟨laceEngineFault_faults hr address, laceEngineFault_stands hr address⟩⟩⟩
  · have hruns := laceRuns_of_ready h
    refine ⟨laceLdi_moves (laceCommand_ldi s b th rd imm) h, laceAlu_moves (laceCommand_add s b th rd rs) h rfl rfl,
      laceAlu_moves (laceCommand_sub s b th rd rs) h rfl rfl, laceAlu_moves (laceCommand_mul s b th rd rs) h rfl rfl,
      laceAlu_moves (laceCommand_min s b th rd rs) h rfl rfl, laceAlu_moves (laceCommand_max s b th rd rs) h rfl rfl,
      laceAlu_moves (laceCommand_move s b th rd rs) h rfl rfl, laceAlu_moves (laceCommand_compare s b th rd rs) h rfl rfl,
      fun ch c hc => ⟨fun hchannel p hp => ?_, fun src hsrc => laceLdm_fails (laceCommand_ldm s b th rd ch src) hruns th.isLt hsrc,
        fun hfree src hsrc => laceLdm_free hc (laceCommand_ldm s b th rd ch src) h hsrc hfree, laceStp_moves hc (laceCommand_stp s b th rs n ch) h,
        fun hbank => laceSig_moves (laceCommand_sig s b th ch) h hbank.ge, laceSig_fails (laceCommand_sig s b th ch) hruns⟩⟩
    obtain ⟨hsrc, hsource⟩ := laceSource_of_mem s.dev b c p hp
    exact hsource ▸ laceLdm_moves hc (laceCommand_ldm s b th rd ch p.1) h hsrc hchannel
  · have hruns := laceRuns_of_ready h
    refine ⟨fun p hp hcond => ?_, fun cond hcond => laceBr_fails (laceCommand_br s b th cond address) hruns th.isLt (by omega),
      fun kind target band watch par => ?_, fun cond trim arg => ?_, ?_⟩
    · obtain ⟨hlow, hholds⟩ := laceCond_of_mem s.dev b th p hp
      exact hholds ▸ laceBr_goes (laceCommand_br s b th p.1 address) h ⟨hlow, hcond⟩
    · have hop := laceCommand_phase s b th kind target band watch par
      refine ⟨fun hkind => lacePhase_fails hop hruns th.isLt (by omega), fun hth hlow hhigh => ?_⟩
      simp only [ne_eq, Fin.ext_iff]
      exact lacePhase_moves hop h hth hlow hhigh
    · have hop := laceCommand_wait s b th cond trim arg
      refine ⟨fun hcond => laceWait_fails hop hruns th.isLt (by omega), fun hcond => ?_⟩
      obtain ⟨t, hexec, honly, hregs, hothers, hself⟩ := laceWait_waits hop h arg.isLt hcond
      exact ⟨t, hexec, honly, hregs, hothers, hself⟩
    · obtain ⟨t, hexec, honly, hstopped, hothers, hfree, hends⟩ := laceEnd_ends (laceCommand_end s b th) hruns
      exact ⟨t, hexec, honly, hstopped, hothers, fun h => hfree (h.imp_left Eq.ge), hends⟩

end Sys2Proof.Machine
end

section
/-! ## Converters: what is read after a change, and what notes of a converter leave (R297 to R299) -/

namespace Sys2Proof.Machine
open Sys2Proof.Claims

/-! ### One converter at a time -/

theorem Dev.adc_congr {d e : Dev} (h : e.an = d.an) (x : Nat) : e.adc x = d.adc x := by rw [Dev.adc, Dev.adc, h]

theorem Dev.adc_setAdc (d : Dev) (x y : Nat) (a : Adc) : (d.setAdc x a).adc y = if y = x then a else d.adc y := SMap.get_set ..
@[simp] theorem Dev.adc_setAdc_same (d : Dev) (x : Nat) (a : Adc) : (d.setAdc x a).adc x = a := SMap.get_set_same ..
theorem Dev.adc_setAdc_other (d : Dev) {x y : Nat} (a : Adc) (h : y ≠ x) : (d.setAdc x a).adc y = d.adc y := SMap.get_set_other _ _ _ h
@[simp] theorem Dev.adc_updAdc_same (d : Dev) (x : Nat) (f : Adc → Adc) : (d.updAdc x f).adc x = f (d.adc x) := Dev.adc_setAdc_same ..
theorem Dev.adc_updAdc_other (d : Dev) {x y : Nat} (f : Adc → Adc) (h : y ≠ x) : (d.updAdc x f).adc y = d.adc y := Dev.adc_setAdc_other _ _ h

@[simp] theorem Dev.rd_setAdc (d : Dev) (x : Nat) (a : Adc) (r : Nat) : (d.setAdc x a).rd r = d.rd r := rfl
@[simp] theorem Dev.rd_updAdc (d : Dev) (x : Nat) (f : Adc → Adc) (r : Nat) : (d.updAdc x f).rd r = d.rd r := rfl

@[simp] theorem Dev.adc_wrN (d : Dev) (r v x : Nat) : (d.wrN r v).adc x = d.adc x := rfl
@[simp] theorem Dev.adc_flag (d : Dev) (r i x : Nat) : (d.flag r i).adc x = d.adc x := rfl
@[simp] theorem Dev.adc_putFld (d : Dev) (r hi lo v x : Nat) : (d.putFld r hi lo v).adc x = d.adc x := rfl
@[simp] theorem Dev.adc_bump (d : Dev) (r x : Nat) : (d.bump r).adc x = d.adc x := Dev.adc_congr (Dev.bump_an d r) x
@[simp] theorem Dev.adc_fault (d : Dev) (t u c v x : Nat) : (d.fault t u c v).adc x = d.adc x := Dev.adc_congr (Dev.fault_an d t u c v) x
@[simp] theorem Dev.adc_raise (d : Dev) (t e w x : Nat) : (d.raise t e w).adc x = d.adc x := Dev.adc_congr (Dev.raise_an d t e w) x
@[simp] theorem Dev.adc_updAna (d : Dev) (f : Analogue → Analogue) (x : Nat) : (d.updAna f).adc x = d.adc x := rfl
@[simp] theorem Dev.adc_iexAfter (d o : Dev) (x : Nat) : (d.iexAfter o).adc x = d.adc x := rfl

/-- A row of commands that each change one converter of their own, by what the registers and that converter hold, and no register. -/
theorem Dev.adc_foldl (f : Dev → Nat → Dev) (r : Regs) (g : Nat → Adc → Adc) (hregs : ∀ d y, (f d y).regs = d.regs)
    (hat : ∀ d y, d.regs = r → (f d y).adc y = g y (d.adc y)) (hother : ∀ d x y, x ≠ y → (f d y).adc x = d.adc x)
    {l : List Nat} (hl : l.Nodup) (d : Dev) (hd : d.regs = r) (x : Nat) :
    (l.foldl f d).adc x = if x ∈ l then g x (d.adc x) else d.adc x := by
  induction l generalizing d with
  | nil => simp
  | cons y l ih =>
    obtain ⟨hy, hl⟩ := List.nodup_cons.mp hl
    rw [List.foldl_cons, ih hl _ ((hregs d y).trans hd)]
    by_cases hx : x = y
    · subst hx
      rw [if_neg hy, if_pos List.mem_cons_self, hat d x hd]
    · simp [hother d x y hx, hx]

/-- A row of updates of the four converters. -/
theorem Dev.adc_foldl_updAdc (f : Nat → Adc → Adc) {l : List Nat} (hl : l.Nodup) (d : Dev) (x : Nat) :
    (l.foldl (fun (d : Dev) y => d.updAdc y (f y)) d).adc x = if x ∈ l then f x (d.adc x) else d.adc x :=
  Dev.adc_foldl (fun d y => d.updAdc y (f y)) d.regs f (fun _ _ => rfl) (fun d y _ => Dev.adc_updAdc_same d y _)
    (fun d _ _ h => Dev.adc_updAdc_other d _ h) hl d rfl x

/-- A row of updates of converters changes nothing beside them. -/
theorem Dev.foldl_updAdc_eq (f : Nat → Adc → Adc) (l : List Nat) (d : Dev) :
    ∃ m, l.foldl (fun (d : Dev) y => d.updAdc y (f y)) d = { d with an := m } := by
  induction l generalizing d with
  | nil => exact ⟨d.an, rfl⟩
  | cons y l ih =>
    obtain ⟨m, hm⟩ := ih (d.updAdc y (f y))
    exact ⟨m, hm⟩

/-- What one item of a row does, where every other item keeps what it needs and what it leaves. -/
theorem Dev.foldl_once {α : Type} (P Q : Dev → Prop) (f : Dev → α → Dev) {x : α} (hbefore : ∀ d y, y ≠ x → P d → P (f d y))
    (hat : ∀ d, P d → Q (f d x)) (hafter : ∀ d y, y ≠ x → Q d → Q (f d y)) {l : List α} (hl : l.Nodup) (hx : x ∈ l) (d : Dev) (hd : P d) :
    Q (l.foldl f d) := by
  induction l generalizing d with
  | nil => exact absurd hx List.not_mem_nil
  | cons y l ih =>
    obtain ⟨hy, hl⟩ := List.nodup_cons.mp hl
    by_cases hyx : y = x
    · subst hyx
      exact List.foldlRecOn l f (hat d hd) fun e he z hz => hafter e z (fun h => hy (h ▸ hz)) he
    · exact ih hl ((List.mem_cons.mp hx).resolve_left (Ne.symm hyx)) (f d y) (hbefore d y hyx hd)

/-! ### Flags and records of a converter (R279, R286, R297) -/

/-- From d to e flag i of converter x has been set, with its record or without one: of the converters only what x knows of its last records
has changed, and of the registers only its flags and the count of lost records. -/
def Dev.flagged (x i : Nat) (d e : Dev) : Prop :=
  (∃ r, e.adc x = { d.adc x with recAt := r }) ∧ (∀ y, y ≠ x → e.adc y = d.adc y) ∧
    (∀ a, a ≠ Reg.SV_LOG_LOST → e.rd a = (d.flag (Reg.AN_Cx_FAULT x) i).rd a) ∧
    e.flt.log = d.flt.log ∧ e.ana = d.ana ∧ e.ev = d.ev ∧ e.fab = d.fab ∧ e.tk = d.tk

theorem Dev.flagged_anLimited (d : Dev) (t x el code detail i : Nat) : d.flagged x i (d.anLimited t x el code detail i).2 := by
  unfold Dev.anLimited
  dsimp only
  split
  all_goals
    split
    · refine ⟨⟨_, Dev.adc_setAdc_same ..⟩, fun y hy => ?_, fun a ha => ?_, ?_, ?_, ?_, ?_, ?_⟩
      · rw [Dev.adc_setAdc_other _ _ hy, Dev.adc_fault, Dev.adc_flag]
      · rw [Dev.rd_setAdc, Dev.rd_fault_other _ _ _ _ _ ha]
      · exact (Dev.fault_law _ t _ code detail).1
      all_goals simp
    · exact ⟨⟨_, rfl⟩, fun _ _ => rfl, fun _ _ => rfl, rfl, rfl, rfl, rfl, rfl⟩

theorem Dev.flagged.bit {d e : Dev} {x i : Nat} (h : d.flagged x i e) (hi : i < 32) : e.bit (Reg.AN_Cx_FAULT x) i = true := by
  obtain ⟨-, -, hrd, -⟩ := h
  rw [Dev.bit_congr (hrd _ (by unfold Reg.AN_Cx_FAULT Reg.SV_LOG_LOST; omega))]
  exact Dev.bit_flag d _ hi

theorem Dev.flagged.rd_other {d e : Dev} {x i a : Nat} (h : d.flagged x i e) (hlost : a ≠ Reg.SV_LOG_LOST) (hflag : a ≠ Reg.AN_Cx_FAULT x) :
    e.rd a = d.rd a := by
  obtain ⟨-, -, hrd, -⟩ := h
  rw [hrd a hlost, Dev.rd_flag_other _ _ hflag]

/-- A flag that is set stays set when another one of the register is set (R5). -/
theorem Dev.bit_flag_mono (d : Dev) (r i : Nat) {a j : Nat} (hj : j < 32) (h : d.bit a j = true) : (d.flag r i).bit a j = true := by
  by_cases ha : a = r
  · subst ha
    by_cases hij : j = i
    · exact hij ▸ Dev.bit_flag d a (hij ▸ hj)
    · rw [Dev.bit_flag_other d a hj hij, h]
  · rw [Dev.bit_congr (Dev.rd_flag_other d i ha), h]

theorem Dev.flagged.bit_mono {d e : Dev} {x i : Nat} (h : d.flagged x i e) {a j : Nat} (ha : a ≠ Reg.SV_LOG_LOST) (hj : j < 32) (hbit : d.bit a j = true) :
    e.bit a j = true := by
  obtain ⟨-, -, hrd, -⟩ := h
  rw [Dev.bit_congr (hrd a ha), Dev.bit_flag_mono d _ i hj hbit]

/-! ### A trigger overrun (R279, R281) -/

/-- A trigger overrun counts, sets its flag, and may have its record; the converter goes on as it was. -/
theorem Dev.adcOverrun_law (d : Dev) (t x : Nat) :
    (∃ r n, (d.adcOverrun t x).adc x = { d.adc x with recAt := r, overruns := n }) ∧ (∀ y, y ≠ x → (d.adcOverrun t x).adc y = d.adc y) ∧
      (d.rdN (Reg.AN_Cx_OVR x) + 1 < 2 ^ 32 → (d.adcOverrun t x).rdN (Reg.AN_Cx_OVR x) = d.rdN (Reg.AN_Cx_OVR x) + 1) ∧
      (d.adcOverrun t x).bit (Reg.AN_Cx_FAULT x) 0 = true ∧
      (∀ a, a ≠ Reg.SV_LOG_LOST → a ≠ Reg.AN_Cx_FAULT x → a ≠ Reg.AN_Cx_OVR x → (d.adcOverrun t x).rd a = d.rd a) ∧
      (∀ a j, a ≠ Reg.SV_LOG_LOST → a ≠ Reg.AN_Cx_OVR x → j < 32 → d.bit a j = true → (d.adcOverrun t x).bit a j = true) ∧
      (d.adcOverrun t x).flt.log = d.flt.log ∧ (d.adcOverrun t x).ana = d.ana := by
  have hflag := (d.bump (Reg.AN_Cx_OVR x)).flagged_anLimited t x 0 1 (min (2 ^ 32 - 1) (((d.bump (Reg.AN_Cx_OVR x)).adc x).overruns + 1)) 0
  obtain ⟨⟨r, hself⟩, hothers, -, hlog, hana, -⟩ := id hflag
  refine ⟨?_, fun y hy => ?_, fun htop => ?_, hflag.bit (by omega), fun a hlost hfault hovr => ?_, fun a j hlost hovr hj hbit => ?_, ?_, ?_⟩
  · rw [Dev.adcOverrun, Dev.adc_updAdc_same, hself, Dev.adc_bump]
    exact ⟨r, _, rfl⟩
  · rw [Dev.adcOverrun, Dev.adc_updAdc_other _ _ hy, hothers y hy, Dev.adc_bump]
  · rw [← Dev.rdN_bumpBy_same d _ 1 htop]
    exact congrArg BitVec.toNat (hflag.rd_other (by unfold Reg.AN_Cx_OVR Reg.SV_LOG_LOST; omega) (by unfold Reg.AN_Cx_OVR Reg.AN_Cx_FAULT; omega))
  · exact (hflag.rd_other hlost hfault).trans (Dev.rd_bump_other d hovr)
  · exact hflag.bit_mono hlost hj ((Dev.bit_congr (Dev.rd_bump_other d hovr) j).trans hbit)
  · exact hlog.trans (by rw [Dev.bump_flt])
  · exact hana.trans (Dev.bump_ana d _)

end Sys2Proof.Machine
end

section
/-! ## Converters: triggers, from their source to the start of a sequence (R278 to R282) -/

namespace Sys2Proof.Machine
open Sys2Proof.Claims

theorem Adc.skips_iff (a : Adc) : a.skips = true ↔ a.calFrom.isSome = true ∨ a.out = true ∨ a.faulted = true := by
  simp [Adc.skips, or_assoc]

/-! ### ADC_SOFTWARE_TRIGGER -/

theorem adcSoftwareTrigger_sends {s : State} (hr : s.running = true) (mask : BitVec 4) :
    ∃ t, exec (.adcSoftwareTrigger mask) s = .next t ∧ deviceOnly s t ∧ t.dev.regs = s.dev.regs ∧ ∀ x, x < 4 →
      t.dev.adc x = if mask.toNat.testBit x then { s.dev.adc x with sent := (s.dev.adc x).sent ++ [false] } else s.dev.adc x := by
  refine ⟨s.withDev (s.dev.adcSoftware mask.toNat), by rw [exec, execAdcSoftwareTrigger, State.act_running _ _ hr]; rfl, deviceOnly_withDev _ _,
    Dev.foldl_keeps Dev.regs _ (fun d y => by split <;> rfl) _ _, fun x hx => ?_⟩
  refine (Dev.adc_foldl _ s.dev.regs (fun y a => if mask.toNat.testBit y then { a with sent := a.sent ++ [false] } else a)
    (fun d y => by split <;> rfl) (fun d y _ => ?_) (fun d x y h => ?_) List.nodup_range s.dev rfl x).trans (if_pos (List.mem_range.mpr hx))
  · unfold nbit; split
    · exact Dev.adc_updAdc_same ..
    · rfl
  · split
    · exact Dev.adc_updAdc_other _ _ h
    · rfl

/-! ### ADC_TRIGGER_SEEN (R279 to R282) -/

section seen
variable {d : Dev} {t x : Nat} {common : Bool}

theorem Dev.adcSeen_off (hoff : d.adcOn x = false) : d.adcSeen t x common = d := if_pos hoff

theorem Dev.adcSeen_ignored (hon : d.adcOn x = true) (hskips : (d.adc x).skips = true) : d.adcSeen t x common = d.bump (Reg.AN_Cx_SKIP x) := by
  simp [Dev.adcSeen, hon, hskips]

theorem Dev.adcSeen_starts (hon : d.adcOn x = true) (hskips : (d.adc x).skips = false) (hidle : (d.adc x).running = false) :
    d.adcSeen t x common = d.adcStart t x := by
  simp [Dev.adcSeen, hon, hskips, hidle]

theorem Dev.adcSeen_held (hon : d.adcOn x = true) (hskips : (d.adc x).skips = false) (hruns : (d.adc x).running = true)
    (hfree : (d.adc x).pending = false) :
    d.adcSeen t x common = if common then (d.setAdc x { d.adc x with pending := true }).bump Reg.AN_CNT_DESYNC
      else d.setAdc x { d.adc x with pending := true } := by
  simp [Dev.adcSeen, hon, hskips, hruns, hfree]

theorem Dev.adcSeen_overruns (hon : d.adcOn x = true) (hskips : (d.adc x).skips = false) (hruns : (d.adc x).running = true)
    (hheld : (d.adc x).pending = true) : d.adcSeen t x common = d.adcOverrun t x := by
  simp [Dev.adcSeen, hon, hskips, hruns, hheld]

/-- A trigger that is seen enters no fault record in the log. -/
theorem Dev.adcSeen_log (d : Dev) (t x : Nat) (common : Bool) : (d.adcSeen t x common).flt.log = d.flt.log := by
  obtain ⟨-, -, -, -, -, -, hover, -⟩ := d.adcOverrun_law t x
  unfold Dev.adcSeen
  dsimp only
  split_ifs
  · rfl
  · rw [Dev.bump_flt]
  · exact hover
  · rw [Dev.bump_flt]; rfl
  · rfl
  · rfl

end seen

/-- A start runs the converter's own entries where it hosts none (R278). -/
theorem Dev.adcStart_own {d : Dev} {x : Nat} (hguest : (d.adc x).guest = none) (t : Nat) :
    (d.adcStart t x).adc x = { d.adc x with
      running := true, items := (List.range (d.adcEntries x)).map (fun e => (x, e)), count := 0, sum := 0, first := none, overMark := false,
      settling := false, start := true, pending := false } := by
  simp [Dev.adcStart, hguest]

theorem Dev.rd_adcStart_same (d : Dev) (t x : Nat) : (d.adcStart t x).rd (Reg.AN_Cx_START x) = BitVec.ofNat 32 t := Dev.rd_wrN_same ..

theorem adcTriggerSeen_answers {s : State} (hr : s.running = true) (x : Fin 4) (dt : Nat) :
    let a := s.dev.adc x
    let own := (List.range (s.dev.fld (Reg.AN_Cx_CFG x) 4 1 + 1)).map (fun e => (x.val, e))
    let t0 := (s.clock.pass dt).dtime
    let skips := a.calFrom.isSome = true ∨ a.out = true ∨ a.faulted = true
    ∃ t, exec (.adcTriggerSeen dt x) s = .next t ∧ t.pending = s.pending ∧ t.mem = s.mem ∧ t.clock = s.clock.pass dt ∧ t.dev.flt.log = s.dev.flt.log ∧
      (a.sent = [] → t.dev = s.dev) ∧
      ∀ common more, a.sent = common :: more →
        (s.dev.adcOn x = false → t.dev.adc x = { a with sent := more } ∧ t.dev.regs = s.dev.regs) ∧
        (s.dev.adcOn x = true → skips → s.dev.rdN (Reg.AN_Cx_SKIP x) + 1 < 2 ^ 32 → t.dev.adc x = { a with sent := more } ∧
          t.dev.rdN (Reg.AN_Cx_SKIP x) = s.dev.rdN (Reg.AN_Cx_SKIP x) + 1) ∧
        (s.dev.adcOn x = true → ¬ skips → a.running = false → a.guest = none →
          (t.dev.adc x).running = true ∧ (t.dev.adc x).items = own ∧ (t.dev.adc x).start = true ∧ (t.dev.adc x).count = 0 ∧ (t.dev.adc x).sum = 0 ∧
          (t.dev.adc x).sent = more ∧ t.dev.rd (Reg.AN_Cx_START x) = BitVec.ofNat 32 t0) ∧
        (s.dev.adcOn x = true → ¬ skips → a.running = true → a.pending = false → t.dev.adc x = { a with sent := more, pending := true } ∧
          (common = true → s.dev.rdN Reg.AN_CNT_DESYNC + 1 < 2 ^ 32 → t.dev.rdN Reg.AN_CNT_DESYNC = s.dev.rdN Reg.AN_CNT_DESYNC + 1)) ∧
        (s.dev.adcOn x = true → ¬ skips → a.running = true → a.pending = true → s.dev.rdN (Reg.AN_Cx_OVR x) + 1 < 2 ^ 32 →
          t.dev.rdN (Reg.AN_Cx_OVR x) = s.dev.rdN (Reg.AN_Cx_OVR x) + 1 ∧ t.dev.bit (Reg.AN_Cx_FAULT x) 0 = true ∧ (t.dev.adc x).pending = true) := by
  intro a own t0 skips
  refine ⟨(s.pass dt).withDev (s.dev.adcTriggerSeen t0 x), by rw [exec, execAdcTriggerSeen, State.act_running (s.pass dt) _ hr]; rfl, rfl, rfl, rfl, ?_,
    fun hnone => ?_, fun common more hsent => ?_⟩
  · simp only [State.withDev_dev, Dev.adcTriggerSeen]
    split
    · rfl
    · rw [Dev.adcSeen_log]; rfl
  · exact (by simp only [Dev.adcTriggerSeen]; rw [hnone] : s.dev.adcTriggerSeen t0 x = s.dev)
  · obtain ⟨u, hu⟩ : ∃ u, u = s.dev.updAdc x (fun a => { a with sent := more }) := ⟨_, rfl⟩
    have hadc : u.adc x = { a with sent := more } := hu ▸ Dev.adc_updAdc_same ..
    have hrd : ∀ r, u.rd r = s.dev.rd r := fun r => hu ▸ rfl
    have hon : u.adcOn x = s.dev.adcOn x := Dev.bit_congr (hrd _) 0
    have hskips : (u.adc x).skips = true ↔ skips := by rw [hadc]; exact Adc.skips_iff a
    have hseen : ((s.pass dt).withDev (s.dev.adcTriggerSeen t0 x)).dev = u.adcSeen t0 x common := by
      simp only [State.withDev_dev, Dev.adcTriggerSeen]
      rw [hsent, hu]
    rw [hseen]
    refine ⟨fun hoff => ?_, fun hen hskip htop => ?_, fun hen hskip hidle hguest => ?_, fun hen hskip hruns hfree => ?_, fun hen hskip hruns hheld htop => ?_⟩
    · rw [Dev.adcSeen_off (hon.trans hoff)]
      exact ⟨hadc, hu ▸ rfl⟩
    · rw [Dev.adcSeen_ignored (hon.trans hen) (hskips.mpr hskip), Dev.adc_bump]
      have hsame : u.rdN (Reg.AN_Cx_SKIP x) = s.dev.rdN (Reg.AN_Cx_SKIP x) := congrArg BitVec.toNat (hrd _)
      exact ⟨hadc, (Dev.rdN_bumpBy_same u _ 1 (hsame ▸ htop)).trans (by rw [hsame])⟩
    · rw [Dev.adcSeen_starts (hon.trans hen) (Bool.eq_false_iff.mpr fun h => hskip (hskips.mp h)) (by rw [hadc]; exact hidle), Dev.rd_adcStart_same,
        Dev.adcStart_own (by rw [hadc]; exact hguest), hadc]
      have hentries : u.adcEntries x = s.dev.fld (Reg.AN_Cx_CFG x) 4 1 + 1 := congrArg (· + 1) (Dev.fld_congr (hrd _) 4 1)
      exact ⟨rfl, by rw [hentries], rfl, rfl, rfl, rfl, rfl⟩
    · rw [Dev.adcSeen_held (hon.trans hen) (Bool.eq_false_iff.mpr fun h => hskip (hskips.mp h)) (by rw [hadc]; exact hruns) (by rw [hadc]; exact hfree), hadc]
      have hsame : (u.setAdc x { a with sent := more, pending := true }).rdN Reg.AN_CNT_DESYNC = s.dev.rdN Reg.AN_CNT_DESYNC :=
        congrArg BitVec.toNat (hrd _)
      refine ⟨by split <;> simp, fun hcommon htop => ?_⟩
      rw [if_pos hcommon]
      exact (Dev.rdN_bumpBy_same _ _ 1 (hsame ▸ htop)).trans (by rw [hsame])
    · rw [Dev.adcSeen_overruns (hon.trans hen) (Bool.eq_false_iff.mpr fun h => hskip (hskips.mp h)) (by rw [hadc]; exact hruns) (by rw [hadc]; exact hheld)]
      obtain ⟨⟨r, n, hself⟩, -, hcount, hbit, -⟩ := u.adcOverrun_law t0 x
      have hsame : u.rdN (Reg.AN_Cx_OVR x) = s.dev.rdN (Reg.AN_Cx_OVR x) := congrArg BitVec.toNat (hrd _)
      refine ⟨(hcount (hsame ▸ htop)).trans (by rw [hsame]), hbit, ?_⟩
      rw [hself, hadc]
      exact hheld

/-! ### ADC_TRIGGER_TICK (R279, R282) -/

/-- An enabled member of the common source has an overrun (R279, R282). -/
def Dev.overrunIfOn (t : Nat) (d : Dev) (x : Nat) : Dev := if d.adcOn x then d.adcOverrun t x else d

theorem Dev.overrunIfOn_ana (t : Nat) (d : Dev) (x : Nat) : (d.overrunIfOn t x).ana = d.ana := by
  obtain ⟨-, -, -, -, -, -, -, hana⟩ := d.adcOverrun_law t x
  unfold Dev.overrunIfOn
  split
  · exact hana
  · rfl

/-- The overrun of one converter leaves the registers of another (R298). -/
theorem Dev.overrunIfOn_rd_other (t : Nat) (d : Dev) {x y a : Nat} (hx : x < 4) (h : y ≠ x) (hlo : Reg.AN_Cx_STATUS x ≤ a)
    (hhi : a < Reg.AN_Cx_STATUS (x + 1)) : (d.overrunIfOn t y).rd a = d.rd a := by
  obtain ⟨-, -, -, -, hrd, -⟩ := d.adcOverrun_law t y
  unfold Reg.AN_Cx_STATUS at hlo hhi
  unfold Dev.overrunIfOn
  split
  · exact hrd a (by unfold Reg.SV_LOG_LOST; omega) (by unfold Reg.AN_Cx_FAULT; omega) (by unfold Reg.AN_Cx_OVR; omega)
  · rfl

theorem Dev.overrunIfOn_counted (t : Nat) {l : List Nat} (hl : l.Nodup) {x : Nat} (hmem : x ∈ l) (hx : x < 4) (d : Dev) (hon : d.adcOn x = true)
    (htop : d.rdN (Reg.AN_Cx_OVR x) + 1 < 2 ^ 32) :
    (l.foldl (Dev.overrunIfOn t) d).rdN (Reg.AN_Cx_OVR x) = d.rdN (Reg.AN_Cx_OVR x) + 1 ∧
      (l.foldl (Dev.overrunIfOn t) d).bit (Reg.AN_Cx_FAULT x) 0 = true := by
  have hcfg : Reg.AN_Cx_STATUS x ≤ Reg.AN_Cx_CFG x ∧ Reg.AN_Cx_CFG x < Reg.AN_Cx_STATUS (x + 1) := by unfold Reg.AN_Cx_STATUS Reg.AN_Cx_CFG; omega
  have hovr : Reg.AN_Cx_STATUS x ≤ Reg.AN_Cx_OVR x ∧ Reg.AN_Cx_OVR x < Reg.AN_Cx_STATUS (x + 1) := by unfold Reg.AN_Cx_STATUS Reg.AN_Cx_OVR; omega
  have hflt : Reg.AN_Cx_STATUS x ≤ Reg.AN_Cx_FAULT x ∧ Reg.AN_Cx_FAULT x < Reg.AN_Cx_STATUS (x + 1) := by
    unfold Reg.AN_Cx_STATUS Reg.AN_Cx_FAULT; omega
  refine Dev.foldl_once (fun e => e.adcOn x = true ∧ e.rdN (Reg.AN_Cx_OVR x) = d.rdN (Reg.AN_Cx_OVR x))
    (fun e => e.rdN (Reg.AN_Cx_OVR x) = d.rdN (Reg.AN_Cx_OVR x) + 1 ∧ e.bit (Reg.AN_Cx_FAULT x) 0 = true) (Dev.overrunIfOn t)
    (fun e y hy he => ?_) (fun e he => ?_) (fun e y hy he => ?_) hl hmem d ⟨hon, rfl⟩
  · exact ⟨(Dev.bit_congr (e.overrunIfOn_rd_other t hx hy hcfg.1 hcfg.2) 0).trans he.1,
      (congrArg BitVec.toNat (e.overrunIfOn_rd_other t hx hy hovr.1 hovr.2)).trans he.2⟩
  · obtain ⟨-, -, hcount, hbit, -⟩ := e.adcOverrun_law t x
    rw [Dev.overrunIfOn, if_pos he.1, hcount (he.2 ▸ htop), he.2]
    exact ⟨rfl, hbit⟩
  · exact ⟨(congrArg BitVec.toNat (e.overrunIfOn_rd_other t hx hy hovr.1 hovr.2)).trans he.1,
      (Dev.bit_congr (e.overrunIfOn_rd_other t hx hy hflt.1 hflt.2) 0).trans he.2⟩

section tick
variable {d : Dev} {t who : Nat} {src : AdcSource}

theorem Dev.adcTick_unnamed (h : d.trigNames who src = false) : d.adcTick t who src = d := if_pos h

theorem Dev.adcTick_common (hnamed : d.trigNames 4 src = true) (hfree : d.ana.delay = none) :
    d.adcTick t 4 src = d.updAna (fun a => { a with delay := some (t + d.fld Reg.AN_COMMON_DELAY 24 0) }) := by
  simp [Dev.adcTick, hnamed, hfree]

theorem Dev.adcTick_common_busy (hnamed : d.trigNames 4 src = true) (hbusy : d.ana.delay.isSome = true) :
    d.adcTick t 4 src = d.adcMembers.foldl (Dev.overrunIfOn t) d := by
  obtain ⟨y, hy⟩ := Option.isSome_iff_exists.mp hbusy
  simp only [Dev.adcTick, hnamed, hy]; rfl

theorem Dev.adcTick_away (hwho : who ≠ 4) (h : d.adcCommon who = true ∨ d.adcOn who = false) : d.adcTick t who src = d := by
  simp [Dev.adcTick, hwho, h]

/-- A trigger tick that names an enabled converter of its own trigger (R279). -/
def Dev.ticked (d : Dev) (t who : Nat) : Dev :=
  if (d.adc who).skips then d.bump (Reg.AN_Cx_SKIP who)
  else if (d.adc who).delay.isSome then d.adcOverrun t who
  else d.updAdc who (fun a => { a with delay := some (t + d.fld (Reg.AN_Cx_DELAY who) 24 0) })

theorem Dev.adcTick_own (hnamed : d.trigNames who src = true) (hwho : who ≠ 4) (hcommon : d.adcCommon who = false) (hon : d.adcOn who = true) :
    d.adcTick t who src = d.ticked t who := by
  cases hdelay : (d.adc who).delay <;> simp [Dev.adcTick, Dev.ticked, hnamed, hwho, hcommon, hon, hdelay]

end tick

section
variable {s : State} (hr : s.running = true) (who : Fin 5) (src : AdcSource)
include hr

theorem exec_adcTriggerTick : exec (.adcTriggerTick ⟨who, src⟩) s = .next (s.withDev (s.dev.adcTick s.clock.dtime who src)) := by
  rw [exec, execAdcTriggerTick, State.act_running _ _ hr]; rfl

/-- A trigger tick that the settings do not name does nothing (R279; log 85). -/
theorem adcTriggerTick_unnamed (h : s.dev.trigNames who src = false) : exec (.adcTriggerTick ⟨who, src⟩) s = .next s := by
  rw [exec_adcTriggerTick hr]
  exact next_withDev_self (Dev.adcTick_unnamed h)

/-- A trigger tick of the common source starts its delay unit, or is an overrun of every enabled member (R279, R282). -/
theorem adcTriggerTick_common (hnamed : s.dev.trigNames who src = true) (hwho : who = 4) :
    (s.dev.ana.delay = none → ∃ t, exec (.adcTriggerTick ⟨who, src⟩) s = .next t ∧ deviceOnly s t ∧ t.dev.regs = s.dev.regs ∧ t.dev.an = s.dev.an ∧
      t.dev.ana.delay = some (s.clock.dtime + s.dev.fld Reg.AN_COMMON_DELAY 24 0)) ∧
    (s.dev.ana.delay.isSome = true → ∃ t, exec (.adcTriggerTick ⟨who, src⟩) s = .next t ∧ deviceOnly s t ∧ t.dev.ana = s.dev.ana ∧
      ∀ x, x < 4 → s.dev.adcCommon x = true → s.dev.adcOn x = true → s.dev.rdN (Reg.AN_Cx_OVR x) + 1 < 2 ^ 32 →
        t.dev.rdN (Reg.AN_Cx_OVR x) = s.dev.rdN (Reg.AN_Cx_OVR x) + 1 ∧ t.dev.bit (Reg.AN_Cx_FAULT x) 0 = true) := by
  subst hwho
  refine ⟨fun hfree => ⟨_, exec_adcTriggerTick hr 4 src, deviceOnly_withDev _ _, ?_⟩,
    fun hbusy => ⟨_, exec_adcTriggerTick hr 4 src, deviceOnly_withDev _ _, ?_⟩⟩
  · rw [State.withDev_dev, show ((4 : Fin 5) : Nat) = 4 from rfl, Dev.adcTick_common hnamed hfree]
    exact ⟨rfl, rfl, rfl⟩
  · rw [State.withDev_dev, show ((4 : Fin 5) : Nat) = 4 from rfl, Dev.adcTick_common_busy hnamed hbusy]
    exact ⟨Dev.foldl_keeps Dev.ana _ (Dev.overrunIfOn_ana _) _ _, fun x hx hmember hon htop =>
      Dev.overrunIfOn_counted _ (List.nodup_range.filter _) (List.mem_filter.mpr ⟨List.mem_range.mpr hx, hmember⟩) hx s.dev hon htop⟩

/-- A member of the common source has no trigger of its own, and a converter that is off has none (R279, R282). -/
theorem adcTriggerTick_away (hwho : who ≠ 4) (h : s.dev.adcCommon who = true ∨ s.dev.adcOn who = false) :
    exec (.adcTriggerTick ⟨who, src⟩) s = .next s := by
  rw [exec_adcTriggerTick hr]
  exact next_withDev_self (Dev.adcTick_away (fun hval => hwho (Fin.ext hval)) h)

/-- A trigger tick of a converter is ignored and counted, starts its delay unit, or is an overrun (R279). -/
theorem adcTriggerTick_own (hnamed : s.dev.trigNames who src = true) (hwho : who ≠ 4) (hcommon : s.dev.adcCommon who = false) (hon : s.dev.adcOn who = true) :
    ∃ t, exec (.adcTriggerTick ⟨who, src⟩) s = .next t ∧ deviceOnly s t ∧
      ((s.dev.adc who).skips = true → s.dev.rdN (Reg.AN_Cx_SKIP who) + 1 < 2 ^ 32 → t.dev.an = s.dev.an ∧
        t.dev.rdN (Reg.AN_Cx_SKIP who) = s.dev.rdN (Reg.AN_Cx_SKIP who) + 1) ∧
      ((s.dev.adc who).skips = false → (s.dev.adc who).delay = none →
        t.dev.adc who = { s.dev.adc who with delay := some (s.clock.dtime + s.dev.fld (Reg.AN_Cx_DELAY who) 24 0) } ∧ t.dev.regs = s.dev.regs) ∧
      ((s.dev.adc who).skips = false → (s.dev.adc who).delay.isSome = true → s.dev.rdN (Reg.AN_Cx_OVR who) + 1 < 2 ^ 32 →
        t.dev.rdN (Reg.AN_Cx_OVR who) = s.dev.rdN (Reg.AN_Cx_OVR who) + 1 ∧ t.dev.bit (Reg.AN_Cx_FAULT who) 0 = true) := by
  refine ⟨_, exec_adcTriggerTick hr who src, deviceOnly_withDev _ _, ?_⟩
  rw [State.withDev_dev, Dev.adcTick_own hnamed (fun hval => hwho (Fin.ext hval)) hcommon hon]
  refine ⟨fun hskips htop => ?_, fun hskips hfree => ?_, fun hskips hbusy htop => ?_⟩
  · rw [Dev.ticked, if_pos hskips]
    exact ⟨Dev.bump_an .., Dev.rdN_bumpBy_same _ _ 1 htop⟩
  · rw [Dev.ticked, if_neg (by simp [hskips]), if_neg (by simp [hfree])]
    exact ⟨Dev.adc_updAdc_same .., rfl⟩
  · obtain ⟨-, -, hcount, hbit, -⟩ := s.dev.adcOverrun_law s.clock.dtime who
    rw [Dev.ticked, if_neg (by simp [hskips]), if_pos hbusy]
    exact ⟨hcount htop, hbit⟩

end

/-! ### ADC_DELAY_EMIT (R279, R280, R282) -/

theorem Dev.adcEmit_own (d : Dev) {who : Nat} (h : who ≠ 4) : d.adcEmit who = d.updAdc who (fun a => { a with delay := none, sent := a.sent ++ [false] }) :=
  if_neg h

/-- The common delay unit sends its trigger to every member (R282). -/
theorem Dev.adcEmit_common (d : Dev) :
    (d.adcEmit 4).regs = d.regs ∧ (d.adcEmit 4).ana.delay = none ∧ ∀ x, x < 4 →
      (d.adcEmit 4).adc x = if d.adcCommon x then { d.adc x with sent := (d.adc x).sent ++ [true] } else d.adc x := by
  have hemit : d.adcEmit 4 = d.adcMembers.foldl (fun (d : Dev) x => d.updAdc x (fun a => { a with sent := a.sent ++ [true] }))
    (d.updAna (fun a => { a with delay := none })) := if_pos rfl
  obtain ⟨m, hm⟩ := Dev.foldl_updAdc_eq (fun _ a => { a with sent := a.sent ++ [true] }) d.adcMembers (d.updAna fun a => { a with delay := none })
  refine ⟨by rw [hemit, hm]; rfl, by rw [hemit, hm]; rfl, fun x hx => ?_⟩
  have hmembers : d.adcMembers.Nodup := List.nodup_range.filter _
  rw [hemit, Dev.adc_foldl_updAdc (fun _ a => { a with sent := a.sent ++ [true] }) hmembers]
  simp [Dev.adcMembers, hx]

theorem adcDelayEmit_sends {s : State} (hr : s.running = true) (who : Fin 5) {y : Nat} (hdue : s.dev.emitDue who = some y) :
    ∃ t, exec (.adcDelayEmit who) s = .next t ∧ t.pending = s.pending ∧ t.mem = s.mem ∧ t.clock = s.clock.reach y ∧
      t.dev.regs = s.dev.regs ∧ (who ≠ 4 → t.dev.adc who = { s.dev.adc who with delay := none, sent := (s.dev.adc who).sent ++ [false] }) ∧
      (who = 4 → t.dev.ana.delay = none ∧ ∀ x, x < 4 →
        t.dev.adc x = if s.dev.adcCommon x then { s.dev.adc x with sent := (s.dev.adc x).sent ++ [true] } else s.dev.adc x) := by
  refine ⟨(s.reach y).withDev (s.dev.adcEmit who), by rw [exec, execAdcDelayEmit, State.actDue_running s _ _ y hr hdue]; rfl, rfl, rfl, rfl, ?_⟩
  rw [State.withDev_dev]
  by_cases hwho : who = 4
  · subst hwho
    obtain ⟨hregs, hdelay, hsent⟩ := s.dev.adcEmit_common
    exact ⟨hregs, fun h => absurd rfl h, fun _ => ⟨hdelay, hsent⟩⟩
  · rw [Dev.adcEmit_own s.dev (fun hval => hwho (Fin.ext hval)), Dev.adc_updAdc_same]
    exact ⟨rfl, fun _ => rfl, fun h => absurd h hwho⟩

end Sys2Proof.Machine
end

section
/-! ## Converters: self-calibration on command, references, and sources at compliance (R287, R288, R290) -/

namespace Sys2Proof.Machine
open Sys2Proof.Claims

/-! ### A calibration that waits for the reference (R290) -/

theorem Dev.refReady_internal (d : Dev) : d.refReady 0 = true ↔ d.bit Reg.AN_REF_CFG 0 = true ∧ d.bit Reg.AN_REF_STATUS 0 = true := by
  simp [Dev.refReady]

theorem Dev.refReady_congr {d e : Dev} (h : e.regs = d.regs) (r : Nat) : e.refReady r = d.refReady r := by
  have hrd : ∀ a, e.rd a = d.rd a := fun a => by rw [Dev.rd, Dev.rd, h]
  unfold Dev.refReady
  simp only [Dev.bit_congr (hrd _)]

@[simp] theorem Dev.refReady_updAdc (d : Dev) (x : Nat) (f : Adc → Adc) (r : Nat) : (d.updAdc x f).refReady r = d.refReady r := Dev.refReady_congr rfl r

/-- What becomes of a converter whose calibration may start, with the internal reference ready or not (R290). -/
def Adc.calStarted (a : Adc) (t : Nat) (ready : Bool) : Adc :=
  if a.calWanted = true ∧ a.running = false ∧ a.faulted = false ∧ a.calFrom = none ∧ ready = true then { a with calWanted := false, calFrom := some t } else a

theorem Dev.calStart_regs (d : Dev) (t x : Nat) : (d.calStart t x).regs = d.regs := by
  unfold Dev.calStart; dsimp only; split <;> rfl

theorem Dev.adc_calStart_same (d : Dev) (t x : Nat) : (d.calStart t x).adc x = (d.adc x).calStarted t (d.refReady 0) := by
  unfold Dev.calStart Adc.calStarted
  dsimp only
  split
  · exact Dev.adc_setAdc_same ..
  · rfl

theorem Dev.adc_calStart_other (d : Dev) (t : Nat) {x y : Nat} (h : x ≠ y) : (d.calStart t y).adc x = d.adc x := by
  unfold Dev.calStart
  dsimp only
  split
  · exact Dev.adc_setAdc_other _ _ h
  · rfl

/-! ### ADC_SELF_CALIBRATE -/

/-- ADC_SELF_CALIBRATE at one converter, which it names or does not. -/
def Dev.askCal (t mask : Nat) (d : Dev) (x : Nat) : Dev :=
  if nbit mask x = true ∧ (d.adc x).faulted = false ∧ (d.adc x).calFrom = none then (d.updAdc x (fun a => { a with calWanted := true })).calStart t x else d

/-- What becomes of a converter that a calibration is asked of (R290). -/
def Adc.calAsked (a : Adc) (t : Nat) (asked ready : Bool) : Adc :=
  if asked = true ∧ a.faulted = false ∧ a.calFrom = none then
    (if a.running = false ∧ ready = true then { a with calWanted := false, calFrom := some t } else { a with calWanted := true })
  else a

theorem Dev.calCommand_eq (d : Dev) (t mask : Nat) : d.calCommand t mask = (List.range 4).foldl (Dev.askCal t mask) d := rfl

theorem Dev.askCal_regs (t mask : Nat) (d : Dev) (x : Nat) : (d.askCal t mask x).regs = d.regs := by
  unfold Dev.askCal
  split
  · exact Dev.calStart_regs ..
  · rfl

theorem Dev.adc_askCal_same (t mask : Nat) (d : Dev) (x : Nat) : (d.askCal t mask x).adc x = (d.adc x).calAsked t (nbit mask x) (d.refReady 0) := by
  unfold Dev.askCal Adc.calAsked
  split
  · next h =>
    rw [Dev.adc_calStart_same, Dev.adc_updAdc_same, Dev.refReady_updAdc]
    exact if_congr (by simp [h.2.1, h.2.2]) rfl rfl
  · rfl

theorem Dev.adc_askCal_other (t mask : Nat) (d : Dev) {x y : Nat} (h : x ≠ y) : (d.askCal t mask y).adc x = d.adc x := by
  unfold Dev.askCal
  split
  · exact (Dev.adc_calStart_other _ _ h).trans (Dev.adc_updAdc_other _ _ h)
  · rfl

theorem adcSelfCalibrate_starts {s : State} (hr : s.running = true) (mask : BitVec 4) :
    ∃ t, exec (.adcSelfCalibrate mask) s = .next t ∧ deviceOnly s t ∧ t.dev.regs = s.dev.regs ∧ ∀ x, x < 4 →
      let a := s.dev.adc x
      t.dev.adc x = if mask.toNat.testBit x = true ∧ a.faulted = false ∧ a.calFrom = none then
          (if a.running = false ∧ s.dev.bit Reg.AN_REF_CFG 0 = true ∧ s.dev.bit Reg.AN_REF_STATUS 0 = true
            then { a with calWanted := false, calFrom := some s.clock.dtime } else { a with calWanted := true })
        else a := by
  refine ⟨s.withDev (s.dev.calCommand s.clock.dtime mask.toNat), by rw [exec, execAdcSelfCalibrate, State.act_running _ _ hr]; rfl, deviceOnly_withDev _ _,
    Dev.foldl_keeps Dev.regs _ (Dev.askCal_regs _ _) _ _, fun x hx => ?_⟩
  rw [State.withDev_dev, Dev.calCommand_eq, Dev.adc_foldl (Dev.askCal s.clock.dtime mask.toNat) s.dev.regs
      (fun y a => a.calAsked s.clock.dtime (nbit mask.toNat y) (s.dev.refReady 0)) (Dev.askCal_regs _ _)
      (fun d y hd => (Dev.adc_askCal_same _ _ d y).trans (by rw [Dev.refReady_congr hd]))
      (fun d x y h => Dev.adc_askCal_other _ _ d h) List.nodup_range s.dev rfl x, if_pos (List.mem_range.mpr hx)]
  exact if_congr Iff.rfl (if_congr (and_congr_right' s.dev.refReady_internal) rfl rfl) rfl

/-! ### ADC_REFERENCE_READY (R287) -/

section reference
variable {s : State} (hr : s.running = true)
include hr

theorem adcReferenceReady_external {y : Nat} (hdue : s.dev.ana.extAt = some y) :
    ∃ t, exec (.adcReferenceReady true) s = .next t ∧ t.pending = s.pending ∧ t.mem = s.mem ∧ t.clock = s.clock.reach y ∧
      t.dev.bit Reg.AN_REF_STATUS 1 = true ∧ t.dev.ana.extAt = none ∧ t.dev.an = s.dev.an := by
  exact ⟨(s.reach y).withDev ((s.dev.updAna (fun a => { a with extAt := none })).flag Reg.AN_REF_STATUS 1),
    by rw [exec, execAdcReferenceReady, State.actDue_running s _ _ y hr hdue]; rfl, rfl, rfl, rfl, Dev.bit_flag _ _ (by decide), rfl, rfl⟩

theorem adcReferenceReady_internal {y : Nat} (hdue : s.dev.ana.intAt = some y) :
    ∃ t, exec (.adcReferenceReady false) s = .next t ∧ t.pending = s.pending ∧ t.mem = s.mem ∧ t.clock = s.clock.reach y ∧
      t.dev.bit Reg.AN_REF_STATUS 0 = true ∧ t.dev.ana.intAt = none ∧ ∀ x, x < 4 →
        let a := s.dev.adc x
        t.dev.adc x = if a.calWanted = true ∧ a.running = false ∧ a.faulted = false ∧ a.calFrom = none ∧ s.dev.bit Reg.AN_REF_CFG 0 = true
          then { a with calWanted := false, calFrom := some t.clock.dtime } else a := by
  obtain ⟨e, he⟩ : ∃ e, e = (s.dev.updAna (fun a => { a with intAt := none })).flag Reg.AN_REF_STATUS 0 := ⟨_, rfl⟩
  have hset : e.bit Reg.AN_REF_STATUS 0 = true := he ▸ Dev.bit_flag _ _ (by decide)
  have hcfg : e.bit Reg.AN_REF_CFG 0 = s.dev.bit Reg.AN_REF_CFG 0 := he ▸ Dev.bit_congr (Dev.rd_flag_other _ _ (by decide)) 0
  have hready : e.refReady 0 = s.dev.bit Reg.AN_REF_CFG 0 := by rw [Dev.refReady, hcfg, hset, Bool.and_true]
  obtain ⟨now, hnow⟩ : ∃ now, now = (s.clock.reach y).dtime := ⟨_, rfl⟩
  refine ⟨(s.reach y).withDev ((List.range 4).foldl (fun (d : Dev) x => d.calStart now x) e),
    by rw [exec, execAdcReferenceReady, State.actDue_running s _ _ y hr hdue, he, hnow]; rfl, rfl, rfl, rfl, ?_, ?_, fun x hx => ?_⟩
  · rw [State.withDev_dev, ← hset]
    exact Dev.foldl_keeps (fun d => d.bit Reg.AN_REF_STATUS 0) _ (fun d x => Dev.bit_congr (by rw [Dev.rd, Dev.calStart_regs]; rfl) 0) _ _
  · rw [State.withDev_dev]
    refine (Dev.foldl_keeps (fun d => d.ana.intAt) _ (fun d x => ?_) _ e).trans (by rw [he]; rfl)
    unfold Dev.calStart; dsimp only; split <;> rfl
  · refine ((Dev.adc_foldl _ e.regs (fun _ a => a.calStarted now (e.refReady 0)) (fun d x => Dev.calStart_regs d now x)
      (fun d y hd => (Dev.adc_calStart_same d now y).trans (by rw [Dev.refReady_congr hd]))
      (fun d x y h => Dev.adc_calStart_other d now h) List.nodup_range e rfl x).trans (if_pos (List.mem_range.mpr hx))).trans ?_
    rw [hready, hnow, show e.adc x = s.dev.adc x from he ▸ rfl]
    rfl

/-! ### EXTERNAL_REFERENCE_LOW (R287) -/

theorem externalReferenceLow_recorded :
    ∃ t, exec (.externalReferenceLow true) s = .next t ∧ deviceOnly s t ∧ t.dev.bit Reg.AN_REF_STATUS 2 = true ∧ t.dev.bit Reg.AN_FAULT 0 = true ∧
      recorded s.dev t.dev ⟨s.clock.dtime, uid 12 4 5, 8, 2⟩ := by
  refine ⟨s.withDev ((s.dev.flag Reg.AN_REF_STATUS 2).faultFlag s.clock.dtime (uid 12 4 5) 0x0008 2 Reg.AN_FAULT 0),
    by rw [exec, execExternalReferenceLow, State.act_running _ _ hr]; rfl, deviceOnly_withDev _ _, ?_, Dev.bit_faultFlag _ _ _ _ _ (by decide) (by decide),
    recorded_faultFlag (Dev.flag_flt _ _ _) s.clock.dtime (uid 12 4 5) 0x0008 2 Reg.AN_FAULT 0⟩
  exact (Dev.bit_congr (Dev.rd_faultFlag_other _ _ _ _ _ _ _ (by decide) (by decide)) 2).trans (Dev.bit_flag _ _ (by decide))

theorem externalReferenceLow_over :
    ∃ t, exec (.externalReferenceLow false) s = .next t ∧ deviceOnly s t ∧ t.dev.bit Reg.AN_REF_STATUS 2 = false ∧ t.dev.flt = s.dev.flt := by
  refine ⟨s.withDev (s.dev.clrBits Reg.AN_REF_STATUS (4 : Word).toNat), by rw [exec, execExternalReferenceLow, State.act_running _ _ hr]; rfl,
    deviceOnly_withDev _ _, ?_, rfl⟩
  rw [State.withDev_dev, Dev.bit_clrBits]
  exact Bool.and_eq_false_imp.mpr fun _ => rfl

end reference

/-! ### EXCITATION_AT_COMPLIANCE (R288) -/

/-- What a source drives rests on its settings, the converters, and the entries that run. -/
theorem Dev.iexNow_congr {d e : Dev} (han : e.an = d.an) (hrd : ∀ a, a ≠ Reg.AN_FAULT → e.rd a = d.rd a) (n : Nat) : e.iexNow n = d.iexNow n := by
  have hrdN : ∀ {a}, a ≠ Reg.AN_FAULT → e.rdN a = d.rdN a := fun h => congrArg BitVec.toNat (hrd _ h)
  have hsource : e.rdN (Reg.AN_IEXn_CFG n) = d.rdN (Reg.AN_IEXn_CFG n) := hrdN (by unfold Reg.AN_IEXn_CFG Reg.AN_FAULT; omega)
  have hon : ∀ o, e.adcOn o = d.adcOn o := fun o => Dev.bit_congr (hrd _ (by unfold Reg.AN_Cx_CFG Reg.AN_FAULT; omega)) 0
  have hroute : ∀ o i, e.entryRoute n o i = d.entryRoute n o i := fun o i => by
    simp only [Dev.entryRoute, hrdN (show Reg.AN_Cx_Ee_EXC o i ≠ Reg.AN_FAULT by unfold Reg.AN_Cx_Ee_EXC Reg.AN_FAULT; omega)]
  simp only [Dev.iexNow, hsource, hon, hroute, Dev.adc_congr han]

/-- A source at its compliance limit sets its flag, and has one record in a run (R288). -/
theorem excitationAtCompliance_records {s : State} (hr : s.running = true) (n : Fin 2) (at_ : Bool) :
    ∃ t, exec (.excitationAtCompliance n at_) s = .next t ∧ deviceOnly s t ∧ t.dev.ana.comply = s.dev.ana.comply.set n at_ ∧
      (at_ = false ∨ s.dev.ana.told.getD n false = true → t.dev.flt = s.dev.flt) ∧
      (at_ = true → t.dev.bit Reg.AN_FAULT 1 = true ∧ (s.dev.ana.told.getD n false = false →
        recorded s.dev t.dev ⟨s.clock.dtime, uid 12 5 (n + 1), 9, BitVec.ofNat 32 (s.dev.iexPin n)⟩)) := by
  obtain ⟨u, hu⟩ : ∃ u, u = s.dev.updAna (fun a => { a with comply := a.comply.set n at_, told := a.told.set n (s.dev.ana.told.getD n false || at_) }) :=
    ⟨_, rfl⟩
  have hlimit : s.dev.atCompliance s.clock.dtime n at_ = if at_ then (if s.dev.ana.told.getD n false then u.flag Reg.AN_FAULT 1
      else (u.flag Reg.AN_FAULT 1).fault s.clock.dtime (uid 12 5 (n + 1)) 0x0009 ((u.flag Reg.AN_FAULT 1).iexPin n)) else u := hu ▸ rfl
  refine ⟨s.withDev (s.dev.atCompliance s.clock.dtime n at_), by rw [exec, execExcitationAtCompliance, State.act_running _ _ hr]; rfl,
    deviceOnly_withDev _ _, ?_⟩
  rw [State.withDev_dev, hlimit]
  have hana : u.ana.comply = s.dev.ana.comply.set n at_ := hu ▸ rfl
  have hflt : u.flt = s.dev.flt := hu ▸ rfl
  have hpin : (u.flag Reg.AN_FAULT 1).iexPin n = s.dev.iexPin n := by
    have han : (u.flag Reg.AN_FAULT 1).an = s.dev.an := hu ▸ rfl
    have hrd : ∀ a, a ≠ Reg.AN_FAULT → (u.flag Reg.AN_FAULT 1).rd a = s.dev.rd a := fun a ha => by rw [Dev.rd_flag_other _ _ ha, hu]; rfl
    rw [Dev.iexPin, Dev.iexPin, Dev.iexNow_congr han hrd]
  cases at_ with
  | false => exact ⟨hana, fun _ => hflt, fun h => absurd h Bool.false_ne_true⟩
  | true =>
    rw [if_pos rfl]
    cases htold : s.dev.ana.told.getD n false with
    | true => exact ⟨hana, fun _ => hflt, fun _ => ⟨Dev.bit_flag _ _ (by decide), fun h => absurd h Bool.true_eq_false.mp⟩⟩
    | false =>
      rw [if_neg Bool.false_ne_true, hpin]
      exact ⟨by rw [Dev.fault_ana]; exact hana, fun h => by simp at h,
        fun _ => ⟨Dev.bit_faultFlag u _ _ _ _ (by decide) (by decide), fun _ => recorded_faultFlag hflt _ _ _ _ _ _⟩⟩

end Sys2Proof.Machine
end

section
/-! ## Converters: what the return and the migration of entries leave (R279, R285, R287, R292, R293) -/

namespace Sys2Proof.Machine
open Sys2Proof.Claims

/-! ### What stands -/

/-- The registers in which the course of the converters shows: those of a converter but its entries and its factors, AN_REF_STATUS, and the
count of lost records (R298). -/
def courseReg (a : Nat) : Prop := (Reg.AN_Cx_STATUS 0 ≤ a ∧ a < Reg.AN_Cx_OFFg 0 0) ∨ a = Reg.AN_REF_STATUS ∨ a = Reg.SV_LOG_LOST

/-- From a to b the converter has neither faulted, nor been calibrated, nor been sent a trigger, and a faulted one has not started. -/
def Adc.stands (a b : Adc) : Prop :=
  b.faulted = a.faulted ∧ b.calFrom = a.calFrom ∧ b.cals = a.cals ∧ b.sent = a.sent ∧ b.delay = a.delay ∧
    (a.faulted = true → b.running = a.running ∧ b.items = a.items)

/-- From d to e entries may have moved and returned, markers may have been queued and sequences may have started: every converter stands in
what `Adc.stands` names, its factors and settings too, and no flag has been cleared. -/
def Dev.adcStands (d e : Dev) : Prop :=
  (∀ a, ¬ courseReg a → e.rd a = d.rd a) ∧ (∀ o i, i < 32 → d.bit (Reg.AN_Cx_FAULT o) i = true → e.bit (Reg.AN_Cx_FAULT o) i = true) ∧
    ∀ o, (d.adc o).stands (e.adc o)

theorem Adc.stands_refl (a : Adc) : a.stands a := ⟨rfl, rfl, rfl, rfl, rfl, fun _ => ⟨rfl, rfl⟩⟩

theorem Adc.stands.trans {a b c : Adc} (h : a.stands b) (h' : b.stands c) : a.stands c := by
  obtain ⟨hfaulted, hfrom, hcals, hsent, hdelay, hstill⟩ := h
  obtain ⟨hfaulted', hfrom', hcals', hsent', hdelay', hstill'⟩ := h'
  refine ⟨hfaulted'.trans hfaulted, hfrom'.trans hfrom, hcals'.trans hcals, hsent'.trans hsent, hdelay'.trans hdelay, fun h => ?_⟩
  obtain ⟨hruns, hitems⟩ := hstill h
  obtain ⟨hruns', hitems'⟩ := hstill' (hfaulted.trans h)
  exact ⟨hruns'.trans hruns, hitems'.trans hitems⟩

theorem Dev.adcStands_refl (d : Dev) : d.adcStands d := ⟨fun _ _ => rfl, fun _ _ _ h => h, fun _ => Adc.stands_refl _⟩

theorem Dev.adcStands.trans {d e f : Dev} (h : d.adcStands e) (h' : e.adcStands f) : d.adcStands f := by
  obtain ⟨hrd, hbit, hadc⟩ := h
  obtain ⟨hrd', hbit', hadc'⟩ := h'
  exact ⟨fun a ha => (hrd' a ha).trans (hrd a ha), fun o i hi hb => hbit' o i hi (hbit o i hi hb), fun o => (hadc o).trans (hadc' o)⟩

theorem Dev.adcStands_foldl {α : Type} (f : Dev → α → Dev) (l : List α) (h : ∀ (d : Dev), ∀ x ∈ l, d.adcStands (f d x)) (d : Dev) :
    d.adcStands (l.foldl f d) :=
  List.foldlRecOn l f d.adcStands_refl fun e he x hx => he.trans (h e x hx)

/-- A converter is set anew, with what stood before. -/
theorem Dev.adcStands.setAdc {d e : Dev} (h : d.adcStands e) {x : Nat} {a : Adc} (ha : (d.adc x).stands a) : d.adcStands (e.setAdc x a) := by
  obtain ⟨hrd, hbit, hadc⟩ := h
  refine ⟨hrd, hbit, fun o => ?_⟩
  rw [Dev.adc_setAdc]
  split
  · next ho => exact ho ▸ ha
  · exact hadc o

theorem Dev.adcStands_updAdc (d : Dev) (x : Nat) {f : Adc → Adc} (h : (d.adc x).stands (f (d.adc x))) : d.adcStands (d.updAdc x f) :=
  d.adcStands_refl.setAdc h

/-- A register in which the course of the converters shows, and which holds no flag of theirs, is written. -/
theorem Dev.adcStands_of_reg {d e : Dev} {r : Nat} (hr : courseReg r) (hflag : ∀ o, r ≠ Reg.AN_Cx_FAULT o) (han : e.an = d.an)
    (hrd : ∀ a, a ≠ r → e.rd a = d.rd a) : d.adcStands e :=
  ⟨fun a ha => hrd a fun h => ha (h ▸ hr), fun o i _ hb => (Dev.bit_congr (hrd _ fun h => hflag o h.symm) i).trans hb,
    fun o => Dev.adc_congr han o ▸ Adc.stands_refl _⟩

theorem courseReg_fault {x : Nat} (hx : x < 4) : courseReg (Reg.AN_Cx_FAULT x) := by
  unfold courseReg Reg.AN_Cx_STATUS Reg.AN_Cx_FAULT Reg.AN_Cx_OFFg; omega

theorem Dev.adcStands_flag (d : Dev) {x : Nat} (hx : x < 4) (i : Nat) : d.adcStands (d.flag (Reg.AN_Cx_FAULT x) i) :=
  ⟨fun _ ha => Dev.rd_flag_other d i fun h => ha (h ▸ courseReg_fault hx), fun _ _ hj hb => Dev.bit_flag_mono d _ i hj hb, fun _ => Adc.stands_refl _⟩

theorem lost_ne_fault (o : Nat) : Reg.SV_LOG_LOST ≠ Reg.AN_Cx_FAULT o := by unfold Reg.SV_LOG_LOST Reg.AN_Cx_FAULT; omega

theorem Dev.adcStands_anFault (d : Dev) (t : Nat) {x : Nat} (hx : x < 4) (el code detail i : Nat) : d.adcStands (d.anFault t x el code detail i) :=
  (d.adcStands_flag hx i).trans (Dev.adcStands_of_reg (.inr (.inr rfl)) lost_ne_fault (Dev.fault_an ..) fun _ ha => Dev.rd_fault_other _ _ _ _ _ ha)

theorem Dev.flagged.adcStands {d e : Dev} {x i : Nat} (h : d.flagged x i e) (hx : x < 4) : d.adcStands e := by
  obtain ⟨⟨r, hself⟩, hothers, hrd, -⟩ := id h
  refine ⟨fun a ha => h.rd_other (fun hl => ha (.inr (.inr hl))) (fun hf => ha (hf ▸ courseReg_fault hx)),
    fun o j hj hb => h.bit_mono (lost_ne_fault o).symm hj hb, fun o => ?_⟩
  by_cases ho : o = x
  · rw [ho, hself]; exact Adc.stands_refl _
  · rw [hothers o ho]; exact Adc.stands_refl _

/-! ### Markers, starts, returns and migration -/

theorem Dev.adcStands_adcPush (d : Dev) (t : Nat) {x : Nat} (hx : x < 4) (o el word stamp : Nat) (result : Bool) :
    d.adcStands (d.adcPush t x o el word stamp result) := by
  have hdrop : d.adcStands (d.bump (Reg.AN_Cx_DROP x)) :=
    Dev.adcStands_of_reg (by unfold courseReg Reg.AN_Cx_STATUS Reg.AN_Cx_DROP Reg.AN_Cx_OFFg; omega)
      (fun o => by unfold Reg.AN_Cx_DROP Reg.AN_Cx_FAULT; omega) (Dev.bump_an ..) fun _ ha => Dev.rd_bump_other d ha
  unfold Dev.adcPush
  dsimp only
  split
  · exact d.adcStands_refl.setAdc (Adc.stands_refl _)
  · exact hdrop.trans ((Dev.flagged_anLimited ..).adcStands hx)

theorem Dev.adcStands_adcStart (d : Dev) (t : Nat) {x : Nat} (hx : x < 4) (hok : (d.adc x).faulted = false) : d.adcStands (d.adcStart t x) := by
  obtain ⟨a, hstart, ha⟩ : ∃ a, d.adcStart t x = (d.setAdc x a).wrN (Reg.AN_Cx_START x) t ∧ (d.adc x).stands a :=
    ⟨_, rfl, rfl, rfl, rfl, rfl, rfl, fun h => absurd h (by simp [hok])⟩
  rw [hstart]
  exact (d.adcStands_refl.setAdc ha).trans (Dev.adcStands_of_reg (r := Reg.AN_Cx_START x)
    (by unfold courseReg Reg.AN_Cx_STATUS Reg.AN_Cx_START Reg.AN_Cx_OFFg; omega) (fun o => by unfold Reg.AN_Cx_START Reg.AN_Cx_FAULT; omega) rfl
    fun _ ha => Dev.rd_wrN_other _ _ ha)

theorem Dev.adcStands_adcGoesOn (d : Dev) (t : Nat) {x : Nat} (hx : x < 4) : d.adcStands (d.adcGoesOn t x) := by
  unfold Dev.adcGoesOn
  dsimp only
  split
  · next h =>
    obtain ⟨-, -, -, hidle, -⟩ := h
    exact d.adcStands_adcStart t hx (by simp only [Adc.idle, Bool.and_eq_true, Bool.not_eq_true'] at hidle; exact hidle.1.2)
  · exact d.adcStands_refl

theorem Dev.adcStands_adcReturn (d : Dev) (t : Nat) {x : Nat} (hx : x < 4) : d.adcStands (d.adcReturn t x) := by
  have hguests : d.adcStands ((List.range 4).foldl (fun (d : Dev) p => d.updAdc p (fun a => if a.guest = some x then { a with guest := none } else a)) d) :=
    Dev.adcStands_foldl _ _ (fun e p _ => e.adcStands_updAdc p (by split <;> exact Adc.stands_refl _)) d
  unfold Dev.adcReturn
  extract_lets a e f
  have hf : d.adcStands f := hguests.setAdc ⟨rfl, rfl, rfl, rfl, rfl, fun _ => ⟨rfl, rfl⟩⟩
  exact (hf.trans (f.adcStands_adcPush t hx x 0 _ t false)).trans (Dev.adcStands_adcGoesOn _ t hx)

theorem Dev.adcStands_adcReturns (d : Dev) (t p : Nat) : d.adcStands (d.adcReturns t p) :=
  Dev.adcStands_foldl _ _ (fun e o ho => by
    split
    · exact e.adcStands_adcReturn t (List.mem_range.mp ho)
    · exact e.adcStands_refl) d

theorem Dev.adcStands_adcMayReturn (d : Dev) (t x : Nat) : d.adcStands (d.adcMayReturn t x) := by
  unfold Dev.adcMayReturn
  split
  · exact d.adcStands_refl
  · exact d.adcStands_adcReturns t _

theorem Dev.adcStands_adcMigrate (d : Dev) (t : Nat) {x : Nat} (hx : x < 4) : d.adcStands (d.adcMigrate t x) := by
  unfold Dev.adcMigrate
  extract_lets p q usable all moved stopped e f
  have he : d.adcStands e := d.adcStands_updAdc x (Adc.stands_refl _)
  have hf : e.adcStands f := by
    unfold f
    split
    · exact e.adcStands_refl
    · exact (e.adcStands_updAdc p (Adc.stands_refl _)).trans (Dev.adcStands_anFault _ t hx ..)
  split
  · exact he.trans hf
  · exact (he.trans hf).trans (f.adcStands_anFault t hx ..)

/-- Where no converter waits to return, a boundary returns none (R292). -/
theorem Dev.adcReturns_none {d : Dev} (h : ∀ o, o < 4 → (d.adc o).back = false) (t p : Nat) : d.adcReturns t p = d :=
  Dev.foldl_fixed _ _ d fun o ho => if_neg (by simp [h o (List.mem_range.mp ho)])

/-! ### The pair of cells and the trims chosen (R287, R457) -/

/-- A converter at a SEQUENCE boundary takes the pair and the codes chosen (R287, R457). -/
def Adc.takesTrims (mask : Nat) (codes : List Int) (a : Adc) : Adc := if a.running then a else { a with pair := mask, cells := codes }

theorem Adc.takesTrims_eq (mask : Nat) (codes : List Int) (a : Adc) : ∃ p c, a.takesTrims mask codes = { a with pair := p, cells := c } := by
  unfold Adc.takesTrims
  split <;> exact ⟨_, _, rfl⟩

/-- The converters and the sources have taken what was chosen; AN_REF_STATUS shows the old pair yet. -/
def Dev.trimsTaken (d : Dev) : Dev :=
  (List.range 2).foldl Dev.takeSource ((List.range 4).foldl (fun (d' : Dev) x => d'.updAdc x (Adc.takesTrims (2 ^ d.trim.pair.1 + 2 ^ d.trim.pair.2)
    (d.trim.codes.take 4))) d)

theorem Dev.takeTrims_eq (d : Dev) : d.takeTrims = if (List.range 4).all (fun x => decide ((d.trimsTaken.adc x).pair = 2 ^ d.trim.pair.1 + 2 ^ d.trim.pair.2))
    then d.trimsTaken.putFld Reg.AN_REF_STATUS 7 4 (2 ^ d.trim.pair.1 + 2 ^ d.trim.pair.2) else d.trimsTaken := rfl

/-- A source at its boundary changes the trims alone. -/
theorem Dev.takeSource_keeps (d : Dev) (n : Nat) :
    ((d.takeSource n).an, (d.takeSource n).regs, (d.takeSource n).ev, (d.takeSource n).flt) = (d.an, d.regs, d.ev, d.flt) := by
  unfold Dev.takeSource
  split <;> rfl

theorem Dev.trimsTaken_law (d : Dev) :
    (∀ o, ∃ p c, d.trimsTaken.adc o = { d.adc o with pair := p, cells := c }) ∧ d.trimsTaken.regs = d.regs ∧ d.trimsTaken.ev = d.ev ∧
      d.trimsTaken.flt = d.flt := by
  obtain ⟨f, hf⟩ : ∃ f, f = Adc.takesTrims (2 ^ d.trim.pair.1 + 2 ^ d.trim.pair.2) (d.trim.codes.take 4) := ⟨_, rfl⟩
  obtain ⟨m, hm⟩ := Dev.foldl_updAdc_eq (fun _ => f) (List.range 4) d
  have hkeeps := Dev.foldl_keeps (fun e => (e.an, e.regs, e.ev, e.flt)) Dev.takeSource Dev.takeSource_keeps (List.range 2) { d with an := m }
  have htaken : d.trimsTaken = (List.range 2).foldl Dev.takeSource { d with an := m } := by rw [← hm, hf]; rfl
  rw [← htaken] at hkeeps
  obtain ⟨han, hregs, hev, hflt⟩ : d.trimsTaken.an = m ∧ d.trimsTaken.regs = d.regs ∧ d.trimsTaken.ev = d.ev ∧ d.trimsTaken.flt = d.flt := by
    simpa only [Prod.mk.injEq] using hkeeps
  refine ⟨fun o => ?_, hregs, hev, hflt⟩
  rw [Dev.adc_congr (han.trans (congrArg Dev.an hm).symm), Dev.adc_foldl_updAdc _ List.nodup_range]
  split
  · exact hf ▸ Adc.takesTrims_eq _ _ _
  · exact ⟨_, _, rfl⟩

theorem Dev.putFld_swaps (d : Dev) (a hi lo v : Nat) : (d.putFld a hi lo v).regs.swaps = d.regs.swaps := rfl

theorem Dev.takeTrims_law (d : Dev) :
    (∀ o, ∃ p c, d.takeTrims.adc o = { d.adc o with pair := p, cells := c }) ∧ (∀ a, a ≠ Reg.AN_REF_STATUS → d.takeTrims.rd a = d.rd a) ∧
      d.takeTrims.ev = d.ev ∧ d.takeTrims.flt = d.flt ∧ d.takeTrims.regs.swaps = d.regs.swaps := by
  obtain ⟨hadc, hregs, hev, hflt⟩ := d.trimsTaken_law
  have hrd : ∀ a, d.trimsTaken.rd a = d.rd a := fun a => by rw [Dev.rd, Dev.rd, hregs]
  rw [Dev.takeTrims_eq]
  split
  · refine ⟨fun o => ?_, fun a ha => ?_, ?_, ?_, ?_⟩
    · rw [Dev.adc_putFld]; exact hadc o
    · rw [Dev.rd_putFld_other _ _ _ _ ha]; exact hrd a
    · rw [Dev.putFld_ev]; exact hev
    · rw [Dev.putFld_flt]; exact hflt
    · rw [Dev.putFld_swaps, hregs]
  · exact ⟨hadc, fun a _ => hrd a, hev, hflt, congrArg Regs.swaps hregs⟩

theorem Dev.adcStands_takeTrims (d : Dev) : d.adcStands d.takeTrims := by
  obtain ⟨hadc, hrd, -⟩ := d.takeTrims_law
  refine ⟨fun a ha => hrd a fun h => ha (.inr (.inl h)), fun o i _ hb => ?_, fun o => ?_⟩
  · rw [Dev.bit_congr (hrd (Reg.AN_Cx_FAULT o) (by unfold Reg.AN_Cx_FAULT Reg.AN_REF_STATUS; omega))]
    exact hb
  · obtain ⟨p, c, ho⟩ := hadc o
    rw [ho]
    exact Adc.stands_refl _

/-! ### Runs of the sources (R288) -/

/-- Where nothing has changed, what is known of the runs of the two sources stands. -/
theorem Dev.iexAfter_self {d : Dev} (h : d.ana.told.length = 2) : d.iexAfter d = d := by
  have htold : (List.range 2).map (fun n => d.ana.told.getD n false && decide (d.iexNow n = d.iexNow n)) = d.ana.told := by
    obtain ⟨p, q, hpq⟩ := List.length_eq_two.mp h
    simp [hpq, List.range_succ]
  dsimp only [Dev.iexAfter, Dev.updAna]
  rw [htold]

end Sys2Proof.Machine
end

section
/-! ## Converters: the end of a calibration, and faults (R290, R292, R294) -/

namespace Sys2Proof.Machine
open Sys2Proof.Claims

/-! ### One gain (R290) -/

theorem not_courseReg_off {x g : Nat} (hx : x < 4) (hg : g < 8) : ¬ courseReg (Reg.AN_Cx_OFFg x g) := by
  unfold courseReg Reg.AN_Cx_STATUS Reg.AN_Cx_OFFg Reg.AN_REF_STATUS Reg.SV_LOG_LOST; omega

theorem not_courseReg_fs {x g : Nat} (hx : x < 4) (hg : g < 8) : ¬ courseReg (Reg.AN_Cx_FSg x g) := by
  unfold courseReg Reg.AN_Cx_STATUS Reg.AN_Cx_OFFg Reg.AN_Cx_FSg Reg.AN_REF_STATUS Reg.SV_LOG_LOST; omega

/-- A measured offset and span that give a gain its factors (R290). -/
abbrev gainGood (o q : Int) : Prop := o.natAbs ≤ 2 ^ 20 ∧ 6606029 ≤ q ∧ q ≤ 8074035

theorem Dev.calGain_good (d : Dev) (t x g : Nat) {o m : Int} (h : gainGood o (m - o)) :
    d.calGain t x g o m = (d.wrN (Reg.AN_Cx_OFFg x g) (unsgn 24 o)).wrN (Reg.AN_Cx_FSg x g) (roundDiv (7340032 * 2 ^ 22) (m - o).toNat).toNat := by
  obtain ⟨ho, hlo, hhi⟩ := h
  rw [Dev.calGain, if_neg (by omega), if_neg (by omega)]

theorem Dev.calGain_bad (d : Dev) (t x g : Nat) {o m : Int} (h : ¬ gainGood o (m - o)) : ∃ code, d.calGain t x g o m = d.anFault t x 0 4 code 3 := by
  unfold gainGood at h
  unfold Dev.calGain
  split
  · exact ⟨_, rfl⟩
  · rw [if_pos (by omega)]
    exact ⟨_, rfl⟩

theorem Dev.calGain_an (d : Dev) (t x g : Nat) (o m : Int) : (d.calGain t x g o m).an = d.an := by
  by_cases h : gainGood o (m - o)
  · rw [Dev.calGain_good d t x g h]; rfl
  · obtain ⟨code, hbad⟩ := Dev.calGain_bad d t x g h
    rw [hbad, Dev.anFault, Dev.faultFlag_an]

/-- The registers of another gain stand, and flags of the converter stay. -/
theorem Dev.calGain_other (d : Dev) (t : Nat) {x y g : Nat} (hx : x < 4) (hg : g < 8) (hy : y ≠ g) (o m : Int) :
    (d.calGain t x y o m).rd (Reg.AN_Cx_OFFg x g) = d.rd (Reg.AN_Cx_OFFg x g) ∧ (d.calGain t x y o m).rd (Reg.AN_Cx_FSg x g) = d.rd (Reg.AN_Cx_FSg x g) ∧
      (d.bit (Reg.AN_Cx_FAULT x) 3 = true → (d.calGain t x y o m).bit (Reg.AN_Cx_FAULT x) 3 = true) := by
  by_cases h : gainGood o (m - o)
  · rw [Dev.calGain_good d t x y h]
    have hrd : ∀ a v w, a ≠ Reg.AN_Cx_OFFg x y → a ≠ Reg.AN_Cx_FSg x y → ((d.wrN (Reg.AN_Cx_OFFg x y) v).wrN (Reg.AN_Cx_FSg x y) w).rd a = d.rd a :=
      fun a v w hoff hfs => by rw [Dev.rd_wrN_other _ _ hfs, Dev.rd_wrN_other _ _ hoff]
    unfold Reg.AN_Cx_OFFg Reg.AN_Cx_FSg at hrd ⊢
    exact ⟨hrd _ _ _ (by omega) (by omega), hrd _ _ _ (by omega) (by omega),
      fun hb => (Dev.bit_congr (hrd _ _ _ (by unfold Reg.AN_Cx_FAULT; omega) (by unfold Reg.AN_Cx_FAULT; omega)) 3).trans hb⟩
  · obtain ⟨code, hbad⟩ := Dev.calGain_bad d t x y h
    obtain ⟨hrd, hbit, -⟩ := d.adcStands_anFault t hx 0 4 code 3
    rw [hbad]
    exact ⟨hrd _ (not_courseReg_off hx hg), hrd _ (not_courseReg_fs hx hg), hbit x 3 (by decide)⟩

theorem roundDiv_natCast (n b : Nat) : roundDiv n b = ((2 * n + b) / (2 * b) : Nat) := by
  rw [roundDiv, if_pos (Int.natCast_nonneg n)]
  norm_cast

/-- What a calibration leaves of gain g of a converter, by its two measurements (R290). -/
def gainLeft (d e : Dev) (x g : Nat) (o q : Int) : Prop :=
  if gainGood o q then e.rd (Reg.AN_Cx_OFFg x g) = BitVec.ofNat 32 (unsgn 24 o) ∧
    e.rdN (Reg.AN_Cx_FSg x g) = (2 * (7340032 * 2 ^ 22) + q.toNat) / (2 * q.toNat)
  else e.rd (Reg.AN_Cx_OFFg x g) = d.rd (Reg.AN_Cx_OFFg x g) ∧ e.rd (Reg.AN_Cx_FSg x g) = d.rd (Reg.AN_Cx_FSg x g) ∧
    e.bit (Reg.AN_Cx_FAULT x) 3 = true

theorem gainLeft_congr {d e f : Dev} {x g : Nat} {o q : Int} (h : gainLeft d e x g o q) (hoff : f.rd (Reg.AN_Cx_OFFg x g) = e.rd (Reg.AN_Cx_OFFg x g))
    (hfs : f.rd (Reg.AN_Cx_FSg x g) = e.rd (Reg.AN_Cx_FSg x g))
    (hbit : e.bit (Reg.AN_Cx_FAULT x) 3 = true → f.bit (Reg.AN_Cx_FAULT x) 3 = true) : gainLeft d f x g o q := by
  unfold gainLeft at h ⊢
  split at h
  · next hgood => rw [if_pos hgood, Dev.rdN, hoff, hfs]; exact h
  · next hbad => rw [if_neg hbad, hoff, hfs]; exact ⟨h.1, h.2.1, hbit h.2.2⟩

theorem gainLeft_calGain (d e : Dev) (t : Nat) {x g : Nat} (hx : x < 4) (o m : Int) (hoff : e.rd (Reg.AN_Cx_OFFg x g) = d.rd (Reg.AN_Cx_OFFg x g))
    (hfs : e.rd (Reg.AN_Cx_FSg x g) = d.rd (Reg.AN_Cx_FSg x g)) (hg : g < 8) : gainLeft d (e.calGain t x g o m) x g o (m - o) := by
  unfold gainLeft
  split
  · next hgood =>
    obtain ⟨-, hlo, hhi⟩ := id hgood
    obtain ⟨q, hq⟩ : ∃ q : Nat, q = (m - o).toNat := ⟨_, rfl⟩
    have hfactor : (roundDiv (7340032 * 2 ^ 22) q).toNat = (2 * (7340032 * 2 ^ 22) + q) / (2 * q) := congrArg Int.toNat (roundDiv_natCast (7340032 * 2 ^ 22) q)
    have hword : (2 * (7340032 * 2 ^ 22) + q) / (2 * q) < 2 ^ 32 := Nat.div_lt_of_lt_mul (by omega)
    rw [Dev.calGain_good e t x g hgood, Dev.rdN_wrN_same, ← hq, hfactor, Nat.mod_eq_of_lt hword,
      Dev.rd_wrN_other _ _ (by unfold Reg.AN_Cx_OFFg Reg.AN_Cx_FSg; omega), Dev.rd_wrN_same]
    exact ⟨rfl, rfl⟩
  · next hbad =>
    obtain ⟨code, hfault⟩ := Dev.calGain_bad e t x g hbad
    obtain ⟨hrd, -⟩ := e.adcStands_anFault t hx 0 4 code 3
    rw [hfault]
    exact ⟨(hrd _ (not_courseReg_off hx hg)).trans hoff, (hrd _ (not_courseReg_fs hx hg)).trans hfs,
      Dev.bit_faultFlag e _ _ _ _ (by decide) (lost_ne_fault x).symm⟩

/-! ### ADC_CALIBRATION_DONE -/

/-- A gain with its own measurements. -/
def Dev.gainTaken (t x : Nat) (meas : List (BitVec 24 × BitVec 24)) (d : Dev) (g : Nat) : Dev :=
  d.calGain t x g (meas.getD g (0, 0)).1.toInt (meas.getD g (0, 0)).2.toInt

/-- The gains of a converter, one after the other (R290). -/
def Dev.gainsTaken (d : Dev) (t x : Nat) (meas : List (BitVec 24 × BitVec 24)) : Dev := (List.range 8).foldl (Dev.gainTaken t x meas) d

theorem Dev.gainsTaken_an (d : Dev) (t x : Nat) (meas : List (BitVec 24 × BitVec 24)) : (d.gainsTaken t x meas).an = d.an :=
  Dev.foldl_keeps Dev.an _ (fun d g => d.calGain_an t x g _ _) _ d

theorem gainLeft_gainsTaken (d : Dev) (t : Nat) {x g : Nat} (hx : x < 4) (hg : g < 8) (meas : List (BitVec 24 × BitVec 24)) :
    gainLeft d (d.gainsTaken t x meas) x g (meas.getD g (0, 0)).1.toInt ((meas.getD g (0, 0)).2.toInt - (meas.getD g (0, 0)).1.toInt) := by
  refine Dev.foldl_once (fun e => e.rd (Reg.AN_Cx_OFFg x g) = d.rd (Reg.AN_Cx_OFFg x g) ∧ e.rd (Reg.AN_Cx_FSg x g) = d.rd (Reg.AN_Cx_FSg x g))
    (fun e => gainLeft d e x g (meas.getD g (0, 0)).1.toInt ((meas.getD g (0, 0)).2.toInt - (meas.getD g (0, 0)).1.toInt)) (Dev.gainTaken t x meas)
    (fun e y hy he => ?_) (fun e he => gainLeft_calGain d e t hx _ _ he.1 he.2 hg) (fun e y hy he => ?_) List.nodup_range (List.mem_range.mpr hg) d ⟨rfl, rfl⟩
  · obtain ⟨hoff, hfs, -⟩ := e.calGain_other t hx hg hy (meas.getD y (0, 0)).1.toInt (meas.getD y (0, 0)).2.toInt
    exact ⟨hoff.trans he.1, hfs.trans he.2⟩
  · obtain ⟨hoff, hfs, hbit⟩ := e.calGain_other t hx hg hy (meas.getD y (0, 0)).1.toInt (meas.getD y (0, 0)).2.toInt
    exact gainLeft_congr he hoff hfs hbit

/-- A calibration that ends gives the gains their factors, and its converter goes on (R290, R292). -/
theorem Dev.calDone_law (d : Dev) (t : Nat) {x : Nat} (hx : x < 4) (meas : List (BitVec 24 × BitVec 24)) :
    ((d.calDone t x meas).adc x).calFrom = none ∧ ((d.calDone t x meas).adc x).cals = (d.adc x).cals + 1 ∧ ∀ g, g < 8 →
      gainLeft d (d.calDone t x meas) x g (meas.getD g (0, 0)).1.toInt ((meas.getD g (0, 0)).2.toInt - (meas.getD g (0, 0)).1.toInt) := by
  obtain ⟨e, he⟩ : ∃ e, e = d.gainsTaken t x meas := ⟨_, rfl⟩
  have hadc : e.adc x = d.adc x := by rw [he, Dev.adc_congr (Dev.gainsTaken_an ..)]
  obtain ⟨u, hu⟩ : ∃ u, u = e.setAdc x { e.adc x with calFrom := none, cals := (e.adc x).cals + 1, needCal := false, back := (e.adc x).out } := ⟨_, rfl⟩
  have hself : u.adc x = { e.adc x with calFrom := none, cals := (e.adc x).cals + 1, needCal := false, back := (e.adc x).out } := hu ▸ Dev.adc_setAdc_same ..
  have hdone : d.calDone t x meas = ((u.adcPush t x x 0 (markWord ((e.adc x).cals + 1) 1) t false).adcMayReturn t x).adcGoesOn t x := by rw [hu, he]; rfl
  obtain ⟨hrd, hbit, hstands⟩ : u.adcStands (d.calDone t x meas) := by
    rw [hdone]
    exact ((u.adcStands_adcPush t hx ..).trans (Dev.adcStands_adcMayReturn ..)).trans (Dev.adcStands_adcGoesOn _ t hx)
  obtain ⟨-, hfrom, hcals, -⟩ := hstands x
  refine ⟨hfrom.trans (by rw [hself]), hcals.trans (by rw [hself, hadc]), fun g hg => ?_⟩
  have hregs : u.rd = e.rd := by rw [hu]; rfl
  have hbits : u.bit (Reg.AN_Cx_FAULT x) 3 = e.bit (Reg.AN_Cx_FAULT x) 3 := Dev.bit_congr (congrFun hregs _) 3
  exact gainLeft_congr (he ▸ gainLeft_gainsTaken d t hx hg meas) ((hrd _ (not_courseReg_off hx hg)).trans (congrFun hregs _))
    ((hrd _ (not_courseReg_fs hx hg)).trans (congrFun hregs _)) fun h => hbit x 3 (by decide) (hbits.trans h)

theorem adcCalibrationDone_takes {s : State} (hr : s.running = true) (x : Fin 4) {y : Nat} (hfrom : (s.dev.adc x).calFrom = some y)
    (meas : List (BitVec 24 × BitVec 24)) :
    ∃ t, exec (.adcCalibrationDone x meas) s = .next t ∧ t.pending = s.pending ∧ t.mem = s.mem ∧
      t.clock = s.clock.reach (y + (1351680 * 3125 + 47) / 48) ∧ (t.dev.adc x).calFrom = none ∧ (t.dev.adc x).cals = (s.dev.adc x).cals + 1 ∧
      ∀ g, g < 8 → gainLeft s.dev t.dev x g (meas.getD g (0, 0)).1.toInt ((meas.getD g (0, 0)).2.toInt - (meas.getD g (0, 0)).1.toInt) := by
  obtain ⟨hnone, hcals, hgains⟩ := s.dev.calDone_law (s.clock.reach (y + adcTicks calCycles)).dtime x.isLt meas
  exact ⟨(s.reach (y + adcTicks calCycles)).withDev (s.dev.calDone (s.clock.reach (y + adcTicks calCycles)).dtime x meas),
    by rw [exec, execAdcCalibrationDone, State.actDue_running s _ _ (y + adcTicks calCycles) hr (by rw [hfrom]; rfl)]; rfl, rfl, rfl, rfl, hnone, hcals, hgains⟩

/-! ### ADC_CONVERTER_FAULT (R294) -/

/-- A converter that has faulted, and stands still (R294). -/
def Adc.stopped (a : Adc) : Prop := a.faulted = true ∧ a.running = false ∧ a.items = [] ∧ a.sent = [] ∧ a.delay = none

theorem Adc.stopped_of_stands {a b : Adc} (h : a.stands b) (ha : a.stopped) : b.stopped := by
  obtain ⟨hfaulted, -, -, hsent, hdelay, hstill⟩ := h
  obtain ⟨ha, hruns, hitems, hnone, hfree⟩ := ha
  obtain ⟨hruns', hitems'⟩ := hstill ha
  exact ⟨hfaulted.trans ha, hruns'.trans hruns, hitems'.trans hitems, hsent.trans hnone, hdelay.trans hfree⟩

/-- A converter stops on a fault: of a sequence that runs no result is kept (R294). -/
def Adc.stop (a : Adc) : Adc :=
  { a with
    running := false, items := [], pending := false, delay := none, sent := [], calWanted := false, rolling := false, calFrom := none, faulted := true,
    guest := none, queue := if a.running then (a.queue.reverse.dropWhile (fun q => decide (q ≠ .seqEnd))).reverse else a.queue }

theorem Adc.stopped_stop (a : Adc) : a.stop.stopped := ⟨rfl, rfl, rfl, rfl, rfl⟩

/-- What goes on once a converter has stopped: entries return, its own move, and chosen trims are taken (R293, R294). -/
def Dev.leaveFaulted (d : Dev) (t x : Nat) (out : Bool) : Dev :=
  let e := d.adcReturns t x
  (if e.adcOn x && !out then e.adcMigrate t x else e).takeTrims

theorem Dev.adcFault_eq {d : Dev} (t : Nat) {x : Nat} (cause : Nat) (hok : (d.adc x).faulted = false) :
    d.adcFault t x cause = ((d.setAdc x (d.adc x).stop).anFault t x 0 3 cause 2).leaveFaulted t x (d.adc x).out := by
  unfold Dev.adcFault
  dsimp only
  rw [if_neg (by rw [hok]; decide)]
  rfl

theorem Dev.adcStands_leaveFaulted (d : Dev) (t : Nat) {x : Nat} (hx : x < 4) (out : Bool) : d.adcStands (d.leaveFaulted t x out) := by
  unfold Dev.leaveFaulted
  extract_lets e
  refine (d.adcStands_adcReturns t x).trans (Dev.adcStands.trans (e := if e.adcOn x && !out then e.adcMigrate t x else e) ?_ (Dev.adcStands_takeTrims _))
  split
  · exact e.adcStands_adcMigrate t hx
  · exact e.adcStands_refl

/-- A converter that faults stops with its flag; it has its record alone where it is off and no converter waits to return. -/
theorem Dev.adcFault_law {d : Dev} (t : Nat) {x : Nat} (hx : x < 4) (cause : Nat) (hok : (d.adc x).faulted = false) :
    ((d.adcFault t x cause).adc x).stopped ∧ (d.adcFault t x cause).bit (Reg.AN_Cx_FAULT x) 2 = true ∧
      (d.adcOn x = false → (∀ o, o < 4 → (d.adc o).back = false) → recorded d (d.adcFault t x cause) ⟨t, uid 12 x 0, 3, BitVec.ofNat 32 cause⟩) := by
  obtain ⟨e, he⟩ : ∃ e, e = (d.setAdc x (d.adc x).stop).anFault t x 0 3 cause 2 := ⟨_, rfl⟩
  have hfault : d.adcFault t x cause = e.leaveFaulted t x (d.adc x).out := he ▸ Dev.adcFault_eq t cause hok
  have hself : (e.adc x).stopped := by
    rw [he, Dev.anFault, Dev.adc_congr (Dev.faultFlag_an ..), Dev.adc_setAdc_same]
    exact Adc.stopped_stop _
  have hflag : e.bit (Reg.AN_Cx_FAULT x) 2 = true := he ▸ Dev.bit_faultFlag _ _ _ _ _ (by decide) (lost_ne_fault x).symm
  obtain ⟨-, hbit, hstands⟩ : e.adcStands (d.adcFault t x cause) := by
    rw [hfault]
    exact e.adcStands_leaveFaulted t hx _
  refine ⟨Adc.stopped_of_stands (hstands x) hself, hbit x 2 (by decide) hflag, fun hoff hnone => ?_⟩
  have hreturns : e.adcReturns t x = e := by
    refine Dev.adcReturns_none (fun o ho => ?_) t x
    rw [he, Dev.anFault, Dev.adc_congr (Dev.faultFlag_an ..), Dev.adc_setAdc]
    split
    · next hox => exact hox ▸ hnone o ho
    · exact hnone o ho
  have hstill : e.adcOn x = false := by
    rw [← hoff, he]
    exact Dev.bit_congr (Dev.rd_faultFlag_other _ _ _ _ _ _ _ (by unfold Reg.AN_Cx_CFG Reg.SV_LOG_LOST; omega) (by unfold Reg.AN_Cx_CFG Reg.AN_Cx_FAULT; omega)) 0
  obtain ⟨-, -, -, hflt, -⟩ := e.takeTrims_law
  rw [hfault, Dev.leaveFaulted, hreturns, if_neg (by simp [hstill]), recorded, hflt, he]
  exact recorded_faultFlag (Dev.setAdc_flt ..) t (uid 12 x 0) 3 cause (Reg.AN_Cx_FAULT x) 2

section fault
variable {s : State} (hr : s.running = true) (x : Fin 4) (cause : Fin 3)
include hr

theorem exec_adcConverterFault : exec (.adcConverterFault x cause) s = .next (s.withDev ((s.dev.adcFault s.clock.dtime x (cause + 1)).iexAfter s.dev)) := by
  rw [exec, execAdcConverterFault, State.act_running _ _ hr]; rfl

theorem adcConverterFault_stands (hfaulted : (s.dev.adc x).faulted = true) (htold : s.dev.ana.told.length = 2) :
    exec (.adcConverterFault x cause) s = .next s := by
  have hfault : s.dev.adcFault s.clock.dtime x (cause + 1) = s.dev := if_pos hfaulted
  rw [exec_adcConverterFault hr]
  exact next_withDev_self (by rw [hfault, Dev.iexAfter_self htold])

theorem adcConverterFault_stops (hok : (s.dev.adc x).faulted = false) :
    ∃ t, exec (.adcConverterFault x cause) s = .next t ∧ deviceOnly s t ∧ (t.dev.adc x).faulted = true ∧
      (t.dev.adc x).running = false ∧ (t.dev.adc x).items = [] ∧ (t.dev.adc x).sent = [] ∧ (t.dev.adc x).delay = none ∧
      t.dev.bit (Reg.AN_Cx_FAULT x) 2 = true ∧ (s.dev.adcOn x = false → (∀ o, o < 4 → (s.dev.adc o).back = false) →
        recorded s.dev t.dev ⟨s.clock.dtime, uid 12 x 0, 3, BitVec.ofNat 32 (cause + 1)⟩) := by
  obtain ⟨⟨hfaulted, hruns, hitems, hsent, hdelay⟩, hbit, hrec⟩ := Dev.adcFault_law s.clock.dtime x.isLt (cause + 1) hok
  exact ⟨_, exec_adcConverterFault hr x cause, deviceOnly_withDev _ _, hfaulted, hruns, hitems, hsent, hdelay, hbit, hrec⟩

end fault

end Sys2Proof.Machine
end

section
/-! ## Converters: conversions and their results (R275, R276, R284, R288) -/

namespace Sys2Proof.Machine
open Sys2Proof.Claims

/-! ### A result joins the queue (R284 to R286) -/

theorem Adc.room_of_short {a : Adc} (h : a.queue.length < 16) : a.room = true :=
  decide_eq_true ((List.length_filter_le _ _).trans_lt h)

theorem Dev.adcPush_room {d : Dev} {x : Nat} (h : (d.adc x).room = true) (t o el word stamp : Nat) (result : Bool) :
    d.adcPush t x o el word stamp result = d.setAdc x { d.adc x with queue := (d.adc x).queue ++ [.pair o word (stamp % 2 ^ 32) result] } := if_pos h

/-- A result for which no marker waits joins a queue with room, and takes the sequence's start bit (R284). -/
theorem Dev.adcEmitResult_room {d : Dev} {x o : Nat} (hgen : (d.adc o).genMark = none) (hmove : (d.adc o).moveMark = none) (hroom : (d.adc x).room = true)
    (t e : Nat) (v : Int) (settling overMark diag : Bool) :
    (d.adcEmitResult t x o e v settling overMark diag).adc x =
      { d.adc x with start := false, queue := (d.adc x).queue ++ [.pair o (adcWord v e settling overMark diag (d.adc x).start) (t % 2 ^ 32) true] } := by
  have hemit : d.adcEmitResult t x o e v settling overMark diag = (d.updAdc x (fun a => { a with start := (d.adc x).start && !a.room })).adcPush t x o (e + 1)
      (adcWord v e settling overMark diag (d.adc x).start) t true := by simp only [Dev.adcEmitResult, hgen, hmove]
  have hself := Dev.adc_updAdc_same d x (fun a => { a with start := (d.adc x).start && !a.room })
  rw [hroom, Bool.not_true, Bool.and_false] at hself
  rw [hemit, Dev.adcPush_room (by rw [hself]; exact hroom), Dev.adc_setAdc_same, hself]

/-- The fields of a result word (R284). -/
theorem adcWord_fields (v : Int) {e : Nat} (he : e < 16) (settling overMark diag start : Bool) :
    adcWord v e settling overMark diag start / 256 = unsgn 24 v ∧ adcWord v e settling overMark diag start / 16 % 16 = e ∧
      adcWord v e settling overMark diag start % 2 = if start then 1 else 0 := by
  have hflags : ∀ b, b2n b ≤ 1 := fun b => by cases b <;> decide
  have hsettling := hflags (settling && !diag)
  have hover := hflags (overMark || (settling && diag))
  have hdiag := hflags diag
  have hstart := hflags start
  have hbit : b2n start = if start then 1 else 0 := rfl
  unfold adcWord
  rw [← hbit]
  omega

/-! ### A conversion of an entry without keep (R275, R276) -/

/-- The corrected value of a conversion of entry e of origin o (R276). -/
def Dev.corrected (d : Dev) (x o e : Nat) (c : Int) : Int × Bool :=
  adcCorrect c (sgn 24 (d.fld (Reg.AN_Cx_OFFg x (d.adcEntry o e).gain) 23 0)) (d.fld (Reg.AN_Cx_FSg x (d.adcEntry o e).gain) 23 0)

/-- The converter after a conversion has been added, where it is one of the averaged, with its marks (R276). -/
def Adc.added (a : Adc) (z : AdcEntry) (v : Int) (overMark settling : Bool) : Adc :=
  { a with sum := if z.k - 1 + z.disc ≤ a.count then a.sum + v else a.sum, overMark := overMark, settling := settling }

/-- What a conversion of an entry without keep comes to: one more counted, the next pass, or the result of the entry. -/
theorem Dev.adcConversion_eq {d : Dev} {x o e : Nat} {rest : List (Nat × Nat)} (hruns : (d.adc x).running = true) (hitems : (d.adc x).items = (o, e) :: rest)
    (hkeep : (d.adcEntry o e).keep = false) (t : Nat) (c : Int) (overload : Bool) :
    ∃ m l, d.adcConversion t x c overload =
      let z := d.adcEntry o e
      let a := (d.adc x).added z (d.corrected x o e c).1 m l
      let v := (2 * a.sum + z.n) / (2 * z.n)
      if (d.adc x).count + 1 < z.k - 1 + z.disc + z.n then d.setAdc x { a with count := (d.adc x).count + 1 }
      else if z.chop = true ∧ a.first = none then d.setAdc x { a with count := 0, sum := 0, first := some v }
      else (d.setAdc x { a with count := 0, sum := 0, first := none, overMark := false, settling := false, items := rest }).adcEmitResult t x o e
        (adcResult a.first v) l m z.diag := by
  unfold Dev.adcConversion
  simp only [hruns, hitems, hkeep, Bool.false_eq_true, false_and, if_false, decide_eq_true_eq]
  unfold Adc.added Dev.corrected
  by_cases havg : (d.adcEntry o e).k - 1 + (d.adcEntry o e).disc ≤ (d.adc x).count
  · simp only [if_pos havg, hruns, hitems]
    exact ⟨_, _, rfl⟩
  · simp only [if_neg havg, hruns, hitems]
    exact ⟨_, _, rfl⟩

/-! ### ADC_CONVERSION_DONE -/

section
variable {s : State} (hr : s.running = true) (x : Fin 4) (dt : Nat)
include hr

theorem exec_adcConversionDone (c : BitVec 24) (overload : Bool) :
    exec (.adcConversionDone dt x c overload) s =
      .next ((s.pass dt).withDev ((s.dev.adcConversion (s.clock.pass dt).dtime x c.toInt overload).iexAfter s.dev)) := by
  rw [exec, execAdcConversionDone, State.act_running (s.pass dt) _ hr]; rfl

/-- A conversion while no entry runs changes nothing (R275; log 7). -/
theorem adcConversionDone_idle (hidle : (s.dev.adc x).running = false ∨ (s.dev.adc x).items = []) (c : BitVec 24) (overload : Bool) :
    ∃ t, exec (.adcConversionDone dt x c overload) s = .next t ∧ t.clock = s.clock.pass dt ∧ t.dev.an = s.dev.an ∧ t.dev.regs = s.dev.regs ∧
      (s.dev.ana.told.length = 2 → t.dev = s.dev) := by
  have hnone : s.dev.adcConversion (s.clock.pass dt).dtime x c.toInt overload = s.dev := by
    unfold Dev.adcConversion
    dsimp only
    split
    · next hruns hitems => simp [hruns, hitems] at hidle
    · rfl
  refine ⟨_, exec_adcConversionDone hr x dt c overload, rfl, ?_⟩
  rw [State.withDev_dev, hnone]
  exact ⟨rfl, rfl, Dev.iexAfter_self⟩

theorem adcConversionDone_counts {o e : Nat} {rest : List (Nat × Nat)} (hruns : (s.dev.adc x).running = true)
    (hitems : (s.dev.adc x).items = (o, e) :: rest) (c : BitVec 24) (overload : Bool) :
    let a := s.dev.adc x
    let t0 := (s.clock.pass dt).dtime
    let z := s.dev.adcEntry o e
    let v := (s.dev.corrected x o e c.toInt).1
    let counts := z.k - 1 + z.disc ≤ a.count
    let last := z.k - 1 + z.disc + z.n ≤ a.count + 1
    z.keep = false →
    ∃ t, exec (.adcConversionDone dt x c overload) s = .next t ∧ t.pending = s.pending ∧ t.mem = s.mem ∧ t.clock = s.clock.pass dt ∧
      (¬ last → t.dev.regs = s.dev.regs ∧ (t.dev.adc x).count = a.count + 1 ∧ (t.dev.adc x).items = a.items ∧
        (t.dev.adc x).sum = (if counts then a.sum + v else a.sum)) ∧
      (last → z.chop = true → a.first = none → (t.dev.adc x).count = 0 ∧ (t.dev.adc x).items = a.items ∧
        (t.dev.adc x).first = some ((2 * (a.sum + v) + z.n) / (2 * z.n))) ∧
      (last → z.chop = false → a.first = none → e < 16 → a.queue.length < 16 → (s.dev.adc o).genMark = none → (s.dev.adc o).moveMark = none →
        (t.dev.adc x).items = rest ∧ (t.dev.adc x).count = 0 ∧ (t.dev.adc x).start = false ∧
        ∃ w, (t.dev.adc x).queue = a.queue ++ [.pair o w (t0 % 2 ^ 32) true] ∧ w / 256 = unsgn 24 ((2 * (a.sum + v) + z.n) / (2 * z.n)) ∧
          w / 16 % 16 = e ∧ w % 2 = if a.start then 1 else 0) := by
  intro a t0 z v counts last hkeep
  obtain ⟨m, l, hconversion⟩ := Dev.adcConversion_eq hruns hitems hkeep t0 c.toInt overload
  refine ⟨_, exec_adcConversionDone hr x dt c overload, rfl, rfl, rfl, ?_⟩
  have hn : 0 < z.n := Nat.succ_pos _
  have hsum : last → (a.added z v m l).sum = a.sum + v := fun hlast => if_pos (show z.k - 1 + z.disc ≤ a.count by unfold last at hlast; omega)
  rw [State.withDev_dev, Dev.adc_iexAfter, hconversion]
  refine ⟨fun hmore => ?_, fun hlast hchop hfirst => ?_, fun hlast hchop hfirst he hshort hgen hmove => ?_⟩
  · dsimp only
    rw [if_pos (Nat.lt_of_not_le hmore), Dev.adc_setAdc_same]
    exact ⟨rfl, rfl, rfl, rfl⟩
  · dsimp only
    rw [if_neg (Nat.not_lt.mpr hlast), if_pos ⟨hchop, hfirst⟩, Dev.adc_setAdc_same]
    exact ⟨rfl, rfl, by rw [← hsum hlast]⟩
  · obtain ⟨b, hb⟩ : ∃ b, b = { a.added z v m l with count := 0, sum := 0, first := none, overMark := false, settling := false, items := rest } := ⟨_, rfl⟩
    have hself : ((s.dev.setAdc x b).adc x) = b := Dev.adc_setAdc_same ..
    have hmarks : ((s.dev.setAdc x b).adc o).genMark = none ∧ ((s.dev.setAdc x b).adc o).moveMark = none := by
      rw [← hgen, ← hmove, Dev.adc_setAdc]
      split
      · next ho => rw [hb, ho]; exact ⟨rfl, rfl⟩
      · exact ⟨rfl, rfl⟩
    have hroom : ((s.dev.setAdc x b).adc x).room = true := by rw [hself, hb]; exact Adc.room_of_short hshort
    dsimp only
    rw [if_neg (Nat.not_lt.mpr hlast), if_neg (by rw [hchop]; simp), ← hb, Dev.adcEmitResult_room hmarks.1 hmarks.2 hroom, hself]
    obtain ⟨hvalue, hentry, hstart⟩ := adcWord_fields (adcResult (a.added z v m l).first ((2 * (a.added z v m l).sum + z.n) / (2 * z.n))) he l m z.diag b.start
    refine ⟨by rw [hb], by rw [hb], rfl, _, by rw [hb]; rfl, ?_, hentry, by rw [hstart, hb]; rfl⟩
    rw [hvalue, hsum hlast, show (a.added z v m l).first = none from hfirst]
    rfl

end

end Sys2Proof.Machine
end

section
/-! ## Converters: the result DMA (R286), and the probes that it feeds (R134, R135) -/

namespace Sys2Proof.Machine
open Sys2Proof.Claims

/-! ### Events and probes leave the converters (R30, R134) -/

/-- The registers of the block but those of the entries (R298). -/
def anReg (a : Nat) : Prop := Reg.AN_FAULT ≤ a ∧ a < Reg.AN_Cx_Ee_IN 0 0

/-- From d to e events have been raised, and others have been told: the memories, the tasks and the registers of the converters stand. -/
def Dev.tells (d e : Dev) : Prop := e.fab = d.fab ∧ e.tk = d.tk ∧ (∀ v ∈ d.ev, v ∈ e.ev) ∧ ∀ a, anReg a → e.rd a = d.rd a

theorem Dev.tells_refl (d : Dev) : d.tells d := ⟨rfl, rfl, fun _ h => h, fun _ _ => rfl⟩

theorem Dev.tells.trans {d e f : Dev} (h : d.tells e) (h' : e.tells f) : d.tells f := by
  obtain ⟨hfab, htk, hev, hrd⟩ := h
  obtain ⟨hfab', htk', hev', hrd'⟩ := h'
  exact ⟨hfab'.trans hfab, htk'.trans htk, fun v hv => hev' v (hev v hv), fun a ha => (hrd' a ha).trans (hrd a ha)⟩

theorem Dev.tells_wrN (d : Dev) {a : Nat} (v : Nat) (h : ¬ anReg a) : d.tells (d.wrN a v) :=
  ⟨rfl, rfl, fun _ h => h, fun _ hb => Dev.rd_wrN_other d v fun he => h (he ▸ hb)⟩

theorem Dev.tells_bump (d : Dev) {a : Nat} (h : ¬ anReg a) : d.tells (d.bump a) :=
  ⟨Dev.bump_fab d a, Dev.bump_tk d a, fun v hv => by rwa [Dev.bump_ev], fun _ hb => Dev.rd_bump_other d fun he => h (he ▸ hb)⟩

theorem Dev.tells_raise (d : Dev) (t e w : Nat) : d.tells (d.raise t e w) := by
  refine ⟨Dev.raise_fab .., Dev.raise_tk .., fun v hv => by rw [Dev.raise_ev]; exact List.mem_append_left _ hv, fun a ha => Dev.raise_rd d t e w ?_⟩
  unfold anReg Reg.AN_FAULT at ha
  unfold outputReg Reg.WP_HSYn_CFG
  omega

theorem Dev.mem_raise_ev (d : Dev) (t e w : Nat) : ⟨e, BitVec.ofNat 32 w, t⟩ ∈ (d.raise t e w).ev := by
  rw [Dev.raise_ev]; exact List.mem_append_right _ (List.mem_singleton_self _)

theorem noBadWord_congr {d e : Dev} (hfab : e.fab = d.fab) (h : noBadWord d) : noBadWord e := by unfold noBadWord at h ⊢; rwa [hfab]

theorem noBadWord_of_quiet {d : Dev} (h : quietMemory d) : noBadWord d := by
  obtain ⟨-, -, -, hretired, hpoison⟩ := h
  exact ⟨hpoison, hretired⟩

/-- From d to e the probes have looked at a buffer. -/
def Dev.probed (d e : Dev) : Prop := e.an = d.an ∧ d.tells e

theorem Dev.probed.trans {d e f : Dev} (h : d.probed e) (h' : e.probed f) : d.probed f := ⟨h'.1.trans h.1, h.2.trans h'.2⟩

/-- A row of updates, each harmless where no word reads uncorrectable. -/
theorem Dev.probed_foldl {α : Type} (f : Dev → α → Dev) (l : List α) (h : ∀ d, noBadWord d → ∀ x ∈ l, d.probed (f d x)) {d : Dev} (hclean : noBadWord d) :
    d.probed (l.foldl f d) :=
  List.foldlRecOn l f (motive := d.probed) ⟨rfl, d.tells_refl⟩ fun e he x hx => he.trans (h e (noBadWord_congr he.2.1 hclean) x hx)

theorem Dev.probed_showRef {d : Dev} (hclean : noBadWord d) (m : Mem) (t : Nat) {h : Nat} (hh : h < 8) : d.probed (d.showRef m t h) := by
  unfold Dev.showRef
  split
  · simp only [Dev.unitRead_clean hclean]
    exact ⟨rfl, Dev.tells_wrN (d.updLth h _) _ (by unfold anReg Reg.AN_FAULT Reg.LT_HDh_REF; omega)⟩
  · exact ⟨rfl, d.tells_refl⟩

theorem Dev.probed_probeResult {d : Dev} (hclean : noBadWord d) (m : Mem) (t : Nat) {p : Nat} (hp : p < 16) (x : Int) (time : Nat) :
    d.probed (d.probeResult m t p x time) := by
  have hreject : d.probed (d.bump Reg.LT_CNT_PROBE_REJ) := ⟨Dev.bump_an .., d.tells_bump (by unfold anReg Reg.AN_FAULT Reg.LT_CNT_PROBE_REJ; omega)⟩
  have hset : ∀ (e : Dev) q, e.probed (e.setProbe p q) := fun e q => ⟨rfl, rfl, rfl, fun _ h => h, fun _ _ => rfl⟩
  have hvalue : ∀ (e : Dev) v, e.probed ((e.wrN (Reg.LT_PRp_VAL p) v).wrN (Reg.LT_PRp_TIME p) time) := fun e v =>
    ⟨rfl, (e.tells_wrN v (by unfold anReg Reg.AN_FAULT Reg.LT_PRp_VAL; omega)).trans
      (Dev.tells_wrN _ time (by unfold anReg Reg.AN_FAULT Reg.LT_PRp_TIME; omega))⟩
  unfold Dev.probeResult
  extract_lets b r e v q jump wild u u' u''
  have he : e = d := congrArg Prod.fst (Dev.unitRead_clean hclean m t 9 b 512)
  split
  · rw [he]
    exact hreject.trans (hset _ _)
  · have hu : d.probed u := by
      unfold u
      rw [he]
      split
      · exact hreject
      · exact ⟨rfl, d.tells_refl⟩
    have htaken : d.probed u'' := (hu.trans (hset u _)).trans (hvalue u' _)
    exact htaken.trans (Dev.probed_foldl _ _ (fun f hf h hh => Dev.probed_showRef hf m t (List.mem_range.mp (List.mem_filter.mp hh).1))
      (noBadWord_congr htaken.2.1 hclean))

/-- The probes look at a buffer, and leave the converters as they are (R134). -/
theorem Dev.probed_adcProbes {d : Dev} (hclean : noBadWord d) (m : Mem) (t o : Nat) : d.probed (d.adcProbes m t o) := by
  unfold Dev.adcProbes
  extract_lets size base view wr e
  have he : e = d := Dev.foldl_fixed _ _ d fun i _ => Dev.readPoison_clean hclean ..
  rw [he]
  refine Dev.probed_foldl _ _ (fun f hf p hp => ?_) hclean
  have hsame : f.probed f := ⟨rfl, f.tells_refl⟩
  extract_lets c
  split
  · exact hsame
  · split
    · exact hsame
    · extract_lets fresh
      split
      · exact Dev.probed_probeResult hf m t (List.mem_range.mp hp) _ _
      · exact hsame

/-! ### A pair is written (R286) -/

/-- The buffer of converter o is full: its oldest pair is given up, and counted (R286). -/
def Dev.gaveUp (d : Dev) (t o : Nat) : Dev :=
  let e := (d.wrN (Reg.AN_Cx_RD o) ((d.rdN (Reg.AN_Cx_RD o) + 8) % d.adcSize o)).bump (Reg.AN_Cx_LOST o)
  let n := (e.adc o).laps + 1
  let r := e.anLimited t o 0 0x0007 (min (2 ^ 32 - 1) n) 6
  r.2.updAdc o (fun a => { a with laps := if r.1 then 0 else n })

theorem Dev.gaveUp_law (d : Dev) (t : Nat) {o : Nat} (ho : o < 4) (hsize : d.adcSize o < 2 ^ 32) :
    (d.gaveUp t o).rdN (Reg.AN_Cx_RD o) = (d.rdN (Reg.AN_Cx_RD o) + 8) % d.adcSize o ∧
      (d.rdN (Reg.AN_Cx_LOST o) + 1 < 2 ^ 32 → (d.gaveUp t o).rdN (Reg.AN_Cx_LOST o) = d.rdN (Reg.AN_Cx_LOST o) + 1) ∧
      (d.gaveUp t o).rdN (Reg.AN_Cx_BUF o) = d.rdN (Reg.AN_Cx_BUF o) ∧ (∀ x, ((d.gaveUp t o).adc x).queue = (d.adc x).queue) ∧
      (d.gaveUp t o).fab = d.fab ∧ (d.gaveUp t o).tk = d.tk := by
  obtain ⟨e, he⟩ : ∃ e, e = d.wrN (Reg.AN_Cx_RD o) ((d.rdN (Reg.AN_Cx_RD o) + 8) % d.adcSize o) := ⟨_, rfl⟩
  have hflag := (e.bump (Reg.AN_Cx_LOST o)).flagged_anLimited t o 0 7 (min (2 ^ 32 - 1) (((e.bump (Reg.AN_Cx_LOST o)).adc o).laps + 1)) 6
  obtain ⟨⟨r, hself⟩, hothers, -, -, -, -, hfab, htk⟩ := id hflag
  have hgave : d.gaveUp t o = ((e.bump (Reg.AN_Cx_LOST o)).anLimited t o 0 7 (min (2 ^ 32 - 1) (((e.bump (Reg.AN_Cx_LOST o)).adc o).laps + 1)) 6).2.updAdc o
      (fun a => { a with laps := if ((e.bump (Reg.AN_Cx_LOST o)).anLimited t o 0 7 (min (2 ^ 32 - 1) (((e.bump (Reg.AN_Cx_LOST o)).adc o).laps + 1)) 6).1
        then 0 else ((e.bump (Reg.AN_Cx_LOST o)).adc o).laps + 1 }) := by rw [he]; rfl
  have hrd : ∀ a, a ≠ Reg.SV_LOG_LOST → a ≠ Reg.AN_Cx_FAULT o → (d.gaveUp t o).rd a = (e.bump (Reg.AN_Cx_LOST o)).rd a := fun a hlost hfault => by
    rw [hgave, Dev.rd_updAdc, hflag.rd_other hlost hfault]
  have hrdptr : (d.gaveUp t o).rd (Reg.AN_Cx_RD o) = e.rd (Reg.AN_Cx_RD o) := by
    rw [hrd _ (by unfold Reg.AN_Cx_RD Reg.SV_LOG_LOST; omega) (by unfold Reg.AN_Cx_RD Reg.AN_Cx_FAULT; omega),
      Dev.rd_bump_other _ (by unfold Reg.AN_Cx_RD Reg.AN_Cx_LOST; omega)]
  have hlost : e.rdN (Reg.AN_Cx_LOST o) = d.rdN (Reg.AN_Cx_LOST o) := by
    rw [he, Dev.rdN_wrN_other _ _ (by unfold Reg.AN_Cx_RD Reg.AN_Cx_LOST; omega)]
  refine ⟨?_, fun htop => ?_, ?_, fun x => ?_, ?_, ?_⟩
  · rw [Dev.rdN, hrdptr, ← Dev.rdN, he, Dev.rdN_wrN_same, Nat.mod_eq_of_lt]
    exact (Nat.mod_lt _ (by unfold Dev.adcSize; positivity)).trans hsize
  · rw [Dev.rdN, hrd _ (by unfold Reg.AN_Cx_LOST Reg.SV_LOG_LOST; omega) (by unfold Reg.AN_Cx_LOST Reg.AN_Cx_FAULT; omega), ← Dev.rdN, ← hlost]
    exact Dev.rdN_bumpBy_same e _ 1 (hlost ▸ htop)
  · rw [Dev.rdN, hrd _ (by unfold Reg.AN_Cx_BUF Reg.SV_LOG_LOST; omega) (by unfold Reg.AN_Cx_BUF Reg.AN_Cx_FAULT; omega),
      Dev.rd_bump_other _ (by unfold Reg.AN_Cx_BUF Reg.AN_Cx_LOST; omega), ← Dev.rdN, he,
      Dev.rdN_wrN_other _ _ (by unfold Reg.AN_Cx_BUF Reg.AN_Cx_RD; omega)]
  · rw [hgave]
    by_cases hx : x = o
    · rw [hx, Dev.adc_updAdc_same, hself, Dev.adc_bump, he, Dev.adc_wrN]
    · rw [Dev.adc_updAdc_other _ _ hx, hothers x hx, Dev.adc_bump, he, Dev.adc_wrN]
  · rw [hgave]; exact hfab.trans ((Dev.bump_fab ..).trans (by rw [he]; rfl))
  · rw [hgave]; exact htk.trans ((Dev.bump_tk ..).trans (by rw [he]; rfl))

/-- There is room for a pair that moves AN_Cx_WR on to next: the oldest pair is given up where the buffer is full (R286). -/
def Dev.roomMade (d : Dev) (t o next : Nat) : Dev := if next = d.rdN (Reg.AN_Cx_RD o) then d.gaveUp t o else d

theorem Dev.adcSize_lt (d : Dev) (o : Nat) : d.adcSize o < 2 ^ 32 := by
  have hcode : d.fld (Reg.AN_Cx_CFG o) 11 8 ≤ 15 := Nat.le_of_lt_succ (Nat.mod_lt _ (by decide))
  calc d.adcSize o ≤ 4096 * 2 ^ 15 := Nat.mul_le_mul_left _ (Nat.pow_le_pow_right (by decide) hcode)
    _ < 2 ^ 32 := by decide

theorem Dev.roomMade_law (d : Dev) (t : Nat) {o : Nat} (ho : o < 4) (next : Nat) :
    (d.roomMade t o next).rdN (Reg.AN_Cx_RD o) =
        (if next = d.rdN (Reg.AN_Cx_RD o) then (d.rdN (Reg.AN_Cx_RD o) + 8) % d.adcSize o else d.rdN (Reg.AN_Cx_RD o)) ∧
      (next = d.rdN (Reg.AN_Cx_RD o) → d.rdN (Reg.AN_Cx_LOST o) + 1 < 2 ^ 32 →
        (d.roomMade t o next).rdN (Reg.AN_Cx_LOST o) = d.rdN (Reg.AN_Cx_LOST o) + 1) ∧
      (d.roomMade t o next).rdN (Reg.AN_Cx_BUF o) = d.rdN (Reg.AN_Cx_BUF o) ∧ (∀ x, ((d.roomMade t o next).adc x).queue = (d.adc x).queue) ∧
      (d.roomMade t o next).fab = d.fab ∧ (d.roomMade t o next).tk = d.tk := by
  unfold Dev.roomMade
  by_cases hfull : next = d.rdN (Reg.AN_Cx_RD o)
  · rw [if_pos hfull, if_pos hfull]
    obtain ⟨hread, hlost, hgiven⟩ := d.gaveUp_law t ho (d.adcSize_lt o)
    exact ⟨hread, fun _ => hlost, hgiven⟩
  · rw [if_neg hfull, if_neg hfull]
    exact ⟨rfl, fun h => absurd h hfull, rfl, fun _ => rfl, rfl, rfl⟩

/-- The next pair of the buffer of converter o has been written, AN_Cx_WR goes on to next (R286). -/
def Dev.slotTaken (d : Dev) (o size next : Nat) : Dev :=
  (d.wrN (Reg.AN_Cx_WR o) next).updAdc o (fun a => { a with held := min (size / 8) (a.held + 1) })

theorem Dev.slotTaken_law (d : Dev) {o size next : Nat} (h : next < 2 ^ 32) :
    (d.slotTaken o size next).rdN (Reg.AN_Cx_WR o) = next ∧ (∀ a, a ≠ Reg.AN_Cx_WR o → (d.slotTaken o size next).rdN a = d.rdN a) ∧
      (∀ x, ((d.slotTaken o size next).adc x).queue = (d.adc x).queue) ∧ (d.slotTaken o size next).fab = d.fab ∧ (d.slotTaken o size next).tk = d.tk := by
  refine ⟨?_, fun a ha => Dev.rdN_wrN_other d next ha, fun x => ?_, rfl, rfl⟩
  · exact (Dev.rdN_wrN_same d _ next).trans (Nat.mod_eq_of_lt h)
  · unfold Dev.slotTaken
    by_cases hx : x = o
    · rw [hx, Dev.adc_updAdc_same, Dev.adc_wrN]
    · rw [Dev.adc_updAdc_other _ _ hx, Dev.adc_wrN]

/-- The pair has been written: AN_Cx_WR moves on, and the oldest pair is given up where the buffer is full (R286). -/
def Dev.pairWritten (d : Dev) (t o : Nat) : Dev :=
  let next := (d.rdN (Reg.AN_Cx_WR o) + 8) % d.adcSize o
  (d.roomMade t o next).slotTaken o (d.adcSize o) next

theorem Dev.pairWritten_law (d : Dev) (t : Nat) {o : Nat} (ho : o < 4) :
    let size := d.adcSize o
    let wr := d.rdN (Reg.AN_Cx_WR o)
    let rd := d.rdN (Reg.AN_Cx_RD o)
    let e := d.pairWritten t o
    e.rdN (Reg.AN_Cx_WR o) = (wr + 8) % size ∧ e.rdN (Reg.AN_Cx_RD o) = (if (wr + 8) % size = rd then (rd + 8) % size else rd) ∧
      ((wr + 8) % size = rd → d.rdN (Reg.AN_Cx_LOST o) + 1 < 2 ^ 32 → e.rdN (Reg.AN_Cx_LOST o) = d.rdN (Reg.AN_Cx_LOST o) + 1) ∧
      (∀ x, (e.adc x).queue = (d.adc x).queue) ∧ e.fab = d.fab ∧ e.tk = d.tk := by
  dsimp only
  have hnext : (d.rdN (Reg.AN_Cx_WR o) + 8) % d.adcSize o < 2 ^ 32 := (Nat.mod_lt _ (by unfold Dev.adcSize; positivity)).trans (d.adcSize_lt o)
  unfold Dev.pairWritten
  generalize (d.rdN (Reg.AN_Cx_WR o) + 8) % d.adcSize o = next at hnext ⊢
  obtain ⟨hread, hlost, -, hqueues, hfab, htk⟩ := d.roomMade_law t ho next
  obtain ⟨hwr, hother, hqueues', hfab', htk'⟩ := (d.roomMade t o next).slotTaken_law (o := o) (size := d.adcSize o) hnext
  refine ⟨hwr, ?_, fun hfull htop => ?_, fun x => (hqueues' x).trans (hqueues x), hfab'.trans hfab, htk'.trans htk⟩
  · exact (hother _ (by unfold Reg.AN_Cx_RD Reg.AN_Cx_WR; omega)).trans hread
  · exact (hother _ (by unfold Reg.AN_Cx_LOST Reg.AN_Cx_WR; omega)).trans (hlost hfull htop)

/-! ### What a written pair tells (R134, R286) -/

theorem Dev.tells_adcSeqEvents (d : Dev) (t x : Nat) (l : List AdcOut) : d.tells (d.adcSeqEvents t x l) := by
  induction l generalizing d with
  | nil => exact d.tells_refl
  | cons q l ih =>
    cases q with
    | pair origin word stamp result => exact d.tells_refl
    | seqEnd =>
      have hpop : d.tells (d.updAdc x (fun a => { a with queue := l })) := ⟨rfl, rfl, fun _ h => h, fun _ _ => rfl⟩
      exact (hpop.trans (Dev.tells_raise _ t 52 x)).trans (ih _)

theorem Dev.adcSeqEvents_last (d : Dev) (t x : Nat) :
    d.adcSeqEvents t x [.seqEnd] = (d.updAdc x (fun a => { a with queue := [] })).raise t 52 x := rfl

/-- A result raises the event of its converter, and the probes look at it (R134, R286). -/
def Dev.pairTold (d : Dev) (m : Mem) (t o word : Nat) (result : Bool) : Dev := if result then (d.raise t (48 + o) word).adcProbes m t o else d

theorem Dev.pairTold_law {d : Dev} (hclean : noBadWord d) (m : Mem) (t o word : Nat) (result : Bool) :
    d.probed (d.pairTold m t o word result) ∧ (result = true → ⟨48 + o, BitVec.ofNat 32 word, t⟩ ∈ (d.pairTold m t o word result).ev) := by
  unfold Dev.pairTold
  cases result with
  | false => exact ⟨⟨rfl, d.tells_refl⟩, fun h => absurd h (by decide)⟩
  | true =>
    obtain ⟨han, hprobes⟩ := Dev.probed_adcProbes (noBadWord_congr (Dev.raise_fab d t (48 + o) word) hclean) m t o
    obtain ⟨-, -, hev, -⟩ := id hprobes
    exact ⟨⟨han.trans (Dev.raise_an ..), (d.tells_raise t _ word).trans hprobes⟩, fun _ => hev _ (d.mem_raise_ev t _ word)⟩

/-- The level of the buffer of converter o has passed its mark (R286). -/
def Dev.levelTold (d : Dev) (t o size next fill : Nat) : Dev :=
  let hw := d.fld (Reg.AN_Cx_HW o) 23 0
  if hw ≠ 0 ∧ fill < hw ∧ hw ≤ (next + size - d.rdN (Reg.AN_Cx_RD o) % size) % size then d.raise t 53 o else d

theorem Dev.probed_levelTold (d : Dev) (t o size next fill : Nat) : d.probed (d.levelTold t o size next fill) := by
  unfold Dev.levelTold
  extract_lets hw
  split
  · exact ⟨Dev.raise_an .., Dev.tells_raise ..⟩
  · exact ⟨rfl, d.tells_refl⟩

/-- The bytes of a pair, a word and its time (R286). -/
def pairBytes (base word stamp : Nat) : List MemWrite := frameWrites base 4 word ++ frameWrites (base + 4) 4 stamp

theorem Dev.adcWrite_pair {d : Dev} (m : Mem) (t : Nat) {x o word stamp : Nat} {result : Bool} {rest : List AdcOut}
    (hqueue : (d.adc x).queue = .pair o word stamp result :: rest) :
    let u := d.updAdc x (fun a => { a with queue := rest })
    let size := u.adcSize o
    let wr := u.rdN (Reg.AN_Cx_WR o)
    let next := (wr + 8) % size
    let ws := pairBytes ((u.roomMade t o next).rdN (Reg.AN_Cx_BUF o) + wr) word stamp
    let e := ((u.pairWritten t o).pairTold (m.writes ws) t o word result).levelTold t o size next ((wr + size - u.rdN (Reg.AN_Cx_RD o) % size) % size)
    d.adcWrite m t x = (e.adcSeqEvents t x (e.adc x).queue, ws) := by
  rw [Dev.adcWrite, hqueue]
  dsimp -zeta only
  generalize d.updAdc x (fun a => { a with queue := rest }) = u
  simp only [Dev.pairWritten, Dev.roomMade, Dev.slotTaken, Dev.gaveUp, pairBytes, Dev.pairTold, Dev.levelTold]
  rfl

/-- The DMA writes the first pair of a queue; the events of the pair and of what follows it are raised (R286). -/
theorem Dev.adcWrite_eq {d : Dev} (hclean : noBadWord d) (m : Mem) (t : Nat) {x o word stamp : Nat} {result : Bool} {rest : List AdcOut} (ho : o < 4)
    (hqueue : (d.adc x).queue = .pair o word stamp result :: rest) :
    ∃ e, ((d.updAdc x (fun a => { a with queue := rest })).pairWritten t o).probed e ∧
      (result = true → ⟨48 + o, BitVec.ofNat 32 word, t⟩ ∈ e.ev) ∧
      d.adcWrite m t x = (e.adcSeqEvents t x (e.adc x).queue, pairBytes (d.rdN (Reg.AN_Cx_BUF o) + d.rdN (Reg.AN_Cx_WR o)) word stamp) := by
  have hwrite := Dev.adcWrite_pair m t hqueue
  have hrd : ∀ a, (d.updAdc x (fun a => { a with queue := rest })).rdN a = d.rdN a := fun a => congrArg BitVec.toNat (Dev.rd_updAdc ..)
  have hufab : (d.updAdc x (fun a => { a with queue := rest })).fab = d.fab := rfl
  revert hwrite hrd hufab
  generalize d.updAdc x (fun a => { a with queue := rest }) = u
  intro hwrite hrd hufab
  obtain ⟨-, -, -, -, hfab, -⟩ := u.pairWritten_law t ho
  obtain ⟨-, -, hbuf, -⟩ := u.roomMade_law t ho ((u.rdN (Reg.AN_Cx_WR o) + 8) % u.adcSize o)
  dsimp only at hwrite
  rw [hbuf, hrd, hrd] at hwrite
  obtain ⟨htold, hevent⟩ := Dev.pairTold_law (noBadWord_congr (hfab.trans hufab) hclean)
    (m.writes (pairBytes (d.rdN (Reg.AN_Cx_BUF o) + d.rdN (Reg.AN_Cx_WR o)) word stamp)) t o word result
  have hlevel := Dev.probed_levelTold ((u.pairWritten t o).pairTold
    (m.writes (pairBytes (d.rdN (Reg.AN_Cx_BUF o) + d.rdN (Reg.AN_Cx_WR o)) word stamp)) t o word result) t o (u.adcSize o)
    ((d.rdN (Reg.AN_Cx_WR o) + 8) % u.adcSize o) ((d.rdN (Reg.AN_Cx_WR o) + u.adcSize o - u.rdN (Reg.AN_Cx_RD o) % u.adcSize o) % u.adcSize o)
  obtain ⟨-, -, -, hev, -⟩ := id hlevel
  exact ⟨_, htold.trans hlevel, fun hresult => hev _ (hevent hresult), hwrite⟩

/-! ### ADC_RESULT_WRITE -/

/-- The first pair of the queue of converter x goes to the buffer of its origin o, where nothing stands in the way of the write (R286). -/
theorem adcResultWrite_writes {s : State} (hr : s.running = true) (hquiet : quietMemory s.dev) (x o : Fin 4) {word stamp : Nat} {result : Bool}
    {rest : List AdcOut} (hqueue : (s.dev.adc x).queue = .pair o word stamp result :: rest) :
    let size := 4096 * 2 ^ s.dev.fld (Reg.AN_Cx_CFG o) 11 8
    let wr := s.dev.rdN (Reg.AN_Cx_WR o)
    let rd := s.dev.rdN (Reg.AN_Cx_RD o)
    let buf := s.dev.rdN (Reg.AN_Cx_BUF o)
    ∃ t, exec (.adcResultWrite x) s = .next t ∧ t.pending = s.pending ∧ t.clock = s.clock ∧
      t.mem = s.mem.writes (frameWrites (buf + wr) 4 word ++ frameWrites (buf + wr + 4) 4 stamp) ∧
      t.dev.rdN (Reg.AN_Cx_WR o) = (wr + 8) % size ∧ t.dev.rdN (Reg.AN_Cx_RD o) = (if (wr + 8) % size = rd then (rd + 8) % size else rd) ∧
      ((wr + 8) % size = rd → s.dev.rdN (Reg.AN_Cx_LOST o) + 1 < 2 ^ 32 → t.dev.rdN (Reg.AN_Cx_LOST o) = s.dev.rdN (Reg.AN_Cx_LOST o) + 1) ∧
      (result = true → ⟨48 + o, BitVec.ofNat 32 word, s.clock.dtime⟩ ∈ t.dev.ev) ∧ (rest = [] → (t.dev.adc x).queue = []) ∧
      (rest = [.seqEnd] → (t.dev.adc x).queue = [] ∧ ⟨52, BitVec.ofNat 32 x, s.clock.dtime⟩ ∈ t.dev.ev) := by
  intro size wr rd buf
  have ho : o.val < 4 := o.isLt
  obtain ⟨hheld, -⟩ := id hquiet
  obtain ⟨e, ⟨han, hprobes⟩, hevent, hwrite⟩ := Dev.adcWrite_eq (noBadWord_of_quiet hquiet) s.mem s.clock.dtime ho hqueue
  obtain ⟨u, hu⟩ : ∃ u, u = s.dev.updAdc x (fun a => { a with queue := rest }) := ⟨_, rfl⟩
  rw [← hu] at han hprobes
  obtain ⟨hwr, hrd, hlost, hqueues, hfab, htk⟩ := u.pairWritten_law s.clock.dtime ho
  have hpop : ∀ a, u.rdN a = s.dev.rdN a := fun a => by rw [hu]; exact congrArg BitVec.toNat (Dev.rd_updAdc ..)
  have hsize : u.adcSize o = size := by rw [hu]; rfl
  have hrest : (e.adc x).queue = rest := by rw [Dev.adc_congr han, hqueues, hu, Dev.adc_updAdc_same]
  rw [hrest] at hwrite
  obtain ⟨hfab', htk', hevs, hregs⟩ := hprobes.trans (e.tells_adcSeqEvents s.clock.dtime x rest)
  obtain ⟨-, -, hkept, -⟩ := e.tells_adcSeqEvents s.clock.dtime x rest
  have hreg : ∀ a, anReg a → (e.adcSeqEvents s.clock.dtime x rest).rdN a = (u.pairWritten s.clock.dtime o).rdN a := fun a ha =>
    congrArg BitVec.toNat (hregs a ha)
  have hstill : quietMemory (e.adcSeqEvents s.clock.dtime x rest) :=
    quietMemory_congr (d := s.dev) (hfab'.trans (hfab.trans (by rw [hu]; rfl))) (htk'.trans (htk.trans (by rw [hu]; rfl))) hquiet
  rw [hpop, hpop, hsize] at hrd hlost
  rw [hpop, hsize] at hwr
  refine ⟨{ s with dev := e.adcSeqEvents s.clock.dtime x rest, mem := s.mem.writes (pairBytes (buf + wr) word stamp) }, ?_, rfl, rfl, rfl, ?_, ?_, ?_, ?_, ?_, ?_⟩
  · rw [exec, execAdcResultWrite, State.actWr_free _ _ _ hr hheld]
    exact congrArg Host.Outcome.next ((congrArg _ hwrite).trans (State.write_quiet s _ _ _ hstill))
  · exact (hreg _ (by unfold anReg Reg.AN_FAULT Reg.AN_Cx_WR Reg.AN_Cx_Ee_IN; omega)).trans hwr
  · exact (hreg _ (by unfold anReg Reg.AN_FAULT Reg.AN_Cx_RD Reg.AN_Cx_Ee_IN; omega)).trans hrd
  · intro hfull htop
    rw [hpop] at hlost
    exact (hreg _ (by unfold anReg Reg.AN_FAULT Reg.AN_Cx_LOST Reg.AN_Cx_Ee_IN; omega)).trans (hlost hfull htop)
  · exact fun hresult => hkept _ (hevent hresult)
  · rintro rfl
    exact hrest
  · rintro rfl
    show ((e.adcSeqEvents s.clock.dtime x [.seqEnd]).adc x).queue = [] ∧ _ ∈ (e.adcSeqEvents s.clock.dtime x [.seqEnd]).ev
    rw [Dev.adcSeqEvents_last, Dev.adc_raise, Dev.adc_updAdc_same]
    exact ⟨rfl, Dev.mem_raise_ev ..⟩

/-- An empty queue writes nothing (R286). -/
theorem adcResultWrite_empty {s : State} (hr : s.running = true) (x : Fin 4) (hqueue : (s.dev.adc x).queue = []) (hheld : s.dev.fab.held = []) :
    exec (.adcResultWrite x) s = .next s := by
  have hwrite : s.dev.adcWrite s.mem s.clock.dtime x = (s.dev, []) := by rw [Dev.adcWrite, hqueue]
  rw [exec, execAdcResultWrite, State.actWr_free _ _ _ hr hheld]
  exact congrArg Host.Outcome.next ((congrArg _ hwrite).trans (State.write_nothing s _ _ _ hheld))

end Sys2Proof.Machine
end

section
/-! ## Converters: the end of a sequence (R281, R283, R286) -/

namespace Sys2Proof.Machine
open Sys2Proof.Claims

/-- No other pair waits: the sequence that ends raises event 52 at once (R286). -/
theorem Dev.adcSequenceOver_eq {d : Dev} {x : Nat} (hqueue : (d.adc x).queue = []) (t : Nat) : ∃ e : Dev,
    d.adcSequenceOver t x = e.raise t 52 x ∧ e.regs = d.regs ∧ e.ev = d.ev ∧
      (∀ o, e.adc o = if o = x then { d.adc x with running := false, seqs := (d.adc x).seqs + 1, queue := [] } else d.adc o) := by
  refine ⟨((d.setAdc x { d.adc x with running := false, seqs := (d.adc x).seqs + 1, queue := [.seqEnd] }).iexAfter d).updAdc x
    (fun a => { a with queue := [] }), ?_, rfl, rfl, fun o => ?_⟩
  · rw [Dev.adcSequenceOver]
    dsimp only
    rw [hqueue, Dev.adc_setAdc_same]
    rfl
  · by_cases ho : o = x
    · rw [if_pos ho, ho, Dev.adc_updAdc_same, Dev.adc_iexAfter, Dev.adc_setAdc_same]
    · rw [if_neg ho, Dev.adc_updAdc_other _ _ ho, Dev.adc_iexAfter, Dev.adc_setAdc_other _ _ ho]

theorem Dev.adcBoundary_law {d : Dev} (h : ∀ o, o < 4 → (d.adc o).back = false) (t x : Nat) :
    (∀ o, ∃ p c, (d.adcBoundary t x).adc o = { d.adc o with pair := p, cells := c }) ∧
      (∀ a, a ≠ Reg.AN_REF_STATUS → (d.adcBoundary t x).rd a = d.rd a) ∧ (d.adcBoundary t x).ev = d.ev ∧
      (d.adcBoundary t x).regs.swaps = d.regs.swaps := by
  rw [Dev.adcBoundary, Dev.adcReturns_none h]
  obtain ⟨hadc, hrd, hev, -, hswaps⟩ := d.takeTrims_law
  exact ⟨hadc, hrd, hev, hswaps⟩

/-- Where no calibration waits, the held trigger or the continuous one starts the next sequence (R281). -/
theorem Dev.adcAfterBoundary_eq {d : Dev} {x : Nat} (hskips : (d.adc x).skips = false) (hrolling : (d.adc x).rolling = false)
    (hwanted : (d.adc x).calWanted = false) (t : Nat) :
    d.adcAfterBoundary t x = if d.adcOn x = false then d.setAdc x { d.adc x with pending := false }
      else if (d.adc x).pending = true ∨ (d.adcCommon x = false ∧ d.trigKind x = 3) then d.adcStart t x else d := by
  have hcal : d.calStart t x = d := if_neg (by simp [hwanted])
  simp only [Adc.skips, Bool.or_eq_false_iff] at hskips
  obtain ⟨⟨hfrom, hout⟩, hfaulted⟩ := hskips
  unfold Dev.adcAfterBoundary
  extract_lets e f a
  have hf : f = d := (congrArg (Dev.calStart · t x) (if_neg (by simp [hrolling]) : e = d)).trans hcal
  have ha : a = d.adc x := congrArg (Dev.adc · x) hf
  have hok : (d.adcOn x = false ∨ (d.adc x).faulted = true ∨ (d.adc x).calFrom.isSome = true ∨ (d.adc x).out = true) ↔ d.adcOn x = false := by
    simp only [hfrom, hout, hfaulted, Bool.false_eq_true, or_false]
  rw [hf, ha]
  exact if_congr hok rfl rfl

/-- The next sequence of converter x runs where it is enabled and a trigger is held or continuous (R281). -/
theorem Dev.adcAfterBoundary_law {d : Dev} {x : Nat} (hskips : (d.adc x).skips = false) (hrolling : (d.adc x).rolling = false)
    (hwanted : (d.adc x).calWanted = false) (hidle : (d.adc x).running = false) (hguest : (d.adc x).guest = none) (t : Nat) :
    let e := d.adcAfterBoundary t x
    e.ev = d.ev ∧ (e.adc x).seqs = (d.adc x).seqs ∧ (e.adc x).pending = false ∧
      if d.adcOn x = true ∧ ((d.adc x).pending = true ∨ (d.adcCommon x = false ∧ d.trigKind x = 3)) then
        (e.adc x).running = true ∧ (e.adc x).items = (List.range (d.adcEntries x)).map (fun e => (x, e)) ∧ e.rd (Reg.AN_Cx_START x) = BitVec.ofNat 32 t
      else (e.adc x).running = false := by
  dsimp only
  rw [Dev.adcAfterBoundary_eq hskips hrolling hwanted]
  by_cases hon : d.adcOn x = true
  · rw [if_neg (by simp [hon])]
    by_cases hnext : (d.adc x).pending = true ∨ (d.adcCommon x = false ∧ d.trigKind x = 3)
    · rw [if_pos hnext, if_pos ⟨hon, hnext⟩, Dev.adcStart_own hguest, Dev.rd_adcStart_same]
      exact ⟨rfl, rfl, rfl, rfl, rfl, rfl⟩
    · rw [if_neg hnext, if_neg fun h => hnext h.2]
      exact ⟨rfl, rfl, Bool.eq_false_iff.mpr fun h => hnext (.inl h), hidle⟩
  · rw [if_pos (Bool.eq_false_iff.mpr hon), if_neg fun h => hon h.1, Dev.adc_setAdc_same]
    exact ⟨rfl, rfl, rfl, hidle⟩

/-- A sequence that has not run its last entry does not end (R281). -/
theorem adcSequenceEnd_running {s : State} (hr : s.running = true) (x : Fin 4) (h : (s.dev.adc x).running = false ∨ (s.dev.adc x).items ≠ []) :
    exec (.adcSequenceEnd x) s = .next s := by
  have hover : (s.dev.adc x).sequenceOver = false := by
    unfold Adc.sequenceOver
    cases h with
    | inl hidle => rw [hidle, Bool.false_and]
    | inr hitems => rw [List.isEmpty_eq_false_iff.mpr hitems, Bool.and_false]
  rw [exec, execAdcSequenceEnd, State.actAll_running _ _ hr, State.sequenceEnd, if_pos hover]

theorem State.sequenceEnd_eq {s : State} {x : Fin 4} (hruns : (s.dev.adc x).running = true) (hitems : (s.dev.adc x).items = []) {u : Dev}
    (hu : (s.dev.adcSequenceOver s.clock.dtime x).adcBoundary s.clock.dtime x = u) (hout : (u.adc x).out = false) (hswaps : u.regs.swaps = []) :
    s.sequenceEnd x = s.withDev (u.adcAfterBoundary s.clock.dtime x) := by
  have hover : ¬ (s.dev.adc x).sequenceOver = false := by simp [Adc.sequenceOver, hruns, hitems]
  rw [State.sequenceEnd, if_neg hover]
  dsimp only
  rw [hu, State.withDev_dev, hout, if_neg Bool.false_ne_true, State.swapsAt_none _ _ _ hswaps]
  rfl

theorem adcSequenceEnd_ends {s : State} (hr : s.running = true) (x : Fin 4) :
    let a := s.dev.adc x
    let own := (List.range (s.dev.fld (Reg.AN_Cx_CFG x) 4 1 + 1)).map (fun e => (x.val, e))
    a.running = true → a.items = [] → a.queue = [] → a.guest = none → (∀ o, o < 4 → (s.dev.adc o).back = false) → a.rolling = false →
      a.calWanted = false → ¬ (a.calFrom.isSome = true ∨ a.out = true ∨ a.faulted = true) → s.dev.regs.swaps = [] →
      ∃ t, exec (.adcSequenceEnd x) s = .next t ∧ deviceOnly s t ∧ t.dev.ev = s.dev.ev ++ [⟨52, BitVec.ofNat 32 x, s.clock.dtime⟩] ∧
        (t.dev.adc x).seqs = a.seqs + 1 ∧ (t.dev.adc x).pending = false ∧
        if s.dev.adcOn x = true ∧ (a.pending = true ∨ (s.dev.adcCommon x = false ∧ s.dev.fld (Reg.AN_Cx_TRIG x) 1 0 = 3)) then
          (t.dev.adc x).running = true ∧ (t.dev.adc x).items = own ∧ t.dev.rd (Reg.AN_Cx_START x) = BitVec.ofNat 32 s.clock.dtime
        else (t.dev.adc x).running = false := by
  intro a own hruns hitems hqueue hguest hback hrolling hwanted hskips hswaps
  have hx : x.val < 4 := x.isLt
  have hnoskip : a.skips = false := Bool.eq_false_iff.mpr fun h => hskips ((Adc.skips_iff a).mp h)
  obtain ⟨e, hover, hregs, hev, hadc⟩ := Dev.adcSequenceOver_eq hqueue s.clock.dtime
  have hback' : ∀ o, o < 4 → ((s.dev.adcSequenceOver s.clock.dtime x).adc o).back = false := fun o ho => by
    rw [hover, Dev.adc_raise, hadc]
    split
    · exact hback x hx
    · exact hback o ho
  obtain ⟨hadc', hrd', hev', hswaps'⟩ := Dev.adcBoundary_law hback' s.clock.dtime x
  obtain ⟨u, hu⟩ : ∃ u, u = (s.dev.adcSequenceOver s.clock.dtime x).adcBoundary s.clock.dtime x := ⟨_, rfl⟩
  rw [← hu, hover] at hadc' hrd' hev' hswaps'
  obtain ⟨p, c, hself⟩ := hadc' x
  rw [Dev.adc_raise, hadc, if_pos rfl] at hself
  have hrd : ∀ r, anReg r → r ≠ Reg.AN_REF_STATUS → u.rd r = s.dev.rd r := fun r hreg hne => by
    obtain ⟨-, -, -, htells⟩ := e.tells_raise s.clock.dtime 52 x
    rw [hrd' r hne, htells r hreg, Dev.rd, Dev.rd, hregs]
  have hcfg : u.rd (Reg.AN_Cx_CFG x) = s.dev.rd (Reg.AN_Cx_CFG x) := hrd _ (by unfold anReg Reg.AN_FAULT Reg.AN_Cx_CFG Reg.AN_Cx_Ee_IN; omega)
    (by unfold Reg.AN_Cx_CFG Reg.AN_REF_STATUS; omega)
  have htrig : u.rd (Reg.AN_Cx_TRIG x) = s.dev.rd (Reg.AN_Cx_TRIG x) := hrd _ (by unfold anReg Reg.AN_FAULT Reg.AN_Cx_TRIG Reg.AN_Cx_Ee_IN; omega)
    (by unfold Reg.AN_Cx_TRIG Reg.AN_REF_STATUS; omega)
  have hcommon : u.rd Reg.AN_COMMON = s.dev.rd Reg.AN_COMMON := hrd _ (by unfold anReg Reg.AN_FAULT Reg.AN_COMMON Reg.AN_Cx_Ee_IN; omega)
    (by unfold Reg.AN_COMMON Reg.AN_REF_STATUS; omega)
  have hkind : u.trigKind x = s.dev.fld (Reg.AN_Cx_TRIG x) 1 0 := by rw [Dev.trigKind, if_neg (by omega), Dev.fld_congr htrig]
  have hafter := Dev.adcAfterBoundary_law (d := u) (x := x) (by rw [hself]; exact hnoskip) (by rw [hself]; exact hrolling) (by rw [hself]; exact hwanted)
    (by rw [hself]) (by rw [hself]; exact hguest) s.clock.dtime
  obtain ⟨hev'', hseqs, hpending, hstart⟩ := hafter
  rw [hkind, Dev.adcOn, Dev.bit_congr hcfg, Dev.adcCommon, Dev.bit_congr hcommon, Dev.adcEntries, Dev.fld_congr hcfg, hself] at hstart
  have hout : (u.adc x).out = false := by
    rw [hself]
    exact Bool.eq_false_iff.mpr fun h => hskips (.inr (.inl h))
  have hend := State.sequenceEnd_eq hruns hitems hu.symm hout (by rw [hswaps', Dev.raise_swaps, hregs, hswaps])
  refine ⟨s.withDev (u.adcAfterBoundary s.clock.dtime x), ?_, deviceOnly_withDev _ _, ?_, ?_, hpending, hstart⟩
  · rw [exec, execAdcSequenceEnd, State.actAll_running _ _ hr, hend]
  · exact hev''.trans (hev'.trans (by rw [Dev.raise_ev, hev]))
  · exact hseqs.trans (by rw [hself])

end Sys2Proof.Machine
end

section
/-! ## O30 -/

namespace Sys2Proof.Machine
open Sys2Proof.Claims

/-- The register with the trigger settings of a delay unit: of a converter, or of the common source (R279). -/
def trigReg (who : Fin 5) : Nat := if who = 4 then Reg.AN_COMMON else Reg.AN_Cx_TRIG who

theorem Dev.trigReg_value (d : Dev) (who : Fin 5) : (if who.val = 4 then d.rdN Reg.AN_COMMON else d.rdN (Reg.AN_Cx_TRIG who)) = d.rdN (trigReg who) := by
  have h4 : who.val = 4 ↔ who = 4 := (Fin.ext_iff (b := 4)).symm
  rw [if_congr h4 rfl rfl, trigReg, apply_ite d.rdN]

theorem Dev.trigNames_event (d : Dev) (who : Fin 5) (n : Fin 256) :
    d.trigNames who (.event n) = true ↔ d.fld (trigReg who) 1 0 = 1 ∧ d.fld (trigReg who) 9 2 = n := by
  unfold Dev.trigNames
  rw [Dev.trigReg_value]
  simp only [Bool.and_eq_true, decide_eq_true_eq, Dev.fld]

theorem Dev.trigNames_lace (d : Dev) (who : Fin 5) (b : Fin 8) (c : Fin 16) (what : Fin 6) :
    d.trigNames who (.lace b c what) = true ↔
      d.fld (trigReg who) 1 0 = 2 ∧ d.fld (trigReg who) 12 10 = b ∧ d.fld (trigReg who) 16 13 = c ∧ d.fld (trigReg who) 19 17 = what := by
  unfold Dev.trigNames
  rw [Dev.trigReg_value]
  simp only [Bool.and_eq_true, decide_eq_true_eq, Dev.fld, and_assoc]

/-- Settles O30. The commands are taken one by one: who is sent a trigger and what a trigger does, the conversions of an entry, the DMA, the end of
a sequence, calibrations, references, sources and faults. That a converter stamps with DTIME at the command is the model's choice (log 84), and so is
that a trigger tick has an effect only where the settings name it (log 85). -/
theorem convertersTriggerConvertAndCalibrate : Obligations.ConvertersTriggerConvertAndCalibrate := by
  unfold Obligations.ConvertersTriggerConvertAndCalibrate
  refine ⟨fun s mask hr => ⟨adcSoftwareTrigger_sends hr mask, adcSelfCalibrate_starts hr mask⟩, fun s x dt hr => ?_, fun s who src hr => ?_, fun s hr => ?_⟩
  · refine ⟨adcTriggerSeen_answers hr x dt, ?conversions, ?idle, ?faults, ?calibration, ?dma, ?nothingToWrite, ?notOver, adcSequenceEnd_ends hr x⟩
    case conversions => exact fun c overload o e rest hruns hitems => adcConversionDone_counts hr x dt hruns hitems c overload
    case idle => exact adcConversionDone_idle hr x dt
    case faults => exact fun cause => ⟨adcConverterFault_stands hr x cause, adcConverterFault_stops hr x cause⟩
    case calibration => exact fun y meas hfrom _ => adcCalibrationDone_takes hr x hfrom meas
    case dma => exact fun o word stamp result rest hquiet hqueue => adcResultWrite_writes hr hquiet x o hqueue
    case nothingToWrite => exact adcResultWrite_empty hr x
    case notOver => exact adcSequenceEnd_running hr x
  · intro f named
    have hnamed : s.dev.trigNames who src = true ↔ named := by
      cases src with
      | event n => exact s.dev.trigNames_event who n
      | lace b c what => exact s.dev.trigNames_lace who b c what
    refine ⟨fun h => adcTriggerTick_unnamed hr who src (Bool.eq_false_iff.mpr fun hn => h (hnamed.mp hn)), fun h => ?_,
      fun y hdue => adcDelayEmit_sends hr who hdue⟩
    have hn := hnamed.mpr h
    exact ⟨fun hwho => (adcTriggerTick_common hr who src hn hwho).1, fun hwho => (adcTriggerTick_common hr who src hn hwho).2,
      adcTriggerTick_away hr who src, adcTriggerTick_own hr who src hn⟩
  · exact ⟨fun y => adcReferenceReady_external hr, fun y => adcReferenceReady_internal hr, externalReferenceLow_recorded hr, externalReferenceLow_over hr,
      excitationAtCompliance_records hr⟩

end Sys2Proof.Machine
end
